-- ==== Sys2Proof/Word.lean ====
section
/-! DEFINITION. The word types of the module, and the sparse tables that hold its memories and its many like units. -/

namespace Sys2Proof

/-- A byte of any memory (00 R6). -/
abbrev Byte := BitVec 8

/-- A scalar register or a control register word (02 R23). -/
abbrev Word := BitVec 32

/-- One lane of a vector register (03, "Vector engine"). -/
abbrev Lane := BitVec 16

/-- A 32 B row: one bank row, one queue entry, one mesh flit payload (02 R30, R36). -/
abbrev Row := BitVec 256

/-- A tide count (00 R4). -/
abbrev Count := BitVec 48

/-- A sparse table by number, in one canonical form: keys strictly rise, and no entry equals what an unlisted key reads as. -/
abbrev Tbl (α : Type) := List (Nat × α)

/-- A byte memory by address, unlisted addresses reading 0 (the zeroised state, 15 R388). -/
abbrev Mem := Tbl Byte

end Sys2Proof
end

