-- ==== Sys2Proof/Machine/Bits.lean ====
section
/-! DEFINITION. Bit fields, bytes and words, and the reads and writes of the sparse tables: the plainest operations,
used by every other file of the machine. -/

namespace Sys2Proof.Machine

/-- Bits [lo + len - 1 : lo] of a word, as a number (00 R5). -/
def fld {n : Nat} (w : BitVec n) (lo len : Nat) : Nat := (w.extractLsb' lo len).toNat

/-- The mask of bits [lo + len - 1 : lo]. -/
def fldMask (n lo len : Nat) : BitVec n := BitVec.ofNat n ((2 ^ len - 1) <<< lo)

/-- The word with bits [lo + len - 1 : lo] replaced by the low bits of v. -/
def setFld {n : Nat} (w : BitVec n) (lo len v : Nat) : BitVec n :=
  (w &&& ~~~ fldMask n lo len) ||| BitVec.ofNat n ((v % 2 ^ len) <<< lo)

/-- The word with bit i set to b. -/
def setBit {n : Nat} (w : BitVec n) (i : Nat) (b : Bool) : BitVec n := setFld w i 1 b.toNat

/-- Byte i of a word held little-endian (00 R6). -/
def byteAt {n : Nat} (w : BitVec n) (i : Nat) : Byte := w.extractLsb' (8 * i) 8

/-- The n bytes of a word, lowest first (00 R6). -/
def bytesOf {w : Nat} (v : BitVec w) (n : Nat) : List Byte := (List.range n).map (byteAt v)

/-- The number that bytes spell, lowest first (00 R6). -/
def natOfBytes : List Byte → Nat
  | [] => 0
  | b :: bs => b.toNat + 256 * natOfBytes bs

/-- The word of n bits that bytes spell, lowest first (00 R6). -/
def ofBytes (n : Nat) (bs : List Byte) : BitVec n := BitVec.ofNat n (natOfBytes bs)

/-- The number at byte offset off, of len bytes, in a byte string; bytes past the end read 0. -/
def leAt (bs : List Byte) (off len : Nat) : Nat := natOfBytes ((bs.drop off).take len)

/-- A byte string cut or zero-filled to n bytes. -/
def padTo (n : Nat) (bs : List Byte) : List Byte := (bs ++ List.replicate (n - bs.length) 0).take n

/-- A byte string as rows of 32 B, the last zero-filled; fuel bounds the rows. -/
def rowsOf : Nat → List Byte → List Row
  | 0, _ => []
  | k + 1, bs => if bs.isEmpty then [] else ofBytes 256 (bs.take 32) :: rowsOf k (bs.drop 32)

/-- The bytes of rows, in order. -/
def bytesOfRows (rs : List Row) : List Byte := rs.flatMap (fun r => bytesOf r 32)

/-- a divided by b, rounded up. -/
def ceilDiv (a b : Nat) : Nat := (a + b - 1) / b

/-- The entry of a sparse table at key k; an unlisted key reads d. -/
def tget {α : Type} (d : α) : Tbl α → Nat → α
  | [], _ => d
  | (j, a) :: t, k => if j = k then a else tget d t k

/-- A sparse table without its entry at key k. -/
def terase {α : Type} : Tbl α → Nat → Tbl α
  | [], _ => []
  | (j, a) :: t, k => if j = k then t else if k < j then (j, a) :: t else (j, a) :: terase t k

/-- A sparse table with key k listed as v, whatever v is. -/
def tput {α : Type} : Tbl α → Nat → α → Tbl α
  | [], k, v => [(k, v)]
  | (j, a) :: t, k, v =>
    if j = k then (k, v) :: t else if k < j then (k, v) :: (j, a) :: t else (j, a) :: tput t k v

/-- Writes key k of a sparse table: a value that an unlisted key already reads as removes the entry. -/
def tset {α : Type} [DecidableEq α] (d : α) (t : Tbl α) (k : Nat) (v : α) : Tbl α :=
  if v = d then terase t k else tput t k v

/-- Replaces the entry at key k by its image. -/
def tmod {α : Type} [DecidableEq α] (d : α) (t : Tbl α) (k : Nat) (f : α → α) : Tbl α :=
  tset d t k (f (tget d t k))

/-- The canonical form: keys strictly rise and no entry equals the default. -/
def twf {α : Type} [DecidableEq α] (d : α) : Tbl α → Bool
  | [] => true
  | [(_, a)] => a ≠ d
  | (j, a) :: (k, b) :: t => a ≠ d && j < k && twf d ((k, b) :: t)

/-- Every listed entry replaced by its image, entries that become the default dropped. -/
def tmapv {α : Type} [DecidableEq α] (d : α) (f : Nat → α → α) : Tbl α → Tbl α
  | [] => []
  | (j, a) :: t => if f j a = d then tmapv d f t else (j, f j a) :: tmapv d f t

/-- The n bytes of a byte memory from address a. -/
def mread (m : Mem) (a n : Nat) : List Byte := (List.range n).map (fun i => tget 0 m (a + i))

/-- A byte memory with bytes written from address a up. -/
def mwrite : Mem → Nat → List Byte → Mem
  | m, _, [] => m
  | m, a, b :: bs => mwrite (tset 0 m a b) (a + 1) bs

/-- The canonical form of a byte memory: addresses strictly rise and no entry is 0. -/
abbrev Memory.wf (m : Mem) : Bool := twf (0 : Byte) m

/-- The index of the first element that meets a test. -/
def firstIdx {α : Type} (p : α → Bool) : List α → Option Nat
  | [] => none
  | a :: t => if p a then some 0 else (firstIdx p t).map (· + 1)

/-- A list without its k-th element. -/
def dropIdx {α : Type} : Nat → List α → List α
  | _, [] => []
  | 0, _ :: t => t
  | k + 1, a :: t => a :: dropIdx k t

/-- A list with its k-th element replaced. -/
def setIdx {α : Type} : Nat → α → List α → List α
  | _, _, [] => []
  | 0, v, _ :: t => v :: t
  | k + 1, v, a :: t => a :: setIdx k v t

end Sys2Proof.Machine
end

