-- ==== Sys2Proof/Syntax.lean ====
section
/-! DEFINITION. The commands of the block: one constructor per row of spec/opcode_table.json, with the operands the row's
rule gives it. A core command names the core by its global number g = Y * 960 + X (00 R2); the other operands of an
instruction are the fields of its word, immediates already extended (03 R57, R67). -/

namespace Sys2Proof

/-- A scalar or vector register number, an accumulator block number, or a five-bit field of the body (03 R56). -/
abbrev Reg := Fin 32

/-- A predicate register number (03 R56). -/
abbrev Pred := Fin 8

/-- The four engines of a core, in the order of FAULT_STATUS.ENGINE (02 Table 2-5). -/
inductive Engine where
  | scalar
  | vector
  | matrix
  | dma
deriving DecidableEq, Repr

/-- The conditions of CMP and CMPI (03 R68). -/
inductive Cond where
  | eq
  | ne
  | lt
  | ge
  | ltu
  | geu
deriving DecidableEq, Repr

/-- The functions of PLOG (03 R68). -/
inductive PlogOp where
  | and
  | or
  | xor
  | andn
deriving DecidableEq, Repr

/-- The lane formats of VF (03 R78). -/
inductive LaneFmt where
  | h16
  | w16
  | i16
deriving DecidableEq, Repr

/-- The conditions of VCMP, carried in RM (03 R82). -/
inductive VCond where
  | eq
  | lt
  | le
  | un
deriving DecidableEq, Repr

/-- The rounding of an instruction: RM 0b00, 0b01, or 0b10 with the operands of the second word (03 R57, R79). -/
inductive Rounding where
  | rne
  | rtz
  | sr (eix : Byte) (rs : Reg)
deriving DecidableEq, Repr

/-- The tile formats, in the order of their FMT codes (05 Table 5-1). -/
inductive TileFmt where
  | h16
  | w16
  | e5
  | e4
  | e3
  | e2
  | i8
  | i4
deriving DecidableEq, Repr

/-- The modes of MMASK (04 R109). -/
inductive MaskMode where
  | causal
  | window
  | band
deriving DecidableEq, Repr

/-- A command entry as the module reads it from a submission ring (14 Table 14-6): its pair, CID, partition, target count,
buffer address and length, arguments; resv says that a reserved bit of the entry is set; data are the bytes of the buffer
that the module reads. -/
structure Cmd where
  qp      : Fin 33
  cid     : BitVec 16
  part    : Fin 32
  tc      : Count
  bufAddr : BitVec 64
  bufLen  : Word
  args    : Vector Word 8
  resv    : Bool
  data    : List Byte
deriving DecidableEq, Repr

/-- An error on a link in a step, as the far end of router and side sees it: one bit of the payload (corrected), or two, on
data, control or sideband bits; the bits are those of the flit that the error changes; lost says that the reverse transfer that
would carry DROP is itself dropped (11 R260). -/
structure LinkUpset where
  router : Nat
  side   : Fin 4
  fixed  : Bool
  data   : Bool
  lost   : Bool
  bits   : BitVec 256
deriving DecidableEq, Repr

/-- An error in a stored 64-bit word of a core's SRAM: one bit, which reads correct, or two, with the bits that flip
(02 R46). -/
structure SramUpset where
  core  : Nat
  word  : Fin 8192
  fixed : Bool
  bits  : BitVec 64
deriving DecidableEq, Repr

/-- An error that strikes in a step: on a link, in SRAM, or one that leaves a core whose context can no longer be cleared (11 R260;
02 R46; 16 R422). -/
inductive Upset where
  | link (u : LinkUpset)
  | sram (u : SramUpset)
  | stuck (g : Fin 921600)
deriving DecidableEq, Repr

/-- What the controller of a stack says of one reading of a stored tile: whether a line was uncorrectable, and how many were
corrected (12 R297, Table 12-5). -/
structure TileRead where
  bad : Bool
  ce  : Fin 66
deriving DecidableEq, Repr

/-- What it says of one line: uncorrectable, corrected (12 Table 12-5; 14 R337). -/
structure LineRead where
  ue : Bool
  ce : Bool
deriving DecidableEq, Repr

/-- A link block as it arrives, with the codewords of it that were corrected and those that could not be (13 R309, Table 13-7). -/
structure LinkBlock where
  bytes : List Byte
  ce    : Byte
  ue    : Byte
deriving DecidableEq, Repr

/-- What training measures: the lanes that work and the round trip (13 R306, R308). -/
structure Training where
  lanes : Byte
  rtt   : BitVec 16
deriving DecidableEq, Repr

/-- What the stages of a group report: those that do not regulate, and those that find their rail shorted (15 R370; 17 R432). -/
structure Stages where
  bad     : Byte
  shorted : Byte
deriving DecidableEq, Repr

/-- The commands: the rows of the opcode table. -/
inductive Instr where
  /-- ADD (R65): Scalar ALU addition S[D] = S[A] + S[B], wrapping modulo 2^32. -/
  | add (g : Nat) (d a b : Reg)
  /-- SUB (R65): Scalar ALU subtraction S[A] − S[B]. -/
  | sub (g : Nat) (d a b : Reg)
  /-- AND (R65): Scalar bitwise AND of two registers. -/
  | and (g : Nat) (d a b : Reg)
  /-- OR (R65): Scalar bitwise OR of two registers. -/
  | or (g : Nat) (d a b : Reg)
  /-- XOR (R65): Scalar bitwise XOR of two registers. -/
  | xor (g : Nat) (d a b : Reg)
  /-- SHL (R65): Scalar logical left shift by B[4:0]. -/
  | shl (g : Nat) (d a b : Reg)
  /-- SHR (R65): Scalar logical right shift by B[4:0]. -/
  | shr (g : Nat) (d a b : Reg)
  /-- SRA (R65): Scalar arithmetic right shift by B[4:0]. -/
  | sra (g : Nat) (d a b : Reg)
  /-- MUL (R65): Low 32 bits of the scalar product, latency 2. -/
  | mul (g : Nat) (d a b : Reg)
  /-- MULHU (R65): High 32 bits of the unsigned scalar product. -/
  | mulhu (g : Nat) (d a b : Reg)
  /-- MULHS (R65): High 32 bits of the signed scalar product. -/
  | mulhs (g : Nat) (d a b : Reg)
  /-- MIN (R65): Signed scalar minimum. -/
  | min (g : Nat) (d a b : Reg)
  /-- MAX (R65): Signed scalar maximum. -/
  | max (g : Nat) (d a b : Reg)
  /-- MINU (R65): Unsigned scalar minimum. -/
  | minu (g : Nat) (d a b : Reg)
  /-- MAXU (R65): Unsigned scalar maximum. -/
  | maxu (g : Nat) (d a b : Reg)
  /-- DIVU (R66): Unsigned 18-step division, never faulting, divide by zero gives all ones. -/
  | divu (g : Nat) (d a b : Reg)
  /-- REMU (R66): Unsigned remainder, divide by zero gives A. -/
  | remu (g : Nat) (d a b : Reg)
  /-- DIVS (R66): Signed division truncating toward zero with defined special cases. -/
  | divs (g : Nat) (d a b : Reg)
  /-- REMS (R66): Signed remainder with the sign of A and defined special cases. -/
  | rems (g : Nat) (d a b : Reg)
  /-- ADDI (R67): Scalar add of a sign-extended immediate. -/
  | addi (g : Nat) (d a : Reg) (imm : Word)
  /-- ANDI (R67): Scalar AND with an immediate. -/
  | andi (g : Nat) (d a : Reg) (imm : Word)
  /-- ORI (R67): Scalar OR with an immediate. -/
  | ori (g : Nat) (d a : Reg) (imm : Word)
  /-- XORI (R67): Scalar XOR with an immediate. -/
  | xori (g : Nat) (d a : Reg) (imm : Word)
  /-- SHLI (R67): Scalar left shift by an immediate amount. -/
  | shli (g : Nat) (d a : Reg) (amt : Fin 32)
  /-- SHRI (R67): Scalar logical right shift by an immediate amount. -/
  | shri (g : Nat) (d a : Reg) (amt : Fin 32)
  /-- SRAI (R67): Scalar arithmetic right shift by an immediate amount. -/
  | srai (g : Nat) (d a : Reg) (amt : Fin 32)
  /-- LI (R67): Loads an immediate into a scalar register. -/
  | li (g : Nat) (d : Reg) (imm : Word)
  /-- CMP (R68): Compares two scalar registers and writes a predicate. -/
  | cmp (g : Nat) (p : Pred) (a b : Reg) (c : Cond)
  /-- CMPI (R68): Compares a scalar register with an immediate and writes a predicate. -/
  | cmpi (g : Nat) (p : Pred) (a : Reg) (c : Cond) (imm : Word)
  /-- PLOG (R68): Combines two predicates by AND, OR, XOR or ANDN. -/
  | plog (g : Nat) (p a b : Pred) (op : PlogOp)
  /-- LDW (R69): Loads an aligned 32-bit word from SRAM. -/
  | ldw (g : Nat) (d a : Reg) (imm : Word)
  /-- LDH (R69): Loads a sign-extended halfword from SRAM. -/
  | ldh (g : Nat) (d a : Reg) (imm : Word)
  /-- LDHU (R69): Loads a zero-extended halfword from SRAM. -/
  | ldhu (g : Nat) (d a : Reg) (imm : Word)
  /-- LDB (R69): Loads a sign-extended byte from SRAM. -/
  | ldb (g : Nat) (d a : Reg) (imm : Word)
  /-- LDBU (R69): Loads a zero-extended byte from SRAM. -/
  | ldbu (g : Nat) (d a : Reg) (imm : Word)
  /-- STW (R69): Stores a 32-bit word to SRAM. -/
  | stw (g : Nat) (d a : Reg) (imm : Word)
  /-- STH (R69): Stores the low halfword to SRAM. -/
  | sth (g : Nat) (d a : Reg) (imm : Word)
  /-- STB (R69): Stores the low byte to SRAM. -/
  | stb (g : Nat) (d a : Reg) (imm : Word)
  /-- BR (R70): PC-relative jump, pausing fetch until it begins. -/
  | br (g : Nat) (off : BitVec 15)
  /-- BRL (R70): PC-relative jump that writes the return address. -/
  | brl (g : Nat) (d : Reg) (off : BitVec 15)
  /-- JR (R70): Jumps to the address in a scalar register. -/
  | jr (g : Nat) (a : Reg)
  /-- JRL (R70): Jumps to a register address and writes the return address. -/
  | jrl (g : Nat) (d a : Reg)
  /-- QRD (R71): Reads a word of an input queue head entry, optionally removing it, once present. -/
  | qrd (g : Nat) (d : Reg) (q w : Fin 8) (rem : Bool)
  /-- CRR (R72): Reads a core control register; reading TIDE_LO captures TIDE_HI. -/
  | crr (g : Nat) (d : Reg) (off : Byte)
  /-- CRW (R72): Writes a core control register; only STALL_W changes. -/
  | crw (g : Nat) (a : Reg) (off : Byte)
  /-- REL (R211): Release on the named engine, completing once its earlier instructions and requested DMA rows are performed. -/
  | rel (g : Nat) (e : Engine)
  /-- ACQ (R212): Acquire on the named engine, dropping its staged copy once earlier ordering instructions complete. -/
  | acq (g : Nat) (e : Engine)
  /-- SYNC_ALL (R213): Waits for all engines to drain, then drops every staged copy except the fetch buffer. -/
  | syncAll (g : Nat)
  /-- STEP_COMMIT_CONTRIBUTE (R149): After earlier instructions complete, STEP.COMMIT sends its GUARD contribution and clears OVF_LOCAL. -/
  | stepCommitContribute (g : Nat)
  /-- STEP_COMMIT (R152): STEP.COMMIT begins on the guard result and writes OVF_JOB, LS_EXP and P7. -/
  | stepCommit (g : Nat)
  /-- END (R172): Ends the active fold once its instructions complete and loads CAND from NEXTMASK. -/
  | endFold (g : Nat)
  /-- SU_CND (R178): Appends a predicate bit to a steering unit's CFIFO. -/
  | suCnd (g : Nat) (u : Fin 4) (p : Pred)
  /-- BRK (R75): Requests a halt when a debugger is attached, otherwise does nothing. -/
  | brk (g : Nat)
  /-- FLAG_SET (R76): Sets a local flag or sends a remote flag set. -/
  | flagSet (g : Nat) (f : Fin 64) (rem : Bool) (tgt : Reg)
  /-- FLAG_CLR (R76): Clears a local flag or sends a remote flag clear. -/
  | flagClr (g : Nat) (f : Fin 64) (rem : Bool) (tgt : Reg)
  /-- FLAG_WAIT (R222): Begins once the flag is set at the start of a step, leaving it set. -/
  | flagWait (g : Nat) (f : Fin 64)
  /-- FLAG_WAITC (R222): Begins once the flag is set and clears it in that step. -/
  | flagWaitc (g : Nat) (f : Fin 64)
  /-- BAR_ARRIVE (R232): Sends a barrier arrival naming the release flag through the control slot queue. -/
  | barArrive (g : Nat) (f : Fin 64) (tgt : Reg)
  /-- CH_PUT (R77): Advances a channel producer counter, locally or remotely. -/
  | chPut (g : Nat) (ch : Fin 16) (amt : Fin 8) (rem : Bool) (tgt : Reg)
  /-- CH_GET (R77): Advances a channel consumer counter, locally or remotely. -/
  | chGet (g : Nat) (ch : Fin 16) (amt : Fin 8) (rem : Bool) (tgt : Reg)
  /-- CH_WAIT (R227): Begins once the channel fill reaches the amount. -/
  | chWait (g : Nat) (ch : Fin 16) (amt : Fin 8)
  /-- VADD (R82): Lane-wise vector addition rounded once by RM. -/
  | vadd (g : Nat) (d a b : Reg) (vf : LaneFmt) (rm : Rounding)
  /-- VSUB (R82): Lane-wise vector subtraction. -/
  | vsub (g : Nat) (d a b : Reg) (vf : LaneFmt) (rm : Rounding)
  /-- VMUL (R82): Lane-wise vector multiplication. -/
  | vmul (g : Nat) (d a b : Reg) (vf : LaneFmt) (rm : Rounding)
  /-- VFMA (R82): Lane-wise fused multiply-add rounded once. -/
  | vfma (g : Nat) (d a b : Reg) (vf : LaneFmt) (rm : Rounding)
  /-- VMIN (R82): Lane-wise IEEE minimum. -/
  | vmin (g : Nat) (d a b : Reg) (vf : LaneFmt)
  /-- VMAX (R82): Lane-wise IEEE maximum. -/
  | vmax (g : Nat) (d a b : Reg) (vf : LaneFmt)
  /-- VCMP (R82): Lane-wise comparison writing all-ones or zero masks. -/
  | vcmp (g : Nat) (d a b : Reg) (vf : LaneFmt) (c : VCond)
  /-- VSEL (R82): Lane-wise select of B where the mask is nonzero. -/
  | vsel (g : Nat) (d a b : Reg) (vf : LaneFmt)
  /-- VAND (R82): Lane-wise bitwise AND. -/
  | vand (g : Nat) (d a b : Reg) (vf : LaneFmt)
  /-- VOR (R82): Lane-wise bitwise OR. -/
  | vor (g : Nat) (d a b : Reg) (vf : LaneFmt)
  /-- VXOR (R82): Lane-wise bitwise XOR. -/
  | vxor (g : Nat) (d a b : Reg) (vf : LaneFmt)
  /-- VSH (R82): Lane-wise I16 shift by a signed amount. -/
  | vsh (g : Nat) (d a b : Reg)
  /-- VABS (R83): Lane-wise absolute value by clearing the sign bit. -/
  | vabs (g : Nat) (d a : Reg) (vf : LaneFmt)
  /-- VNEG (R83): Lane-wise negation by flipping the sign bit. -/
  | vneg (g : Nat) (d a : Reg) (vf : LaneFmt)
  /-- VEXP2 (R83): Correctly rounded 2^A per lane. -/
  | vexp2 (g : Nat) (d a : Reg) (vf : LaneFmt)
  /-- VEXP (R83): Correctly rounded e^A per lane. -/
  | vexp (g : Nat) (d a : Reg) (vf : LaneFmt)
  /-- VLOG2 (R83): Correctly rounded log2 A per lane. -/
  | vlog2 (g : Nat) (d a : Reg) (vf : LaneFmt)
  /-- VRCP (R83): Correctly rounded reciprocal per lane. -/
  | vrcp (g : Nat) (d a : Reg) (vf : LaneFmt)
  /-- VSQRT (R83): Correctly rounded square root per lane. -/
  | vsqrt (g : Nat) (d a : Reg) (vf : LaneFmt)
  /-- VRSQRT (R83): Correctly rounded reciprocal square root per lane. -/
  | vrsqrt (g : Nat) (d a : Reg) (vf : LaneFmt)
  /-- VTANH (R83): Correctly rounded tanh per lane. -/
  | vtanh (g : Nat) (d a : Reg) (vf : LaneFmt)
  /-- VSIGM (R83): Correctly rounded logistic sigmoid per lane. -/
  | vsigm (g : Nat) (d a : Reg) (vf : LaneFmt)
  /-- VRSUM (R85): Exact sum of 32 lanes rounded once and broadcast. -/
  | vrsum (g : Nat) (d a : Reg) (vf : LaneFmt) (rm : Rounding)
  /-- VRMAX (R85): IEEE maximum over the lanes, broadcast. -/
  | vrmax (g : Nat) (d a : Reg) (vf : LaneFmt)
  /-- VRMIN (R85): IEEE minimum over the lanes, broadcast. -/
  | vrmin (g : Nat) (d a : Reg) (vf : LaneFmt)
  /-- VCVT (R86): Converts lanes between H16, W16 and I16 with rounding and saturation. -/
  | vcvt (g : Nat) (d a : Reg) (src vf : LaneFmt) (rm : Rounding)
  /-- VUNPK (R87): Unpacks short-format elements with a block scale into W16 lanes. -/
  | vunpk (g : Nat) (d a b : Reg) (fmt : TileFmt) (part : Fin 4)
  /-- VLD (R89): Loads 64 aligned bytes into a vector register. -/
  | vld (g : Nat) (d a : Reg) (imm : Word)
  /-- VST (R89): Stores a vector register to 64 aligned bytes. -/
  | vst (g : Nat) (d a : Reg) (imm : Word)
  /-- VLDB (R88): Loads 64 bytes of an accumulator bank into a vector register. -/
  | vldb (g : Nat) (d : Reg) (bank : Fin 16) (slot : Fin 8)
  /-- VSTB (R88): Stores a vector register into 64 bytes of an accumulator bank. -/
  | vstb (g : Nat) (d : Reg) (bank : Fin 16) (slot : Fin 8)
  /-- VQRD (R90): Removes two input queue entries into a vector register once present. -/
  | vqrd (g : Nat) (d : Reg) (q : Fin 8)
  /-- VQWR (R90): Writes a vector register as two output queue entries once room exists. -/
  | vqwr (g : Nat) (a : Reg) (q : Fin 4) (first last : Bool)
  /-- VBCS (R88): Broadcasts a scalar halfword to every lane. -/
  | vbcs (g : Nat) (d a : Reg)
  /-- VEXT (R88): Extracts one lane into a scalar register. -/
  | vext (g : Nat) (d a : Reg) (lane : Fin 32)
  /-- VINS (R88): Inserts a scalar halfword into one lane. -/
  | vins (g : Nat) (d a : Reg) (lane : Fin 32)
  /-- VMOV (R88): Copies one vector register to another. -/
  | vmov (g : Nat) (d a : Reg)
  /-- VIOTA (R88): Writes an incrementing sequence into the lanes. -/
  | viota (g : Nat) (d a : Reg)
  /-- MMA (R100): Dense matrix multiply-accumulate with exact sum rounded once into accumulator blocks. -/
  | mma (g : Nat) (d a b : Reg) (mf : TileFmt) (rm : Rounding)
  /-- MMAS (R199): Sparse matrix multiply over a bitmap-form operand with per-bank conflict queues. -/
  | mmas (g : Nat) (d a b : Reg) (mf : TileFmt) (rm : Rounding)
  /-- MSTG (R107): Copies SRAM rows into the staging store. -/
  | mstg (g : Nat) (a b : Reg)
  /-- MSTGQ (R107): Moves input queue entries into staging rows. -/
  | mstgq (g : Nat) (q : Fin 8) (b : Reg)
  /-- MZERO (R107): Writes zero into accumulator blocks. -/
  | mzero (g : Nat) (d fn : Reg)
  /-- MBST (R107): Copies accumulator blocks to SRAM. -/
  | mbst (g : Nat) (d a fn : Reg)
  /-- MBLD (R107): Copies SRAM into accumulator blocks. -/
  | mbld (g : Nat) (d a fn : Reg)
  /-- MMASK (R109): Masks a score block to minus infinity by 24-bit positions and mode. -/
  | mmask (g : Nat) (d a b : Reg) (mode : MaskMode)
  /-- MSMX (R110): Updates running softmax state and writes probabilities into staging. -/
  | msmx (g : Nat) (d a b : Reg)
  /-- MSCL (R111): Rescales accumulated output by the correction factor. -/
  | mscl (g : Nat) (d a b : Reg)
  /-- DMOV (R112): Loads and checks a DMA descriptor into an idle slot. -/
  | dmov (g : Nat) (slot : Fin 4) (a : Reg) (imm : Word)
  /-- DWAIT (R113): Completes once every slot in the mask is idle. -/
  | dwait (g : Nat) (mask : BitVec 4)
  /-- INSTRUCTION_FETCH (R59): Fetch reads the code window, decodes and dispatches one instruction to an issue queue. -/
  | instructionFetch (g : Nat)
  /-- COPY_ROW (R116): A busy COPY slot reads and then writes one SRAM row when banks serve it. -/
  | copyRow (g : Nat) (slot : Fin 4)
  /-- QIN_ENTRY (R115): A QIN slot moves one raw input queue entry to SRAM when present. -/
  | qinEntry (g : Nat) (slot : Fin 4)
  /-- QOUT_ENTRY (R115): A QOUT slot moves one SRAM row to an output queue when room exists. -/
  | qoutEntry (g : Nat) (slot : Fin 4)
  /-- TIN_ENTRY (R118): A TIN slot moves one tile entry into its SRAM ring, waiting for ring room. -/
  | tinEntry (g : Nat) (slot : Fin 4)
  /-- TSTG_ENTRY (R196): A TSTG slot moves one tile entry, header to SRAM and payload densely into staging. -/
  | tstgEntry (g : Nat) (slot : Fin 4)
  /-- STG_ROW (R115): An STG slot copies one SRAM row into staging. -/
  | stgRow (g : Nat) (slot : Fin 4)
  /-- FWD_ENTRY (R115): A FWD slot moves one entry from an input queue to an output queue unchanged. -/
  | fwdEntry (g : Nat) (slot : Fin 4)
  /-- TOUT_SOURCE_READ (R119): A TOUT slot reads its template and source values afresh. -/
  | toutSourceRead (g : Nat) (slot : Fin 4)
  /-- TILE_FORM (R189): The compressor completes forming a tile, choosing scales, NNZ, form and CRC. -/
  | tileForm (g : Nat) (slot : Fin 4)
  /-- TOUT_ENTRY (R189): A TOUT slot emits one formed tile entry when the queue has room. -/
  | toutEntry (g : Nat) (slot : Fin 4)
  /-- DMA_SLOT_COMPLETE (R117): A slot finishes a tile or transfer, advances its channel and sets its flag. -/
  | dmaSlotComplete (g : Nat) (slot : Fin 4)
  /-- ENTRY_ARRIVAL (R164): The router's local port writes an entry into an input queue, marking loose entries. -/
  | entryArrival (g : Nat) (q : Fin 8)
  /-- FOLD_CHOICE (R170): With heads settled, the core chooses the lowest matching candidate fold or faults. -/
  | foldChoice (g : Nat)
  /-- FOLD_FIRE (R171): The chosen fold fires once its entries and room are present. -/
  | foldFire (g : Nat)
  /-- STEER_DECIDE (R176): A SWITCH steering unit decides on a token head once its condition input is available. -/
  | steerDecide (g : Nat) (u : Fin 4)
  /-- TOKEN_DROP (R177): A steering unit removes one entry of a dropped token. -/
  | tokenDrop (g : Nat) (u : Fin 4)
  /-- STALE_TOKEN_DISCARD (R183): A stale token head is discarded entry by entry or faults the core. -/
  | staleTokenDiscard (g : Nat) (q : Fin 8)
  /-- STALL_WATCHDOG (R181): The stall count reaches STALL_W and raises STALL. -/
  | stallWatchdog (g : Nat)
  /-- QUIESCENCE_CHECK (R184): Every 256 steps the rake checks that reloaded slots are quiescent. -/
  | quiescenceCheck (k : Fin 32)
  /-- RELOAD_COMMIT (R184): At the commit count every core takes the new fold configurations and flips epochs. -/
  | reloadCommit (k : Fin 32)
  /-- RELOAD_TIMEOUT (R184): QTMO expires without confirmation and the reload completes with TIMEOUT. -/
  | reloadTimeout (k : Fin 32)
  /-- HALT_REQUEST (R41): A halt request stops fetch and waits for begun instructions to drain. -/
  | haltRequest (g : Nat)
  /-- HALT_ENTRY (R485): Once every head has begun and slots stop, the core enters HALT. -/
  | haltEntry (g : Nat)
  /-- CORE_START_RUN (R355): At the start count every core of the partition enters RUN. -/
  | coreStartRun (k : Fin 32)
  /-- FLAG_SET_MESSAGE (R224): A remote FLAG_SET message is applied at its target at the end of the step. -/
  | flagSetMessage (g : Nat)
  /-- FLAG_CLR_MESSAGE (R224): A remote FLAG_CLR message is applied at its target. -/
  | flagClrMessage (g : Nat)
  /-- CH_PUT_MESSAGE (R226): A remote CH_PUT advances the target pair, faulting it on a bound break. -/
  | chPutMessage (g : Nat)
  /-- CH_GET_MESSAGE (R226): A remote CH_GET advances the target consumer counter, faulting on underflow. -/
  | chGetMessage (g : Nat)
  /-- FAULT_MESSAGE (R464): The controller receives a core FAULT message and records the first fault. -/
  | faultMessage
  /-- GUARD (R271): A collector accumulates a GUARD contribution and sends its pan message when complete. -/
  | guard (p : Fin 96)
  /-- GUARD_WD (R271): A collector or the guard unit subtracts a guard withdrawal, or discards it. -/
  | guardWd (p : Fin 97)
  /-- GUARD_PAN_RECEIVE (R150): The guard unit combines a pan message and decides the module overflow bit. -/
  | guardPanReceive
  /-- GUARD_RES (R152): A guard result message reaches a member's control port, including a withdrawn member. -/
  | guardRes (g : Nat)
  /-- GUARD_TIMEOUT (R153): GTMO expires for an incomplete guard step and the job ends with TIMEOUT. -/
  | guardTimeout (k : Fin 32)
  /-- BAR_ARR (R232): A collector records a barrier arrival and sends its pan message when complete. -/
  | barArr (p : Fin 96)
  /-- BAR_PAN_RECEIVE (R232): The barrier unit counts arrivals and releases or reports completion. -/
  | barPanReceive
  /-- BAR_REL (R233): A barrier release sets the release flag at each recorded arriver. -/
  | barRel (g : Nat)
  /-- JOB_END_OK_COMPLETE (R354): After drains and zeroisation the partition is EMPTY and JOB_END is posted. -/
  | jobEndOkComplete (k : Fin 32)
  /-- NODE_STEP (R240): A tide node begins its next step once all its parts, its pace release and neighbours allow. -/
  | nodeStep (n : Fin 100) (ups : List Upset)
  /-- PACE_RELEASE (R241): A node's pace timer issues a release at the period of the rate code. -/
  | paceRelease (n : Fin 100)
  /-- RATE_CHANGE_APPLY (R246): Each node switches its pace period at target count T. -/
  | rateChangeApply (n : Fin 100)
  /-- REF_LOST (R248): The reference monitor declares loss; pace falls back, ports go down and an alarm is raised. -/
  | refLost
  /-- REF_BACK (R249): After 100 ms in limits, the pace returns to the reference. -/
  | refBack
  /-- HOLD_RAISE (R250): HOLD reaches every live node and rim block, freezing them at step end. -/
  | holdRaise
  /-- HOLD_RELEASE (R252): HOLD_CTRL.RELEASE with no causes resumes every node. -/
  | holdRelease
  /-- SLUICE_DEAD (R253): A receiver waits 1 µs for an entry and raises HOLD with SLUICE_DEAD. -/
  | sluiceDead (x : Fin 384)
  /-- PAN_POWER (R429): A pan stage comparator fires, commands the breaker open and raises HOLD. -/
  | panPower (p : Fin 96)
  /-- BREAKER_OPEN (R430): With BRK or FUSE set, the controller removes the pan, ends involved jobs and releases HOLD. -/
  | breakerOpen (p : Fin 96) (fuse : Bool)
  /-- BRKFAIL (R429): The breaker has not opened within 5 µs and BRKFAIL is set. -/
  | brkfail (p : Fin 96)
  /-- PAN_TRIP (R437): A pan sensor reaches 110 °C, opens the breaker and raises HOLD. -/
  | panTrip (p : Fin 96)
  /-- MOD_TRIP (R438): Outlet over 70 °C or four pan trips open every breaker and end every job. -/
  | modTrip
  /-- THERMAL_SAMPLE (R435): The management block samples sensors every 100 µs and sets warning, throttle and hot levels. -/
  | thermalSample (temps : List Byte) (inA inB outA outB : Byte)
  /-- THERM_STEP (R448): Every 10 ms of throttle or 100 ms without it, THERM moves by a step. -/
  | thermStep
  /-- LCODE_CHANGE_APPLY (R262): At the scheduled count every router takes the new period and lane indices. -/
  | lcodeChangeApply
  /-- ABSORB_QUIET (R281): Absorbed buffers have been empty for a period; slot fields and ownership are cleared. -/
  | absorbQuiet (k : Fin 32)
  /-- STREAM_READ_TILE (R297): A READ context reads, verifies, decodes, folds and injects one tile. -/
  | streamReadTile (e : Fin 48) (c : Fin 64) (one two : TileRead)
  /-- STREAM_WRITE_TILE (R299): A WRITE context checks a spilled tile and writes it to its slot. -/
  | streamWriteTile (e : Fin 48) (c : Fin 64)
  /-- STREAM_DIGEST_FORM (R302): Once every closing context has closed a period, the controller forms the stream digest. -/
  | streamDigestForm (k : Fin 32)
  /-- CXL_MEM_READ (R290): A host CXL.mem read returns decrypted, raw or zero data depending on the window. -/
  | cxlMemRead (a : Nat) (src : BitVec 12) (line : LineRead)
  /-- CXL_MEM_WRITE (R290): A host CXL.mem write is encrypted into an open window or discarded. -/
  | cxlMemWrite (a : Nat) (src : BitVec 12) (mask : BitVec 64) (line : List Byte)
  /-- LINK_BLOCK_RECEIVE (R310): A port accepts an in-order intact link block or discards it and sets NAK. -/
  | linkBlockReceive (p : Fin 48) (block : LinkBlock)
  /-- RETRY_EXHAUSTED (R311): An episode fails eight attempts or 10 µs and the port goes DOWN. -/
  | retryExhausted (p : Fin 48)
  /-- PORT_TRAINED (R306): All eight lanes train and the port comes UP, measuring its round trip. -/
  | portTrained (p : Fin 48) (link : Training)
  /-- PACKET_HEADER_ARRIVAL (R324): A router checks an arriving header and forwards or drops the packet. -/
  | packetHeaderArrival (p : Fin 48)
  /-- PACKET_DEPARTURE (R316): A packet starts on an output once its header is in and credits cover it. -/
  | packetDeparture (p : Fin 48)
  /-- EGRESS_TOKEN_SEND (R325): The egress unit sends a token as an encrypted DATA packet, spending a credit. -/
  | egressTokenSend (x : Fin 4096)
  /-- DATA_PACKET_ARRIVAL (R326): An endpoint matches a DATA packet to its channel, checks its tag and accepts or drops it. -/
  | dataPacketArrival (ep : Byte)
  /-- INGRESS_DELIVERY (R327): The ingress unit injects a channel's packets into the mesh in ESEQ order and releases buffers. -/
  | ingressDelivery (x : Fin 4096)
  /-- XPORT (R327): A sender takes an acknowledgement and credit return from an XPORT packet. -/
  | xport (ep : Byte)
  /-- RETRY_START (R329): A RETRY_START notice pauses the source's transport timers. -/
  | retryStart (ep : Byte)
  /-- RETRY_END (R329): A RETRY_END notice ends the pause. -/
  | retryEnd (ep : Byte)
  /-- PATH_LOST (R328): A PATH_LOST notice resends a packet on ALT once, or ends the job on the resent copy. -/
  | pathLost (ep : Byte)
  /-- LENGTH (R324): A LENGTH notice ends the sending job with BOUNDS. -/
  | length (ep : Byte)
  /-- RETRY_START_EXPIRY (R329): An unclosed RETRY_START is treated as closed after 12 µs. -/
  | retryStartExpiry (ep : Byte)
  /-- TRANSPORT_TIMEOUT (R328): A packet's transport timer expires, causing one resend or the job's end. -/
  | transportTimeout (ep : Byte) (i : Nat)
  /-- PORT_RETRAIN_DONE (R307): A DOWN port retrains to UP or becomes FAILED within 5 ms. -/
  | portRetrainDone (p : Fin 48) (rtt : Option (BitVec 16))
  /-- GUARD_BIT (R151): A module receives another module's overflow bit for a guard step. -/
  | guardBit
  /-- BAR_DONE (R232): The home module receives a module completion and counts MARR. -/
  | barDone
  /-- BAR_REL_CTRL (R232): A module receives the home module's barrier release. -/
  | barRelCtrl
  /-- JOB_END_CTRL (R466): A module receives a remote JOB_END and ends the job with SRC 9. -/
  | jobEndCtrl
  /-- DIGEST_CTRL (R470): A DIGEST message delivers a replica chain value or an expulsion notice. -/
  | digestCtrl
  /-- MOD_QUERY (R349): Returns module identity, cores, licence, CW_MAX and CAL. -/
  | modQuery (c : Cmd)
  /-- REG_READ (R340): Reads up to six words of a controller block. -/
  | regRead (c : Cmd)
  /-- REG_WRITE (R340): Writes up to six words to a permitted controller register. -/
  | regWrite (c : Cmd)
  /-- LICENCE_INSTALL (R410): Installs a signed licence, refusing limits below what is in use. -/
  | licenceInstall (c : Cmd)
  /-- TESTPACK_LOAD (R472): Installs a signed test pack and advances the TP counter. -/
  | testpackLoad (c : Cmd)
  /-- POWER_CAP (R458): Sets TARGET, RAMP and GUARD from a start count. -/
  | powerCap (c : Cmd)
  /-- POWER_CAP_START (R458): The pending start count of a POWER_CAP is reached and its values apply. -/
  | powerCapStart
  /-- MOD_PARK (R450): Sets the OPER park cause and parks the module. -/
  | modPark (c : Cmd)
  /-- MOD_UNPARK (R449): Clears the OPER park cause. -/
  | modUnpark (c : Cmd)
  /-- PARK_WAKE_DONE (R451): Once rails settle, HOLD is released and held partitions resume. -/
  | parkWakeDone
  /-- ENERGY_READ_WINDOW (R457): ENERGY_READ MODE 0 returns the last completed window's joules. -/
  | energyReadWindow (c : Cmd)
  /-- ENERGY_SET_WINDOW (R457): ENERGY_READ MODE 1 sets the window length. -/
  | energySetWindow (c : Cmd)
  /-- ENERGY_READ_MODULE (R457): ENERGY_READ MODE 2 returns module energy, power and caps to the operator. -/
  | energyReadModule (c : Cmd)
  /-- PART_CREATE (R350): Creates a partition over whole pans with its key pair. -/
  | partCreate (c : Cmd)
  /-- PART_DESTROY (R391): Resets if needed, destroys the key pair and frees granules and pans. -/
  | partDestroy (c : Cmd)
  /-- PART_RESET (R389): Drains and zeroises a partition back to EMPTY. -/
  | partReset (c : Cmd)
  /-- PART_RESET_COMPLETE (R389): After zeroisation and clearing the partition enters EMPTY and the reset completes. -/
  | partResetComplete (k : Fin 32)
  /-- PART_QUERY (R349): Returns partition state. -/
  | partQuery (c : Cmd)
  /-- WINDOW_OPEN (R414): Opens the partition's window to the host in PLAIN or RAW mode. -/
  | windowOpen (c : Cmd)
  /-- WINDOW_CLOSE (R414): Closes the partition's window. -/
  | windowClose (c : Cmd)
  /-- JOB_LOAD (R366): Checks and admits a job bundle into an EMPTY partition. -/
  | jobLoad (c : Cmd)
  /-- JOB_LOAD_COMPLETE (R367): The bundle is written, streams armed, cores LOADED and the partition READY. -/
  | jobLoadComplete (k : Fin 32)
  /-- LOADER_TILE (R377): A rake station takes a loader tile from IQ7, checks it and writes it into the context image. -/
  | loaderTile (g : Nat) (ok : Bool)
  /-- JOB_START (R355): Releases a READY job at once or at a target count. -/
  | jobStart (c : Cmd)
  /-- JOB_HOLD (R351): Sets the HOST hold cause. -/
  | jobHold (c : Cmd)
  /-- JOB_RESUME (R351): Clears the HOST hold cause. -/
  | jobResume (c : Cmd)
  /-- JOB_ABORT (R391): Resets the partition with no JOB_END event. -/
  | jobAbort (c : Cmd)
  /-- JOB_SAVE (R392): Waits for sync settle, halts cores and saves contexts and records. -/
  | jobSave (c : Cmd)
  /-- SAVE_SETTLE_TIMEOUT (R235): Credit objects fail to settle within 100 µs and the save completes with TIMEOUT. -/
  | saveSettleTimeout (k : Fin 32)
  /-- SAVE_HALT_TIMEOUT (R392): Cores fail to halt within 16,777,216 steps and the save is withdrawn. -/
  | saveHaltTimeout (k : Fin 32)
  /-- JOB_SAVE_COMPLETE (R392): Contexts and records are written, cores zeroised and the partition SAVED. -/
  | jobSaveComplete (k : Fin 32)
  /-- JOB_RESTORE (R393): Rechecks, rebinds and restores a SAVED partition to READY. -/
  | jobRestore (c : Cmd)
  /-- JOB_EXPORT (R417): Writes a sealed save record to the host. -/
  | jobExport (c : Cmd)
  /-- JOB_IMPORT (R418): Unseals a save record into an EMPTY partition, entering SAVED. -/
  | jobImport (c : Cmd)
  /-- JOB_RELOAD (R184): Starts a normal reload of fold slots with quiescence checks. -/
  | jobReload (c : Cmd)
  /-- JOB_RELOAD_FORCED (R185): Forced reload discards matching tokens and rewrites slots at once. -/
  | jobReloadForced (c : Cmd)
  /-- JOB_STATUS (R349): Returns guard steps, skips, LS_EXP and hold causes. -/
  | jobStatus (c : Cmd)
  /-- FLAG_SET_COMMAND (R512): The host sets a flag in a core of the job via a controller message. -/
  | flagSetCommand (c : Cmd)
  /-- STREAM_START (R296): Starts a stream context from its first descriptor. -/
  | streamStart (c : Cmd)
  /-- STREAM_RELEASE (R296): Releases a WAIT context to RUN. -/
  | streamRelease (c : Cmd)
  /-- STREAM_STOP (R296): Stops a context at the tile boundary, returning it to ARMED. -/
  | streamStop (c : Cmd)
  /-- STREAM_DRAIN (R303): Stops READ contexts and waits for accepted spill tiles to be written. -/
  | streamDrain (c : Cmd)
  /-- STREAM_DRAIN_COMPLETE (R303): Every accepted spill tile is written and the drain completes. -/
  | streamDrainComplete (k : Fin 32)
  /-- STREAM_DRAIN_TIMEOUT (R352): The drain timeout expires and the drain completes with TIMEOUT. -/
  | streamDrainTimeout (k : Fin 32)
  /-- DEBUG_ATTACH (R480): Attaches a debugger to a partition, optionally halting every core. -/
  | debugAttach (c : Cmd)
  /-- DEBUG_DETACH (R494): Detaches the debugger, clearing breakpoints and optionally resuming cores. -/
  | debugDetach (c : Cmd)
  /-- DBG_HALT (R484): Sends halt requests to selected cores and completes when they halt. -/
  | dbgHalt (c : Cmd)
  /-- DBG_HALT_TIMEOUT (R484): The DBG_HALT timeout expires with halts still pending. -/
  | dbgHaltTimeout (k : Fin 32)
  /-- DBG_RUN (R488): Resumes halted cores at a count, optionally halting after N steps. -/
  | dbgRun (c : Cmd)
  /-- DBG_RESUME_COUNT (R488): The resume count is reached and selected cores resume. -/
  | dbgResumeCount (k : Fin 32)
  /-- DBG_BREAK_SET (R486): DBG_BREAK OP 0 sets an address comparator. -/
  | dbgBreakSet (c : Cmd)
  /-- DBG_BREAK_CLEAR (R486): DBG_BREAK OP 1 clears an address comparator. -/
  | dbgBreakClear (c : Cmd)
  /-- DBG_HALT_COUNT_SET (R486): DBG_BREAK OP 2 sets a halt count. -/
  | dbgHaltCountSet (c : Cmd)
  /-- DBG_HALT_COUNT_CLEAR (R486): DBG_BREAK OP 3 clears the halt count. -/
  | dbgHaltCountClear (c : Cmd)
  /-- HALT_COUNT_REACHED (R487): At the halt count every masked core takes a halt request. -/
  | haltCountReached (g : Nat)
  /-- DBG_RAKE_READ (R489): Reads the debug view of a halted core to the host buffer. -/
  | dbgRakeRead (c : Cmd)
  /-- DBG_RAKE_WRITE (R490): Writes the context image of a halted core from the host buffer. -/
  | dbgRakeWrite (c : Cmd)
  /-- DBG_SYNC_SET_FLAG (R492): DBG_SYNC KIND 1 sets a flag. -/
  | dbgSyncSetFlag (c : Cmd)
  /-- DBG_SYNC_CLEAR_FLAG (R492): DBG_SYNC KIND 2 clears a flag. -/
  | dbgSyncClearFlag (c : Cmd)
  /-- DBG_SYNC_WRITE_PRODUCER (R491): DBG_SYNC KIND 3 writes a producer counter of a halted core. -/
  | dbgSyncWriteProducer (c : Cmd)
  /-- DBG_SYNC_WRITE_CONSUMER (R491): DBG_SYNC KIND 4 writes a consumer counter of a halted core. -/
  | dbgSyncWriteConsumer (c : Cmd)
  /-- DBG_SYNC_ADVANCE_PRODUCER (R492): DBG_SYNC KIND 5 sends a CH_PUT to a running core. -/
  | dbgSyncAdvanceProducer (c : Cmd)
  /-- DBG_SYNC_ADVANCE_CONSUMER (R492): DBG_SYNC KIND 6 sends a CH_GET to a running core. -/
  | dbgSyncAdvanceConsumer (c : Cmd)
  /-- DBG_SYNC_WRITE_CR (R492): DBG_SYNC KIND 7 writes CR of a credit object. -/
  | dbgSyncWriteCr (c : Cmd)
  /-- DBG_SYNC_COMPLETE_BARRIER (R492): DBG_SYNC KIND 8 releases the current barrier generation. -/
  | dbgSyncCompleteBarrier (c : Cmd)
  /-- DBG_RESET (R493): Resets selected cores or a cluster to CLEAR. -/
  | dbgReset (c : Cmd)
  /-- DBG_LOG_READ (R497): Returns debug log entries visible to the principal. -/
  | dbgLogRead (c : Cmd)
  /-- DEBUG_GRANT_EXPIRY (R420): The north rim count reaches NOTAFTER and the debug binding ends. -/
  | debugGrantExpiry (q : Fin 33)
  /-- CORE_RESET (R388): The controller stops a core and zeroises it to CLEAR in 192 steps. -/
  | coreReset (g : Nat)
  /-- CLUSTER_RESET (R388): The controller resets the 64 positions of one rake station. -/
  | clusterReset (p : Fin 96) (cl : Fin 150)
  /-- BIND_QP (R399): Binds a queue pair to the proven principal's role. -/
  | bindQp (s : Fin 49) (pair role prin : Byte) (resv : Bool) (grant : List Byte)
  /-- UNBIND_QP (R400): Unbinds a queue pair and closes windows it opened. -/
  | unbindQp (s : Fin 49) (pair : Byte)
  /-- TENANT_ENROL (R397): Writes a tenant key hash into the enrolment table. -/
  | tenantEnrol (s : Fin 49) (prin : Byte) (h : BitVec 512)
  /-- TENANT_REVOKE (R397): Removes a tenant enrolment not named by any partition. -/
  | tenantRevoke (s : Fin 49) (prin : Byte)
  /-- KEY_STAGE (R418): Unwraps and stages a job key on an EMPTY partition for import. -/
  | keyStage (s : Fin 49) (part : Byte) (jk : List Byte)
  /-- KEY_EXCHANGE (R404): Opens an SPDM secured session with mutual authentication. -/
  | keyExchange (mauth : Bool) (key root : BitVec 512)
  /-- GET_MEASUREMENTS (R405): Returns signed measurements filtered by the session's principal. -/
  | getMeasurements (s : Fin 49) (index : Byte)
  /-- END_SESSION (R400): Ends an SPDM session, unbinding its pairs. -/
  | endSession (s : Fin 48)
  /-- HEARTBEAT_MISSED (R400): A session's heartbeat is missed for 24 s and the session ends. -/
  | heartbeatMissed (s : Fin 48)
  /-- CXL_IDE_KM (R407): Manages CXL IDE keys in the operator's session. -/
  | cxlIdeKm (s : Fin 49) (io mem : Bool)
  /-- IDENTIFY_MEMORY_DEVICE (R335): Mailbox command returning memory device identity. -/
  | identifyMemoryDevice
  /-- GET_HEALTH_INFO (R335): Mailbox command returning health information. -/
  | getHealthInfo
  /-- GET_SUPPORTED_LOGS (R335): Mailbox command listing supported logs. -/
  | getSupportedLogs
  /-- GET_LOG (R335): Mailbox command returning a log. -/
  | getLog (log : Nat)
  /-- SQ_TAIL (R342): A submission doorbell makes entries available, or stops the pair on a bad index. -/
  | sqTail (q : Fin 33) (i : BitVec 12)
  /-- CQ_HEAD (R342): A completion doorbell frees completion entries, or stops the pair if it passes the tail. -/
  | cqHead (q : Fin 33) (i : BitVec 12)
  /-- QP_ENABLE (R342): Setting QP_CTRL.EN resets both ring indices and the phase. -/
  | qpEnable (q : Fin 33) (v : Word)
  /-- MOD_TC_LO (R339): Reading MOD_TC_LO captures MOD_TC_HI. -/
  | modTcLo
  /-- TIDE_TC_LO (R257): Reading TIDE_TC_LO captures TIDE_TC_HI. -/
  | tideTcLo
  /-- TIDE_ARM_GO (R246): Writing GO schedules a rate change or rejects it with LATE, RANGE or BUSY. -/
  | tideArmGo
  /-- HOLD_CTRL_RAISE (R250): Firmware raises HOLD with cause FW. -/
  | holdCtrlRaise
  /-- HOLD_CTRL_RELEASE (R252): Firmware requests a HOLD release, ignored while causes remain. -/
  | holdCtrlRelease
  /-- PAN_TIDE (R256): Writing 1 removes a pan from the tide and bypasses its sluices. -/
  | panTide (p : Fin 96)
  /-- PAN_CTRL_OFF (R439): Writing OFF opens a pan's breaker. -/
  | panCtrlOff (p : Fin 96)
  /-- MESH_CFG (R262): Writing LCODE clears slot tables, recomputes lanes and schedules a new period. -/
  | meshCfg (v : Word)
  /-- RT_DATA (R284): Accesses a router word at RT_SEL and RT_ADDR and advances RT_ADDR, refusing invalid slot entries. -/
  | rtData (wr : Option Word)
  /-- SE_CTX_DATA (R304): Reading a context record word advances SE_CTX_ADDR. -/
  | seCtxData (e : Fin 48)
  /-- CX_TBL_DATA (R318): Accesses a route table entry and advances the module index. -/
  | cxTblData (wr : Option Word)
  /-- CX_EPOCH (R321): Writes the injection epoch and bank write flags, refusing unsafe banks with BUSY. -/
  | cxEpoch (v : Word)
  /-- CX_CFG (R313): Sets the module number and fabric enable. -/
  | cxCfg (v : Word)
  /-- PORT_CTRL_RETRAIN (R307): Retrains a DOWN or FAILED port. -/
  | portCtrlRetrain (p : Fin 48)
  /-- PORT_CTRL_DISABLE (R307): Holds a port in OFF. -/
  | portCtrlDisable (p : Fin 48) (on : Bool)
  /-- FIRMWARE_REGISTER_WRITE (R9): A write to a register with no row of its own, including W1C clears. -/
  | firmwareRegisterWrite (block : Fin 8) (off : BitVec 16) (v : Word)
  /-- POWER_TICK (R443): Each 1 ms tick moves CAP_EFF and chooses PWR from the prediction. -/
  | powerTick (volt amp : BitVec 16) (rim : Nat) (rails : List (Nat × Nat))
  /-- RAIL_SETTLED (R446): Raised rails reach their set points and the rate raise is scheduled. -/
  | railSettled
  /-- RAIL_LOWER (R446): At T + 256 the rails are lowered to the new code's voltage. -/
  | railLower
  /-- ENERGY_INTERVAL (R456): Every 100 ms measured energy is reconciled and charged to partitions. -/
  | energyInterval (rim : Nat) (pans : List Nat)
  /-- ENERGY_WINDOW_END (R457): A partition's energy window ends and its joule report is formed. -/
  | energyWindowEnd (k : Fin 32)
  /-- PLDM_CAP_TARGET (R459): The PLDM TARGET effecter sets the cap. -/
  | pldmCapTarget (s : Fin 49) (v : Word)
  /-- PLDM_RAMP (R459): The PLDM RAMP effecter sets the ramp rate. -/
  | pldmRamp (s : Fin 49) (v : Word)
  /-- PLDM_PARK (R459): The park effecter state 1 sets OPER. -/
  | pldmPark (s : Fin 49)
  /-- PLDM_UNPARK (R459): The park effecter state 2 clears OPER. -/
  | pldmUnpark (s : Fin 49)
  /-- ENTRY_OUT_OF_RANGE (R425): The 56 V entry leaves its ratings and every stage switches off. -/
  | entryOutOfRange
  /-- ENTRY_CURRENT_LIMIT (R426): Entry current held at 900 A for 1 ms takes the module dark. -/
  | entryCurrentLimit
  /-- POWER_GOOD (R369): Entry and rim supply in range for 10 ms start bring-up. -/
  | powerGood
  /-- FUNDAMENTAL_RESET (R369): A fundamental reset restarts bring-up with the rim powered. -/
  | fundamentalReset
  /-- PAN_GROUP_SWITCH_ON (R370): P0 switches a pan row group on at its scheduled time. -/
  | panGroupSwitchOn (g : Fin 12) (stages : Stages)
  /-- CXL_LINK_UP (R335): The CXL link trains and comes up. -/
  | cxlLinkUp (width : Fin 3)
  /-- BOOT_OFFER (R372): The ROM reads and authenticates an offered firmware image. -/
  | bootOffer (resv : Bool) (addr : BitVec 64) (len : Word) (image : List Byte)
  /-- P2_MESH (R375): After P0 and P1, cores are zeroised, sluices calibrated and lanes computed. -/
  | p2Mesh (lats : List (Nat × Nat)) (bad : List (Fin 96))
  /-- STACK_TRAINING (R286): An HBM4 stack completes or fails training. -/
  | stackTraining (e : Fin 48) (ok : Bool)
  /-- P3_KERNELS (R380): A pan's KAK16 budget ends, pass words are read and the pan is numbered. -/
  | p3Kernels (p : Fin 96) (bad : List Nat)
  /-- P4_KERNELS (R385): A free pan runs the short-format kernels and enables short formats. -/
  | p4Kernels (p : Fin 96) (ok : Bool)
  /-- P5_FULL_SERVICE (R386): Rails rise, sluices confirm CAL, power is calibrated and FULL is set. -/
  | p5FullService (lats : List (Nat × Nat))
  /-- TESTPACK_RUN (R473): A due free pan runs the test pack kernels. -/
  | testpackRun (p : Fin 96)
  /-- TESTPACK_RUN_END (R474): A run ends; a failing pan is quarantined and the module made suspect. -/
  | testpackRunEnd (p : Fin 96) (fail : Option (Nat × Nat × Nat))
  /-- WATCH_CLEAR (R476): A watch indicator clears after 24 h without its condition. -/
  | watchClear (b : Fin 6)
  /-- JOB_RESTORE_COMPLETE (R393): The restore's rebinding and context writes finish and the partition leaves LOADING for READY. -/
  | jobRestoreComplete (k : Fin 32)
  /-- JOB_IMPORT_COMPLETE (R394): The import's granule allotment and record writes finish and the partition enters SAVED. -/
  | jobImportComplete (k : Fin 32)
  /-- JOB_EXPORT_COMPLETE (R417): The sealed save record has been written to the host buffer and JOB_EXPORT completes with the bytes moved. -/
  | jobExportComplete (k : Fin 32)
  /-- RIDE_THROUGH (R425): The 56 V entry moves into or out of a ride-through band, setting or clearing PWR_STATUS.RIDE. -/
  | rideThrough (volt : BitVec 16)
  /-- SELF_REFRESH_ENTRY (R450): A stack with no line access for 10 µs during park enters self refresh. -/
  | selfRefreshEntry (e : Fin 48)
  /-- STACK_TEMPERATURE_POLL (R285): Every 1 ms the controller polls each stack's temperature and doubles its refresh rate above 85 °C. -/
  | stackTemperaturePoll (e : Fin 48) (temp : Byte)
  /-- PAN_OVERDUE (R473): A pan reaches 24 × INTERVAL minutes since its last pass and is marked OVERDUE, setting the watch bit. -/
  | panOverdue (p : Fin 96)
  /-- MSIX_HOLDOFF_EXPIRY (R347): The 2 µs per-vector holdoff ends and a deferred MSI-X vector is raised for entries written during it. -/
  | msixHoldoffExpiry (v : Fin 34)
  /-- HEARTBEAT (R404): An SPDM HEARTBEAT message in a session restarts that session's heartbeat timer. -/
  | heartbeat (s : Fin 48)
  /-- KEY_UPDATE (R404): An SPDM KEY_UPDATE request changes a secured session's keys. -/
  | keyUpdate (s : Fin 48)
  /-- GET_CERTIFICATE (R404): An SPDM certificate request returns the chain of certificate slot 0 or 1. -/
  | getCertificate (slot : Byte)
  /-- CHALLENGE (R404): An SPDM CHALLENGE is answered with a signature by the alias key. -/
  | challenge (slot : Byte)
deriving DecidableEq, Repr

end Sys2Proof
end

