-- ==== Sys2Proof/Decode.lean ====
section
/-! DEFINITION. Decoding. The block's command table gives its rows no bits, so no word spells a command
(decodeTableWord). The cores of the wafer do decode instruction words: decodeCore is the decoder of chapters 03 and 04,
which fetch uses; it answers the command that stands for the instruction at core g, or the SUB and DETAIL of the FORMAT
fault (03 Table 3-13), the lowest SUB first (03 R93). -/

namespace Sys2Proof

open Machine

/-- The command a word spells by the table's bits: no row of spec/opcode_table.json gives bits. -/
def decodeTableWord (_nbits _w : Nat) : Option Instr := none

namespace Machine

/-- A five-bit field of the first word. -/
def fld5 (w : Word) (lo : Nat) : Reg := Fin.ofNat 32 (fld w lo 5)

/-- The first FORMAT cause in the order of R93 (of two bad fields with one SUB, the higher one in the word), or the instruction: a reserved function selector (SUB 0x01), an unused or
reserved field (0x02), a reserved VF, RM, condition or short format (0x03), a bad register pair (0x04). -/
def pick (sel : Option Nat) (fieldsOk : Bool) (code : Option Nat) (pair : Option Nat) (i : Instr) : Except (Nat × Nat) Instr :=
  match sel with
  | some d => .error (1, d)
  | none =>
    if !fieldsOk then .error (2, 0)
    else match code with
      | some d => .error (3, d)
      | none => match pair with
        | some d => .error (4, d)
        | none => .ok i

/-- The value v as a fault detail when the test holds. -/
def when (b : Bool) (v : Nat) : Option Nat := if b then some v else none

/-- The first of two details. -/
def orElse (a b : Option Nat) : Option Nat := match a with | some x => some x | none => b

/-- The immediate of layout I: IMM10 sign-extended, or IMM32 (03 R57). -/
def immS (w1 w2 : Word) : Word :=
  if w1.getLsbD 31 then w2 else (w1.extractLsb' 0 10).signExtend 32

/-- The immediate of ANDI, ORI and XORI: IMM10 zero-extended, or IMM32 (03, "Scalar engine"). -/
def immZ (w1 w2 : Word) : Word := if w1.getLsbD 31 then w2 else (w1.extractLsb' 0 10).setWidth 32

/-- IMM10 must be 0 in the 64-bit form (03 R57). -/
def immOk (w1 : Word) : Bool := !w1.getLsbD 31 || decide (fld w1 0 10 = 0)

/-- The lane format of a code (03 R78). -/
def laneOf (c : Nat) : LaneFmt := if c = 0 then .h16 else if c = 1 then .w16 else .i16

/-- The rounding that RM and the second word give (03 R57, R79). -/
def roundingOf (w1 w2 : Word) : Rounding :=
  match fld w1 0 2 with
  | 0 => .rne
  | 1 => .rtz
  | _ => .sr (w2.extractLsb' 0 8) (Fin.ofNat 32 (fld w2 8 5))

/-- The second word of layout V: reserved bits 0, EIX and RS 0 unless RM is 0b10 (03 R57). -/
def vWord2Ok (w1 w2 : Word) : Bool :=
  !w1.getLsbD 31 || (decide (fld w2 13 19 = 0) && (decide (fld w1 0 2 = 2) || decide (fld w2 0 13 = 0)))

/-- The RM detail of R79 for an instruction that rounds; i16 says that its lane format is I16 and that it is not VCVT. -/
def rmBad (w1 : Word) (i16 : Bool) : Option Nat :=
  let rm := fld w1 0 2
  when (decide (rm = 3) || (decide (rm = 2) && !w1.getLsbD 31) || (i16 && decide (rm ≠ 0))) rm

/-- RS odd or above 30 where RM is 0b10 (03 R80). -/
def rsBad (w1 w2 : Word) : Option Nat :=
  let rs := fld w2 8 5
  when (w1.getLsbD 31 && decide (fld w1 0 2 = 2) && decide (rs % 2 = 1)) rs

/-- RM must be 0b00 (03 R79). -/
def rmZero (w1 : Word) : Option Nat := when (decide (fld w1 0 2 ≠ 0)) (fld w1 0 2)

/-- VF must name a lane format (03 R78). -/
def vfBad (w1 : Word) : Option Nat := when (decide (2 < fld w1 2 3)) (fld w1 2 3)

/-- The condition of a CMP FN or a CMPI D[4:3] (03 R68). -/
def condOf (n : Nat) : Cond :=
  match n with
  | 0 => .eq
  | 1 => .ne
  | 2 => .lt
  | 3 => .ge
  | 4 => .ltu
  | _ => .geu

/-- The engine named by B[1:0] of REL and ACQ (03 Table 3-5). -/
def engOf (n : Nat) : Engine :=
  match n with
  | 0 => .scalar
  | 1 => .vector
  | 2 => .matrix
  | _ => .dma

/-- The ALU group (03 Table 3-4). -/
def aluOf (fn g : Nat) (d a b : Reg) : Instr :=
  match fn with
  | 0 => .add g d a b
  | 1 => .sub g d a b
  | 2 => .and g d a b
  | 3 => .or g d a b
  | 4 => .xor g d a b
  | 5 => .shl g d a b
  | 6 => .shr g d a b
  | 7 => .sra g d a b
  | 8 => .mul g d a b
  | 9 => .mulhu g d a b
  | 10 => .mulhs g d a b
  | 11 => .min g d a b
  | 12 => .max g d a b
  | 13 => .minu g d a b
  | 14 => .maxu g d a b
  | 15 => .divu g d a b
  | 16 => .remu g d a b
  | 17 => .divs g d a b
  | _ => .rems g d a b

/-- The unary group (03 Table 3-9). -/
def unaryOf (sel g : Nat) (d a : Reg) (vf : LaneFmt) : Instr :=
  match sel with
  | 0 => .vabs g d a vf
  | 1 => .vneg g d a vf
  | 2 => .vexp2 g d a vf
  | 3 => .vexp g d a vf
  | 4 => .vlog2 g d a vf
  | 5 => .vrcp g d a vf
  | 6 => .vsqrt g d a vf
  | 7 => .vrsqrt g d a vf
  | 8 => .vtanh g d a vf
  | _ => .vsigm g d a vf

/-- The sync group (03 Table 3-5). -/
def syncOf (fn g : Nat) (a b : Nat) : Instr :=
  match fn with
  | 0 => .rel g (engOf (b % 4))
  | 1 => .acq g (engOf (b % 4))
  | 2 => .syncAll g
  | 3 => .stepCommit g
  | 4 => .endFold g
  | 5 => .suCnd g (Fin.ofNat 4 b) (Fin.ofNat 8 a)
  | _ => .brk g

/-- The scalar range 0x01 to 0x1D (03 Table 3-3). -/
def decodeScalar (g op : Nat) (w1 w2 : Word) : Except (Nat × Nat) Instr :=
  let d := fld5 w1 15
  let a := fld5 w1 10
  let b := fld5 w1 5
  let fn := fld w1 0 5
  let short := !w1.getLsbD 31
  match op with
  | 0x01 => pick (when (decide (18 < fn)) fn) short none none (aluOf fn g d a b)
  | 0x02 => pick none (immOk w1) none none (.addi g d a (immS w1 w2))
  | 0x03 => pick none (immOk w1) none none (.andi g d a (immZ w1 w2))
  | 0x04 => pick none (immOk w1) none none (.ori g d a (immZ w1 w2))
  | 0x05 => pick none (immOk w1) none none (.xori g d a (immZ w1 w2))
  | 0x06 => pick none (short && decide (fld w1 5 5 = 0)) none none (.shli g d a (fld5 w1 0))
  | 0x07 => pick none (short && decide (fld w1 5 5 = 0)) none none (.shri g d a (fld5 w1 0))
  | 0x08 => pick none (short && decide (fld w1 5 5 = 0)) none none (.srai g d a (fld5 w1 0))
  | 0x09 => pick none (immOk w1 && decide (a = 0)) none none (.li g d (immS w1 w2))
  | 0x0A => pick none (short && decide (fld w1 18 2 = 0)) (when (decide (5 < fn)) fn) none
      (.cmp g (Fin.ofNat 8 d) a b (condOf fn))
  | 0x0B => pick none (immOk w1) none none (.cmpi g (Fin.ofNat 8 d) a (condOf (fld w1 18 2)) (immS w1 w2))
  | 0x0C => pick (when (decide (3 < fn)) fn)
      (short && decide (fld w1 18 2 = 0) && decide (fld w1 13 2 = 0) && decide (fld w1 8 2 = 0)) none none
      (.plog g (Fin.ofNat 8 d) (Fin.ofNat 8 a) (Fin.ofNat 8 b)
        (match fn with | 0 => .and | 1 => .or | 2 => .xor | _ => .andn))
  | 0x0D => pick none (immOk w1) none none (.ldw g d a (immS w1 w2))
  | 0x0E => pick none (immOk w1) none none (.ldh g d a (immS w1 w2))
  | 0x0F => pick none (immOk w1) none none (.ldhu g d a (immS w1 w2))
  | 0x10 => pick none (immOk w1) none none (.ldb g d a (immS w1 w2))
  | 0x11 => pick none (immOk w1) none none (.ldbu g d a (immS w1 w2))
  | 0x12 => pick none (immOk w1) none none (.stw g d a (immS w1 w2))
  | 0x13 => pick none (immOk w1) none none (.sth g d a (immS w1 w2))
  | 0x14 => pick none (immOk w1) none none (.stb g d a (immS w1 w2))
  | 0x15 => pick none (short && decide (d = 0)) none none (.br g (w1.extractLsb' 0 15))
  | 0x16 => pick none short none none (.brl g d (w1.extractLsb' 0 15))
  | 0x17 =>
    if fn = 0 then pick none (short && decide (d = 0) && decide (b = 0)) none none (.jr g a)
    else pick (when (decide (1 < fn)) fn) (short && decide (b = 0)) none none (.jrl g d a)
  | 0x18 => pick none (short && decide (fld w1 13 2 = 0) && decide (fld w1 8 2 = 0) && decide (fld w1 1 4 = 0)) none none
      (.qrd g d (Fin.ofNat 8 a) (Fin.ofNat 8 b) (w1.getLsbD 0))
  | 0x19 => pick none (short && decide (a = 0) && decide (fld w1 0 2 = 0) && decide (fld w1 8 2 = 0)) none none
      (.crr g d (w1.extractLsb' 0 8))
  | 0x1A => pick none (short && decide (d = 0) && decide (fld w1 0 2 = 0) && decide (fld w1 8 2 = 0)) none none
      (.crw g a (w1.extractLsb' 0 8))
  | 0x1B =>
    let ok := match fn with
      | 0 => decide (d = 0) && decide (a = 0) && decide (fld w1 7 3 = 0)
      | 1 => decide (d = 0) && decide (a = 0) && decide (fld w1 7 3 = 0)
      | 5 => decide (d = 0) && decide (fld w1 13 2 = 0) && decide (fld w1 7 3 = 0)
      | _ => decide (fld w1 5 15 = 0)
    pick (when (decide (6 < fn)) fn) (short && ok) none none (syncOf fn g a b)
  | 0x1C =>
    let f : Fin 64 := Fin.ofNat 64 (fld w1 14 6)
    let rem := w1.getLsbD 13
    let tgt := fld5 w1 8
    let base := short && decide (fld w1 5 3 = 0)
    match fn with
    | 0 => pick none (base && (rem || decide (tgt = 0))) none none (.flagSet g f rem tgt)
    | 1 => pick none (base && (rem || decide (tgt = 0))) none none (.flagClr g f rem tgt)
    | 2 => pick none (base && !rem && decide (tgt = 0)) none none (.flagWait g f)
    | 3 => pick none (base && !rem && decide (tgt = 0)) none none (.flagWaitc g f)
    | 4 => pick none (base && !rem) none none (.barArrive g f tgt)
    | _ => .error (1, fn)
  | 0x1D =>
    let ch : Fin 16 := Fin.ofNat 16 (fld w1 16 4)
    let rem := w1.getLsbD 15
    let tgt := fld5 w1 8
    let amt : Fin 8 := Fin.ofNat 8 (fld w1 5 3)
    let base := short && decide (fld w1 13 2 = 0)
    match fn with
    | 0 => pick none (base && (rem || decide (tgt = 0))) none none (.chPut g ch amt rem tgt)
    | 1 => pick none (base && (rem || decide (tgt = 0))) none none (.chGet g ch amt rem tgt)
    | 2 => pick none (base && !rem && decide (tgt = 0)) none none (.chWait g ch amt)
    | _ => .error (1, fn)
  | _ => .error (1, 0)

/-- The vector range 0x21 to 0x3B (03 Table 3-3). -/
def decodeVector (g op : Nat) (w1 w2 : Word) : Except (Nat × Nat) Instr :=
  let d := fld5 w1 15
  let a := fld5 w1 10
  let b := fld5 w1 5
  let vfn := fld w1 2 3
  let vf := laneOf vfn
  let rm := roundingOf w1 w2
  let short := !w1.getLsbD 31
  let plain := decide (fld w1 0 5 = 0)
  let rounds := orElse (vfBad w1) (rmBad w1 (decide (vfn = 2)))
  let exact := orElse (vfBad w1) (rmZero w1)
  match op with
  | 0x21 => pick none (vWord2Ok w1 w2) rounds (rsBad w1 w2) (.vadd g d a b vf rm)
  | 0x22 => pick none (vWord2Ok w1 w2) rounds (rsBad w1 w2) (.vsub g d a b vf rm)
  | 0x23 => pick none (vWord2Ok w1 w2) rounds (rsBad w1 w2) (.vfma g d a b vf rm)
  | 0x24 => pick none (vWord2Ok w1 w2) rounds (rsBad w1 w2) (.vmul g d a b vf rm)
  | 0x25 => pick none short exact none (.vmin g d a b vf)
  | 0x26 => pick none short exact none (.vmax g d a b vf)
  | 0x27 => pick none short (vfBad w1) none
      (.vcmp g d a b vf (match fld w1 0 2 with | 0 => .eq | 1 => .lt | 2 => .le | _ => .un))
  | 0x28 => pick none short exact none (.vsel g d a b vf)
  | 0x29 => pick none short exact none (.vand g d a b vf)
  | 0x2A => pick none short exact none (.vor g d a b vf)
  | 0x2B => pick none short exact none (.vxor g d a b vf)
  | 0x2C => pick none short (orElse (when (decide (vfn ≠ 2)) vfn) (rmZero w1)) none (.vsh g d a b)
  | 0x2D =>
    let sel := fld w1 5 4
    pick (when (decide (9 < sel)) sel) (short && !w1.getLsbD 9)
      (orElse (orElse (vfBad w1) (when (decide (1 < sel) && decide (vfn = 2)) vfn)) (rmZero w1)) none
      (unaryOf sel g d a vf)
  | 0x2E =>
    let sel := fld w1 5 2
    let ok := short && decide (fld w1 7 3 = 0)
    match sel with
    | 0 => pick none ok rounds none (.vrsum g d a vf rm)
    | 1 => pick none ok exact none (.vrmax g d a vf)
    | 2 => pick none ok exact none (.vrmin g d a vf)
    | _ => .error (1, 3)
  | 0x2F =>
    let src := fld w1 5 3
    pick none (vWord2Ok w1 w2 && decide (fld w1 8 2 = 0))
      (orElse (orElse (when (decide (2 < src)) src) (vfBad w1)) (rmBad w1 false)) (rsBad w1 w2)
      (.vcvt g d a (laneOf src) vf rm)
  | 0x30 =>
    let part := fld w1 0 2
    let fmt : TileFmt := match vfn with | 0 => .e5 | 1 => .e4 | 2 => .e3 | 3 => .e2 | 4 => .i8 | _ => .i4
    let nib := decide (vfn = 3) || decide (vfn = 5)
    pick none short (orElse (when (decide (5 < vfn)) vfn) (when (!nib && decide (1 < part)) part)) none
      (.vunpk g d a b fmt (Fin.ofNat 4 part))
  | 0x31 => pick none (immOk w1) none none (.vld g d a (immS w1 w2))
  | 0x32 => pick none (immOk w1) none none (.vst g d a (immS w1 w2))
  | 0x33 => pick none (short && plain && decide (fld w1 14 1 = 0) && decide (fld w1 8 2 = 0)) none none
      (.vldb g d (Fin.ofNat 16 a) (Fin.ofNat 8 b))
  | 0x34 => pick none (short && plain && decide (fld w1 14 1 = 0) && decide (fld w1 8 2 = 0)) none none
      (.vstb g d (Fin.ofNat 16 a) (Fin.ofNat 8 b))
  | 0x35 => pick none (short && plain && decide (a = 0) && decide (fld w1 8 2 = 0)) none none (.vqrd g d (Fin.ofNat 8 b))
  | 0x36 => pick none (short && plain && decide (d = 0) && decide (fld w1 7 1 = 0)) none none
      (.vqwr g a (Fin.ofNat 4 (fld w1 5 2)) (w1.getLsbD 9) (w1.getLsbD 8))
  | 0x37 => pick none (short && plain && decide (b = 0)) none none (.vbcs g d a)
  | 0x38 => pick none (short && plain) none none (.vext g d a b)
  | 0x39 => pick none (short && plain) none none (.vins g d a b)
  | 0x3A => pick none (short && plain && decide (b = 0)) none none (.vmov g d a)
  | 0x3B => pick none (short && plain && decide (b = 0)) none none (.viota g d a)
  | _ => .error (1, 0)

/-- B of MMA, MMAS, MMASK, MSMX and MSCL: even and at most 30 (04 R97, R108). -/
def pairBad (w1 : Word) : Option Nat := when (decide (fld w1 5 5 % 2 = 1)) (fld w1 5 5)

/-- The matrix and DMA ranges (04 Table 4-1). -/
def decodeMatrix (g op : Nat) (w1 w2 : Word) : Except (Nat × Nat) Instr :=
  let d := fld5 w1 15
  let a := fld5 w1 10
  let b := fld5 w1 5
  let fn := fld5 w1 0
  let vfn := fld w1 2 3
  let mf : TileFmt := match vfn with
    | 0 => .h16 | 1 => .w16 | 2 => .e5 | 3 => .e4 | 4 => .e3 | 5 => .e2 | 6 => .i8 | _ => .i4
  let rm := roundingOf w1 w2
  let short := !w1.getLsbD 31
  let vfZero := when (decide (vfn ≠ 0)) vfn
  match op with
  | 0x41 => pick none (vWord2Ok w1 w2) (rmBad w1 false) (orElse (pairBad w1) (rsBad w1 w2)) (.mma g d a b mf rm)
  | 0x42 => pick none (vWord2Ok w1 w2) (rmBad w1 false) (orElse (pairBad w1) (rsBad w1 w2)) (.mmas g d a b mf rm)
  | 0x43 => pick none (short && decide (d = 0) && decide (fn = 0)) none none (.mstg g a b)
  | 0x44 => pick none (short && decide (d = 0) && decide (fld w1 13 2 = 0) && decide (fn = 0)) none none
      (.mstgq g (Fin.ofNat 8 a) b)
  | 0x45 => pick none (short && decide (a = 0) && decide (b = 0)) none none (.mzero g d fn)
  | 0x46 => pick none (short && decide (b = 0)) none none (.mbst g d a fn)
  | 0x47 => pick none (short && decide (b = 0)) none none (.mbld g d a fn)
  | 0x48 => pick none short (orElse vfZero (when (decide (fld w1 0 2 = 3)) 3))
      (orElse (pairBad w1) (when (decide ((a : Nat) % 2 = 1)) a))
      (.mmask g d a b (match fld w1 0 2 with | 0 => .causal | 1 => .window | _ => .band))
  | 0x49 => pick none short (orElse vfZero (rmZero w1)) (pairBad w1) (.msmx g d a b)
  | 0x4A => pick none short (orElse vfZero (rmZero w1)) (pairBad w1) (.mscl g d a b)
  | 0x61 => pick none (immOk w1 && decide (fld w1 17 3 = 0)) none none (.dmov g (Fin.ofNat 4 d) a (immS w1 w2))
  | 0x62 => pick none (short && decide (fld w1 4 16 = 0)) none none (.dwait g (w1.extractLsb' 0 4))
  | _ => .error (1, 0)

/-- Decodes an instruction of core g from its first word and, where L = 1, its second (03 R54 to R58, R64; 04 R94). -/
def decodeCore (g : Nat) (w1 w2 : Word) : Except (Nat × Nat) Instr :=
  let op := fld w1 20 7
  if op < 0x20 then decodeScalar g op w1 w2
  else if op < 0x40 then decodeVector g op w1 w2
  else decodeMatrix g op w1 w2

/-- The engine that an opcode selects, for a fault of fetch or dispatch (03 R55, R91). -/
def engineOfOp (op : Nat) : Engine := engOf (op / 32)

end Machine

end Sys2Proof
end

