-- ==== Sys2Proof/Machine/State.lean ====
section
/-! DEFINITION. The state of the module as plain data: every register, queue, buffer, counter and mode the spec names, and
the queue of commands that wait. State.reset is the module as reset leaves it. -/

namespace Sys2Proof.Machine

/-- The states of a core position (02 Table 2-4). -/
inductive CoreSt where
  | clear
  | loaded
  | run
  | hold
  | halt
  | fault
  | defect
deriving DecidableEq, Repr

/-- One physical queue entry: 32 B of data and its sideband byte (02 R36, R52). -/
structure QEntry where
  data : Row
  sb   : Byte
deriving DecidableEq, Repr

/-- One queue: 16 physical entries and its pointer word, reserved bits included (02 R36, R52). -/
structure Queue where
  ents : Vector QEntry 16
  ptr  : Word
deriving DecidableEq, Repr

/-- What a control message says, by TYPE (11 Table 11-4); other is a reserved TYPE. An arrival carries the cores that it counts,
and, where messages of one barrier that name different flags have merged, a flag other than its own (11 R269, R271; 09
R234). -/
inductive MsgBody where
  | flagSet (f : Fin 64)
  | flagClr (f : Fin 64)
  | chPut (ch : Fin 16) (amt : Nat)
  | chGet (ch : Fin 16) (amt : Nat)
  | fault (core : Nat) (code sub : Byte)
  | guardC (ovf : Bool) (count : Nat) (par : Bool)
  | guardWd (count : Nat) (par : Bool)
  | guardRes (ovf : Bool) (ls : Byte)
  | barArr (bnum : Byte) (f : Fin 64) (cores : List Nat) (odd : Option (Fin 64))
  | barRel (bnum : Byte) (f : Fin 64) (gen : Nat) (cores : List Nat)
  | commit (t : Nat)
  | other (typ : Fin 16)
deriving DecidableEq, Repr

/-- A control message: partition, partition generation, broadcast bit, target and body (11 Table 11-3), with its sender and the
sender's step in which it came up to be sent. A target is a global core number, or none for the module controller. -/
structure Msg where
  part : Nat
  pgen : Nat
  bc   : Bool
  tgt  : Option Nat
  src  : Nat
  born : Nat
  body : MsgBody
deriving DecidableEq, Repr

/-- What an instruction reads or writes under the interlocks: registers, predicates, accumulator blocks, staging blocks
(03 R62; 04 R95). -/
inductive Res where
  | s (r : Reg)
  | p (r : Pred)
  | v (r : Reg)
  | blk (b : Nat)
  | stg (b : Nat)
deriving DecidableEq, Repr

/-- What a result replaced, put back when a fault abandons the instruction before it completes (02 R44). -/
inductive Undo where
  | s (r : Reg) (old : Word)
  | p (r : Pred) (old : Bool)
  | v (r : Reg) (old : Vector Lane 32)
  | blk (b : Nat) (old : List Byte)
  | stg (b : Nat) (old : List Byte)
deriving DecidableEq, Repr

/-- A dispatched instruction in an issue queue: its decoded form, address, major opcode and length, its place in issue
order, the step of its dispatch, and the scalar operands read at dispatch (03 R60, R61). -/
structure Disp where
  ins  : Instr
  pc   : Nat
  op   : Nat
  long : Bool
  seq  : Nat
  at_  : Nat
  sc   : List Word
deriving DecidableEq, Repr

/-- An instruction that has begun, in step at_: its results are available from step due on (02 R26, R35; 03 R62). -/
structure Begun where
  ins  : Instr
  seq  : Nat
  eng  : Engine
  at_  : Nat
  due  : Nat
  wr   : List Res
  use  : List Nat
  undo : List Undo
deriving DecidableEq, Repr

/-- What fetch is doing (03 R63; 07 R172; 02 R41). -/
inductive Fetch where
  | stopped
  | going
  | paused
  | ended
deriving DecidableEq, Repr

/-- What a TOUT slot has beyond its slot image: the source rows read so far and whether one held an uncorrectable word; the
whole source, read in this step; the source with the step in which the compressor has formed its tile; the tile formed
(04 R119; 08 R189). -/
inductive ToutX where
  | none
  | reading (rows : List Row) (ue : Bool)
  | read (tpl : Row) (xs : List Nat) (ue : Bool)
  | source (tpl : Row) (xs : List Nat) (ue : Bool) (step : Nat)
  | formed (ents : List Row)
deriving DecidableEq, Repr

/-- A part of the core that requests SRAM banks, in the fixed order of R31; of the DMA engine's own requests those of a DMOV
come before those of the busy slots (02 R31; 04 R116). -/
inductive BankUser where
  | rake
  | fetch
  | scalar
  | vector
  | matrix
  | dmov
  | dma
deriving DecidableEq, Repr

/-- A request for one SRAM row: who asks, which of his requests it is (the place in issue order of the instruction, the number
of the slot), the row, how often in a row it has been refused, and the step in which it was first made (02 R31; 04 R116). -/
structure Ask where
  user  : BankUser
  tag   : Nat
  row   : Nat
  n     : Nat
  since : Nat
deriving DecidableEq, Repr

/-- A row that an instruction in progress still has to access, whether it holds scales of W, and how often in a row it has
been refused (02 R31; 04 R104). -/
structure RowReq where
  scale : Bool
  row   : Nat
  n     : Nat
deriving DecidableEq, Repr

/-- An instruction that works for several steps, or whose requests the banks have refused: k groups are done; grp is the group
in hand, first asked for in step next, rows what is left of it, later the groups after it, one step each; addr and data are its
address and the bytes it writes or has taken; got is what it has read; units is what its groups add to ACT_MTX (02 R26, R31;
04 R96; 09 R209). -/
structure Run where
  d     : Disp
  eng   : Engine
  addr  : Nat
  data  : List Byte
  k     : Nat
  next  : Nat
  grp   : List (Bool × Nat)
  rows  : List RowReq
  later : List (List (Bool × Nat))
  got   : List (Bool × Nat × Row)
  units : List Nat
deriving DecidableEq, Repr

/-- What stood at the start of the step: the queues, flags, counters, steering units and DMA slots that firing, steering and
waits look at, and whether a dispatched instruction had not begun (07 R171, R173; 09 R222, R227; 02 R41); and what has
happened in the step: a firing, an entry taken from a full queue, the beginning of END, the step in which a STALL is due
(07 R172, R181). -/
structure StepStart where
  iq      : Vector Queue 8
  oq      : Vector Queue 4
  su      : Vector (BitVec 256) 4
  dma     : Vector (BitVec 256) 4
  flags   : BitVec 64
  ch      : Vector (BitVec 16 × BitVec 16) 16
  drop    : Byte
  waits   : Bool
  fired   : Bool
  drained : Bool
  ended   : Bool
deriving DecidableEq, Repr

/-- What a firing changed, put back when a fault is recorded in the step of the firing (07 R174). -/
structure PreFire where
  slot  : Fin 8
  cand  : Byte
  fold  : Fin 8
  epoch : Bool
  pc    : Nat
deriving DecidableEq, Repr

/-- The registers of a core beside its context: state, fault record, counters (02 Table 2-5). -/
structure CoreRegs where
  st       : CoreSt
  fold     : Fin 8
  epoch    : Bool
  holdSeen : Bool
  fstat    : Word
  fpc      : Word
  finfo    : Word
  ftc      : Count
  tideHi   : BitVec 16
  actMtx   : Word
  actVec   : Word
  actSram  : Word
  actFlit  : Word
  sramCe   : BitVec 16
deriving DecidableEq, Repr

/-- The fetch, issue and engine state of a core, none of it in a context (02 R25, R26, R53; 09 R210). lag counts the node's steps
in which the core was frozen in HOLD: its own steps are those of its node less the lag (02 R40); rakeAt is the step after the
one in which the rake last wrote its queues (11 R282). -/
structure CoreExec where
  lag     : Nat
  fetch   : Fetch
  fetchAt : Nat
  far     : Bool
  lastPc  : Nat
  fbuf    : Option (Nat × Row)
  fw1     : Option Word
  iss     : Vector (List Disp) 4
  seq     : Nat
  busy    : Vector Nat 4
  begun   : List Begun
  runs    : List Run
  wRow    : Option (Nat × Row)
  dRow    : Option (Nat × Row)
  chosen  : Option (Fin 8)
  held    : Byte
  drop    : Byte
  ctl     : List Msg
  urgent  : List Msg
  phase3  : Option Bool
  gres    : Option (Bool × Byte)
  rakeAt  : Nat
  commit  : Option Nat
  haltReq : Bool
  bpSkip  : Bool
  stalled : Bool
  prefire : Option PreFire
  faultAt : Nat
  frank   : Nat
  served  : List (BankUser × Nat)
  accUsed : List Nat
  refused : List Ask
  iqTook  : Vector Nat 8
  oqPut   : Vector Nat 4
  slotAt  : Vector Nat 4
  slotSeq : Vector Nat 4
  slotN   : Vector Nat 4
  slotFin : Vector Bool 4
  copied  : Vector (Option (Row × BitVec 4)) 4
  stgLeft : Vector (List (List (Nat × Byte × Byte))) 4
  tout    : Vector ToutX 4
  start   : StepStart
deriving DecidableEq, Repr

/-- One core position: its registers, the parts that make up its context (02 Table 2-1, Table 2-6), and its execution
state. -/
structure Core where
  r     : CoreRegs
  stallW : Word
  seed  : BitVec 64
  guard : Word
  pc    : Nat
  wcount : Word
  flags : BitVec 64
  ch    : Vector (BitVec 16 × BitVec 16) 16
  s     : Vector Word 32
  p     : Byte
  v     : Vector (Vector Lane 32) 32
  sram  : Mem
  ecc   : Tbl Nat
  banks : Mem
  stg   : Mem
  iq    : Vector Queue 8
  oq    : Vector Queue 4
  folds : Vector (BitVec 512) 8
  su    : Vector (BitVec 256) 4
  dma   : Vector (BitVec 256) 4
  x     : CoreExec
deriving DecidableEq, Repr

/-- A zeroised queue (02 R52). -/
def Queue.zero : Queue := ⟨Vector.replicate 16 ⟨0, 0⟩, 0⟩

/-- The start-of-step record of a zeroised core. -/
def StepStart.zero : StepStart :=
  ⟨Vector.replicate 8 Queue.zero, Vector.replicate 4 Queue.zero, Vector.replicate 4 0, Vector.replicate 4 0, 0,
    Vector.replicate 16 (0, 0), 0, false, false, false, false⟩

/-- The execution state of a core that is not running. -/
def CoreExec.zero : CoreExec :=
  { lag := 0, fetch := .stopped, fetchAt := 0, far := false, lastPc := 0, fbuf := none, fw1 := none, iss := Vector.replicate 4 [], seq := 0, busy := Vector.replicate 4 0,
    begun := [], runs := [], wRow := none, dRow := none, chosen := none, held := 0, drop := 0, ctl := [], urgent := [], phase3 := none, gres := none, rakeAt := 0, commit := none,
    haltReq := false, bpSkip := false, stalled := false, prefire := none,
    faultAt := 0, frank := 0, served := [], accUsed := [], refused := [], iqTook := Vector.replicate 8 0,
    oqPut := Vector.replicate 4 0, slotAt := Vector.replicate 4 0, slotSeq := Vector.replicate 4 0,
    slotN := Vector.replicate 4 0, slotFin := Vector.replicate 4 false, copied := Vector.replicate 4 none,
    stgLeft := Vector.replicate 4 [], tout := Vector.replicate 4 .none, start := .zero }

/-- The registers of a core at reset (02 Table 2-5). -/
def CoreRegs.zero : CoreRegs :=
  { st := .clear, fold := 0, epoch := false, holdSeen := false, fstat := 0, fpc := 0,
    finfo := 0, ftc := 0, tideHi := 0, actMtx := 0, actVec := 0, actSram := 0, actFlit := 0, sramCe := 0 }

/-- A core position at reset: every byte of its context 0, P0 read as 1, STALL_W at its reset value (02 R53, Table 2-5). -/
def Core.zero : Core :=
  { r := .zero, stallW := 0x00010000#32, seed := 0, guard := 0, pc := 0, wcount := 0, flags := 0,
    ch := Vector.replicate 16 (0, 0), s := Vector.replicate 32 0, p := 1, v := Vector.replicate 32 (Vector.replicate 32 0),
    sram := [], ecc := [], banks := [], stg := [], iq := Vector.replicate 8 Queue.zero, oq := Vector.replicate 4 Queue.zero,
    folds := Vector.replicate 8 0, su := Vector.replicate 4 0, dma := Vector.replicate 4 0, x := .zero }
-- The tide and the mesh ------------------------------------------------------------------------------------------

/-- A tide node: a pan (0 to 95) or a rim segment (96 north, 97 east, 98 south, 99 west). steps is its tide count, not
reduced modulo 2^48; release is the one pending release of its pace timer; rate is the code of its period, sched a change it
holds: the count and the code; done are the times at which its last steps were complete, the newest first
(10 R239 to R241, R243, R246). -/
structure Node where
  steps   : Nat
  release : Bool
  rate    : Nat
  sched   : Option (Nat × Nat)
  done    : List Nat
deriving DecidableEq, Repr

/-- A node at reset: count 0, the pace at code 16 (10 R239; 15 R376). -/
def Node.zero : Node := ⟨0, false, 16, none, []⟩

/-- The tide block (10 Table 10-4). hold is the HOLD line, frozen that it has reached every node, relAt the time at which the last
release of HOLD reached the nodes (10 R253); jobRate is the job rate of R242 that R368 sets; paceN releases of the period of code
paceRate have been timed on the north rim since the time paceAt (10 R241). -/
structure Tide where
  rate      : Nat
  refOk     : Bool
  fallback  : Bool
  hold      : Bool
  frozen    : Bool
  pend      : Option (Nat × Nat)
  tcHi      : BitVec 16
  cal       : Nat
  lic       : Nat
  pwr       : Nat
  therm     : Nat
  jobRate   : Nat
  armT      : Count
  armRate   : Nat
  err       : BitVec 6
  present   : Bool
  locked    : Bool
  losses    : Nat
  holdCause : BitVec 5
  holdSrc   : Word
  holdCount : Nat
  relAt     : Option Nat
  paceAt    : Nat
  paceN     : Nat
  paceRate  : Nat
  live      : BitVec 96
deriving DecidableEq, Repr

/-- The tide block at reset (10 Table 10-4). -/
def Tide.zero : Tide :=
  { rate := 16, refOk := false, fallback := true, hold := false, frozen := false, pend := none, tcHi := 0, cal := 22, lic := 50, pwr := 50,
    therm := 50, jobRate := 50, armT := 0, armRate := 44, err := 0, present := false, locked := false, losses := 0,
    holdCause := 0, holdSrc := 0, holdCount := 0, relAt := none, paceAt := 0, paceN := 0, paceRate := 16, live := BitVec.allOnes 96 }

/-- A data flit on a link: route tag and queue entry (11 Table 11-1). -/
structure Flit where
  rt  : Nat
  ent : QEntry
deriving DecidableEq, Repr

/-- How a control message travels: to one router, north out of the array to the controller, or as a broadcast copy down a
column to row y, with the copies still to leave the router where it stands, or along a row to the pan's edge (11 R269, R271, R272,
R512). -/
inductive Travel where
  | to (router : Nat)
  | north
  | column (lastY : Nat) (south east west : Bool)
  | row (lastX : Nat)
deriving DecidableEq, Repr

/-- A control message in a lane: the lane (0 SE, 1 SW, 2 NE, 3 NW), the way points still to reach, where it goes, the input
side it came from (0 to 3 N, E, S, W; 4 the control port), the step in which it came, and
whether it holds a place in a lane buffer that is owed as a credit (11 R266, R269, R275). -/
structure LaneMsg where
  msg  : Msg
  lane : Fin 4
  via  : List Nat
  dst  : Travel
  side : Fin 5
  at_  : Nat
  owed : Bool
deriving DecidableEq, Repr

/-- What crosses a pan boundary or a rim crossing: a flit, the credit of a flit, a control message, the credit of a lane
message (11 R259, R264, R269). -/
inductive Xfer where
  | data (f : Flit)
  | credit
  | ctl (m : LaneMsg)
  | laneCredit (lane : Fin 4)
deriving DecidableEq, Repr

/-- A transfer held by a sluice: the receiver's step in which it is delivered, the receiving router and its side
(10 R243; 11 R261). -/
structure Flight where
  due  : Nat
  at_  : Nat
  side : Fin 4
  x    : Xfer
deriving DecidableEq, Repr

/-- A sluice entry of the array: the crossing into a pan from one side, and for an edge side the crossing out
(10 Table 10-5). held and out are the transfers in the crossing; waitAt is the step after the last one counted in waits. -/
structure Sluice where
  d      : Nat
  lat    : Nat
  cap    : Nat
  hwm    : Nat
  dead   : Bool
  waits  : Word
  waitAt : Nat
  dOut   : Nat
  latOut : Nat
  capOut : Nat
  held   : List Flight
  out    : List Flight
deriving DecidableEq, Repr

/-- A sluice at reset (10 Table 10-5). -/
def Sluice.zero : Sluice := ⟨12, 0, 50, 0, false, 0, 0, 12, 0, 50, [], []⟩

/-- A router (11 Table 11-10). used counts the credits spent on each link output; laneUsed those of its lane buffers, by
output and lane; port holds messages on their way to the control port with the step in which they arrive; localDone is the
step after the one whose local move has been made; leftAt is the step after the one in which a queued message last left; RT_ABSORB
acts from step absorbFrom on (11 R281). came is by input the step at whose start the last flit came, and whether it was a control
flit; back are the credits that came last, with their step, output and lane, again those that are sent again and when they
arrive (11 R260). -/
structure Router where
  mode      : Nat
  laneSet   : Option (Word × Word)
  own       : Vector (Option Nat) 4
  absorb    : BitVec 4
  high      : Vector Nat 4
  ce        : Nat
  ue        : Nat
  defer     : Word
  stale     : Word
  heldCount : Word
  slots     : Tbl (BitVec 64)
  inp       : Vector (List Flit) 4
  used      : Vector Nat 4
  lanes     : Vector (List LaneMsg) 4
  laneUsed  : Vector Nat 16
  port      : List (Nat × LaneMsg)
  localDone : Nat
  leftAt    : Nat
  absorbFrom : Nat
  came      : Vector (Nat × Bool) 4
  back      : List (Nat × Fin 4 × Option (Fin 4))
  again     : List (Nat × Fin 4 × Option (Fin 4))
deriving DecidableEq, Repr

/-- A router at reset (11 Table 11-10). -/
def Router.zero : Router :=
  { mode := 0, laneSet := none, own := Vector.replicate 4 none, absorb := 0, high := Vector.replicate 4 0, ce := 0, ue := 0,
    defer := 0, stale := 0, heldCount := 0, slots := [], inp := Vector.replicate 4 [], used := Vector.replicate 4 0,
    lanes := Vector.replicate 4 [], laneUsed := Vector.replicate 16 0, port := [], localDone := 0, leftAt := 0,
    absorbFrom := 0, came := Vector.replicate 4 (0, false), back := [], again := [] }

/-- The mesh block (11 Table 11-9). pots are the pan parts of the four lanes' potentials, by lane and pan (11 R267);
pend is a period change with the north rim count at which it takes effect (11 R262). -/
structure Mesh where
  lcode : Nat
  lanes : Bool
  cwMax : Nat
  err   : BitVec 3
  loc   : Word
  sel   : Word
  addr  : Nat
  ce    : Word
  defer : Word
  pots  : List (List Nat)
  pend  : Option (Nat × Nat)
deriving DecidableEq, Repr

/-- The mesh block at reset (11 Table 11-9). -/
def Mesh.zero : Mesh :=
  { lcode := 10, lanes := false, cwMax := 0, err := 0, loc := 0, sel := 0, addr := 0, ce := 0, defer := 0, pots := [],
    pend := none }

/-- An edge link of the rim: what arrived over the crossing, what waits to be sent, the credits spent; the controller's control
messages that wait, and the lane credits spent (11 R259, R264, R269). -/
structure Edge where
  inp  : List Flit
  send : List Flit
  used : Nat
  ctl  : List LaneMsg
  laneUsed : Vector Nat 4
deriving DecidableEq, Repr

/-- An edge link at reset. -/
def Edge.zero : Edge := ⟨[], [], 0, [], Vector.replicate 4 0⟩

/-- A pan's collector: the parity in progress, the members counted and their overflow, the member count the loader set, and
for each barrier number in use the count since the last pan message, the flag, the cores, and the pan's members
(11 R271; 09 R232). -/
structure BarAcc where
  bnum    : Byte
  count   : Nat
  flag    : Fin 64
  cores   : List Nat
  members : List Nat
deriving DecidableEq, Repr

/-- A pan's collector. -/
structure Collector where
  par     : Bool
  count   : Nat
  ovf     : Bool
  members : Nat
  bars    : List BarAcc
  inbox   : List Msg
deriving DecidableEq, Repr

/-- A collector at reset. -/
def Collector.zero : Collector := ⟨false, 0, false, 0, [], []⟩

/-- A rake station's debug registers (20 Table 20-5); runs are the resumes armed by DBG_RUN: the count, the cores, and the
steps after which they halt. -/
structure Station where
  haltTc : Option Count
  runTc  : Option Count
  mask   : BitVec 64
  bp     : Vector Word 2
  hits   : Nat
  sel    : Nat
deriving DecidableEq, Repr

/-- A rake station at reset (20 Table 20-5). -/
def Station.zero : Station := ⟨none, none, 0, Vector.replicate 2 0, 0, 0⟩

-- Jobs and partitions --------------------------------------------------------------------------------------------

/-- The states of a partition (14 Table 14-10); none is no partition. -/
inductive PSt where
  | none
  | empty
  | loading
  | ready
  | running
  | held
  | draining
  | saved
  | faulted
deriving DecidableEq, Repr

/-- A core record of a CORES section (14 Table 14-13): image core number, STALL_W, flags, counters, folds by slot, units by
number, and chunks: address, code bit, bytes. -/
structure CoreRec where
  icn    : Nat
  stallW : Word
  flags  : BitVec 64
  ch     : List Word
  folds  : List (Nat × BitVec 512)
  units  : List (Nat × BitVec 256)
  chunks : List (Nat × Bool × List Byte)
deriving DecidableEq, Repr

/-- A route of an image (11 Table 11-6): its source and slots, and its destinations as image core and input queue. The
source is an image core and output queue, or a stream engine. -/
structure RouteRec where
  eng   : Option Nat
  src   : Nat
  oq    : Nat
  sppm1 : Nat
  first : Nat
  dests : List (Nat × Nat)
deriving DecidableEq, Repr

/-- A channel declaration (14 Table 14-16); dests are the destinations of a receiving channel. -/
structure ChanRec where
  chn   : Nat
  recv  : Bool
  lrank : Nat
  prank : Nat
  bufm1 : Nat
  sppm1 : Nat
  first : Nat
  src   : Nat
  oq    : Nat
  dests : List (Nat × Nat)
deriving DecidableEq, Repr

/-- A barrier record (14 Table 14-17); cores are the participants on this module, as image cores. -/
structure BarRec where
  bnum  : Nat
  total : Nat
  home  : Nat
  modm1 : Nat
  cores : List Nat
deriving DecidableEq, Repr

/-- A digest declaration (19 Table 19-3): replicas, this module's replica, the exchange period, and the modules of each
replica. -/
structure DigestDecl where
  head    : BitVec 128
  modules : List Word
deriving DecidableEq, Repr

/-- A job bundle as JOB_LOAD reads it (14 R356 to R365). secLens are the ends of the sections. -/
structure Image where
  bl     : Nat
  policy : Nat
  limg   : Nat
  rate   : Nat
  npans  : Nat
  endbar : Nat
  cores  : List CoreRec
  routes : List RouteRec
  gc     : List Nat
  saves  : List (Option (Nat × Nat))
  spills : List RouteRec
  descs  : List (Nat × BitVec 256)
  binds  : List (Nat × Nat × Nat)
  chans  : List ChanRec
  digest : Option DigestDecl
  bars   : List BarRec
  relocs : List (Nat × Nat)
  guard  : BitVec 128
  ranks  : List Word
  jobkey : List Byte
deriving DecidableEq, Repr

/-- The guard unit of a partition (06 R150 to R155): the parity of the open step, the members counted and their overflow
bit, steps completed and skipped, the exponent, the window count, the elapsed steps of the open step's timer once started and
of the timer of the step after it, which a bit of a module ahead of this one has started, this module's bit once complete, and
the bits of other modules by step. -/
structure GuardUnit where
  par     : Bool
  count   : Nat
  ovf     : Bool
  members : Nat
  steps   : Nat
  skipped : Nat
  ls      : Byte
  window  : Nat
  timer   : Option Nat
  next    : Option Nat
  own     : Option Bool
  others  : List (Nat × Nat × Bool)
deriving DecidableEq, Repr

/-- A guard unit with nothing counted. -/
def GuardUnit.zero : GuardUnit := ⟨false, 0, false, 0, 0, 0, 0, 0, none, none, none, []⟩

/-- The first fault of a partition (19 Table 19-2), with the detail of a synchronisation fault (09 Table 9-6). -/
structure FirstFault where
  code : Nat
  src  : Nat
  loc  : Nat
  sub  : Nat
  tc   : Count
  more : Nat
  detail : List Nat
deriving DecidableEq, Repr

/-- The long commands (14 R352) and the others that complete later. -/
inductive LongKind where
  | load
  | start
  | save
  | restore
  | imp
  | exp
  | reload
  | drain
  | reset
  | abort
  | destroy
deriving DecidableEq, Repr

/-- A command whose completion is still to come: its kind, pair, the pair's enable count when it was taken, identifier, the
north rim count of its taking, and its arguments: numbers, image cores, and the partition state before it. -/
structure Long where
  kind  : LongKind
  qp    : Nat
  epoch : Nat
  cid   : BitVec 16
  at_   : Nat
  nums  : List Nat
  cores : List Nat
  prev  : PSt
deriving DecidableEq, Repr

/-- A pending reload (07 R184, R185): each core with its new folds, units and code; the quiescence timeout, the north rim
count of the last check, for each core the count since which it has been quiescent, the cores that have confirmed, whether
the code has been written, and the commit count once every core has confirmed. -/
structure Reload where
  recs  : List (Nat × CoreRec)
  qtmo  : Nat
  last  : Nat
  since : List (Nat × Nat)
  ok    : List Nat
  goal  : Option Nat
deriving DecidableEq, Repr

/-- A route bound on the mesh: its tag, and the edge router and side where a rim source or destination attaches (11 R278). -/
structure Bound where
  tag   : Nat
  edge  : Option (Nat × Fin 4)
deriving DecidableEq, Repr

/-- A debugger grant (16 R419): partition, rights READ, WRITE, SYNC, RESET in bits 0 to 3, the grantor's role and principal,
the first bytes of DBGKEY, the partition generation, and NOTAFTER. -/
structure Grant where
  part   : Nat
  rights : BitVec 4
  role   : Nat
  prin   : Nat
  key    : BitVec 64
  pgen   : Nat
  after  : Count
deriving DecidableEq, Repr

/-- A debug command that completes later: opcode, pair, the pair's enable count, identifier, the north rim count of its
deadline, its cores, ARG0, ARG1 and ARG2 (20 R484, R488, R496). -/
structure DbgCmd where
  opc   : Nat
  qp    : Nat
  epoch : Nat
  cid   : BitVec 16
  at_   : Nat
  cores : List Nat
  args  : List Nat
deriving DecidableEq, Repr

/-- A debugger attached to a partition (20 R480): its pair, the grant, the cores already halted at the attachment, and its
commands in progress. -/
structure Dbg where
  qp    : Nat
  grant : Grant
  halts : List Nat
  cmds  : List DbgCmd
deriving DecidableEq, Repr

/-- A DBG_RUN whose count is still to come, or whose halt is: the resume count R, the cores still to resume, the step count N,
and the cores that have resumed (20 R488). -/
structure RunArm where
  at_   : Nat
  cores : List Nat
  steps : Nat
  gone  : List Nat
deriving DecidableEq, Repr

/-- A queue pair (14 Table 14-4). vec is none while QP_CTRL.VEC has its reset value q; epoch counts enables; taken counts
the commands outstanding; cq holds the entries the host has not consumed; events wait for completion-ring room. -/
structure CqEntry where
  cid    : BitVec 16
  status : Nat
  phase  : Bool
  evno   : Nat
  sqHead : Nat
  part   : Nat
  state  : Nat
  res    : List Nat
deriving DecidableEq, Repr

/-- An event waiting for completion-ring room (14 R346). -/
structure Event where
  evno   : Nat
  status : Nat
  part   : Nat
  state  : Nat
  res    : List Nat
deriving DecidableEq, Repr

/-- A queue pair (14 Table 14-4). -/
structure Qp where
  sqBase : BitVec 64
  cqBase : BitVec 64
  sqsz   : Nat
  cqsz   : Nat
  en     : Bool
  vec    : Option Nat
  err    : Bool
  evlost : Bool
  code   : Nat
  role   : Nat
  prin   : Nat
  grant  : Option Grant
  sess   : Option Nat
  sqHead : Nat
  sqTail : Nat
  cqHead : Nat
  cqTail : Nat
  phase  : Bool
  epoch  : Nat
  taken  : Nat
  cq     : List CqEntry
  events : List Event
  lost   : Bool
deriving DecidableEq, Repr

/-- A queue pair at reset. -/
def Qp.zero : Qp :=
  { sqBase := 0, cqBase := 0, sqsz := 0, cqsz := 0, en := false, vec := none, err := false, evlost := false, code := 0,
    role := 0, prin := 0, grant := none, sess := none, sqHead := 0, sqTail := 0, cqHead := 0, cqTail := 0, phase := true,
    epoch := 0, taken := 0, cq := [], events := [], lost := false }

/-- An MSI-X vector: how often it was raised, whether its 2 µs holdoff runs, and whether a raise waits for it (14 R347). -/
structure Vec where
  raised : Nat
  off    : Bool
  wait   : Bool
deriving DecidableEq, Repr

/-- A vector at reset. -/
def Vec.zero : Vec := ⟨0, false, false⟩

/-- A write of the module to host memory: address and bytes. -/
structure HostWrite where
  addr  : Nat
  bytes : List Byte
deriving DecidableEq, Repr

/-- A register block that the Register Locator DVSEC points to: its BAR, its offset there, its size, and CXL's number of its kind
(14 R336, Table 14-2). -/
structure RegBlock where
  bar  : Nat
  off  : Nat
  size : Nat
  kind : Nat
deriving DecidableEq, Repr

/-- PCIe function 0: its class code, BAR0's width, kind, size and base, and the register blocks (14 R336). -/
structure PciFunc where
  classCode : BitVec 24
  bar64     : Bool
  prefetch  : Bool
  barSize   : Nat
  base      : BitVec 64
  blocks    : List RegBlock
deriving DecidableEq, Repr

/-- Function 0 at reset (14 R336, Table 14-2). -/
def PciFunc.zero : PciFunc :=
  { classCode := 0x120000, bar64 := true, prefetch := false, barSize := 0x100000, base := 0
    blocks := [⟨0, 0, 0x10000, 1⟩, ⟨0, 0x10000, 0x1000, 3⟩] }

/-- The host attachment: the PCIe function, the pairs, the vectors, the pair whose turn it is, what was written to host memory, MOD_STATUS
bits, the link, the refused commands logged, and a REG_WRITE of MESH_CFG that waits for its count (14 R339, R345; 11 R262). -/
structure HostIf where
  pci   : PciFunc
  qps   : Tbl Qp
  vecs  : Tbl Vec
  turn  : Nat
  out   : List HostWrite
  early : Bool
  full  : Bool
  linkw : Nat
  tcHi  : BitVec 16
  refused : List (Nat × Nat × Nat)
  meshCmd : Option Long
deriving DecidableEq, Repr

/-- The host attachment at reset. -/
def HostIf.zero : HostIf :=
  { pci := .zero, qps := [], vecs := [], turn := 0, out := [], early := false, full := false, linkw := 0, tcHi := 0, refused := [], meshCmd := none }

/-- A barrier object (09 Table 9-5), with the participants on this module and the generation's arrival record. -/
structure BarObj where
  part    : Nat
  bnum    : Nat
  home    : Bool
  lcm1    : Nat
  arrived : Nat
  flag    : Fin 64
  fset    : Bool
  gen     : Nat
  modm1   : Nat
  marr    : Nat
  homemod : Nat
  members : List Nat
  record  : List Nat
deriving DecidableEq, Repr

-- Packets and channels ---------------------------------------------------------------------------------------------

/-- A packet: the fields of its header (13 Table 13-2), whether a reserved bit is set, and the bytes that follow. -/
structure Packet where
  ver    : Nat
  typ    : Nat
  vc     : Nat
  epoch  : Nat
  alt    : Bool
  resent : Bool
  enc    : Bool
  resv   : Bool
  len    : Nat
  dst    : Nat
  src    : Nat
  chn    : Nat
  tag    : Nat
  tep    : Bool
  seq    : Nat
  arg0   : Nat
  arg1   : Nat
  age    : Nat
  body   : List Byte
deriving DecidableEq, Repr

/-- A packet kept until it is acknowledged: its sequence, the packet, whether it was resent, and the time left on its timer
with the moment from which that runs (13 R326, R328). -/
structure TxCopy where
  eseq   : Nat
  p      : Packet
  resent : Bool
  at_    : Nat
  paused : Nat
deriving DecidableEq, Repr

/-- A received packet in a buffer: its sequence, sideband, entries, and how many have been injected (13 R327). -/
structure RxBuf where
  eseq : Nat
  tag  : Nat
  tep  : Bool
  ents : List Row
  sent : Nat
deriving DecidableEq, Repr

/-- A credit object with its endpoint and route binding (09 Table 9-4; 13 R315). next is the next sequence to send or
expected; out the next to inject; tok the entries of the token an egress unit is collecting; alt the INJ value under which new packets take ALT. -/
structure Chan where
  recv : Bool
  part : Nat
  bufm1 : Nat
  cr   : BitVec 32
  peer : Nat
  chn  : Nat
  ep   : Nat
  tag  : Nat
  edge : Nat
  next : Nat
  out  : Nat
  tok  : List QEntry
  tx   : List TxCopy
  rx   : List RxBuf
  alt  : Option Nat
  stop : Bool
deriving DecidableEq, Repr

-- Perimeter memory -----------------------------------------------------------------------------------------------

/-- A byte of perimeter memory with the key under which it was written; key 0 means never written (12 R291, R292). -/
structure Cell where
  b   : Byte
  key : Nat
deriving DecidableEq, Repr

/-- The states of a stream context (12 Table 12-3). -/
inductive CtxSt where
  | idle
  | armed
  | run
  | wait
  | done
  | fault
deriving DecidableEq, Repr

/-- A stream context (12 R293, R301, R304): its partition, first and current descriptor, tile index, repetition, tiles
written, digest, closes, and a stop that takes effect at the tile boundary. -/
structure Ctx where
  st    : CtxSt
  part  : Option Nat
  first : Nat
  idx   : Nat
  k     : Nat
  r     : Nat
  wtot  : Word
  dig   : BitVec 128
  closes : Nat
  stopping : Bool
  skip  : Bool
deriving DecidableEq, Repr

/-- A context at reset. -/
def Ctx.zero : Ctx := ⟨.idle, none, 0, 0, 0, 0, 0, 0, 0, false, false⟩

/-- A stream engine and its stack (12 Tables 12-4, 12-5): the descriptor store with its owner, the contexts, the registers,
the granule owners, the refresh state, and the times of the refetches and of the corrected lines of the last hour. -/
structure Engine48 where
  descs   : Tbl (Nat × BitVec 256)
  ctxs    : Tbl Ctx
  refetch : Word
  refAt   : List Nat
  ceAt    : List Nat
  subst   : Nat
  err     : BitVec 3
  errLoc  : Word
  rdLines : Word
  wrLines : Word
  ctxSel  : Nat
  ctxAddr : Nat
  trained : Bool
  failed  : Bool
  temp    : Nat
  ce      : Word
  ue      : Word
  denied  : Word
  owner   : Tbl Nat
  selfRef : Bool
  fast    : Bool
deriving DecidableEq, Repr

/-- A stream engine and its stack at reset (12 Tables 12-4, 12-5). -/
def Engine48.zero : Engine48 :=
  { descs := [], ctxs := [], refetch := 0, refAt := [], ceAt := [], subst := 0, err := 0, errLoc := 0, rdLines := 0, wrLines := 0, ctxSel := 0,
    ctxAddr := 0, trained := false, failed := false, temp := 0, ce := 0, ue := 0, denied := 0, owner := [],
    selfRef := false, fast := false }

/-- What a partition save keeps beside the contexts (15 R392; 19 R469): the bundle, the guard unit, the barrier objects with
the image cores of their participants and arrivals, the collectors by pan ordinal with their cores as image cores, the
channels, the stream contexts by engine and number, the seed, and the digest chain. -/
structure SaveRec where
  image : Image
  guard : GuardUnit
  bars  : List BarObj
  colls : List Collector
  chans : List Chan
  ctxs  : List (Nat × Nat × Ctx)
  seed  : BitVec 64
  chain : BitVec 128
  periods : Nat
  closed : List (Nat × Nat × Nat × BitVec 128)
  chains : List (Nat × Nat × BitVec 128)
  keyid  : BitVec 64
deriving DecidableEq, Repr

/-- The host window of a partition (16 R414): open, RAW, writes allowed, every source, the source, the pair that opened it. -/
structure Window where
  isOpen : Bool
  raw    : Bool
  wr     : Bool
  any    : Bool
  spid   : Nat
  qp     : Nat
deriving DecidableEq, Repr

/-- A job key as the security block holds it: KEYID, JK, and the XTS pair where one is included (16 R411, R412). -/
structure JobKey where
  keyid : BitVec 64
  jk    : Nat
  xts   : Option Nat
deriving DecidableEq, Repr

/-- A partition: state, tenant, pans in ascending order, generation, hold causes, job, guard unit, keys, window, granules by
stack, debugger, commands in progress, and what the loader bound (14 R349 to R368; 15 R389 to R394; 19 R464 to R471).
xts is the XTS pair in force. closed are the context digests of periods not yet formed; chains are chain values held for
exchanges, by period and replica. ends is the code of a job end whose last steps wait for the release of HOLD (17 R430; 19 R467).
phase is 1 while a reset waits for its absorbed inputs, 2 once it has released the mesh;
restored says that the cores keep their CAND bits at the next start (15 R393); absorbs are those inputs, quietAt the north rim count at which one last held a flit (11 R281). -/
structure Part where
  st       : PSt
  prin     : Nat
  pans     : List Nat
  pgen     : Nat
  endCode  : Nat
  holdHost : Bool
  holdPark : Bool
  image    : Option Image
  loadQp   : Option (Nat × Nat)
  seed     : BitVec 64
  guard    : GuardUnit
  fault    : Option FirstFault
  ends     : Option Nat
  ending   : Bool
  long     : Option Long
  waits    : List Long
  dbg      : Option Dbg
  runs     : List RunArm
  reload   : Option Reload
  bound    : List Bound
  spills   : List Bound
  links    : List Bound
  spillBuf : List (List QEntry)
  drainOf  : List Nat
  loads    : List (Nat × Nat × List Byte × Nat)
  starts   : Option Nat
  stopAt   : Nat
  phase    : Nat
  absorbs  : List (Nat × Fin 4)
  quietAt  : Nat
  restored : Bool
  granules : List (List Nat)
  window   : Window
  xts      : Nat
  xtsOwn   : Bool
  jk       : Option Nat
  keyid    : BitVec 64
  staged   : Option JobKey
  saved    : Option SaveRec
  chain    : BitVec 128
  periods  : Nat
  closed   : List (Nat × Nat × Nat × BitVec 128)
  chains   : List (Nat × Nat × BitVec 128)
deriving DecidableEq, Repr

/-- A closed window. -/
def Window.zero : Window := ⟨false, false, false, false, 0, 0⟩

/-- No partition. -/
def Part.zero : Part :=
  { st := .none, prin := 0, pans := [], pgen := 0, endCode := 0, holdHost := false, holdPark := false, image := none,
    loadQp := none, seed := 0, guard := .zero, fault := none, ends := none, ending := false, long := none, waits := [], dbg := none,
    runs := [], reload := none, bound := [], spills := [], links := [], spillBuf := [], drainOf := [], loads := [], starts := none,
    stopAt := 0, phase := 0, absorbs := [], quietAt := 0, restored := false, granules := List.replicate 48 [], window := .zero, xts := 0, xtsOwn := false, jk := none, keyid := 0,
    staged := none, saved := none, chain := 0, periods := 0, closed := [], chains := [] }

-- The security block ---------------------------------------------------------------------------------------------

/-- An SPDM session (16 R404): the requester's key hash, the hash of its chain's root, whether authentication was mutual,
the heartbeats and key updates since it opened. -/
structure Session where
  key     : BitVec 512
  root    : BitVec 512
  mutAuth : Bool
  beats   : Nat
  updates : Nat
deriving DecidableEq, Repr

/-- A licence in force (16 R410). -/
structure Licence where
  version : Nat
  ports   : Nat
  parts   : Nat
  fourBit : Bool
  keySvc  : Bool
  tide    : Nat
  digest  : BitVec 512
deriving DecidableEq, Repr

/-- The fuses (16 Table 16-5): they outlast every reset. owners are the programmed OWNER slots, at most four. -/
structure Fuses where
  serial : BitVec 64
  owners : List (BitVec 512)
  fw     : Nat
  lic    : Nat
  tp     : Nat
  keySvc : Bool
  bad    : List Nat
deriving DecidableEq, Repr

/-- The owner in force: the highest programmed slot (16 Table 16-5). -/
def Fuses.owner (f : Fuses) : BitVec 512 := f.owners.getLastD 0

/-- The security block: sessions, enrolments, the licence, the boot instance, KEYIDs accepted since module reset, the
measurements of the firmware in force and of the test pack, CXL IDE, and the responses sent (16 R397 to R407). -/
structure Security where
  sess    : Tbl (Option Session)
  enrol   : Tbl (Option (BitVec 512))
  licence : Option Licence
  bootid  : BitVec 128
  keyids  : List (BitVec 64)
  image   : Option (List Byte)
  svn     : Nat
  ideIo   : Bool
  ideMem  : Bool
deriving DecidableEq, Repr

/-- The security block before firmware runs. -/
def Security.zero : Security :=
  { sess := [], enrol := [], licence := none, bootid := 0, keyids := [], image := none, svn := 0, ideIo := false,
    ideMem := false }

/-- A CTRL message between module controllers (13 Table 13-4): subtype, partition, the other module, and its words. -/
structure Ctrl where
  sub  : Nat
  part : Nat
  peer : Nat
  body : List Nat
deriving DecidableEq, Repr


-- Power ----------------------------------------------------------------------------------------------------------

/-- A pan's stage and its calibration (17 Table 17-7; 18 Table 18-6). st is PAN_PWR.STATE; why is the STATE that the opening
of its breaker leads to, 0 while none is commanded, trip that its hardware trip has latched; set is the rail's set point; cal names what calibration fitted; dyn is
the dynamic power of the last tick in microwatts; drift counts intervals outside the band; steps, tap and model are the
count of the node, the energy of the interval by holder, in microjoules. -/
structure PanPwr where
  st     : Nat
  brk    : Bool
  brkFail : Bool
  fuse   : Bool
  warn   : Bool
  throt  : Bool
  hot    : Bool
  tmax   : Nat
  mv     : Nat
  amp    : Nat
  why    : Nat
  trip   : Bool
  set    : Nat
  vofs   : BitVec 5
  cald   : Bool
  drift  : Bool
  ratio  : Nat
  cal    : Nat
  dyn    : Nat
  off    : Nat
  steps  : Nat
  model  : List (Option Nat × Nat)
  meas   : Nat
deriving DecidableEq, Repr

/-- A pan's stage at reset. -/
def PanPwr.zero : PanPwr :=
  { st := 0, brk := false, brkFail := false, fuse := false, warn := false, throt := false, hot := false, tmax := 0, mv := 0,
    amp := 0, why := 0, trip := false, set := 0, vofs := 0, cald := false, drift := false, ratio := 4096, cal := 0, dyn := 0, off := 0,
    steps := 0, model := [], meas := 0 }

/-- A partition's energy meter (18 R457; 16 R423): window length in seconds, ticks of the window that have passed, the energy
charged and not yet reported in microjoules, index, last report (index, joules, length), and all joules reported. -/
structure Meter where
  window : Nat
  ticks  : Nat
  acc    : Nat
  index  : Nat
  last   : Option (Nat × Nat × Nat)
  total  : Nat
  lines  : Nat
  units  : Nat
deriving DecidableEq, Repr

/-- A meter as PART_CREATE starts it. -/
def Meter.zero : Meter := ⟨1, 0, 0, 0, none, 0, 0, 0⟩

/-- The power block and the power control block (17 Table 17-6; 18 Table 18-6). above says that P_ENTRY exceeded CAP_EFF in
the last tick; overs counts such ticks at code 8; start is a pending POWER_CAP; raising and lowering are a rate change
whose rails are on their way; hotFor and coolFor are ticks since the last step of THERM with and without THROT; tap holds
the activity counters last read, by core and counter; joules is the module's entry energy in microjoules; writes is the log
of cap writes: source, target, ramp, guard. -/
structure Power where
  entryOk : Bool
  ride    : Bool
  modTrip : Bool
  entryV  : Nat
  entryI  : Nat
  cin     : Nat
  cout    : Nat
  trips   : Nat
  pans    : Tbl PanPwr
  target  : Nat
  ramp    : Nat
  guard   : Nat
  eff     : Nat
  curr    : Bool
  above   : Bool
  overs   : Nat
  start   : Option (Nat × Nat × Nat × Nat)
  raising : Option Nat
  lowering : Option (Nat × Nat)
  oper    : Bool
  capPark : Bool
  parked  : Bool
  waking  : Bool
  p8      : Nat
  now     : Nat
  rim     : Nat
  rimBase : Nat
  vf      : Option (List Nat)
  hotFor  : Nat
  coolFor : Nat
  lastHot : Bool
  tap     : Tbl (Vector Word 4)
  joules  : Nat
  ticks   : Nat
  meters  : Tbl Meter
  writes  : List (Nat × Nat × Nat × Nat)
deriving DecidableEq, Repr

/-- The power blocks at reset. -/
def Power.zero : Power :=
  { entryOk := false, ride := false, modTrip := false, entryV := 0, entryI := 0, cin := 0, cout := 0, trips := 0, pans := [],
    target := 40000, ramp := 400, guard := 500, eff := 40000, curr := false, above := false, overs := 0, start := none,
    raising := none, lowering := none, oper := false, capPark := false, parked := false, waking := false, p8 := 0, now := 0,
    rim := 0, rimBase := 0, vf := none, hotFor := 0, coolFor := 0, lastHot := false, tap := [], joules := 0, ticks := 0,
    meters := [], writes := [] }

-- Reliability ----------------------------------------------------------------------------------------------------

/-- A pan's test entry (19 Table 19-8): passAt is the time of its last pass, from which AGE counts; fail is the kernel and the local x and y of the first failing core. -/
structure TestPan where
  pass    : Bool
  quar    : Bool
  run     : Bool
  overdue : Bool
  passAt  : Nat
  fail    : Option (Nat × Nat × Nat)
deriving DecidableEq, Repr

/-- A pan's test entry at reset. -/
def TestPan.zero : TestPan := ⟨false, false, false, false, 0, none⟩

/-- A kernel of a test pack: uses short formats, code, data, expected bytes (19 Table 19-5). -/
structure Kernel where
  short  : Bool
  code   : List Byte
  data   : List Byte
  expect : List Byte
deriving DecidableEq, Repr

/-- The reliability block (19 Table 19-8) and the pack in force. ue are the times of the uncorrectable events of the last 24 h,
newest first; seen says when each watch condition was last met. -/
structure Rel where
  suspect  : BitVec 10
  watch    : BitVec 6
  ver      : Nat
  interval : Nat
  budget   : Nat
  kernels  : List Kernel
  digest   : BitVec 512
  runs     : Nat
  fails    : Nat
  ue       : List Nat
  seen     : Vector Nat 6
  pans     : Tbl TestPan
deriving DecidableEq, Repr

/-- The reliability block at reset. -/
def Rel.zero : Rel :=
  { suspect := 0, watch := 0, ver := 0, interval := 10, budget := 0, kernels := [], digest := 0, runs := 0, fails := 0, ue := [],
    seen := Vector.replicate 6 0, pans := [] }

/-- A debug log entry (20 Table 20-4). -/
structure LogEntry where
  seq    : Nat
  tc     : Nat
  opc    : Nat
  status : Nat
  grole  : Nat
  gprin  : Nat
  part   : Nat
  tprin  : Nat
  pgen   : Nat
  keyid  : Nat
  target : Nat
  a      : Nat
  b      : Nat
  wcrc   : Nat
deriving DecidableEq, Repr

/-- Bring-up: the power entry and the signal connector mated (01 R13), power good, the pan groups switched on, P1 passed, P2 of the mesh done, P5 done, and per pan whether P4 has
run (15 Table 15-1). -/
structure Boot where
  entry  : Bool
  signal : Bool
  good   : Bool
  groups : BitVec 12
  linkUp : Bool
  p1     : Bool
  p2     : Bool
  p5     : Bool
  p4     : List Nat
deriving DecidableEq, Repr

/-- Bring-up at reset, in a module that is mated: DESIGN CHOICE, log 117. -/
def Boot.zero : Boot := ⟨true, true, false, 0, false, false, false, false, []⟩

-- The fabric -----------------------------------------------------------------------------------------------------

/-- A packet in a router buffer: the output it goes to, none for an endpoint of this module; the time its header came; the
bytes still to come (13 R316). -/
structure InPkt where
  p    : Packet
  out  : Option Nat
  at_  : Nat
  need : Nat
deriving DecidableEq, Repr

/-- A port (13 R305 to R311, Tables 13-1, 13-7). bseq is the next block to send; replay the blocks kept; back the last block
accepted; buf the packets received and not yet sent on, in order of arrival; cred and ret the credits held and owed, by VC;
rx the bytes accepted and not yet parsed; heads the packets whose headers lie in the replay buffer, with their block; tries the times of the retry episodes of the last
hour, lost those of its exhaustions. -/
structure Port where
  st      : Nat
  lanes   : Byte
  disable : Bool
  fecCe   : Word
  fecUe   : Word
  crc     : Word
  retries : Word
  tries   : List Nat
  exhaust : Nat
  rtt     : Nat
  txPkt   : Word
  rxPkt   : Word
  bseq    : Nat
  replay  : List (Nat × Nat × List Byte)
  sent    : List (List Byte)
  back    : Option Nat
  nak     : Bool
  nakAt   : Nat
  episode : Option (Nat × Nat × Nat)
  noticed : List Nat
  lost    : List Nat
  refDown : Bool
  cred    : Vector Nat 8
  ret     : Vector Nat 8
  rx      : List Byte
  buf     : List InPkt
  heads   : List (Nat × Packet)
  turns   : Vector Nat 8
  vcTurn  : Nat
deriving DecidableEq, Repr

/-- A port at reset: OFF, every credit of the far side in hand. -/
def Port.zero : Port :=
  { st := 0, lanes := 0, disable := false, fecCe := 0, fecUe := 0, crc := 0, retries := 0, tries := [], exhaust := 0, rtt := 0, txPkt := 0,
    rxPkt := 0, bseq := 0, replay := [], sent := [], back := none, nak := false, nakAt := 0, episode := none, noticed := [],
    lost := [], refDown := false, cred := Vector.replicate 8 1040, ret := Vector.replicate 8 0, rx := [], buf := [],
    heads := [], turns := Vector.replicate 8 0, vcTurn := 0 }

/-- A job endpoint, or endpoint 0: the partition that holds it, its edge link, packets delivered to it, packets it injects,
the open RETRY_STARTs: reporting module and port, since when; since when its timers pause; and the rim steps in which its ingress and
egress units last moved an entry (13 R313, R328, R329). -/
structure Endpoint where
  part  : Option Nat
  edge  : Nat
  inq   : List Packet
  outq  : List Packet
  retry : List (Nat × Nat × Nat)
  pausedAt : Option Nat
  inAt  : Option Nat
  outAt : Option Nat
deriving DecidableEq, Repr

/-- An endpoint at reset. -/
def Endpoint.zero : Endpoint := ⟨none, 0, [], [], [], none, none, none⟩

/-- A sequence of CTRL packets between two modules for one job (13 R331, R332). -/
structure CtlSeq where
  part : Nat
  peer : Nat
  next : Nat
  tx   : List TxCopy
deriving DecidableEq, Repr

/-- The fabric (13 Table 13-6). drops are the counters from CX_DROP_HDR to CX_AUTHFAIL; left is when INJ last changed;
store holds the CTRL messages received; sends and gets the CTRL sequences. -/
structure Fabric where
  en      : Bool
  refDown : Bool
  inj     : Nat
  wr      : Vector Bool 2
  tmo     : Nat
  drops   : Vector Word 9
  pl      : Nat
  tmos    : Nat
  tblMod  : Nat
  tblBank : Nat
  table   : Tbl Word
  left    : Option Nat
  refAt   : Nat
  ports   : Tbl Port
  chans   : Tbl (Option Chan)
  eps     : Tbl Endpoint
  store   : List Ctrl
  sends   : List CtlSeq
  gets    : List CtlSeq
deriving DecidableEq, Repr

/-- The fabric at reset. -/
def Fabric.zero : Fabric :=
  { en := false, refDown := false, inj := 0, wr := Vector.replicate 2 false, tmo := 200, drops := Vector.replicate 9 0, pl := 0,
    tmos := 0, tblMod := 0, tblBank := 0, table := [], left := none, refAt := 0, ports := [], chans := [], eps := [], store := [],
    sends := [], gets := [] }
/-- A pan: the partition it belongs to, its place in the logical numbering, its DEFECT positions, whether its short formats
are enabled, and its collector (15 R381, R383, R385; 11 R271). -/
structure Pan where
  part    : Option Nat
  num     : Option Nat
  defects : List Nat
  shortOn : Bool
  coll    : Collector
deriving DecidableEq, Repr

/-- A pan at reset. -/
def Pan.zero : Pan := ⟨none, none, [], false, .zero⟩

/-- The module. time is wall time in picoseconds as the north rim's pace measures it; said are the responses on SPDM, MCTP and
the mailbox: channel and bytes. -/
structure State where
  time  : Nat
  cores : Tbl Core
  nodes : Tbl Node
  tide  : Tide
  sluices : Tbl Sluice
  routers : Tbl Router
  mesh  : Mesh
  edges : Tbl Edge
  ctlIn : List (Nat × Msg)
  pans  : Tbl Pan
  stations : Tbl Station
  haltSent : List Nat
  parts : Tbl Part
  host  : HostIf
  bars  : Tbl (Option BarObj)
  engs  : Tbl Engine48
  pmem  : List (Tbl Cell)
  sec   : Security
  fuse  : Fuses
  ctrlOut : List Ctrl
  modnum : Nat
  fab   : Fabric
  power : Power
  rel   : Rel
  boot  : Boot
  log   : List LogEntry
  logSeq : Nat
  said  : List (Nat × List Byte)
  stuck : List Nat
  free  : Nat
  pending : List Instr
deriving DecidableEq, Repr

/-- Reset. -/
def State.reset : State :=
  { time := 0, cores := [], nodes := [], tide := .zero, sluices := [], routers := [], mesh := .zero, edges := [], ctlIn := [],
    pans := [], stations := [], haltSent := [], parts := [], host := .zero, bars := [], engs := [], pmem := List.replicate 48 [], sec := .zero,
    fuse := ⟨0, [0], 0, 0, 0, false, []⟩, ctrlOut := [], modnum := 0, fab := .zero, power := .zero, rel := .zero,
    boot := .zero, log := [], logSeq := 0, said := [], stuck := [], free := 0, pending := [] }

/-- Why the machine stops with a fault. -/
inductive Fault where
  /-- A command names a core past the wafer's 921,600 positions (onCore and the commands on one core). Safe: the module has
  no such core (assumption log 91). -/
  | noSuchUnit
deriving DecidableEq, Repr

/-- Why a command is refused. -/
inductive Refusal where
  /-- A command without a meaning: raised by a dispatch arm that calls none, of which there is none. Safe: nothing is
  claimed of such a command. -/
  | notModelled (mnemonic : String)
deriving DecidableEq, Repr

end Sys2Proof.Machine
end

