-- ==== Sys2Proof/Config.lean ====
section
/-! DEFINITION. What an implementation fixes and the spec leaves open: free values and the cryptographic functions, each a
constant without a body, so that nothing can be proved of its value. -/

namespace Sys2Proof

/-- A free value of any width, by the counter in the state that is advanced at every use. -/
opaque Config.freeNat : Nat → Nat

/-- Whether the reference's edges lie within limits at a time at which the pace line is not on it (10 Table 10-4). -/
opaque Config.refPresent : Nat → Bool

/-- What a byte of perimeter memory reads as under a key it was not written under: key, address (12 R292). -/
opaque Config.staleByte : Nat → Nat → Byte

/-- The XTS key pair that the security block drew under a number (12 R292). -/
opaque Config.drawnPair : Nat → BitVec 512

/-- The unwrap of a JOBKEY's WK under the module's key-agreement key: EPK, KEYID, WK; none where a check fails (16 R412). -/
opaque Config.unwrapKey : List Byte → Nat → List Byte → Option (Nat × Option Nat)

/-- Whether the signature that ends a signed object verifies: object class 0 firmware, 1 licence, 2 test pack, 3 grant
(16 R408, R419). -/
opaque Config.sigOk : Nat → List Byte → Bool

/-- SHA-512 of a byte string. -/
opaque Config.sha512 : List Byte → BitVec 512

/-- The sealed save record: JK; BL, NPANS, KEYID and EXPSEQ; the tenant's key hash; the records; the XTS pair (16 R417). -/
opaque Config.sealRec : Nat → List Nat → BitVec 512 → Machine.SaveRec → Nat → List Byte

/-- The header of a sealed save record: BL, NPANS, KEYID, the key hash; none where it is no such record (16 R417). -/
opaque Config.recHead : List Byte → Option (Nat × Nat × Nat × BitVec 512)

/-- The records that a sealed save record holds under JK, with its XTS pair; none where the tag fails (16 R418). -/
opaque Config.unseal : Nat → List Byte → Option (Machine.SaveRec × Nat)

/-- A signature of the alias key over a message (16 R402, R404). -/
opaque Config.sign : List Byte → List Byte

/-- A certificate chain, by slot (16 Table 16-3). -/
opaque Config.certChain : Nat → List Byte

/-- A pan's static power in microwatts: its calibration, rail in mV, temperature (18 R445, R454). -/
opaque Config.staticPower : Nat → Nat → Nat → Nat

/-- A pan's energy coefficients in femtojoules: calibration, counter 0 MTX, 1 VEC, 2 SRAM, 3 FLIT, 4 steps (18 R454). -/
opaque Config.energyCost : Nat → Nat → Nat

/-- The weights of the rim's variable energy: 0 a line, 1 a 64 B unit (18 R456). -/
opaque Config.rimCost : Nat → Nat

/-- The fields of a licence, none where it is no licence: serial, version, FLOOR, ports, partitions, 4-bit enable, key
service, tide cap (16 R410). -/
opaque Config.readLicence : List Byte → Option (List Nat)

/-- The security version and FLOOR of a firmware image, none where its sections fail (15 R374; 16 R409). -/
opaque Config.imageVersion : List Byte → Option (Nat × Nat)

/-- The section of a firmware image by KIND (15 Table 15-3). -/
opaque Config.fwPart : Nat → List Byte → List Byte

/-- A point of VF_TABLE that a THERM section loads: the section, the code; in mV (18 R445). -/
opaque Config.vfPoint : List Byte → Nat → Nat

/-- The boot ROM (16 Table 16-4A). -/
opaque Config.bootRom : List Byte

/-- The revision that the function's configuration space shows (14 R336). -/
opaque Config.revision : Nat

/-- A word of the CXL component and device register blocks, as CXL 3.1 gives them, by its offset in BAR0 (14 Table 14-2). -/
opaque Config.cxlWord : Nat → Nat

/-- A mailbox response: the command, its argument, the free-value counter (14 Table 14-1). -/
opaque Config.mailbox : Nat → Nat → Nat → List Byte

end Sys2Proof
end

