-- ==== Sys2Proof/Machine/Number.lean ====
section
/-! DEFINITION. The number formats, exact values, rounding and the hash of chapter 05: every floating-point result of the
wafer is an exact value rounded once (05 R133). -/

namespace Sys2Proof.Machine

/-- A binary floating-point format of Table 5-1: width in bits, fraction bits t, the exponent of the smallest subnormal,
the code of the largest finite magnitude, the code of infinity where the format has one, and the lowest magnitude code
that is a NaN. -/
structure FloatFmt where
  width : Nat
  t     : Nat
  qmin  : Int
  maxc  : Nat
  infc  : Option Nat
  nanLo : Option Nat
  nan   : Nat
deriving DecidableEq, Repr

/-- H16 (05 Table 5-1). -/
def fmtH16 : FloatFmt := ⟨16, 10, -24, 0x7BFF, some 0x7C00, some 0x7C01, 0x7E00⟩
/-- W16 (05 Table 5-1). -/
def fmtW16 : FloatFmt := ⟨16, 7, -133, 0x7F7F, some 0x7F80, some 0x7F81, 0x7FC0⟩
/-- E5 (05 Table 5-1). -/
def fmtE5 : FloatFmt := ⟨8, 2, -16, 0x7B, some 0x7C, some 0x7D, 0x7E⟩
/-- E4 (05 Table 5-1): no infinity, one NaN. -/
def fmtE4 : FloatFmt := ⟨8, 3, -9, 0x7E, none, some 0x7F, 0x7F⟩
/-- E3 (05 Table 5-1): every encoding is a number. -/
def fmtE3 : FloatFmt := ⟨6, 2, -4, 0x1F, none, none, 0⟩
/-- E2 (05 Table 5-1): every encoding is a number. -/
def fmtE2 : FloatFmt := ⟨4, 1, -1, 0x7, none, none, 0⟩

/-- An exact value: a NaN, an infinity, or (-1)^neg x mag x 2^exp with its sign kept for zero. -/
inductive FVal where
  | nan
  | inf (neg : Bool)
  | fin (neg : Bool) (mag : Nat) (exp : Int)
deriving DecidableEq, Repr

/-- How a rounding goes: to nearest even, toward zero, or stochastically with the 16-bit draw U (05 R133). -/
inductive RMode where
  | rne
  | rtz
  | sr (u : Nat)
deriving DecidableEq, Repr

/-- The value an encoding means (05 R125). -/
def decodeFloat (f : FloatFmt) (code : Nat) : FVal :=
  let mag := code % 2 ^ (f.width - 1)
  let neg := (code >>> (f.width - 1)) % 2 = 1
  if f.infc = some mag then .inf neg
  else if (match f.nanLo with | some k => decide (k ≤ mag) | none => false) then .nan
  else
    let e := mag >>> f.t
    let fr := mag % 2 ^ f.t
    if e = 0 then .fin neg fr f.qmin else .fin neg (fr + 2 ^ f.t) (f.qmin + e - 1)

/-- The value of an integer (05 R125, two's complement formats). -/
def ofInt (x : Int) : FVal := .fin (x < 0) x.natAbs 0

/-- Whether a value is a NaN. -/
def FVal.isNan : FVal → Bool
  | .nan => true
  | _ => false

/-- Whether a value is finite. -/
def FVal.isFin : FVal → Bool
  | .fin _ _ _ => true
  | _ => false

/-- Whether the discarded part rem of 2^sh rounds the magnitude k up (05 R133). -/
def roundsUp (rm : RMode) (k rem sh : Nat) : Bool :=
  match rm with
  | .rne => decide (2 ^ sh < 2 * rem) || (decide (2 * rem = 2 ^ sh) && decide (k % 2 = 1))
  | .rtz => false
  | .sr u => decide (u < 65536 * rem / 2 ^ sh)

/-- The magnitude code of mag x 2^exp rounded into a format, its exponent range unbounded above (05 R133). -/
def roundMag (f : FloatFmt) (rm : RMode) (mag : Nat) (exp : Int) : Nat :=
  if mag = 0 then 0
  else
    let q := max f.qmin (exp + (Nat.log2 mag : Int) - f.t)
    let k := if q ≤ exp then mag <<< (exp - q).toNat
      else
        let sh := (q - exp).toNat
        let k0 := mag >>> sh
        if roundsUp rm k0 (mag % 2 ^ sh) sh then k0 + 1 else k0
    ((q - f.qmin).toNat <<< f.t) + k

/-- The sign bit of a format. -/
def signCode (f : FloatFmt) (neg : Bool) : Nat := if neg then 2 ^ (f.width - 1) else 0

/-- The encoding of an exact value rounded once into a format (05 R127, R133): a NaN becomes the canonical one; past the
largest finite value, infinity under RNE and SR and the largest finite value under RTZ. -/
def roundTo (f : FloatFmt) (rm : RMode) (v : FVal) : Nat :=
  match v with
  | .nan => f.nan
  | .inf neg => signCode f neg + f.infc.getD f.maxc
  | .fin neg mag exp =>
    let c := roundMag f rm mag exp
    signCode f neg +
      (if c ≤ f.maxc then c else match rm with | .rtz => f.maxc | _ => f.infc.getD f.maxc)

/-- An exact value rounded to an integer, with no range limit (05 R133; 03 R86). -/
def roundInt (rm : RMode) (neg : Bool) (mag : Nat) (exp : Int) : Int :=
  let k := if 0 ≤ exp then mag <<< exp.toNat
    else
      let sh := (-exp).toNat
      let k0 := mag >>> sh
      if roundsUp rm k0 (mag % 2 ^ sh) sh then k0 + 1 else k0
  if neg then -(k : Int) else (k : Int)

/-- The exact product, by the rules of IEEE 754-2019 (04 R100). -/
def FVal.mul : FVal → FVal → FVal
  | .nan, _ => .nan
  | _, .nan => .nan
  | .inf a, .inf b => .inf (a != b)
  | .inf a, .fin b m _ => if m = 0 then .nan else .inf (a != b)
  | .fin a m _, .inf b => if m = 0 then .nan else .inf (a != b)
  | .fin a m e, .fin b n f => .fin (a != b) (m * n) (e + f)

/-- The value with its sign flipped. -/
def FVal.negate : FVal → FVal
  | .nan => .nan
  | .inf a => .inf (!a)
  | .fin a m e => .fin (!a) m e

/-- The lowest exponent among the nonzero finite terms, from a start. -/
def minExp (e0 : Int) : List FVal → Int
  | [] => e0
  | .fin _ m e :: t => minExp (if m = 0 then e0 else min e0 e) t
  | _ :: t => minExp e0 t

/-- The sum of the finite terms in units of 2^e. -/
def sumAt (e : Int) : List FVal → Int
  | [] => 0
  | .fin neg m x :: t =>
    let u : Int := ((m <<< (x - e).toNat : Nat) : Int)
    (if m = 0 then 0 else if neg then -u else u) + sumAt e t
  | _ :: t => sumAt e t

/-- The exact sum of terms (04 R100; 03 R85): NaN for a NaN term or infinities of both signs; a sum that is exactly zero is
+0 unless there are terms and every one is -0. -/
def sumF (ts : List FVal) : FVal :=
  if ts.any FVal.isNan then .nan
  else
    let pos := ts.any (· = .inf false)
    let ng := ts.any (· = .inf true)
    if pos && ng then .nan
    else if pos then .inf false
    else if ng then .inf true
    else
      let e := minExp 0 ts
      let t := sumAt e ts
      if t = 0 then
        .fin (!ts.isEmpty && ts.all (fun v => match v with | .fin true 0 _ => true | _ => false)) 0 0
      else .fin (t < 0) t.natAbs e

/-- A value times 2^n. -/
def FVal.scaleBy (n : Int) : FVal → FVal
  | .fin s m e => .fin s m (e + n)
  | v => v

/-- A short-format element with its block's SCALE8 code (05 R130): code 255 reads NaN whatever the element. -/
def withScale (c : Nat) (v : FVal) : FVal := if c = 255 then .nan else v.scaleBy ((c : Int) - 127)

/-- Two's complement of the low n bits. -/
def sext (n x : Nat) : Int :=
  let y := x % 2 ^ n
  if y < 2 ^ (n - 1) then (y : Int) else (y : Int) - 2 ^ n

end Sys2Proof.Machine

namespace Sys2Proof

open Machine

/-- The FMT code of a tile format (05 Table 5-1). -/
def TileFmt.code : TileFmt → Nat
  | .h16 => 0
  | .w16 => 1
  | .e5 => 2
  | .e4 => 3
  | .e3 => 4
  | .e2 => 5
  | .i8 => 6
  | .i4 => 7

/-- The tile format of an FMT code. -/
def TileFmt.ofCode (c : Nat) : Option TileFmt :=
  [TileFmt.h16, .w16, .e5, .e4, .e3, .e2, .i8, .i4][c]?

/-- Element width in bits as stored (05 R126; 08 R192). -/
def TileFmt.width : TileFmt → Nat
  | .h16 => 16
  | .w16 => 16
  | .e2 => 4
  | .i4 => 4
  | _ => 8

/-- Whether the format is short, so that its blocks carry scales. -/
def TileFmt.short : TileFmt → Bool
  | .h16 => false
  | .w16 => false
  | _ => true

/-- The value of a stored element, without its scale (05 R125, R126): readers of E3 ignore bits [7:6]. -/
def TileFmt.value (f : TileFmt) (code : Nat) : FVal :=
  match f with
  | .h16 => decodeFloat fmtH16 code
  | .w16 => decodeFloat fmtW16 code
  | .e5 => decodeFloat fmtE5 code
  | .e4 => decodeFloat fmtE4 code
  | .e3 => decodeFloat fmtE3 (code % 64)
  | .e2 => decodeFloat fmtE2 code
  | .i8 => ofInt (sext 8 code)
  | .i4 => ofInt (sext 4 code)

/-- The floating-point format of a lane format; I16 has none. -/
def LaneFmt.float : LaneFmt → Option FloatFmt
  | .h16 => some fmtH16
  | .w16 => some fmtW16
  | .i16 => none

/-- The code of a lane format in w3 of the hash (05 R135): FMT code, and 8 for I16. -/
def LaneFmt.code : LaneFmt → Nat
  | .h16 => 0
  | .w16 => 1
  | .i16 => 8

/-- The value of a lane. -/
def LaneFmt.value (f : LaneFmt) (x : Lane) : FVal :=
  match f with
  | .h16 => decodeFloat fmtH16 x.toNat
  | .w16 => decodeFloat fmtW16 x.toNat
  | .i16 => ofInt x.toInt

end Sys2Proof

namespace Sys2Proof.Machine

/-- The order of IEEE 754-2019 minimum and maximum on encodings without NaN: -0 below +0 (03 R82). -/
def totalKey (x : Lane) : Int :=
  if x.msb then -1 - ((x.toNat % 32768 : Nat) : Int) else (x.toNat : Int)

/-- The order of comparison on encodings without NaN: the zeros are equal (03 R82). -/
def cmpKey (x : Lane) : Int :=
  if x.msb then -((x.toNat % 32768 : Nat) : Int) else (x.toNat : Int)

/-- One round of MIX4 (05 R134). -/
def mixRound (k0 k1 : Word) (r : Nat) (st : Word × Word × Word × Word) : Word × Word × Word × Word :=
  let (a, b, c, d) := st
  let a := a + b
  let d := (d ^^^ a).rotateLeft 16
  let c := c + d
  let b := (b ^^^ c).rotateLeft 12
  let a := a + b
  let d := (d ^^^ a).rotateLeft 8
  let c := c + d
  let b := (b ^^^ c).rotateLeft 7
  let a := a + (if r % 2 = 0 then k0 else k1) + BitVec.ofNat 32 r
  (b, c, d, a)

/-- MIX4, the four-round add-rotate-xor hash (05 R134). -/
def mix4 (k : BitVec 64) (w0 w1 w2 w3 : Word) : Word × Word × Word × Word :=
  let k0 : Word := k.extractLsb' 0 32
  let k1 : Word := k.extractLsb' 32 32
  let s0 := (w0 + k0, w1 + k1, w2 ^^^ 0x6A5C3B19#32, w3 ^^^ 0x1D8F72E4#32)
  let s4 := mixRound k0 k1 3 (mixRound k0 k1 2 (mixRound k0 k1 1 (mixRound k0 k1 0 s0)))
  (s4.1 + w0, s4.2.1 + w1, s4.2.2.1 + w2, s4.2.2.2 + w3)

/-- The 128-bit value of a MIX4 result: y0 in bits [31:0] (05 R134). -/
def mix4Wide (y : Word × Word × Word × Word) : BitVec 128 :=
  BitVec.ofNat 128 (y.1.toNat + 2 ^ 32 * y.2.1.toNat + 2 ^ 64 * y.2.2.1.toNat + 2 ^ 96 * y.2.2.2.toNat)

/-- The draw U of a stochastic rounding: bits [15:0] of y0 (05 R133, R135). -/
def srDraw (seed : BitVec 64) (tile : Word) (elem : Nat) (stp : Word) (code : Nat) : Nat :=
  (mix4 seed tile (BitVec.ofNat 32 elem) stp (BitVec.ofNat 32 code)).1.toNat % 65536

end Sys2Proof.Machine
end

