-- ==== Sys2Proof/Machine/Tile.lean ====
section
/-! DEFINITION. The tile: its header, its dense and compressed payloads, its CRC, the choice of block scales, and the
forming, expansion and decoding of payloads (chapters 05 and 08). -/

namespace Sys2Proof.Machine

/-- One byte of the reflected CRC-32C, bit by bit (05 R143). -/
def crcBits : Nat → Word → Word
  | 0, c => c
  | k + 1, c => crcBits k (if c.getLsbD 0 then (c >>> 1) ^^^ 0x82F63B78#32 else c >>> 1)

/-- The running CRC-32C with more bytes taken in, before the final XOR (05 R143). -/
def crcGo : Word → List Byte → Word
  | c, [] => c
  | c, b :: bs => crcGo (crcBits 8 (c ^^^ b.setWidth 32)) bs

/-- The CRC-32C of a byte string (05 R143). -/
def crc32c (bs : List Byte) : Word := crcGo 0xFFFFFFFF#32 bs ^^^ 0xFFFFFFFF#32

/-- FMT of a header (05 Table 5-7). -/
def hFmt (h : Row) : Nat := fld h 0 4
/-- BS of a header. -/
def hBs (h : Row) : Nat := fld h 4 2
/-- RND of a header. -/
def hRnd (h : Row) : Nat := fld h 6 2
/-- C of a header. -/
def hC (h : Row) : Bool := h.getLsbD 8
/-- D of a header. -/
def hD (h : Row) : Bool := h.getLsbD 9
/-- P of a header. -/
def hP (h : Row) : Bool := h.getLsbD 10
/-- EPOCH of a header. -/
def hEpoch (h : Row) : Bool := h.getLsbD 11
/-- Payload units of a header, PUM1 + 1. -/
def hUnits (h : Row) : Nat := fld h 16 7 + 1
/-- ROWS of a header. -/
def hRows (h : Row) : Nat := fld h 32 13 + 1
/-- COLS of a header. -/
def hCols (h : Row) : Nat := fld h 48 13 + 1
/-- NNZ of a header. -/
def hNnz (h : Row) : Nat := fld h 64 14
/-- TILE_ID of a header. -/
def hTileId (h : Row) : Word := h.extractLsb' 96 32
/-- SRC_ID of a header. -/
def hSrcId (h : Row) : Nat := fld h 128 20
/-- SRC_KIND of a header. -/
def hSrcKind (h : Row) : Nat := fld h 148 4
/-- SSTEP of a header. -/
def hSstep (h : Row) : Word := h.extractLsb' 160 32
/-- CRC of a header. -/
def hCrc (h : Row) : Word := h.extractLsb' 224 32
/-- The tile format a header names. -/
def hTile (h : Row) : Option TileFmt := TileFmt.ofCode (hFmt h)
/-- Element count n = ROWS x COLS (05 R140). -/
def hN (h : Row) : Nat := hRows h * hCols h

/-- The block size coded in a two-bit field (05 Table 5-7; 04 Table 4-3). -/
def blockSize (c : Nat) : Nat := 16 * 2 ^ c

/-- Value bytes VB of n elements (05 R140). -/
def valueBytes (f : TileFmt) (n : Nat) : Nat := ceilDiv (n * f.width) 8

/-- Offset of the scales in a dense payload (05 R140). -/
def scaleOff (f : TileFmt) (n : Nat) : Nat := 32 * ceilDiv (valueBytes f n) 32

/-- Scale codes NB of n elements in blocks of bs; none for the 16-bit formats (05 R140). -/
def scaleCount (f : TileFmt) (n bs : Nat) : Nat := if f.short then n / bs else 0

/-- Dense payload units DU (05 R140). -/
def denseUnits (f : TileFmt) (n bs : Nat) : Nat :=
  if f.short then ceilDiv (scaleOff f n + scaleCount f n bs) 32 else ceilDiv (valueBytes f n) 32

/-- DU of a header's tile. -/
def hDense (h : Row) : Nat :=
  match hTile h with
  | some f => denseUnits f (hN h) (blockSize (hBs h))
  | none => 0

/-- Bitmap units BU (08 R192). -/
def bitmapUnits (n : Nat) : Nat := ceilDiv n 256

/-- Value units VU of v stored values (08 R192). -/
def valueUnits (f : TileFmt) (v : Nat) : Nat := ceilDiv (v * f.width) 256

/-- Scale units SU (08 R192). -/
def scaleUnits (f : TileFmt) (n bs : Nat) : Nat := ceilDiv (scaleCount f n bs) 32

/-- Compressed length CU of a bitmap-form tile (08 R192). -/
def compUnits (f : TileFmt) (n bs v : Nat) : Nat := 1 + bitmapUnits n + valueUnits f v + scaleUnits f n bs

/-- Conditions 2, 6 and 7 of R141, which a TOUT template must meet (04 R115; 05 R145). -/
def templateValid (h : Row) : Bool :=
  match hTile h with
  | none => false
  | some f =>
    decide (hRnd h ≤ 2) && (f.short || (decide (hBs h = 0) && decide (hRnd h = 0))) &&
    (!f.short || decide (hN h % blockSize (hBs h) = 0)) && decide (hDense h ≤ 128)

/-- Whether a header is valid (05 R141, conditions 1 to 9). -/
def headerValid (h : Row) : Bool :=
  decide (fld h 12 4 = 1) && templateValid h && !(hC h && hD h) &&
  decide (hSrcKind h ≤ 2) &&
  (decide (hSrcKind h = 0) || (decide (hSrcKind h = 1) && decide (fld h 134 14 = 0)) ||
    (decide (hSrcKind h = 2) && decide (hSrcId h = 0))) &&
  decide (fld h 23 9 = 0) && decide (fld h 45 3 = 0) && decide (fld h 61 3 = 0) && decide (fld h 78 18 = 0) &&
  decide (fld h 152 8 = 0) && decide (fld h 192 32 = 0) &&
  decide (hNnz h ≤ hN h) &&
  (if hC h then decide (hUnits h ≤ hDense h) else decide (hUnits h = hDense h))

/-- The CRC-32C of a tile: header bytes 0 to 27 with P taken as 0, then the payload (05 R143). -/
def tileCrc (h : Row) (payload : List Byte) : Word :=
  crc32c (bytesOf (setBit h 10 false) 28 ++ payload)

/-- Element codes packed as bytes (05 R126). -/
def packElems (f : TileFmt) : List Nat → List Byte
  | [] => []
  | [x] => if f.width = 16 then [BitVec.ofNat 8 x, BitVec.ofNat 8 (x / 256)] else [BitVec.ofNat 8 x]
  | x :: y :: t =>
    if f.width = 16 then [BitVec.ofNat 8 x, BitVec.ofNat 8 (x / 256)] ++ packElems f (y :: t)
    else if f.width = 4 then BitVec.ofNat 8 (x % 16 + 16 * (y % 16)) :: packElems f t
    else BitVec.ofNat 8 x :: packElems f (y :: t)

/-- Element code number e of packed bytes (05 R126). -/
def elemAt (f : TileFmt) (bs : List Byte) (e : Nat) : Nat :=
  if f.width = 16 then leAt bs (2 * e) 2
  else if f.width = 4 then (leAt bs (e / 2) 1 >>> (4 * (e % 2))) % 16
  else leAt bs e 1

/-- Whether an element with its block's scale code is zero (05 R130, R142). -/
def elemZero (f : TileFmt) (code scale : Nat) : Bool :=
  (!f.short || decide (scale ≠ 255)) &&
  (match f.value code with | .fin _ m _ => decide (m = 0) | _ => false)

/-- EMAXF of Table 5-5. -/
def emaxf : TileFmt → Int
  | .e5 => 15
  | .e4 => 8
  | .e3 => 4
  | .e2 => 2
  | .i8 => 6
  | _ => 2

/-- MAXF of Table 5-5. -/
def maxf : TileFmt → Nat
  | .e5 => 57344
  | .e4 => 448
  | .e3 => 28
  | .e2 => 6
  | .i8 => 127
  | _ => 7

/-- The largest magnitude code among the finite W16 values of a block (05 R137). -/
def amaxCode : List Nat → Nat
  | [] => 0
  | x :: t => let m := x % 32768; if m ≤ 0x7F7F then max m (amaxCode t) else amaxCode t

/-- CHOOSE_SCALE of R137 on a block of W16 encodings. -/
def chooseScale (f : TileFmt) (xs : List Nat) : Nat :=
  if f ≠ .e5 && xs.any (fun x => decide (0x7F7F < x % 32768)) then 255
  else
    match decodeFloat fmtW16 (amaxCode xs) with
    | .fin _ m e =>
      if m = 0 then 127
      else
        let s0 : Int := e + (Nat.log2 m : Int) - emaxf f
        let big := if s0 ≤ e then decide (maxf f < m <<< (e - s0).toNat) else decide (maxf f <<< (s0 - e).toNat < m)
        let s := max (if big then s0 + 1 else s0) (-127)
        (s + 127).toNat
    | _ => 255

/-- The rounding mode of a header's RND, with the draw of the compressor for element e (05 R135). -/
def compMode (h : Row) (seed : BitVec 64) (e : Nat) : RMode :=
  if hRnd h = 0 then .rne
  else if hRnd h = 1 then .rtz
  else .sr (srDraw seed (hTileId h) e (hSstep h) (hFmt h))

/-- ENCODE of R137: a W16 encoding under the block's scale code. -/
def encodeElem (f : TileFmt) (rm : RMode) (x c : Nat) : Nat :=
  if c = 255 then 0
  else
    match decodeFloat fmtW16 x, f with
    | .nan, _ => fmtE5.nan
    | .inf neg, _ => signCode fmtE5 neg + 0x7C
    | .fin neg m e, .e5 => roundTo fmtE5 rm (.fin neg m (e - ((c : Int) - 127)))
    | .fin neg m e, .e4 => roundTo fmtE4 rm (.fin neg m (e - ((c : Int) - 127)))
    | .fin neg m e, .e3 => roundTo fmtE3 rm (.fin neg m (e - ((c : Int) - 127)))
    | .fin neg m e, .e2 => roundTo fmtE2 rm (.fin neg m (e - ((c : Int) - 127)))
    | .fin neg m e, g => (roundInt rm neg m (e - ((c : Int) - 127)) % (2 ^ g.width : Nat)).toNat

/-- A list cut into blocks of k; fuel bounds the blocks. -/
def chunks {α : Type} : Nat → Nat → List α → List (List α)
  | 0, _, _ => []
  | fuel + 1, k, xs => if xs.isEmpty then [] else xs.take k :: chunks fuel k (xs.drop k)

/-- The element codes of a tile from its source values: copied for H16 and W16, rounded for a short format (08 R190). -/
def encodeAll (f : TileFmt) (h : Row) (seed : BitVec 64) (scales : List Nat) (bs : Nat) (xs : List Nat) : List Nat :=
  if f.short then
    (List.range xs.length).map (fun e =>
      encodeElem f (compMode h seed e) ((xs.drop e).headD 0) ((scales.drop (e / bs)).headD 0))
  else xs

/-- A bit string as bytes, bit i in bit i mod 8 of byte i div 8 (08 R192); fuel bounds the bytes. -/
def packBits : Nat → List Bool → List Byte
  | 0, _ => []
  | k + 1, bs =>
    if bs.isEmpty then []
    else BitVec.ofNat 8 ((bs.take 8).foldr (fun b n => b.toNat + 2 * n) 0) :: packBits k (bs.drop 8)

/-- Bit i of a byte string (08 R192). -/
def bitOf (bs : List Byte) (i : Nat) : Bool := ((bs.drop (i / 8)).headD 0).getLsbD (i % 8)

/-- The set bits below n of a byte string, rising. -/
def setBits (bs : List Byte) (n : Nat) : List Nat := (List.range n).filter (bitOf bs)

/-- The form unit of a bitmap-form payload (08 Table 8-1). -/
def bitmapForm (n v : Nat) : List Byte :=
  padTo 32 (bytesOf (BitVec.ofNat 32 (1 + n <<< 16)) 4 ++ bytesOf (BitVec.ofNat 32 v) 4)

/-- Bytes zero-filled to a 32 B boundary. -/
def padRow (bs : List Byte) : List Byte := padTo (32 * ceilDiv bs.length 32) bs

/-- The tile that the compressor forms from a template and its source values (05 R137, R145; 08 R189, R190, R194): the
header entry, then the payload entries. ue says that a source read met an uncorrectable error (02 R46). -/
def formTile (tpl : Row) (xs : List Nat) (seed : BitVec 64) (epoch ue : Bool) (lid : BitVec 20) : List Row :=
  match hTile tpl with
  | none => []
  | some f =>
    let n := hN tpl
    let bs := blockSize (hBs tpl)
    let scales := if f.short then (chunks n bs xs).map (chooseScale f) else []
    let codes := encodeAll f tpl seed scales bs xs
    let bits := (List.range n).map (fun e => !elemZero f ((codes.drop e).headD 0) ((scales.drop (e / bs)).headD 0))
    let nnz := (bits.filter id).length
    let sc := padRow (scales.map (BitVec.ofNat 8))
    let comp := compUnits f n bs nnz < denseUnits f n bs
    let payload :=
      if comp then
        bitmapForm n nnz ++ padRow (packBits n bits) ++
          padRow (packElems f (((codes.zip bits).filter (fun p => p.2)).map Prod.fst)) ++ sc
      else padRow (packElems f codes) ++ sc
    let h0 := setFld (setFld (setFld (0 : Row) 0 4 (hFmt tpl)) 4 2 (hBs tpl)) 6 2 (hRnd tpl)
    let h1 := setFld (setBit (setBit (setBit (setBit h0 8 comp) 9 (!comp)) 10 ue) 11 epoch) 12 4 1
    let h2 := setFld h1 16 7 (payload.length / 32 - 1)
    let h3 := setFld (setFld h2 32 13 (hRows tpl - 1)) 48 13 (hCols tpl - 1)
    let h4 := setFld (setFld h3 64 14 nnz) 96 32 (hTileId tpl).toNat
    let h5 := setFld (setFld h4 128 20 lid.toNat) 160 32 (hSstep tpl).toNat
    let h6 := setFld h5 224 32 (tileCrc h5 payload).toNat
    h6 :: rowsOf 128 payload

/-- Whether a bitmap-form form unit is well formed for n elements: FORM 1, ELEMS = n, unused and reserved bits 0
(08 R191, R198). -/
def formUnitOk (u : Row) (n : Nat) : Bool :=
  decide (fld u 0 16 = 1) && decide (fld u 16 14 = n) && decide (fld u 30 2 = 0) &&
  decide (fld u 46 18 = 0) && decide (fld u 64 192 = 0)

/-- VCNT of a form unit (08 Table 8-1). -/
def formVcnt (u : Row) : Nat := fld u 32 14

/-- Whether a complete bitmap agrees with VCNT and sets no bit of index n or above (08 R196, R198). -/
def bitmapOk (bm : List Byte) (n v : Nat) : Bool :=
  let s := setBits bm (8 * bm.length)
  decide (s.length = v) && s.all (fun i => decide (i < n))

/-- Why a stream engine rejects an N:M payload (08 R205). -/
inductive NmError where
  | format
  | bounds
deriving DecidableEq, Repr

/-- An N:M payload decoded to dense element codes with its scales, checked in the order of R205; the payload is that of
a header with C = 1. -/
def nmDecode (h : Row) (payload : List Byte) : Except NmError (List Nat × List Byte) :=
  match hTile h with
  | none => .error .format
  | some f =>
    let n := hN h
    let bs := blockSize (hBs h)
    let u : Row := ofBytes 256 (payload.take 32)
    let nsel := fld u 8 5
    let mc := fld u 13 2
    let m := 4 * 2 ^ mc
    let g := ceilDiv n m
    let mu := ceilDiv (g * m) 256
    let vu := ceilDiv (g * nsel * f.width) 256
    let su := scaleUnits f n bs
    if !(decide (fld u 0 4 = 2) && decide (fld u 4 4 = 0) && decide (1 ≤ nsel) && decide (nsel < m) && decide (mc ≤ 2) &&
        decide (fld u 15 1 = 0) && decide (fld u 16 14 = n) && decide (fld u 30 2 = 0) && decide (formVcnt u = g * nsel) &&
        decide (fld u 46 18 = 0) && decide (fld u 64 192 = 0) && decide (1 + mu + vu + su = hUnits h)) then .error .format
    else
      let masks := (payload.drop 32).take (32 * mu)
      let vals := (payload.drop (32 * (1 + mu))).take (32 * vu)
      let scs := (payload.drop (32 * (1 + mu + vu))).take (scaleCount f n bs)
      let setOf := fun gi => (List.range m).filter (fun i => bitOf masks (gi * m + i))
      if (List.range g).any (fun gi => decide (nsel < (setOf gi).length)) then .error .format
      else if (List.range g).any (fun gi => (setOf gi).any (fun i => decide (n ≤ gi * m + i))) then .error .bounds
      else
        let codes := (List.range n).map (fun e =>
          let gi := e / m
          match firstIdx (fun i => decide (i = e % m)) (setOf gi) with
          | some k => let v := elemAt f vals (gi * nsel + k); if f = .e3 then v % 64 else v
          | none => 0)
        let nz := ((List.range n).filter (fun e =>
          !elemZero f ((codes.drop e).headD 0) (leAt scs (e / bs) 1))).length
        if nz ≠ hNnz h then .error .format else .ok (codes, scs)

/-- The dense tile that a stream engine emits for a decoded N:M tile (08 R205): C and D 0, PUM1 = DU - 1, a new CRC. -/
def nmEmit (h : Row) (f : TileFmt) (codes : List Nat) (scs : List Byte) : Row × List Byte :=
  let payload := padRow (packElems f codes) ++ padRow scs
  let h1 := setFld (setBit (setBit h 8 false) 9 false) 16 7 (hDense h - 1)
  (setFld h1 224 32 (tileCrc h1 payload).toNat, payload)

/-- The state of the gather of MMAS_OCCUPANCY: step, elements gathered in this step, and each bank's starts, newest
first (08 R201). -/
structure GatherState where
  t    : Nat
  used : Nat
  st   : List (List Nat)
deriving DecidableEq, Repr

/-- One element of the gather of MMAS_OCCUPANCY (08 R201). -/
def gatherElem (g : GatherState) (e : Nat) : GatherState :=
  let b := e % 16
  let ss := (g.st.drop b).headD []
  let (t, used) := if 4 ≤ ss.length && decide (g.t < (ss.drop 3).headD 0) then ((ss.drop 3).headD 0, 0) else (g.t, g.used)
  let (t, used) := if used = 8 then (t + 1, 0) else (t, used)
  let s := match ss with
    | [] => t + 1
    | p :: _ => max (t + 1) (p + 3)
  ⟨t, used + 1, setIdx b (s :: ss) g.st⟩

/-- The gather of MMAS_OCCUPANCY over the whole bitmap: the starts of every bank (08 R201). -/
def mmasGather (bits : List Nat) (n : Nat) : GatherState :=
  let go := fun (g : GatherState) (gi : Nat) =>
    (bits.filter (fun e => decide (e / 256 = gi))).foldl gatherElem ⟨g.t + 4, 0, g.st⟩
  (List.range (ceilDiv n 256)).foldl go ⟨0, 0, List.replicate 16 []⟩

/-- MMAS_OCCUPANCY: the steps MMAS occupies the engine, from the set bits of its bitmap (08 R201). -/
def mmasOccupancy (bits : List Nat) (n : Nat) : Nat :=
  let g := mmasGather bits n
  let last := g.st.foldl (fun m ss => match ss with | [] => m | s :: _ => max m (s + 3)) g.t
  last + 2

/-- What MMAS adds to ACT_MTX: in each step the MACs of the elements started in it, cols for an element, rounded up to whole
units of 128 (02 R49; 08 R201). -/
def mmasActivity (bits : List Nat) (n cols : Nat) : Nat :=
  let starts := (mmasGather bits n).st.flatten
  ((List.range (mmasOccupancy bits n)).map (fun t => ceilDiv (starts.count t * cols) 128)).sum

end Sys2Proof.Machine
end

