-- ==== Sys2Proof/Machine/Operands.lean ====
section
/-! DEFINITION. Operand forms: which scalar registers an instruction reads at dispatch, which registers, predicates and
blocks it reads and writes under the interlocks, the shape words of the matrix engine, and the latency and occupancy
tables (chapters 03 and 04). -/

namespace Sys2Proof.Machine

/-- The scalar registers that carry the stochastic rounding operands S[RS] and S[RS + 1] (03 R80). -/
def srRegs : Rounding → List Reg
  | .sr _ rs => [rs, rs + 1]
  | _ => []

/-- The shape pair of MMA and MMAS; rsv and rsv1 say that a reserved bit of its first or second word is set
(04 Table 4-3). -/
structure Shape where
  k     : Nat
  m     : Nat
  outF  : Nat
  xoff  : Nat
  acc   : Bool
  bx    : Nat
  bw    : Nat
  rsv   : Bool
  rsv1  : Bool
  wsa   : Nat
  xsoff : Nat
  wrow  : Nat
deriving DecidableEq, Repr

/-- The shape that S[B] and S[B + 1] give (04 Table 4-3). -/
def shapeOf (b b1 : Word) : Shape :=
  { k := fld b 0 12 + 1, m := 2 ^ fld b 12 2, outF := fld b 14 2, xoff := 32 * fld b 16 7, acc := b.getLsbD 23,
    bx := blockSize (fld b 24 2), bw := blockSize (fld b 26 2),
    rsv := decide (fld b 28 4 ≠ 0), rsv1 := b1.getLsbD 23 || b1.getLsbD 31,
    wsa := fld b1 0 16, xsoff := 32 * fld b1 16 7, wrow := 32 * (fld b1 24 7 + 1) }

/-- N, the columns per W row (04 Table 4-2). -/
def mmaCols (f : TileFmt) : Nat := 256 / f.width

/-- Result bytes per element: 4 for I32, 2 otherwise (04 R99). -/
def outWidth (sh : Shape) : Nat := if sh.outF = 2 then 4 else 2

/-- The 256 B blocks that a byte range touches. -/
def blocksOf (lo len : Nat) : List Nat :=
  if len = 0 then [] else (List.range ((lo + len - 1) / 256 - lo / 256 + 1)).map (· + lo / 256)

/-- The 32 B rows that a byte range touches. -/
def rowsIn (lo len : Nat) : List Nat :=
  if len = 0 then [] else (List.range ((lo + len - 1) / 32 - lo / 32 + 1)).map (· + lo / 32)

/-- The staging ranges that MMA reads: X and, for a short format, the X scales (04 R99). -/
def mmaStaging (f : TileFmt) (sh : Shape) : List (Nat × Nat) :=
  (sh.xoff, ceilDiv (sh.m * sh.k * f.width) 8) ::
    (if f.short then [(sh.xsoff, ceilDiv (sh.m * sh.k) sh.bx)] else [])

/-- The staging ranges that MMAS counts as read: the largest bitmap-form payload for n = M x K and the X scales (04 R95). -/
def mmasStaging (f : TileFmt) (sh : Shape) : List (Nat × Nat) :=
  let n := sh.m * sh.k
  (sh.xoff, 32 * (1 + bitmapUnits n + valueUnits f n)) ::
    (if f.short then [(sh.xsoff, ceilDiv n sh.bx)] else [])

/-- The accumulator blocks that results at block d of the given size touch (04 R99). -/
def destBlocks (d bytes : Nat) : List Nat := (blocksOf (256 * d) bytes).filter (· < 32)

/-- Word number i of the operands read at dispatch. -/
def scAt (sc : List Word) (i : Nat) : Word := (sc.drop i).headD 0

/-- N, M, format, offset and INIT of MMASK, MSMX and MSCL (04 R108). -/
structure AttnShape where
  n    : Nat
  m    : Nat
  fmt  : Nat
  xoff : Nat
  init : Bool
  rsv  : Bool
deriving DecidableEq, Repr

/-- The attention shape that S[B] gives; bits that R108 does not list are reserved (04 R108). -/
def attnShape (b : Word) : AttnShape :=
  { n := fld b 0 6 + 1, m := 2 ^ fld b 12 2, fmt := fld b 14 2, xoff := 32 * fld b 16 7, init := b.getLsbD 23,
    rsv := decide (fld b 6 6 ≠ 0) || decide (fld b 24 8 ≠ 0) }

/-- The scalar registers that a vector, matrix or DMA instruction reads at dispatch, in the order the meanings take them
(03 R61). -/
def dispatchRegs : Instr → List Reg
  | .vadd _ _ _ _ _ rm => srRegs rm
  | .vsub _ _ _ _ _ rm => srRegs rm
  | .vmul _ _ _ _ _ rm => srRegs rm
  | .vfma _ _ _ _ _ rm => srRegs rm
  | .vrsum _ _ _ _ rm => srRegs rm
  | .vcvt _ _ _ _ _ rm => srRegs rm
  | .vunpk _ _ _ b _ _ => [b]
  | .vld _ _ a _ => [a]
  | .vst _ _ a _ => [a]
  | .vbcs _ _ a => [a]
  | .vins _ _ a _ => [a]
  | .viota _ _ a => [a]
  | .mma _ _ a b _ rm => [a, b, b + 1] ++ srRegs rm
  | .mmas _ _ a b _ rm => [a, b, b + 1] ++ srRegs rm
  | .mstg _ a b => [a, b]
  | .mstgq _ _ b => [b]
  | .mbst _ _ a _ => [a]
  | .mbld _ _ a _ => [a]
  | .mmask _ _ a b _ => [a, a + 1, b, b + 1]
  | .msmx _ _ _ b => [b]
  | .mscl _ _ _ b => [b, b + 1]
  | .dmov _ _ a _ => [a]
  | _ => []

/-- What an instruction reads under the interlocks when it begins (03 R62; 04 R95). -/
def readsOf (i : Instr) (sc : List Word) : List Res :=
  match i with
  | .add _ _ a b => [.s a, .s b]
  | .sub _ _ a b => [.s a, .s b]
  | .and _ _ a b => [.s a, .s b]
  | .or _ _ a b => [.s a, .s b]
  | .xor _ _ a b => [.s a, .s b]
  | .shl _ _ a b => [.s a, .s b]
  | .shr _ _ a b => [.s a, .s b]
  | .sra _ _ a b => [.s a, .s b]
  | .mul _ _ a b => [.s a, .s b]
  | .mulhu _ _ a b => [.s a, .s b]
  | .mulhs _ _ a b => [.s a, .s b]
  | .min _ _ a b => [.s a, .s b]
  | .max _ _ a b => [.s a, .s b]
  | .minu _ _ a b => [.s a, .s b]
  | .maxu _ _ a b => [.s a, .s b]
  | .divu _ _ a b => [.s a, .s b]
  | .remu _ _ a b => [.s a, .s b]
  | .divs _ _ a b => [.s a, .s b]
  | .rems _ _ a b => [.s a, .s b]
  | .addi _ _ a _ => [.s a]
  | .andi _ _ a _ => [.s a]
  | .ori _ _ a _ => [.s a]
  | .xori _ _ a _ => [.s a]
  | .shli _ _ a _ => [.s a]
  | .shri _ _ a _ => [.s a]
  | .srai _ _ a _ => [.s a]
  | .cmp _ _ a b _ => [.s a, .s b]
  | .cmpi _ _ a _ _ => [.s a]
  | .plog _ _ a b _ => [.p a, .p b]
  | .ldw _ _ a _ => [.s a]
  | .ldh _ _ a _ => [.s a]
  | .ldhu _ _ a _ => [.s a]
  | .ldb _ _ a _ => [.s a]
  | .ldbu _ _ a _ => [.s a]
  | .stw _ d a _ => [.s a, .s d]
  | .sth _ d a _ => [.s a, .s d]
  | .stb _ d a _ => [.s a, .s d]
  | .jr _ a => [.s a]
  | .jrl _ _ a => [.s a]
  | .crw _ a _ => [.s a]
  | .suCnd _ _ p => [.p p]
  | .flagSet _ _ rem t => if rem then [.s t] else []
  | .flagClr _ _ rem t => if rem then [.s t] else []
  | .barArrive _ _ t => [.s t]
  | .chPut _ _ _ rem t => if rem then [.s t] else []
  | .chGet _ _ _ rem t => if rem then [.s t] else []
  | .vadd _ _ a b _ _ => [.v a, .v b]
  | .vsub _ _ a b _ _ => [.v a, .v b]
  | .vmul _ _ a b _ _ => [.v a, .v b]
  | .vfma _ d a b _ _ => [.v a, .v b, .v d]
  | .vmin _ _ a b _ => [.v a, .v b]
  | .vmax _ _ a b _ => [.v a, .v b]
  | .vcmp _ _ a b _ _ => [.v a, .v b]
  | .vsel _ d a b _ => [.v a, .v b, .v d]
  | .vand _ _ a b _ => [.v a, .v b]
  | .vor _ _ a b _ => [.v a, .v b]
  | .vxor _ _ a b _ => [.v a, .v b]
  | .vsh _ _ a b => [.v a, .v b]
  | .vabs _ _ a _ => [.v a]
  | .vneg _ _ a _ => [.v a]
  | .vexp2 _ _ a _ => [.v a]
  | .vexp _ _ a _ => [.v a]
  | .vlog2 _ _ a _ => [.v a]
  | .vrcp _ _ a _ => [.v a]
  | .vsqrt _ _ a _ => [.v a]
  | .vrsqrt _ _ a _ => [.v a]
  | .vtanh _ _ a _ => [.v a]
  | .vsigm _ _ a _ => [.v a]
  | .vrsum _ _ a _ _ => [.v a]
  | .vrmax _ _ a _ => [.v a]
  | .vrmin _ _ a _ => [.v a]
  | .vcvt _ _ a _ _ _ => [.v a]
  | .vunpk _ _ a _ _ _ => [.v a]
  | .vst _ d _ _ => [.v d]
  | .vldb _ _ k _ => [.blk (2 * (k : Nat)), .blk (2 * (k : Nat) + 1)]
  | .vstb _ d _ _ => [.v d]
  | .vqwr _ a _ _ _ => [.v a]
  | .vext _ _ a _ => [.v a]
  | .vins _ d _ _ => [.v d]
  | .vmov _ _ a => [.v a]
  | .mma _ d _ _ f _ =>
    let sh := shapeOf (scAt sc 1) (scAt sc 2)
    (mmaStaging f sh).flatMap (fun r => (blocksOf r.1 r.2).map Res.stg) ++
      (if sh.acc then (destBlocks d (sh.m * mmaCols f * outWidth sh)).map Res.blk else [])
  | .mmas _ d _ _ f _ =>
    let sh := shapeOf (scAt sc 1) (scAt sc 2)
    (mmasStaging f sh).flatMap (fun r => (blocksOf r.1 r.2).map Res.stg) ++
      (if sh.acc then (destBlocks d (sh.m * mmaCols f * outWidth sh)).map Res.blk else [])
  | .mbst _ d _ fn => (destBlocks d (256 * ((fn : Nat) + 1))).map Res.blk
  | .mmask _ d _ _ _ =>
    let sh := attnShape (scAt sc 2)
    (destBlocks d (2 * sh.m * sh.n)).map Res.blk
  | .msmx _ d a _ =>
    let sh := attnShape (scAt sc 0)
    .blk a :: (destBlocks d (2 * sh.m * sh.n)).map Res.blk
  | .mscl _ d a _ =>
    let sh := attnShape (scAt sc 0)
    .blk a :: (destBlocks d (2 * sh.m * sh.n * (fld (scAt sc 1) 0 4 + 1))).map Res.blk
  | _ => []

/-- What an instruction writes under the interlocks (03 R62; 04 R95). -/
def writesOf (i : Instr) (sc : List Word) : List Res :=
  match i with
  | .add _ d _ _ => [.s d]
  | .sub _ d _ _ => [.s d]
  | .and _ d _ _ => [.s d]
  | .or _ d _ _ => [.s d]
  | .xor _ d _ _ => [.s d]
  | .shl _ d _ _ => [.s d]
  | .shr _ d _ _ => [.s d]
  | .sra _ d _ _ => [.s d]
  | .mul _ d _ _ => [.s d]
  | .mulhu _ d _ _ => [.s d]
  | .mulhs _ d _ _ => [.s d]
  | .min _ d _ _ => [.s d]
  | .max _ d _ _ => [.s d]
  | .minu _ d _ _ => [.s d]
  | .maxu _ d _ _ => [.s d]
  | .divu _ d _ _ => [.s d]
  | .remu _ d _ _ => [.s d]
  | .divs _ d _ _ => [.s d]
  | .rems _ d _ _ => [.s d]
  | .addi _ d _ _ => [.s d]
  | .andi _ d _ _ => [.s d]
  | .ori _ d _ _ => [.s d]
  | .xori _ d _ _ => [.s d]
  | .shli _ d _ _ => [.s d]
  | .shri _ d _ _ => [.s d]
  | .srai _ d _ _ => [.s d]
  | .li _ d _ => [.s d]
  | .cmp _ p _ _ _ => [.p p]
  | .cmpi _ p _ _ _ => [.p p]
  | .plog _ p _ _ _ => [.p p]
  | .ldw _ d _ _ => [.s d]
  | .ldh _ d _ _ => [.s d]
  | .ldhu _ d _ _ => [.s d]
  | .ldb _ d _ _ => [.s d]
  | .ldbu _ d _ _ => [.s d]
  | .brl _ d _ => [.s d]
  | .jrl _ d _ => [.s d]
  | .qrd _ d _ _ _ => [.s d]
  | .crr _ d _ => [.s d]
  | .stepCommit _ => [.p 7]
  | .vadd _ d _ _ _ _ => [.v d]
  | .vsub _ d _ _ _ _ => [.v d]
  | .vmul _ d _ _ _ _ => [.v d]
  | .vfma _ d _ _ _ _ => [.v d]
  | .vmin _ d _ _ _ => [.v d]
  | .vmax _ d _ _ _ => [.v d]
  | .vcmp _ d _ _ _ _ => [.v d]
  | .vsel _ d _ _ _ => [.v d]
  | .vand _ d _ _ _ => [.v d]
  | .vor _ d _ _ _ => [.v d]
  | .vxor _ d _ _ _ => [.v d]
  | .vsh _ d _ _ => [.v d]
  | .vabs _ d _ _ => [.v d]
  | .vneg _ d _ _ => [.v d]
  | .vexp2 _ d _ _ => [.v d]
  | .vexp _ d _ _ => [.v d]
  | .vlog2 _ d _ _ => [.v d]
  | .vrcp _ d _ _ => [.v d]
  | .vsqrt _ d _ _ => [.v d]
  | .vrsqrt _ d _ _ => [.v d]
  | .vtanh _ d _ _ => [.v d]
  | .vsigm _ d _ _ => [.v d]
  | .vrsum _ d _ _ _ => [.v d]
  | .vrmax _ d _ _ => [.v d]
  | .vrmin _ d _ _ => [.v d]
  | .vcvt _ d _ _ _ _ => [.v d]
  | .vunpk _ d _ _ _ _ => [.v d]
  | .vld _ d _ _ => [.v d]
  | .vldb _ d _ _ => [.v d]
  | .vstb _ _ k _ => [.blk (2 * (k : Nat)), .blk (2 * (k : Nat) + 1)]
  | .vqrd _ d _ => [.v d]
  | .vbcs _ d _ => [.v d]
  | .vext _ d _ _ => [.s d]
  | .vins _ d _ _ => [.v d]
  | .vmov _ d _ => [.v d]
  | .viota _ d _ => [.v d]
  | .mma _ d _ _ f _ =>
    let sh := shapeOf (scAt sc 1) (scAt sc 2)
    (destBlocks d (sh.m * mmaCols f * outWidth sh)).map Res.blk
  | .mmas _ d _ _ f _ =>
    let sh := shapeOf (scAt sc 1) (scAt sc 2)
    (destBlocks d (sh.m * mmaCols f * outWidth sh)).map Res.blk
  | .mstg _ _ _ => (blocksOf (32 * fld (scAt sc 1) 0 7) (32 * (fld (scAt sc 1) 8 7 + 1))).map Res.stg
  | .mstgq _ _ _ => (blocksOf (32 * fld (scAt sc 0) 0 7) (32 * (fld (scAt sc 0) 8 4 + 1))).map Res.stg
  | .mzero _ d fn => (destBlocks d (256 * ((fn : Nat) + 1))).map Res.blk
  | .mbld _ d _ fn => (destBlocks d (256 * ((fn : Nat) + 1))).map Res.blk
  | .mmask _ d _ _ _ =>
    let sh := attnShape (scAt sc 2)
    (destBlocks d (2 * sh.m * sh.n)).map Res.blk
  | .msmx _ _ a _ =>
    let sh := attnShape (scAt sc 0)
    .blk a :: (blocksOf sh.xoff (2 * sh.m * sh.n)).map Res.stg
  | .mscl _ d _ _ =>
    let sh := attnShape (scAt sc 0)
    (destBlocks d (2 * sh.m * sh.n * (fld (scAt sc 1) 0 4 + 1))).map Res.blk
  | _ => []

/-- The staging rows that a matrix instruction holds in use until it completes (02 R35). -/
def stagingUse (i : Instr) (sc : List Word) : List Nat :=
  match i with
  | .mma _ _ _ _ f _ => (mmaStaging f (shapeOf (scAt sc 1) (scAt sc 2))).flatMap (fun r => rowsIn r.1 r.2)
  | .mmas _ _ _ _ f _ => (mmasStaging f (shapeOf (scAt sc 1) (scAt sc 2))).flatMap (fun r => rowsIn r.1 r.2)
  | .msmx _ _ _ _ =>
    let sh := attnShape (scAt sc 0)
    rowsIn sh.xoff (2 * sh.m * sh.n)
  | _ => []

/-- The engine an instruction is dispatched to (03 R55, R73). -/
def engineOf (i : Instr) (op : Nat) : Engine :=
  match i with
  | .rel _ e => e
  | .acq _ e => e
  | _ => engineOfCode (op / 32)
where
  /-- OP[6:5] as an engine. -/
  engineOfCode (c : Nat) : Engine :=
    match c with
    | 0 => .scalar
    | 1 => .vector
    | 2 => .matrix
    | _ => .dma

/-- The number of an engine in FAULT_STATUS.ENGINE (02 Table 2-5). -/
def engNum : Engine → Fin 4
  | .scalar => 0
  | .vector => 1
  | .matrix => 2
  | .dma => 3

/-- The ordering instructions of R212. -/
def isOrdering : Instr → Bool
  | .rel _ _ => true
  | .acq _ _ => true
  | .syncAll _ => true
  | .dwait _ _ => true
  | .flagWait _ _ => true
  | .flagWaitc _ _ => true
  | .chWait _ _ _ => true
  | .stepCommit _ => true
  | _ => false

/-- REL and SYNC.ALL, which a signal waits for (09 R214). -/
def isRelease : Instr → Bool
  | .rel _ _ => true
  | .syncAll _ => true
  | _ => false

end Sys2Proof.Machine
end

