-- ==== Sys2Proof/Machine/Aes.lean ====
section
/-! DEFINITION. The ciphers that the spec takes from published standards: AES-256 (FIPS 197), its XTS mode for perimeter memory
(IEEE 1619; 12 R291) and its GCM mode for packets (SP 800-38D; 13 R331). -/

namespace Sys2Proof.Machine

-- AES-256 --------------------------------------------------------------------------------------------------------

/-- A byte times x in the field of AES. -/
def xtime (b : Byte) : Byte := (b <<< 1) ^^^ (if b.getLsbD 7 then 0x1B else 0)

/-- The product of two bytes in the field of AES, over the low k bits of the second. -/
def gfMulBits : Nat → Byte → Byte → Byte
  | 0, _, _ => 0
  | k + 1, a, b => (if b.getLsbD 0 then a else 0) ^^^ gfMulBits k (xtime a) (b >>> 1)

/-- The product of two bytes in the field of AES. -/
def gfMul (a b : Byte) : Byte := gfMulBits 8 a b

/-- A byte to the power 2^(k+1) - 2 in the field of AES. -/
def gfPow : Nat → Byte → Byte
  | 0, _ => 1
  | k + 1, b => let s := gfMul b b; gfMul s (gfPow k s)

/-- The inverse of a byte in the field of AES, 0 of 0: its power 254. -/
def gfInv (b : Byte) : Byte := gfPow 7 b

/-- A byte rotated left. -/
def rotByte (b : Byte) (k : Nat) : Byte := (b <<< k) ||| (b >>> (8 - k))

/-- The S-box of AES. -/
def sBox (b : Byte) : Byte :=
  let i := gfInv b
  i ^^^ rotByte i 1 ^^^ rotByte i 2 ^^^ rotByte i 3 ^^^ rotByte i 4 ^^^ 0x63

/-- The inverse S-box of AES. -/
def invSBox (b : Byte) : Byte := gfInv (rotByte b 1 ^^^ rotByte b 3 ^^^ rotByte b 6 ^^^ 0x05)

/-- The XOR of two byte strings. -/
def xorBytes (a b : List Byte) : List Byte := List.zipWith (fun x y => x ^^^ y) a b

/-- The next word of the key schedule of AES-256, of which the words so far are given (FIPS 197, 5.2). -/
def keyStep (ws : List (List Byte)) (i : Nat) : List (List Byte) :=
  let p := ws.getD (i - 1) []
  let t := if i % 8 = 0 then xorBytes ((p.drop 1 ++ p.take 1).map sBox) [(List.range (i / 8 - 1)).foldl (fun r _ => xtime r) 1, 0, 0, 0]
    else if i % 8 = 4 then p.map sBox else p
  ws ++ [xorBytes (ws.getD (i - 8) []) t]

/-- The 15 round keys of a 32 B key. -/
def roundKeys (key : List Byte) : List (List Byte) :=
  let ws := (List.range 52).foldl (fun ws i => keyStep ws (i + 8)) ((List.range 8).map (fun i => (key.drop (4 * i)).take 4))
  (List.range 15).map (fun r => ((ws.drop (4 * r)).take 4).flatten)

/-- The rows of a state shifted left, row r by r places, or by 4 - r with k = 12 for the inverse. -/
def shiftRows (k : Nat) (st : List Byte) : List Byte := (List.range 16).map (fun i => st.getD ((i + k * (i % 4)) % 16) 0)

/-- The columns of a state multiplied by a circulant matrix with the first row given. -/
def mixColumns (m : List Byte) (st : List Byte) : List Byte :=
  (List.range 16).map (fun i => (List.range 4).foldl (fun x j => x ^^^ gfMul (st.getD (4 * (i / 4) + j) 0) (m.getD ((j + 4 - i % 4) % 4) 0)) 0)

/-- One block encrypted with AES-256. -/
def aesEnc (key blk : List Byte) : List Byte :=
  let ks := roundKeys key
  let go := fun (st : List Byte) (r : Nat) => xorBytes (mixColumns [2, 3, 1, 1] (shiftRows 4 (st.map sBox))) (ks.getD r [])
  let st := (List.range 13).foldl (fun st r => go st (r + 1)) (xorBytes blk (ks.getD 0 []))
  xorBytes (shiftRows 4 (st.map sBox)) (ks.getD 14 [])

/-- One block decrypted with AES-256. -/
def aesDec (key blk : List Byte) : List Byte :=
  let ks := roundKeys key
  let go := fun (st : List Byte) (r : Nat) => mixColumns [14, 11, 13, 9] (xorBytes ((shiftRows 12 st).map invSBox) (ks.getD r []))
  let st := (List.range 13).foldl (fun st r => go st (13 - r)) (xorBytes blk (ks.getD 14 []))
  xorBytes ((shiftRows 12 st).map invSBox) (ks.getD 0 [])

-- XTS ------------------------------------------------------------------------------------------------------------

/-- A tweak times the primitive element of XTS, as a little-endian number. -/
def xtsNext (t : BitVec 128) : BitVec 128 := (t <<< 1) ^^^ (if t.getLsbD 127 then 0x87 else 0)

/-- The mask of block j of a data unit: its encrypted tweak, multiplied j times (IEEE 1619; 12 R291). -/
def xtsMask (pair : BitVec 512) (tweak j : Nat) : List Byte :=
  let t : BitVec 128 := ofBytes 128 (aesEnc ((bytesOf pair 64).drop 32) (bytesOf (BitVec.ofNat 128 tweak) 16))
  bytesOf ((List.range j).foldl (fun t _ => xtsNext t) t) 16

/-- Block j of a data unit encrypted with AES-256-XTS: key pair, tweak, j, 16 bytes (12 R291). -/
def xtsEnc (pair : BitVec 512) (tweak j : Nat) (bs : List Byte) : List Byte :=
  let m := xtsMask pair tweak j
  xorBytes (aesEnc ((bytesOf pair 64).take 32) (xorBytes bs m)) m

/-- Block j of a data unit decrypted with AES-256-XTS (12 R291). -/
def xtsDec (pair : BitVec 512) (tweak j : Nat) (bs : List Byte) : List Byte :=
  let m := xtsMask pair tweak j
  xorBytes (aesDec ((bytesOf pair 64).take 32) (xorBytes bs m)) m

-- GCM ------------------------------------------------------------------------------------------------------------

/-- The number that bytes spell, highest first, as GCM reads them. -/
def beBytes (bs : List Byte) : BitVec 128 := ofBytes 128 bs.reverse

/-- One product of GHASH: the bits of x from the first on, k of them left, v the factor so far. -/
def ghashMul : Nat → BitVec 128 → BitVec 128 → BitVec 128
  | 0, _, _ => 0
  | k + 1, x, v => (if x.getLsbD k then v else 0) ^^^ ghashMul k x ((v >>> 1) ^^^ (if v.getLsbD 0 then 0xE1#128 <<< 120 else 0))

/-- GHASH of whole blocks; fuel bounds them. -/
def ghash (h : BitVec 128) : Nat → BitVec 128 → List Byte → BitVec 128
  | 0, y, _ => y
  | k + 1, y, bs => if bs.isEmpty then y else ghash h k (ghashMul 128 (y ^^^ beBytes (bs.take 16)) h) (bs.drop 16)

/-- A byte string zero-filled to whole blocks. -/
def padBlocks (bs : List Byte) : List Byte := padTo (16 * ceilDiv bs.length 16) bs

/-- The counter block i of a 96-bit IV. -/
def ctrBlock (iv : List Byte) (i : Nat) : List Byte := iv ++ (bytesOf (BitVec.ofNat 32 i) 4).reverse

/-- The tag of a ciphertext with its additional data. -/
def gcmTag (key iv aad c : List Byte) : List Byte :=
  let len := fun (bs : List Byte) => (bytesOf (BitVec.ofNat 64 (8 * bs.length)) 8).reverse
  let all := padBlocks aad ++ padBlocks c ++ len aad ++ len c
  xorBytes (bytesOf (ghash (beBytes (aesEnc key (List.replicate 16 0))) all.length 0 all) 16).reverse (aesEnc key (ctrBlock iv 1))

/-- A byte string with the keystream of GCM over it. -/
def gcmStream (key iv bs : List Byte) : List Byte :=
  xorBytes bs ((List.range (ceilDiv bs.length 16)).flatMap (fun i => aesEnc key (ctrBlock iv (i + 2))))

/-- The 32 B of an AES-256 key kept as a number, lowest byte first. -/
def keyBytes (k : Nat) : List Byte := bytesOf (BitVec.ofNat 256 k) 32
/-- The 12 B of a 96-bit IV kept as a number, in the order of 00 R6. -/
def ivBytes (n : Nat) : List Byte := bytesOf (BitVec.ofNat 96 n) 12

/-- AES-256-GCM sealing of a payload: key, IV, additional data, plaintext; ciphertext then 16 B of tag (13 R331). -/
def gcmSeal (k iv : Nat) (aad p : List Byte) : List Byte :=
  let c := gcmStream (keyBytes k) (ivBytes iv) p
  c ++ gcmTag (keyBytes k) (ivBytes iv) aad c

/-- AES-256-GCM opening: none where the tag fails (13 R331). -/
def gcmOpen (k iv : Nat) (aad b : List Byte) : Option (List Byte) :=
  let c := b.take (b.length - 16)
  if gcmTag (keyBytes k) (ivBytes iv) aad c = b.drop (b.length - 16) then some (gcmStream (keyBytes k) (ivBytes iv) c) else none

end Sys2Proof.Machine
end

