-- ==== Sys2Proof/Machine/Flags.lean ====
section
/-! DEFINITION. The one-bit results of a core: comparisons, predicates, and the fields of STEP_GUARD with the conditions
that set OVF_LOCAL (02 Table 2-5; 03 R68, R81; 06 R149 to R154). -/

namespace Sys2Proof.Machine

/-- A comparison of two scalar words (03 R68). -/
def condHolds (c : Cond) (a b : Word) : Bool :=
  match c with
  | .eq => a == b
  | .ne => a != b
  | .lt => a.slt b
  | .ge => !a.slt b
  | .ltu => a.ult b
  | .geu => !a.ult b

/-- A function of two predicates (03 R68). -/
def plogOf (op : PlogOp) (a b : Bool) : Bool :=
  match op with
  | .and => a && b
  | .or => a || b
  | .xor => a != b
  | .andn => a && !b

/-- A comparison of two lanes (03 R82): with a NaN only UN is true; I16 compares signed and is never unordered. -/
def vcondHolds (f : LaneFmt) (c : VCond) (a b : Lane) : Bool :=
  match f with
  | .i16 =>
    match c with
    | .eq => a == b
    | .lt => a.slt b
    | .le => a.sle b
    | .un => false
  | _ =>
    let nan := (f.value a).isNan || (f.value b).isNan
    match c with
    | .un => nan
    | .eq => !nan && decide (cmpKey a = cmpKey b)
    | .lt => !nan && decide (cmpKey a < cmpKey b)
    | .le => !nan && decide (cmpKey a ≤ cmpKey b)

/-- Predicate r of a predicate file: P0 reads 1 (02 R24). -/
def predGet (p : Byte) (r : Pred) : Bool := decide (r = 0) || p.getLsbD r

/-- A predicate file with predicate r written: a write to P0 is ignored (02 R24). -/
def predSet (p : Byte) (r : Pred) (b : Bool) : Byte := if r = 0 then p else setBit p r b

/-- The predicate of an instruction: P[PR] XOR PN equals 1 (03 R60). -/
def predHolds (p : Byte) (w1 : Word) : Bool := predGet p (Fin.ofNat 8 (fld w1 27 3)) != w1.getLsbD 30

/-- Whether a result sets OVF_LOCAL: an infinity from finite operands, or a NaN from operands none of which is a NaN
(03 R81). -/
def ovfOf (ops : List FVal) (res : FVal) : Bool :=
  match res with
  | .nan => ops.all (fun v => !v.isNan)
  | .inf _ => ops.all FVal.isFin
  | .fin _ _ _ => false

/-- OVF_LOCAL of STEP_GUARD (02 Table 2-5). -/
def gOvf (g : Word) : Bool := g.getLsbD 0
/-- OVF_JOB of STEP_GUARD. -/
def gJob (g : Word) : Bool := g.getLsbD 1
/-- GPAR of STEP_GUARD. -/
def gPar (g : Word) : Bool := g.getLsbD 2
/-- RDONE of STEP_GUARD. -/
def gRdone (g : Word) : Bool := g.getLsbD 3
/-- LS_EXP of STEP_GUARD. -/
def gLs (g : Word) : Byte := g.extractLsb' 8 8

/-- STEP_GUARD with OVF_LOCAL set where b holds. -/
def gOrOvf (g : Word) (b : Bool) : Word := if b then setBit g 0 true else g

/-- The settled part of a step's effect on OVF_LOCAL of a core. -/
def orOvf (b : Bool) (c : Core) : Core := { c with guard := gOrOvf c.guard b }

end Sys2Proof.Machine
end

