-- ==== Sys2Proof/Machine/Ops.lean ====
section
/-! DEFINITION. The named operations over a core: where it is, its queues, its SRAM with the error-correcting code and
the bank arbitration, its registers, taking a fault, and beginning an instruction. -/

namespace Sys2Proof.Machine

/-- What a command answers. -/
abbrev Out := Host.Outcome State Fault Refusal

/-- Core positions on the wafer (00 R2). -/
def numCores : Nat := 921600

/-- Global X of a core (00 R2). -/
def gX (g : Nat) : Nat := g % 960
/-- Global Y of a core. -/
def gY (g : Nat) : Nat := g / 960
/-- The pan of a core, py x 8 + px (00 R2). -/
def panOf (g : Nat) : Nat := (gY g / 80) * 8 + gX g / 120
/-- Local x of a core (00 R2). -/
def lx (g : Nat) : Nat := gX g % 120
/-- Local y of a core. -/
def ly (g : Nat) : Nat := gY g % 80
/-- The position of a core in its pan, y x 120 + x. -/
def localOf (g : Nat) : Nat := ly g * 120 + lx g
/-- The core at a position of a pan. -/
def coreAt (pan loc : Nat) : Nat := ((pan / 8) * 80 + loc / 120) * 960 + (pan % 8) * 120 + loc % 120
/-- The cluster of a core in its pan (00 R3). -/
def clusterOf (g : Nat) : Nat := (ly g / 8) * 15 + lx g / 8

/-- CORE_ID, hard-wired from the position (02 Table 2-5). -/
def coreIdWord (g : Nat) : Word :=
  BitVec.ofNat 32 (lx g + ly g <<< 7 + (gX g / 120) <<< 14 + (gY g / 80) <<< 17)
/-- CLUSTER_ID, hard-wired from the position (02 Table 2-5). -/
def clusterIdWord (g : Nat) : Word :=
  BitVec.ofNat 32 (clusterOf g + ((ly g % 8) * 8 + lx g % 8) <<< 8)

/-- A core of the module. -/
def getCore (s : State) (g : Nat) : Core := tget Core.zero s.cores g
/-- The module with a core replaced. -/
def setCore (s : State) (g : Nat) (c : Core) : State := { s with cores := tset Core.zero s.cores g c }
/-- A pan of the module. -/
def getPan (s : State) (k : Nat) : Pan := tget Pan.zero s.pans k
/-- A tide node of the module. -/
def getNode (s : State) (k : Nat) : Node := tget Node.zero s.nodes k
/-- The module with a tide node replaced. -/
def setNode (s : State) (k : Nat) (n : Node) : State := { s with nodes := tset Node.zero s.nodes k n }
/-- The module with a pan replaced. -/
def setPan (s : State) (k : Nat) (p : Pan) : State := { s with pans := tset Pan.zero s.pans k p }
/-- A partition of the module. -/
def getPart (s : State) (k : Nat) : Part := tget Part.zero s.parts k

/-- The logical ID of a core position: 10,240 times the pan's place in the numbering plus the rank of the position among
the good ones; none before numbering or for a defective position (00 R3; 15 R381). -/
def lidOf (s : State) (g : Nat) : Option Nat :=
  let p := getPan s (panOf g)
  match p.num with
  | none => none
  | some i =>
    let l := localOf g
    if p.defects.contains l then none else some (10240 * i + (l - (p.defects.filter (· < l)).length))

/-- The good position of rank j, from a position on; fuel bounds the walk. -/
def nthGood : Nat → List Nat → Nat → Nat → Option Nat
  | 0, _, _, _ => none
  | fuel + 1, bad, l, j =>
    if 9600 ≤ l then none
    else if bad.contains l then nthGood fuel bad (l + 1) j
    else if j = 0 then some l
    else nthGood fuel bad (l + 1) (j - 1)

/-- The core with a logical ID (15 R381). -/
def coreOfLid (s : State) (lid : Nat) : Option Nat :=
  match s.pans.find? (fun kp => kp.2.num = some (lid / 10240)) with
  | none => none
  | some (k, p) => (nthGood 9601 p.defects 0 (lid % 10240)).map (coreAt k)

/-- The core with a logical ID, if it is a core of the partition (03 R76). -/
def memberOf (s : State) (part : Option Nat) (lid : Nat) : Option Nat :=
  match coreOfLid s lid with
  | some g => if part.isSome && (getPan s (panOf g)).part = part then some g else none
  | none => none

/-- What a core's step sees of the module around it: its number, the module, and its own step: its node's, less those in which it
was frozen (02 R40). -/
structure Env where
  s   : State
  g   : Nat
  now : Nat

/-- The surroundings of core g. -/
def envOf (s : State) (g : Nat) : Env := ⟨s, g, (getNode s (panOf g)).steps - (getCore s g).x.lag⟩

/-- The tide count of the core's node (00 R4). -/
def Env.tc (e : Env) : Count := BitVec.ofNat 48 (getNode e.s (panOf e.g)).steps
/-- The partition the core's pan belongs to. -/
def Env.part (e : Env) : Option Nat := (getPan e.s (panOf e.g)).part
/-- Whether an authorised debugger is attached to the partition (20 R480). -/
def Env.attached (e : Env) : Bool :=
  match e.part with
  | some k => (getPart e.s k).dbg.isSome
  | none => false
/-- The partition's generation (11 R273). -/
def Env.pgen (e : Env) : Nat := match e.part with | some k => (getPart e.s k).pgen | none => 0
/-- Whether the step guard of the partition's job is enabled: GEN (06 Table 6-1). -/
def Env.guardOn (e : Env) : Bool :=
  match e.part with
  | some k => match (getPart e.s k).image with
    | some im => im.guard.getLsbD 27
    | none => false
  | none => false
/-- Whether the licence in force enables the 4-bit formats; the smallest variant does not (16 R410; 15 R374). -/
def licensed4 (s : State) : Bool := match s.sec.licence with | some l => l.fourBit | none => false

/-- The core's logical ID, 0 where none is assigned (02 Table 2-5). -/
def Env.lid (e : Env) : Nat := (lidOf e.s e.g).getD 0

/-- A command on one core: the core it names is replaced; a number past the wafer names no unit. -/
def onCore (g : Nat) (s : State) (f : Env → Core → Core) : Out :=
  if g < numCores then .next (setCore s g (f (envOf s g) (getCore s g))) else .fault .noSuchUnit

/-- Whether a core runs: in RUN, or in the step in which a fault was recorded, which ends before the engines stop
(02 R44, R45). -/
def live (e : Env) (c : Core) : Bool :=
  decide (c.r.st = .run) || (decide (c.r.st = .fault) && decide (c.x.faultAt = e.now + 1))

-- Queues ---------------------------------------------------------------------------------------------------------

/-- Index of the head entry (02 R52). -/
def Queue.head (q : Queue) : Nat := fld q.ptr 0 4
/-- Entries held (02 R52). -/
def Queue.count (q : Queue) : Nat := fld q.ptr 4 5
/-- TOPEN: a token is open in the queue (02 R52; 07 R166). -/
def Queue.topen (q : Queue) : Bool := q.ptr.getLsbD 9
/-- HDISC: the token at the head is being removed (02 R52; 07 R183). -/
def Queue.hdisc (q : Queue) : Bool := q.ptr.getLsbD 10
/-- Free entries. -/
def Queue.room (q : Queue) : Nat := 16 - q.count
/-- The entry i places behind the head. -/
def Queue.ent (q : Queue) (i : Nat) : QEntry := q.ents[Fin.ofNat 16 (q.head + i)]
/-- The held entries, head first. -/
def Queue.held (q : Queue) : List QEntry := (List.range q.count).map q.ent
/-- The queue with the head entry removed; its bytes stay in the physical entry (02 R52). -/
def Queue.pop (q : Queue) : Queue :=
  { q with ptr := setFld (setFld q.ptr 0 4 ((q.head + 1) % 16)) 4 5 (q.count - 1) }
/-- The queue with an entry added at the tail. -/
def Queue.push (q : Queue) (en : QEntry) : Queue :=
  { ents := q.ents.set (Fin.ofNat 16 (q.head + q.count)) en, ptr := setFld q.ptr 4 5 (q.count + 1) }
/-- The queue with the head entry replaced. -/
def Queue.setHead (q : Queue) (en : QEntry) : Queue := { q with ents := q.ents.set (Fin.ofNat 16 q.head) en }
/-- The queue with TOPEN written. -/
def Queue.setTopen (q : Queue) (b : Bool) : Queue := { q with ptr := setBit q.ptr 9 b }
/-- The queue with HDISC written. -/
def Queue.setHdisc (q : Queue) (b : Bool) : Queue := { q with ptr := setBit q.ptr 10 b }

/-- TAG of a sideband byte (02 R52). -/
def sbTag (b : Byte) : Nat := fld b 0 3
/-- EP of a sideband byte. -/
def sbEp (b : Byte) : Bool := b.getLsbD 3
/-- FIRST of a sideband byte. -/
def sbFirst (b : Byte) : Bool := b.getLsbD 4
/-- LAST of a sideband byte. -/
def sbLast (b : Byte) : Bool := b.getLsbD 5
/-- LOOSE of a sideband byte. -/
def sbLoose (b : Byte) : Bool := b.getLsbD 6
/-- STEERED of a sideband byte. -/
def sbSteered (b : Byte) : Bool := b.getLsbD 7
/-- A sideband byte. -/
def mkSb (tag : Nat) (ep first last : Bool) : Byte :=
  setBit (setBit (setBit (setFld (0 : Byte) 0 3 tag) 3 ep) 4 first) 5 last
/-- Whether an entry begins a token: FIRST or LOOSE (07 R164). -/
def beginsToken (en : QEntry) : Bool := sbFirst en.sb || sbLoose en.sb
/-- Whether an entry ends its token: LAST, or loose (07 R164). -/
def endsToken (en : QEntry) : Bool := sbLast en.sb || sbLoose en.sb

/-- ACT_FLIT advanced by n (02 R49). -/
def actFlit (n : Nat) (c : Core) : Core := { c with r := { c.r with actFlit := c.r.actFlit + BitVec.ofNat 32 n } }

/-- An entry removed from input queue q in step now: counted, and marked for the stall watchdog when the queue held 16 at
the start of the step (02 R28, R49; 07 R181). -/
def iqPop (now : Nat) (q : Fin 8) (c : Core) : Core :=
  let full := decide (c.x.start.iq[q].count = 16)
  actFlit 1 { c with
    iq := c.iq.set q c.iq[q].pop
    x := { c.x with
      iqTook := c.x.iqTook.set q (max c.x.iqTook[q] now + 1)
      start := { c.x.start with drained := c.x.start.drained || full } } }

/-- Whether input queue q may yield an entry in step now: at most one a step (02 R28). -/
def iqFree (now : Nat) (q : Fin 8) (c : Core) : Bool := decide (c.x.iqTook[q] ≤ now)

/-- An entry written to output queue q in step now (02 R37, R49; 08 R188). -/
def oqPush (now : Nat) (q : Fin 4) (en : QEntry) (c : Core) : Core :=
  actFlit 1 { c with
    oq := c.oq.set q (c.oq[q].push en)
    x := { c.x with oqPut := c.x.oqPut.set q (max c.x.oqPut[q] now + 1) } }

/-- Whether output queue q may take an entry in step now: at most one a step (08 R189). -/
def oqFree (now : Nat) (q : Fin 4) (c : Core) : Bool := decide (c.x.oqPut[q] ≤ now)

-- Faults ---------------------------------------------------------------------------------------------------------

/-- FAULT_INFO (03 R91). -/
def faultInfo (long : Bool) (op sub detail : Nat) : Word :=
  BitVec.ofNat 32 (detail % 65536 + (sub % 256) <<< 16 + (op % 128) <<< 24 + long.toNat <<< 31)

/-- FAULT_STATUS with VALID set (02 Table 2-5). -/
def faultStat (code : Nat) (eng : Engine) (more : Bool) : Word :=
  BitVec.ofNat 32 (code % 256 + (engNum eng : Nat) <<< 8 + more.toNat <<< 10 + 1 <<< 31)

/-- The status codes (00 Table 0-2). -/
def stOK : Nat := 0
/-- STATE. -/
def stState : Nat := 1
/-- FIT. -/
def stFit : Nat := 2
/-- AUTH. -/
def stAuth : Nat := 3
/-- FORMAT. -/
def stFormat : Nat := 4
/-- BOUNDS. -/
def stBounds : Nat := 5
/-- POISON. -/
def stPoison : Nat := 6
/-- PAN_DARK. -/
def stPanDark : Nat := 7
/-- TIMEOUT. -/
def stTimeout : Nat := 8
/-- LICENCE. -/
def stLicence : Nat := 9
/-- BUSY. -/
def stBusy : Nat := 10
/-- STALL. -/
def stStall : Nat := 11
/-- DIGEST. -/
def stDigest : Nat := 12
/-- PATH_LOST. -/
def stPathLost : Nat := 13
/-- SYNC_FAULT. -/
def stSync : Nat := 14

/-- Whether a SUB is one of the dataflow causes that are recorded first (07 R187, Table 7-5). -/
def dataflowSub (sub : Nat) : Bool := (decide (0x18 ≤ sub) && decide (sub ≤ 0x1D) && decide (sub ≠ 0x1B)) || decide (sub = 0x21)

/-- The place of a fault among those of one step: a dataflow fault comes first, then the engines in the order scalar, vector,
matrix, DMA; sub-places keep the order within an engine (02 R45; 04 R123; 07 R187). -/
def faultRank (eng : Engine) (sub place : Nat) : Nat := if dataflowSub sub then 0 else 1 + 16 * (engNum eng : Nat) + place

/-- Takes back the firing of this step: ACTIVE stays clear, FIRES does not advance, CAND is kept, and CORE_STATE.FOLD,
EPOCH and the program counter are unchanged (07 R174). -/
def undoFire (c : Core) : Core :=
  match c.x.prefire with
  | none => c
  | some f =>
    { c with
      folds := Vector.ofFn (fun k : Fin 8 =>
        let w := setBit c.folds[k] 384 (f.cand.getLsbD k)
        if k = f.slot then setFld (setBit w 385 false) 416 32 (fld w 416 32 + (2 ^ 32 - 1)) else w)
      pc := f.pc
      r := { c.r with fold := f.fold, epoch := f.epoch }
      x := { c.x with prefire := none, start := { c.x.start with fired := false } } }

-- SRAM -----------------------------------------------------------------------------------------------------------

/-- The bank of a row: SRAM address bits [8:5] (02 R30). -/
def bankOf (row : Nat) : Nat := row % 16

/-- The aligned 64-bit words that a byte range touches. -/
def wordsIn (a n : Nat) : List Nat :=
  if n = 0 then [] else (List.range ((a + n - 1) / 8 - a / 8 + 1)).map (· + a / 8)

/-- The lowest uncorrectable word of a byte range, as its byte address (02 R46). -/
def eccBad (c : Core) (a n : Nat) : Option Nat :=
  ((wordsIn a n).find? (fun w => tget 0 c.ecc w = 2)).map (8 * ·)

/-- SRAM_CE counts the corrected words of a read; it saturates (02 R46, Table 2-5). -/
def eccCount (a n : Nat) (c : Core) : Core :=
  let k := ((wordsIn a n).filter (fun w => tget 0 c.ecc w = 1)).length
  if k = 0 then c else { c with r := { c.r with sramCe := BitVec.ofNat 16 (min 0xFFFF (c.r.sramCe.toNat + k)) } }

/-- Writes SRAM bytes: a word all of whose 8 bytes are written gets fresh check bits (02 R46). -/
def sramPut (a : Nat) (bs : List Byte) (c : Core) : Core :=
  let full := (wordsIn a bs.length).filter (fun w => decide (a ≤ 8 * w) && decide (8 * w + 8 ≤ a + bs.length))
  { c with sram := mwrite c.sram a bs, ecc := full.foldl (fun t w => tset 0 t w 0) c.ecc }

/-- Whether a data access stays within 0x4000 to 0xFFFF (02 R29). -/
def inData (a n : Nat) : Bool := decide (0x4000 ≤ a) && decide (a + n ≤ 0x10000)

-- Registers ------------------------------------------------------------------------------------------------------

/-- Writes a scalar register. -/
def putS (d : Reg) (v : Word) (c : Core) : Core := { c with s := c.s.set d v }
/-- Writes a predicate; a write to P0 is ignored (02 R24). -/
def putP (r : Pred) (b : Bool) (c : Core) : Core := { c with p := predSet c.p r b }
/-- Writes a vector register. -/
def putV (d : Reg) (v : Vector Lane 32) (c : Core) : Core := { c with v := c.v.set d v }

-- Faults ---------------------------------------------------------------------------------------------------------

/-- The undo record of a write (02 R44). -/
def undoOf (c : Core) : Res → Undo
  | .s r => .s r c.s[r]
  | .p r => .p r (predGet c.p r)
  | .v r => .v r c.v[r]
  | .blk b => .blk b (mread c.banks (256 * b) 256)
  | .stg b => .stg b (mread c.stg (256 * b) 256)

/-- Puts back what an abandoned instruction had not yet written (02 R44). -/
def undoAll : List Undo → Core → Core
  | [], c => c
  | .s r o :: t, c => undoAll t (putS r o c)
  | .p r o :: t, c => undoAll t (putP r o c)
  | .v r o :: t, c => undoAll t (putV r o c)
  | .blk b o :: t, c => undoAll t { c with banks := mwrite c.banks (256 * b) o }
  | .stg b o :: t, c => undoAll t { c with stg := mwrite c.stg (256 * b) o }

/-- The engines stop: what is in progress and due after step t is abandoned, staged copies are dropped (02 R44; 09 R217). -/
def abandon (t : Nat) (c : Core) : Core :=
  let late := c.x.begun.filter (fun b => decide (t < b.due))
  let c' := undoAll (late.flatMap Begun.undo) c
  { c' with x := { c'.x with
      iss := Vector.replicate 4 []
      begun := []
      runs := []
      fw1 := none
      wRow := none
      dRow := none
      chosen := none
      phase3 := none
      gres := none
      served := []
      accUsed := []
      refused := []
      copied := Vector.replicate 4 none
      stgLeft := Vector.replicate 4 []
      faultAt := 0 } }

/-- The end of the step in which a running core recorded a fault (02 R44). -/
def settleFault (now : Nat) (c : Core) : Core :=
  if c.r.st = .fault && decide (c.x.faultAt = now + 1) then abandon (now + 1) c else c

/-- Fills the fault record and enters FAULT; rank is the fault's place among those of its step. A core that was frozen in HOLD
has no step in progress: what it had begun is abandoned at once (02 R42, R44). -/
def enterFault (e : Env) (rank : Nat) (eng : Engine) (code sub detail op : Nat) (long : Bool) (pc : Nat) (more : Bool)
    (c0 : Core) : Core :=
  let msg : Msg := ⟨e.part.getD 0, e.pgen, false, none, e.g, e.now, .fault e.g (BitVec.ofNat 8 code) (BitVec.ofNat 8 sub)⟩
  let others := if more then c0.x.urgent.filter (fun m => match m.body with | .fault _ _ _ => false | _ => true) else c0.x.urgent
  let running := decide (c0.r.st = .run)
  let c1 := undoFire c0
  let c := if running || more then c1 else abandon e.now c1
  { c with
    r := { c.r with
      st := .fault
      fstat := faultStat code eng more
      fpc := BitVec.ofNat 32 (pc % 16384)
      finfo := faultInfo long op sub detail
      ftc := e.tc }
    x := { c.x with
      fetch := .stopped
      faultAt := if running then e.now + 1 else c.x.faultAt
      frank := rank
      urgent := msg :: others
      haltReq := false } }

/-- Takes a fault of a place among those of its step: the core fills its fault record, enters FAULT and sends a FAULT message;
no further instruction issues (02 R44). A second fault of the same step sets MORE, and its record replaces the first where it
comes first (02 R45). -/
def faultAs (rank : Nat) (e : Env) (eng : Engine) (code sub detail op : Nat) (long : Bool) (pc : Nat) (c : Core) : Core :=
  if c.r.st = .fault then
    if decide (c.x.faultAt = e.now + 1) && decide (rank < c.x.frank) then
      enterFault e rank eng code sub detail op long pc true c
    else { c with r := { c.r with fstat := setBit c.r.fstat 10 true } }
  else enterFault e rank eng code sub detail op long pc false c

/-- Takes a fault of an engine (02 R44, R45). -/
def coreFault (e : Env) (eng : Engine) (code sub detail op : Nat) (long : Bool) (pc : Nat) (c : Core) : Core :=
  faultAs (faultRank eng sub 0) e eng code sub detail op long pc c

/-- Takes a fault of the firing rule, a steering unit, the local port or the watchdog: engine 0, OP 0, and FAULT_PC the
program counter (07 R187). -/
def dataFault (e : Env) (code sub detail : Nat) (c : Core) : Core :=
  let c := undoFire c
  coreFault e .scalar code sub detail 0 false c.pc c

/-- Takes a fault of a dispatched instruction (02 R44; 03 R91). -/
def insFault (e : Env) (d : Disp) (code sub detail : Nat) (c : Core) : Core :=
  coreFault e (engineOf d.ins d.op) code sub detail d.op d.long d.pc c

-- Beginning an instruction ---------------------------------------------------------------------------------------

/-- The issue queue of an engine. -/
def issueOf (e : Engine) (c : Core) : List Disp := c.x.iss[engNum e]

/-- Every dispatched instruction that has not begun. -/
def waiting (c : Core) : List Disp := c.x.iss.toList.flatten

/-- What earlier instructions still write: those in the issue queues dispatched before seq, and those begun whose results
are not yet available (03 R62; 04 R95). -/
def pendingWrites (now seq : Nat) (c : Core) : List Res :=
  ((waiting c).filter (fun d => decide (d.seq < seq))).flatMap (fun d => writesOf d.ins d.sc) ++
  (c.x.begun.filter (fun b => decide (now < b.due) && decide (b.seq < seq))).flatMap Begun.wr

/-- Whether the interlocks let an instruction begin (03 R62; 04 R95). -/
def interlocked (now : Nat) (d : Disp) (c : Core) : Bool :=
  let pw := pendingWrites now d.seq c
  (readsOf d.ins d.sc ++ writesOf d.ins d.sc).all (fun r => !pw.contains r)

/-- Whether every instruction of a kind dispatched before seq has completed. -/
def allDone (now seq : Nat) (kind : Instr → Bool) (c : Core) : Bool :=
  (waiting c).all (fun d => !decide (d.seq < seq) || !kind d.ins) &&
  c.x.begun.all (fun b => !decide (b.seq < seq) || !kind b.ins || decide (b.due ≤ now))

/-- Whether a SYNC.ALL dispatched before seq has not completed: it acts as a REL and an ACQ for all four engines (09 R213). -/
def syncAhead (now seq : Nat) (c : Core) : Bool :=
  let isSync := fun (i : Instr) => match i with | .syncAll _ => true | _ => false
  (waiting c).any (fun d => decide (d.seq < seq) && isSync d.ins) ||
    c.x.begun.any (fun b => decide (b.seq < seq) && isSync b.ins && decide (now < b.due))

/-- The head of an engine's issue queue if R62 lets it begin: the core runs, the instruction was dispatched in an earlier step,
the engine is free, the interlocks are clear and no earlier SYNC.ALL is unfinished (03 R62; 09 R213). -/
def headFree (e : Env) (eng : Engine) (c : Core) : Option Disp :=
  match issueOf eng c with
  | d :: _ =>
    if live e c && decide (d.at_ < e.now) && decide (c.x.busy[engNum eng] ≤ e.now) &&
        interlocked e.now d c && !syncAhead e.now d.seq c then some d else none
  | [] => none

/-- Whether an instruction writes staging or accumulator blocks step by step as it goes: what it has written stays written when
it is abandoned (02 R44). -/
def writesAsGoes : Instr → Bool
  | .mstg _ _ _ => true
  | .mstgq _ _ _ => true
  | .mzero _ _ _ => true
  | .mbld _ _ _ _ => true
  | _ => false

/-- Takes a dispatched instruction into its engine: it leaves the issue queue, the engine is occupied for occ steps, and
what it writes is available from step now + lat (03 R62; 04 R96). -/
def beginIns (e : Env) (eng : Engine) (d : Disp) (occ lat : Nat) (c : Core) : Core :=
  let wr := writesOf d.ins d.sc
  { c with x := { c.x with
      iss := c.x.iss.set (engNum eng) ((issueOf eng c).drop 1)
      busy := c.x.busy.set (engNum eng) (e.now + occ)
      begun := ⟨d.ins, d.seq, eng, e.now, e.now + lat, wr, stagingUse d.ins d.sc,
          if writesAsGoes d.ins then [] else wr.map (undoOf c)⟩ ::
        c.x.begun.filter (fun b => decide (e.now < b.due)) } }

end Sys2Proof.Machine
end

