-- ==== Sys2Proof/Machine/Token.lean ====
section
/-! DEFINITION. Fold slots, steering units and the heads of the input queues: their fields, who owns a queue, when a head
is stale or settled, and the rewriting of a steered token's entries (07 R164 to R179; 04 R116). -/

namespace Sys2Proof.Machine

/-- ENTRY of a fold slot (07 Table 7-1). -/
def fEntry (w : BitVec 512) : Nat := fld w 0 14
/-- VALID of a fold slot. -/
def fValid (w : BitVec 512) : Bool := w.getLsbD 14
/-- EPOCH of a fold slot. -/
def fEpoch (w : BitVec 512) : Bool := w.getLsbD 15
/-- TAG of a fold slot. -/
def fTag (w : BitVec 512) : Nat := fld w 16 3
/-- START of a fold slot. -/
def fStart (w : BitVec 512) : Bool := w.getLsbD 19
/-- DISC of a fold slot. -/
def fDisc (w : BitVec 512) : Bool := w.getLsbD 20
/-- Bit k of NEXTMASK. -/
def fNext (w : BitVec 512) (k : Nat) : Bool := w.getLsbD (24 + k)
/-- Bit k of IMASK. -/
def fBinds (w : BitVec 512) (k : Nat) : Bool := w.getLsbD (32 + k)
/-- Bit k of OMASK. -/
def fOut (w : BitVec 512) (k : Nat) : Bool := w.getLsbD (40 + k)
/-- Bit k of SUOWN. -/
def fOwns (w : BitVec 512) (k : Nat) : Bool := w.getLsbD (44 + k)
/-- Entries of queue k that the fold needs to fire. -/
def fNeed (w : BitVec 512) (k : Nat) : Nat := fld w (64 + 4 * k) 4 + 1
/-- Free entries of queue k that the fold needs to fire. -/
def fRoom (w : BitVec 512) (k : Nat) : Nat := fld w (96 + 4 * k) 4 + 1
/-- The tag stamped on output queue k. -/
def fOtag (w : BitVec 512) (k : Nat) : Nat := fld w (112 + 3 * k) 3
/-- CAND of a fold slot. -/
def fCand (w : BitVec 512) : Bool := w.getLsbD 384
/-- ACTIVE of a fold slot. -/
def fActive (w : BitVec 512) : Bool := w.getLsbD 385
/-- FIRES of a fold slot. -/
def fFires (w : BitVec 512) : Nat := fld w 416 32
/-- DISCARDS of a fold slot. -/
def fDiscards (w : BitVec 512) : Nat := fld w 448 16

/-- The per-slot conditions of a valid fold slot (07 R168). -/
def foldOk (w : BitVec 512) : Bool :=
  decide (fld w 21 3 = 0) && decide (fld w 48 16 = 0) && decide (fld w 124 4 = 0) && decide (fld w 128 256 = 0) &&
  decide (fld w 386 30 = 0) && decide (fld w 464 48 = 0) && decide (fld w 0 2 = 0) &&
  (List.range 8).all (fun k => fBinds w k || decide (fld w (64 + 4 * k) 4 = 0)) &&
  (List.range 4).all (fun k => fOut w k || (decide (fld w (96 + 4 * k) 4 = 0) && decide (fOtag w k = 0)))

/-- MODE of a steering unit (07 Table 7-3). -/
def uMode (u : BitVec 256) : Nat := fld u 0 2
/-- SRC of a steering unit. -/
def uSrc (u : BitVec 256) : Nat := fld u 2 2
/-- Q of a steering unit. -/
def uQ (u : BitVec 256) : Nat := fld u 4 3
/-- ITAG of a steering unit. -/
def uItag (u : BitVec 256) : Nat := fld u 7 3
/-- The new tag for a condition. -/
def uTag (u : BitVec 256) (c : Bool) : Nat := if c then fld u 10 3 else fld u 13 3
/-- Whether the token is dropped for a condition. -/
def uDrop (u : BitVec 256) (c : Bool) : Bool := if c then u.getLsbD 16 else u.getLsbD 17
/-- LIMITM1 of a steering unit. -/
def uLimit (u : BitVec 256) : Nat := fld u 32 16
/-- THR of a steering unit. -/
def uThr (u : BitVec 256) : Nat := fld u 64 14
/-- COUNT of a steering unit. -/
def uCount (u : BitVec 256) : Nat := fld u 128 16
/-- CFCNT of a steering unit. -/
def uCfcnt (u : BitVec 256) : Nat := fld u 144 5
/-- OPEN of a steering unit. -/
def uOpen (u : BitVec 256) : Bool := u.getLsbD 149
/-- DEC of a steering unit. -/
def uDec (u : BitVec 256) : Bool := u.getLsbD 150
/-- CFIFO of a steering unit. -/
def uFifo (u : BitVec 256) : Nat := fld u 160 16

/-- Whether every reserved bit of a steering unit is 0 (07 Table 7-3). -/
def unitBits (u : BitVec 256) : Bool :=
  decide (fld u 18 14 = 0) && decide (fld u 48 16 = 0) &&
  decide (fld u 78 18 = 0) && decide (fld u 96 32 = 0) && decide (fld u 151 9 = 0) && decide (fld u 176 16 = 0) &&
  decide (fld u 224 32 = 0)

/-- Whether MODE and SRC are defined and every reserved bit is 0 (07 R176). -/
def unitOk (u : BitVec 256) : Bool := decide (uMode u < 2) && decide (uSrc u < 3) && unitBits u

/-- Whether some valid fold owns unit k; a unit that none owns is OFF (07 R175). -/
def unitOwned (c : Core) (k : Nat) : Bool := c.folds.toList.any (fun w => fValid w && fOwns w k)

/-- Whether unit k steers: owned, not OFF, and no lower unit of the same Q and ITAG steers (07 R175, R179). -/
def unitOn (c : Core) (k : Fin 4) : Bool :=
  decide (uMode c.su[k] ≠ 0) && unitOwned c k &&
  (List.finRange 4).all (fun j => decide (k ≤ j) || decide (uMode c.su[j] = 0) || !unitOwned c j ||
    decide (uQ c.su[j] ≠ uQ c.su[k]) || decide (uItag c.su[j] ≠ uItag c.su[k]))

/-- Whether a unit would decide on an entry at the head of queue q (07 R176). -/
def wouldDecide (c : Core) (k : Fin 4) (q : Nat) (en : QEntry) : Bool :=
  unitOn c k && decide (uQ c.su[k] = q) && beginsToken en && !sbSteered en.sb && decide (sbTag en.sb = uItag c.su[k]) &&
  !uOpen c.su[k]

/-- Whether a head's steering decision is still to come (07 R177). -/
def undecided (c : Core) (q : Nat) (en : QEntry) : Bool := (List.finRange 4).any (fun k => wouldDecide c k q en)

/-- The valid fold of the same TAG and another EPOCH that makes a head stale, if it is stale (07 R183). -/
def staleFold (c : Core) (q : Nat) (en : QEntry) : Option (Fin 8) :=
  let binds := fun (k : Fin 8) => fValid c.folds[k] && fBinds c.folds[k] q && decide (fTag c.folds[k] = sbTag en.sb)
  if !beginsToken en || undecided c q en then none
  else if (List.finRange 8).any (fun k => binds k && fEpoch c.folds[k] == sbEp en.sb) then none
  else (List.finRange 8).find? (fun k => binds k)

/-- KIND of a DMA slot image (04 Table 4-5); a slot is busy when it is not 0 (02 R52). -/
def dKind (w : BitVec 256) : Nat := fld w 0 4
/-- IQ of a DMA slot. -/
def dIq (w : BitVec 256) : Fin 8 := Fin.ofNat 8 (fld w 4 3)
/-- OQ of a DMA slot. -/
def dOq (w : BitVec 256) : Fin 4 := Fin.ofNat 4 (fld w 7 2)
/-- CHE of a DMA slot. -/
def dChe (w : BitVec 256) : Bool := w.getLsbD 9
/-- CH of a DMA slot. -/
def dCh (w : BitVec 256) : Fin 16 := Fin.ofNat 16 (fld w 10 4)
/-- AMT1 + 1 of a DMA slot. -/
def dAmt (w : BitVec 256) : Nat := fld w 14 3 + 1
/-- FLE of a DMA slot. -/
def dFle (w : BitVec 256) : Bool := w.getLsbD 17
/-- FLAGNO of a DMA slot. -/
def dFlag (w : BitVec 256) : Nat := fld w 18 6
/-- FL of a DMA slot. -/
def dFl (w : BitVec 256) : Bool := w.getLsbD 24
/-- SRC of a DMA slot. -/
def dSrc (w : BitVec 256) : Nat := fld w 32 16
/-- DST of a DMA slot. -/
def dDst (w : BitVec 256) : Nat := fld w 64 16
/-- LENM1 + 1 of a DMA slot. -/
def dLen (w : BitVec 256) : Nat := fld w 96 16 + 1
/-- NTM1 + 1 of a DMA slot. -/
def dTiles (w : BitVec 256) : Nat := fld w 128 16 + 1
/-- NRM1 + 1 of a DMA slot. -/
def dRing (w : BitVec 256) : Nat := fld w 144 4 + 1
/-- STRIDE of a DMA slot. -/
def dStride (w : BitVec 256) : Nat := fld w 160 16
/-- PC of a DMA slot: the address of its DMOV. -/
def dPc (w : BitVec 256) : Nat := fld w 176 14
/-- DL of a DMA slot: its DMOV was 64-bit. -/
def dDl (w : BitVec 256) : Bool := w.getLsbD 190
/-- PROG of a DMA slot. -/
def dProg (w : BitVec 256) : Nat := fld w 192 16
/-- DONE of a DMA slot. -/
def dDone (w : BitVec 256) : Nat := fld w 208 16
/-- CRCP of a DMA slot. -/
def dCrcp (w : BitVec 256) : Word := w.extractLsb' 224 32

/-- Whether a slot's kind reads its input queue: QIN, TIN, TSTG, FWD (04 Table 4-6). -/
def usesIq (w : BitVec 256) : Bool := decide (dKind w = 2) || decide (dKind w = 4) || decide (dKind w = 6) || decide (dKind w = 8)
/-- Whether a slot's kind writes its output queue: QOUT, TOUT, FWD (04 Table 4-6). -/
def usesOq (w : BitVec 256) : Bool := decide (dKind w = 3) || decide (dKind w = 5) || decide (dKind w = 8)

/-- The busy slots that name input queue q. -/
def iqSlots (c : Core) (q : Fin 8) : List (Fin 4) :=
  (List.finRange 4).filter (fun k => usesIq c.dma[k] && decide (dIq c.dma[k] = q))
/-- The busy slots that name output queue q. -/
def oqSlots (c : Core) (q : Fin 4) : List (Fin 4) :=
  (List.finRange 4).filter (fun k => usesOq c.dma[k] && decide (dOq c.dma[k] = q))

/-- Whether slot j was loaded before slot k: by the order of their DMOVs, which a context does not hold; of two slots that a
restore brought back, one with progress comes first, then the lower: DEDUCED, log 25 (04 R116, R120; 02 R52). -/
def slotBefore (c : Core) (j k : Fin 4) : Bool :=
  let moved := fun (i : Fin 4) => decide (dProg c.dma[i] ≠ 0) || decide (dDone c.dma[i] ≠ 0)
  decide (c.x.slotSeq[j] < c.x.slotSeq[k]) || (decide (c.x.slotSeq[j] = c.x.slotSeq[k]) &&
    ((moved j && !moved k) || (moved j == moved k && decide (j < k))))

/-- Whether slot k owns every queue it names: no other slot that names one was loaded before it (04 R116). -/
def slotOwns (c : Core) (k : Fin 4) : Bool :=
  let first := fun (l : List (Fin 4)) => l.all (fun j => !slotBefore c j k)
  (!usesIq c.dma[k] || first (iqSlots c (dIq c.dma[k]))) && (!usesOq c.dma[k] || first (oqSlots c (dOq c.dma[k])))

/-- Whether the head of input queue q, present, may be taken by an instruction or a slot: its steering decision is made,
nothing removes it, and it is not stale (07 R177, "The firing rule"). -/
def headReady (c : Core) (q : Fin 8) : Bool :=
  let en := c.iq[q].ent 0
  decide (0 < c.iq[q].count) && !undecided c q en && !c.x.drop.getLsbD q && !c.iq[q].hdisc && (staleFold c q en).isNone

/-- Whether an instruction in progress still takes entries of input queue q, one a step (02 R28; 03 R90; 04 R107). -/
def iqClaimed (c : Core) (q : Fin 8) : Bool :=
  c.x.runs.any (fun r => match r.d.ins with
    | .vqrd _ _ k => decide (k = q)
    | .mstgq _ k _ => decide (k = q)
    | _ => false)

/-- Whether an instruction in progress still writes an entry of output queue q (03 R90; 08 R189). -/
def oqClaimed (c : Core) (q : Fin 4) : Bool :=
  c.x.runs.any (fun r => match r.d.ins with | .vqwr _ _ k _ _ => decide (k = q) | _ => false)

/-- Whether the head of input queue q may be taken in this step by a new taker: the queue has yielded nothing in this step, no
instruction in progress takes from it, and the head is settled (02 R27, R28; 07 R177). -/
def headFor (now : Nat) (c : Core) (q : Fin 8) : Bool := iqFree now q c && !iqClaimed c q && headReady c q

/-- Whether a compute instruction may take an entry of input queue q in this step: no busy slot owns the queue and its head may
be taken (04 R116). -/
def iqReady (now : Nat) (c : Core) (q : Fin 8) : Bool := (iqSlots c q).isEmpty && headFor now c q

/-- The unit that passes an open token in queue q; a unit that no valid fold owns passes none (07 R175, R177). -/
def openUnit (c : Core) (q : Nat) : Option (Fin 4) :=
  (List.finRange 4).find? (fun k => uOpen c.su[k] && unitOwned c k && decide (uQ c.su[k] = q))

/-- An open token's entry that reaches the head takes the decision: its TAG is rewritten and STEERED set, and OPEN clears
with the last entry; a dropped token's entry takes STEERED and is marked as being removed (07 R177). -/
def steerHead (q : Fin 8) (c : Core) : Core :=
  if c.iq[q].count = 0 then c
  else
    let en := c.iq[q].ent 0
    match openUnit c q with
    | none => c
    | some k =>
      if beginsToken en || sbSteered en.sb then c
      else if uDrop c.su[k] (uDec c.su[k]) then
        { c with
          iq := c.iq.set q (c.iq[q].setHead ⟨en.data, setBit en.sb 7 true⟩)
          x := { c.x with drop := setBit c.x.drop q true } }
      else
        let sb := setBit (setFld en.sb 0 3 (uTag c.su[k] (uDec c.su[k]))) 7 true
        { c with
          iq := c.iq.set q (c.iq[q].setHead ⟨en.data, sb⟩)
          su := if sbLast en.sb then c.su.set k (setBit c.su[k] 149 false) else c.su }

/-- Takes the head entry of an input queue: the entry leaves, and the next one meets the open token's decision. -/
def takeHead (now : Nat) (q : Fin 8) (c : Core) : Core := steerHead q (iqPop now q c)

/-- The fold that ran or runs: CORE_STATE.FOLD. -/
def curFold (c : Core) : BitVec 512 := c.folds[c.r.fold]

/-- Whether a fold is active (07 R167). -/
def foldActive (c : Core) : Bool := c.folds.toList.any fActive

/-- The sideband of an entry that the active fold writes to output queue q: OTAG and CORE_STATE.EPOCH (07 R165). -/
def outSb (c : Core) (q : Fin 4) (first last : Bool) : Byte := mkSb (fOtag (curFold c) q) c.r.epoch first last

/-- Whether output queue q may take an entry in this step from a new writer (08 R189). -/
def roomFor (now : Nat) (c : Core) (q : Fin 4) : Bool := oqFree now q c && !oqClaimed c q && decide (0 < c.oq[q].room)

/-- Whether n entries may be written to output queue q by an instruction: room is present and no busy slot owns the queue
(02 R27; 04 R116). -/
def oqReady (now : Nat) (c : Core) (q : Fin 4) (n : Nat) : Bool :=
  (oqSlots c q).isEmpty && roomFor now c q && decide (n ≤ c.oq[q].room)

end Sys2Proof.Machine
end

