-- ==== Sys2Proof/Machine/Limits.lean ====
section
/-! DEFINITION. What an instruction checks when it begins: the range and alignment of a data access, the formats a licence or
an early pan forbids, the limits of the matrix engine and of a DMOV's descriptor address, in the order of R93 (02 R29; 03 R69,
R89, R93; 04 R103, R107, R112, R124; 08 R198). -/

namespace Sys2Proof.Machine

/-- The first BOUNDS cause of a data access of n bytes that must lie on a multiple of al: outside the data region, then
misaligned (02 R29; 03 R69, R93). -/
def accessFault (a n al : Nat) : Option (Nat × Nat) :=
  if !inData a n then some (0x05, a % 65536)
  else if a % al ≠ 0 then some (0x06, a % 65536)
  else none

/-- The address S[A] + immediate, modulo 2^32 (03 R69). -/
def addrOf (base imm : Word) : Nat := (base + imm).toNat

/-- LICENCE and STATE of a short format: E2 or I4 without the 4-bit licence, SUB 0x0C; any short format on a pan not yet
enabled for them, SUB 0x0D; DETAIL is the FMT code (03 Table 3-13; 04 R124). -/
def shortFault (e : Env) (f : TileFmt) : Option (Nat × Nat × Nat) :=
  if f.short then
    if f.width = 4 && !licensed4 e.s then some (stLicence, 0x0C, f.code)
    else if !(getPan e.s (panOf e.g)).shortOn then some (stState, 0x0D, f.code)
    else none
  else none

/-- A limit of a matrix instruction: whether it is broken, and the scalar registers whose values take part (04 R123). -/
abbrev Limit := Bool × List Reg

/-- DETAIL of SUB 0x10 for the first broken limit: the lowest-numbered register that takes part, 0xFFFF without one
(04 Table 4-7). -/
def firstBroken : List Limit → Option Nat
  | [] => none
  | (true, rs) :: _ => some (rs.foldr (fun r m => min (r : Nat) m) 0xFFFF)
  | (false, _) :: t => firstBroken t

/-- The limits of Tables 4-3 and R101 that the shape words decide alone. -/
def shapeLimits (f : TileFmt) (rm : Rounding) (b : Reg) (sh : Shape) : List Limit :=
  [(sh.outF = 3, [b]), (sh.rsv, [b]), (sh.rsv1, [b + 1]),
   (sh.outF = 2 && f.code < 6, [b]), (sh.outF = 2 && decide (rm ≠ .rne), [b])]

/-- The limits of R103 on the destination, W and its scales. -/
def operandLimits (f : TileFmt) (d a b : Reg) (sh : Shape) (wa : Nat) : List Limit :=
  let n := mmaCols f
  [(f.short && sh.m * sh.k % sh.bx ≠ 0, [b]), (f.short && sh.k * n % sh.bw ≠ 0, [b]),
   (f.short && 4096 < sh.xsoff + ceilDiv (sh.m * sh.k) sh.bx, [b, b + 1]),
   (8192 < 256 * (d : Nat) + sh.m * n * outWidth sh, [b]),
   (wa % 32 ≠ 0, [a]),
   (!inData wa (sh.wrow * (sh.k - 1) + 32), [a, b, b + 1]),
   (f.short && !inData sh.wsa (ceilDiv (sh.k * n) sh.bw), [b, b + 1])]

/-- The limits of MMA, in the order of R98, R101 and R103. -/
def mmaLimits (f : TileFmt) (rm : Rounding) (d a b : Reg) (sh : Shape) (wa : Nat) : List Limit :=
  shapeLimits f rm b sh ++
  ([(4096 < sh.m * sh.k, [b]), (4096 < sh.xoff + ceilDiv (sh.m * sh.k * f.width) 8, [b])] : List Limit) ++
  operandLimits f d a b sh wa

/-- The limits of MMAS: those of MMA, with the largest bitmap-form payload in place of X (08 R198). -/
def mmasLimits (f : TileFmt) (rm : Rounding) (d a b : Reg) (sh : Shape) (wa : Nat) : List Limit :=
  let n := sh.m * sh.k
  shapeLimits f rm b sh ++
  ([(4096 < n, [b]), (4096 < sh.xoff + 32 * (1 + bitmapUnits n + valueUnits f n), [b])] : List Limit) ++
  operandLimits f d a b sh wa

/-- The operand checks of MMAS: the form unit, then the bitmap; DETAIL is the staging byte offset of the unit (08 R198). Where
the bitmap sets too few or too many bits and none past n, DETAIL names its first unit (DESIGN CHOICE: assumption log 98). -/
def mmasBad (sh : Shape) (c : Core) : Option Nat :=
  let n := sh.m * sh.k
  let u : Row := ofBytes 256 (mread c.stg sh.xoff 32)
  let bm := mread c.stg (sh.xoff + 32) (32 * bitmapUnits n)
  if !formUnitOk u n || decide (n < formVcnt u) then some sh.xoff
  else if bitmapOk bm n (formVcnt u) then none
  else
    let bad := (List.range (bitmapUnits n)).find? (fun i => (setBits (bm.drop (32 * i)) 256).any (fun j => decide (n ≤ 256 * i + j)))
    some (sh.xoff + 32 + 32 * bad.getD 0)

/-- The largest occupancy of MMAS for n elements, every one nonzero (04 R105). -/
def mmasWorst (n : Nat) : Nat := mmasOccupancy (List.range n) n

/-- The block range limit of MZERO, MBST and MBLD: instruction fields alone, so no register takes part (04 Table 4-7). -/
def blockLimit (d fn : Reg) : Limit := (decide (31 < (d : Nat) + (fn : Nat)), [])

/-- The SRAM limits of MBST and MBLD (04 Table 4-4). -/
def moveLimits (d a fn : Reg) (adr : Nat) : List Limit :=
  [blockLimit d fn, (adr % 256 ≠ 0, [a]), (!inData adr (256 * ((fn : Nat) + 1)), [a])]

/-- The limits that S[B] decides, for elements elements from block d (04 R108). -/
def attnLimits (d b : Reg) (sh : AttnShape) (elems : Nat) : List Limit :=
  [(sh.rsv || 1 < sh.fmt, [b]), (8192 < 256 * (d : Nat) + 2 * elems, [b])]

/-- The limits of MSTG (04 Table 4-4). -/
def mstgLimits (a b : Reg) (adr : Nat) (w : Word) : List Limit :=
  let rows := fld w 8 7 + 1
  [(fld w 7 1 ≠ 0 || fld w 15 17 ≠ 0, [b]), (128 < fld w 0 7 + rows, [b]), (adr % 32 ≠ 0, [a]), (!inData adr (32 * rows), [a, b])]

/-- The limits of MSTGQ (04 Table 4-4). -/
def mstgqLimits (b : Reg) (w : Word) : List Limit :=
  [(fld w 7 1 ≠ 0 || fld w 12 20 ≠ 0, [b]), (128 < fld w 0 7 + (fld w 8 4 + 1), [b])]

/-- The limits of MMASK beside those of its block (04 R109). -/
def maskLimits (a b : Reg) (mode : MaskMode) (sc : List Word) (sh : AttnShape) : List Limit :=
  let q0 := fld (scAt sc 0) 0 24
  let k0 := fld (scAt sc 1) 0 24
  [(fld (scAt sc 0) 24 8 ≠ 0, [a]), (fld (scAt sc 1) 24 8 ≠ 0, [a + 1]), (mode ≠ .causal && fld (scAt sc 3) 24 8 ≠ 0, [b + 1]),
   (16777215 < q0 + sh.m - 1, [a, b]), (16777215 < k0 + sh.n - 1, [a + 1, b])]

/-- The address that an instruction of a data access, a matrix operand or a descriptor names when it begins (03 R69, R89;
04 R99, R112, Table 4-4). -/
def memAddr (c : Core) (d : Disp) : Nat :=
  match d.ins with
  | .ldw _ _ a imm => addrOf c.s[a] imm
  | .ldh _ _ a imm => addrOf c.s[a] imm
  | .ldhu _ _ a imm => addrOf c.s[a] imm
  | .ldb _ _ a imm => addrOf c.s[a] imm
  | .ldbu _ _ a imm => addrOf c.s[a] imm
  | .stw _ _ a imm => addrOf c.s[a] imm
  | .sth _ _ a imm => addrOf c.s[a] imm
  | .stb _ _ a imm => addrOf c.s[a] imm
  | .vld _ _ _ imm => addrOf (scAt d.sc 0) imm
  | .vst _ _ _ imm => addrOf (scAt d.sc 0) imm
  | .dmov _ _ _ imm => addrOf (scAt d.sc 0) imm
  | _ => (scAt d.sc 0).toNat

/-- The bytes that a load or store accesses at its address; 0 for other instructions (03 R69, R89). -/
def accessLen : Instr → Nat
  | .ldw _ _ _ _ => 4
  | .ldh _ _ _ _ => 2
  | .ldhu _ _ _ _ => 2
  | .ldb _ _ _ _ => 1
  | .ldbu _ _ _ _ => 1
  | .stw _ _ _ _ => 4
  | .sth _ _ _ _ => 2
  | .stb _ _ _ _ => 1
  | .vld _ _ _ _ => 64
  | .vst _ _ _ _ => 64
  | _ => 0

/-- The fault of a broken limit: BOUNDS, SUB 0x10 (04 Table 4-7). -/
def limitFault (l : List Limit) : Option (Nat × Nat × Nat) := (firstBroken l).map (fun det => (stBounds, 0x10, det))

/-- The first of two results that is there. -/
def firstOf {α : Type} (a b : Option α) : Option α := match a with | some x => some x | none => b

/-- The cause, SUB and DETAIL with which an instruction faults when it begins, in the order of R93 and R198, before any bank is
asked; the causes that only its own operation finds are not among them. -/
def beginFault (e : Env) (d : Disp) (c : Core) : Option (Nat × Nat × Nat) :=
  let adr := memAddr c d
  match d.ins with
  | .vunpk _ _ _ _ f _ => shortFault e f
  | .mma _ dst a b f rm =>
    firstOf (shortFault e f) (limitFault (mmaLimits f rm dst a b (shapeOf (scAt d.sc 1) (scAt d.sc 2)) adr))
  | .mmas _ dst a b f rm =>
    let sh := shapeOf (scAt d.sc 1) (scAt d.sc 2)
    firstOf (shortFault e f) (firstOf
      (limitFault (mmasLimits f rm dst a b sh adr ++ [(decide (1000 < mmasWorst (sh.m * sh.k)), [b])]))
      ((mmasBad sh c).map (fun det => (stFormat, 0x11, det))))
  | .mstg _ a b => limitFault (mstgLimits a b adr (scAt d.sc 1))
  | .mstgq _ _ b => limitFault (mstgqLimits b (scAt d.sc 0))
  | .mzero _ dst fn => limitFault [blockLimit dst fn]
  | .mbst _ dst a fn => limitFault (moveLimits dst a fn adr)
  | .mbld _ dst a fn => limitFault (moveLimits dst a fn adr)
  | .mmask _ dst a b mode =>
    let sh := attnShape (scAt d.sc 2)
    limitFault (attnLimits dst b sh (sh.m * sh.n) ++ maskLimits a b mode d.sc sh)
  | .msmx _ dst _ b =>
    let sh := attnShape (scAt d.sc 0)
    limitFault (attnLimits dst b sh (sh.m * sh.n) ++ [(decide (4096 < sh.xoff + 2 * sh.m * sh.n), [b])])
  | .mscl _ dst _ b =>
    let sh := attnShape (scAt d.sc 0)
    limitFault (attnLimits dst b sh (sh.m * sh.n * (fld (scAt d.sc 1) 0 4 + 1)) ++ [(decide (fld (scAt d.sc 1) 4 28 ≠ 0), [b + 1])])
  | .dmov _ slot _ _ =>
    if adr % 32 ≠ 0 ∨ !inData adr 32 then some (stBounds, 0x14, (slot : Nat) * 16384 + adr % 65536 / 4 % 16384) else none
  | i => if accessLen i = 0 then none else (accessFault adr (accessLen i) (accessLen i)).map (fun p => (stBounds, p.1, p.2))

end Sys2Proof.Machine
end

