-- ==== Sys2Proof/Machine/Product.lean ====
section
/-! DEFINITION. The operands and results of the matrix engine's products: the rows that each step of MMA and MMAS asks for, the
values of X and W, the exact sums, the rounding and the staged row of scales (04 R99 to R106; 08 R198 to R201; 09 R210). -/

namespace Sys2Proof.Machine

/-- A vector register. -/
abbrev VReg := Vector Lane 32

/-- The rounding of the unit whose element index is base x EIX + k; the tile and step words are the last two operands read
at dispatch (03 R80; 04 R102; 05 R135). -/
def roundMode (rm : Rounding) (seed : BitVec 64) (sc : List Word) (base k code : Nat) : RMode :=
  match rm with
  | .rne => .rne
  | .rtz => .rtz
  | .sr eix _ =>
    let n := sc.length
    .sr (srDraw seed (scAt sc (n - 2)) (base * eix.toNat + k) (scAt sc (n - 1)) code)

/-- The 64 bytes of a vector register, lane 0 lowest (03, "Vector engine"). -/
def vBytes (v : VReg) : List Byte := v.toList.flatMap (fun x => bytesOf x 2)

/-- A vector register from 64 bytes. -/
def vOfBytes (bs : List Byte) : VReg := Vector.ofFn (fun j : Fin 32 => BitVec.ofNat 16 (leAt bs (2 * (j : Nat)) 2))

/-- ACT_MTX advanced by n units of 128 MACs (02 R49). -/
def actMtx (n : Nat) (c : Core) : Core := { c with r := { c.r with actMtx := c.r.actMtx + BitVec.ofNat 32 n } }

/-- ACT_MTX units of a step of MMA (02 R49; 04 Table 4-2). -/
def macUnits (f : TileFmt) : Nat := 16 / f.width

/-- What an instruction has read of a row; a row that it has not read counts as zeros. -/
def gotRow (got : List (Bool × Nat × Row)) (scale : Bool) (row : Nat) : Row :=
  match got.find? (fun g => decide (g.1 = scale) && decide (g.2.1 = row)) with
  | some g => g.2.2
  | none => 0

/-- The byte at an address among the scale rows that were read. -/
def gotByte (got : List (Bool × Nat × Row)) (a : Nat) : Byte := byteAt (gotRow got true (a / 32)) (a % 32)

/-- The SRAM row of W row k. -/
def wRowAt (sh : Shape) (wa k : Nat) : Nat := (wa + sh.wrow * k) / 32

/-- The rows of scales that W row k needs: none for a 16-bit format (04 R99, R104). -/
def scaleRowsOf (f : TileFmt) (sh : Shape) (k : Nat) : List Nat :=
  let n := mmaCols f
  if f.short then
    let lo := sh.wsa + k * n / sh.bw
    rowsIn lo (sh.wsa + (k * n + n - 1) / sh.bw + 1 - lo)
  else []

/-- The scale rows to ask for, given the row last read: one for each change of row (04 R104; 09 R210). -/
def newScales : Option Nat → List Nat → List (Bool × Nat)
  | _, [] => []
  | cur, r :: t => if cur = some r then newScales cur t else (true, r) :: newScales (some r) t

/-- The scale row last read after the rows of a list. -/
def lastScale (cur : Option Nat) (rs : List Nat) : Option Nat := match rs.getLast? with | some r => some r | none => cur

/-- The requests of each step of MMA or MMAS: the W rows of the step's values of k, each once, and the rows of scales they need
beyond the one last read (04 R104; 08 R199). -/
def productGroups (f : TileFmt) (sh : Shape) (wa : Nat) : Option Nat → List (List Nat) → List (List (Bool × Nat))
  | _, [] => []
  | cur, ks :: t =>
    let need := ks.flatMap (scaleRowsOf f sh)
    (ks.map (fun k => (false, wRowAt sh wa k)) ++ newScales cur need) :: productGroups f sh wa (lastScale cur need) t

/-- The values of k of each step of MMA: 8 / M consecutive ones (04 R104). -/
def mmaSteps (sh : Shape) : List (List Nat) := chunks sh.k (8 / sh.m) (List.range sh.k)

/-- The elements of an MMAS operand with the steps in which their banks start them (08 R201). -/
def mmasStarts (set : List Nat) (n : Nat) : List (Nat × Nat) :=
  (((mmasGather set n).st).zipIdx).flatMap (fun p => (set.filter (fun e => decide (e % 16 = p.2))).zip p.1.reverse)

/-- The elements that MMAS starts in each step of its occupancy, rising (08 R199, R201). -/
def mmasSteps (set : List Nat) (n : Nat) : List (List Nat) :=
  let st := mmasStarts set n
  (List.range (mmasOccupancy set n)).map (fun t =>
    let now := (st.filter (fun p => decide (p.2 = t))).map Prod.fst
    set.filter (fun e => now.contains e))

/-- The elements whose bitmap bit is set in an MMAS operand (08 R198). -/
def mmasSet (sh : Shape) (c : Core) : List Nat :=
  setBits (mread c.stg (sh.xoff + 32) (32 * bitmapUnits (sh.m * sh.k))) (sh.m * sh.k)

/-- One result of MMA or MMAS: its bytes and whether it sets OVF_LOCAL. The terms are the pairs of elements, each with its
block scale, and the destination when ACC = 1 (04 R100, R101). -/
def mmaResult (sh : Shape) (mode : RMode) (pairs : List (FVal × FVal)) (old : Nat) : List Byte × Bool :=
  let prods := pairs.map (fun p => p.1.mul p.2)
  if sh.outF = 2 then
    let t := sumAt 0 prods + (if sh.acc then (old : Int) else 0)
    (bytesOf (BitVec.ofInt 32 t) 4, false)
  else
    let ff := if sh.outF = 0 then fmtH16 else fmtW16
    let dst := if sh.acc then [decodeFloat ff old] else []
    let v := if sh.acc && prods.isEmpty then decodeFloat ff old else sumF (prods ++ dst)
    let code := roundTo ff mode v
    (bytesOf (BitVec.ofNat 16 code) 2, ovfOf (pairs.flatMap (fun p => [p.1, p.2]) ++ dst) (decodeFloat ff code))

/-- Every result of an operand, written to the destination blocks together (04 R99, R100; 08 R200). xs gives, for a row m,
the elements present with their k. -/
def mmaWrite (f : TileFmt) (rm : Rounding) (d : Reg) (sh : Shape) (sc : List Word) (xs : Nat → List (Nat × FVal))
    (ws : Nat → Nat → FVal) (c : Core) : Core :=
  let n := mmaCols f
  let w := outWidth sh
  let base := 256 * (d : Nat)
  let code := if sh.outF = 0 then 0 else 1
  let res := (List.range (sh.m * n)).map (fun i =>
    let m := i / n
    let col := i % n
    mmaResult sh (roundMode rm c.seed sc 512 i code) ((xs m).map (fun p => (p.2, ws p.1 col)))
      (natOfBytes (mread c.banks (base + i * w) w)))
  orOvf (res.any Prod.snd) { c with banks := mwrite c.banks base (res.flatMap Prod.fst) }

/-- The values of W row k with their block scales; raw for I32 results (04 R99, R101). -/
def wRow (f : TileFmt) (sh : Shape) (got : List (Bool × Nat × Row)) (wa k : Nat) : List FVal :=
  let row := bytesOf (gotRow got false (wRowAt sh wa k)) 32
  (List.range (mmaCols f)).map (fun n =>
    let v := f.value (elemAt f row n)
    if f.short && sh.outF ≠ 2 then withScale (gotByte got (sh.wsa + (k * mmaCols f + n) / sh.bw)).toNat v else v)

/-- The values of W, row by row, of the rows that the operand uses; the places of the others hold a filler that takes part in no
product (04 R99; 08 R199). -/
def wAll (f : TileFmt) (sh : Shape) (got : List (Bool × Nat × Row)) (wa : Nat) (ks : List Nat) : Array FVal :=
  ((List.range sh.k).flatMap (fun k =>
    if ks.contains k then wRow f sh got wa k else List.replicate (mmaCols f) .nan)).toArray

/-- The value of X element e, its code read at staging, with its block scale (04 R99). -/
def xValue (f : TileFmt) (sh : Shape) (c : Core) (code e : Nat) : FVal :=
  let v := f.value code
  if f.short && sh.outF ≠ 2 then withScale (tget 0 c.stg (sh.xsoff + e / sh.bx)).toNat v else v

/-- The results of MMA, once its rows have been read (04 R99 to R102). -/
def mmaFinish (f : TileFmt) (rm : Rounding) (d : Reg) (sc : List Word) (wa : Nat) (got : List (Bool × Nat × Row)) (c : Core) :
    Core :=
  let sh := shapeOf (scAt sc 1) (scAt sc 2)
  let xb := mread c.stg sh.xoff (ceilDiv (sh.m * sh.k * f.width) 8)
  let xv := ((List.range (sh.m * sh.k)).map (fun i => xValue f sh c (elemAt f xb i) i)).toArray
  let wv := wAll f sh got wa (List.range sh.k)
  mmaWrite f rm d sh sc
    (fun m => (List.range sh.k).map (fun q => (q, xv.getD (q * sh.m + m) .nan)))
    (fun q n => wv.getD (q * mmaCols f + n) .nan) c

/-- The results of MMAS, once its rows have been read: those of MMA over the elements whose bitmap bit is set (04 R105, R106;
08 R200). -/
def mmasFinish (f : TileFmt) (rm : Rounding) (d : Reg) (sc : List Word) (wa : Nat) (got : List (Bool × Nat × Row)) (c : Core) :
    Core :=
  let sh := shapeOf (scAt sc 1) (scAt sc 2)
  let set := mmasSet sh c
  let vals := mread c.stg (sh.xoff + 32 * (1 + bitmapUnits (sh.m * sh.k))) (32 * valueUnits f set.length)
  let xv := (set.zipIdx).map (fun p => (p.1, xValue f sh c (elemAt f vals p.2) p.1))
  let wv := wAll f sh got wa ((set.map (· / sh.m)).dedup)
  mmaWrite f rm d sh sc
    (fun m => (xv.filter (fun p => decide (p.1 % sh.m = m))).map (fun p => (p.1 / sh.m, p.2)))
    (fun q i => wv.getD (q * mmaCols f + i) .nan) c

end Sys2Proof.Machine
end

