-- ==== Sys2Proof/Machine/Slot.lean ====
section
/-! DEFINITION. The DMA slots: when a slot may move, the checks of a descriptor and of a tile's header entry, and the SRAM row
that a slot asks for (04 R112 to R123; 08 R196, R197). -/

namespace Sys2Proof.Machine

/-- The fill d of a channel pair (09 R226). -/
def fill (p : BitVec 16 × BitVec 16) : Nat := (p.1 - p.2).toNat

/-- Whether the DMA slots may move in this step: the core runs, and no halt request has stopped the engine, which it does in the
step after every dispatched instruction has begun (02 R41). -/
def dmaRuns (e : Env) (c : Core) : Bool := live e c && !(c.x.haltReq && !c.x.start.waits && (waiting c).isEmpty)

/-- Whether slot k may make a move in this step: it owns its queues, has not moved in this step and has no finished tile or
transfer waiting for its actions (04 R116). -/
def slotTurn (e : Env) (k : Fin 4) (c : Core) : Bool :=
  slotOwns c k && decide (c.x.slotAt[k] ≤ e.now) && !c.x.slotFin[k]

/-- The image of slot k if it is busy with this kind and may begin a move in this step; a row that COPY has read it still writes,
since a halt stops it at the next 32 B boundary (04 R116; 02 R41). -/
def slotReady (e : Env) (kind : Nat) (k : Fin 4) (c : Core) : Option (BitVec 256) :=
  let w := c.dma[k]
  if (dmaRuns e c || (live e c && c.x.copied[k].isSome)) && slotTurn e k c && decide (dKind w = kind) then some w else none

/-- DETAIL [15:14] slot and [13:0] (04 Table 4-7). -/
def slotDetail (k : Fin 4) (v : Nat) : Nat := (k : Nat) * 16384 + v % 16384

/-- Word index of the first field of a descriptor that is reserved or unused and not 0 (04 R114, Table 4-6). -/
def descBad (w : BitVec 256) : Option Nat :=
  let kd := dKind w
  let used := fun (l : List Nat) => l.contains kd
  if kd = 0 ∨ 8 < kd then some 0
  else if fld w 25 7 ≠ 0 ∨ (!used [2, 4, 6, 8] && fld w 4 3 ≠ 0) ∨ (!used [3, 5, 8] && fld w 7 2 ≠ 0) ∨
      (!dChe w && fld w 10 7 ≠ 0) ∨ (!dFle w && fld w 18 6 ≠ 0) ∨ (kd ≠ 3 ∧ dFl w) ∨ (kd = 4 ∧ dTiles w ≠ 1 ∧ !dChe w) then some 0
  else if fld w 48 16 ≠ 0 ∨ (!used [1, 3, 5, 7] && dSrc w ≠ 0) then some 1
  else if fld w 80 16 ≠ 0 ∨ (!used [1, 2, 4, 6, 7] && dDst w ≠ 0) then some 2
  else if fld w 112 16 ≠ 0 ∨ (!used [1, 2, 3, 4, 6, 7] && fld w 96 16 ≠ 0) then some 3
  else if fld w 148 12 ≠ 0 ∨ (!used [4, 8] && fld w 128 16 ≠ 0) ∨ (kd ≠ 4 ∧ fld w 144 4 ≠ 0) then some 4
  else if fld w 176 16 ≠ 0 ∨ (!used [4, 6] && dStride w ≠ 0) then some 5
  else if fld w 192 32 ≠ 0 then some 6
  else if fld w 224 32 ≠ 0 then some 7
  else none

/-- The first bad address of a list of ranges: a start that is not a multiple of 32, or a range outside its region; stg says
that the range lies in staging (04 R115). -/
def rangeBad : List (Bool × Nat × Nat) → Option Nat
  | [] => none
  | (stg, a, n) :: t =>
    if a % 32 ≠ 0 then some a
    else if stg then (if 4096 < a + n then some a else rangeBad t)
    else if inData a n then rangeBad t else some a

/-- The first bad address of a descriptor: its ranges by KIND, then a length or stride that is not a multiple of 32, or a
TIN stride below LENM1 + 33 (04 R115, R118). -/
def descRange (w : BitVec 256) : Option Nat :=
  let len := dLen w
  let unit := fun (a : Nat) => if len % 32 = 0 then none else some a
  match dKind w with
  | 1 => orElse (rangeBad [(false, dSrc w, len), (false, dDst w, len)]) (unit (dSrc w))
  | 2 => orElse (rangeBad [(false, dDst w, len)]) (unit (dDst w))
  | 3 => orElse (rangeBad [(false, dSrc w, len)]) (unit (dSrc w))
  | 4 => orElse (rangeBad [(false, dDst w, (dRing w - 1) * dStride w + 32 + len)])
      (when (decide (dStride w % 32 ≠ 0) || decide (dStride w < len + 32)) (dDst w))
  | 5 => rangeBad [(false, dSrc w, 32)]
  | 6 => rangeBad [(true, dDst w, len), (false, dStride w, 32)]
  | 7 => orElse (rangeBad [(false, dSrc w, len), (true, dDst w, len)]) (unit (dSrc w))
  | _ => none

/-- The slot image that DMOV loads: the descriptor with the address and length of the DMOV (04 Table 4-5). -/
def slotImage (w : BitVec 256) (pc : Nat) (long : Bool) : BitVec 256 := setBit (setFld w 176 14 pc) 190 long

/-- The ring slot of the tile in progress of a TIN slot (04 R118). -/
def tinBase (w : BitVec 256) : Nat := dDst w + (dDone w % dRing w) * dStride w

/-- The checks of R121 on a header entry, in order, with the SUB of the one that fails: framing and header FORMAT 0x13,
capacity BOUNDS 0x15 and what else belongs to check 3, poison POISON 0x16; LAST on the header ends the tile too early
(04 R121). -/
def headerFault (w : BitVec 256) (en : QEntry) (more : Option (Nat × Nat)) : Option (Nat × Nat) :=
  if !sbFirst en.sb || !headerValid en.data then some (stFormat, 0x13)
  else if dLen w < 32 * hUnits en.data then some (stBounds, 0x15)
  else match more with
    | some r => some r
    | none =>
      if hP en.data then some (stPoison, 0x16)
      else if sbLast en.sb then some (stFormat, 0x13)
      else none

/-- The checks on the header entry of a tile for staging: with check 3 of R121, that the dense payload fits and that the SRAM
prefix of a compressed tile lies in the data region (04 R121; 08 R196). -/
def tstgFault (w : BitVec 256) (en : QEntry) : Option (Nat × Nat) :=
  let h := en.data
  headerFault w en
    (if hC h then
      if dLen w < 32 * hDense h ∨ 4096 < dDst w + 32 * hDense h then some (stBounds, 0x15)
      else if inData (dStride w) (32 * (2 + bitmapUnits (hN h))) then none else some (stBounds, 0x1F)
    else if 4096 < dDst w + 32 * hUnits h then some (stBounds, 0x15) else none)

/-- Whether a staging row is held in use by a matrix instruction (02 R35). -/
def rowInUse (now : Nat) (c : Core) (row : Nat) : Bool :=
  c.x.begun.any (fun b => decide (now < b.due) && b.use.contains row)

/-- Whether the ring of a TIN slot has room for a tile (04 R118). -/
def ringRoom (w : BitVec 256) (c : Core) : Bool := !(dChe w && decide (dRing w * dAmt w ≤ fill c.ch[dCh w]))

/-- The header of the tile in progress at an SRAM address. -/
def headerAt (a : Nat) (c : Core) : Row := ofBytes 256 (mread c.sram a 32)

/-- Whether an entry of a tile's payload carries LAST exactly if it ends the implied length (04 R121). -/
def lastRight (h : Row) (p : Nat) (en : QEntry) : Bool := sbLast en.sb == decide (32 * hUnits h ≤ p)

/-- The source rows that a TOUT slot has read (04 R119). -/
def toutRows : ToutX → Option Nat
  | .none => some 0
  | .reading rows _ => some rows.length
  | _ => none

/-- The SRAM row that slot k asks for in this step, if its next move is one that needs a bank and nothing but the bank holds it
back (04 R116, R118, R119; 08 R197). -/
def slotRow (e : Env) (k : Fin 4) (c : Core) : Option Nat :=
  let w := c.dma[k]
  let p := dProg w
  let q := dIq w
  let o := dOq w
  let en := c.iq[q].ent 0
  let row := fun (b : Bool) (a : Nat) => if b then some (a / 32) else none
  if !((dmaRuns e c || (live e c && c.x.copied[k].isSome)) && slotTurn e k c) then none
  else match dKind w with
    | 1 => some (if c.x.copied[k].isSome then (dDst w + p) / 32 else (dSrc w + p) / 32)
    | 2 => row (headFor e.now c q) (dDst w + p)
    | 3 => row (roomFor e.now c o) (dSrc w + p)
    | 4 =>
      let base := tinBase w
      row (headFor e.now c q && (if p = 0 then ringRoom w c && (headerFault w en none).isNone
        else lastRight (headerAt base c) p en)) (base + p)
    | 5 => match toutRows c.x.tout[k] with | some i => some (dSrc w / 32 + i) | none => none
    | 6 =>
      if p = 0 then row (headFor e.now c q && (tstgFault w en).isNone) (dStride w)
      else
        let h := headerAt (dStride w) c
        row (c.x.stgLeft[k].isEmpty && headFor e.now c q && hC h && decide (p / 32 ≤ 1 + bitmapUnits (hN h)) && lastRight h p en)
          (dStride w + p)
    | 7 => row (!rowInUse e.now c ((dDst w + p) / 32)) (dSrc w + p)
    | _ => none

/-- Whether slot k is idle and no DMOV is about to load it (04 R112, R113). -/
def slotFree (c : Core) (k : Fin 4) : Bool :=
  decide (dKind c.dma[k] = 0) && !c.x.runs.any (fun r => match r.d.ins with | .dmov _ j _ _ => decide (j = k) | _ => false)

end Sys2Proof.Machine
end

