-- ==== Sys2Proof/Machine/Issue.lean ====
section
/-! DEFINITION. Beginning instructions in issue order, the arbitration of the SRAM banks, and the instructions that work for
several steps: the rows they access, what each row and each step does, and their end (02 R26 to R34; 03 R59, R62, R74; 04 R96;
09 R209 to R214). -/

namespace Sys2Proof.Machine

-- Issue order ----------------------------------------------------------------------------------------------------

/-- Whether the control slot queue has room for a message (09 R224). -/
def ctlRoom (c : Core) : Bool := decide (c.x.ctl.length < 8)

/-- Whether a signal that enters the control slot queue need not wait: there is room, or it faults instead (09 R224). -/
def sendReady (e : Env) (c : Core) (rem : Bool) (t : Reg) : Bool :=
  !rem || ctlRoom c || (memberOf e.s e.part (fld c.s[t] 0 20)).isNone

/-- Whether what an instruction waits for at the head of its issue queue, beyond R62, is there: its queue entries and room, the
slot of a DMOV, the slots of a DWAIT, flags and fills, earlier instructions, the guard result (02 R27; 03 R71, R73, R74, R90;
04 R112, R113; 09 R212 to R214, R222, R227; 06 R149, R154). -/
def waitsDone (e : Env) (d : Disp) (c : Core) : Bool :=
  let before := fun (kind : Instr → Bool) => allDone e.now d.seq kind c
  match d.ins with
  | .qrd _ _ q _ _ => iqReady e.now c q
  | .vqrd _ _ q => iqReady e.now c q && decide (2 ≤ c.iq[q].count)
  | .vqwr _ _ q _ _ => oqReady e.now c q 2
  | .mstgq _ q _ => iqReady e.now c q && decide (fld (scAt d.sc 0) 8 4 + 1 ≤ c.iq[q].count)
  | .dmov _ k _ _ => slotFree c k
  | .dwait _ mask => (List.finRange 4).all (fun k => !mask.getLsbD k || slotFree c k)
  | .acq _ _ => before isOrdering
  | .syncAll _ => before (fun _ => true)
  | .endFold _ => before (fun _ => true)
  | .stepCommit _ => before (fun _ => true) && (!e.guardOn || gRdone c.guard || (c.x.phase3.isSome && c.x.gres.isSome))
  | .flagWait _ f => c.x.start.flags.getLsbD f
  | .flagWaitc _ f => c.x.start.flags.getLsbD f
  | .chWait _ ch amt => decide ((amt : Nat) + 1 ≤ fill c.x.start.ch[ch])
  | .flagSet _ _ rem t => before isRelease && sendReady e c rem t
  | .flagClr _ _ rem t => before isRelease && sendReady e c rem t
  | .chPut _ _ _ rem t => before isRelease && sendReady e c rem t
  | .chGet _ _ _ rem t => before isRelease && sendReady e c rem t
  | .barArrive _ _ t => before isRelease && (ctlRoom c || decide (255 < c.s[t].toNat))
  | _ => true

/-- The head of an engine's issue queue if, taken by itself, it may begin in this step (03 R62, R74). -/
def headMay (e : Env) (eng : Engine) (c : Core) : Option Disp :=
  match headFree e eng c with
  | some d => if waitsDone e d c then some d else none
  | none => none

/-- The four engines. -/
def engines : List Engine := [.scalar, .vector, .matrix, .dma]

/-- Whether no other engine's head that could begin in this step was issued before seq (02 R28; 03 R62). -/
def firstIssued (e : Env) (eng : Engine) (seq : Nat) (c : Core) : Bool :=
  engines.all (fun o => decide (o = eng) ||
    (match headMay e o c with | some d => decide (seq < d.seq) | none => true))

/-- The head of an engine's issue queue if it is this instruction and begins now: it may begin, and no instruction issued before
it could begin in this step (02 R28; 03 R62). -/
def ready (e : Env) (eng : Engine) (i : Instr) (c : Core) : Option Disp :=
  match headMay e eng c with
  | some d => if decide (d.ins = i) && firstIssued e eng d.seq c then some d else none
  | none => none

-- Requests -------------------------------------------------------------------------------------------------------

/-- The part of the core that an engine's instructions ask for banks as. -/
def userOf : Engine → BankUser
  | .scalar => .scalar
  | .vector => .vector
  | .matrix => .matrix
  | .dma => .dmov

/-- The rank of a part in the fixed order (02 R31; 04 R116). -/
def BankUser.rank : BankUser → Nat
  | .rake => 0
  | .fetch => 1
  | .scalar => 2
  | .vector => 3
  | .matrix => 4
  | .dmov => 5
  | .dma => 6

/-- Whether a part belongs to the DMA engine, which is one requester towards the others (04 R116). -/
def BankUser.isDma (u : BankUser) : Bool := decide (u = .dmov) || decide (u = .dma)

/-- The rows of a byte range as one group of requests. -/
def dataRows (a n : Nat) : List (Bool × Nat) := (rowsIn a n).map (fun r => (false, r))

/-- Whether the staged copy serves a descriptor (09 R210). -/
def descStaged (c : Core) (a : Nat) : Bool := match c.x.dRow with | some (b, _) => decide (b = a) | none => false

/-- The row of scales that the matrix engine has staged (09 R210). -/
def stagedScale (c : Core) : Option Nat := c.x.wRow.map Prod.fst

/-- The groups of rows that an instruction asks for, one group a step; an empty group is a step without a request. MSTG, MBST
and MBLD take 16 rows at a time, MSTGQ one entry, MZERO two blocks (04 R96, R104, R107, R115; 08 R199; 03 R89, R90). -/
def groupsOf (c : Core) (d : Disp) : List (List (Bool × Nat)) :=
  let adr := memAddr c d
  match d.ins with
  | .mma _ _ _ _ f _ =>
    let sh := shapeOf (scAt d.sc 1) (scAt d.sc 2)
    productGroups f sh adr (stagedScale c) (mmaSteps sh)
  | .mmas _ _ _ _ f _ =>
    let sh := shapeOf (scAt d.sc 1) (scAt d.sc 2)
    productGroups f sh adr (stagedScale c)
      ((mmasSteps (mmasSet sh c) (sh.m * sh.k)).map (fun es => (es.map (· / sh.m)).dedup))
  | .mstg _ _ _ => chunks 8 16 (dataRows adr (32 * (fld (scAt d.sc 1) 8 7 + 1)))
  | .mstgq _ _ _ => List.replicate (fld (scAt d.sc 0) 8 4 + 1) []
  | .mzero _ _ fn => List.replicate (ceilDiv ((fn : Nat) + 1) 2) []
  | .mbst _ _ _ fn => chunks 16 16 (dataRows adr (256 * ((fn : Nat) + 1)))
  | .mbld _ _ _ fn => chunks 16 16 (dataRows adr (256 * ((fn : Nat) + 1)))
  | .vqrd _ _ _ => [[], []]
  | .vqwr _ _ _ _ _ => [[], []]
  | .dmov _ _ _ _ => [if descStaged c adr then [] else [(false, adr / 32)]]
  | i => [dataRows adr (accessLen i)]

/-- The word at a code address, if the fetch buffer holds its row (03 R59). -/
def bufWord (c : Core) (pc : Nat) : Option Word :=
  match c.x.fbuf with
  | some (r, w) => if r = pc / 32 then some (w.extractLsb' (8 * (pc % 32)) 32) else none
  | none => none

/-- Whether fetch may act in this step (02 R41; 03 R63; 07 R171). -/
def fetchOn (e : Env) (c : Core) : Bool :=
  live e c && decide (c.x.fetch = .going) && decide (c.x.fetchAt ≤ e.now) && !c.x.haltReq

/-- The code row that fetch asks for in this step (03 R59). -/
def fetchRowOf (e : Env) (c : Core) : Option Nat :=
  if !fetchOn e c || decide (0x4000 ≤ c.pc) then none
  else
    let first := match c.x.fw1 with | some w => some w | none => bufWord c c.pc
    match first with
    | none => some (c.pc / 32)
    | some w =>
      if w.getLsbD 31 && decide (c.pc + 4 < 0x4000) && (bufWord c (c.pc + 4)).isNone then some ((c.pc + 4) / 32) else none

/-- The requests that stand in step now: those of fetch and of DMA slots refused before, and the rows that instructions in
progress have still to access (02 R31). -/
def heldAsks (now : Nat) (c : Core) : List Ask :=
  c.x.refused ++ (c.x.runs.filter (fun r => decide (r.next ≤ now))).flatMap (fun r =>
    r.rows.map (fun q => ⟨userOf r.eng, r.d.seq, q.row, q.n, r.next⟩))

/-- The requests that are made in this step for the first time if what may begin or move does so: the row of fetch, the first
rows of the heads of the issue queues, the rows of the DMA slots (02 R30, R31). -/
def freshAsks (e : Env) (c : Core) : List Ask :=
  (match fetchRowOf e c with | some r => [⟨.fetch, 0, r, 0, e.now⟩] | none => []) ++
  engines.flatMap (fun eng => match headMay e eng c with
    | some d =>
      if (beginFault e d c).isSome then []
      else ((groupsOf c d).headD []).map (fun p => (⟨userOf eng, d.seq, p.2, 0, e.now⟩ : Ask))
    | none => []) ++
  (List.finRange 4).flatMap (fun k => match slotRow e k c with
    | some r => [(⟨.dma, (k : Nat), r, 0, e.now⟩ : Ask)]
    | none => [])

/-- How often in a row a request has been refused; the DMA engine counts for a bank as one requester (02 R31; 04 R116). -/
def askAge (l : List Ask) (a : Ask) : Nat :=
  (l.filter (fun b => (decide (b.user = a.user) && decide (b.tag = a.tag) && decide (b.row = a.row)) ||
    (a.user.isDma && b.user.isDma && decide (bankOf b.row = bankOf a.row)))).foldl (fun m b => max m b.n) a.n

/-- Whether request a is served before request b at their bank: the rake first, then requests refused 4 times, then the fixed
order, then the slots and instructions in their order (02 R31; 04 R116). -/
def goesBefore (l : List Ask) (a b : Ask) : Bool :=
  let aged := fun (x : Ask) => decide (4 ≤ askAge l x)
  if decide (a.user = .rake) != decide (b.user = .rake) then decide (a.user = .rake)
  else if aged a != aged b then aged a
  else if a.user = b.user then decide (a.tag < b.tag)
  else decide (a.user.rank < b.user.rank)

/-- Whether a bank serves a request in this step among the requests of a list: it has served no one yet, and no other request
for it comes before (02 R31, R32). -/
def bankServes (l : List Ask) (c : Core) (a : Ask) : Bool :=
  c.x.served.all (fun s => decide (s.2 ≠ bankOf a.row)) &&
  l.all (fun b => decide (bankOf b.row ≠ bankOf a.row) || (decide (b.user = a.user) && decide (b.tag = a.tag)) || !goesBefore l b a)

/-- Every request of this step: those that stand and those that are new (02 R31). -/
def asksNow (e : Env) (c : Core) : List Ask := heldAsks e.now c ++ freshAsks e c

/-- A bank serves a part once: the access counts in ACT_SRAM (02 R31, R49). -/
def markServed (u : BankUser) (row : Nat) (c : Core) : Core :=
  { c with
    x := { c.x with served := (u, bankOf row) :: c.x.served }
    r := { c.r with actSram := c.r.actSram + 1 } }

/-- A request of fetch or of a DMA slot, number tag: served now, or refused and heldAsks (02 R31). -/
def askBank (e : Env) (u : BankUser) (tag row : Nat) (c : Core) : Bool × Core :=
  let a : Ask := ⟨u, tag, row, 0, e.now⟩
  let mine := fun (b : Ask) => decide (b.user = u) && decide (b.tag = tag)
  if bankServes (asksNow e c) c a then
    (true, markServed u row { c with x := { c.x with refused := c.x.refused.filter (fun b => !mine b) } })
  else if c.x.refused.any mine then (false, c)
  else (false, { c with x := { c.x with refused := c.x.refused ++ [a] } })

-- Instructions in progress ---------------------------------------------------------------------------------------

/-- The bytes of a row that an instruction accesses: all of a data row but for a scalar access; of a row of scales, the scales
(03 R69; 04 R99). -/
def rowSpan (r : Run) (q : RowReq) : Nat × Nat :=
  let cut := fun (a n : Nat) => let lo := max a (32 * q.row); (lo, min (a + n) (32 * q.row + 32) - lo)
  match r.d.ins with
  | .mma _ _ _ _ f _ =>
    let sh := shapeOf (scAt r.d.sc 1) (scAt r.d.sc 2)
    if q.scale then cut sh.wsa (ceilDiv (sh.k * mmaCols f) sh.bw) else (32 * q.row, 32)
  | .mmas _ _ _ _ f _ =>
    let sh := shapeOf (scAt r.d.sc 1) (scAt r.d.sc 2)
    if q.scale then cut sh.wsa (ceilDiv (sh.k * mmaCols f) sh.bw) else (32 * q.row, 32)
  | i => if accessLen i = 0 then (32 * q.row, 32) else cut r.addr (accessLen i)

/-- The bytes that an instruction writes to its rows from its address on; none for one that reads (03 R69, R88; 04 R107). -/
def storeBytes (c : Core) (r : Run) : Option (List Byte) :=
  match r.d.ins with
  | .stw _ _ _ _ => some r.data
  | .sth _ _ _ _ => some r.data
  | .stb _ _ _ _ => some r.data
  | .vst _ _ _ _ => some r.data
  | .mbst _ d _ fn => some (mread c.banks (256 * (d : Nat)) (256 * ((fn : Nat) + 1)))
  | _ => none

/-- Whether an instruction goes on with a row that holds an uncorrectable word, and faults later: DMOV, which checks its
descriptor first (03 R93). -/
def faultsLater : Instr → Bool
  | .dmov _ _ _ _ => true
  | _ => false

/-- What an access to one row does once its bank serves it: a store writes its bytes; a read takes the row, to staging or to
the accumulator for MSTG and MBLD; an uncorrectable word faults with POISON, SUB 0x0A (02 R46; 04 R107; 09 R209). The second
result is false where it faults. -/
def rowDone (e : Env) (q : RowReq) (r : Run) (c : Core) : Run × Core × Bool :=
  let (lo, n) := rowSpan r q
  match storeBytes c r with
  | some bs => (r, sramPut lo ((bs.drop (lo - r.addr)).take n) c, true)
  | none =>
    match eccBad c lo n, faultsLater r.d.ins with
    | some w, false => (r, insFault e r.d stPoison 0x0A w c, false)
    | _, _ =>
      let c1 := eccCount lo n c
      let bs := mread c1.sram (32 * q.row) 32
      match r.d.ins with
      | .mstg _ _ _ =>
        (r, { c1 with stg := mwrite c1.stg (32 * fld (scAt r.d.sc 1) 0 7 + (32 * q.row - r.addr)) bs }, true)
      | .mbld _ d _ _ => (r, { c1 with banks := mwrite c1.banks (256 * (d : Nat) + (32 * q.row - r.addr)) bs }, true)
      | _ => ({ r with got := (q.scale, q.row, ofBytes 256 bs) :: r.got }, c1, true)

/-- The rows of an instruction's group that the banks serve, in order; the others wait (02 R31). The last result is false where
a row faults. -/
def serveRows (e : Env) (l : List Ask) : List RowReq → Run → Core → Run × Core × Bool
  | [], r, c => (r, c, true)
  | q :: t, r, c =>
    if bankServes l c ⟨userOf r.eng, r.d.seq, q.row, q.n, r.next⟩ then
      let (r1, c1, ok) := rowDone e q r (markServed (userOf r.eng) q.row c)
      if ok then serveRows e l t r1 c1 else (r1, c1, false)
    else
      let (r1, c1, ok) := serveRows e l t r c
      ({ r1 with rows := q :: r1.rows }, c1, ok)

/-- The accumulator banks that an instruction of the matrix engine accesses in its step k: MBST, MBLD and MZERO two blocks a
step; MSMX its block of scores, in the step in which it begins. The blocks that an instruction writes are interlocked besides (02 R34; 04 R95, R107). -/
def accBanks (d : Disp) (k : Nat) : List Nat :=
  let pair := fun (b fn : Reg) => ((List.range 2).filter (fun i => decide (2 * k + i ≤ (fn : Nat)))).map (fun i => ((b : Nat) + 2 * k + i) / 2)
  match d.ins with
  | .mbst _ b _ fn => pair b fn
  | .mbld _ b _ fn => pair b fn
  | .mzero _ b fn => pair b fn
  | .msmx _ b _ _ =>
    let sh := attnShape (scAt d.sc 0)
    (destBlocks b (2 * sh.m * sh.n)).map (· / 2)
  | _ => []

/-- The accumulator banks that the matrix engine's instructions in progress access in this step (02 R34). -/
def accRuns (now : Nat) (c : Core) : List Nat :=
  (c.x.runs.filter (fun r => decide (r.next ≤ now))).flatMap (fun r => accBanks r.d r.k)

/-- The accumulator banks that the matrix engine may still access in this step: those of its instruction in progress and of one
that may begin (02 R34). -/
def accAsks (e : Env) (c : Core) : List Nat :=
  accRuns e.now c ++ (match headMay e .matrix c with
    | some d => if (beginFault e d c).isNone then accBanks d 0 else []
    | none => [])

/-- Whether a vector instruction finds an accumulator bank free of the matrix engine in this step, which has used the banks
noted and will use those of the list (02 R34). -/
def accFree (acc : List Nat) (c : Core) (b : Nat) : Bool := !c.x.accUsed.contains b && !acc.contains b

/-- What the end of a group of an instruction answers: it waits for another step, it goes on, or it has faulted. -/
inductive GroupEnd where
  | wait
  | go (r : Run) (c : Core)
  | bad (c : Core)

/-- The entry that an instruction in progress takes from an input queue in this step, if the head may be taken (02 R28; 07
R177). -/
def takeRow (e : Env) (q : Fin 8) (c : Core) : Option (Row × Core) :=
  if iqFree e.now q c && headReady c q then some ((c.iq[q].ent 0).data, takeHead e.now q c) else none

/-- DMOV with its descriptor read: FORMAT, then the ranges, then an uncorrectable word; a TOUT slot's template is the next row
to read (04 R112, R114, R115; 02 R46; 03 R93). -/
def descDone (e : Env) (slot : Fin 4) (r : Run) (c : Core) : GroupEnd :=
  let w : BitVec 256 := match c.x.dRow, descStaged c r.addr with
    | some (_, w), true => w
    | _, _ => gotRow r.got false (r.addr / 32)
  let fresh := !descStaged c r.addr
  let bad := fun (code sub det : Nat) => GroupEnd.bad (insFault e r.d code sub det c)
  match descBad w with
  | some i => bad stFormat 0x12 (slotDetail slot i)
  | none => match descRange w with
    | some b => bad stBounds 0x14 (slotDetail slot (b / 4))
    | none => match (if fresh then eccBad c r.addr 32 else none) with
      | some u => bad stPoison 0x0A u
      | none => .go { r with data := bytesOf w 32, later := if dKind w = 5 then [[(false, dSrc w / 32)]] else [] }
          { c with x := { c.x with dRow := some (r.addr, w) } }

/-- DMOV with its template read: the template is checked, then the source range that its n implies, then an uncorrectable word
(04 R115; 05 R145). -/
def templateDone (e : Env) (slot : Fin 4) (r : Run) (c : Core) : GroupEnd :=
  let src := dSrc (ofBytes 256 r.data)
  let tpl := gotRow r.got false (src / 32)
  let bad := fun (code sub det : Nat) => GroupEnd.bad (insFault e r.d code sub det c)
  if !templateValid tpl then bad stFormat 0x13 (slotDetail slot 0)
  else if !inData src (32 + 2 * hN tpl) then bad stBounds 0x14 (slotDetail slot (src / 4))
  else match eccBad c src 32 with
    | some u => bad stPoison 0x0A u
    | none => .go r c

/-- What an instruction does at the end of a group whose rows have all been served: an entry is taken or written, two blocks are
zeroed, an accumulator bank is accessed unless the matrix engine has it, the last row of scales stays staged (02 R28, R34; 03
R88, R90; 04 R107; 08 R189; 09 R210). -/
def groupDone (e : Env) (acc : List Nat) (r : Run) (c : Core) : GroupEnd :=
  match r.d.ins with
  | .vqrd _ _ q => match takeRow e q c with
    | some (w, c1) => .go { r with data := r.data ++ bytesOf w 32 } c1
    | none => .wait
  | .mstgq _ q _ => match takeRow e q c with
    | some (w, c1) => .go r { c1 with stg := mwrite c1.stg (32 * (fld (scAt r.d.sc 0) 0 7 + r.k)) (bytesOf w 32) }
    | none => .wait
  | .vqwr _ _ q first last =>
    if !oqFree e.now q c then .wait
    else if r.k = 0 then .go r (oqPush e.now q ⟨ofBytes 256 (r.data.take 32), outSb c q first false⟩ c)
    else .go r (oqPush e.now q ⟨ofBytes 256 (r.data.drop 32), outSb c q false last⟩ c)
  | .mzero _ d fn =>
    let n := min 2 ((fn : Nat) + 1 - 2 * r.k)
    .go r { c with banks := mwrite c.banks (256 * ((d : Nat) + 2 * r.k)) (List.replicate (256 * n) 0) }
  | .vldb _ _ bank slot =>
    if !accFree acc c bank then .wait
    else .go { r with data := mread c.banks (512 * (bank : Nat) + 64 * (slot : Nat)) 64 } c
  | .vstb _ _ bank slot =>
    if !accFree acc c bank then .wait
    else .go r { c with banks := mwrite c.banks (512 * (bank : Nat) + 64 * (slot : Nat)) r.data }
  | .mma _ _ _ _ _ _ => .go { r with units := r.units.drop 1 } (keepScale r (actMtx (r.units.headD 0) c))
  | .mmas _ _ _ _ _ _ => .go { r with units := r.units.drop 1 } (keepScale r (actMtx (r.units.headD 0) c))
  | .dmov _ slot _ _ => if r.k = 0 then descDone e slot r c else templateDone e slot r c
  | _ => .go r c
where
  /-- The last row of scales of the group is the staged one (09 R210). -/
  keepScale (r : Run) (c : Core) : Core :=
    match (r.grp.filter Prod.fst).getLast? with
    | some p => { c with x := { c.x with wRow := some (p.2, gotRow r.got true p.2) } }
    | none => c

/-- A loaded value extended to a word (03 R69). -/
def loadExt : Instr → Nat → Word
  | .ldh _ _ _ _, v => (BitVec.ofNat 16 v).signExtend 32
  | .ldb _ _ _ _, v => (BitVec.ofNat 8 v).signExtend 32
  | _, v => BitVec.ofNat 32 v

/-- The bytes of a load, from the rows it has read (03 R69, R89). -/
def loadBytes (r : Run) : List Byte :=
  (List.range (accessLen r.d.ins)).map (fun i => byteAt (gotRow r.got false ((r.addr + i) / 32)) ((r.addr + i) % 32))

/-- A scalar register takes what a load has read (03 R69). -/
def putLoad (d : Reg) (r : Run) (c : Core) : Core := putS d (loadExt r.d.ins (natOfBytes (loadBytes r))) c

/-- The end of an instruction whose groups are all done: its result (03 R69, R88; 04 R99, R112; 08 R200). -/
def runDone (e : Env) (r : Run) (c : Core) : Core :=
  match r.d.ins with
  | .ldw _ d _ _ => putLoad d r c
  | .ldh _ d _ _ => putLoad d r c
  | .ldhu _ d _ _ => putLoad d r c
  | .ldb _ d _ _ => putLoad d r c
  | .ldbu _ d _ _ => putLoad d r c
  | .vld _ d _ _ => putV d (vOfBytes (loadBytes r)) c
  | .vldb _ d _ _ => putV d (vOfBytes r.data) c
  | .vqrd _ d _ => putV d (vOfBytes r.data) c
  | .mma _ d _ _ f rm => mmaFinish f rm d r.d.sc r.addr r.got c
  | .mmas _ d _ _ f rm => mmasFinish f rm d r.d.sc r.addr r.got c
  | .dmov _ slot _ _ =>
    let w : BitVec 256 := ofBytes 256 r.data
    { c with
      dma := c.dma.set slot (slotImage w r.d.pc r.d.long)
      x := { c.x with
        slotAt := c.x.slotAt.set slot (e.now + (if r.k = 0 then 2 else 1))
        slotSeq := c.x.slotSeq.set slot (r.d.seq + 1)
        slotN := c.x.slotN.set slot (if dKind w = 5 then hN (gotRow r.got false (dSrc w / 32)) else 0)
        slotFin := c.x.slotFin.set slot false
        copied := c.x.copied.set slot none
        stgLeft := c.x.stgLeft.set slot []
        tout := c.x.tout.set slot .none } }
  | _ => c

/-- An instruction that has not ended is kept among those in progress. -/
def holdRun (r : Run) (c : Core) : Core := { c with x := { c.x with runs := c.x.runs ++ [r] } }

/-- A group of requests, none of them refused yet. -/
def askRows (g : List (Bool × Nat)) : List RowReq := g.map (fun p => ⟨p.1, p.2, 0⟩)

/-- One step of an instruction in progress: the banks serve what they can of its group; with the group complete it goes on to
the next, asked for in the next step, or ends (02 R31; 04 R96). l and acc are the requests and the accumulator banks it competes
with. -/
def stepRun (e : Env) (l : List Ask) (acc : List Nat) (r0 : Run) (c0 : Core) : Core :=
  match serveRows e l r0.rows { r0 with rows := [] } c0 with
  | (_, c, false) => c
  | (r, c, true) =>
    if r.rows.isEmpty then
      match groupDone e acc r c with
      | .wait => holdRun r c
      | .bad c1 => c1
      | .go r1 c1 =>
        let c2 := { c1 with x := { c1.x with accUsed := accBanks r1.d r1.k ++ c1.x.accUsed } }
        match r1.later with
        | [] => runDone e r1 c2
        | g :: t => holdRun { r1 with k := r1.k + 1, next := e.now + 1, grp := g, rows := askRows g, later := t } c2
    else holdRun r c

/-- The bytes that an instruction takes along as it begins: what it stores or sends (03 R69, R88). -/
def takenBytes (c : Core) (i : Instr) : List Byte :=
  match i with
  | .stw _ d _ _ => bytesOf c.s[d] 4
  | .sth _ d _ _ => bytesOf c.s[d] 2
  | .stb _ d _ _ => bytesOf c.s[d] 1
  | .vst _ d _ _ => vBytes c.v[d]
  | .vstb _ d _ _ => vBytes c.v[d]
  | .vqwr _ a _ _ _ => vBytes c.v[a]
  | _ => []

/-- What each step of MMA or MMAS adds to ACT_MTX (02 R49; 08 R201). -/
def actUnits (c : Core) (d : Disp) : List Nat :=
  match d.ins with
  | .mma _ _ _ _ f _ => (mmaSteps (shapeOf (scAt d.sc 1) (scAt d.sc 2))).map (fun _ => macUnits f)
  | .mmas _ _ _ _ f _ =>
    let sh := shapeOf (scAt d.sc 1) (scAt d.sc 2)
    (mmasSteps (mmasSet sh c) (sh.m * sh.k)).map (fun es => ceilDiv (es.length * mmaCols f) 128)
  | _ => []

/-- The row of scales already staged, for an instruction that may use it (09 R210). -/
def stagedGot (c : Core) : List (Bool × Nat × Row) :=
  match c.x.wRow with
  | some (row, w) => [(true, row, w)]
  | none => []

/-- An instruction as it begins, with its first group of requests. -/
def newRun (e : Env) (eng : Engine) (d : Disp) (c : Core) : Run :=
  let gs := groupsOf c d
  { d := d, eng := eng, addr := memAddr c d, data := takenBytes c d.ins, k := 0, next := e.now, grp := gs.headD [],
    rows := askRows (gs.headD []), later := gs.drop 1, got := stagedGot c, units := actUnits c d }

/-- Begins an instruction that accesses SRAM, a queue or an accumulator bank, or works for several steps: what it checks first,
then its first step (03 R62, R69, R93; 04 R96). -/
def runIns (e : Env) (eng : Engine) (occ lat : Nat) (d : Disp) (c : Core) : Core :=
  match beginFault e d c with
  | some (code, sub, det) => insFault e d code sub det c
  | none =>
    let c1 := beginIns e eng d occ lat c
    stepRun e (asksNow e c1) (accAsks e c1) (newRun e eng d c) c1

/-- Begins instruction i, if it may begin in this step, as one that accesses SRAM, a queue or an accumulator bank or works for
several steps (03 R62). -/
def runDo (eng : Engine) (i : Instr) (occ lat : Nat) (e : Env) (c : Core) : Core :=
  match ready e eng i c with
  | none => c
  | some d => runIns e eng occ lat d c

-- The end of a step ----------------------------------------------------------------------------------------------

/-- An instruction that has lost step t completes one step later; one of the matrix engine occupies it one step longer (03 R62;
04 R96). -/
def lostStep (r : Run) (c : Core) : Core :=
  let again := fun (q : RowReq) => (userOf r.eng).isDma && c.x.served.any (fun s => s.1.isDma && decide (s.2 = bankOf q.row))
  { c with x := { c.x with
      begun := c.x.begun.map (fun b => if b.seq = r.d.seq then { b with due := b.due + 1 } else b)
      busy := if r.eng = .matrix then c.x.busy.set 2 (c.x.busy[2] + 1) else c.x.busy
      runs := c.x.runs.map (fun x => if x.d.seq = r.d.seq then { x with rows := x.rows.map (fun q => { q with n := if again q then 0 else q.n + 1 }) } else x) } }

/-- The order in which the instructions in progress meet the banks at the end of a step; those that access accumulator banks
come last (02 R31, R34). -/
def runBefore (l : List Ask) (a b : Run) : Bool :=
  let first := fun (r : Run) => r.rows.map (fun q => (⟨userOf r.eng, r.d.seq, q.row, q.n, r.next⟩ : Ask))
  match first a, first b with
  | x :: _, y :: _ => !goesBefore l y x
  | _ :: _, [] => true
  | [], _ :: _ => false
  | [], [] => decide ((userOf b.eng).rank ≤ (userOf a.eng).rank)

/-- A list in an order, by insertion. -/
def insertBy {α : Type} (le : α → α → Bool) (a : α) : List α → List α
  | [] => [a]
  | b :: t => if le a b then a :: b :: t else b :: insertBy le a t

/-- A list sorted by an order, stable. -/
def sortBy {α : Type} (le : α → α → Bool) (l : List α) : List α := l.foldr (insertBy le) []

/-- The instructions in progress at the end of a step: the banks serve those of their rows that have waited or are newly due,
in the order of R31, and each that has not got on loses the step (02 R31; 04 R96). -/
def runsEnd (e : Env) (c : Core) : Core :=
  let l := heldAsks e.now c
  let acc := accRuns e.now c
  let due := c.x.runs.filter (fun r => decide (r.next ≤ e.now))
  let rest := c.x.runs.filter (fun r => !decide (r.next ≤ e.now))
  let c1 := (sortBy (runBefore l) due).foldl (fun c r => stepRun e l acc r c) { c with x := { c.x with runs := rest } }
  (c1.x.runs.filter (fun r => decide (r.next ≤ e.now))).foldl (fun c r => lostStep r c) c1

/-- Whether a row that a DMA slot had requested by step t still stands unserved (09 R211). -/
def rowsSince (t : Nat) (c : Core) : Bool := c.x.refused.any (fun a => decide (a.user = .dma) && decide (a.since ≤ t))

/-- A REL or SYNC.ALL in progress completes in the first step at whose end its engine has completed every earlier instruction
and, for REL.D and SYNC.ALL, every row is performed that a busy slot had requested when it began (09 R211, R213). -/
def relEnd (now : Nat) (c : Core) : Core :=
  let open_ := fun (b : Begun) => match b.ins with
    | .rel _ eng => c.x.begun.any (fun a => decide (a.eng = eng) && decide (a.seq < b.seq) && decide (now + 1 < a.due)) ||
        (decide (eng = .dma) && rowsSince b.at_ c)
    | .syncAll _ => rowsSince b.at_ c
    | _ => false
  { c with x := { c.x with begun := c.x.begun.map (fun b =>
      if decide (now < b.due) && open_ b then { b with due := max b.due (now + 2) } else b) } }

/-- The requests of fetch and of DMA slots that still stand at the end of a step, each refused once more; for the DMA engine, as
one requester, the refusals at a bank count anew once the bank has served it (02 R31; 04 R116). A request that is no longer
made falls away. -/
def asksEnd (e : Env) (c : Core) : Core :=
  let stands := fun (a : Ask) =>
    if a.user = .fetch then decide (fetchRowOf e c = some a.row)
    else decide (dKind c.dma[Fin.ofNat 4 a.tag] ≠ 0) && decide (slotRow e (Fin.ofNat 4 a.tag) c = some a.row)
  let dmaGot := fun (a : Ask) => a.user.isDma && c.x.served.any (fun s => s.1.isDma && decide (s.2 = bankOf a.row))
  { c with x := { c.x with
      refused := (c.x.refused.filter stands).map (fun a => { a with n := if dmaGot a then 0 else a.n + 1 })
      served := []
      accUsed := [] } }

end Sys2Proof.Machine
end

