-- ==== Sys2Proof/Machine/Scalar.lean ====
section
/-! DEFINITION. The scalar engine: the ALU group, immediates, comparisons, loads and stores, branches, QRD and the control
registers (03 R65 to R72). -/

namespace Sys2Proof.Machine

/-- Begins scalar instruction i with an occupancy and a latency, if it may begin, and applies its effect. -/
def scalarDo (i : Instr) (occ lat : Nat) (f : Disp → Core → Core) (e : Env) (c : Core) : Core :=
  match ready e .scalar i c with
  | none => c
  | some d => f d (beginIns e .scalar d occ lat c)

/-- A scalar result of two registers (03 R65). -/
def alu (i : Instr) (d a b : Reg) (occ lat : Nat) (op : Word → Word → Word) : Env → Core → Core :=
  scalarDo i occ lat (fun _ c => putS d (op c.s[a] c.s[b]) c)

/-- A scalar result of one register and an immediate (03 R67). -/
def aluImm (i : Instr) (d a : Reg) (op : Word → Word) : Env → Core → Core :=
  scalarDo i 1 1 (fun _ c => putS d (op c.s[a]) c)

/-- Unsigned quotient: by zero, all ones (03 R66). -/
def divU (a b : Word) : Word := if b = 0 then 0xFFFFFFFF#32 else a / b
/-- Unsigned remainder: by zero, A (03 R66). -/
def remU (a b : Word) : Word := if b = 0 then a else a % b
/-- Signed quotient, truncated: by zero, all ones; the most negative number by -1, itself (03 R66). -/
def divS (a b : Word) : Word := if b = 0 then 0xFFFFFFFF#32 else a.sdiv b
/-- Signed remainder, with the sign of A: by zero, A (03 R66). -/
def remS (a b : Word) : Word := if b = 0 then a else a.srem b

/-- ADD (03 R65). -/
def execAdd (g : Nat) (d a b : Reg) (s : State) : Out := onCore g s (alu (.add g d a b) d a b 1 1 (· + ·))
/-- SUB (03 R65). -/
def execSub (g : Nat) (d a b : Reg) (s : State) : Out := onCore g s (alu (.sub g d a b) d a b 1 1 (· - ·))
/-- AND (03 R65). -/
def execAnd (g : Nat) (d a b : Reg) (s : State) : Out := onCore g s (alu (.and g d a b) d a b 1 1 (· &&& ·))
/-- OR (03 R65). -/
def execOr (g : Nat) (d a b : Reg) (s : State) : Out := onCore g s (alu (.or g d a b) d a b 1 1 (· ||| ·))
/-- XOR (03 R65). -/
def execXor (g : Nat) (d a b : Reg) (s : State) : Out := onCore g s (alu (.xor g d a b) d a b 1 1 (· ^^^ ·))
/-- SHL by B[4:0] (03 R65). -/
def execShl (g : Nat) (d a b : Reg) (s : State) : Out :=
  onCore g s (alu (.shl g d a b) d a b 1 1 (fun x y => x <<< fld y 0 5))
/-- SHR by B[4:0] (03 R65). -/
def execShr (g : Nat) (d a b : Reg) (s : State) : Out :=
  onCore g s (alu (.shr g d a b) d a b 1 1 (fun x y => x >>> fld y 0 5))
/-- SRA by B[4:0] (03 R65). -/
def execSra (g : Nat) (d a b : Reg) (s : State) : Out :=
  onCore g s (alu (.sra g d a b) d a b 1 1 (fun x y => x.sshiftRight (fld y 0 5)))
/-- MUL, latency 2 (03 R65). -/
def execMul (g : Nat) (d a b : Reg) (s : State) : Out := onCore g s (alu (.mul g d a b) d a b 1 2 (· * ·))
/-- MULHU: bits [63:32] of the unsigned product (03 R65). -/
def execMulhu (g : Nat) (d a b : Reg) (s : State) : Out :=
  onCore g s (alu (.mulhu g d a b) d a b 1 2 (fun x y => BitVec.ofNat 32 (x.toNat * y.toNat / 2 ^ 32)))
/-- MULHS: bits [63:32] of the signed product (03 R65). -/
def execMulhs (g : Nat) (d a b : Reg) (s : State) : Out :=
  onCore g s (alu (.mulhs g d a b) d a b 1 2 (fun x y => BitVec.ofInt 32 (x.toInt * y.toInt / 2 ^ 32)))
/-- MIN, signed (03 R65). -/
def execMin (g : Nat) (d a b : Reg) (s : State) : Out :=
  onCore g s (alu (.min g d a b) d a b 1 1 (fun x y => if x.slt y then x else y))
/-- MAX, signed (03 R65). -/
def execMax (g : Nat) (d a b : Reg) (s : State) : Out :=
  onCore g s (alu (.max g d a b) d a b 1 1 (fun x y => if x.slt y then y else x))
/-- MINU (03 R65). -/
def execMinu (g : Nat) (d a b : Reg) (s : State) : Out :=
  onCore g s (alu (.minu g d a b) d a b 1 1 (fun x y => if x.ult y then x else y))
/-- MAXU (03 R65). -/
def execMaxu (g : Nat) (d a b : Reg) (s : State) : Out :=
  onCore g s (alu (.maxu g d a b) d a b 1 1 (fun x y => if x.ult y then y else x))
/-- DIVU: the divider occupies the engine for its 18 steps (03 R66). -/
def execDivu (g : Nat) (d a b : Reg) (s : State) : Out := onCore g s (alu (.divu g d a b) d a b 18 18 divU)
/-- REMU (03 R66). -/
def execRemu (g : Nat) (d a b : Reg) (s : State) : Out := onCore g s (alu (.remu g d a b) d a b 18 18 remU)
/-- DIVS (03 R66). -/
def execDivs (g : Nat) (d a b : Reg) (s : State) : Out := onCore g s (alu (.divs g d a b) d a b 18 18 divS)
/-- REMS (03 R66). -/
def execRems (g : Nat) (d a b : Reg) (s : State) : Out := onCore g s (alu (.rems g d a b) d a b 18 18 remS)

/-- ADDI (03 R67). -/
def execAddi (g : Nat) (d a : Reg) (imm : Word) (s : State) : Out := onCore g s (aluImm (.addi g d a imm) d a (· + imm))
/-- ANDI (03 R67). -/
def execAndi (g : Nat) (d a : Reg) (imm : Word) (s : State) : Out := onCore g s (aluImm (.andi g d a imm) d a (· &&& imm))
/-- ORI (03 R67). -/
def execOri (g : Nat) (d a : Reg) (imm : Word) (s : State) : Out := onCore g s (aluImm (.ori g d a imm) d a (· ||| imm))
/-- XORI (03 R67). -/
def execXori (g : Nat) (d a : Reg) (imm : Word) (s : State) : Out := onCore g s (aluImm (.xori g d a imm) d a (· ^^^ imm))
/-- SHLI (03 R67). -/
def execShli (g : Nat) (d a : Reg) (amt : Fin 32) (s : State) : Out :=
  onCore g s (aluImm (.shli g d a amt) d a (· <<< (amt : Nat)))
/-- SHRI (03 R67). -/
def execShri (g : Nat) (d a : Reg) (amt : Fin 32) (s : State) : Out :=
  onCore g s (aluImm (.shri g d a amt) d a (· >>> (amt : Nat)))
/-- SRAI (03 R67). -/
def execSrai (g : Nat) (d a : Reg) (amt : Fin 32) (s : State) : Out :=
  onCore g s (aluImm (.srai g d a amt) d a (fun x => x.sshiftRight amt))
/-- LI (03 R67). -/
def execLi (g : Nat) (d : Reg) (imm : Word) (s : State) : Out :=
  onCore g s (scalarDo (.li g d imm) 1 1 (fun _ c => putS d imm c))

/-- CMP (03 R68). -/
def execCmp (g : Nat) (p : Pred) (a b : Reg) (k : Cond) (s : State) : Out :=
  onCore g s (scalarDo (.cmp g p a b k) 1 1 (fun _ c => putP p (condHolds k c.s[a] c.s[b]) c))
/-- CMPI (03 R68). -/
def execCmpi (g : Nat) (p : Pred) (a : Reg) (k : Cond) (imm : Word) (s : State) : Out :=
  onCore g s (scalarDo (.cmpi g p a k imm) 1 1 (fun _ c => putP p (condHolds k c.s[a] imm) c))
/-- PLOG (03 R68). -/
def execPlog (g : Nat) (p a b : Pred) (op : PlogOp) (s : State) : Out :=
  onCore g s (scalarDo (.plog g p a b op) 1 1 (fun _ c => putP p (plogOf op (predGet c.p a) (predGet c.p b)) c))

/-- LDW (03 R69). -/
def execLdw (g : Nat) (d a : Reg) (imm : Word) (s : State) : Out := onCore g s (runDo .scalar (.ldw g d a imm) 1 2)
/-- LDH, sign-extended (03 R69). -/
def execLdh (g : Nat) (d a : Reg) (imm : Word) (s : State) : Out := onCore g s (runDo .scalar (.ldh g d a imm) 1 2)
/-- LDHU, zero-extended (03 R69). -/
def execLdhu (g : Nat) (d a : Reg) (imm : Word) (s : State) : Out := onCore g s (runDo .scalar (.ldhu g d a imm) 1 2)
/-- LDB, sign-extended (03 R69). -/
def execLdb (g : Nat) (d a : Reg) (imm : Word) (s : State) : Out := onCore g s (runDo .scalar (.ldb g d a imm) 1 2)
/-- LDBU, zero-extended (03 R69). -/
def execLdbu (g : Nat) (d a : Reg) (imm : Word) (s : State) : Out := onCore g s (runDo .scalar (.ldbu g d a imm) 1 2)
/-- STW (03 R69). -/
def execStw (g : Nat) (d a : Reg) (imm : Word) (s : State) : Out := onCore g s (runDo .scalar (.stw g d a imm) 1 1)
/-- STH (03 R69). -/
def execSth (g : Nat) (d a : Reg) (imm : Word) (s : State) : Out := onCore g s (runDo .scalar (.sth g d a imm) 1 1)
/-- STB (03 R69). -/
def execStb (g : Nat) (d a : Reg) (imm : Word) (s : State) : Out := onCore g s (runDo .scalar (.stb g d a imm) 1 1)

/-- Fetch goes on at an address from the next step; a taken branch to another row drops the fetch buffer, and the row of its
target takes a step of its own (03 R63; 09 Table 9-1). A pending halt request keeps fetch stopped (02 R41). -/
def redirect (e : Env) (pc : Nat) (c : Core) : Core :=
  { c with
    pc := pc
    x := { c.x with
      fetch := if c.x.haltReq then .stopped else .going
      fetchAt := e.now + 1
      far := (bufWord c pc).isNone
      fbuf := match c.x.fbuf with
        | some (r, w) => if r = pc / 32 then some (r, w) else none
        | none => none } }

/-- A branch or jump to target t: BOUNDS, SUB 0x07, outside the code window or not a multiple of 4; the link register takes
ret (03 R70). -/
def branchTo (e : Env) (d : Disp) (t : Word) (link : Option Reg) (c : Core) : Core :=
  if 0x4000 ≤ t.toNat ∨ t.toNat % 4 ≠ 0 then insFault e d stBounds 0x07 (t.toNat % 65536) c
  else
    let c' := redirect e t.toNat (beginIns e .scalar d 1 1 c)
    match link with
    | some r => putS r (BitVec.ofNat 32 (d.pc + 4)) c'
    | none => c'

/-- A PC-relative jump (03 R70). -/
def jumpRel (i : Instr) (off : BitVec 15) (link : Option Reg) (e : Env) (c : Core) : Core :=
  match ready e .scalar i c with
  | none => c
  | some d => branchTo e d (BitVec.ofNat 32 d.pc + 4 * off.signExtend 32) link c

/-- A jump to a register (03 R70). -/
def jumpReg (i : Instr) (a : Reg) (link : Option Reg) (e : Env) (c : Core) : Core :=
  match ready e .scalar i c with
  | none => c
  | some d => branchTo e d c.s[a] link c

/-- BR (03 R70). -/
def execBr (g : Nat) (off : BitVec 15) (s : State) : Out := onCore g s (jumpRel (.br g off) off none)
/-- BRL (03 R70). -/
def execBrl (g : Nat) (d : Reg) (off : BitVec 15) (s : State) : Out := onCore g s (jumpRel (.brl g d off) off (some d))
/-- JR (03 R70). -/
def execJr (g : Nat) (a : Reg) (s : State) : Out := onCore g s (jumpReg (.jr g a) a none)
/-- JRL (03 R70). -/
def execJrl (g : Nat) (d a : Reg) (s : State) : Out := onCore g s (jumpReg (.jrl g d a) a (some d))

/-- QRD: waits until the entry is present, reads word w of it, and removes it where FN[0] = 1 (03 R71; 02 R27). -/
def execQrd (g : Nat) (d : Reg) (q w : Fin 8) (rem : Bool) (s : State) : Out :=
  onCore g s (fun e c =>
    match ready e .scalar (.qrd g d q w rem) c with
    | none => c
    | some k =>
      let c' := putS d ((c.iq[q].ent 0).data.extractLsb' (32 * (w : Nat)) 32) (beginIns e .scalar k 1 1 c)
      if rem then takeHead e.now q c' else c')

/-- The counts of four queues as a control register: bits [4:0], [12:8], [20:16], [28:24] (02 Table 2-5). -/
def countsWord (l : List Nat) : Word :=
  BitVec.ofNat 32 (l.foldr (fun n acc => n % 32 + 256 * acc) 0)

/-- The code of a core state (02 Table 2-4). -/
def CoreSt.code : CoreSt → Nat
  | .clear => 0
  | .loaded => 1
  | .run => 2
  | .hold => 3
  | .halt => 4
  | .fault => 5
  | .defect => 6

/-- Reads a control register by its byte offset; reserved offsets and bits read 0 (02 Table 2-5, R47; 00 R9). -/
def crRead (e : Env) (c : Core) (off : Nat) : Word :=
  match off with
  | 0x00 => coreIdWord e.g
  | 0x04 => BitVec.ofNat 32 (e.lid + (lidOf e.s e.g).isSome.toNat <<< 31)
  | 0x08 => clusterIdWord e.g
  | 0x0C => BitVec.ofNat 32 (c.r.st.code + (c.r.fold : Nat) <<< 4 + c.r.epoch.toNat <<< 7 + c.r.holdSeen.toNat <<< 8)
  | 0x10 => c.r.fstat
  | 0x14 => c.r.fpc
  | 0x18 => c.r.finfo
  | 0x1C => c.r.ftc.extractLsb' 0 32
  | 0x20 => (c.r.ftc.extractLsb' 32 16).setWidth 32
  | 0x24 => e.tc.extractLsb' 0 32
  | 0x28 => c.r.tideHi.setWidth 32
  | 0x2C => c.stallW
  | 0x30 => c.seed.extractLsb' 0 32
  | 0x34 => c.seed.extractLsb' 32 32
  | 0x38 => c.guard &&& 0x0000FF0F#32
  | 0x3C => c.r.actMtx
  | 0x40 => c.r.actVec
  | 0x44 => c.r.actSram
  | 0x48 => c.r.actFlit
  | 0x4C => countsWord ((c.iq.toList.take 4).map Queue.count)
  | 0x50 => countsWord ((c.iq.toList.drop 4).map Queue.count)
  | 0x54 => countsWord (c.oq.toList.map Queue.count)
  | 0x58 => c.flags.extractLsb' 0 32
  | 0x5C => c.flags.extractLsb' 32 32
  | 0x60 => BitVec.ofNat 32 ((List.finRange 4).foldr (fun k n => (decide (dKind c.dma[k] ≠ 0)).toNat + 2 * n) 0)
  | 0x64 => c.r.sramCe.setWidth 32
  | _ => 0

/-- CRR: a read of TIDE_LO captures TIDE_HI (03 R72; 02 R48). -/
def execCrr (g : Nat) (d : Reg) (off : Byte) (s : State) : Out :=
  onCore g s (fun e => scalarDo (.crr g d off) 1 1 (fun _ c =>
    let c' := putS d (crRead e c off.toNat) c
    if off = 0x24#8 then { c' with r := { c'.r with tideHi := e.tc.extractLsb' 32 16 } } else c') e)

/-- CRW: STALL_W is the one register a program changes (03 R72; 02 R47). -/
def execCrw (g : Nat) (a : Reg) (off : Byte) (s : State) : Out :=
  onCore g s (scalarDo (.crw g a off) 1 1 (fun _ c => if off = 0x2C#8 then { c with stallW := c.s[a] } else c))

end Sys2Proof.Machine
end

