-- ==== Sys2Proof/Machine/Special.lean ====
section
/-! DEFINITION. The correctly rounded special functions of the vector engine (03 R83, R84). Each computes an exact value
where the function's value is a number of finite binary length, and otherwise a value cut to 128 bits or more with a
sticky bit below it, which rounds to nearest even as the exact value does (assumption log 10). -/

namespace Sys2Proof.Machine

/-- Fraction bits of the fixed-point work. -/
def spP : Nat := 160

/-- ln 2 in units of 2^-160. -/
def ln2Fix : Nat := 0xB17217F7D1CF79ABC9E3B39803F2F6AF40F34326
/-- log2 e in units of 2^-160. -/
def log2eFix : Nat := 0x171547652B82FE1777D0FFDA0D23A7D11D6AEF551

/-- The sum of z^k / k! from the k-th term on, in units of 2^-160. -/
def expSeries : Nat → Nat → Nat → Nat → Nat
  | 0, _, _, _ => 0
  | fuel + 1, k, term, z => term + expSeries fuel (k + 1) ((term * z) >>> spP / (k + 1)) z

/-- 2^f for a fraction f in units of 2^-160. -/
def exp2Frac (f : Nat) : Nat := expSeries 48 0 (2 ^ spP) ((f * ln2Fix) >>> spP)

/-- The sum of the odd powers of u over their exponents, in units of 2^-160. -/
def atanhSeries : Nat → Nat → Nat → Nat → Nat
  | 0, _, _, _ => 0
  | fuel + 1, k, p, u2 => p / k + atanhSeries fuel (k + 2) ((p * u2) >>> spP) u2

/-- The integer square root by binary digits: the bits still to try, the value, the root so far. -/
def isqrtGo : Nat → Nat → Nat → Nat
  | 0, _, r => r
  | b + 1, n, r =>
    let r' := r + 2 ^ b
    if r' * r' ≤ n then isqrtGo b n r' else isqrtGo b n r

/-- The integer square root. -/
def isqrt (n : Nat) : Nat := isqrtGo (Nat.log2 n / 2 + 1) n 0

/-- A value cut to num x 2^exp with a positive remainder below it. -/
def sticky (neg : Bool) (num : Nat) (exp : Int) : FVal := .fin neg (2 * num + 1) (exp - 1)

/-- A quotient a / b times 2^exp, cut with a sticky bit where it is not exact; k more quotient bits are kept. -/
def quotient (neg : Bool) (a b k : Nat) (exp : Int) : FVal :=
  let n := a <<< k
  if n % b = 0 then .fin neg (n / b) (exp - k) else sticky neg (n / b) (exp - k)

/-- A signed fixed-point number of mag x 2^exp, in units of 2^-160, rounded down. -/
def toFix (neg : Bool) (mag : Nat) (exp : Int) : Int :=
  let e := exp + spP
  let m : Int := if neg then -(mag : Int) else (mag : Int)
  if 0 ≤ e then m * 2 ^ e.toNat else m / 2 ^ (-e).toNat

/-- 2^y for y in units of 2^-160, as a mantissa in units of 2^-160 and an exponent. -/
def exp2Fix (y : Int) : Nat × Int :=
  let n := y / 2 ^ spP
  (exp2Frac (y - n * 2 ^ spP).toNat, n)

/-- Whether |mag x 2^exp| is at least 2^k. -/
def atLeast (mag : Nat) (exp : Int) (k : Int) : Bool := mag ≠ 0 && decide (k ≤ exp + (Nat.log2 mag : Int))

/-- 2^A (03 R84). -/
def spExp2 : FVal → FVal
  | .nan => .nan
  | .inf neg => if neg then .fin false 0 0 else .inf false
  | .fin neg mag exp =>
    if mag = 0 then .fin false 1 0
    else if atLeast mag exp 10 then (if neg then .fin false 1 (-4096) else .fin false 1 4096)
    else
      let y := toFix neg mag exp
      if decide (-(spP : Int) ≤ exp) && decide (y % 2 ^ spP = 0) then .fin false 1 (y / 2 ^ spP)
      else
        let r := exp2Fix y
        sticky false r.1 (r.2 - spP)

/-- e^A (03 R84). -/
def spExp : FVal → FVal
  | .nan => .nan
  | .inf neg => if neg then .fin false 0 0 else .inf false
  | .fin neg mag exp =>
    if mag = 0 then .fin false 1 0
    else if atLeast mag exp 10 then (if neg then .fin false 1 (-4096) else .fin false 1 4096)
    else
      let r := exp2Fix (toFix neg (mag * log2eFix) (exp - spP))
      sticky false r.1 (r.2 - spP)

/-- log2 A (03 R84). -/
def spLog2 : FVal → FVal
  | .nan => .nan
  | .inf neg => if neg then .nan else .inf false
  | .fin neg mag exp =>
    if mag = 0 then .inf true
    else if neg then .nan
    else
      let b := Nat.log2 mag
      let n : Int := exp + b
      if mag = 2 ^ b then ofInt n
      else
        let u := ((mag - 2 ^ b) <<< spP) / (mag + 2 ^ b)
        let l := (2 * atanhSeries 64 1 u ((u * u) >>> spP) * log2eFix) >>> spP
        let t : Int := n * 2 ^ spP + l
        sticky (t < 0) (if t < 0 then (-t).toNat - 1 else t.toNat) (-(spP : Int))

/-- 1 / A (03 R84). -/
def spRcp : FVal → FVal
  | .nan => .nan
  | .inf neg => .fin neg 0 0
  | .fin neg mag exp => if mag = 0 then .inf neg else quotient neg 1 mag (Nat.log2 mag + 64) (-exp)

/-- The mantissa and exponent with the exponent made even. -/
def evenExp (mag : Nat) (exp : Int) : Nat × Int := if exp % 2 = 0 then (mag, exp) else (2 * mag, exp - 1)

/-- The square root (03 R84). -/
def spSqrt : FVal → FVal
  | .nan => .nan
  | .inf neg => if neg then .nan else .inf false
  | .fin neg mag exp =>
    if mag = 0 then .fin neg 0 0
    else if neg then .nan
    else
      let (m, e) := evenExp mag exp
      let n := m <<< 128
      let r := isqrt n
      if r * r = n then .fin false r (e / 2 - 64) else sticky false r (e / 2 - 64)

/-- 1 over the square root (03 R84). -/
def spRsqrt : FVal → FVal
  | .nan => .nan
  | .inf neg => if neg then .nan else .fin false 0 0
  | .fin neg mag exp =>
    if mag = 0 then .inf neg
    else if neg then .nan
    else
      let (m, e) := evenExp mag exp
      let n := 2 ^ 256 / m
      let r := isqrt n
      if r * r * m = 2 ^ 256 then .fin false r (-(e / 2) - 128) else sticky false r (-(e / 2) - 128)

/-- e^-|A| in units of 2^-160 with an exponent that is at most 0, for |A| below 1,024. -/
def expNeg (mag : Nat) (exp : Int) : Nat × Int := exp2Fix (toFix true (mag * log2eFix) (exp - spP))

/-- tanh A (03 R84): the argument itself, cut below, where its cube cannot be seen. -/
def spTanh : FVal → FVal
  | .nan => .nan
  | .inf neg => .fin neg 1 0
  | .fin neg mag exp =>
    if mag = 0 then .fin neg 0 0
    else if !atLeast mag exp (-12) then .fin neg (mag * 2 ^ 40 - 1) (exp - 40)
    else if atLeast mag exp 6 then .fin neg (2 ^ 200 - 1) (-200)
    else
      let w := expNeg (2 * mag) exp
      let d := 2 ^ (spP + (-w.2).toNat)
      quotient neg (d - w.1) (d + w.1) 200 0

/-- The logistic sigmoid of A (03 R84). -/
def spSigm : FVal → FVal
  | .nan => .nan
  | .inf neg => if neg then .fin false 0 0 else .fin false 1 0
  | .fin neg mag exp =>
    if mag = 0 then .fin false 1 (-1)
    else if atLeast mag exp 9 then (if neg then .fin false 1 (-400) else .fin false (2 ^ 200 - 1) (-200))
    else
      let w := expNeg mag exp
      let d := 2 ^ (spP + (-w.2).toNat)
      quotient false (if neg then w.1 else d) (d + w.1) 1000 0

end Sys2Proof.Machine
end

