-- ==== Sys2Proof/Machine/Vector.lean ====
section
/-! DEFINITION. The vector engine (03 R78 to R90). -/

namespace Sys2Proof.Machine

/-- Begins vector instruction i, counted in ACT_VEC, and applies its effect (02 R49). -/
def vecDo (i : Instr) (occ lat : Nat) (f : Disp → Core → Core) (e : Env) (c : Core) : Core :=
  match ready e .vector i c with
  | none => c
  | some d =>
    let c' := beginIns e .vector d occ lat c
    f d { c' with r := { c'.r with actVec := c'.r.actVec + 1 } }

/-- An exact lane result rounded into a float lane, with whether it sets OVF_LOCAL (03 R81). -/
def laneRound (ff : FloatFmt) (rm : RMode) (ops : List FVal) (v : FVal) : Lane × Bool :=
  let code := roundTo ff rm v
  (BitVec.ofNat 16 code, ovfOf ops (decodeFloat ff code))

/-- Writes a vector result lane by lane, and OVF_LOCAL where a lane sets it (03 R81). -/
def putLanes (d : Reg) (f : Fin 32 → Lane × Bool) (c : Core) : Core :=
  orOvf ((List.finRange 32).any (fun k => (f k).2)) (putV d (Vector.ofFn (fun k => (f k).1)) c)

/-- A lane-wise arithmetic instruction: an exact float operation rounded once, or an integer operation (03 R82). -/
def arith (i : Instr) (d a b : Reg) (vf : LaneFmt) (rm : Rounding) (fop : FVal → FVal → FVal → FVal)
    (ops : FVal → FVal → FVal → List FVal) (iop : Lane → Lane → Lane → Lane) : Env → Core → Core :=
  vecDo i 1 3 (fun k c => putLanes d (fun j =>
    let x := c.v[a][j]
    let y := c.v[b][j]
    let z := c.v[d][j]
    match vf.float with
    | none => (iop x y z, false)
    | some ff =>
      let vx := vf.value x
      let vy := vf.value y
      let vz := vf.value z
      laneRound ff (roundMode rm c.seed k.sc 32 j vf.code) (ops vx vy vz) (fop vx vy vz)) c)

/-- VADD (03 R82). -/
def execVadd (g : Nat) (d a b : Reg) (vf : LaneFmt) (rm : Rounding) (s : State) : Out :=
  onCore g s (arith (.vadd g d a b vf rm) d a b vf rm (fun x y _ => sumF [x, y]) (fun x y _ => [x, y]) (fun x y _ => x + y))
/-- VSUB (03 R82). -/
def execVsub (g : Nat) (d a b : Reg) (vf : LaneFmt) (rm : Rounding) (s : State) : Out :=
  onCore g s (arith (.vsub g d a b vf rm) d a b vf rm (fun x y _ => sumF [x, y.negate]) (fun x y _ => [x, y])
    (fun x y _ => x - y))
/-- VMUL; I16 keeps bits [15:0] (03 R82). -/
def execVmul (g : Nat) (d a b : Reg) (vf : LaneFmt) (rm : Rounding) (s : State) : Out :=
  onCore g s (arith (.vmul g d a b vf rm) d a b vf rm (fun x y _ => x.mul y) (fun x y _ => [x, y]) (fun x y _ => x * y))
/-- VFMA: D + A x B, rounded once (03 R82). -/
def execVfma (g : Nat) (d a b : Reg) (vf : LaneFmt) (rm : Rounding) (s : State) : Out :=
  onCore g s (arith (.vfma g d a b vf rm) d a b vf rm (fun x y z => sumF [z, x.mul y]) (fun x y z => [x, y, z])
    (fun x y z => z + x * y))

/-- The canonical NaN of a lane format (05 R127). -/
def laneNan (vf : LaneFmt) : Lane := match vf.float with | some ff => BitVec.ofNat 16 ff.nan | none => 0

/-- IEEE 754-2019 minimum or maximum of two lanes; signed for I16 (03 R82). -/
def minMax (vf : LaneFmt) (mx : Bool) (x y : Lane) : Lane :=
  match vf with
  | .i16 => if (x.slt y) != mx then x else y
  | _ =>
    if (vf.value x).isNan || (vf.value y).isNan then laneNan vf
    else if decide (totalKey x < totalKey y) != mx then x else y

/-- A lane-wise instruction that does not round. -/
def lanewise (i : Instr) (lat : Nat) (d a b : Reg) (f : Lane → Lane → Lane → Lane) : Env → Core → Core :=
  vecDo i 1 lat (fun _ c => putV d (Vector.ofFn (fun j : Fin 32 => f c.v[a][j] c.v[b][j] c.v[d][j])) c)

/-- VMIN (03 R82). -/
def execVmin (g : Nat) (d a b : Reg) (vf : LaneFmt) (s : State) : Out :=
  onCore g s (lanewise (.vmin g d a b vf) 3 d a b (fun x y _ => minMax vf false x y))
/-- VMAX (03 R82). -/
def execVmax (g : Nat) (d a b : Reg) (vf : LaneFmt) (s : State) : Out :=
  onCore g s (lanewise (.vmax g d a b vf) 3 d a b (fun x y _ => minMax vf true x y))
/-- VCMP: all ones where the condition holds, else zero (03 R82). -/
def execVcmp (g : Nat) (d a b : Reg) (vf : LaneFmt) (k : VCond) (s : State) : Out :=
  onCore g s (lanewise (.vcmp g d a b vf k) 1 d a b (fun x y _ => if vcondHolds vf k x y then 0xFFFF#16 else 0))
/-- VSEL: B where A is not 0x0000, else D unchanged (03 R82). -/
def execVsel (g : Nat) (d a b : Reg) (vf : LaneFmt) (s : State) : Out :=
  onCore g s (lanewise (.vsel g d a b vf) 1 d a b (fun x y z => if x ≠ 0 then y else z))
/-- VAND (03 R82). -/
def execVand (g : Nat) (d a b : Reg) (vf : LaneFmt) (s : State) : Out :=
  onCore g s (lanewise (.vand g d a b vf) 1 d a b (fun x y _ => x &&& y))
/-- VOR (03 R82). -/
def execVor (g : Nat) (d a b : Reg) (vf : LaneFmt) (s : State) : Out :=
  onCore g s (lanewise (.vor g d a b vf) 1 d a b (fun x y _ => x ||| y))
/-- VXOR (03 R82). -/
def execVxor (g : Nat) (d a b : Reg) (vf : LaneFmt) (s : State) : Out :=
  onCore g s (lanewise (.vxor g d a b vf) 1 d a b (fun x y _ => x ^^^ y))
/-- VSH of one lane: left by B, or right arithmetically by -B; 16 or more gives 0 or the sign fill (03 R82). -/
def shLane (x y : Lane) : Lane :=
  if y.msb then x.sshiftRight (min 16 (-y.toInt).toNat) else if 16 ≤ y.toNat then 0 else x <<< y.toNat
/-- VSH (03 R82). -/
def execVsh (g : Nat) (d a b : Reg) (s : State) : Out :=
  onCore g s (lanewise (.vsh g d a b) 1 d a b (fun x y _ => shLane x y))

/-- VABS: clears the sign bit; signed for I16 (03 R83). -/
def execVabs (g : Nat) (d a : Reg) (vf : LaneFmt) (s : State) : Out :=
  onCore g s (lanewise (.vabs g d a vf) 1 d a a (fun x _ _ =>
    match vf with | .i16 => if x.msb then -x else x | _ => x &&& 0x7FFF#16))
/-- VNEG: flips the sign bit; I16 wraps (03 R83). -/
def execVneg (g : Nat) (d a : Reg) (vf : LaneFmt) (s : State) : Out :=
  onCore g s (lanewise (.vneg g d a vf) 1 d a a (fun x _ _ => match vf with | .i16 => -x | _ => x ^^^ 0x8000#16))

/-- A special function: correctly rounded, latency 6, the engine occupied for 2 steps (03 R83). A lane format I16, which
decoding refuses, leaves the lanes as they are. -/
def special (i : Instr) (d a : Reg) (vf : LaneFmt) (f : FVal → FVal) : Env → Core → Core :=
  vecDo i 2 6 (fun _ c => putLanes d (fun j =>
    match vf.float with
    | none => (c.v[a][j], false)
    | some ff => laneRound ff .rne [vf.value c.v[a][j]] (f (vf.value c.v[a][j]))) c)

/-- VEXP2 (03 R83, R84). -/
def execVexp2 (g : Nat) (d a : Reg) (vf : LaneFmt) (s : State) : Out := onCore g s (special (.vexp2 g d a vf) d a vf spExp2)
/-- VEXP (03 R83, R84). -/
def execVexp (g : Nat) (d a : Reg) (vf : LaneFmt) (s : State) : Out := onCore g s (special (.vexp g d a vf) d a vf spExp)
/-- VLOG2 (03 R83, R84). -/
def execVlog2 (g : Nat) (d a : Reg) (vf : LaneFmt) (s : State) : Out := onCore g s (special (.vlog2 g d a vf) d a vf spLog2)
/-- VRCP (03 R83, R84). -/
def execVrcp (g : Nat) (d a : Reg) (vf : LaneFmt) (s : State) : Out := onCore g s (special (.vrcp g d a vf) d a vf spRcp)
/-- VSQRT (03 R83, R84). -/
def execVsqrt (g : Nat) (d a : Reg) (vf : LaneFmt) (s : State) : Out := onCore g s (special (.vsqrt g d a vf) d a vf spSqrt)
/-- VRSQRT (03 R83, R84). -/
def execVrsqrt (g : Nat) (d a : Reg) (vf : LaneFmt) (s : State) : Out :=
  onCore g s (special (.vrsqrt g d a vf) d a vf spRsqrt)
/-- VTANH (03 R83, R84). -/
def execVtanh (g : Nat) (d a : Reg) (vf : LaneFmt) (s : State) : Out := onCore g s (special (.vtanh g d a vf) d a vf spTanh)
/-- VSIGM (03 R83, R84). -/
def execVsigm (g : Nat) (d a : Reg) (vf : LaneFmt) (s : State) : Out := onCore g s (special (.vsigm g d a vf) d a vf spSigm)

/-- VRSUM: the exact sum of the lanes rounded once, in every lane; stochastic rounding takes one decision, with lane 0
(03 R85). -/
def execVrsum (g : Nat) (d a : Reg) (vf : LaneFmt) (rm : Rounding) (s : State) : Out :=
  onCore g s (vecDo (.vrsum g d a vf rm) 1 4 (fun k c =>
    let xs := c.v[a].toList
    let r : Lane × Bool := match vf.float with
      | none => (xs.foldl (· + ·) 0, false)
      | some ff => laneRound ff (roundMode rm c.seed k.sc 32 0 vf.code) (xs.map vf.value) (sumF (xs.map vf.value))
    putLanes d (fun _ => r) c))

/-- The minimum or maximum over the lanes (03 R85). -/
def reduceLanes (vf : LaneFmt) (mx : Bool) (v : VReg) : Lane := v.toList.foldl (minMax vf mx) v[0]

/-- VRMAX (03 R85). -/
def execVrmax (g : Nat) (d a : Reg) (vf : LaneFmt) (s : State) : Out :=
  onCore g s (vecDo (.vrmax g d a vf) 1 4 (fun _ c => putV d (Vector.replicate 32 (reduceLanes vf true c.v[a])) c))
/-- VRMIN (03 R85). -/
def execVrmin (g : Nat) (d a : Reg) (vf : LaneFmt) (s : State) : Out :=
  onCore g s (vecDo (.vrmin g d a vf) 1 4 (fun _ c => putV d (Vector.replicate 32 (reduceLanes vf false c.v[a])) c))

/-- A lane converted to I16: rounded to an integer, then saturated; only a saturated finite value sets OVF_LOCAL (03 R86). -/
def toI16 (rm : RMode) (v : FVal) : Lane × Bool :=
  match v with
  | .nan => (0, false)
  | .inf neg => (if neg then 0x8000#16 else 0x7FFF#16, false)
  | .fin neg m e =>
    let z := roundInt rm neg m e
    if 32767 < z then (0x7FFF#16, true) else if z < -32768 then (0x8000#16, true) else (BitVec.ofInt 16 z, false)

/-- VCVT (03 R86). -/
def execVcvt (g : Nat) (d a : Reg) (src vf : LaneFmt) (rm : Rounding) (s : State) : Out :=
  onCore g s (vecDo (.vcvt g d a src vf rm) 1 2 (fun k c => putLanes d (fun j =>
    let x := c.v[a][j]
    let m := roundMode rm c.seed k.sc 32 j vf.code
    if src = vf then (x, false)
    else match vf.float with
      | none => toI16 m (src.value x)
      | some ff => laneRound ff m [src.value x] (src.value x)) c))

/-- VUNPK: element x 2^scale, rounded to nearest even in W16 (03 R87; 05 R130). -/
def execVunpk (g : Nat) (d a b : Reg) (fmt : TileFmt) (part : Fin 4) (s : State) : Out :=
  onCore g s (fun e c =>
    match ready e .vector (.vunpk g d a b fmt part) c with
    | none => c
    | some k => match beginFault e k c with
      | some (code, sub, det) => insFault e k code sub det c
      | none =>
        vecDo (.vunpk g d a b fmt part) 1 2 (fun k c => putLanes d (fun j =>
          let v := withScale ((scAt k.sc 0).toNat % 256) (fmt.value (elemAt fmt (vBytes c.v[a]) (32 * (part : Nat) + j)))
          laneRound fmtW16 .rne [v] v) c) e c)

/-- ACT_VEC advanced by the instruction that begins (02 R49). -/
def actVec1 (c : Core) : Core := { c with r := { c.r with actVec := c.r.actVec + 1 } }

/-- Begins vector instruction i, which accesses SRAM, a queue or an accumulator bank, counted in ACT_VEC (02 R49). -/
def vecRun (i : Instr) (lat : Nat) (e : Env) (c : Core) : Core :=
  match ready e .vector i c with
  | none => c
  | some d => runIns e .vector 1 lat d (if (beginFault e d c).isNone then actVec1 c else c)

/-- VLD: 64 bytes at an aligned address (03 R88, R89). -/
def execVld (g : Nat) (d a : Reg) (imm : Word) (s : State) : Out := onCore g s (vecRun (.vld g d a imm) 2)
/-- VST (03 R88, R89). -/
def execVst (g : Nat) (d a : Reg) (imm : Word) (s : State) : Out := onCore g s (vecRun (.vst g d a imm) 1)
/-- VLDB: 64 bytes of an accumulator bank (03 R88; 02 R34). -/
def execVldb (g : Nat) (d : Reg) (bank : Fin 16) (slot : Fin 8) (s : State) : Out := onCore g s (vecRun (.vldb g d bank slot) 2)
/-- VSTB (03 R88; 02 R34). -/
def execVstb (g : Nat) (d : Reg) (bank : Fin 16) (slot : Fin 8) (s : State) : Out := onCore g s (vecRun (.vstb g d bank slot) 1)
/-- VQRD: waits until 2 entries are present and removes them, one a step: lanes 0 to 15, then lanes 16 to 31. A second entry
whose steering decision is still to come, or that is stale, holds the instruction (03 R88, R90; DESIGN CHOICE: assumption
log 97). -/
def execVqrd (g : Nat) (d : Reg) (q : Fin 8) (s : State) : Out := onCore g s (vecRun (.vqrd g d q) 2)
/-- VQWR: waits until 2 entries of room are present and writes two entries, one a step, with the tag and epoch of the active
fold (03 R88, R90; 07 R165; 08 R189). -/
def execVqwr (g : Nat) (a : Reg) (q : Fin 4) (first last : Bool) (s : State) : Out :=
  onCore g s (vecRun (.vqwr g a q first last) 2)

/-- VBCS: every lane takes S[A][15:0] (03 R88). -/
def execVbcs (g : Nat) (d a : Reg) (s : State) : Out :=
  onCore g s (vecDo (.vbcs g d a) 1 1 (fun k c => putV d (Vector.replicate 32 ((scAt k.sc 0).extractLsb' 0 16)) c))
/-- VEXT: one lane into a scalar register, zero-extended (03 R88). -/
def execVext (g : Nat) (d a : Reg) (lane : Fin 32) (s : State) : Out :=
  onCore g s (vecDo (.vext g d a lane) 1 1 (fun _ c => putS d (c.v[a][lane].setWidth 32) c))
/-- VINS: a scalar halfword into one lane (03 R88). -/
def execVins (g : Nat) (d a : Reg) (lane : Fin 32) (s : State) : Out :=
  onCore g s (vecDo (.vins g d a lane) 1 1 (fun k c => putV d (c.v[d].set lane ((scAt k.sc 0).extractLsb' 0 16)) c))
/-- VMOV (03 R88). -/
def execVmov (g : Nat) (d a : Reg) (s : State) : Out :=
  onCore g s (vecDo (.vmov g d a) 1 1 (fun _ c => putV d c.v[a] c))
/-- VIOTA: lane i takes S[A][15:0] + i modulo 2^16 (03 R88). -/
def execViota (g : Nat) (d a : Reg) (s : State) : Out :=
  onCore g s (vecDo (.viota g d a) 1 1 (fun k c =>
    putV d (Vector.ofFn (fun j : Fin 32 => (scAt k.sc 0).extractLsb' 0 16 + BitVec.ofNat 16 j)) c))

end Sys2Proof.Machine
end

