-- ==== Sys2Proof/Machine/Matrix.lean ====
section
/-! DEFINITION. The matrix engine: MMA, MMAS, staging and bank movement, and the attention instructions (04 R94 to R111;
08 R198 to R201). -/

namespace Sys2Proof.Machine

/-- MMA (04 R97 to R104). -/
def execMma (g : Nat) (d a b : Reg) (mf : TileFmt) (rm : Rounding) (s : State) : Out :=
  onCore g s (fun e c =>
    match ready e .matrix (.mma g d a b mf rm) c with
    | none => c
    | some k =>
      let occ := (mmaSteps (shapeOf (scAt k.sc 1) (scAt k.sc 2))).length
      runIns e .matrix occ (occ + 6) k c)

/-- MMAS: the bits that MMA would give, over the elements whose bitmap bit is set (04 R105, R106; 08 R198 to R201). -/
def execMmas (g : Nat) (d a b : Reg) (mf : TileFmt) (rm : Rounding) (s : State) : Out :=
  onCore g s (fun e c =>
    match ready e .matrix (.mmas g d a b mf rm) c with
    | none => c
    | some k =>
      let sh := shapeOf (scAt k.sc 1) (scAt k.sc 2)
      let occ := mmasOccupancy (mmasSet sh c) (sh.m * sh.k)
      runIns e .matrix occ (occ + 6) k c)

/-- MSTG: rows from SRAM into staging, 16 a step (04 Table 4-4). -/
def execMstg (g : Nat) (a b : Reg) (s : State) : Out :=
  onCore g s (fun e c =>
    match ready e .matrix (.mstg g a b) c with
    | none => c
    | some k =>
      let occ := ceilDiv (fld (scAt k.sc 1) 8 7 + 1) 16
      runIns e .matrix occ (occ + 1) k c)

/-- MSTGQ: queue entries into consecutive staging rows, one a step (04 Table 4-4). -/
def execMstgq (g : Nat) (q : Fin 8) (b : Reg) (s : State) : Out :=
  onCore g s (fun e c =>
    match ready e .matrix (.mstgq g q b) c with
    | none => c
    | some k =>
      let n := fld (scAt k.sc 0) 8 4 + 1
      runIns e .matrix n (n + 1) k c)

/-- The steps in which the matrix engine moves fn + 1 blocks, two a step (04 Table 4-4). -/
def blockSteps (fn : Reg) : Nat := ceilDiv ((fn : Nat) + 1) 2

/-- MZERO (04 Table 4-4). -/
def execMzero (g : Nat) (d fn : Reg) (s : State) : Out :=
  onCore g s (runDo .matrix (.mzero g d fn) (blockSteps fn) (blockSteps fn + 1))

/-- MBST: blocks to SRAM (04 Table 4-4). -/
def execMbst (g : Nat) (d a fn : Reg) (s : State) : Out :=
  onCore g s (runDo .matrix (.mbst g d a fn) (blockSteps fn) (blockSteps fn + 2))

/-- MBLD: SRAM into blocks (04 Table 4-4). -/
def execMbld (g : Nat) (d a fn : Reg) (s : State) : Out :=
  onCore g s (runDo .matrix (.mbld g d a fn) (blockSteps fn) (blockSteps fn + 2))

/-- Begins an attention instruction after its checks: its result stands at once and is available at the end of its latency; the
accumulator banks of its step are noted (02 R34; 04 R96, R108). -/
def attnDo (i : Instr) (size : Disp → Nat) (per extra : Nat) (f : Disp → Core → Core) (e : Env) (c : Core) : Core :=
  match ready e .matrix i c with
  | none => c
  | some k => match beginFault e k c with
    | some (code, sub, det) => insFault e k code sub det c
    | none =>
      let occ := per * ceilDiv (size k) 128
      let c1 := beginIns e .matrix k occ (occ + extra) c
      f k { c1 with x := { c1.x with accUsed := accBanks k 0 ++ c1.x.accUsed } }

/-- The float format of an attention block: F of S[B] (04 R108). -/
def attnFmt (sh : AttnShape) : FloatFmt := if sh.fmt = 0 then fmtH16 else fmtW16

/-- Whether MMASK masks the element of query position q and key position k (04 R109). -/
def masked (mode : MaskMode) (q k win : Nat) : Bool :=
  match mode with
  | .causal => decide (q < k)
  | .window => decide (q < k) || decide (win ≤ q - k)
  | .band => decide (win ≤ (if q < k then k - q else q - k))

/-- MMASK: masked scores become minus infinity (04 R109). -/
def execMmask (g : Nat) (d a b : Reg) (mode : MaskMode) (s : State) : Out :=
  onCore g s (attnDo (.mmask g d a b mode) (fun k => (attnShape (scAt k.sc 2)).m * (attnShape (scAt k.sc 2)).n) 1 2 (fun k c =>
    let sh := attnShape (scAt k.sc 2)
    let q0 := fld (scAt k.sc 0) 0 24
    let k0 := fld (scAt k.sc 1) 0 24
    let win := fld (scAt k.sc 3) 0 24 + 1
    let ninf := 0x8000 + (attnFmt sh).infc.getD 0
    let base := 256 * (d : Nat)
    { c with banks := mwrite c.banks base ((List.range (sh.m * sh.n)).flatMap (fun i =>
        if masked mode (q0 + i / sh.n) (k0 + i % sh.n) win then bytesOf (BitVec.ofNat 16 ninf) 2
        else mread c.banks (base + 2 * i) 2)) }))

/-- A rounded result with whether it sets OVF_LOCAL (03 R81). -/
def rnd (ff : FloatFmt) (ops : List FVal) (v : FVal) : Nat × Bool :=
  let code := roundTo ff .rne v
  (code, ovfOf ops (decodeFloat ff code))

/-- One row of MSMX: the new MX, L and C, the probabilities, and whether OVF_LOCAL is set (04 R110). -/
def msmxRow (ff : FloatFmt) (scores : List Nat) (mo lo : Nat) : Nat × Nat × Nat × List Nat × Bool :=
  let vf : LaneFmt := if ff.t = 10 then .h16 else .w16
  let lane := fun (x : Nat) => (BitVec.ofNat 16 x : Lane)
  let r := (scores.drop 1).foldl (fun m x => (minMax vf true (lane m) (lane x)).toNat) (scores.headD 0)
  let r := if scores.any (fun x => (decodeFloat ff x).isNan) then ff.nan else r
  let mn := (minMax vf true (lane mo) (lane r)).toNat
  let ninf := 0x8000 + ff.infc.getD 0
  let one := roundTo ff .rne (.fin false 1 0)
  if mn = ninf then (ninf, lo, one, scores.map (fun _ => 0), false)
  else
    let vmn := decodeFloat ff mn
    let expOf := fun (x : Nat) =>
      let v := decodeFloat ff x
      let t := rnd ff [v, vmn] (sumF [v, vmn.negate])
      let u := rnd ff [decodeFloat ff t.1] (spExp2 (decodeFloat ff t.1))
      (u.1, t.2 || u.2)
    let ps := scores.map expOf
    let cf := expOf mo
    let vs := ps.map (fun p => decodeFloat ff p.1)
    let vc := decodeFloat ff cf.1
    let vl := decodeFloat ff lo
    let l := rnd ff (vc :: vl :: vs) (sumF (vc.mul vl :: vs))
    (mn, l.1, cf.1, ps.map Prod.fst, ps.any Prod.snd || cf.2 || l.2)

/-- MSMX: the running maximum, sum and correction of a block of scores, and its probabilities into staging (04 R110). -/
def execMsmx (g : Nat) (d a b : Reg) (s : State) : Out :=
  onCore g s (attnDo (.msmx g d a b) (fun k => (attnShape (scAt k.sc 0)).m * (attnShape (scAt k.sc 0)).n) 2 8 (fun k c =>
    let sh := attnShape (scAt k.sc 0)
    let ff := attnFmt sh
    let st := 256 * (a : Nat)
    let h := fun (o : Nat) => natOfBytes (mread c.banks o 2)
    let rows := (List.range sh.m).map (fun m =>
      msmxRow ff ((List.range sh.n).map (fun n => h (256 * (d : Nat) + 2 * (m * sh.n + n))))
        (if sh.init then 0x8000 + ff.infc.getD 0 else h (st + 2 * m)) (if sh.init then 0 else h (st + 16 + 2 * m)))
    let put := fun (o : Nat) (xs : List Nat) (m : Mem) => mwrite m o (xs.flatMap (fun x => bytesOf (BitVec.ofNat 16 x) 2))
    let probs := (List.range sh.n).flatMap (fun n => rows.map (fun r => (r.2.2.2.1.drop n).headD 0))
    orOvf (rows.any (fun r => r.2.2.2.2)) { c with
      banks := put (st + 32) (rows.map (fun r => r.2.2.1)) (put (st + 16) (rows.map (fun r => r.2.1))
        (put st (rows.map (fun r => r.1)) c.banks))
      stg := put sh.xoff probs c.stg }))

/-- MSCL: the accumulated output times the correction factor of its row (04 R111). -/
def execMscl (g : Nat) (d a b : Reg) (s : State) : Out :=
  onCore g s (attnDo (.mscl g d a b)
      (fun k => (attnShape (scAt k.sc 0)).m * (attnShape (scAt k.sc 0)).n * (fld (scAt k.sc 1) 0 4 + 1)) 1 4 (fun k c =>
    let sh := attnShape (scAt k.sc 0)
    let el := sh.m * sh.n * (fld (scAt k.sc 1) 0 4 + 1)
    let ff := attnFmt sh
    let base := 256 * (d : Nat)
    let h := fun (o : Nat) => decodeFloat ff (natOfBytes (mread c.banks o 2))
    let res := (List.range el).map (fun i =>
      let x := h (base + 2 * i)
      let y := h (256 * (a : Nat) + 32 + 2 * (i % (sh.m * sh.n) / sh.n))
      rnd ff [x, y] (x.mul y))
    orOvf (res.any Prod.snd) { c with
      banks := mwrite c.banks base (res.flatMap (fun r => bytesOf (BitVec.ofNat 16 r.1) 2)) }))

end Sys2Proof.Machine
end

