-- ==== Sys2Proof/Machine/Sync.lean ====
section
/-! DEFINITION. The synchronisation and control instructions, and the halt request: REL, ACQ, SYNC.ALL, STEP.COMMIT, END,
SU.CND, BRK, the flag group and the channel group (03 R73 to R77; 09 R211 to R214, R222 to R227; 06 R149, R152, R154;
07 R172, R178). -/

namespace Sys2Proof.Machine

/-- A message of a core to a target in its partition. -/
def coreMsg (e : Env) (tgt : Option Nat) (b : MsgBody) : Msg := ⟨e.part.getD 0, e.pgen, false, tgt, e.g, e.now, b⟩

/-- REL: it begins at the head of its engine's issue queue and completes when every earlier instruction of its engine has
completed; REL.D waits besides until the rows are performed that busy slots had requested when it began, see relEnd (09 R211). -/
def execRel (g : Nat) (eng : Engine) (s : State) : Out :=
  onCore g s (fun e c =>
    match ready e eng (.rel g eng) c with
    | none => c
    | some d => beginIns e eng d 1 1 c)

/-- Drops the staged copy of an engine: the matrix engine's row of W scales, the DMA engine's descriptor (09 Table 9-1). -/
def dropCopy (eng : Engine) (c : Core) : Core :=
  match eng with
  | .matrix => { c with x := { c.x with wRow := none } }
  | .dma => { c with x := { c.x with dRow := none } }
  | _ => c

/-- ACQ: begins when every ordering instruction dispatched before it has completed, and drops the engine's staged copy
(09 R212). -/
def execAcq (g : Nat) (eng : Engine) (s : State) : Out :=
  onCore g s (fun e c =>
    match ready e eng (.acq g eng) c with
    | none => c
    | some d => dropCopy eng (beginIns e eng d 1 1 c))

/-- SYNC.ALL: begins when every earlier instruction has completed, drops both staged copies, and completes as a REL.D does
(09 R213; 03 Table 3-5). -/
def execSyncAll (g : Nat) (s : State) : Out :=
  onCore g s (fun e c =>
    match ready e .scalar (.syncAll g) c with
    | none => c
    | some d => dropCopy .matrix (dropCopy .dma (beginIns e .scalar d 1 1 c)))

/-- Removes the STEP.COMMIT that waits in phase 3 for a result: the contribution returns to OVF_LOCAL, a GUARD_WD leaves ahead
of the queued messages, and the program counter stays at the instruction (06 R154). -/
def withdraw (e : Env) (c : Core) : Core :=
  match c.x.phase3, c.x.gres, issueOf .scalar c with
  | some b, none, d :: _ =>
    { c with
      guard := gOrOvf c.guard b
      pc := d.pc
      x := { c.x with
        iss := c.x.iss.set 0 []
        phase3 := none
        urgent := c.x.urgent ++ [coreMsg e none (.guardWd 1 (gPar c.guard))] } }
  | _, _, _ => c

/-- STEP.COMMIT's contribution: once every earlier instruction has completed, a GUARD message with OVF_LOCAL and GPAR
leaves ahead of the queued messages, and OVF_LOCAL clears (06 R149). With a halt request pending the phase 3 so entered is
withdrawn (02 R41; 20 R485). -/
def execStepCommitContribute (g : Nat) (s : State) : Out :=
  onCore g s (fun e c =>
    match headFree e .scalar c with
    | none => c
    | some d =>
      if decide (d.ins = .stepCommit g) && e.guardOn && allDone e.now d.seq (fun _ => true) c && c.x.phase3.isNone &&
          !gRdone c.guard then
        let c1 : Core := { c with
          guard := setBit c.guard 0 false
          x := { c.x with
            phase3 := some (gOvf c.guard)
            urgent := c.x.urgent ++ [coreMsg e none (.guardC (gOvf c.guard) 1 (gPar c.guard))] } }
        if c.x.haltReq then withdraw e c1 else c1
      else c)

/-- Writes a guard result: OVF_JOB, LS_EXP and P7 (06 R152). -/
def applyGuard (ovf : Bool) (ls : Byte) (c : Core) : Core :=
  putP 7 (!ovf) { c with guard := setFld (setBit c.guard 1 ovf) 8 8 ls.toNat }

/-- Fetch resumes after a pausing instruction has begun (03 R63). -/
def resumeFetch (e : Env) (c : Core) : Core :=
  { c with x := { c.x with fetch := if c.x.haltReq then .stopped else .going, fetchAt := e.now + 1 } }

/-- STEP.COMMIT begins: with GEN = 0 as soon as earlier instructions have completed, as if the result were no overflow;
with RDONE set at once; otherwise on the guard result, writing OVF_JOB, LS_EXP and P7 and inverting GPAR (06 R149, R152,
R154). -/
def execStepCommit (g : Nat) (s : State) : Out :=
  onCore g s (fun e c =>
    match ready e .scalar (.stepCommit g) c with
    | none => c
    | some d =>
      let c1 := resumeFetch e (beginIns e .scalar d 1 1 c)
      if !e.guardOn then applyGuard false (gLs c.guard) c1
      else if gRdone c.guard then
        { c1 with guard := setBit (setBit (setBit c1.guard 3 false) 0 false) 2 (!gPar c1.guard) }
      else match c.x.gres with
        | some (ovf, ls) =>
          let c2 := applyGuard ovf ls c1
          { c2 with guard := setBit c2.guard 2 (!gPar c2.guard), x := { c2.x with phase3 := none, gres := none } }
        | none => c)

/-- A fold slot with its CAND bit written. -/
def setCand (w : BitVec 512) (b : Bool) : BitVec 512 := setBit w 384 b

/-- END: once every earlier instruction has completed, the active fold's ACTIVE bit clears and the candidate set becomes its
NEXTMASK; a fold is chosen from the next step on (07 R169, R172). -/
def execEndFold (g : Nat) (s : State) : Out :=
  onCore g s (fun e c =>
    match ready e .scalar (.endFold g) c with
    | none => c
    | some d =>
      let cur := curFold c
      let c' := beginIns e .scalar d 1 1 c
      { c' with
        folds := Vector.ofFn (fun k : Fin 8 =>
          let w := setCand c'.folds[k] (fNext cur k)
          if k = c.r.fold then setBit w 385 false else w)
        x := { c'.x with fetch := .stopped, start := { c'.x.start with ended := true } } })

/-- SU.CND: a predicate bit joins the tail of a unit's CFIFO; BOUNDS, SUB 0x1B, where the unit does not steer by CFIFO or
the CFIFO is full (07 R178). -/
def execSuCnd (g : Nat) (u : Fin 4) (p : Pred) (s : State) : Out :=
  onCore g s (fun e c =>
    match ready e .scalar (.suCnd g u p) c with
    | none => c
    | some d =>
      let w := c.su[u]
      let full := decide (uCfcnt w = 16)
      if !unitOwned c u || decide (uMode w ≠ 1) || decide (uSrc w ≠ 0) || full then
        insFault e d stBounds 0x1B ((u : Nat) + 4 * full.toNat) c
      else
        let b := predGet c.p p
        let c' := beginIns e .scalar d 1 1 c
        { c' with su := c'.su.set u (setFld (setBit w (160 + uCfcnt w) b) 144 5 (uCfcnt w + 1)) })

/-- A halt request: fetch stops in the step in which it arrives, and the request is pending until the core has drained; a
STEP.COMMIT in phase 3 is withdrawn (02 R41; 20 R485; 06 R154). In HOLD it is taken when HOLD is released (02 R42). -/
def requestHalt (e : Env) (c : Core) : Core :=
  if c.r.st = .run then
    withdraw e { c with x := { c.x with haltReq := true, fetch := .stopped } }
  else if c.r.st = .hold then { c with x := { c.x with haltReq := true } }
  else c

/-- BRK: a halt request when an authorised debugger is attached, otherwise nothing (03 R75). -/
def execBrk (g : Nat) (s : State) : Out :=
  onCore g s (fun e => scalarDo (.brk g) 1 1 (fun _ c => if e.attached then requestHalt e c else c) e)

/-- A message into the control slot queue (09 R224). -/
def ctlPush (m : Msg) (c : Core) : Core := { c with x := { c.x with ctl := c.x.ctl ++ [m] } }

/-- A signal to a core of the partition: it waits for every earlier REL and SYNC.ALL and for room in the control slot
queue; a target that is no logical core of the partition is BOUNDS, SUB 0x09 (03 R76; 09 R214, R224). -/
def remoteDo (i : Instr) (tgt : Reg) (body : MsgBody) (e : Env) (c : Core) : Core :=
  match ready e .scalar i c with
  | none => c
  | some d =>
    match memberOf e.s e.part (fld c.s[tgt] 0 20) with
    | none => insFault e d stBounds 0x09 (fld c.s[tgt] 0 16) c
    | some t => ctlPush (coreMsg e (some t) body) (beginIns e .scalar d 1 1 c)

/-- A local signal or a local wait: its effect when it begins (09 R214, R222, R227). -/
def signalDo (i : Instr) (f : Disp → Core → Core) (e : Env) (c : Core) : Core :=
  match ready e .scalar i c with
  | none => c
  | some d => f d c

/-- FLAG.SET, local or remote (03 R76). -/
def execFlagSet (g : Nat) (f : Fin 64) (rem : Bool) (tgt : Reg) (s : State) : Out :=
  onCore g s (fun e =>
    if rem then remoteDo (.flagSet g f rem tgt) tgt (.flagSet f) e
    else signalDo (.flagSet g f rem tgt)
      (fun d c => let c' := beginIns e .scalar d 1 1 c; { c' with flags := setBit c'.flags f true }) e)

/-- FLAG.CLR, local or remote (03 R76). -/
def execFlagClr (g : Nat) (f : Fin 64) (rem : Bool) (tgt : Reg) (s : State) : Out :=
  onCore g s (fun e =>
    if rem then remoteDo (.flagClr g f rem tgt) tgt (.flagClr f) e
    else signalDo (.flagClr g f rem tgt)
      (fun d c => let c' := beginIns e .scalar d 1 1 c; { c' with flags := setBit c'.flags f false }) e)

/-- FLAG.WAIT: begins once the flag is set at the start of the step, and leaves it set (09 R222). -/
def execFlagWait (g : Nat) (f : Fin 64) (s : State) : Out :=
  onCore g s (fun e => signalDo (.flagWait g f) (fun d c => beginIns e .scalar d 1 1 c) e)

/-- FLAG.WAITC: begins once the flag is set at the start of the step, and clears it in that step (09 R222). -/
def execFlagWaitc (g : Nat) (f : Fin 64) (s : State) : Out :=
  onCore g s (fun e => signalDo (.flagWaitc g f)
    (fun d c => let c' := beginIns e .scalar d 1 1 c; { c' with flags := setBit c'.flags f false }) e)

/-- BAR.ARRIVE: an arrival that names barrier S[TGT][7:0] and the release flag enters the control slot queue; BOUNDS, SUB
0x09, for an object above 255 (03 R76; 09 R232). -/
def execBarArrive (g : Nat) (f : Fin 64) (tgt : Reg) (s : State) : Out :=
  onCore g s (fun e =>
    signalDo (.barArrive g f tgt) (fun d c =>
      if c.s[tgt].toNat > 255 then insFault e d stBounds 0x09 (fld c.s[tgt] 0 16) c
      else ctlPush (coreMsg e none (.barArr (c.s[tgt].extractLsb' 0 8) f [g] none)) (beginIns e .scalar d 1 1 c)) e)

/-- A pair with its producer counter advanced, if the fill stays at most 128 (09 R226). -/
def chPutOn (p : BitVec 16 × BitVec 16) (a : Nat) : Option (BitVec 16 × BitVec 16) :=
  if fill p + a ≤ 128 then some (p.1 + BitVec.ofNat 16 a, p.2) else none

/-- A pair with its consumer counter advanced, if the fill covers it (09 R226). -/
def chGetOn (p : BitVec 16 × BitVec 16) (a : Nat) : Option (BitVec 16 × BitVec 16) :=
  if a ≤ fill p then some (p.1, p.2 + BitVec.ofNat 16 a) else none

/-- A local advance: a broken bound is SYNC_FAULT, SUB 0x0B, and leaves both counters (09 R226). -/
def chLocal (e : Env) (ch : Fin 16) (r : Option (BitVec 16 × BitVec 16)) (d : Disp) (c : Core) : Core :=
  match r with
  | none => insFault e d stSync 0x0B ch c
  | some p => let c' := beginIns e .scalar d 1 1 c; { c' with ch := c'.ch.set ch p }

/-- CH.PUT, local or remote (03 R77; 09 R226). -/
def execChPut (g : Nat) (ch : Fin 16) (amt : Fin 8) (rem : Bool) (tgt : Reg) (s : State) : Out :=
  onCore g s (fun e =>
    if rem then remoteDo (.chPut g ch amt rem tgt) tgt (.chPut ch ((amt : Nat) + 1)) e
    else signalDo (.chPut g ch amt rem tgt) (fun d c => chLocal e ch (chPutOn c.ch[ch] ((amt : Nat) + 1)) d c) e)

/-- CH.GET, local or remote (03 R77; 09 R226). -/
def execChGet (g : Nat) (ch : Fin 16) (amt : Fin 8) (rem : Bool) (tgt : Reg) (s : State) : Out :=
  onCore g s (fun e =>
    if rem then remoteDo (.chGet g ch amt rem tgt) tgt (.chGet ch ((amt : Nat) + 1)) e
    else signalDo (.chGet g ch amt rem tgt) (fun d c => chLocal e ch (chGetOn c.ch[ch] ((amt : Nat) + 1)) d c) e)

/-- CH.WAIT: begins once the fill at the start of the step reaches the amount (09 R227). -/
def execChWait (g : Nat) (ch : Fin 16) (amt : Fin 8) (s : State) : Out :=
  onCore g s (fun e => signalDo (.chWait g ch amt) (fun d c => beginIns e .scalar d 1 1 c) e)

end Sys2Proof.Machine
end

