-- ==== Sys2Proof/Machine/Dma.lean ====
section
/-! DEFINITION. The DMA engine: DMOV, DWAIT and the events of a busy slot (04 R112 to R124; 08 R188 to R197). -/

namespace Sys2Proof.Machine

/-- A fault of running slot k: FAULT_PC, OP and bit 31 describe the DMOV that loaded it; of two slots that fault in one step
the lower is recorded (04 R123). -/
def slotFault (e : Env) (k : Fin 4) (w : BitVec 256) (code sub detail : Nat) (c : Core) : Core :=
  faultAs (faultRank .dma sub (1 + (k : Nat))) e .dma code sub detail 0x61 (dDl w) (dPc w) c

/-- The slot after a move: PROG, the next step in which it may move, and whether the tile or transfer is finished. -/
def slotMoved (k : Fin 4) (prog next : Nat) (fin : Bool) (c : Core) : Core :=
  { c with
    dma := c.dma.set k (setFld c.dma[k] 192 16 prog)
    x := { c.x with slotAt := c.x.slotAt.set k next, slotFin := c.x.slotFin.set k fin } }

/-- DMOV: waits until the slot is idle, reads and checks the descriptor, for TOUT the template as well in the step after, and
loads the slot (04 R112, R114, R115). -/
def execDmov (g : Nat) (slot : Fin 4) (a : Reg) (imm : Word) (s : State) : Out :=
  onCore g s (runDo .dma (.dmov g slot a imm) 1 2)

/-- DWAIT: completes once every slot of the mask is idle (04 R113). -/
def execDwait (g : Nat) (mask : BitVec 4) (s : State) : Out :=
  onCore g s (fun e c =>
    match ready e .dma (.dwait g mask) c with
    | none => c
    | some d => beginIns e .dma d 1 1 c)

/-- The row that slot k asks for, served now or refused (04 R116). -/
def slotBank (e : Env) (k : Fin 4) (a : Nat) (c : Core) : Bool × Core := askBank e .dma k (a / 32) c

/-- The words of a row that hold an uncorrectable error, as a mask (02 R46). -/
def rowMarks (a : Nat) (c : Core) : BitVec 4 :=
  (List.range 4).foldl (fun m i => setBit m i (decide (tget 0 c.ecc (a / 8 + i) = 2))) 0

/-- A row written with the error marks of the row it was copied from: words that receive bytes of an uncorrectable word are
uncorrectable, others clean (02 R46). -/
def putRow (a : Nat) (w : Row) (marks : BitVec 4) (c : Core) : Core :=
  let c1 := sramPut a (bytesOf w 32) c
  { c1 with ecc := (List.range 4).foldl (fun t i => if marks.getLsbD i then tset 0 t (a / 8 + i) 2 else t) c1.ecc }

/-- COPY_ROW: a row is read in one step when its bank serves it, and written in a later one when the destination bank does; an
uncorrectable word is carried on. A row that has been read is written before a halt stops the slot (04 R115, R116; 02 R41,
R46). -/
def execCopyRow (g : Nat) (slot : Fin 4) (s : State) : Out :=
  onCore g s (fun e c =>
    match slotReady e 1 slot c with
    | none => c
    | some w =>
      let p := dProg w
      match c.x.copied[slot] with
      | none => match slotBank e slot (dSrc w + p) c with
        | (false, c1) => c1
        | (true, c1) =>
          let c2 := eccCount (dSrc w + p) 32 c1
          { c2 with x := { c2.x with
              copied := c2.x.copied.set slot (some (ofBytes 256 (mread c2.sram (dSrc w + p) 32), rowMarks (dSrc w + p) c2))
              slotAt := c2.x.slotAt.set slot (e.now + 1) } }
      | some (row, marks) => match slotBank e slot (dDst w + p) c with
        | (false, c1) => c1
        | (true, c1) =>
          let c2 := slotMoved slot (p + 32) (e.now + 1) (decide (dLen w ≤ p + 32)) (putRow (dDst w + p) row marks c1)
          { c2 with x := { c2.x with copied := c2.x.copied.set slot none } })

/-- QIN_ENTRY: one raw entry from an input queue to SRAM (04 Table 4-6). -/
def execQinEntry (g : Nat) (slot : Fin 4) (s : State) : Out :=
  onCore g s (fun e c =>
    match slotReady e 2 slot c with
    | none => c
    | some w =>
      let q := dIq w
      let dst := dDst w + dProg w
      if !headFor e.now c q then c
      else match slotBank e slot dst c with
        | (false, c1) => c1
        | (true, c1) =>
          slotMoved slot (dProg w + 32) (e.now + 1) (decide (dLen w ≤ dProg w + 32))
            (sramPut dst (bytesOf (c.iq[q].ent 0).data 32) (takeHead e.now q c1)))

/-- QOUT_ENTRY: one row from SRAM to an output queue with the tag and epoch of the active fold; an uncorrectable word in the
FIRST entry sets P (04 Table 4-6, R116; 02 R46). -/
def execQoutEntry (g : Nat) (slot : Fin 4) (s : State) : Out :=
  onCore g s (fun e c =>
    match slotReady e 3 slot c with
    | none => c
    | some w =>
      let q := dOq w
      let p := dProg w
      let src := dSrc w + p
      if !roomFor e.now c q then c
      else match slotBank e slot src c with
        | (false, c1) => c1
        | (true, c1) =>
          let first := dFl w && decide (p = 0)
          let last := decide (dLen w ≤ p + 32)
          let row : Row := ofBytes 256 (mread c1.sram src 32)
          let row := if first && (eccBad c1 src 32).isSome then setBit row 10 true else row
          slotMoved slot (p + 32) (e.now + 1) last
            (oqPush e.now q ⟨row, outSb c1 q first (dFl w && last)⟩ (eccCount src 32 c1)))

/-- The running CRC after a header entry: bytes 0 to 27 with P taken as 0 (05 R143). -/
def crcHeader (h : Row) : Word := crcGo 0xFFFFFFFF#32 (bytesOf (setBit h 10 false) 28)

/-- CRCP written in a slot image. -/
def setCrcp (k : Fin 4) (v : Word) (c : Core) : Core := { c with dma := c.dma.set k (setFld c.dma[k] 224 32 v.toNat) }

/-- The lowest uncorrectable word among what a slot reads back from SRAM of the tile in progress: the header, and for a
compressed tile the bitmap. DEDUCED, log 101: it reads them for every entry, without a bank request (08 R197; 04 R123). -/
def backBad (c : Core) (base n : Nat) : Option Nat := eccBad c base (if n = 0 then 32 else 64 + 32 * n)

/-- TIN_ENTRY: one entry of a tile into its ring slot, checked as R121 orders. The first entry waits for ring room, and is
checked then: DESIGN CHOICE, log 99 (04 R118, R121). -/
def execTinEntry (g : Nat) (slot : Fin 4) (s : State) : Out :=
  onCore g s (fun e c =>
    match slotReady e 4 slot c with
    | none => c
    | some w =>
      let q := dIq w
      let p := dProg w
      let base := tinBase w
      let det := slotDetail slot (dDone w)
      let en := c.iq[q].ent 0
      let bad := fun (code sub : Nat) => slotFault e slot w code sub det
      if !headFor e.now c q then c
      else if p = 0 then
        if !ringRoom w c then c
        else match headerFault w en none with
          | some (code, sub) => bad code sub c
          | none => match slotBank e slot base c with
            | (false, c1) => c1
            | (true, c1) =>
              setCrcp slot (crcHeader en.data) (slotMoved slot 32 (e.now + 1) false
                (sramPut base (bytesOf en.data 32) (takeHead e.now q c1)))
      else
        let h := headerAt base c
        match backBad c base 0 with
        | some u => slotFault e slot w stPoison 0x0A u c
        | none =>
        if !lastRight h p en then bad stFormat 0x13 c
        else match slotBank e slot (base + p) c with
          | (false, c1) => c1
          | (true, c1) =>
            let fin := sbLast en.sb
            let crc := crcGo (dCrcp w) (bytesOf en.data 32)
            let c2 := sramPut (base + p) (bytesOf en.data 32) (takeHead e.now q c1)
            if fin && decide (crc ^^^ 0xFFFFFFFF#32 ≠ hCrc h) then bad stPoison 0x17 c2
            else setCrcp slot crc (slotMoved slot (p + 32) (e.now + 1) fin c2))

/-- One staging row to write: byte address, bits of the byte that stay, the bits that are written. -/
abbrev StgWrite := List (Nat × Byte × Byte)

/-- The write of one element code into a dense payload at staging byte base: the bytes of a 16-bit code, a byte, whose bits
[7:6] are 0 for E3, or a nibble (05 R126). -/
def elemWrite (f : TileFmt) (base e code : Nat) : StgWrite :=
  if f.width = 16 then [(base + 2 * e, 0, BitVec.ofNat 8 code), (base + 2 * e + 1, 0, BitVec.ofNat 8 (code / 256))]
  else if f.width = 4 then
    [(base + e / 2, if e % 2 = 0 then 0xF0 else 0x0F, BitVec.ofNat 8 ((code % 16) * 16 ^ (e % 2)))]
  else [(base + e, 0, BitVec.ofNat 8 (if f = .e3 then code % 64 else code))]

/-- A row written whole. -/
def rowWrite (a : Nat) (bs : List Byte) : StgWrite := bs.zipIdx.map (fun p => (a + p.2, 0, p.1))

/-- Staging with one row written; each write changes only its own bits (08 R197). -/
def stgPut (l : StgWrite) (m : Mem) : Mem := l.foldl (fun m p => mwrite m p.1 [(tget 0 m p.1 &&& p.2.1) ||| p.2.2]) m

/-- The staging row of a write. -/
def stgRow (l : StgWrite) : Nat := match l with | p :: _ => p.1 / 32 | [] => 0

/-- The staging rows that payload entry number u (from 0) of a compressed tile writes, in order: none for the form unit and the
bitmap but its last entry, which is followed by zeros in every dense row; the rows its values touch; the row of its scales
(08 R197). bm is the bitmap. -/
def expandRows (w : BitVec 256) (h : Row) (f : TileFmt) (u : Nat) (data : Row) (bm : List Byte) : List StgWrite :=
  let n := hN h
  let bu := bitmapUnits n
  let vu := valueUnits f (hNnz h)
  if u < bu then []
  else if u = bu then (List.range (hDense h)).map (fun i => rowWrite (dDst w + 32 * i) (List.replicate 32 0))
  else if u ≤ bu + vu then
    let per := 256 / f.width
    let pos := ((setBits bm n).drop ((u - bu - 1) * per)).take per
    let rowOf := fun (e : Nat) => e * f.width / 256
    ((pos.map rowOf).dedup).map (fun r =>
      (pos.zipIdx.filter (fun p => decide (rowOf p.1 = r))).flatMap (fun p =>
        elemWrite f (dDst w) p.1 (elemAt f (bytesOf data 32) p.2)))
  else [rowWrite (dDst w + scaleOff f n + 32 * (u - bu - vu - 1)) (bytesOf data 32)]

/-- The bitmap of a compressed tile as it stands in the SRAM prefix (08 R197). -/
def prefixMap (w : BitVec 256) (h : Row) (c : Core) : List Byte := mread c.sram (dStride w + 64) (32 * bitmapUnits (hN h))

/-- Whether payload entry u of a compressed tile agrees with the header: the form unit, and the bitmap with its last entry
(08 R196). -/
def prefixOk (w : BitVec 256) (h : Row) (f : TileFmt) (u : Nat) (data : Row) (c : Core) : Bool :=
  let n := hN h
  let bu := bitmapUnits n
  (u ≠ 0 || (formUnitOk data n && decide (formVcnt data = hNnz h) &&
    decide (hUnits h = compUnits f n (blockSize (hBs h)) (hNnz h)))) &&
  (u ≠ bu || bitmapOk (mread c.sram (dStride w + 64) (32 * (bu - 1)) ++ bytesOf data 32) n (hNnz h))

/-- Whether the pending staging rows of slot k are those of a value or scale entry, which count as one move (08 R197). -/
def valueRows (k : Fin 4) (c : Core) : Bool :=
  let w := c.dma[k]
  !c.x.stgLeft[k].isEmpty && decide (64 + 32 * bitmapUnits (hN (headerAt (dStride w) c)) < dProg w)

/-- Whether the bytes of the tile or transfer of slot k have all been taken, for TSTG. -/
def tstgTaken (h : Row) (p : Nat) : Bool := decide (32 * hUnits h < p)

/-- A slot with its next staging row written; with the last row of the last entry its tile is finished. -/
def stgMove (e : Env) (slot : Fin 4) (l : StgWrite) (rest : List StgWrite) (c : Core) : Core :=
  let w := c.dma[slot]
  { c with
    stg := stgPut l c.stg
    x := { c.x with
      stgLeft := c.x.stgLeft.set slot rest
      slotAt := c.x.slotAt.set slot (e.now + 1)
      slotFin := c.x.slotFin.set slot (rest.isEmpty && tstgTaken (headerAt (dStride w) c) (dProg w)) } }

/-- TSTG_ENTRY: one move of a tile for staging: an entry, or one staging row of an entry already taken. The header and the
form unit and bitmap of a compressed tile go to SRAM, the payload densely into staging; rows in use by the matrix engine make
it wait. The rows of a value or scale entry are written before a halt stops the slot (04 R115, R121; 08 R196, R197; 02 R35). -/
def execTstgEntry (g : Nat) (slot : Fin 4) (s : State) : Out :=
  onCore g s (fun e c =>
    let w0 := c.dma[slot]
    match c.x.stgLeft[slot] with
    | l :: rest =>
      if live e c && (dmaRuns e c || valueRows slot c) && slotTurn e slot c && decide (dKind w0 = 6) &&
          !rowInUse e.now c (stgRow l) then stgMove e slot l rest c
      else c
    | [] =>
    match slotReady e 6 slot c with
    | none => c
    | some w =>
      let q := dIq w
      let p := dProg w
      let det := slotDetail slot (dDone w)
      let en := c.iq[q].ent 0
      let bad := fun (code sub : Nat) => slotFault e slot w code sub det
      if !headFor e.now c q then c
      else if p = 0 then
        match tstgFault w en with
        | some (code, sub) => bad code sub c
        | none => match slotBank e slot (dStride w) c with
          | (false, c1) => c1
          | (true, c1) =>
            setCrcp slot (crcHeader en.data) (slotMoved slot 32 (e.now + 1) false
              (sramPut (dStride w) (bytesOf en.data 32) (takeHead e.now q c1)))
      else
        let h := headerAt (dStride w) c
        let u := p / 32 - 1
        let crc := crcGo (dCrcp w) (bytesOf en.data 32)
        let badCrc := sbLast en.sb && decide (crc ^^^ 0xFFFFFFFF#32 ≠ hCrc h)
        let taken := fun (rows : List StgWrite) (c : Core) =>
          if badCrc then bad stPoison 0x17 c
          else
            let c1 := setCrcp slot crc (slotMoved slot (p + 32) (e.now + 1) (sbLast en.sb && rows.isEmpty) c)
            { c1 with x := { c1.x with stgLeft := c1.x.stgLeft.set slot rows } }
        match backBad c (dStride w) (if hC h && decide (bitmapUnits (hN h) < u) then bitmapUnits (hN h) else 0) with
        | some a => slotFault e slot w stPoison 0x0A a c
        | none =>
        if !lastRight h p en then bad stFormat 0x13 c
        else if !hC h then
          if rowInUse e.now c ((dDst w + p - 32) / 32) then c
          else
            let c1 := takeHead e.now q c
            taken [] { c1 with stg := mwrite c1.stg (dDst w + p - 32) (bytesOf en.data 32) }
        else match hTile h with
          | none => bad stFormat 0x1E c
          | some f =>
            if bitmapUnits (hN h) < u then taken (expandRows w h f u en.data (prefixMap w h c)) (takeHead e.now q c)
            else if !prefixOk w h f u en.data c then bad stFormat 0x1E c
            else match slotBank e slot (dStride w + p) c with
              | (false, c1) => c1
              | (true, c1) =>
                taken (expandRows w h f u en.data []) (sramPut (dStride w + p) (bytesOf en.data 32) (takeHead e.now q c1)))

/-- The zero rows of a compressed tile written again from the start by a slot that was halted before its first value entry
(08 R197). -/
def restage (c : Core) (k : Fin 4) : List StgWrite :=
  let w := c.dma[k]
  let h := headerAt (dStride w) c
  if decide (dKind w = 6) && hC h && decide (dProg w = 64 + 32 * bitmapUnits (hN h)) then
    match hTile h with
    | some f => expandRows w h f (bitmapUnits (hN h)) 0 []
    | none => []
  else []

/-- STG_ROW: one SRAM row into staging; an uncorrectable word faults (04 Table 4-6; 02 R46). -/
def execStgRow (g : Nat) (slot : Fin 4) (s : State) : Out :=
  onCore g s (fun e c =>
    match slotReady e 7 slot c with
    | none => c
    | some w =>
      let p := dProg w
      let src := dSrc w + p
      if rowInUse e.now c ((dDst w + p) / 32) then c
      else match slotBank e slot src c with
        | (false, c1) => c1
        | (true, c1) => match eccBad c1 src 32 with
          | some u => slotFault e slot w stPoison 0x0A u c1
          | none =>
            let c2 := eccCount src 32 c1
            slotMoved slot (p + 32) (e.now + 1) (decide (dLen w ≤ p + 32))
              { c2 with stg := mwrite c2.stg (dDst w + p) (mread c2.sram src 32) })

/-- FWD_ENTRY: one entry from an input queue to an output queue, TAG, EP, FIRST and LAST unchanged (04 Table 4-6; 07 R165). -/
def execFwdEntry (g : Nat) (slot : Fin 4) (s : State) : Out :=
  onCore g s (fun e c =>
    match slotReady e 8 slot c with
    | none => c
    | some w =>
      let q := dIq w
      let o := dOq w
      let en := c.iq[q].ent 0
      if !(headFor e.now c q && roomFor e.now c o) then c
      else slotMoved slot (dProg w + 32) (e.now + 1) (endsToken en)
        (oqPush e.now o ⟨en.data, setFld en.sb 6 2 0⟩ (takeHead e.now q c)))

/-- Steps that forming a tile of n elements takes (08 R189). -/
def formSteps (n : Nat) : Nat := 2 + ceilDiv n 128

/-- TOUT_SOURCE_READ: the slot reads the next row of its source afresh, the template first; a template that fails, whose n
differs from the one DMOV checked, or whose source leaves the data region faults; an uncorrectable word sets P in the tile
(04 R116, R119; 02 R46). -/
def execToutSourceRead (g : Nat) (slot : Fin 4) (s : State) : Out :=
  onCore g s (fun e c =>
    match slotReady e 5 slot c, toutRows c.x.tout[slot] with
    | some w, some i =>
      match slotBank e slot (dSrc w + 32 * i) c with
      | (false, c1) => c1
      | (true, c1) =>
        let (rows, ue) := match c.x.tout[slot] with | .reading l u => (l, u) | _ => ([], false)
        let row : Row := ofBytes 256 (mread c1.sram (dSrc w + 32 * i) 32)
        let all := rows ++ [row]
        let tpl := all.headD 0
        let n := hN tpl
        let size := if i = 0 then 32 else min 32 (32 + 2 * n - 32 * i)
        if decide (i = 0) && (!templateValid tpl || (decide (c.x.slotN[slot] ≠ 0) && decide (c.x.slotN[slot] ≠ n)) ||
            !inData (dSrc w) (32 + 2 * n)) then
          slotFault e slot w stFormat 0x13 (slotDetail slot (dDone w)) c1
        else
          let ue1 := ue || (eccBad c1 (dSrc w + 32 * i) size).isSome
          let c2 := eccCount (dSrc w + 32 * i) size c1
          let vals := (all.drop 1).flatMap (fun r => bytesOf r 32)
          { c2 with x := { c2.x with
              tout := c2.x.tout.set slot
                (if 32 + 2 * n ≤ 32 * (i + 1) then .read tpl ((List.range n).map (fun j => leAt vals (2 * j) 2)) ue1
                 else .reading all ue1)
              slotAt := c2.x.slotAt.set slot (e.now + 1) } }
    | _, _ => c)

/-- The compressor takes the sources that were read whole in this step, the lower slot first: each is formed from the next step
on, or when the tile before it is done (08 R189). -/
def toutEnd (now : Nat) (c : Core) : Core :=
  (List.finRange 4).foldl (fun (c : Core) (k : Fin 4) =>
    match c.x.tout[k] with
    | .read tpl xs ue =>
      let from_ := (List.finRange 4).foldl (fun m j => match c.x.tout[j] with | .source _ _ _ t => max m t | _ => m) (now + 1)
      { c with x := { c.x with tout := c.x.tout.set k (.source tpl xs ue (from_ + formSteps xs.length)) } }
    | _ => c) c

/-- TILE_FORM: the compressor completes the tile: scales, elements, NNZ, form and CRC (08 R189, R190, R194; 05 R137, R145). -/
def execTileForm (g : Nat) (slot : Fin 4) (s : State) : Out :=
  onCore g s (fun e c =>
    match slotReady e 5 slot c, c.x.tout[slot] with
    | some _, .source tpl xs ue t =>
      if t ≤ e.now then
        { c with x := { c.x with
            tout := c.x.tout.set slot (.formed (formTile tpl xs c.seed c.r.epoch ue (BitVec.ofNat 20 e.lid))) } }
      else c
    | _, _ => c)

/-- TOUT_ENTRY: one entry of the formed tile, when the queue has room (08 R189). -/
def execToutEntry (g : Nat) (slot : Fin 4) (s : State) : Out :=
  onCore g s (fun e c =>
    match slotReady e 5 slot c, c.x.tout[slot] with
    | some w, .formed ents =>
      let o := dOq w
      let i := dProg w / 32
      if !roomFor e.now c o then c
      else
        let last := decide (ents.length ≤ i + 1)
        slotMoved slot (dProg w + 32) (e.now + 1) last
          (oqPush e.now o ⟨(ents.drop i).headD 0, outSb c o (decide (i = 0)) last⟩ c)
    | _, _ => c)

/-- The slot image cleared as the slot becomes idle (02 R52). -/
def slotIdle (k : Fin 4) (c : Core) : Core :=
  { c with
    dma := c.dma.set k 0
    x := { c.x with tout := c.x.tout.set k .none, slotSeq := c.x.slotSeq.set k 0, slotN := c.x.slotN.set k 0,
                    slotFin := c.x.slotFin.set k false, copied := c.x.copied.set k none, stgLeft := c.x.stgLeft.set k [] } }

/-- Whether an instruction acts on a flag or a channel counter of its own core. -/
def signalsHere : Instr → Bool
  | .flagSet _ _ rem _ => !rem
  | .flagClr _ _ rem _ => !rem
  | .flagWaitc _ _ => true
  | .chPut _ _ _ rem _ => !rem
  | .chGet _ _ _ rem _ => !rem
  | _ => false

/-- Whether the scalar engine may still begin an operation on a flag or counter of its core in this step (09 R223). -/
def signalAhead (e : Env) (c : Core) : Bool :=
  match headMay e .scalar c with
  | some d => signalsHere d.ins && firstIssued e .scalar d.seq c
  | none => false

/-- Whether slot k has finished a tile or transfer, or may still do so by its move in this step: its actions are then due in
this step (04 R117; 09 R223). -/
def slotEnds (e : Env) (k : Fin 4) (c : Core) : Bool :=
  let w := c.dma[k]
  let p := dProg w
  let q := dIq w
  let en := c.iq[q].ent 0
  let served := match slotRow e k c with
    | some r => bankServes (asksNow e c) c ⟨.dma, (k : Nat), r, 0, e.now⟩
    | none => false
  c.x.slotFin[k] || (dmaRuns e c && slotTurn e k c && (match dKind w with
    | 1 => c.x.copied[k].isSome && decide (dLen w ≤ p + 32) && served
    | 4 => decide (0 < p) && sbLast en.sb && served
    | 5 => (match c.x.tout[k] with | .formed l => decide (l.length ≤ p / 32 + 1) && roomFor e.now c (dOq w) | _ => false)
    | 6 =>
      let h := headerAt (dStride w) c
      (match c.x.stgLeft[k] with
        | [l] => tstgTaken h p && !rowInUse e.now c (stgRow l)
        | [] => decide (0 < p) && !hC h && headFor e.now c q && lastRight h p en && sbLast en.sb &&
            !rowInUse e.now c ((dDst w + p - 32) / 32)
        | _ => false)
    | 8 => headFor e.now c q && roomFor e.now c (dOq w) && endsToken en
    | _ => decide (dLen w ≤ p + 32) && served))

/-- DMA_SLOT_COMPLETE: the producer counter of CH advances and FLAGNO is set, after the operation of the scalar engine and the
actions of lower slots in this step; TIN and FWD go on with the next tile, other kinds and the last tile leave the slot idle
(04 R117; 09 R223, R226). -/
def execDmaSlotComplete (g : Nat) (slot : Fin 4) (s : State) : Out :=
  onCore g s (fun e c =>
    let w := c.dma[slot]
    if !(live e c && c.x.slotFin[slot] && decide (dKind w ≠ 0)) then c
    else if signalAhead e c || (List.finRange 4).any (fun j => decide (j < slot) && slotEnds e j c) then c
    else
      let adv := if dChe w then chPutOn c.ch[dCh w] (dAmt w) else some c.ch[dCh w]
      match adv with
      | none => slotFault e slot w stSync 0x0B (dCh w) c
      | some pr =>
        let c1 := { c with
          ch := c.ch.set (dCh w) pr
          flags := if dFle w then setBit c.flags (dFlag w) true else c.flags }
        let tiled := decide (dKind w = 4) || decide (dKind w = 8)
        if tiled && decide (dDone w + 1 < dTiles w) then
          { c1 with
            dma := c1.dma.set slot (setFld (setFld (setFld w 208 16 (dDone w + 1)) 192 16 0) 224 32 0)
            x := { c1.x with slotFin := c1.x.slotFin.set slot false } }
        else slotIdle slot c1)

end Sys2Proof.Machine
end

