-- ==== Sys2Proof/Machine/Firing.lean ====
section
/-! DEFINITION. Fetch and dispatch, arrivals at the input queues, the choice and firing of folds, steering, discards, the
stall watchdog, and the entry of a core into RUN and HALT (03 R59 to R63; 07 R164 to R187; 02 R41, R511). -/

namespace Sys2Proof.Machine

-- Fetch ----------------------------------------------------------------------------------------------------------

/-- Requests the row of a code address for the fetch buffer: one bank request (02 R31; 03 R59). -/
def fetchRow (e : Env) (pc : Nat) (c : Core) : Bool × Core :=
  match askBank e .fetch 0 (pc / 32) c with
  | (false, c1) => (false, c1)
  | (true, c1) =>
    let row : Row := ofBytes 256 (mread c1.sram (32 * (pc / 32)) 32)
    (true, eccCount (32 * (pc / 32)) 32 { c1 with x := { c1.x with fbuf := some (pc / 32, row) } })

/-- Whether dispatching an instruction pauses fetch until it has begun: branches, jumps and STEP.COMMIT (03 R63). -/
def pauses : Instr → Bool
  | .br _ _ => true
  | .brl _ _ _ => true
  | .jr _ _ => true
  | .jrl _ _ _ => true
  | .stepCommit _ => true
  | _ => false

/-- Whether an instruction is END, after which fetch stops (07 R172). -/
def isEnd : Instr → Bool
  | .endFold _ => true
  | _ => false

/-- The core after fetch has dealt with the instruction at the program counter. -/
def fetched (now : Nat) (long : Bool) (f : Fetch) (c : Core) : Core :=
  { c with
    pc := c.pc + (if long then 8 else 4)
    x := { c.x with fetch := f, fetchAt := now + 1, fw1 := none, bpSkip := false, lastPc := c.pc } }

/-- Dispatches a decoded instruction word: the FORMAT checks first, then the predicate, then room in the issue queue and the
scalar operands (03 R60, R61; 02 R25). -/
def dispatch (e : Env) (w1 w2 : Word) (c : Core) : Core :=
  let op := fld w1 20 7
  let long := w1.getLsbD 31
  match decodeCore e.g w1 w2 with
  | .error (sub, det) => coreFault e (engineOfOp op) stFormat sub det op long c.pc c
  | .ok i =>
    let pw := pendingWrites e.now c.x.seq c
    let pr : Pred := Fin.ofNat 8 (fld w1 27 3)
    if decide (pr ≠ 0) && pw.contains (.p pr) then c
    else if !predHolds c.p w1 then fetched e.now long c.x.fetch c
    else
      let eng := engineOf i op
      let regs := dispatchRegs i
      if decide (4 ≤ (issueOf eng c).length) || regs.any (fun r => pw.contains (.s r)) then c
      else
        let d : Disp := ⟨i, c.pc, op, long, c.x.seq, e.now, regs.map (fun r => c.s[r])⟩
        let c' := fetched e.now long (if isEnd i then .ended else if pauses i then .paused else c.x.fetch) c
        { c' with x := { c'.x with
            iss := c'.x.iss.set (engNum eng) (issueOf eng c' ++ [d])
            seq := c'.x.seq + 1 } }

/-- The second half of fetch, with the first word in hand: a 64-bit instruction needs its second word, one request more where
that lies in another row; asked says that this step has made its request. One whose second word would lie at 0x4000 faults
before it is decoded (03 R59; 02 R29). -/
def fetchSecond (e : Env) (w1 : Word) (asked : Bool) (c : Core) : Core :=
  let op := fld w1 20 7
  if !w1.getLsbD 31 then dispatch e w1 0 c
  else if 0x4000 ≤ c.pc + 4 then coreFault e (engineOfOp op) stBounds 0x08 0 op true c.pc c
  else
    let go := fun (c : Core) (w2 : Word) =>
      match eccBad c (c.pc + 4) 4 with
      | some a => coreFault e .scalar stPoison 0x0A a 0 false c.pc c
      | none => dispatch e w1 w2 c
    match bufWord c (c.pc + 4) with
    | some w2 => go c w2
    | none =>
      let c := { c with x := { c.x with fw1 := some w1 } }
      if asked then { c with x := { c.x with fetchAt := e.now + 1 } }
      else match fetchRow e (c.pc + 4) c with
        | (false, c1) => c1
        | (true, c1) => go c1 ((bufWord c1 (c1.pc + 4)).getD 0)

/-- One step of fetch; bp says whether a comparator matches the program counter. The second result says that it did: the
instruction is not dispatched and the core takes a halt request. A row fetched for a taken branch is dispatched from in the
step after. Past 0x3FFF the core faults with the address of the last instruction dispatched. An uncorrectable error faults when
it lies in the word fetched, not in another word of its row: DESIGN CHOICE, log 95 (03 R59, R63; 20 R487; 02 R29, R46). -/
def fetchStep (e : Env) (bp : Bool) (c : Core) : Core × Bool :=
  if !fetchOn e c then (c, false)
  else match c.x.fw1 with
    | some w1 => (fetchSecond e w1 false c, false)
    | none =>
      if 0x4000 ≤ c.pc then (coreFault e .scalar stBounds 0x08 0 0 false c.x.lastPc c, false)
      else
        let go := fun (c : Core) (w1 : Word) (asked : Bool) =>
          match eccBad c c.pc 4 with
          | some a => (coreFault e .scalar stPoison 0x0A a 0 false c.pc c, false)
          | none =>
            if bp && !c.x.bpSkip then (requestHalt e c, true)
            else (fetchSecond e w1 asked c, false)
        match bufWord c c.pc with
        | some w1 => go c w1 false
        | none => match fetchRow e c.pc c with
          | (false, c1) => (c1, false)
          | (true, c1) =>
            if c1.x.far then ({ c1 with x := { c1.x with far := false, fetchAt := e.now + 1 } }, false)
            else go c1 ((bufWord c1 c1.pc).getD 0) true

-- Arrivals -------------------------------------------------------------------------------------------------------

/-- Whether input queue q has room for an entry from the mesh. -/
def iqRoom (q : Fin 8) (c : Core) : Bool := decide (c.iq[q].count < 16)

/-- An entry enters input queue q: it is marked loose where FIRST is clear and no token is open; FIRST while a token is open
faults with FORMAT, SUB 0x19, and the entry stays in the queue (07 R164, R166; 02 R49, R52). -/
def arrive (e : Env) (q : Fin 8) (en : QEntry) (c : Core) : Core :=
  let qu := c.iq[q]
  let first := sbFirst en.sb
  let sb := setBit (setBit en.sb 6 (!first && !qu.topen)) 7 false
  let qu' := (qu.push ⟨en.data, sb⟩).setTopen (if first || qu.topen then !sbLast en.sb else false)
  let c1 := actFlit 1 { c with iq := c.iq.set q qu' }
  let c2 := if qu.count = 0 then steerHead q c1 else c1
  if first && qu.topen then dataFault e stFormat 0x19 q c2 else c2

-- Firing ---------------------------------------------------------------------------------------------------------

/-- The core with its queues, steering state and slots as they stood at the start of the step (07 R173). -/
def atStart (c : Core) : Core :=
  { c with iq := c.x.start.iq, oq := c.x.start.oq, su := c.x.start.su, dma := c.x.start.dma,
           x := { c.x with drop := c.x.start.drop } }

/-- The candidate set: valid slots whose CAND bit is set, lowest first (07 "The firing rule"). -/
def candidates (c : Core) : List (Fin 8) := (List.finRange 8).filter (fun k => fValid c.folds[k] && fCand c.folds[k])

/-- The mask of a list of slots. -/
def maskOf (l : List (Fin 8)) : Nat := l.foldl (fun m k => m + 2 ^ (k : Nat)) 0

/-- Whether the head of queue q is settled (07 "The firing rule"). -/
def settled (c : Core) (q : Fin 8) : Bool := headReady c q && (iqSlots c q).isEmpty

/-- Whether a slot's TAG and EPOCH equal those of the head of every queue it binds (07 R170). -/
def matchesHeads (c : Core) (k : Fin 8) : Bool :=
  (List.finRange 8).all (fun q => !fBinds c.folds[k] q ||
    (decide (fTag c.folds[k] = sbTag (c.iq[q].ent 0).sb) && fEpoch c.folds[k] == sbEp (c.iq[q].ent 0).sb))

/-- FOLD_CHOICE: with no fold active, every queue bound to a candidate settled at the start of the step, the lowest matching
candidate is chosen, from the step after END began; a slot held by a reload is not chosen; with no match the core waits for a pending reload or faults
(07 R170, R168, R184; R174: no choice during HOLD or a halt request). -/
def chooseFold (e : Env) (c : Core) : Core :=
  let b := atStart c
  let cs := candidates c
  if c.r.st ≠ .run || c.x.haltReq || foldActive c || c.x.start.ended || cs.isEmpty || c.x.chosen.isSome then c
  else if !(List.finRange 8).all (fun q => !cs.any (fun k => fBinds c.folds[k] q) || settled b q) then c
  else match cs.find? (matchesHeads b) with
    | some k =>
      if c.x.held.getLsbD k then c
      else if !foldOk c.folds[k] then dataFault e stFormat 0x1C k c
      else { c with x := { c.x with chosen := some k } }
    | none => if c.x.held ≠ 0 then c else dataFault e stState 0x1D (maskOf cs) c

/-- Whether the chosen fold fires: entries and room at the start of the step, and the stamps of QOUT and TOUT slots busy then
unchanged (07 R171). -/
def fires (c : Core) (k : Fin 8) : Bool :=
  let w := c.folds[k]
  (List.finRange 8).all (fun q => !fBinds w q || decide (fNeed w q ≤ c.x.start.iq[q].count)) &&
  (List.finRange 4).all (fun q => !fOut w q || decide (fRoom w q ≤ c.x.start.oq[q].room)) &&
  (List.finRange 4).all (fun j =>
    let d := c.x.start.dma[j]
    !(decide (dKind d = 3) || decide (dKind d = 5)) ||
    (decide (fOtag w (dOq d) = fOtag (curFold c) (dOq d)) && fEpoch w == c.r.epoch))

/-- FOLD_FIRE: every CAND bit clears, ACTIVE is set, FIRES advances, CORE_STATE takes the slot and its epoch, the program
counter takes ENTRY, and fetch begins in the next step (07 R171). -/
def fireFold (e : Env) (c : Core) : Core :=
  match c.x.chosen with
  | none => c
  | some k =>
    if c.r.st ≠ .run || c.x.haltReq || c.x.start.ended || !fires c k then c
    else
      let w := c.folds[k]
      { c with
        folds := Vector.ofFn (fun j : Fin 8 =>
          let v := setCand c.folds[j] false
          if j = k then setFld (setBit v 385 true) 416 32 (fFires v + 1) else v)
        r := { c.r with fold := k, epoch := fEpoch w }
        pc := fEntry w
        x := { c.x with
          chosen := none
          fetch := .going
          fetchAt := e.now + 1
          prefire := some ⟨k, BitVec.ofNat 8 (maskOf ((List.finRange 8).filter (fun j => fCand c.folds[j]))), c.r.fold,
            c.r.epoch, c.pc⟩
          start := { c.x.start with fired := true } } }

-- Steering and discards ------------------------------------------------------------------------------------------

/-- The condition of a unit for the entry it decides on, none where a CFIFO bit is not there at the start of the step
(07 R176). -/
def unitCond (u : BitVec 256) (cf : Nat) (en : QEntry) : Option Bool :=
  match uSrc u with
  | 0 => if cf = 0 then none else some (u.getLsbD 160)
  | 1 => some (decide (uCount u ≠ uLimit u))
  | _ => some (!sbLoose en.sb && decide (fld en.data 64 14 ≤ uThr u))

/-- A unit after a decision: the condition taken, DEC, STEERED, and OPEN unless the token is one entry (07 R176). -/
def unitDecided (u : BitVec 256) (b single : Bool) : BitVec 256 :=
  let u1 := match uSrc u with
    | 0 => setFld (setFld u 160 16 (uFifo u / 2)) 144 5 (uCfcnt u - 1)
    | 1 => setFld u 128 16 (if uCount u = uLimit u then 0 else uCount u + 1)
    | _ => u
  setFld (setBit (setBit u1 150 b) 149 (!single)) 192 32 (fld u 192 32 + 1)

/-- STEER_DECIDE: a unit decides on the entry that heads its queue since the start of the step; an invalid unit faults when it
would decide (07 R176, R177). -/
def steerDecide (e : Env) (k : Fin 4) (c : Core) : Core :=
  let u := c.su[k]
  let q : Fin 8 := Fin.ofNat 8 (uQ u)
  let en := c.iq[q].ent 0
  let b := atStart c
  if c.r.st ≠ .run || c.iq[q].count = 0 || b.iq[q].count = 0 || !iqFree e.now q c || !wouldDecide c k q en ||
      !wouldDecide b k q (b.iq[q].ent 0) then c
  else if !unitOk u then dataFault e stFormat 0x1C ((k : Nat) + 8) c
  else match unitCond u (uCfcnt b.su[k]) en with
    | none => c
    | some d =>
      let c1 := { c with su := c.su.set k (unitDecided u d (endsToken en)) }
      if uDrop u d then
        { c1 with
          iq := c1.iq.set q (c1.iq[q].setHead ⟨en.data, setBit en.sb 7 true⟩)
          x := { c1.x with drop := setBit c1.x.drop q true } }
      else { c1 with iq := c1.iq.set q (c1.iq[q].setHead ⟨en.data, setBit (setFld en.sb 0 3 (uTag u d)) 7 true⟩) }

/-- Whether unit k decided to drop the token at the head of queue q: it has the token open, or the token is one entry with its
ITAG (07 R177). -/
def dropsHead (c : Core) (k : Fin 4) (q : Fin 8) : Bool :=
  let en := c.iq[q].ent 0
  if beginsToken en && endsToken en then
    unitOn c k && decide (uQ c.su[k] = q) && decide (uItag c.su[k] = sbTag en.sb) && uDrop c.su[k] (uDec c.su[k])
  else decide (openUnit c q = some k)

/-- TOKEN_DROP: the unit that decided removes one entry of a dropped token, from the step after the decision on; OPEN clears with
the last entry (07 R177). -/
def tokenDrop (e : Env) (k : Fin 4) (c : Core) : Core :=
  let q : Fin 8 := Fin.ofNat 8 (uQ c.su[k])
  let en := c.iq[q].ent 0
  if c.r.st ≠ .run || c.iq[q].count = 0 || !c.x.drop.getLsbD q || !c.x.start.drop.getLsbD q || !iqFree e.now q c ||
      !dropsHead c k q then c
  else
    let c1 := iqPop e.now q { c with x := { c.x with drop := setBit c.x.drop q false } }
    let c2 := if endsToken en && uOpen c1.su[k] then { c1 with su := c1.su.set k (setBit c1.su[k] 149 false) } else c1
    steerHead q c2

/-- Removes the head entry of a token that is being discarded; HDISC stays until its last entry (07 R183; 02 R52). -/
def discardHead (now : Nat) (q : Fin 8) (c : Core) : Core :=
  let en := c.iq[q].ent 0
  let c1 := takeHead now q c
  { c1 with iq := c1.iq.set q (c1.iq[q].setHdisc (!endsToken en)) }

/-- STALE_TOKEN_DISCARD: a stale token at a head is discarded one entry a step where the fold's DISC is 1, and counted in
DISCARDS; with DISC 0 the core faults with STATE, SUB 0x18 (07 R183, Table 7-5). -/
def staleDiscard (e : Env) (q : Fin 8) (c : Core) : Core :=
  let en := c.iq[q].ent 0
  if c.r.st ≠ .run || c.iq[q].count = 0 || !iqFree e.now q c || c.x.drop.getLsbD q then c
  else if c.iq[q].hdisc then discardHead e.now q c
  else match staleFold c q en with
    | none => c
    | some k =>
      let w := c.folds[k]
      if fDisc w then
        discardHead e.now q { c with folds := c.folds.set k (setFld w 448 16 (min 0xFFFF (fDiscards w + 1))) }
      else dataFault e stState 0x18 ((q : Nat) + 8 * sbTag en.sb + 64 * (sbEp en.sb).toNat) c

-- The stall watchdog ---------------------------------------------------------------------------------------------

/-- Whether this step counts for the stall watchdog: no firing, no entry taken from a full queue, and some input queue that
held 16 entries at its start (07 R181). -/
def stallStep (c : Core) : Bool :=
  !c.x.start.fired && !c.x.start.drained && c.x.start.iq.toList.any (fun q => decide (q.count = 16))

/-- The watchdog count after a step in RUN (07 R181). -/
def nextWcount (c : Core) : Word := if stallStep c then c.wcount + 1 else 0

/-- Whether a fold may still fire in this step (07 R171). -/
def mayFire (e : Env) (c : Core) : Bool := (fireFold e (chooseFold e c)).x.start.fired

/-- Whether an instruction takes an entry of input queue q when it begins. -/
def takesFrom (q : Fin 8) : Instr → Bool
  | .qrd _ _ k _ rem => rem && decide (k = q)
  | .vqrd _ _ k => decide (k = q)
  | .mstgq _ k _ => decide (k = q)
  | _ => false

/-- Whether an entry may still be removed in this step from input queue q: by a unit, a discard, an instruction that begins or is
in progress, or a slot (07 R181). -/
def mayTake (e : Env) (q : Fin 8) (c : Core) : Bool :=
  let slot := fun (k : Fin 4) => usesIq c.dma[k] && decide (dIq c.dma[k] = q) && dmaRuns e c && slotTurn e k c &&
    headFor e.now c q && (match slotRow e k c with
      | some r => bankServes (asksNow e c) c ⟨.dma, (k : Nat), r, 0, e.now⟩
      | none => decide (dKind c.dma[k] = 6) || (decide (dKind c.dma[k] = 8) && roomFor e.now c (dOq c.dma[k])))
  iqFree e.now q c && decide (0 < c.iq[q].count) &&
  ((c.x.drop.getLsbD q && c.x.start.drop.getLsbD q) || c.iq[q].hdisc ||
    (match staleFold c q (c.iq[q].ent 0) with | some k => fDisc c.folds[k] | none => false) ||
    (headReady c q && (iqClaimed c q || engines.any (fun eng => match headMay e eng c with
      | some d => takesFrom q d.ins && (beginFault e d c).isNone
      | none => false))) ||
    (List.finRange 4).any slot)

/-- Whether an entry may still be removed in this step from a queue that held 16 at its start (07 R181). -/
def mayDrain (e : Env) (c : Core) : Bool :=
  (List.finRange 8).any (fun q => decide (c.x.start.iq[q].count = 16) && mayTake e q c)

/-- Whether STALL is raised in this step: it counts, the count reaches STALL_W, and nothing can still fire or leave a full queue in
it (07 R181). -/
def stallRaised (e : Env) (c : Core) : Bool :=
  decide (c.r.st = .run) && stallStep c && decide (c.stallW ≠ 0) && c.stallW.ule (nextWcount c) && !mayFire e c && !mayDrain e c

/-- DETAIL of STALL: the full input queues, the last fold, whether a fold is active (07 Table 7-5). -/
def stallDetail (c : Core) : Nat :=
  maskOf ((List.finRange 8).filter (fun q => decide (c.iq[q].count = 16))) + (c.r.fold : Nat) * 256 +
    (foldActive c).toNat * 2048

-- Entering RUN and HALT ------------------------------------------------------------------------------------------

/-- What stands at the start of a step (07 R173; 09 R222). -/
def snapshot (c : Core) : StepStart :=
  { iq := c.iq, oq := c.oq, su := c.su, dma := c.dma, flags := c.flags, ch := c.ch, drop := c.x.drop,
    waits := !(waiting c).isEmpty, fired := false, drained := false, ended := false }

/-- The first queue whose pointer word is invalid: a count above 16, a reserved bit, or TOPEN or HDISC of an output queue
(02 R511). -/
def badPointer (c : Core) : Option Nat :=
  let bad := fun (out : Bool) (q : Queue) =>
    decide (16 < q.count) || decide (fld q.ptr 11 21 ≠ 0) || (out && (q.topen || q.hdisc))
  firstIdx id (c.iq.toList.map (bad false) ++ c.oq.toList.map (bad true))

/-- Whether the head of queue q is a one-entry token that a unit has decided to drop: it is STEERED, its TAG is still the
ITAG of a unit whose last outcome drops, and no unit of the queue rewrites to that TAG (07 R177; 02 R52). -/
def droppedSingle (c : Core) (q : Nat) (en : QEntry) : Bool :=
  let us := (List.finRange 4).filter (fun k => unitOn c k && decide (uQ c.su[k] = q))
  beginsToken en && endsToken en && sbSteered en.sb &&
  us.any (fun k => decide (uItag c.su[k] = sbTag en.sb) && uDrop c.su[k] (uDec c.su[k])) &&
  us.all (fun k => uDrop c.su[k] (uDec c.su[k]) || decide (uTag c.su[k] (uDec c.su[k]) ≠ sbTag en.sb))

/-- The heads of dropped tokens, marked again for removal (07 R174, R177; 02 R52). -/
def redrop (c : Core) : Core :=
  (List.finRange 8).foldl (fun (c : Core) (q : Fin 8) =>
    let en := c.iq[q].ent 0
    let again := match openUnit c q with
      | some k => uDrop c.su[k] (uDec c.su[k])
      | none => droppedSingle c q en
    if decide (0 < c.iq[q].count) && again then { c with x := { c.x with drop := setBit c.x.drop q true } }
    else steerHead q c) c

/-- Enters RUN, from LOADED or from HALT: the queue pointer words are checked first; no staged copy, an empty fetch buffer;
from LOADED, CAND takes START; TOUT slots form their tiles again, and a TSTG slot before its first value entry writes its zero rows
again (02 R511; 07 R169, R174; 09 Table 9-1; 04 R119; 08 R197). -/
def enterRun (e : Env) (loaded : Bool) (c : Core) : Core :=
  match badPointer c with
  | some i => dataFault e stFormat 0x21 i c
  | none =>
    let c := redrop (if loaded then { c with folds := c.folds.map (fun w => setCand w (fStart w)) } else c)
    { c with
      r := { c.r with st := .run }
      x := { c.x with
        fetch := if foldActive c then .going else .stopped
        fetchAt := e.now
        far := false
        fbuf := none
        fw1 := none
        wRow := none
        dRow := none
        haltReq := false
        bpSkip := !loaded
        stalled := false
        copied := Vector.replicate 4 none
        stgLeft := Vector.ofFn (restage c)
        tout := Vector.replicate 4 .none
        start := snapshot c } }

/-- Whether a pending halt has drained: nothing waits in an issue queue, everything begun has completed, no slot is within a row,
and no finished slot waits for its last action (02 R41; 20 R485). -/
def drained (e : Env) (c : Core) : Bool :=
  (waiting c).isEmpty && c.x.begun.all (fun b => decide (b.due ≤ e.now)) && c.x.runs.isEmpty && !dmaRuns e c &&
  (List.finRange 4).all (fun k => !c.x.slotFin[k] && c.x.copied[k].isNone && !valueRows k c)

/-- HALT_ENTRY: a running core with a halt request that has drained enters HALT, with no staged copy (02 R41; 07 R174;
09 Table 9-1). The step counts for the watchdog (07 R181). A core whose program counter has stepped past 0x3FFF has no address
to save and faults instead: DEDUCED, log 96 (02 R29, R52). -/
def enterHalt (e : Env) (c : Core) : Core :=
  if decide (c.r.st = .run) && c.x.haltReq && drained e c then
    if 0x4000 ≤ c.pc && foldActive c && decide (c.x.fetch ≠ .ended) then
      coreFault e .scalar stBounds 0x08 0 0 false c.x.lastPc c
    else
    { c with
      wcount := nextWcount c
      r := { c.r with st := .halt }
      x := { c.x with
        haltReq := false
        fetch := .stopped
        fw1 := none
        wRow := none
        dRow := none
        chosen := none
        begun := []
        refused := []
        stgLeft := Vector.replicate 4 [] } }
  else c

/-- FOLD_CHOICE (07 R170). -/
def execFoldChoice (g : Nat) (s : State) : Out := onCore g s chooseFold
/-- FOLD_FIRE (07 R171). -/
def execFoldFire (g : Nat) (s : State) : Out := onCore g s fireFold
/-- STEER_DECIDE (07 R176). -/
def execSteerDecide (g : Nat) (u : Fin 4) (s : State) : Out := onCore g s (fun e => steerDecide e u)
/-- TOKEN_DROP (07 R177). -/
def execTokenDrop (g : Nat) (u : Fin 4) (s : State) : Out := onCore g s (fun e => tokenDrop e u)
/-- STALE_TOKEN_DISCARD (07 R183). -/
def execStaleTokenDiscard (g : Nat) (q : Fin 8) (s : State) : Out := onCore g s (fun e => staleDiscard e q)

end Sys2Proof.Machine
end

