-- ==== Sys2Proof/Machine/Host.lean ====
section
/-! DEFINITION. The host attachment: queue pairs, the taking and completing of commands, events and their vectors, the
order of checks, and who may do what (14 R341 to R349; 00 R4). -/

namespace Sys2Proof.Machine

/-- The tide count of host commands: the north rim's (10 R239). -/
def north (s : State) : Nat := (getNode s 96).steps
/-- How far a count lies ahead of the north rim count, modulo 2^48 (00 R4). -/
def aheadBy (s : State) (t : Count) : Nat := (t.toNat + (2 ^ 48 - north s % 2 ^ 48)) % 2 ^ 48
/-- Whether a count is ahead of the north rim count (00 R4). -/
def isAhead (s : State) (t : Count) : Bool := decide (0 < aheadBy s t) && decide (aheadBy s t < 2 ^ 47)
/-- The step that a count ahead names. -/
def stepOf (s : State) (t : Count) : Nat := north s + aheadBy s t

/-- A queue pair. -/
def getQp (s : State) (q : Nat) : Qp := tget Qp.zero s.host.qps q
/-- The module with a queue pair replaced. -/
def setQp (s : State) (q : Nat) (p : Qp) : State := { s with host := { s.host with qps := tset Qp.zero s.host.qps q p } }
/-- The module with a partition replaced. -/
def setPart (s : State) (k : Nat) (p : Part) : State := { s with parts := tset Part.zero s.parts k p }
/-- The module with a partition changed. -/
def modPart (s : State) (k : Nat) (f : Part → Part) : State := setPart s k (f (getPart s k))
/-- A rake station: pan x 150 + cluster. -/
def getStation (s : State) (k : Nat) : Station := tget Station.zero s.stations k
/-- The module with a rake station replaced. -/
def setStation (s : State) (k : Nat) (t : Station) : State := { s with stations := tset Station.zero s.stations k t }
/-- The rake station of a core (02 R50). -/
def stationOf (g : Nat) : Nat := panOf g * 150 + clusterOf g
/-- CLUSTER_ID.POS of a core (02 Table 2-5). -/
def posOf (g : Nat) : Nat := (ly g % 8) * 8 + lx g % 8
/-- A stream engine with its stack. -/
def getEng (s : State) (e : Nat) : Engine48 := tget Engine48.zero s.engs e
/-- The module with a stream engine replaced. -/
def setEng (s : State) (e : Nat) (x : Engine48) : State := { s with engs := tset Engine48.zero s.engs e x }

/-- Changes every core that differs from a zeroised one and meets a test. -/
def mapCores (s : State) (p : Nat → Core → Bool) (f : Nat → Core → Core) : State :=
  { s with cores := tmapv Core.zero (fun g c => if p g c then f g c else c) s.cores }

/-- Whether a core lies in a partition's pans. -/
def inPart (s : State) (k g : Nat) : Bool := decide ((getPan s (panOf g)).part = some k)

/-- The code of a partition state (14 Table 14-10). -/
def PSt.code : PSt → Nat
  | .none => 15
  | .empty => 0
  | .loading => 1
  | .ready => 2
  | .running => 3
  | .held => 4
  | .draining => 5
  | .saved => 6
  | .faulted => 7

-- Rings and vectors ----------------------------------------------------------------------------------------------

/-- Entries of a ring of size code n (14 Table 14-4). -/
def ringSize (n : Nat) : Nat := 16 * 2 ^ n

/-- An MSI-X vector. -/
def getVec (s : State) (v : Nat) : Vec := tget Vec.zero s.host.vecs v
/-- The module with a vector replaced. -/
def setVec (s : State) (v : Nat) (x : Vec) : State := { s with host := { s.host with vecs := tset Vec.zero s.host.vecs v x } }

/-- Raises a vector, at most once in its 2 µs holdoff (14 R347). -/
def raiseVec (s : State) (v : Nat) : State :=
  let x := getVec s v
  if x.off then setVec s v { x with wait := true } else setVec s v { x with raised := x.raised + 1, off := true }

/-- MSIX_HOLDOFF_EXPIRY: the holdoff of a vector ends, and a deferred raise is made (14 R347). -/
def execMsixHoldoffExpiry (v : Fin 34) (s : State) : Out :=
  let x := getVec s v
  .next (if !x.off then s
    else if x.wait then setVec s v { raised := x.raised + 1, off := true, wait := false }
    else setVec s v { x with off := false })

/-- The vector of a pair: QP_CTRL.VEC, q at reset (14 Table 14-4). -/
def vecOf (q : Nat) (p : Qp) : Nat := p.vec.getD q

/-- Free entries of a completion ring beyond those reserved for commands taken: a ring of n holds n - 1 (14 R345). -/
def cqRoom (p : Qp) : Nat := ringSize p.cqsz - 1 - (p.taken + p.cq.length)

/-- A pair with an entry written at its tail; PHASE inverts on each pass (14 R344). -/
def pushCq (p : Qp) (e : CqEntry) : Qp :=
  let t := p.cqTail + 1
  let wrap := decide (ringSize p.cqsz ≤ t)
  { p with
    cq := p.cq ++ [{ e with phase := p.phase, sqHead := p.sqHead }]
    cqTail := if wrap then 0 else t
    phase := if wrap then !p.phase else p.phase }

/-- An event as a completion entry (14 Table 14-7). -/
def eventEntry (e : Event) : CqEntry := ⟨0xFFFF#16, e.status, false, e.evno, 0, e.part, e.state, e.res⟩

/-- Posts an event to a pair: written where the ring has room and none waits, kept among 64, or lost (14 R346). -/
def postTo (q : Nat) (e : Event) (s : State) : State :=
  let p := getQp s q
  if !p.en then s
  else if p.events.isEmpty && !p.lost && decide (0 < cqRoom p) then raiseVec (setQp s q (pushCq p (eventEntry e))) (vecOf q p)
  else if p.events.length < 64 then setQp s q { p with events := p.events ++ [e] }
  else setQp s q { p with evlost := true, lost := true }

/-- Writes waiting events while the ring has room, and one EVENT_LOST after them where events were lost; fuel bounds the
events (14 R346). -/
def drainEvents (q : Nat) : Nat → State → State
  | 0, s => s
  | fuel + 1, s =>
    let p := getQp s q
    if !p.en || decide (cqRoom p = 0) then s
    else match p.events with
      | e :: t => drainEvents q fuel (raiseVec (setQp s q { pushCq p (eventEntry e) with events := t }) (vecOf q p))
      | [] =>
        if p.lost then
          raiseVec (setQp s q { pushCq p (eventEntry ⟨4, stOK, 0, 15, []⟩) with lost := false }) (vecOf q p)
        else s

/-- The pairs bound to the operator (14 R346). -/
def operatorPairs (s : State) : List Nat := (List.range 33).filter (fun q => decide ((getQp s q).role = 1))

/-- Posts an event to every operator pair. -/
def postOps (e : Event) (s : State) : State := (operatorPairs s).foldl (fun s q => postTo q e s) s

/-- Posts an event to the pair that loaded a partition's job and to every operator pair, once each (14 R346). -/
def postJob (k : Nat) (e : Event) (s : State) : State :=
  let own := match (getPart s k).loadQp with
    | some (q, ep) => if (getQp s q).epoch = ep && !(operatorPairs s).contains q then [q] else []
    | none => []
  (own ++ operatorPairs s).foldl (fun s q => postTo q e s) s

/-- Posts an ALARM; vector 33 signals it where no pair is enabled (14 R346, R347). -/
def postAlarm (cause : Nat) (s : State) : State :=
  if (List.range 33).any (fun q => (getQp s q).en) then postOps ⟨2, stOK, 0, 15, [cause]⟩ s else raiseVec s 33

/-- Completes a command on its pair, unless the pair has been disabled since it was taken (14 R342, R344). -/
def complete (q epoch : Nat) (cid : BitVec 16) (status part state : Nat) (res : List Nat) (s : State) : State :=
  let p := getQp s q
  if p.en && decide (p.epoch = epoch) then
    raiseVec (setQp s q (pushCq { p with taken := p.taken - 1 } ⟨cid, status, false, 0, 0, part, state, res⟩)) (vecOf q p)
  else s

/-- Completes the long command of a partition and forgets it (14 R352). -/
def completeLong (k status : Nat) (res : List Nat) (s : State) : State :=
  match (getPart s k).long with
  | none => s
  | some l =>
    complete l.qp l.epoch l.cid status k (getPart s k).st.code res (modPart s k (fun p => { p with long := none }))

/-- A response: channel and bytes. The channels are 1 CXL.mem, 2 PLDM and MCTP, 3 SPDM, 4 the mailbox. -/
def say (ch : Nat) (bs : List Byte) (s : State) : State := { s with said := s.said ++ [(ch, bs)] }
/-- A PLDM report: a code and a value (17 R437, R438; 18 R459). -/
def pldm (code v : Nat) (s : State) : State := say 2 [BitVec.ofNat 8 code, BitVec.ofNat 8 v] s

/-- A cause of REL_SUSPECT; the first one is told to the operator pairs and through PLDM (19 R475). -/
def suspect (bit : Nat) (s : State) : State :=
  let old := s.rel.suspect
  let s1 := { s with rel := { s.rel with suspect := setBit old bit true } }
  if old = 0 then pldm 0x40 (s1.rel.suspect.toNat % 256) (postOps ⟨6, stOK, 0, 15, [s1.rel.suspect.toNat]⟩ s1) else s1

/-- A REL_WATCH condition is met (19 R476). -/
def watch (bit : Fin 6) (s : State) : State :=
  { s with rel := { s.rel with watch := setBit s.rel.watch bit true, seen := s.rel.seen.set bit s.time } }

/-- One hour, in picoseconds. -/
def hour : Nat := 3600000000000000
/-- The times that lie at most a span back. -/
def recent (s : State) (span : Nat) (l : List Nat) : List Nat := l.filter (fun t => decide (s.time ≤ t + span))

/-- An uncorrectable SRAM, link or stack-line event: one to three in 24 h set the watch bit UE, four make the module suspect
(19 Table 19-6, Table 19-8). -/
def countUe (s : State) : State :=
  let l := s.time :: recent s (24 * hour) s.rel.ue
  let s1 := { s with rel := { s.rel with ue := l } }
  if 4 ≤ l.length then suspect 9 s1 else watch 5 s1

-- Taking a command -----------------------------------------------------------------------------------------------

/-- Whether a pair has an entry the module may take: enabled, an entry available, and room for its completion (14 R345). -/
def canTake (s : State) (q : Nat) : Bool :=
  let p := getQp s q
  p.en && decide (p.sqHead ≠ p.sqTail) && decide (0 < cqRoom p)

/-- The pair whose turn it is: the first that can be taken from, round robin (14 R345). -/
def turnOf (s : State) : Option Nat :=
  ((List.range 33).map (fun i => (s.host.turn + i) % 33)).find? (canTake s)

/-- Takes the entry at the head of a pair's submission ring, if it is that pair's turn. -/
def takeEntry (q : Nat) (s : State) : Option State :=
  if turnOf s = some q then
    let p := getQp s q
    let s' := setQp s q { p with sqHead := (p.sqHead + 1) % ringSize p.sqsz, taken := p.taken + 1 }
    some { s' with host := { s'.host with turn := (q + 1) % 33 } }
  else none

/-- What a command does once taken: it completes with a status and results, or later. -/
inductive Reply where
  | done (status : Nat) (res : List Nat) (s : State)
  | later (s : State)

/-- The first code whose condition holds. -/
def firstCode : List (Bool × Nat) → Option Nat
  | [] => none
  | (b, c) :: t => if b then some c else firstCode t

/-- The partition state that a completion reports: 0xF for a module command (14 R349). -/
def stateField (modCmd : Bool) (k : Nat) (s : State) : Nat := if modCmd then 15 else (getPart s k).st.code

/-- Runs a command: the entry is taken, the checks are made in order, a refusal is logged and has no other effect, and
otherwise the effect answers (14 R345, R348). While it is not the pair's turn nothing happens. -/
def runCmd (opc : Nat) (modCmd : Bool) (c : Cmd) (checks : State → List (Bool × Nat)) (f : State → Reply) (s : State) : Out :=
  match takeEntry c.qp s with
  | none => .next s
  | some s1 =>
    let ep := (getQp s1 c.qp).epoch
    let fin := fun (st : Nat) (res : List Nat) (s : State) =>
      complete c.qp ep c.cid st c.part (stateField modCmd c.part s) res s
    match firstCode (checks s1) with
    | some code =>
      .next (fin code [] { s1 with host := { s1.host with refused := (opc, (c.part : Nat), code) :: s1.host.refused } })
    | none =>
      match f s1 with
      | .done st res s2 =>
        .next (fin st res (if st = stOK then s2
          else { s2 with host := { s2.host with refused := (opc, (c.part : Nat), st) :: s2.host.refused } }))
      | .later s2 => .next s2

/-- The record of a command that completes later. -/
def longOf (kind : LongKind) (c : Cmd) (nums cores : List Nat) (s : State) : Long :=
  ⟨kind, c.qp, (getQp s c.qp).epoch, c.cid, north s, nums, cores, (getPart s c.part).st⟩

/-- A field of argument i. -/
def argFld (c : Cmd) (i lo len : Nat) : Nat := fld (c.args.toList.getD i 0) lo len
/-- Argument i. -/
def arg (c : Cmd) (i : Nat) : Nat := argFld c i 0 32

/-- Whether the entry breaks the format: a reserved bit, CID 0xFFFF, a misaligned buffer, or a nonzero field that the command
does not use; masks gives the used bits of the arguments (14 R343). -/
def badForm (c : Cmd) (modCmd useTc useBuf : Bool) (masks : List Nat) : Bool :=
  c.resv || decide (c.cid = 0xFFFF#16) || decide (c.bufAddr.toNat % 64 ≠ 0) || (modCmd && decide (c.part ≠ 0)) ||
  (!useTc && decide (c.tc ≠ 0)) || (!useBuf && (decide (c.bufAddr ≠ 0) || decide (c.bufLen ≠ 0))) ||
  (List.range 8).any (fun i => decide ((c.args.toList.getD i 0) &&& ~~~ BitVec.ofNat 32 (masks.getD i 0) ≠ 0))

/-- All 32 bits of an argument. -/
def all32 : Nat := 0xFFFFFFFF

/-- Whether the pair is bound to the operator. -/
def isO (s : State) (c : Cmd) : Bool := decide ((getQp s c.qp).role = 1)
/-- Whether the pair is bound to the partition's tenant; the operator holds the tenant's rights over a partition of
principal 0 (16 R398). -/
def isT (s : State) (c : Cmd) : Bool :=
  let p := getPart s c.part
  p.st ≠ .none &&
    ((decide ((getQp s c.qp).role = 2) && decide ((getQp s c.qp).prin = p.prin)) || (isO s c && decide (p.prin = 0)))
/-- Whether the pair is bound as a debugger under a grant for the partition (20 R482). -/
def isD (s : State) (c : Cmd) : Bool :=
  decide ((getQp s c.qp).role = 3) &&
    (match (getQp s c.qp).grant with | some g => decide (g.part = c.part) | none => false)

/-- Whether the partition is in one of the states. -/
def inSt (s : State) (c : Cmd) (l : List PSt) : Bool := l.contains (getPart s c.part).st
/-- Before EARLY, and after a module trip, only a few commands are accepted (15 R384; 17 R438). -/
def tooEarly (s : State) : Bool := !s.host.early || s.power.modTrip
/-- Whether the partition has a command in progress (14 R352). -/
def longBusy (s : State) (c : Cmd) : Bool := (getPart s c.part).long.isSome

-- Doorbells and pair registers -----------------------------------------------------------------------------------

/-- A pair stopped by a ring error (14 R342). -/
def ringError (q : Nat) (s : State) : State :=
  setQp s q { getQp s q with err := true, code := stBounds, en := false, cq := [], events := [], lost := false, taken := 0 }

/-- SQ_TAIL: entries up to the index become available; an index beyond the ring stops the pair (14 R342). -/
def execSqTail (q : Fin 33) (tail : BitVec 12) (s : State) : Out :=
  let p := getQp s q
  .next (if !p.en then s
    else if ringSize p.sqsz ≤ tail.toNat then ringError q s
    else setQp s q { p with sqTail := tail.toNat })

/-- CQ_HEAD: entries up to the index are consumed; an index beyond the ring, or past CQ_TAIL, stops the pair (14 R342). -/
def execCqHead (q : Fin 33) (head : BitVec 12) (s : State) : Out :=
  let p := getQp s q
  let n := ringSize p.cqsz
  let used := (head.toNat + (n - p.cqHead)) % n
  .next (if !p.en then s
    else if n ≤ head.toNat ∨ p.cq.length < used then ringError q s
    else drainEvents q 66 (setQp s q { p with cqHead := head.toNat, cq := p.cq.drop used }))

/-- QP_ENABLE: a write of QP_CTRL. With EN = 0 the sizes and the vector are written; setting EN sets both indices to 0 and
the phase to 1; clearing EN stops the taking of entries and discards what is to come (14 R342). -/
def execQpEnable (q : Fin 33) (v : Word) (s : State) : Out :=
  let p := getQp s q
  let on := v.getLsbD 8
  let p1 := if p.en then p else { p with sqsz := min 8 (fld v 0 4), cqsz := min 8 (fld v 4 4), vec := some (fld v 16 6) }
  .next (if on && !p.en then
      setQp s q { p1 with en := true, err := false, code := 0, sqHead := 0, sqTail := 0, cqHead := 0, cqTail := 0, phase := true,
                          epoch := p.epoch + 1, taken := 0, cq := [], events := [], lost := false }
    else if !on && p.en then setQp s q { p1 with en := false, cq := [], events := [], lost := false, taken := 0 }
    else setQp s q p1)

/-- MOD_TC_LO: the read captures bits [47:32] of the north rim count in MOD_TC_HI (14 R339). -/
def execModTcLo (s : State) : Out :=
  .next { s with host := { s.host with tcHi := (BitVec.ofNat 48 (north s)).extractLsb' 32 16 } }

end Sys2Proof.Machine
end

