-- ==== Sys2Proof/Machine/Job.lean ====
section
/-! DEFINITION. What happens to a partition as a whole: holding and releasing its cores, the job rate, the first fault and
the end of a job, halting and zeroising cores (02 R40 to R42; 14 R351 to R354, R368; 15 R388; 19 R464 to R467). -/

namespace Sys2Proof.Machine

/-- Freezes the cores that meet a test: RUN becomes HOLD, a core in HALT records HOLD_SEEN (02 R40, R42). -/
def freeze (p : Nat → Bool) (s : State) : State :=
  mapCores s (fun g _ => p g) (fun _ c =>
    match c.r.st with
    | .run => { c with r := { c.r with st := .hold } }
    | .halt => { c with r := { c.r with holdSeen := true } }
    | _ => c)

/-- Whether a partition is HELD, so that its cores stay frozen (14 R351). -/
def partHeld (s : State) (g : Nat) : Bool :=
  match (getPan s (panOf g)).part with
  | some k => decide ((getPart s k).st = .held)
  | none => false

/-- Releases the frozen cores that meet a test, unless the wafer HOLD or their partition still holds them (02 R40; 14 R351). -/
def thaw (p : Nat → Bool) (s : State) : State :=
  if s.tide.frozen then s
  else mapCores s (fun g c => p g && decide (c.r.st = .hold) && !partHeld s g) (fun g c =>
    let c' := { c with r := { c.r with st := .run } }
    if c.x.haltReq then withdraw (envOf s g) c' else c')

/-- The lowest of the job rate and the four limits (10 R242). -/
def targetRate (t : Tide) : Nat := min (min t.jobRate t.cal) (min t.lic (min t.pwr t.therm))

/-- The codes that the present jobs request; 50 where a job requests none (14 R368). -/
def jobRates (s : State) : List Nat :=
  s.parts.filterMap (fun kp =>
    if kp.2.st = .ready ∨ kp.2.st = .running ∨ kp.2.st = .held then
      match kp.2.image with
      | some im => some (if im.rate = 0 then 50 else im.rate)
      | none => none
    else none)

/-- The job rate is recomputed; the management block moves the pace toward it at its next tick (14 R368; 18 R446). -/
def newJobRate (s : State) : State := { s with tide := { s.tide with jobRate := (jobRates s).foldl min 50 } }

/-- The listed cores of a partition in RUN or HOLD. -/
def activeCores (s : State) (k : Nat) : List Nat :=
  (s.cores.filter (fun gc => inPart s k gc.1 && (decide (gc.2.r.st = .run) || decide (gc.2.r.st = .hold)))).map Prod.fst

/-- Sends halt requests along the rake chains (20 R483). -/
def sendHalts (gs : List Nat) (s : State) : State := { s with haltSent := s.haltSent ++ gs.filter (fun g => !s.haltSent.contains g) }

/-- The modules of a partition's job other than this one, from its rank map (13 R314). -/
def otherModules (s : State) (k : Nat) : List Nat :=
  match (getPart s k).image with
  | none => []
  | some im => ((im.ranks.map (fun w => fld w 8 16)).filter (· ≠ s.modnum)).dedup

/-- Sends a CTRL message to modules (13 R332). -/
def sendCtrl (sub k : Nat) (peers body : List Nat) (s : State) : State :=
  { s with ctrlOut := s.ctrlOut ++ peers.map (fun m => ⟨sub, k, m, body⟩) }

/-- The stream contexts of a partition, changed. -/
def mapCtxs (k : Nat) (f : Ctx → Ctx) (s : State) : State :=
  { s with engs := tmapv Engine48.zero (fun _ e =>
      { e with ctxs := tmapv Ctx.zero (fun _ c => if c.part = some k then f c else c) e.ctxs }) s.engs }

/-- The JOB_END event of a partition: its code, and the first fault as Table 19-2 lays it out (14 R346; 19 R464). -/
def jobEndEvent (k : Nat) (p : Part) : Event :=
  match p.fault with
  | none => ⟨1, p.endCode, k, p.st.code, [k]⟩
  | some f => ⟨1, p.endCode, k, p.st.code,
      [k, f.src + f.loc * 16 + f.sub * 2 ^ 24, fld f.tc 0 32, fld f.tc 32 16, f.more]⟩

/-- The open guard step discarded (06 R154; 19 R465). -/
def dropGuardStep (g : GuardUnit) : GuardUnit := { g with count := 0, ovf := false, timer := none, next := none, own := none, others := [] }

/-- The steps that end a job on a failure, from the third of R465 on: cores halted, guard step discarded, FAULTED, a long
command completed with the code, JOB_END posted, the job rate recomputed (19 R465, R466; 14 R353, R368). -/
def endFaulted (k code : Nat) (s : State) : State :=
  let s1 := sendHalts (activeCores s k) s
  let s2 := modPart s1 k (fun p => { p with st := .faulted, endCode := code, guard := dropGuardStep p.guard, reload := none, ends := none })
  let s3 := completeLong k code [] s2
  newJobRate (postJob k (jobEndEvent k (getPart s3 k)) s3)

/-- The same steps, which use the mesh and so wait for the release while HOLD has stopped the wafer; after a module trip, which no
release follows, they are taken at once (17 R430, R438; 19 R465, R467). -/
def endOrWait (k code : Nat) (s : State) : State :=
  if s.tide.frozen && !s.power.modTrip then modPart s k (fun p => { p with ends := some code }) else endFaulted k code s

/-- The job ends that have waited for the release (17 R430; 19 R467). -/
def endWaiting (s : State) : State :=
  s.parts.foldl (fun s kp => match kp.2.ends with | some code => endFaulted kp.1 code s | none => s) s

/-- A later failure of a partition advances MORE, saturating (19 R464, R467). -/
def moreFaults (p : Part) : Part := { p with fault := p.fault.map (fun f => { f with more := min 0xFFFF (f.more + 1) }) }

/-- The channels of a partition stop (13 R333). -/
def stopChans (k : Nat) (s : State) : State :=
  { s with fab := { s.fab with chans := tmapv none (fun _ c => c.map (fun c => if c.part = k then { c with stop := true } else c)) s.fab.chans } }

/-- Records a failure of a partition: the first in READY, RUNNING or HELD ends the job, a later one, or one after the end
barrier's release, advances MORE, any other is discarded. det is the detail of a synchronisation fault, stop says that
streams and endpoints stop, peers are the modules that are told (19 R464, R465, R467; 15 R390; 09 R238). -/
def recordDet (det : List Nat) (stop : Bool) (peers : List Nat) (k code src loc sub : Nat) (s : State) : State :=
  let p := getPart s k
  match p.st with
  | .faulted => modPart s k moreFaults
  | .draining =>
    if p.ending then
      modPart s k (fun p => { p with fault := match p.fault with
        | some f => some { f with more := min 0xFFFF (f.more + 1) }
        | none => some ⟨0, 0, 0, 0, 0, 1, []⟩ })
    else s
  | .ready | .running | .held =>
    if p.ends.isSome then modPart s k moreFaults
    else
      let s1 := modPart s k (fun p => { p with fault := some ⟨code, src, loc, sub, BitVec.ofNat 48 (north s), 0, det⟩ })
      let s2 := if stop then stopChans k (mapCtxs k (fun c => { c with st := .fault }) s1) else s1
      endOrWait k code (sendCtrl 4 k peers [code] s2)
  | _ => s

/-- Records a failure without a detail (19 R464, R465). -/
def recordWith (stop : Bool) (peers : List Nat) (k code src loc sub : Nat) (s : State) : State :=
  recordDet [] stop peers k code src loc sub s

/-- Records a synchronisation fault with its detail, all modules of the job told (09 R238; 19 R465). -/
def syncFault (det : List Nat) (k code src loc : Nat) (s : State) : State :=
  recordDet det true (otherModules s k) k code src loc 0 s

/-- Records a failure, all modules of the job told unless quiet (19 R465). -/
def recordFault (k code src loc sub : Nat) (quiet : Bool) (s : State) : State :=
  recordWith true (if quiet then [] else otherModules s k) k code src loc sub s

/-- A core zeroised to CLEAR: every byte of its context 0, P0 read as 1, the fault record cleared; the activity counters and
SRAM_CE are no part of a context; a DEFECT position is left unchanged (15 R388; 02 R49, R53). -/
def zeroise (c : Core) : Core :=
  if c.r.st = .defect then c
  else { Core.zero with r := { CoreRegs.zero with
    actMtx := c.r.actMtx, actVec := c.r.actVec, actSram := c.r.actSram, actFlit := c.r.actFlit, sramCe := c.r.sramCe } }

/-- The good positions of a pan, in logical order, as global core numbers; fuel is the number of positions (15 R381). -/
def goodCores (s : State) (pan : Nat) : List Nat :=
  ((List.range 9600).filter (fun l => !(getPan s pan).defects.contains l)).map (coreAt pan)

/-- The core that an image core number names in a partition: pan ordinal and rank (14 R357). -/
def imageCore (s : State) (k icn : Nat) : Option Nat :=
  match (getPart s k).pans[icn / 10240]? with
  | none => none
  | some pan => if icn % 10240 < 9600 then (nthGood 9601 (getPan s pan).defects 0 (icn % 10240)).map (coreAt pan) else none

/-- The image core number of a core of a partition (14 R357). -/
def icnOf (s : State) (k g : Nat) : Nat :=
  let p := getPan s (panOf g)
  let l := localOf g
  10240 * ((firstIdx (· = panOf g) (getPart s k).pans).getD 0) + (l - (p.defects.filter (· < l)).length)

/-- Whether a core record loads code: its core is a member of the guard group (06 R146). -/
def isMember (r : CoreRec) : Bool := r.chunks.any (fun c => c.2.1)

/-- Whether a core is a member of its partition's job (06 R146). -/
def memberCore (s : State) (g : Nat) : Bool :=
  match (getPan s (panOf g)).part with
  | some k => (match (getPart s k).image with
    | some im => im.cores.any (fun r => isMember r && decide (r.icn = icnOf s k g))
    | none => false)
  | none => false

/-- HALT_REQUEST: a halt request on its way reaches its core (02 R41; 20 R485). -/
def execHaltRequest (g : Nat) (s : State) : Out :=
  if s.haltSent.contains g then
    onCore g { s with haltSent := s.haltSent.filter (· ≠ g) } requestHalt
  else .next s

/-- HALT_ENTRY: the core enters HALT once it has drained (20 R485; 02 R41). -/
def execHaltEntry (g : Nat) (s : State) : Out := onCore g s enterHalt

/-- STALL_WATCHDOG: STALL is raised. With a debugger attached the core takes a halt request, if none is pending, and the
debugger's pair event 7; otherwise the core faults with STALL, SUB 0x1A (07 R181, R182; 20 R481, R495). -/
def execStallWatchdog (g : Nat) (s : State) : Out :=
  if numCores ≤ g then .fault .noSuchUnit
  else
    let c := getCore s g
    let e := envOf s g
    if !stallRaised e c || c.x.stalled then .next s
    else
      let k := e.part.getD 0
      match (if e.part.isSome then (getPart s k).dbg else none) with
      | some d =>
        let c1 := requestHalt e { c with x := { c.x with stalled := true } }
        .next (postTo d.qp ⟨7, stStall, k, (getPart s k).st.code, [icnOf s k g, stallDetail c]⟩ (setCore s g c1))
      | none => .next (setCore s g (dataFault e stStall 0x1A (stallDetail c) c))

/-- INSTRUCTION_FETCH: one step of fetch, with the comparators of the core's rake station (03 R59, R60; 20 R487). -/
def execInstructionFetch (g : Nat) (s : State) : Out :=
  if numCores ≤ g then .fault .noSuchUnit
  else
    let c := getCore s g
    let t := getStation s (stationOf g)
    let bp := t.mask.getLsbD (posOf g) && t.bp.toList.any (fun w => w.getLsbD 14 && decide (fld w 0 14 = c.pc))
    let (c', hit) := fetchStep (envOf s g) bp c
    let s' := setCore s g c'
    .next (if hit then setStation s' (stationOf g) { t with hits := min 0xFFFF (t.hits + 1) } else s')

end Sys2Proof.Machine
end

