-- ==== Sys2Proof/Machine/Mesh.lean ====
section
/-! DEFINITION. The wafer mesh: links and sluices, slot tables, the switch of data flits with its credits, control lanes and
control ports, and the routes of control messages (11 R258 to R275, R512). -/

namespace Sys2Proof.Machine

/-- A router. -/
def getRouter (s : State) (g : Nat) : Router := tget Router.zero s.routers g
/-- The module with a router replaced. -/
def setRouter (s : State) (g : Nat) (r : Router) : State := { s with routers := tset Router.zero s.routers g r }
/-- The module with a router changed. -/
def modRouter (s : State) (g : Nat) (f : Router → Router) : State := setRouter s g (f (getRouter s g))
/-- A sluice entry: 4 x pan + side. -/
def getSluice (s : State) (k : Nat) : Sluice := tget Sluice.zero s.sluices k
/-- The module with a sluice entry replaced. -/
def setSluice (s : State) (k : Nat) (x : Sluice) : State := { s with sluices := tset Sluice.zero s.sluices k x }
/-- An edge link of the rim: 4 x router + side. -/
def getEdge (s : State) (k : Nat) : Edge := tget Edge.zero s.edges k
/-- The module with an edge link replaced. -/
def setEdge (s : State) (k : Nat) (x : Edge) : State := { s with edges := tset Edge.zero s.edges k x }
/-- A pan's collector changed. -/
def modColl (s : State) (k : Nat) (f : Collector → Collector) : State :=
  setPan s k { getPan s k with coll := f (getPan s k).coll }

/-- The period code in a node: the new one from its own count at which a change takes effect (11 R262). -/
def lcodeOf (s : State) (n : Nat) : Nat :=
  match s.mesh.pend with
  | some (T, k) => if T ≤ (getNode s n).steps then k else s.mesh.lcode
  | none => s.mesh.lcode

/-- The schedule period L in a pan (11 R262). -/
def periodOf (s : State) (n : Nat) : Nat := 2 ^ lcodeOf s n

/-- The schedule period L, as the north rim has it (11 R262). -/
def period (s : State) : Nat := periodOf s 96

/-- The router beyond side k (0 N, 1 E, 2 S, 3 W), none at the edge of the array (11 R258). -/
def nbr (g : Nat) (k : Fin 4) : Option Nat :=
  match k with
  | 0 => if gY g = 0 then none else some (g - 960)
  | 1 => if gX g = 959 then none else some (g + 1)
  | 2 => if gY g = 959 then none else some (g + 960)
  | 3 => if gX g = 0 then none else some (g - 1)

/-- The opposite side. -/
def opp (k : Fin 4) : Fin 4 := k + 2

/-- Whether a pan is in the tide (10 R256). -/
def panLive (s : State) (k : Nat) : Bool := s.tide.live.getLsbD k

/-- The live neighbours of a node: pans beside a pan and the rim segment on an edge; the pans on a segment's edge
(10 R240). -/
def nodeNbrs (s : State) (n : Nat) : List Nat :=
  if n < 96 then
    ((if n / 8 = 0 then [96] else [n - 8]) ++ (if n % 8 = 7 then [97] else [n + 1]) ++
      (if n / 8 = 11 then [98] else [n + 8]) ++ (if n % 8 = 0 then [99] else [n - 1])).filter (fun m => 96 ≤ m || panLive s m)
  else
    ((List.range 96).filter (fun p =>
      decide (n = 96 ∧ p / 8 = 0) || decide (n = 97 ∧ p % 8 = 7) || decide (n = 98 ∧ p / 8 = 11) || decide (n = 99 ∧ p % 8 = 0))).filter
      (panLive s)

-- Control lanes --------------------------------------------------------------------------------------------------

/-- The outputs that a lane owns: 0 SE, 1 SW, 2 NE, 3 NW (11 R266). -/
def laneOuts (l : Fin 4) : List (Fin 4) :=
  match l with
  | 0 => [1, 2]
  | 1 => [2, 3]
  | 2 => [0, 1]
  | 3 => [0, 3]

/-- The pan parts of a lane's potential, by pan: the longest path of crossing latencies from the lane's start over its two
upstream sides (11 R267). The pans are taken in the lane's order: columns from its start side, rows from its start side. -/
def panPots (s : State) (l : Fin 4) : List Nat :=
  let east := l = 0 ∨ l = 2
  let south := l = 0 ∨ l = 1
  let px := fun i => if east then i else 7 - i
  let py := fun j => if south then j else 11 - j
  let dH := fun i j => (getSluice s (4 * (py j * 8 + px i) + (if east then 3 else 1))).d
  let dV := fun i j => (getSluice s (4 * (py j * 8 + px i) + (if south then 0 else 2))).d
  let row := fun (prev : List Nat) (j : Nat) => (List.range 8).foldl (fun (acc : List Nat) i =>
    let a := if i = 0 then 0 else acc.getLastD 0 + dH i j
    let b := if j = 0 then 0 else prev.getD i 0 + dV i j
    acc ++ [max a b]) []
  let rows := ((List.range 12).foldl (fun (acc : List Nat × List (List Nat)) j =>
    let r := row acc.1 j
    (r, acc.2 ++ [r])) ([], [])).2
  (List.range 96).map (fun p =>
    let i := if east then p % 8 else 7 - p % 8
    let j := if south then p / 8 else 11 - p / 8
    (rows.getD j []).getD i 0)

/-- The lanes computed: potentials, CW_MAX, LANES (11 R267, R274). -/
def computeLanes (s : State) : State :=
  let pots := (List.finRange 4).map (panPots s)
  let top := (pots.map (fun l => l.foldl max 0)).foldl max 0
  { s with mesh := { s.mesh with pots := pots, lanes := true, cwMax := period s + 6 + 1918 + top } }

/-- A lane's potential at a router (11 R267). -/
def lanePot (s : State) (l : Fin 4) (g : Nat) : Nat :=
  (if l = 0 ∨ l = 2 then gX g else 959 - gX g) + (if l = 0 ∨ l = 1 then gY g else 959 - gY g) +
    (s.mesh.pots.getD l []).getD (panOf g) 0

/-- RT_LANE_A and RT_LANE_B of a router: what firmware wrote, unless the controller has written those of a new period since, else
the computed indices, else 0 (11 R262, R267, Table 11-10). -/
def laneWords (s : State) (g : Nat) : Word × Word :=
  match (if lcodeOf s (panOf g) = s.mesh.lcode then (getRouter s g).laneSet else none) with
  | some w => w
  | none =>
    if s.mesh.lanes then
      let ix := fun (l : Fin 4) => lanePot s l g % periodOf s (panOf g)
      (BitVec.ofNat 32 (ix 0 + ix 1 * 65536), BitVec.ofNat 32 (ix 2 + ix 3 * 65536))
    else (0, 0)

/-- A lane's index at a router (11 R266). -/
def laneIdx (s : State) (l : Fin 4) (g : Nat) : Nat :=
  let w := laneWords s g
  match l with
  | 0 => fld w.1 0 10
  | 1 => fld w.1 16 10
  | 2 => fld w.2 0 10
  | 3 => fld w.2 16 10

/-- Whether a lane owns an output of a router at a table index (11 R266). -/
def laneOwned (s : State) (g : Nat) (k : Fin 4) (ix : Nat) : Bool :=
  (List.finRange 4).any (fun l => (laneOuts l).contains k && decide (laneIdx s l g = ix))

/-- The lane for a difference of coordinates (11 R269). -/
def laneFor (x0 y0 x1 y1 : Nat) : Fin 4 :=
  if x0 ≤ x1 then (if y0 ≤ y1 then 0 else 2) else (if y0 ≤ y1 then 1 else 3)

/-- Whether every pan on a straight line between two routers is in the tide. -/
def lineLive (s : State) (x0 y0 x1 y1 : Nat) : Bool :=
  (List.range 96).all (fun p =>
    let px := p % 8
    let py := p / 8
    !(decide (min x0 x1 / 120 ≤ px) && decide (px ≤ max x0 x1 / 120) && decide (min y0 y1 / 80 ≤ py) && decide (py ≤ max y0 y1 / 80)) ||
      panLive s p)

/-- Whether every leg of a way is straight and meets no dark pan. -/
def wayLive (s : State) : List Nat → Bool
  | a :: b :: rest => (decide (gX a = gX b) || decide (gY a = gY b)) && lineLive s (gX a) (gY a) (gX b) (gY b) && wayLive s (b :: rest)
  | _ => true

/-- A way's points with repetitions left out. -/
def distinct : List Nat → List Nat
  | a :: b :: rest => if a = b then distinct (b :: rest) else a :: distinct (b :: rest)
  | l => l

/-- The two coordinates beside a pan's span on one axis, the nearer first, the lower where they are equally near; then those in
the middle of every pan of the axis (11 R275). -/
def sideways (v span top : Nat) : List Nat :=
  let lo := v / span * span
  let low := if 0 < lo then [lo - 1] else []
  let high := if lo + span < top then [lo + span] else []
  (if v - lo ≤ lo + span - 1 - v then low ++ high else high ++ low) ++ (List.range (top / span)).map (fun i => i * span + span / 2)

/-- The ways that a message from a router to another may take, in the order in which they are tried: X first; Y first; one pan
sideways past the dark pan and back. That further pans are tried where those beside it are dark too is the model's DESIGN CHOICE,
log 109 (11 R269, R275). -/
def ways (a b : Nat) : List (List Nat) :=
  let (x0, y0, x1, y1) := (gX a, gY a, gX b, gY b)
  let at_ := fun (x y : Nat) => y * 960 + x
  let cols := (sideways x0 120 960).map (fun x => [a, at_ x y0, at_ x y1, b])
  let rows := (sideways y0 80 960).map (fun y => [a, at_ x0 y, at_ x1 y, b])
  ([a, at_ x1 y0, b] :: [a, at_ x0 y1, b] :: (if y0 / 80 = y1 / 80 then rows ++ cols else cols ++ rows)).map distinct

/-- The lane of a way: the one that owns the directions of its first two legs (11 R269). -/
def wayLane (w : List Nat) : Fin 4 :=
  let a := w.headD 0
  let b := (w.drop 2).headD ((w.drop 1).headD a)
  laneFor (gX a) (gY a) (gX b) (gY b)

/-- The first way that meets no dark pan. -/
def liveWay (s : State) (a b : Nat) : Option (List Nat) := (ways a b).find? (wayLive s)

/-- The way of a message from a router to another: its lane and way points; none are named where it goes X first (11 R269,
R275). -/
def planRoute (s : State) (a b : Nat) : Fin 4 × List Nat :=
  match liveWay s a b with
  | some w => (wayLane w, if w = (ways a b).headD [] then [] else (w.drop 1).dropLast)
  | none => (laneFor (gX a) (gY a) (gX b) (gY b), [])

/-- The columns by which a router is reached from the north rim, its own first (11 R271, R275, R512). -/
def rimColumns (g : Nat) : List Nat := gX g :: sideways (gX g) 120 960

/-- The column at which a message to a router enters at the north edge (11 R275, R512). -/
def entryColumn (s : State) (g : Nat) : Nat := ((rimColumns g).find? (fun x => (liveWay s x g).isSome)).getD (gX g)

/-- The column at which a message from a router leaves at the north edge (11 R271, R275). -/
def exitColumn (s : State) (g : Nat) : Nat := ((rimColumns g).find? (fun x => (liveWay s g x).isSome)).getD (gX g)

/-- The lane in which a message goes on to a point: its own where that owns the directions it needs, so that a message past a
detour changes lane once (11 R266, R275). -/
def laneAfter (cur : Fin 4) (g t : Nat) : Fin 4 :=
  let need := (if gX g < gX t then [(1 : Fin 4)] else if gX t < gX g then [3] else []) ++
    (if gY g < gY t then [2] else if gY t < gY g then [0] else [])
  if need.all (fun o => (laneOuts cur).contains o) then cur else laneFor (gX g) (gY g) (gX t) (gY t)

/-- The collector router of a pan: local position (py, 0) (11 R271). -/
def collectorOf (pan : Nat) : Nat := coreAt pan (pan / 8)

/-- A message on its way north out of the array (11 R271, R275). -/
def northward (s : State) (g : Nat) (side : Fin 5) (now : Nat) (m : Msg) : LaneMsg :=
  let x := exitColumn s g
  let r := planRoute s g x
  ⟨m, if g = x then 2 else r.1, if x = gX g then r.2 else r.2 ++ [x], .north, side, now, false⟩

/-- A message of a core as it enters its lane (11 R269 to R271). -/
def launch (s : State) (g : Nat) (side : Fin 5) (now : Nat) (m : Msg) : LaneMsg :=
  let goTo := fun (t : Nat) => let r := planRoute s g t; (⟨m, r.1, r.2, .to t, side, now, false⟩ : LaneMsg)
  match m.tgt with
  | some t => goTo t
  | none =>
    match m.body with
    | .fault _ _ _ => northward s g side now m
    | _ => goTo (collectorOf (panOf g))

/-- The next output of a lane message at a router: to its next way point or target, X first (11 R269). -/
def nextOut (g : Nat) (m : LaneMsg) : Fin 4 :=
  let toward := fun (t : Nat) =>
    if gX g < gX t then (1 : Fin 4) else if gX t < gX g then 3 else if gY g < gY t then 2 else 0
  match m.via with
  | w :: _ => toward w
  | [] =>
    match m.dst with
    | .to t => toward t
    | .north => 0
    | .column _ _ _ _ => 2
    | .row x => if gX g < x then 1 else 3

/-- Whether two messages merge: one type 6, 7 or 9, one partition and generation, one parity or barrier, whatever flags the
arrivals name (11 R269). -/
def merges (a b : LaneMsg) : Bool :=
  a.dst = b.dst && a.via = b.via && decide (a.msg.part = b.msg.part) && decide (a.msg.pgen = b.msg.pgen) &&
    (match a.msg.body, b.msg.body with
      | .guardC _ _ p, .guardC _ _ q => p == q
      | .guardWd _ p, .guardWd _ q => p == q
      | .barArr m _ _ _, .barArr n _ _ _ => m == n
      | _, _ => false)

/-- Two messages merged: counts add, overflow bits OR, arriving cores join; a flag that differs is kept, so that the collector finds
it: DESIGN CHOICE, log 110 (11 R269; 09 R234). -/
def merge (a b : LaneMsg) : LaneMsg :=
  { a with
    at_ := min a.at_ b.at_
    msg := { a.msg with body := match a.msg.body, b.msg.body with
      | .guardC o n p, .guardC o' n' _ => .guardC (o || o') (n + n') p
      | .guardWd n p, .guardWd n' _ => .guardWd (n + n') p
      | .barArr n f l o, .barArr _ f' l' o' => .barArr n f (l ++ l') (if f' = f then o.or o' else some f')
      | x, _ => x } }

/-- Messages grouped: each message merged with those after it that merge with it; the flag says that some did; fuel is the
number of messages. -/
def mergeAll : Nat → List LaneMsg → List (LaneMsg × List LaneMsg)
  | 0, _ => []
  | _, [] => []
  | n + 1, m :: t =>
    let same := t.filter (merges m)
    (same.foldl merge m, m :: same) :: mergeAll n (t.filter (fun x => !merges m x))

/-- The order in which a control flit is filled: merged messages, then the longest waiting, then by input (11 R269). -/
def beforeMsg (a b : LaneMsg × List LaneMsg) : Bool :=
  let ka := (if 1 < a.2.length then 0 else 1, a.1.at_, (a.1.side : Nat))
  let kb := (if 1 < b.2.length then 0 else 1, b.1.at_, (b.1.side : Nat))
  decide (ka.1 < kb.1) || (decide (ka.1 = kb.1) && (decide (ka.2.1 < kb.2.1) || (decide (ka.2.1 = kb.2.1) && decide (ka.2.2 ≤ kb.2.2))))

-- Crossings ------------------------------------------------------------------------------------------------------

/-- The depth of the buffer beyond an output: 4 within a pan, 32 across a sluice or a rim crossing (11 R264). -/
def depthOf (g : Nat) (k : Fin 4) : Nat :=
  match nbr g k with
  | some h => if panOf h = panOf g then 4 else 32
  | none => 32

/-- Puts a transfer into the crossing beyond side k of a router, in the sender's step t: it is delivered at the start of the
receiver's step t + 1 + D (10 R243; 11 R261). -/
def cross (s : State) (g : Nat) (k : Fin 4) (t : Nat) (x : Xfer) : State :=
  match nbr g k with
  | some h =>
    let i := 4 * panOf h + (opp k : Nat)
    let sl := getSluice s i
    if panLive s (panOf h) then setSluice s i { sl with held := sl.held ++ [⟨t + 1 + sl.d, h, opp k, x⟩] } else s
  | none =>
    let i := 4 * panOf g + (k : Nat)
    let sl := getSluice s i
    setSluice s i { sl with out := sl.out ++ [⟨t + 1 + sl.dOut, g, k, x⟩] }

/-- Puts a transfer into the rim crossing into side k of an edge router, in the segment's step t. -/
def crossIn (s : State) (g : Nat) (k : Fin 4) (t : Nat) (x : Xfer) : State :=
  let i := 4 * panOf g + (k : Nat)
  let sl := getSluice s i
  if !panLive s (panOf g) then s else setSluice s i { sl with held := sl.held ++ [⟨t + 1 + sl.d, g, k, x⟩] }

/-- A flit enters the input buffer of a router's side at the start of step t; RT_BUF keeps the most held (11 R264,
Table 11-10). -/
def pushInp (k : Fin 4) (t : Nat) (f : Flit) (r : Router) : Router :=
  let l := r.inp[k] ++ [f]
  { r with inp := r.inp.set k l, high := r.high.set k (max r.high[k] l.length), came := r.came.set k (t, false) }

/-- The place of an output's and a lane's count of credits. -/
def laneSlot (k l : Fin 4) : Fin 16 := ⟨4 * k.val + l.val, by have := k.isLt; have := l.isLt; omega⟩
/-- The credits spent on an output, on its link or on a lane of it, changed. -/
def useCredit (f : Nat → Nat) (k : Fin 4) (lane : Option (Fin 4)) (r : Router) : Router :=
  match lane with
  | none => { r with used := r.used.set k (f r.used[k]) }
  | some l => { r with laneUsed := r.laneUsed.set (laneSlot k l) (f r.laneUsed[laneSlot k l]) }

/-- A credit comes back to output k of a router at the start of step t (11 R264, R269). -/
def gainCredit (k : Fin 4) (lane : Option (Fin 4)) (t : Nat) (r : Router) : Router :=
  useCredit (· - 1) k lane { r with back := (t, k, lane) :: r.back.filter (fun b => decide (t ≤ b.1)) }

/-- A lane credit comes back to output k and lane l of a router. -/
def backLane (k l : Fin 4) (r : Router) : Router := useCredit (· - 1) k (some l) r

/-- A control message at its target's control port: it arrives 6 steps after the lane delivers it (11 R270). -/
def toPort (t : Nat) (m : LaneMsg) (r : Router) : Router := { r with port := r.port ++ [(t + 6, m)] }

/-- The next live pan row south of a router in its column, down to a row (11 R272, R275). -/
def nextSouth (s : State) (g lastY : Nat) : Option Nat :=
  ((List.range 12).filter (fun j => decide (gY g / 80 < j) && decide (j * 80 ≤ lastY))).find? (fun j => panLive s (8 * j + gX g / 120))

/-- Whether the broadcast copy at a router still has a way south: within the pan, or to the next live pan (11 R272, R275). -/
def goesSouth (s : State) (g lastY : Nat) : Bool :=
  decide (gY g < lastY) && (decide (gY g % 80 ≠ 79) || (nextSouth s g lastY).isSome)

/-- Whether the pan of a router belongs to a partition. -/
def panIn (s : State) (g k : Nat) : Bool := decide ((getPan s (panOf g)).part = some k)

/-- A lane message at a way point goes on to the next, or to where it was sent (11 R275). -/
def passPoint (g : Nat) (m : LaneMsg) : LaneMsg :=
  match m.via with
  | w :: rest =>
    if w ≠ g then m
    else match rest, m.dst with
      | w' :: _, _ => { m with via := rest, lane := laneAfter m.lane g w' }
      | [], .to b => { m with via := [], lane := laneAfter m.lane g b }
      | [], .north => { m with via := [], lane := if (laneOuts m.lane).contains 0 then m.lane else 2 }
      | [], _ => { m with via := [], lane := 0 }
  | [] => m

/-- A lane message reaches a router at the start of its step t over its lane: a collector takes what is for it, a target's control
port gets it 6 steps later, a broadcast is delivered, and what has further to go waits in the lane buffer. The second result says
whether it holds a place there (11 R269 to R272). -/
def laneArrive (s : State) (g t : Nat) (m0 : LaneMsg) : State × Bool :=
  let m := passPoint g m0
  let keep := fun (s : State) (m : LaneMsg) =>
    (modRouter s g (fun r => { r with lanes := r.lanes.set m0.lane (r.lanes[m0.lane] ++ [{ m with at_ := t, owed := true }]) }), true)
  if m.via ≠ [] then keep s m
  else match m.dst with
    | .to b =>
      if b ≠ g then keep s m
      else if m.msg.tgt = none then (modColl s (panOf g) (fun c => { c with inbox := c.inbox ++ [m.msg] }), false)
      else (modRouter s g (toPort t m), false)
    | .north => keep s m
    | .column y _ _ _ =>
      let here := panIn s g m.msg.part
      let south := goesSouth s g y
      let s1 := if here then modRouter s g (toPort t m) else s
      if here || south then keep s1 { m with dst := .column y south here here } else (s1, false)
    | .row x =>
      let s1 := modRouter s g (toPort t m)
      if gX g = x then (s1, false) else keep s1 m

-- The switch -----------------------------------------------------------------------------------------------------

/-- The source that output k of a slot entry selects: 0 idle, 1 to 4 the inputs N to W, 5 local (11 Table 11-2). -/
def selOf (e : BitVec 64) (k : Nat) : Nat := fld e (3 * k) 3
/-- LSEL of a slot entry. -/
def lselOf (e : BitVec 64) : Nat := fld e 12 3
/-- LIQ of a slot entry. -/
def liqOf (e : BitVec 64) : Fin 8 := Fin.ofNat 8 (fld e 15 3)
/-- LOQ of a slot entry. -/
def loqOf (e : BitVec 64) : Fin 4 := Fin.ofNat 4 (fld e 18 2)
/-- The tag expected at input k of a slot entry. -/
def tagOf (e : BitVec 64) (k : Nat) : Nat := fld e (20 + 6 * k) 6
/-- OT of a slot entry. -/
def otOf (e : BitVec 64) : Nat := fld e 44 6

/-- Whether a slot entry is valid in a router of a mode (11 R263). -/
def entryOk (mode : Nat) (e : BitVec 64) : Bool :=
  decide (fld e 50 14 = 0) && (List.range 4).all (fun k => decide (selOf e k ≤ 5) && decide (selOf e k ≠ k + 1)) && decide (lselOf e ≤ 5) &&
  (decide (mode ≠ 1) || (decide (lselOf e = 0) && (List.range 4).all (fun k => decide (selOf e k ≠ 5))))

/-- The mode of a router: OFF in a pan outside the tide (11 R258). -/
def modeOf (s : State) (g : Nat) : Nat := if panLive s (panOf g) then (getRouter s g).mode else 2

/-- A move of one source of a router: the flit, the link outputs, the local output. -/
structure Move where
  src  : Nat
  flit : Flit
  outs : List (Fin 4)
  loc  : Option (Fin 8)

/-- The outputs that select source k of an entry. -/
def outsOf (e : BitVec 64) (k : Nat) : List (Fin 4) := (List.finRange 4).filter (fun o => decide (selOf e o = k))

/-- The flit at the head of source k of a router, if it is the one the entry expects (11 R265). -/
def headOf (s : State) (g : Nat) (e : BitVec 64) (k : Nat) : Option Flit :=
  if k = 5 then
    let q := (getCore s g).x.start.oq[loqOf e]
    if 0 < q.count then some ⟨otOf e, ⟨(q.ent 0).data, setFld (q.ent 0).sb 6 2 0⟩⟩ else none
  else
    match (getRouter s g).inp[Fin.ofNat 4 (k - 1)] with
    | f :: _ => if f.rt = tagOf e (k - 1) then some f else none
    | [] => none

/-- Whether the local port of a core may take an entry for queue q: room at the start of the step, or a CLEAR core that
discards it (11 R265; 15 R378). -/
def localRoom (c : Core) (q : Fin 8) : Bool :=
  (decide (c.r.st = .clear) && decide (q ≠ 7)) || decide (c.x.start.iq[q].count < 16)

/-- Whether an input absorbs in step t: from the step after the one in which RT_ABSORB was set (11 R281, R282). -/
def absorbing (r : Router) (t k : Nat) : Bool := r.absorb.getLsbD k && decide (r.absorbFrom ≤ t)

/-- Whether the rake has written the core's queues in step t, in which its local port then moves nothing (11 R282). -/
def rakeHeld (s : State) (g t : Nat) : Bool :=
  decide ((getCore s g).x.rakeAt = t + 1) && decide ((getRouter s g).localDone ≠ t + 1)

/-- The move of source k of a router in step t, if all the conditions of R265 hold. -/
def moveOf (s : State) (g t k : Nat) : Option Move :=
  let r := getRouter s g
  let ix := t % periodOf s (panOf g)
  let e := tget 0 r.slots ix
  let outs := outsOf e k
  let loc := if lselOf e = k then some (liqOf e) else none
  if (outs.isEmpty && loc.isNone) || decide (modeOf s g = 2) || (decide (k ≠ 5) && absorbing r t (k - 1)) ||
      ((decide (k = 5) || loc.isSome) && rakeHeld s g t) then none
  else match headOf s g e k with
    | none => none
    | some f =>
      if outs.all (fun o => decide (r.used[o] < depthOf g o) && !laneOwned s g o ix) &&
          (match loc with | some q => localRoom (getCore s g) q | none => true) then some ⟨k, f, outs, loc⟩
      else none

/-- Whether a selected head could not move (11 Table 11-10, RT_HELD). -/
def heldBack (s : State) (g t k : Nat) : Bool :=
  let e := tget 0 (getRouter s g).slots (t % periodOf s (panOf g))
  (!(outsOf e k).isEmpty || decide (lselOf e = k)) && (headOf s g e k).isSome && (moveOf s g t k).isNone

/-- The local port writes an entry: a CLEAR core discards entries for IQ0 to IQ6 (07 R164; 15 R378). -/
def deliver (s : State) (g : Nat) (q : Fin 8) (en : QEntry) : State :=
  let c := getCore s g
  if c.r.st = .defect || (decide (c.r.st = .clear) && decide (q ≠ 7)) then s
  else setCore s g (arrive (envOf s g) q en c)

/-- The credit of a flit or lane message taken from input k of a router goes back (11 R264). -/
def creditBack (s : State) (g : Nat) (k : Fin 4) (t : Nat) (lane : Option (Fin 4)) : State :=
  let x := match lane with | none => Xfer.credit | some l => .laneCredit l
  match nbr g k with
  | some h =>
    if panOf h = panOf g then
      modRouter s h (gainCredit (opp k) lane (t + 1))
    else cross s g k t x
  | none => cross s g k t x

/-- A flit leaves on output k of a router in step t (11 R261, R264). -/
def sendFlit (s : State) (g t : Nat) (f : Flit) (k : Fin 4) : State :=
  let s1 := modRouter s g (fun r => { r with used := r.used.set k (r.used[k] + 1) })
  match nbr g k with
  | some h => if panOf h = panOf g then modRouter s1 h (pushInp (opp k) (t + 1) f) else cross s1 g k t (.data f)
  | none => cross s1 g k t (.data f)

/-- Carries out a move: the head leaves its source, its credit goes back, and the copies go out together; the local copy
only where it has not been made in this step (11 R265). -/
def applyMove (g t : Nat) (m : Move) (s : State) : State :=
  let s1 :=
    if m.src = 5 then
      let c := getCore s g
      let q := loqOf (tget 0 (getRouter s g).slots (t % periodOf s (panOf g)))
      setCore s g (actFlit 1 { c with oq := c.oq.set q c.oq[q].pop })
    else
      let k : Fin 4 := Fin.ofNat 4 (m.src - 1)
      creditBack (modRouter s g (fun r => { r with inp := r.inp.set k (r.inp[k].drop 1) })) g k t none
  let s2 := m.outs.foldl (fun s k => sendFlit s g t m.flit k) s1
  match m.loc with
  | some q => if (getRouter s2 g).localDone = t + 1 then s2 else deliver s2 g q m.flit.ent
  | none => s2

/-- ENTRY_ARRIVAL: in this step the local output of the core's router moves its source into input queue q; the source's other
outputs follow at the end of the step (07 R164; 11 R265). -/
def execEntryArrival (g : Nat) (q : Fin 8) (s : State) : Out :=
  if numCores ≤ g then .fault .noSuchUnit
  else
    let t := (getNode s (panOf g)).steps
    let r := getRouter s g
    let e := tget 0 r.slots (t % periodOf s (panOf g))
    .next (if s.tide.frozen || decide (r.localDone = t + 1) || decide (lselOf e = 0) then s
      else match moveOf s g t (lselOf e) with
        | some ⟨_, f, _, some q'⟩ =>
          if q' = q then modRouter (deliver s g q f.ent) g (fun r => { r with localDone := t + 1 }) else s
        | _ => s)

-- Control ports --------------------------------------------------------------------------------------------------

/-- Whether a message names the current partition and generation at a core (11 R273). -/
def fresh (s : State) (g : Nat) (m : Msg) : Bool :=
  (match (getPan s (panOf g)).part with | some k => decide (k = m.part) | none => false) &&
    decide ((getPart s m.part).pgen = m.pgen)

/-- A remote advance that breaks its bound: ENGINE 0, SUB 0x20. It comes after what the scalar engine records in the step, and
after a slot's fault on the same pair (02 R45; 09 R238). -/
def remoteFault (e : Env) (ch detail : Nat) (c0 : Core) : Core :=
  let c := undoFire c0
  let same := decide (c.r.st = .fault) && decide (c.x.faultAt = e.now + 1) &&
    decide (fld c.r.fstat 8 2 = 3) && decide (fld c.r.finfo 0 16 = ch) && decide (fld c.r.finfo 16 8 = 0x0B)
  faultAs (if same then c.x.frank else faultRank .scalar 0x20 1) e .scalar stSync 0x20 detail 0 false c.pc c

/-- Applies a control message at a core; a guard result is for members alone (09 R223, R226, R233; 06 R152, R154; 14 R355). -/
def applyBody (e : Env) (b : MsgBody) (c : Core) : Core :=
  match b with
  | .flagSet f => { c with flags := setBit c.flags f true }
  | .flagClr f => { c with flags := setBit c.flags f false }
  | .chPut ch a =>
    match chPutOn c.ch[ch] a with
    | some p => { c with ch := c.ch.set ch p }
    | none => remoteFault e ch ch c
  | .chGet ch a =>
    match chGetOn c.ch[ch] a with
    | some p => { c with ch := c.ch.set ch p }
    | none => remoteFault e ch ((ch : Nat) + 16) c
  | .guardRes ovf ls =>
    if !memberCore e.s e.g then c
    else if c.x.phase3.isSome then { c with x := { c.x with gres := some (ovf, ls) } }
    else { applyGuard ovf ls c with guard := setBit (applyGuard ovf ls c).guard 3 true }
  | .barRel _ f _ cores => if cores.contains e.g then { c with flags := setBit c.flags f true } else c
  | .commit t => { c with x := { c.x with commit := some t } }
  | _ => c

/-- The order in which remote operations of one step are applied: by the direction they arrived from (02 R38). -/
def portOrder (a b : Nat × LaneMsg) : Bool := decide (a.1 < b.1) || (decide (a.1 = b.1) && decide (a.2.side ≤ b.2.side))

/-- The messages at a control port that have arrived by step t, in the order in which they are applied. -/
def portDue (r : Router) (t : Nat) : List (Nat × LaneMsg) := sortBy portOrder (r.port.filter (fun p => decide (p.1 ≤ t)))

/-- Whether a message carries a reserved TYPE (11 Table 11-4). -/
def MsgBody.reserved (b : MsgBody) : Bool := match b with | .other _ => true | _ => false

/-- Applies a message at a core's control port, or discards a stale one, or one of a reserved TYPE (11 R268, R273). -/
def applyPort (s : State) (g : Nat) (m : Msg) : State :=
  if fresh s g m && !m.body.reserved then
    if (getCore s g).r.st = .defect then s else setCore s g (applyBody (envOf s g) m.body (getCore s g))
  else modRouter s g (fun r => { r with stale := r.stale + 1 })

/-- Whether the core's own operations on flags and counters of this step are over: none may begin, and no slot has actions due
(02 R38; 09 R223). -/
def localOver (e : Env) (c : Core) : Bool := !signalAhead e c && (List.finRange 4).all (fun k => !slotEnds e k c)

/-- Applies the first message due at a core's control port, if it is of the kind, after all local operations of the step
(02 R38). -/
def portEvent (g : Nat) (kind : MsgBody → Bool) (s : State) : Out :=
  if numCores ≤ g then .fault .noSuchUnit
  else
    let r := getRouter s g
    let t := (getNode s (panOf g)).steps
    .next (match portDue r t with
      | p :: _ =>
        if kind p.2.msg.body && localOver (envOf s g) (getCore s g) then
          applyPort (setRouter s g { r with port := r.port.erase p }) g p.2.msg
        else s
      | [] => s)

/-- FLAG_SET_MESSAGE (09 R224; 02 R38). -/
def execFlagSetMessage (g : Nat) (s : State) : Out := portEvent g (fun b => match b with | .flagSet _ => true | _ => false) s
/-- FLAG_CLR_MESSAGE (09 R224). -/
def execFlagClrMessage (g : Nat) (s : State) : Out := portEvent g (fun b => match b with | .flagClr _ => true | _ => false) s
/-- CH_PUT_MESSAGE (09 R226). -/
def execChPutMessage (g : Nat) (s : State) : Out := portEvent g (fun b => match b with | .chPut _ _ => true | _ => false) s
/-- CH_GET_MESSAGE (09 R226). -/
def execChGetMessage (g : Nat) (s : State) : Out := portEvent g (fun b => match b with | .chGet _ _ => true | _ => false) s
/-- GUARD_RES: the result of a guard step reaches a core (06 R152, R154). -/
def execGuardRes (g : Nat) (s : State) : Out := portEvent g (fun b => match b with | .guardRes _ _ => true | _ => false) s
/-- BAR_REL: a release reaches a core (09 R233). -/
def execBarRel (g : Nat) (s : State) : Out := portEvent g (fun b => match b with | .barRel _ _ _ _ => true | _ => false) s

-- Messages of the controller -------------------------------------------------------------------------------------

/-- A message of the controller waits at the north edge for its lane's index there (11 R259, R272, R512). -/
def sendRim (s : State) (x : Nat) (m : LaneMsg) : State :=
  setEdge s (4 * x) { getEdge s (4 * x) with ctl := (getEdge s (4 * x)).ctl ++ [m] }

/-- A message from the controller to one core: in at the north edge of its column, south on lane SE, with the detour of R275 where
a dark pan lies on the way (11 R512). -/
def sendCore (s : State) (k : Nat) (g : Nat) (b : MsgBody) : State :=
  let x := entryColumn s g
  let r := planRoute s x g
  sendRim s x ⟨⟨k, (getPart s k).pgen, false, some g, g, north s, b⟩, r.1, r.2, .to g, 0, north s, false⟩

/-- A broadcast to a partition: one copy for each pan column, in at column 120 px + 60; where dark pans lie above the first live
one of the column, it enters beside them (11 R272, R275). -/
def broadcast (s : State) (k : Nat) (b : MsgBody) : State :=
  let m : Msg := ⟨k, (getPart s k).pgen, true, none, 0, north s, b⟩
  let pans := (getPart s k).pans
  (List.range 8).foldl (fun s px =>
    let col := pans.filter (fun p => decide (p % 8 = px))
    let c := 120 * px + 60
    let last := (col.map (fun p => p / 8)).foldl max 0 * 80 + 79
    if col.isEmpty then s
    else if panLive s px then sendRim s c ⟨m, 0, [], .column last true true true, 0, north s, false⟩
    else match nextSouth s c last with
      | some j =>
        let g := j * 80 * 960 + c
        let x := entryColumn s g
        let r := planRoute s x g
        sendRim s x ⟨m, r.1, r.2 ++ [g], .column last true true true, 0, north s, false⟩
      | none => s) s

-- The layout of a control flit -----------------------------------------------------------------------------------

/-- TYPE of a message (11 Table 11-4). -/
def MsgBody.typ (b : MsgBody) : Nat :=
  match b with
  | .flagSet _ => 1
  | .flagClr _ => 2
  | .chPut _ _ => 3
  | .chGet _ _ => 4
  | .fault _ _ _ => 5
  | .guardC _ _ _ => 6
  | .guardWd _ _ => 7
  | .guardRes _ _ => 8
  | .barArr _ _ _ _ => 9
  | .barRel _ _ _ _ => 10
  | .commit _ => 11
  | .other t => t

/-- ARG of a message (11 Table 11-4); an arrival's COUNT is the number of its cores. -/
def MsgBody.arg (b : MsgBody) : Nat :=
  match b with
  | .flagSet f => f
  | .flagClr f => f
  | .chPut c a => c + a * 16
  | .chGet c a => c + a * 16
  | .fault g code sub => fld (coreIdWord g) 0 21 + code.toNat * 2 ^ 21 + sub.toNat * 2 ^ 29
  | .guardC o n p => o.toNat + n % 2 ^ 20 * 2 + p.toNat * 2 ^ 21
  | .guardWd n p => n % 2 ^ 20 * 2 + p.toNat * 2 ^ 21
  | .guardRes o ls => o.toNat + ls.toNat * 2
  | .barArr n f l _ => n.toNat + f * 2 ^ 8 + l.length % 2 ^ 20 * 2 ^ 14
  | .barRel n f g _ => n.toNat + f * 2 ^ 8 + g % 2 ^ 16 * 2 ^ 14
  | .commit t => t % 2 ^ 47
  | .other _ => 0

/-- The 80 bits of a message (11 Table 11-3). -/
def Msg.bits (s : State) (m : Msg) : BitVec 80 :=
  BitVec.ofNat 80 (m.body.typ + m.part % 32 * 2 ^ 4 + m.pgen % 8 * 2 ^ 9 + m.bc.toNat * 2 ^ 12 +
    (match m.tgt with | some g => (lidOf s g).getD 0 % 2 ^ 20 | none => 0) * 2 ^ 13 + m.body.arg * 2 ^ 33)

/-- The 32 bytes of a control flit of one to three messages (11 Table 11-3). -/
def flitBytes (s : State) (ms : List Msg) : List Byte :=
  padTo 32 ([BitVec.ofNat 8 (ms.length - 1), 0] ++ ms.flatMap (fun m => bytesOf (m.bits s) 10))

end Sys2Proof.Machine
end

