-- ==== Sys2Proof/Machine/Clock.lean ====
section
/-! DEFINITION. The step of a tide node: the moves of its routers, its control lanes, its cores, its sluices, and the rim
segments; the releases of the pace timers and the change of a node's period (10 R239 to R247; 11 R259 to R272). -/

namespace Sys2Proof.Machine

-- Data flits -----------------------------------------------------------------------------------------------------

/-- The keys of a sparse table that meet a test. -/
def keysOf {α : Type} (p : Nat → Bool) (t : Tbl α) : List Nat := (t.map Prod.fst).filter p

/-- The listed routers of a pan. -/
def routersOf (s : State) (n : Nat) : List Nat := keysOf (fun g => decide (panOf g = n)) s.routers
/-- The listed cores of a pan. -/
def coresOf (s : State) (n : Nat) : List Nat := keysOf (fun g => decide (panOf g = n)) s.cores

/-- The moves of a router in step t (11 R265). -/
def movesOf (s : State) (g t : Nat) : List Move := (List.range 5).filterMap (fun i => moveOf s g t (i + 1))

/-- RT_HELD advances in a step in which a selected head could not move (11 Table 11-10). -/
def countHeld (t : Nat) (s : State) (g : Nat) : State :=
  if (List.range 5).any (fun i => heldBack s g t (i + 1)) then modRouter s g (fun r => { r with heldCount := r.heldCount + 1 }) else s

/-- The resets that absorb an input note that it held a flit (11 R281). -/
def noteFlit (g : Nat) (k : Fin 4) (s : State) : State :=
  { s with parts := tmapv Part.zero (fun _ p => if p.absorbs.contains (g, k) then { p with quietAt := north s } else p) s.parts }

/-- The flits held in an absorbed input are discarded, each with its credit (11 R281). -/
def absorbAt (t : Nat) (s : State) (g : Nat) : State :=
  (List.finRange 4).foldl (fun (s : State) (k : Fin 4) =>
    let r := getRouter s g
    if absorbing r t k && !r.inp[k].isEmpty then
      (List.range r.inp[k].length).foldl (fun s _ => creditBack s g k t none)
        (noteFlit g k (setRouter s g { r with inp := r.inp.set k [] }))
    else s) s

/-- Every router of a pan switches its flits of step t, all on what stood before, and its absorbed inputs empty
(11 R265, R281). -/
def switchPan (n t : Nat) (s : State) : State :=
  let gs := routersOf s n
  let todo := gs.map (fun g => (g, movesOf s g t))
  let s1 := gs.foldl (countHeld t) s
  let s2 := todo.foldl (fun s gm => gm.2.foldl (fun s m => applyMove gm.1 t m s) s) s1
  gs.foldl (absorbAt t) s2

/-- Every message that has arrived at a control port of the pan by step t is applied (09 R223; 02 R38). -/
def portsPan (n t : Nat) (s : State) : State :=
  (routersOf s n).foldl (fun s g =>
    let due := portDue (getRouter s g) t
    due.foldl (fun s p => applyPort (modRouter s g (fun r => { r with port := r.port.erase p })) g p.2.msg) s) s

-- Control lanes --------------------------------------------------------------------------------------------------

/-- A message that is to go out in a step, with its source: a lane buffer, a copy on output o of a broadcast that stands in a
lane buffer, the core's queue, or its urgent messages. -/
inductive CtlSrc where
  | lane (l : Fin 4)
  | copy (l : Fin 4) (m : LaneMsg) (o : Fin 4)
  | queue
  | urgent
deriving DecidableEq, Repr

/-- The copies that a broadcast on its column still has to send from a router: south on lane SE, east on SE, west on SW; past a
dark pan the copy south takes the detour of R275 (11 R272). -/
def copiesOf (s : State) (g : Nat) (l : Fin 4) (m : LaneMsg) : List (CtlSrc × LaneMsg) :=
  match m.dst with
  | .column y south east west =>
    let down : LaneMsg := match (if gY g % 80 = 79 then nextSouth s g y else none) with
      | some j =>
        if j = gY g / 80 + 1 then m
        else
          let h := j * 80 * 960 + gX g
          let r := planRoute s g h
          { m with lane := r.1, via := r.2 ++ [h] }
      | none => m
    (if south then [(.copy l m 2, down)] else []) ++
      (if east then [(.copy l m 1, { m with lane := 0, dst := .row (gX g / 120 * 120 + 119) })] else []) ++
      (if west then [(.copy l m 3, { m with lane := 1, dst := .row (gX g / 120 * 120) })] else [])
  | _ => [(.lane l, m)]

/-- Whether a message may leave the core's control slot queue: none has left it in this period (11 R270). -/
def queueMay (s : State) (g t : Nat) : Bool :=
  let r := getRouter s g
  let L := periodOf s (panOf g)
  decide (r.leftAt = 0) || decide ((r.leftAt - 1) / L ≠ t / L)

/-- The messages at a router that ask for lane l in step t: those in its buffers, the core's urgent messages, and the head of
the core's control slot queue (11 R269, R270). -/
def laneAsks (s : State) (g t : Nat) (l : Fin 4) : List (CtlSrc × LaneMsg) :=
  let r := getRouter s g
  let c := getCore s g
  let own := (c.x.urgent.map (fun m => (CtlSrc.urgent, launch s g 4 m.born m))) ++
    (if queueMay s g t then (c.x.ctl.take 1).map (fun m => (CtlSrc.queue, launch s g 4 m.born m)) else [])
  let held := (List.finRange 4).flatMap (fun j => r.lanes[j].flatMap (fun m =>
    if m.via.isEmpty then copiesOf s g j m else [(CtlSrc.lane j, m)]))
  (held ++ own).filter (fun p => decide (p.2.lane = l))

/-- Whether a message is at its last router already: one that a core sends to its own router (11 R270). -/
def atHome (g : Nat) (m : LaneMsg) : Bool := decide (m.dst = .to g) && m.via.isEmpty

/-- The credit of a place in lane buffer l that a message no longer holds (11 R269). -/
def freePlace (g t : Nat) (l : Fin 4) (m : LaneMsg) (s : State) : State :=
  if m.owed && decide ((m.side : Nat) < 4) then creditBack s g (Fin.ofNat 4 m.side) t (some l) else s

/-- A broadcast on its column once its copy on output o has left. -/
def copied (o : Fin 4) (m : LaneMsg) : LaneMsg :=
  match m.dst with
  | .column y a b c => { m with dst := .column y (a && decide (o ≠ 2)) (b && decide (o ≠ 1)) (c && decide (o ≠ 3)) }
  | _ => m

/-- A broadcast with no copy sent. -/
def whole (m : LaneMsg) : LaneMsg := match m.dst with | .column y _ _ _ => { m with dst := .column y true true true } | _ => m

/-- Whether a broadcast has a copy still to send. -/
def moreCopies (m : LaneMsg) : Bool := match m.dst with | .column _ a b c => a || b || c | _ => false

/-- Takes a message from its source; the place it held in a lane buffer goes back as a credit, for a broadcast with its last
copy (11 R269, R272). -/
def takeCtl (g t : Nat) (s : State) (p : CtlSrc × LaneMsg) : State :=
  match p.1 with
  | .lane l =>
    freePlace g t l p.2 (modRouter s g (fun r => { r with lanes := r.lanes.set l (r.lanes[l].erase p.2) }))
  | .copy l m o =>
    let r := getRouter s g
    match r.lanes[l].find? (fun x => decide (whole x = whole m)) with
    | some x =>
      let y := copied o x
      if moreCopies y then setRouter s g { r with lanes := r.lanes.set l (r.lanes[l].map (fun z => if z = x then y else z)) }
      else freePlace g t l x (setRouter s g { r with lanes := r.lanes.set l (r.lanes[l].erase x) })
    | none => s
  | .queue =>
    let c := getCore s g
    modRouter (setCore s g { c with x := { c.x with ctl := c.x.ctl.drop 1 } }) g (fun r => { r with leftAt := t + 1 })
  | .urgent =>
    let c := getCore s g
    setCore s g { c with x := { c.x with urgent := c.x.urgent.erase p.2.msg } }

/-- The messages that lane buffer l of a router holds or that are on their way to it: what its upstream outputs have spent
(11 R269). -/
def laneHeld (s : State) (h : Nat) (l : Fin 4) : Nat :=
  ((laneOuts l).map (fun o => match nbr h (opp o) with
    | some u => (getRouter s u).laneUsed[laneSlot o l]
    | none => (getEdge s (4 * h + (opp o : Nat))).laneUsed[l])).foldl (· + ·) 0

/-- How many messages output k of a router may send in a step to the lane buffer beyond: its room at the start of the step, less
what others send there in the same step. That the upstream outputs share the buffer's 4 places is the model's DESIGN CHOICE, log
111 (11 R269). -/
def laneRoom (s0 : State) (g : Nat) (k l : Fin 4) (sent : List (Nat × LaneMsg)) : Nat :=
  match nbr g k with
  | some h => 4 - laneHeld s0 h l - (sent.filter (fun p => decide (p.1 = h) && decide (p.2.lane = l))).length
  | none => 4

/-- Sends a message on output k in step t; the list collects what reaches a router of the same pan in step t + 1. -/
def sendCtl (g t : Nat) (k : Fin 4) (m : LaneMsg) (acc : State × List (Nat × LaneMsg)) : State × List (Nat × LaneMsg) :=
  let s := modRouter acc.1 g (fun r => { r with laneUsed := r.laneUsed.set (laneSlot k m.lane) (r.laneUsed[laneSlot k m.lane] + 1) })
  match nbr g k with
  | some h =>
    let m' := { m with side := ⟨(opp k).val, by omega⟩ }
    if panOf h = panOf g then (s, acc.2 ++ [(h, m')]) else (cross s g k t (.ctl m'), acc.2)
  | none =>
    let s' := modRouter s g (backLane k m.lane)
    (cross s' g k t (.ctl m), acc.2)

/-- The messages that fit one control flit: at most three, each within the room of its lane's buffer beyond (11 R269). -/
def fillFlit (room : Fin 4 → Nat) : Nat → List (LaneMsg × List LaneMsg) → List (LaneMsg × List LaneMsg) → List (LaneMsg × List LaneMsg)
  | 0, _, acc => acc
  | _, [], acc => acc
  | n + 1, q :: rest, acc =>
    let same := (acc.filter (fun a => decide (a.1.lane = q.1.lane))).length
    if same < room q.1.lane then fillFlit room n rest (acc ++ [q]) else fillFlit room (n + 1) rest acc

/-- One output of a router that the lanes of this index own: one control flit, merged messages first; the messages left are
deferred. Lanes that own it together share the flit. s0 is the module at the start of the step (11 R266, R269, Table
11-10). -/
def laneOut (s0 : State) (g t : Nat) (k : Fin 4) (asks : List (CtlSrc × LaneMsg)) (acc : State × List (Nat × LaneMsg)) :
    State × List (Nat × LaneMsg) :=
  let mine := asks.filter (fun p => !atHome g p.2 && decide (nextOut g p.2 = k))
  let groups := sortBy beforeMsg (mergeAll (mine.length + 1) (mine.map Prod.snd))
  let go := fillFlit (fun l => laneRoom s0 g k l acc.2) 3 groups []
  let late := mine.length - (go.map (fun q => q.2.length)).foldl (· + ·) 0
  let s1 := if late = 0 then acc.1 else
    let s := modRouter acc.1 g (fun r => { r with defer := r.defer + BitVec.ofNat 32 late })
    { s with mesh := { s.mesh with defer := s.mesh.defer + BitVec.ofNat 32 late } }
  let s2 := (mine.filter (fun p => go.any (fun q => q.2.contains p.2))).foldl (takeCtl g t) s1
  go.foldl (fun acc q => sendCtl g t k q.1 acc) (s2, acc.2)

/-- The lanes of a router whose index this step is (11 R266, R269, R270). -/
def laneStep (s0 : State) (g t : Nat) (ls : List (Fin 4)) (acc : State × List (Nat × LaneMsg)) : State × List (Nat × LaneMsg) :=
  let asks := ls.flatMap (laneAsks acc.1 g t)
  let home := asks.filter (fun p => atHome g p.2)
  let s1 := home.foldl (fun s p => (laneArrive (takeCtl g t s p) g t p.2).1) acc.1
  (List.finRange 4).foldl (fun acc k => laneOut s0 g t k asks acc) (s1, acc.2)

/-- An error on a link that cannot be corrected. -/
def fatalAt (ups : List Upset) (g : Nat) (k : Nat) : Option LinkUpset :=
  ups.findSome? (fun u => match u with
    | .link x => if x.router = g ∧ (x.side : Nat) = k ∧ !x.fixed then some x else none
    | _ => none)

/-- A message reaches a router in step t over a link, unless an error that cannot be corrected drops it; where it does not stay in
the lane buffer the credit goes back at once, and so it does for one that is dropped, unless DROP is lost (11 R260, R269). -/
def arriveCtl (ups : List Upset) (t : Nat) (s : State) (p : Nat × LaneMsg) : State :=
  let (g, m) := p
  if 4 ≤ (m.side : Nat) then (laneArrive s g t m).1
  else
    let k : Fin 4 := Fin.ofNat 4 m.side
    let s0 := modRouter s g (fun r => { r with came := r.came.set k (t, true) })
    match fatalAt ups g m.side with
    | some u => if u.lost then s0 else creditBack s0 g k t (some m.lane)
    | none =>
      let r := laneArrive s0 g t m
      if r.2 then r.1 else creditBack r.1 g k t (some m.lane)

/-- Whether lanes run at a router: they were computed, or firmware wrote their indices. -/
def lanesOn (s : State) (g : Nat) : Bool := s.mesh.lanes || (getRouter s g).laneSet.isSome

/-- The control lanes of a pan in step t (11 R266 to R272). -/
def lanesPan (n t : Nat) (ups : List Upset) (s : State) : State :=
  let gs := (routersOf s n ++ (coresOf s n).filter (fun g => !(getCore s g).x.ctl.isEmpty || !(getCore s g).x.urgent.isEmpty)).dedup
  let r := gs.foldl (fun acc g =>
    match (List.finRange 4).filter (fun l => lanesOn s g && decide (laneIdx s l g = t % periodOf s n)) with
    | [] => acc
    | ls => laneStep s g t ls acc) (s, [])
  r.2.foldl (arriveCtl ups (t + 1)) r.1

-- Cores and arrivals ---------------------------------------------------------------------------------------------

/-- A core at the end of its node's step. A core in HOLD stands still. In a running core the instructions in progress meet the
banks, the compressor takes sources, and the watchdog counts; orderings and requests are settled, a fault recorded in the step
takes effect, and the next step starts from what stands (02 R31, R40, R44; 07 R173, R181; 08 R189; 09 R211). -/
def coreEnd (e : Env) (c0 : Core) : Core :=
  if c0.r.st = .hold then
    let st := c0.x.start
    { c0 with x := { c0.x with
        lag := c0.x.lag + 1
        start := { snapshot c0 with fired := st.fired, drained := st.drained, ended := st.ended } } }
  else
    let c1 := if live e c0 then toutEnd e.now (runsEnd e c0) else c0
    let c2 := if live e c0 then { c1 with wcount := nextWcount c1 } else c1
    let c := settleFault e.now (asksEnd e (relEnd e.now c2))
    { c with x := { c.x with prefire := none, start := snapshot c } }

/-- The cores of a pan at the end of its step. -/
def coresEnd (n : Nat) (s : State) : State := mapCores s (fun g _ => decide (panOf g = n)) (fun g c => coreEnd (envOf s g) c)

/-- A transfer reaches a router over a crossing at the start of step t (11 R261, R264). -/
def landed (ups : List Upset) (t : Nat) (s : State) (f : Flight) : State :=
  match f.x with
  | .data d => modRouter s f.at_ (pushInp f.side t d)
  | .credit => modRouter s f.at_ (gainCredit f.side none t)
  | .laneCredit l => modRouter s f.at_ (gainCredit f.side (some l) t)
  | .ctl m => arriveCtl ups t s (f.at_, m)

/-- What the sluices into a pan deliver at the start of step t (10 R243). -/
def sluicesIn (n t : Nat) (ups : List Upset) (s : State) : State :=
  (List.range 4).foldl (fun s k =>
    let sl := getSluice s (4 * n + k)
    if sl.held.isEmpty then s
    else (sl.held.filter (fun f => decide (f.due ≤ t))).foldl (landed ups t)
      (setSluice s (4 * n + k) { sl with held := sl.held.filter (fun f => decide (t < f.due)) })) s

/-- The node at the other side of a sluice of a pan. -/
def sluiceSender (n k : Nat) : Nat :=
  if k = 0 then (if n / 8 = 0 then 96 else n - 8) else if k = 1 then (if n % 8 = 7 then 97 else n + 1)
  else if k = 2 then (if n / 8 = 11 then 98 else n + 8) else (if n % 8 = 0 then 99 else n - 1)

/-- Whether a node is in the tide. -/
def nodeLive (s : State) (n : Nat) : Bool := decide (96 ≤ n) || panLive s n

/-- The crossings into a node: sluice entry, sender, latency, and measured time; into a rim segment those out of the pans on its
edge (10 R243, Table 10-5). -/
def crossingsInto (s : State) (n : Nat) : List (Nat × Nat × Nat × Nat) :=
  if n < 96 then (List.range 4).map (fun k => let x := getSluice s (4 * n + k); (4 * n + k, sluiceSender n k, x.d, x.lat))
  else ((List.range 96).filter (fun p => decide (sluiceSender p (n - 96) = n))).map (fun p =>
    let x := getSluice s (4 * p + (n - 96)); (4 * p + (n - 96), p, x.dOut, x.latOut))

/-- Whether the entry that a node has written in its step u has had the measured time, in units of 100 ps, to cross since the
step was complete (10 R243). -/
def arrived (s : State) (m u lat : Nat) : Bool :=
  let x := getNode s m
  decide (u < x.steps) && decide (x.done.getD (x.steps - 1 - u) 0 + 100 * lat ≤ s.time)

/-- The crossings into a node whose entry for its step in progress has not arrived (10 R243). -/
def awaited (s : State) (n : Nat) : List Nat :=
  let t := (getNode s n).steps
  ((crossingsInto s n).filter (fun c =>
    nodeLive s c.2.1 && decide (c.2.2.1 ≤ t) && !arrived s c.2.1 (t - c.2.2.1) c.2.2.2)).map Prod.fst

/-- SLC_WAITS of a crossing counts a step in which the receiver waits for an arrival, once; on a calibrated sluice outside HOLD
and fallback that is the watch indicator SLUICE (10 R243, Table 10-5; 19 Table 19-6). -/
def countWait (t : Nat) (s : State) (i : Nat) : State :=
  let x := getSluice s i
  if x.waitAt = t + 1 then s
  else
    let s1 := setSluice s i { x with waits := x.waits + 1, waitAt := t + 1 }
    if s.boot.p2 && !s.tide.hold && !s.tide.fallback then watch 0 s1 else s1

/-- SLC_STAT.HWM of a crossing into a pan: its sender has written up to its count, the receiver has consumed up to its own less
D (10 R243, Table 10-5). -/
def markHeld (s : State) (i : Nat) : State :=
  let x := getSluice s i
  let a := (getNode s (sluiceSender (i / 4) (i % 4))).steps
  let h := min 16 (min (a + 1) (a + x.d - (getNode s (i / 4)).steps))
  if panLive s (i / 4) && nodeLive s (sluiceSender (i / 4) (i % 4)) && decide (x.hwm < h) then setSluice s i { x with hwm := h } else s

/-- The marks of the crossings out of a node and into it, once it has begun a step (10 Table 10-5). -/
def sluiceMark (n : Nat) (s : State) : State :=
  ((List.range 384).filter (fun i => decide (i / 4 = n) || decide (sluiceSender (i / 4) (i % 4) = n))).foldl markHeld s

-- Link errors ----------------------------------------------------------------------------------------------------

/-- The partition whose job ends for a transfer that is not forwarded: the owner of the link, or for a control flit that of
the pan; a rim crossing has no owner in RT_OWN and counts as the pan's: DESIGN CHOICE, log 41 (11 R260). -/
def upsetPart (s : State) (u : LinkUpset) (ctl : Bool) : Option Nat :=
  if ctl then (getPan s (panOf u.router)).part
  else match nbr u.router u.side with
    | some h => (getRouter s h).own[opp u.side]
    | none => (getPan s (panOf u.router)).part

/-- A core's position as LOC of a router fault: global X and Y (19 Table 19-2). -/
def xyOf (g : Nat) : Nat := gX g + gY g * 1024

/-- An error counted in RT_UE and REL_UE, with MESH_ERR.UE and the location of the first recorded error
(11 R260, Table 11-9). -/
def noteUe (u : LinkUpset) (s : State) : State :=
  let s1 := modRouter s u.router (fun r => { r with ue := min 0xFFFF (r.ue + 1) })
  let loc := if s.mesh.loc.getLsbD 31 then s.mesh.loc else BitVec.ofNat 32 (xyOf u.router + (u.side : Nat) * 2 ^ 20 + 2 ^ 31)
  countUe { s1 with mesh := { s1.mesh with err := s1.mesh.err ||| 4#3, loc := loc } }

/-- A transfer that is not forwarded is noted, and the job concerned ends with POISON (11 R260). -/
def dropped (u : LinkUpset) (ctl : Bool) (s : State) : State :=
  match upsetPart s u ctl with
  | some k => recordFault k stPoison 3 (xyOf u.router) 0 false (noteUe u s)
  | none => noteUe u s

/-- The credits that a dropped transfer returned are taken back; the sender sends them again once it has seen DROP, a round trip
later: 2 steps within a pan, 2 + 2 D over a crossing; where DROP is lost too they are lost (11 R260). -/
def resend (t : Nat) (u : LinkUpset) (s : State) : State :=
  let g := u.router
  let r := getRouter s g
  let inner := match nbr g u.side with | some h => decide (panOf h = panOf g) | none => false
  let trip := if inner then 2 else 2 + 2 * (getSluice s (4 * panOf g + (u.side : Nat))).d
  let mine := r.back.filter (fun b => decide (b.1 = t) && decide (b.2.1 = u.side))
  let r1 := mine.foldl (fun r b => useCredit (· + 1) u.side b.2.2 r) r
  setRouter s g { r1 with
    back := r.back.filter (fun b => !mine.contains b)
    again := r.again ++ (if u.lost then [] else mine.map (fun b => (t + trip, b.2))) }

/-- The credits sent again that arrive at a pan's routers at the start of step t (11 R260). -/
def resent (n t : Nat) (s : State) : State :=
  (routersOf s n).foldl (fun s g =>
    let r := getRouter s g
    if r.again.isEmpty then s
    else
      (r.again.filter (fun b => decide (b.1 ≤ t))).foldl (fun s b => modRouter s g (gainCredit b.2.1 b.2.2 t))
        (setRouter s g { r with again := r.again.filter (fun b => decide (t < b.1)) })) s

/-- An error on the transfer that comes over a link at the start of step t, as R260 handles it: corrected and counted; a data flit
with FIRST takes P, any other goes on altered; a sideband error drops the transfer, data, control or idle, and any error that
cannot be corrected drops a control flit; with what is dropped go the credits it carried, and those it had taken come back,
unless DROP is lost. -/
def upset (t : Nat) (s : State) (u : LinkUpset) : State :=
  if numCores ≤ u.router then s
  else
    let r := getRouter s u.router
    if u.fixed then
      let s1 := setRouter s u.router { r with ce := min 0xFFFF (r.ce + 1) }
      { s1 with mesh := { s1.mesh with ce := BitVec.ofNat 32 (min 0xFFFFFFFF (s1.mesh.ce.toNat + 1)) } }
    else if r.came[u.side] = (t, true) then dropped u true (resend t u s)
    else match (if r.came[u.side] = (t, false) then r.inp[u.side].reverse else []) with
      | f :: rest =>
        if u.data then
          let d := if sbFirst f.ent.sb then setBit f.ent.data 10 true else f.ent.data ^^^ u.bits
          setRouter s u.router { r with inp := r.inp.set u.side (({ f with ent := { f.ent with data := d } } :: rest).reverse) }
        else
          let s1 := setRouter s u.router { r with inp := r.inp.set u.side rest.reverse }
          dropped u false (resend t u (if u.lost then s1 else creditBack s1 u.router u.side t none))
      | [] => if u.data then s else dropped u false (resend t u s)

/-- An error in an SRAM word: a single bit is corrected on every read until the word is written whole; two bits, or a further
error in a word that has one, cannot be corrected (02 R46). -/
def sramUpset (u : SramUpset) (c : Core) : Core :=
  let a := 8 * (u.word : Nat)
  if u.fixed && decide (tget 0 c.ecc u.word = 0) then { c with ecc := tset 0 c.ecc u.word 1 }
  else
    let old : BitVec 64 := ofBytes 64 (mread c.sram a 8)
    { c with sram := mwrite c.sram a (bytesOf (old ^^^ u.bits) 8), ecc := tset 0 c.ecc u.word 2 }

/-- An error that strikes at the start of step t, on a link or in a core's SRAM (11 R260; 02 R46). -/
def upsetOne (t : Nat) (s : State) : Upset → State
  | .link u => upset t s u
  | .sram u => if numCores ≤ u.core then s else setCore s u.core (sramUpset u (getCore s u.core))
  | .stuck g => { s with stuck := s.stuck ++ [(g : Nat)] }

/-- The pan in which an error strikes. -/
def upsetPan : Upset → Nat
  | .link u => panOf u.router
  | .sram u => panOf u.core
  | .stuck g => panOf g

-- Nodes ----------------------------------------------------------------------------------------------------------

/-- Whether a node may begin its next step (10 R240): a release is pending, every live neighbour has begun step n - 4, and
HOLD has not stopped it. -/
def nodeReady (s : State) (n : Nat) : Bool :=
  !s.tide.frozen && nodeLive s n && (getNode s n).release &&
    (nodeNbrs s n).all (fun m => decide ((getNode s n).steps ≤ (getNode s m).steps + 3))

/-- A node that has completed step t at the present time and begins step t + 1. -/
def stepped (s : State) (t : Nat) (x : Node) : Node :=
  { x with steps := t + 1, release := false, done := s.time :: x.done.take 15 }

/-- A pan completes step t and begins step t + 1. -/
def panStep (n t : Nat) (ups : List Upset) (s : State) : State :=
  let mine := ups.filter (fun u => decide (upsetPan u = n))
  let s1 := coresEnd n (lanesPan n t mine (portsPan n t (switchPan n t s)))
  let x := getNode s1 n
  let s2 := setNode s1 n (stepped s1 t x)
  let s3 := sluiceMark n (sluicesIn n (t + 1) mine (resent n (t + 1) s2))
  mine.foldl (upsetOne (t + 1)) s3

/-- The route tag that an edge router expects from a side at a table index, if an output of the entry selects that side. -/
def edgeWants (s : State) (g : Nat) (k : Fin 4) (ix : Nat) : Option Nat :=
  let e := tget 0 (getRouter s g).slots (ix % periodOf s (panOf g))
  if (outsOf e ((k : Nat) + 1)).isEmpty && decide (lselOf e ≠ (k : Nat) + 1) then none else some (tagOf e k)

/-- An edge link sends inward, in a slot of a route, the next entry of that route, if it has a credit (11 R264; 12 R297;
13 R327). -/
def edgeSend (t : Nat) (s : State) (i : Nat) : State :=
  let e := getEdge s i
  let k : Fin 4 := Fin.ofNat 4 (i % 4)
  let sl := getSluice s (4 * panOf (i / 4) + (k : Nat))
  match edgeWants s (i / 4) k (t + 1 + sl.d) with
  | none => s
  | some tag =>
    match e.send.find? (fun f => decide (f.rt = tag)) with
    | some f =>
      if e.used < 32 ∧ panLive s (panOf (i / 4)) then crossIn (setEdge s i { e with send := e.send.erase f, used := e.used + 1 }) (i / 4) k t (.data f) else s
    | none => s

/-- The control messages that the rim sends into an edge router in its step t: those whose lane has its index there when they
arrive, at most three, within the room of the lane buffer (11 R259, R268, R269). -/
def rimFlit (t : Nat) (s : State) (i : Nat) : List LaneMsg :=
  let g := i / 4
  let sl := getSluice s (4 * panOf g + i % 4)
  let go := (getEdge s i).ctl.filter (fun m => lanesOn s g && decide (laneIdx s m.lane g = (t + 1 + sl.d) % periodOf s (panOf g)))
  (fillFlit (fun l => 4 - laneHeld s g l) 3 (go.map (fun m => (m, [m]))) []).map Prod.fst

/-- One transfer of an edge link inward in a step: a control flit, else a data flit (11 R259). -/
def rimSend (t : Nat) (s : State) (i : Nat) : State :=
  let ms := if panLive s (panOf (i / 4)) then rimFlit t s i else []
  if ms.isEmpty then edgeSend t s i
  else
    let e := getEdge s i
    ms.foldl (fun s m => crossIn s (i / 4) (Fin.ofNat 4 (i % 4)) t (.ctl { m with owed := true }))
      (setEdge s i { e with
        ctl := e.ctl.filter (fun m => !ms.contains m)
        laneUsed := ms.foldl (fun (v : Vector Nat 4) m => v.set m.lane (v[m.lane] + 1)) e.laneUsed })

/-- What a rim crossing delivers to its segment at the start of step t. -/
def rimIn (n t : Nat) (s : State) (k : Nat) : State :=
  let sl := getSluice s k
  if k % 4 ≠ n - 96 || sl.out.isEmpty then s
  else
    (sl.out.filter (fun f => decide (f.due ≤ t))).foldl (fun s f =>
      let j := 4 * f.at_ + (f.side : Nat)
      match f.x with
      | .data d => let e := getEdge s j; setEdge s j { e with inp := e.inp ++ [d] }
      | .credit => let e := getEdge s j; setEdge s j { e with used := e.used - 1 }
      | .ctl m => { s with ctlIn := s.ctlIn ++ [(t, m.msg)] }
      | .laneCredit l => let e := getEdge s j; setEdge s j { e with laneUsed := e.laneUsed.set l (e.laneUsed[l] - 1) })
      (setSluice s k { sl with out := sl.out.filter (fun f => decide (t < f.due)) })

/-- The guard timers advance, but not while HOLD is raised, the module is parked or a debugger is attached (06 R153; 18 R452;
20 R481). -/
def guardTimers (s : State) : State :=
  if s.power.parked || s.tide.hold then s
  else { s with parts := tmapv Part.zero (fun _ p =>
      if p.dbg.isSome then p
      else { p with guard := { p.guard with timer := p.guard.timer.map (· + 1), next := p.guard.next.map (· + 1) } }) s.parts }

/-- A rim segment completes step t and begins step t + 1. -/
def rimStep (n t : Nat) (s : State) : State :=
  let s1 := (keysOf (fun k => decide (k % 4 = n - 96)) s.edges).foldl (rimSend t) s
  let s2 := setNode s1 n (stepped s1 t (getNode s1 n))
  let s3 := sluiceMark n ((s2.sluices.map Prod.fst).foldl (rimIn n (t + 1)) s2)
  if n = 96 then guardTimers s3 else s3

/-- A node that is ready completes the step in progress and begins the next; ups are the errors of the step. It waits for an
arrival where a crossing's entry for the step has not come, and counts that (10 R240, R243). -/
def nodeStep (n : Nat) (ups : List Upset) (s : State) : State :=
  let t := (getNode s n).steps
  if nodeReady s n then
    match awaited s n with
    | [] => if n < 96 then panStep n t ups s else rimStep n t s
    | is => is.foldl (countWait t) s
  else s

/-- The time of the north rim's next release: 40 / k ns after the one before, on the grid of the period of code k, which begins
afresh where the code changes (10 R241). -/
def paceTime (k : Nat) (s : State) : State :=
  let t := s.tide
  let (a, n) := if t.paceRate = k then (t.paceAt, t.paceN + 1) else (s.time, 1)
  { s with time := a + n * 40000 / max 1 k, tide := { t with paceAt := a, paceN := n, paceRate := k } }

/-- PACE_RELEASE: a pace timer issues a release; one that finds a release pending is lost (10 R241). The north rim's releases
measure wall time: they fall at exact multiples of 40 / k ns from where the period began, which the model reads in whole
picoseconds. -/
def execPaceRelease (n : Fin 100) (s : State) : Out :=
  let x := getNode s n
  let s1 := if nodeLive s n then setNode s n { x with release := true } else s
  .next (if (n : Nat) = 96 then paceTime x.rate s1 else s1)

/-- A change is no longer pending once no live node holds it (10 R246). -/
def settlePend (s : State) : State :=
  if (List.range 100).any (fun n => nodeLive s n && (getNode s n).sched.isSome) then s
  else { s with tide := { s.tide with pend := none } }

/-- RATE_CHANGE_APPLY: at its own count T a node takes the period of a change it holds; a pan out of the tide never does. The
change stays pending until the last node has taken it (10 R246, R247). -/
def execRateChangeApply (n : Fin 100) (s : State) : Out :=
  let x := getNode s n
  .next (match x.sched with
    | some (T, k) =>
      if nodeLive s n && decide (T ≤ x.steps + 1) then
        let s1 := setNode s n { x with rate := k, sched := none }
        settlePend (if (n : Nat) = 96 then { s1 with tide := { s1.tide with rate := k } } else s1)
      else s
    | none => s)

end Sys2Proof.Machine
end

