-- ==== Sys2Proof/Machine/Power.lean ====
section
/-! DEFINITION. Rate changes, the reference, HOLD, pans that leave the tide, the power entry, thermal protection, caps, park
and the energy meters (10 R246 to R256; 17; 18). -/

namespace Sys2Proof.Machine

/-- A pan's stage. -/
def getPwr (s : State) (p : Nat) : PanPwr := tget PanPwr.zero s.power.pans p
/-- The module with a pan's stage replaced. -/
def setPwr (s : State) (p : Nat) (x : PanPwr) : State := { s with power := { s.power with pans := tset PanPwr.zero s.power.pans p x } }
/-- The module with a pan's stage changed. -/
def modPwr (s : State) (p : Nat) (f : PanPwr → PanPwr) : State := setPwr s p (f (getPwr s p))
/-- The live pans. -/
def livePans (s : State) : List Nat := (List.range 96).filter (panLive s)

-- Rate changes ---------------------------------------------------------------------------------------------------

/-- The tide network delivers a change to every live node: each holds the count and the lowest of the code and the limits as
they stand (10 R246). -/
def deliverRate (T k : Nat) (s : State) : State :=
  let t := s.tide
  let lim := min (min k t.cal) (min t.lic (min t.pwr t.therm))
  let s1 := { s with tide := { t with pend := some (T, k) } }
  (List.range 100).foldl (fun s n => if nodeLive s n then setNode s n { getNode s n with sched := some (T, lim) } else s) s1

/-- Whether a target is not ahead, or ahead by less than 4,096; whether a code lies outside 8 to 50; whether a change is pending
(10 R246). -/
def armErrors (s : State) : Bool × Bool × Bool :=
  let t := s.tide
  (!isAhead s t.armT || decide (aheadBy s t.armT < 4096), decide (t.armRate < 8) || decide (50 < t.armRate), t.pend.isSome)

/-- The code with which a request to schedule a change is answered: BOUNDS, BUSY or OK. It goes to the firmware that writes GO;
no host command makes the request (10 R246; 14 R340). -/
def armCode (s : State) : Nat :=
  let (late, range, busy) := armErrors s
  if late || range then stBounds else if busy then stBusy else stOK

/-- TIDE_ARM_GO: a change at TIDE_ARM_TC is scheduled, or rejected with the bit of the reason in TIDE_ERR (10 R246). -/
def execTideArmGo (s : State) : Out :=
  let t := s.tide
  let (late, range, busy) := armErrors s
  .next (if armCode s = stOK then deliverRate (stepOf s t.armT) t.armRate s
    else { s with tide := { t with err := t.err ||| BitVec.ofNat 6 (late.toNat + 2 * range.toNat + 4 * busy.toNat) } })

/-- TIDE_TC_LO: the read captures bits [47:32] of the north rim count in TIDE_TC_HI (10 Table 10-4). -/
def execTideTcLo (s : State) : Out :=
  .next { s with tide := { s.tide with tcHi := (BitVec.ofNat 48 (north s)).extractLsb' 32 16 } }

-- The reference --------------------------------------------------------------------------------------------------

/-- Every port goes down for a loss of reference, from which time every transport timer pauses (13 R328, R333). -/
def portsDown (s : State) : State :=
  { s with fab := { s.fab with
      refDown := true
      refAt := if s.fab.refDown then s.fab.refAt else s.time
      ports := tmapv Port.zero (fun _ p =>
        if p.st = 1 ∨ p.st = 2 ∨ p.st = 3 then { p with st := 4, episode := none, refDown := true } else p) s.fab.ports } }

/-- Copies whose timers run on after a pause that began at a time (13 R328). -/
def resumeTx (now since : Nat) (l : List TxCopy) : List TxCopy := l.map (fun t => { t with paused := t.paused + (now - max since t.at_) })

/-- REF_DOWN stands while a port is down for the reference; with the last one back the timers run on, but those that an open
RETRY_START pauses (13 R328, R333). -/
def fixRefDown (s : State) : State :=
  let f := s.fab
  let down := f.ports.any (fun p => p.2.refDown)
  if down ∨ !f.refDown then { s with fab := { f with refDown := down } }
  else
    let ep := fun (e : Nat) => tget Endpoint.zero f.eps e
    let run := fun (e : Nat) (l : List TxCopy) =>
      if (ep e).retry.isEmpty then resumeTx s.time ((ep e).pausedAt.getD f.refAt) l else l
    { s with fab := { f with
        refDown := false
        chans := tmapv none (fun _ c => c.map (fun c => { c with tx := run c.ep c.tx })) f.chans
        sends := f.sends.map (fun q => { q with tx := run 0 q.tx })
        eps := tmapv Endpoint.zero (fun _ e => if e.retry.isEmpty then { e with pausedAt := none } else e) f.eps } }

/-- The ports that a loss of reference took down train again (13 R307). -/
def portsBack (s : State) : State :=
  fixRefDown { s with fab := { s.fab with ports := tmapv Port.zero (fun _ p => if p.refDown then { p with st := 1 } else p) s.fab.ports } }

/-- REF_LOST: the monitor declares the reference lost: the pace falls back to code 16 or stays lower, at once at every node; a
pending change is cancelled; the ports go down; an alarm is raised. A reference that is lost again before it was back is one
more loss (10 R247 to R249). -/
def execRefLost (s : State) : Out :=
  let t := s.tide
  .next (
      let e := 16 + (if t.pend.isSome then 8 else 0)
      let s1 := { s with
        tide := { t with
          rate := min t.rate 16
          refOk := false
          fallback := true
          present := false
          locked := false
          pend := none
          err := t.err ||| BitVec.ofNat 6 e
          losses := min 255 (t.losses + 1) }
        nodes := tmapv Node.zero (fun _ x => { x with rate := min x.rate 16, sched := none }) s.nodes
        power := { s.power with raising := none, lowering := none } }
      pldm 1 1 (postAlarm 1 (portsDown s1)))

/-- REF_BACK: after 100 ms within limits the pace line is on the reference again; the rate stays (10 R249). -/
def execRefBack (s : State) : Out :=
  let t := s.tide
  .next (if !t.fallback then s
    else
      let s1 := { s with tide := { t with refOk := true, fallback := false, present := true, locked := true, err := t.err ||| 32#6 } }
      pldm 1 2 (postAlarm 2 (portsBack s1)))

-- HOLD -----------------------------------------------------------------------------------------------------------

/-- A source raises HOLD: its bit in HOLD_CAUSE, the location of the first source since the causes were last all zero, and one
more HOLD where none stood (10 R250, R252). -/
def raiseHold (bit src : Nat) (s : State) : State :=
  let t := s.tide
  { s with tide := { t with
      holdCause := setBit t.holdCause bit true
      holdSrc := if t.holdCause = 0 then BitVec.ofNat 32 (src + 2 ^ 31) else t.holdSrc
      holdCount := if t.hold then t.holdCount else min 0xFFFF (t.holdCount + 1)
      hold := true } }

/-- HOLD_CTRL.RELEASE: it takes effect only with every cause clear (10 R252). -/
def releaseHold (s : State) : State :=
  if s.tide.holdCause = 0 then { s with tide := { s.tide with hold := false } } else s

/-- Causes of HOLD cleared by the controller. -/
def clearCauses (m : Nat) (s : State) : State :=
  { s with tide := { s.tide with holdCause := s.tide.holdCause &&& ~~~ BitVec.ofNat 5 m } }

/-- HOLD_RAISE: HOLD reaches every live node and rim block, which stop at the end of the step in progress (10 R251, R254;
02 R40). -/
def execHoldRaise (s : State) : Out :=
  .next (if s.tide.hold && !s.tide.frozen then
      freeze (fun _ => true) { s with tide := { s.tide with frozen := true } }
    else s)

/-- HOLD_RELEASE: the release reaches the nodes, which resume, each at its next release of the pace, and the job ends that have
waited for it go on (10 R252; 02 R40; 17 R430; 19 R467). -/
def execHoldRelease (s : State) : Out :=
  .next (if !s.tide.hold && s.tide.frozen then
      endWaiting (thaw (fun _ => true) { s with
        tide := { s.tide with frozen := false, relAt := some s.time }
        nodes := tmapv Node.zero (fun _ x => { x with release := false }) s.nodes })
    else s)

/-- HOLD_CTRL_RAISE: HOLD with cause FW (10 R250). -/
def execHoldCtrlRaise (s : State) : Out := .next (raiseHold 0 0x7F s)
/-- HOLD_CTRL_RELEASE (10 R252). -/
def execHoldCtrlRelease (s : State) : Out := .next (releaseHold s)

/-- Whether node n has waited 1 µs for an entry of node m over a sluice entry: since its last step was complete it has been held
either by the third condition of R240 or for an arrival (10 R240, R243, R253). -/
def waitsFor (s : State) (i n m : Nat) : Bool :=
  nodeLive s n && nodeLive s m &&
  (decide ((getNode s m).steps + 3 < (getNode s n).steps) || (awaited s n).contains i) &&
  decide ((getNode s n).done.headD 0 + 1000000 ≤ s.time)

/-- SLUICE_DEAD: a node that has waited 1 µs for an entry, with HOLD down and no release of it in the last 2 µs, declares the
sender dead and raises HOLD; a sending pan's breaker is opened, and a rim sender ends every job. At an edge side the entry has two
crossings: into the pan from the rim segment, and out to it (10 R253, Table 10-5; 19 R477). -/
def execSluiceDead (x : Fin 384) (s : State) : Out :=
  let n := (x : Nat) / 4
  let m := sluiceSender n ((x : Nat) % 4)
  let sl := getSluice s x
  let soon := match s.tide.relAt with | some r => decide (s.time < r + 2000000) | none => false
  let inward := waitsFor s x n m
  let outward := decide (96 ≤ m) && waitsFor s x m n
  .next (if s.tide.hold || s.tide.frozen || soon || sl.dead || !(inward || outward) then s
    else
      let s1 := raiseHold 1 (n + (x : Nat) % 4 * 128) (setSluice s x { sl with dead := true })
      let q := if inward then m else n
      if q < 96 then modPwr s1 q (fun p => if p.why = 0 then { p with why := 2 } else p)
      else s1.parts.foldl (fun s kp => recordFault kp.1 stPanDark 7 n 0 false s) s1)

-- Pans that leave ------------------------------------------------------------------------------------------------

/-- A pan leaves the tide: it holds no rate change any more, and its sluices and its neighbours' sluices from it drop what they
hold (10 R247, R256). -/
def leaveTide (p : Nat) (s : State) : State :=
  if !panLive s p then s
  else
    let s0 := { s with tide := { s.tide with live := s.tide.live &&& ~~~ BitVec.ofNat 96 (2 ^ p) } }
    let s1 := settlePend (setNode s0 p { getNode s0 p with sched := none })
    (List.range 4).foldl (fun s k =>
      let a := getSluice s (4 * p + k)
      let s2 := if a.held.isEmpty && a.out.isEmpty then s else setSluice s (4 * p + k) { a with held := [], out := [] }
      let m := sluiceSender p k
      if m < 96 then
        let b := getSluice s2 (4 * m + (k + 2) % 4)
        if b.held.isEmpty then s2 else setSluice s2 (4 * m + (k + 2) % 4) { b with held := [] }
      else s2) s1

/-- PAN_TIDE: the pan leaves the tide (10 R256). -/
def execPanTide (p : Fin 96) (s : State) : Out := .next (leaveTide p s)

/-- PAN_INVOLVE: the partitions that hold a pan or own a link output of a router in it (17 R430). -/
def involved (s : State) (p : Nat) : List Nat :=
  (List.range 32).filter (fun k =>
    decide ((getPan s p).part = some k) ||
      s.routers.any (fun gr => decide (panOf gr.1 = p) && gr.2.own.toList.contains (some k)))

/-- A dark pan ends the job of a partition it involves, or the long command by which the partition loads, restores, imports or
saves (17 R430, R433; 14 R353). -/
def endForPan (p k : Nat) (s : State) : State :=
  let q := getPart s k
  match q.st with
  | .ready | .running | .held => recordFault k stPanDark 7 p 0 false s
  | .loading | .draining =>
    match q.long with
    | some l =>
      if l.kind = .load ∨ l.kind = .restore ∨ l.kind = .imp ∨ l.kind = .save then
        let s1 := modPart s k (fun q => { q with fault := some ⟨stPanDark, 7, p, 0, BitVec.ofNat 48 (north s), 0, []⟩, loads := [] })
        endFaulted k stPanDark (mapCtxs k (fun c => { c with st := .fault }) s1)
      else s
    | none => s
  | _ => s

/-- The cores of a pan that loses power: cleared (16 Table 16-8). -/
def panLost (p : Nat) (s : State) : State :=
  { mapCores s (fun g _ => decide (panOf g = p)) (fun _ c => if c.r.st = .defect then c else Core.zero) with
    haltSent := s.haltSent.filter (fun g => decide (panOf g ≠ p)) }

/-- Every core cleared, with every pan's power off (16 Table 16-8; 17 R438). -/
def allLost (s : State) : State :=
  { mapCores s (fun _ _ => true) (fun _ c => if c.r.st = .defect then c else Core.zero) with haltSent := [] }

/-- A pan dark for a core that its zeroise did not clear: it leaves the tide, the jobs it involves end with PAN_DARK, and the
module is suspect (16 R422; 15 R375, R390; 19 Table 19-7). -/
def unclearPan (p : Nat) (s : State) : State :=
  if !panLive s p then s
  else
    let ks := involved s p
    let s1 := ks.foldl (fun s k => endForPan p k s) (leaveTide p s)
    suspect 6 (panLost p (modPwr s1 p (fun x => { x with st := 5, mv := 0, amp := 0, set := 0 })))

/-- The context images of zeroised cores read back: a core that does not read 0 takes its pan dark (16 R422). -/
def readback (t : Nat → Bool) (s : State) : State := ((s.stuck.filter t).map panOf).dedup.foldl (fun s p => unclearPan p s) s

/-- Posts an event to the operator pairs and to the pairs that loaded the jobs of partitions. -/
def postAll (ks : List Nat) (e : Event) (s : State) : State :=
  let ps := (ks.filterMap (fun k => match (getPart s k).loadQp with
    | some (q, ep) => if (getQp s q).epoch = ep then some q else none
    | none => none)) ++ operatorPairs s
  ps.dedup.foldl (fun s q => postTo q e s) s

/-- Whether some pan's breaker has been commanded open and the controller has not yet dealt with it (17 R433). -/
def pansPending (s : State) : Bool := s.power.pans.any (fun px => decide (px.2.why ≠ 0) && decide (px.2.st < 2))

/-- Whether a pan's breaker has been commanded open for heat and the controller has not yet dealt with it (17 R439). -/
def heatPending (s : State) : Bool := s.power.pans.any (fun px => decide (px.2.why = 4) && decide (px.2.st < 2))

/-- PAN_POWER: a stage comparator commands the breaker open and raises HOLD (17 R429). -/
def execPanPower (p : Fin 96) (s : State) : Out :=
  .next (if 2 ≤ (getPwr s p).st then s
    else raiseHold 2 p (modPwr s p (fun x => if x.why = 0 then { x with why := 2 } else x)))

/-- BRKFAIL: the breaker has not opened after 5 µs (17 R429). -/
def execBrkfail (p : Fin 96) (s : State) : Out :=
  .next (if (getPwr s p).why = 0 ∨ (getPwr s p).brk then s else modPwr s p (fun x => { x with brkFail := true }))

/-- BREAKER_OPEN: with BRK, or FUSE, set, the controller removes the pan from the tide, ends the jobs it involves, marks it dark
and tells of it, and clears the causes that the fault raised and releases HOLD once no other pan waits for the same (17 R430,
R433, R439; 18 R452; 19 Table 19-7). -/
def execBreakerOpen (p : Fin 96) (fuse : Bool) (s : State) : Out :=
  let x := getPwr s p
  .next (if x.why = 0 ∨ 2 ≤ x.st then s
    else
      let ks := involved s p
      let s1 := leaveTide p (setPwr s p (if fuse then { x with fuse := true } else { x with brk := true }))
      let s2 := ks.foldl (fun s k => endForPan p k s) (postAll ks ⟨3, stOK, 0, 15, [p]⟩ s1)
      let s4 := panLost p (modPwr s2 p (fun x => { x with st := x.why, mv := 0, amp := 0, set := 0 }))
      let s5 := if x.why = 4 then s4 else pldm 3 p s4
      let s6 := if x.why = 2 then suspect 5 s5 else s5
      let s7 := if x.why = 4 && !s6.power.parked && !heatPending s6 then clearCauses 1 s6 else s6
      if pansPending s7 then s7 else releaseHold (clearCauses (2 + 4 + 8) s7))

/-- MOD_TRIP: the outlet is above 70 °C or four pans have tripped: HOLD, every breaker open, so that every core is lost, every job
ended with PAN_DARK, one that waited to end with its own code (17 R438; 16 Table 16-8; 19 R464). -/
def modTrip (s : State) : State :=
  if s.power.modTrip then s
  else
    let s1 := raiseHold 4 0x7F { s with power := { s.power with modTrip := true } }
    let s2 := (List.range 96).foldl (fun s p => modPwr s p (fun x => { x with brk := true, mv := 0, amp := 0 })) s1
    let s3 := s2.parts.foldl (fun s kp => endForPan 0x7F kp.1 s) s2
    pldm 4 0 (postAlarm 4 (allLost (endWaiting s3)))

/-- MOD_TRIP (17 R438). -/
def execModTrip (s : State) : Out := .next (modTrip s)

/-- PAN_TRIP: a pan sensor reaches 110 °C: the breaker is commanded open, unless another cause has commanded it already, HOLD is
raised, and with the first trip of the pan PAN_TRIPS advances; the fourth trips the module (17 R437, R438; 10 R250, R255). -/
def execPanTrip (p : Fin 96) (s : State) : Out :=
  .next (if 2 ≤ (getPwr s p).st then s
    else
      let s1 := raiseHold 3 p (modPwr s p (fun x => { x with why := if x.why = 0 then 3 else x.why, trip := true }))
      if (getPwr s p).trip then s1
      else
        let n := min 4 (s.power.trips + 1)
        let s2 := { s1 with power := { s1.power with trips := n } }
        if n = 4 then modTrip s2 else s2)

/-- A hot pan that involves no partition but its holder is switched off for heat: HOLD with cause FW, and its breaker is commanded
open (17 R439). -/
def heatOff (p : Nat) (s : State) : State :=
  let only := (involved s p).all (fun k => decide ((getPan s p).part = some k))
  if (getPwr s p).hot && only && decide ((getPwr s p).why = 0) && decide ((getPwr s p).st < 2) then
    raiseHold 0 0x7F (modPwr s p (fun x => { x with why := 4 }))
  else s

/-- PAN_CTRL_OFF: the write that switches a hot pan off (17 R439). -/
def execPanCtrlOff (p : Fin 96) (s : State) : Out := .next (heatOff p s)

-- Thermal --------------------------------------------------------------------------------------------------------

/-- A level with its hysteresis: set at or above hi, cleared below lo (17 Table 17-5). -/
def level (old : Bool) (t hi lo : Nat) : Bool := if hi ≤ t then true else if t < lo then false else old

/-- The PLDM event of a pan's TMAX sensor: the pan and the level that it reached, 1 warning, 2 throttle, 3 hot (18 Table 18-5). -/
def thermalEvent (p lvl : Nat) (s : State) : State := say 2 [0x05, BitVec.ofNat 8 p, BitVec.ofNat 8 lvl] s

/-- THERMAL_SAMPLE: every sensor is read; TMAX is a pan's hottest of 10, each coolant reading the hotter of its pair; the
levels follow with their hysteresis, a rise to warning raises an ALARM, each rise is a PLDM event with the level, and a hot pan is
considered for a switch-off (17 R435, R439, Table 17-5; 18 Table 18-5). -/
def execThermalSample (temps : List Byte) (inA inB outA outB : Byte) (s : State) : Out :=
  let s1 := { s with power := { s.power with cin := max inA.toNat inB.toNat, cout := max outA.toNat outB.toNat } }
  .next ((livePans s).foldl (fun s p =>
    let t := ((temps.drop (10 * p)).take 10).foldl (fun m b => max m b.toNat) 0
    let x := getPwr s p
    let w := level x.warn t 95 92
    let r := level x.throt t 100 97
    let h := level x.hot t 105 100
    let s2 := setPwr s p { x with tmax := t, warn := w, throt := r, hot := h }
    let s3 := if w && !x.warn then thermalEvent p 1 (postAlarm 4 s2) else s2
    let s4 := if r && !x.throt then thermalEvent p 2 s3 else s3
    let s5 := if h && !x.hot then thermalEvent p 3 s4 else s4
    heatOff p s5) s1)

/-- Whether any pan has THROT set. -/
def throttled (s : State) : Bool := s.power.pans.any (fun p => p.2.throt && panLive s p.1)

/-- THERM_STEP: with THROT set THERM falls to two below the code in force and by 2 more every 10 ms, down to 8; after 100 ms
without it THERM rises by 1 every 100 ms, up to 50 (18 R448). -/
def execThermStep (s : State) : Out :=
  let t := s.tide
  let w := s.power
  .next (if throttled s then
      if !w.lastHot || 0 < w.coolFor then
        { s with tide := { t with therm := max 8 (min t.therm (t.rate - 2)) }, power := { w with lastHot := true, hotFor := 0, coolFor := 0 } }
      else if 10 ≤ w.hotFor then
        { s with tide := { t with therm := max 8 (t.therm - 2) }, power := { w with hotFor := 0 } }
      else s
    else if 100 ≤ w.coolFor then
      { s with tide := { t with therm := min 50 (t.therm + 1) }, power := { w with coolFor := 0, lastHot := false } }
    else s)

-- Rails ----------------------------------------------------------------------------------------------------------

/-- The default V/F points in mV (18 Table 18-2). -/
def vfPoints : List (Nat × Nat) :=
  [(8, 550), (16, 580), (22, 610), (32, 660), (40, 700), (41, 705), (42, 710), (43, 715), (44, 720), (45, 730), (46, 740),
   (48, 760), (50, 800)]

/-- A code's default voltage: linear between its neighbours, rounded up to 5 mV (18 R445). -/
def vfDefault (k : Nat) : Nat :=
  let lo := (vfPoints.filter (fun p => decide (p.1 ≤ k))).getLastD (8, 550)
  let hi := (vfPoints.find? (fun p => decide (k ≤ p.1))).getD (50, 800)
  if hi.1 = lo.1 then lo.2 else ceilDiv (ceilDiv (lo.2 * (hi.1 - lo.1) + (hi.2 - lo.2) * (k - lo.1)) (hi.1 - lo.1)) 5 * 5

/-- VF_TABLE[k] in mV (18 R445). -/
def vfOf (s : State) (k : Nat) : Nat := match s.power.vf with | some l => l.getD (k - 8) 550 | none => vfDefault k

/-- A pan's rail for code k: VF[k] + VOFS, clamped to 0.55 to 0.80 V (18 R445). -/
def railOf (s : State) (p k : Nat) : Nat :=
  let v : Int := (vfOf s k : Int) + 5 * (getPwr s p).vofs.toInt
  (max 550 (min 800 v)).toNat

/-- Every live pan's rail is set for a code. -/
def setRails (k : Nat) (s : State) : State :=
  (livePans s).foldl (fun s p => modPwr s p (fun x => { x with set := railOf s p k })) s

/-- Whether every live pan's rail lies within 5 mV of its set point (18 R446). -/
def railsSettled (s : State) : Bool :=
  (livePans s).all (fun p => decide ((getPwr s p).mv ≤ (getPwr s p).set + 5) && decide ((getPwr s p).set ≤ (getPwr s p).mv + 5))

/-- The management block moves the pace toward the target: to raise it the rails go first; to lower it the change is
scheduled first (18 R446). -/
def seekRate (s : State) : State :=
  let k := targetRate s.tide
  let w := s.power
  if s.tide.pend.isSome || w.raising.isSome || w.lowering.isSome || w.parked then s
  else if s.tide.rate < k then
    if s.tide.fallback then s else { setRails k s with power := { (setRails k s).power with raising := some k } }
  else if k < s.tide.rate then
    let T := north s + 4096
    let s1 := deliverRate T k s
    { s1 with power := { s1.power with lowering := some (T, k) } }
  else s

/-- RAIL_SETTLED: the raised rails have reached their set points, and the change is scheduled (18 R446). -/
def execRailSettled (s : State) : Out :=
  .next (match s.power.raising with
    | some k =>
      if railsSettled s && s.tide.pend.isNone then
        deliverRate (north s + 4096) k { s with power := { s.power with raising := none } }
      else s
    | none => s)

/-- RAIL_LOWER: at T + 256 of the north rim the rails come down to the new code's voltage (18 R446). -/
def execRailLower (s : State) : Out :=
  .next (match s.power.lowering with
    | some (T, k) =>
      if T + 256 ≤ north s then setRails k { s with power := { s.power with lowering := none } } else s
    | none => s)

-- Park -----------------------------------------------------------------------------------------------------------

/-- Parking: RUNNING and HELD partitions take the cause PARK, RUNNING ones enter HELD; HOLD with cause FW; rails to 0.55 V.
A parked module is left as it is, and one that wakes parks again (18 R449, R450). -/
def parkNow (s : State) : State :=
  if s.power.parked && !s.power.waking then s
  else
    let ks := (List.range 32).filter (fun k => decide ((getPart s k).st = .running) || decide ((getPart s k).st = .held))
    let s1 := ks.foldl (fun s k => freeze (inPart s k) (modPart s k (fun p => { p with st := .held, holdPark := true }))) s
    let s2 := raiseHold 0 0x7F s1
    let s3 := (livePans s2).foldl (fun s p => modPwr s p (fun x => { x with set := 550 })) s2
    pldm 0x33 3 { s3 with power := { s3.power with parked := true, waking := false, p8 := s3.power.now, raising := none } }

/-- With no park cause left the module wakes: rails to the code in force, stacks out of self refresh (18 R451). -/
def wakeIfClear (s : State) : State :=
  let w := s.power
  if w.parked && !w.oper && !w.capPark && !w.waking then
    let s1 := setRails s.tide.rate { s with power := { w with waking := true } }
    pldm 0x33 4 { s1 with engs := tmapv Engine48.zero (fun _ e => { e with selfRef := false }) s1.engs }
  else s

/-- A park cause sets. -/
def park (oper : Bool) (s : State) : State :=
  parkNow { s with power := (if oper then { s.power with oper := true } else { s.power with capPark := true }) }

/-- PARK_WAKE_DONE: the rails have settled: FW clears, HOLD is released, PARKED clears, and partitions without a HOST cause run
again (18 R451). -/
def execParkWakeDone (s : State) : Out :=
  .next (if s.power.parked && s.power.waking && railsSettled s && !s.power.oper && !s.power.capPark then
      let s1 := releaseHold (clearCauses 1 { s with power := { s.power with parked := false, waking := false } })
      pldm 0x33 1 ((List.range 32).foldl (fun s k =>
        let p := getPart s k
        if p.holdPark then
          if p.holdHost then modPart s k (fun p => { p with holdPark := false })
          else thaw (inPart s k) (modPart s k (fun p => { p with holdPark := false, st := if p.st = .held then .running else p.st }))
        else s) s1)
    else s)

-- The tick -------------------------------------------------------------------------------------------------------

/-- The activity counters of a core as the tap reads them (18 R453; 02 R49). -/
def actOf (c : Core) : Vector Word 4 := #v[c.r.actMtx, c.r.actVec, c.r.actSram, c.r.actFlit]

/-- What the counters of a pan's cores have advanced since the last tick, by counter (18 R453). -/
def tapOf (s : State) (p : Nat) : List Nat :=
  (List.finRange 4).map (fun (i : Fin 4) => ((s.cores.filter (fun gc => decide (panOf gc.1 = p))).map (fun gc =>
    ((actOf gc.2)[i] - (tget (Vector.replicate 4 0) s.power.tap gc.1)[i]).toNat)).foldl (· + ·) 0)

/-- The dynamic power of a pan in the tick, in microwatts (18 R454). -/
def dynOf (s : State) (p mv : Nat) : Nat :=
  let d := tapOf s p ++ [(getNode s p).steps - (getPwr s p).steps]
  let fj := ((List.range 5).map (fun i => Config.energyCost (getPwr s p).cal i * d.getD i 0)).foldl (· + ·) 0
  fj * mv * mv / (720 * 720 * 1000000)

/-- The predicted power of the module at code k, in microwatts (18 R443). -/
def predict (s : State) (rim k : Nat) : Nat :=
  let now := s.tide.rate
  rim * 1000000 + ((livePans s).map (fun p =>
    let x := getPwr s p
    Config.staticPower x.cal (railOf s p k) x.tmax +
      x.dyn * k * (railOf s p k) ^ 2 / (now * (railOf s p now) ^ 2))).foldl (· + ·) 0

/-- CAP_EFF after a tick: toward TARGET by at most RAMP (18 R442). -/
def nextCap (w : Power) : Nat := if w.eff ≤ w.target then min w.target (w.eff + w.ramp) else max w.target (w.eff - w.ramp)

/-- PWR of a tick (18 R443, R447). -/
def choosePwr (s : State) (p eff rim amp : Nat) : Nat :=
  let w := s.power
  let k0 := ((List.range 43).map (50 - ·)).find? (fun k => decide (k = 8) || decide (predict s rim k + w.guard * 1000000 ≤ eff * 1000000))
  let less := s.tide.rate - 1
  let k1 := if decide (eff < p) && w.above then min (k0.getD 8) less else k0.getD 8
  let k2 := if 8550 < amp then min k1 less else k1
  let k3 := if (livePans s).any (fun q => decide ((getPwr s q).mv + 25 < (getPwr s q).set)) then min k2 less else k2
  max k3 8

/-- The measurements of a tick reach the pans' records, with the model's energy by holder (18 R453, R454). -/
def tickPans (rails : List (Nat × Nat)) (s : State) : State :=
  let s1 := (livePans s).foldl (fun s p =>
    let r := rails.getD p (0, 0)
    let dyn := dynOf s p r.1
    let x := getPwr s p
    let e := Config.staticPower x.cal r.1 x.tmax + dyn
    setPwr s p { x with mv := r.1, amp := r.2, dyn := dyn, steps := (getNode s p).steps, model := x.model ++ [((getPan s p).part, e)] }) s
  { s1 with power := { s1.power with
      tap := s.cores.foldl (fun t gc => tset (Vector.replicate 4 0) t gc.1 (actOf gc.2)) s1.power.tap } }

/-- POWER_TICK: each 1 ms tick of the management block: CAP_EFF moves, PWR is chosen and written, the pace moves toward its
target, the park cause CAP sets or clears, and the meters' timebase advances (18 R442 to R449). -/
def execPowerTick (volt amp : BitVec 16) (rim : Nat) (rails : List (Nat × Nat)) (s : State) : Out :=
  let p := volt.toNat * amp.toNat / 1000
  let s1 := tickPans rails s
  let eff := nextCap s1.power
  let pwr := choosePwr s1 p eff rim amp.toNat
  let w := s1.power
  let overs := if s.tide.rate = 8 ∧ eff < p then w.overs + 1 else 0
  let s2 := { s1 with
    tide := { s1.tide with pwr := pwr }
    power := { w with
      entryV := volt.toNat
      entryI := amp.toNat
      now := p
      rim := rim
      eff := eff
      curr := decide (8550 < amp.toNat)
      above := decide (eff < p)
      overs := overs
      hotFor := w.hotFor + 1
      coolFor := if throttled s then 0 else w.coolFor + 1
      joules := w.joules + volt.toNat * amp.toNat
      ticks := w.ticks + 1 } }
  let s3 := if 10 ≤ overs && !s2.power.capPark then park false s2 else s2
  let s4 := if s3.power.capPark && decide (s3.power.p8 + s3.power.guard + 500 ≤ s3.power.eff) && s3.power.parked && decide (overs < 10) then
      wakeIfClear { s3 with power := { s3.power with capPark := false } }
    else s3
  .next (seekRate s4)

-- Energy ---------------------------------------------------------------------------------------------------------

/-- A partition's meter. -/
def getMeter (s : State) (k : Nat) : Meter := tget Meter.zero s.power.meters k
/-- The module with a meter changed. -/
def modMeter (s : State) (k : Nat) (f : Meter → Meter) : State :=
  { s with power := { s.power with meters := tset Meter.zero s.power.meters k (f (getMeter s k)) } }

/-- The next whole second of the meters' timebase, in ticks (18 R457). -/
def nextSecond (s : State) : Nat := (s.power.ticks / 1000 + 1) * 1000

/-- The energy of a pan charged to its holders in proportion to the model, and the ratio of measured to modelled
(18 R456). meas is in microjoules, the model in nanojoules. -/
def chargePan (meas : List Nat) (s : State) (p : Nat) : State :=
  let x := getPwr s p
  let e := meas.getD p 0
  let tot := (x.model.map Prod.snd).foldl (· + ·) 0
  let s1 := if tot = 0 then s else (List.range 32).foldl (fun s k =>
    let mine := ((x.model.filter (fun m => decide (m.1 = some k))).map Prod.snd).foldl (· + ·) 0
    if mine = 0 then s else modMeter s k (fun m => { m with acc := m.acc + e * mine / tot })) s
  let ratio := if tot = 0 then 4096 else min 0xFFFF (e * 1000 * 4096 / tot)
  let off := if ratio * 100 < 85 * 4096 ∨ 115 * 4096 < ratio * 100 then x.off + 1 else 0
  let s2 := setPwr s1 p { x with ratio := ratio, off := off, drift := x.drift || decide (100 ≤ off), model := [], meas := e }
  if 100 ≤ off then watch 3 s2 else s2

/-- ENERGY_INTERVAL: every 100 ms the measured energy of each pan and of the rim is divided among the partitions (18 R456). -/
def execEnergyInterval (rim : Nat) (pans : List Nat) (s : State) : Out :=
  let s1 := (livePans s).foldl (chargePan pans) s
  let a := fun (k : Nat) => Config.rimCost 0 * (getMeter s1 k).lines + Config.rimCost 1 * (getMeter s1 k).units
  let tot := ((List.range 32).map a).foldl (· + ·) 0
  let var := rim - s.power.rimBase * 100000
  let s2 := if tot = 0 then s1 else
    (List.range 32).foldl (fun s k => if a k = 0 then s else modMeter s k (fun m => { m with acc := m.acc + var * a k / tot })) s1
  .next ((s2.power.meters.map Prod.fst).foldl (fun s k => modMeter s k (fun m => { m with lines := 0, units := 0 })) s2)

/-- ENERGY_WINDOW_END: a window has ended and its report is formed: whole joules, the rest carried (18 R457; 16 R423). -/
def execEnergyWindowEnd (k : Fin 32) (s : State) : Out :=
  let m := getMeter s k
  .next (if (getPart s k).st ≠ .none ∧ m.ticks + m.window * 1000 ≤ s.power.ticks then
      let j := m.acc / 1000000
      modMeter s k (fun m => { m with
        ticks := m.ticks + m.window * 1000, acc := m.acc % 1000000, index := m.index + 1, last := some (m.index, j, m.window)
        total := m.total + j })
    else s)

-- The entry ------------------------------------------------------------------------------------------------------

/-- The module dark or reset: everything is lost but the fuses and what waits outside (15 R395; 00 R14). -/
def moduleReset (s : State) : State :=
  { State.reset with
    fuse := s.fuse, stuck := s.stuck, free := s.free, pending := s.pending, time := s.time, tide := { Tide.zero with paceAt := s.time }
    boot := { Boot.zero with entry := s.boot.entry, signal := s.boot.signal } }

/-- ENTRY_OUT_OF_RANGE: every stage switches off and the module is dark (17 R425). -/
def execEntryOutOfRange (s : State) : Out := .next (moduleReset s)
/-- ENTRY_CURRENT_LIMIT: entry current held at 900 A for 1 ms takes the module dark (17 R426). -/
def execEntryCurrentLimit (s : State) : Out := .next (moduleReset s)

/-- RIDE_THROUGH: the entry moves into or out of a ride-through band; before full service, or outside every band, the module
goes dark (17 R425, Table 17-1; 15 R369). volt is in units of 10 mV. -/
def execRideThrough (volt : BitVec 16) (s : State) : Out :=
  let v := volt.toNat
  .next (if 5000 ≤ v ∧ v ≤ 6000 then { s with power := { s.power with entryV := v, ride := false, entryOk := true } }
    else if s.host.full ∧ 4500 ≤ v ∧ v ≤ 6300 then { s with power := { s.power with entryV := v, ride := true, entryOk := false } }
    else moduleReset s)

-- Caps -----------------------------------------------------------------------------------------------------------

/-- The values of a cap write come into force (18 R458). -/
def setCap (target ramp guard : Nat) (s : State) : State :=
  { s with power := { s.power with target := target, ramp := ramp, guard := guard, start := none } }

/-- A cap write is logged with its source, 1 POWER_CAP or 2 PLDM (18 R458). -/
def logCap (src target ramp guard : Nat) (s : State) : State :=
  { s with power := { s.power with writes := (src, target, ramp, guard) :: s.power.writes } }

/-- A cap write that applies at once (18 R458). -/
def applyCap (src target ramp guard : Nat) (s : State) : State := setCap target ramp guard (logCap src target ramp guard s)

/-- POWER_CAP_START: the start count of a POWER_CAP is reached (18 R458). -/
def execPowerCapStart (s : State) : Out :=
  .next (match s.power.start with
    | some (T, target, ramp, guard) => if T ≤ north s then setCap target ramp guard s else s
    | none => s)

/-- Whether a session is the operator's, secured and with mutual authentication (16 R396; 18 R459). -/
def operatorSession (s : State) (n : Nat) : Bool :=
  match tget none s.sec.sess n with
  | some x => x.mutAuth && decide (x.root = s.fuse.owner)
  | none => false

/-- A PLDM effecter write in a session: outside an operator secured session it answers ERROR_NOT_READY (18 R459). -/
def pldmWrite (n : Fin 49) (ok : Bool) (f : State → State) (s : State) : Out :=
  .next (if !operatorSession s n then say 2 [0x04#8] s else if ok then say 2 [0#8] (f s) else say 2 [0x02#8] s)

/-- PLDM_CAP_TARGET: TARGET, with the RAMP and GUARD in force (18 R459). -/
def execPldmCapTarget (n : Fin 49) (v : Word) (s : State) : Out :=
  pldmWrite n (decide (4000 ≤ v.toNat) && decide (v.toNat ≤ 40000)) (fun s => applyCap 2 v.toNat s.power.ramp s.power.guard s) s
/-- PLDM_RAMP (18 R459). -/
def execPldmRamp (n : Fin 49) (v : Word) (s : State) : Out :=
  pldmWrite n (decide (1 ≤ v.toNat) && decide (v.toNat ≤ 400)) (fun s => applyCap 2 s.power.target v.toNat s.power.guard s) s
/-- PLDM_PARK (18 R449, R459). -/
def execPldmPark (n : Fin 49) (s : State) : Out := pldmWrite n true (park true) s
/-- PLDM_UNPARK (18 R449, R459). -/
def execPldmUnpark (n : Fin 49) (s : State) : Out :=
  pldmWrite n true (fun s => wakeIfClear { s with power := { s.power with oper := false } }) s

end Sys2Proof.Machine
end

