-- ==== Sys2Proof/Machine/Control.lean ====
section
/-! DEFINITION. The module controller's side of the control messages: core faults, guard steps, barriers, the digests between
replicas, and the messages of other modules (06 R149 to R155; 09 R231 to R234; 11 R271; 19 R464 to R471). -/

namespace Sys2Proof.Machine

/-- A message of a collector on its way north out of the array (11 R271). -/
def sendNorth (s : State) (p : Nat) (m : Msg) : State :=
  let g := collectorOf p
  let l := northward s g 4 (getNode s p).steps m
  modRouter s g (fun x => { x with lanes := x.lanes.set l.lane (x.lanes[l.lane] ++ [l]) })

/-- Whether a message names the current generation of its partition (11 R273). -/
def freshMsg (s : State) (m : Msg) : Bool := decide (m.part < 32) && decide ((getPart s m.part).pgen = m.pgen) && decide ((getPart s m.part).st ≠ .none)

/-- The first message that the north rim has brought, of a kind, with the module without it. -/
def takeNorth (kind : MsgBody → Bool) (s : State) : Option (Msg × State) :=
  match s.ctlIn.find? (fun p => kind p.2.body) with
  | some p => some (p.2, { s with ctlIn := s.ctlIn.erase p })
  | none => none

/-- A stale message at the controller is counted at the router that sent it (11 R273). -/
def staleAt (m : Msg) (s : State) : State := modRouter s m.src (fun r => { r with stale := r.stale + 1 })

/-- FAULT_MESSAGE: the controller receives a core's FAULT message and records it (19 R464, R465; 02 R44). -/
def execFaultMessage (s : State) : Out :=
  .next (match takeNorth (fun b => match b with | .fault _ _ _ => true | _ => false) s with
    | some (m, s1) =>
      if freshMsg s1 m then
        match m.body with
        | .fault g code sub =>
          let s2 := if code.toNat = stPoison ∧ sub = 0x0A then countUe s1 else s1
          recordFault m.part code.toNat 1 ((lidOf s2 g).getD 0) sub.toNat false s2
        | _ => s1
      else staleAt m s1
    | none => s)

-- Guard steps ----------------------------------------------------------------------------------------------------

/-- The first message in a collector's inbox of a kind, with the module without it. -/
def takeInbox (p : Nat) (kind : MsgBody → Bool) (s : State) : Option (Msg × State) :=
  match (getPan s p).coll.inbox.find? (fun m => kind m.body) with
  | some m => some (m, modColl s p (fun c => { c with inbox := c.inbox.erase m }))
  | none => none

/-- Whether a message at a collector is of the pan's partition and its generation. -/
def freshPan (s : State) (p : Nat) (m : Msg) : Bool := decide ((getPan s p).part = some m.part) && freshMsg s m

/-- GUARD: a collector adds a contribution to its accumulator and sends its pan message when its members have all
contributed; a message of the other parity goes on at once, alone (11 R271; 06 R150). -/
def execGuard (p : Fin 96) (s : State) : Out :=
  .next (match takeInbox p (fun b => match b with | .guardC _ _ _ => true | _ => false) s with
    | none => s
    | some (m, s1) =>
      if !freshPan s1 p m then staleAt m s1
      else match m.body with
        | .guardC ovf n par =>
          let c := (getPan s1 p).coll
          if par != c.par then sendNorth s1 p m
          else
            let o := c.ovf || ovf
            if c.count + n = c.members then
              sendNorth (modColl s1 p (fun c => { c with par := !c.par, count := 0, ovf := false })) p
                { m with src := collectorOf p, body := .guardC o (c.count + n) par }
            else modColl s1 p (fun c => { c with count := c.count + n, ovf := o })
        | _ => s1)

/-- The guard parameter block of a partition's job (06 Table 6-1). -/
def guardBlock (s : State) (k : Nat) : BitVec 128 := match (getPart s k).image with | some im => im.guard | none => 0

/-- GTMO of a partition's job (06 Table 6-1). -/
def gtmoOf (s : State) (k : Nat) : Nat := let t := fld (guardBlock s k) 64 32; if t = 0 then 16777216 else t

/-- A signed byte of the guard block. -/
def sbyte (n : Nat) : Int := if n < 128 then n else (n : Int) - 256

/-- The exponent and the window count after a guard step (06 R155). -/
def nextScale (b : BitVec 128) (ovf : Bool) (ls : Byte) (window : Nat) : Byte × Nat :=
  let e := ls.toInt
  if ovf then (BitVec.ofInt 8 (max (e - (fld b 24 3 + 1 : Nat)) (sbyte (fld b 8 8))), 0)
  else
    let w := (window + 1) % 2 ^ 32
    if fld b 32 32 ≠ 0 ∧ w = fld b 32 32 then (BitVec.ofInt 8 (min (e + 1) (sbyte (fld b 16 8))), 0) else (ls, w)

/-- Once this module's bit and every other module's bit of the step are there, the step is decided and its result broadcast
(06 R151, R152, R155). -/
def decideGuard (k : Nat) (s : State) : State :=
  let g := (getPart s k).guard
  match g.own with
  | none => s
  | some b =>
    let peers := otherModules s k
    let bits := g.others.filter (fun o => decide (o.2.1 = g.steps))
    if !peers.all (fun m => bits.any (fun o => decide (o.1 = m))) then s
    else
      let ovf := b || bits.any (fun o => o.2.2)
      let (ls, w) := nextScale (guardBlock s k) ovf g.ls g.window
      let rest := g.others.filter (fun o => decide (g.steps < o.2.1))
      let g' : GuardUnit := { g with
        par := !g.par, count := 0, ovf := false, steps := g.steps + 1, skipped := g.skipped + ovf.toNat, ls := ls, window := w
        timer := g.next, next := none, own := none, others := rest }
      broadcast (modPart s k (fun p => { p with guard := g' })) k (.guardRes ovf ls)

/-- This module's bit of the open step is final and goes to the other modules: step number first, overflow second, the two
words of the message being the model's DESIGN CHOICE, log 104 (06 R150, R151). -/
def closeOwn (k : Nat) (ovf : Bool) (s : State) : State :=
  let s1 := modPart s k (fun p => { p with guard := { p.guard with own := some ovf } })
  sendCtrl 1 k (otherModules s1 k) [(getPart s1 k).guard.steps, ovf.toNat] s1

/-- A module on which the job has no member gives its bit, 0, to every step that another module's bit opens: DESIGN CHOICE,
log 105 (06 R151). -/
def emptyOwn (k : Nat) (s : State) : State :=
  let g := (getPart s k).guard
  if g.members = 0 ∧ g.own = none ∧ g.others.any (fun o => decide (o.2.1 = g.steps)) then decideGuard k (closeOwn k false s) else s

/-- GUARD_PAN_RECEIVE: the guard unit adds a pan message; with every member counted the module's bit is final and goes to the
other modules; a message of a decided step is discarded, and so is one of a step whose own bit is final: DESIGN CHOICE, log 103
(06 R150, R151, R153). -/
def execGuardPanReceive (s : State) : Out :=
  .next (match takeNorth (fun b => match b with | .guardC _ _ _ => true | _ => false) s with
    | none => s
    | some (m, s1) =>
      if !freshMsg s1 m then staleAt m s1
      else match m.body with
        | .guardC ovf n par =>
          let g := (getPart s1 m.part).guard
          if par != g.par || g.own.isSome then s1
          else
            let g1 := { g with count := g.count + n, ovf := g.ovf || ovf, timer := some (g.timer.getD 0) }
            let s2 := modPart s1 m.part (fun p => { p with guard := g1 })
            if g1.count = g1.members then decideGuard m.part (closeOwn m.part g1.ovf s2) else s2
        | _ => s1)

/-- GUARD_WD: a collector, or with number 96 the guard unit, subtracts a withdrawal; the collector sends one of the other
parity on, the guard unit discards one of a decided step, and of a step whose own bit is final: DESIGN CHOICE, log 103
(06 R154; 11 R271). -/
def execGuardWd (p : Fin 97) (s : State) : Out :=
  let isWd := fun b => match b with | MsgBody.guardWd _ _ => true | _ => false
  .next (if (p : Nat) < 96 then
      match takeInbox p isWd s with
      | none => s
      | some (m, s1) =>
        if !freshPan s1 p m then staleAt m s1
        else match m.body with
          | .guardWd n par =>
            if par != (getPan s1 p).coll.par then sendNorth s1 p m
            else modColl s1 p (fun c => { c with count := c.count - n })
          | _ => s1
    else
      match takeNorth isWd s with
      | none => s
      | some (m, s1) =>
        if !freshMsg s1 m then staleAt m s1
        else match m.body with
          | .guardWd n par =>
            modPart s1 m.part (fun q => if par != q.guard.par || q.guard.own.isSome then q
              else { q with guard := { q.guard with count := q.guard.count - n } })
          | _ => s1)

/-- GUARD_TIMEOUT: GTMO steps after its first message an incomplete guard step ends the job with TIMEOUT (06 R153). -/
def execGuardTimeout (k : Fin 32) (s : State) : Out :=
  .next (match (getPart s k).guard.timer with
    | some t => if gtmoOf s k ≤ t then recordFault k stTimeout 6 0 0 false s else s
    | none => s)

-- Barriers -------------------------------------------------------------------------------------------------------

/-- A barrier object of the module. -/
def getBar (s : State) (i : Nat) : Option BarObj := tget none s.bars i
/-- The module with a barrier object replaced. -/
def setBar (s : State) (i : Nat) (b : Option BarObj) : State := { s with bars := tset none s.bars i b }
/-- The object of a partition's barrier number (09 R231). -/
def barOf (s : State) (k n : Nat) : Option (Nat × BarObj) :=
  s.bars.findSome? (fun ib => match ib.2 with
    | some b => if b.part = k ∧ b.bnum = n then some (ib.1, b) else none
    | none => none)

/-- The participants of a barrier in a pan. -/
def barMembers (b : BarObj) (p : Nat) : List Nat := b.members.filter (fun g => decide (panOf g = p))

/-- The accumulator of a barrier number in a collector. -/
def accOf (c : Collector) (n : Byte) : Option BarAcc := c.bars.find? (fun a => decide (a.bnum = n))

/-- BAR_ARR: a collector records an arrival; one of an undeclared number or of a core that is no participant ends the job with
BOUNDS; with every participant of the pan there it sends its pan message (11 R271; 09 R232, R234). -/
def execBarArr (p : Fin 96) (s : State) : Out :=
  .next (match takeInbox p (fun b => match b with | .barArr _ _ _ _ => true | _ => false) s with
    | none => s
    | some (m, s1) =>
      if !freshPan s1 p m then staleAt m s1
      else match m.body with
        | .barArr n f cores odd =>
          match barOf s1 m.part n.toNat with
          | none => syncFault [m.part, n.toNat] m.part stBounds 5 n.toNat s1
          | some (_, b) =>
            let ok := cores.filter (fun g => b.members.contains g)
            let s2 := if ok.length < cores.length then syncFault [m.part, n.toNat] m.part stBounds 5 n.toNat s1 else s1
            let a := (accOf (getPan s2 p).coll n).getD ⟨n, 0, f, [], []⟩
            let bad := if a.count ≠ 0 ∧ a.flag ≠ f then some (a.flag, f) else odd.map (fun x => (f, x))
            if let some (rec, arr) := bad then syncFault [n.toNat, rec, arr] m.part stFormat 5 n.toNat s2
            else
              let a' := { a with flag := f, cores := a.cores ++ ok, count := a.count + ok.length, members := barMembers b p }
              let put := fun (x : BarAcc) => modColl s2 p (fun c => { c with bars := x :: c.bars.filter (fun y => decide (y.bnum ≠ n)) })
              if a'.count = a'.members.length ∧ a'.count ≠ 0 then
                sendNorth (put { a' with count := 0, cores := [] }) p { m with src := collectorOf p, body := .barArr n f a'.cores none }
              else put a'
        | _ => s1)

/-- Whether a context's current descriptor is a READ (12 Table 12-2). -/
def ctxReads (e : Engine48) (c : Ctx) : Bool := decide (fld (tget (0, 0) e.descs c.idx).2 0 4 = 1)

/-- The READ contexts of a partition stop and go back to their first descriptor (12 R296, R303). -/
def stopReads (k : Nat) (s : State) : State :=
  { s with engs := tmapv Engine48.zero (fun _ e => { e with ctxs := tmapv Ctx.zero (fun _ c =>
      if c.part = some k && (decide (c.st = .run) || decide (c.st = .wait)) && ctxReads e c then
        { c with st := .armed, idx := c.first, k := 0, r := 0 } else c) e.ctxs }) s.engs }

/-- A drain begins: it waits for the tiles whose first entry an engine has accepted (12 R303). -/
def startDrain (k : Nat) (s : State) : State :=
  modPart s k (fun p => { p with drainOf := (List.range p.spillBuf.length).filter (fun i => !(p.spillBuf.getD i []).isEmpty) })

/-- The end of a job that has reached its end barrier: DRAINING, READ contexts stop, the drains begin; a failure recorded before
ends the job instead (14 R354; 19 R467). -/
def beginEnd (k : Nat) (s : State) : State :=
  match (getPart s k).st, (getPart s k).ends with
  | .running, none | .held, none =>
    startDrain k (stopReads k
      (modPart s k (fun p => { p with st := .draining, ending := true, endCode := stOK, stopAt := north s })))
  | _, _ => s

/-- Releases a barrier generation: the flag goes to the cores of the arrival record, and the next generation begins; the end
barrier's release ends the job (09 R233; 14 R354). -/
def releaseBar (i : Nat) (b : BarObj) (s : State) : State :=
  let s1 := setBar s i (some { b with arrived := 0, fset := false, flag := 0, marr := 0, record := [], gen := (b.gen + 1) % 65536 })
  let s2 := broadcast s1 b.part (.barRel (BitVec.ofNat 8 b.bnum) b.flag b.gen b.record)
  match (getPart s2 b.part).image with
  | some im => if im.endbar = b.bnum then beginEnd b.part s2 else s2
  | none => s2

/-- The home module has all it waits for: it releases and tells the other modules (09 R232). -/
def homeDone (i : Nat) (b : BarObj) (s : State) : State :=
  if b.modm1 + 1 ≤ b.marr then sendCtrl 3 b.part (otherModules s b.part) [b.bnum, b.gen] (releaseBar i b s)
  else setBar s i (some b)

/-- BAR_PAN_RECEIVE: the barrier unit records the arriving cores; a flag other than the one recorded ends the job with FORMAT;
with every participant of the module there the module is complete (09 R232, R234). -/
def execBarPanReceive (s : State) : Out :=
  .next (match takeNorth (fun b => match b with | .barArr _ _ _ _ => true | _ => false) s with
    | none => s
    | some (m, s1) =>
      if !freshMsg s1 m then staleAt m s1
      else match m.body with
        | .barArr n f cores _ =>
          match barOf s1 m.part n.toNat with
          | none => syncFault [m.part, n.toNat] m.part stBounds 5 n.toNat s1
          | some (i, b) =>
            if b.fset ∧ b.flag ≠ f then syncFault [n.toNat, b.flag, f] m.part stFormat 5 n.toNat s1
            else
              let b1 := { b with flag := f, fset := true, arrived := b.arrived + cores.length, record := b.record ++ cores }
              if b1.arrived ≠ b1.lcm1 + 1 then setBar s1 i (some b1)
              else if b1.modm1 = 0 then releaseBar i b1 s1
              else if b1.home then homeDone i { b1 with marr := b1.marr + 1 } s1
              else sendCtrl 2 m.part [b1.homemod] [b1.bnum, b1.gen] (setBar s1 i (some b1))
        | _ => s1)

-- Messages of other modules --------------------------------------------------------------------------------------

/-- The first CTRL message in endpoint 0's store of a subtype, with the module without it (13 R332). -/
def takeStore (sub : Nat) (s : State) : Option (Ctrl × State) :=
  match s.fab.store.find? (fun c => decide (c.sub = sub)) with
  | some c => some (c, { s with fab := { s.fab with store := s.fab.store.erase c } })
  | none => none

/-- GUARD_BIT: another module's overflow bit for a guard step, the open one or the one after it; the first message of a step
starts its timer (06 R151, R153). -/
def execGuardBit (s : State) : Out :=
  .next (match takeStore 1 s with
    | none => s
    | some (c, s1) =>
      let n := c.body.getD 0 0
      let g := (getPart s1 c.part).guard
      if n < g.steps then s1
      else
        let s2 := modPart s1 c.part (fun p => { p with guard := { p.guard with
          others := p.guard.others ++ [(c.peer, n, decide (c.body.getD 1 0 ≠ 0))]
          timer := if n = g.steps then some (g.timer.getD 0) else p.guard.timer
          next := if n = g.steps then p.guard.next else some (g.next.getD 0) } })
        emptyOwn c.part (emptyOwn c.part (decideGuard c.part s2)))

/-- BAR_DONE: at the home module, another module is complete for the generation (09 R232). -/
def execBarDone (s : State) : Out :=
  .next (match takeStore 2 s with
    | none => s
    | some (c, s1) =>
      match barOf s1 c.part (c.body.getD 0 0) with
      | some (i, b) => if b.home ∧ b.gen = c.body.getD 1 0 then homeDone i { b with marr := b.marr + 1 } s1 else s1
      | none => s1)

/-- BAR_REL_CTRL: the home module's release (09 R232, R233). -/
def execBarRelCtrl (s : State) : Out :=
  .next (match takeStore 3 s with
    | none => s
    | some (c, s1) =>
      match barOf s1 c.part (c.body.getD 0 0) with
      | some (i, b) => if !b.home ∧ b.gen = c.body.getD 1 0 then releaseBar i b s1 else s1
      | none => s1)

/-- JOB_END_CTRL: another module ended the job: recorded with SRC 9, and R465 runs from its third step (19 R466). -/
def execJobEndCtrl (s : State) : Out :=
  .next (match takeStore 4 s with
    | none => s
    | some (c, s1) => recordWith false [] c.part (c.body.getD 0 0) 9 c.peer 0 s1)

-- Digests --------------------------------------------------------------------------------------------------------

/-- Four words of a 128-bit value. -/
def quad (d : BitVec 128) : Word × Word × Word × Word :=
  (d.extractLsb' 0 32, d.extractLsb' 32 32, d.extractLsb' 64 32, d.extractLsb' 96 32)

/-- A 128-bit value folded with four words under MIX4 (12 R301, R302; 19 R469). -/
def foldMix (seed : BitVec 64) (d : BitVec 128) (a b c e : Word) : BitVec 128 :=
  let (d0, d1, d2, d3) := quad d
  mix4Wide (mix4 seed (d0 ^^^ a) (d1 ^^^ b) (d2 ^^^ c) (d3 ^^^ e))

/-- The contexts of a partition whose lists close digest periods, by engine and number in ascending order (12 R302): a list
runs from its first descriptor to the one with LAST. -/
def closers (s : State) (k : Nat) : List (Nat × Nat) :=
  s.engs.flatMap (fun ee => (ee.2.ctxs.filter (fun cc => decide (cc.2.part = some k) &&
      closes ee.2.descs cc.2.first 1024)).map (fun cc => (ee.1, cc.1)))
where
  closes (ds : Tbl (Nat × BitVec 256)) (i : Nat) : Nat → Bool
    | 0 => false
    | fuel + 1 =>
      let d := (tget (0, 0) ds i).2
      d.getLsbD 5 || (!d.getLsbD 7 && closes ds (i + 1) fuel)

/-- The replica count of a declaration. -/
def repCount (d : DigestDecl) : Nat := fld d.head 0 4 + 1
/-- This partition's replica. -/
def myRep (d : DigestDecl) : Nat := fld d.head 4 4
/-- Modules per replica. -/
def grpOf (d : DigestDecl) : Nat := fld d.head 32 16
/-- The module at replica r and position i. -/
def modAt (d : DigestDecl) (r i : Nat) : Nat := (d.modules.getD (r * grpOf d + i) 0).toNat

/-- The modules of a replica other than this one. -/
def repModules (s : State) (d : DigestDecl) (r : Nat) : List Nat :=
  ((List.range (grpOf d)).map (modAt d r)).filter (· ≠ s.modnum)

/-- The hold cause HOST with the effect of JOB_HOLD (14 R351). -/
def hostHold (k : Nat) (s : State) : State :=
  match (getPart s k).st with
  | .running | .held => freeze (inPart s k) (modPart s k (fun p => { p with st := .held, holdHost := true }))
  | _ => s

/-- The majority's hold, with the event EXPEL (19 R470). -/
def expelHold (k mask n : Nat) (s : State) : State :=
  let s1 := if (getPart s k).holdHost then s else hostHold k s
  postJob k ⟨5, stOK, k, (getPart s1 k).st.code, [k, mask, n]⟩ s1

/-- An exchange with every replica's chain value there is decided (19 R470). -/
def decideDigest (k n : Nat) (d : DigestDecl) (s : State) : State :=
  let vals := (getPart s k).chains.filter (fun c => decide (c.1 = n) && decide (c.2.1 < 16))
  let nrep := repCount d
  if vals.length < nrep ∨ (getPart s k).st = .faulted then s
  else
    let s1 := modPart s k (fun p => { p with chains := (n, 99, 0) :: p.chains.filter (fun c => decide (n < c.1)) })
    let votes := fun (v : BitVec 128) => (vals.filter (fun c => decide (c.2.2 = v))).length
    match vals.find? (fun c => decide (nrep < 2 * votes c.2.2)) with
    | none => recordWith true (otherModules s k) k stDigest 8 0 0 s1
    | some win =>
      if votes win.2.2 = nrep then s1
      else
        let out := vals.filter (fun c => decide (c.2.2 ≠ win.2.2))
        let mask := (out.map (fun c => 2 ^ c.2.1)).foldl (· + ·) 0
        if out.any (fun c => decide (c.2.1 = myRep d)) then
          suspect 8 (recordWith true (repModules s d (myRep d)) k stDigest 8 (myRep d) 0 s1)
        else
          let keep := (List.range nrep).filter (fun r => !out.any (fun c => decide (c.2.1 = r)))
          expelHold k mask n (sendCtrl 5 k (keep.flatMap (repModules s d)) [n, myRep d, 0, 0, 1, mask] s1)

/-- STREAM_DIGEST_FORM: every closing context has closed a period: the stream digest is formed, the chain advances, and at an
exchange the value goes to the counterparts; a value still missing from the exchange before ends the job with TIMEOUT
(12 R302; 19 R469, R471). -/
def execStreamDigestForm (k : Fin 32) (s : State) : Out :=
  let p := getPart s k
  let n := p.periods
  let cs := closers s k
  let dig := fun (ec : Nat × Nat) => p.closed.find? (fun x => decide (x.1 = ec.1) && decide (x.2.1 = ec.2) && decide (x.2.2.1 = n))
  .next (if cs.isEmpty || !cs.all (fun ec => (dig ec).isSome) then s
    else
      let sd := cs.foldl (fun (acc : BitVec 128) ec =>
        let (c0, c1, c2, c3) := quad (match dig ec with | some x => x.2.2.2 | none => 0)
        foldMix p.seed acc c0 c1 c2 (c3 ^^^ BitVec.ofNat 32 (ec.1 * 256 + ec.2))) 0
      let (s0, s1', s2, s3) := quad sd
      let cd := foldMix p.seed p.chain s0 s1' s2 (s3 ^^^ BitVec.ofNat 32 n)
      let st1 := modPart s k (fun p => { p with
        chain := cd, periods := n + 1, closed := p.closed.filter (fun x => decide (x.2.2.1 ≠ n)) })
      match p.image.bind (fun im => im.digest) with
      | none => st1
      | some d =>
        if (n + 1) % (fld d.head 8 6 + 1) ≠ 0 then st1
        else if p.chains.any (fun c => decide (c.1 < n) && decide (c.2.1 < 16)) then recordFault k stTimeout 8 0 0 false st1
        else
          let pos := fld d.head 48 16
          let peers := ((List.range (repCount d)).filter (· ≠ myRep d)).map (fun r => modAt d r pos)
          let st2 := modPart st1 k (fun p => { p with chains := p.chains ++ [(n, myRep d, cd)] })
          decideDigest k n d (sendCtrl 5 k peers [n, myRep d, pos, cd.toNat, 0, 0] st2))

/-- DIGEST_CTRL: a chain value of another replica, or the notice of an expulsion (19 R470, R471). -/
def execDigestCtrl (s : State) : Out :=
  .next (match takeStore 5 s with
    | none => s
    | some (c, s1) =>
      let n := c.body.getD 0 0
      let p := getPart s1 c.part
      match p.image.bind (fun im => im.digest) with
      | none => s1
      | some d =>
        if c.body.getD 4 0 = 1 then expelHold c.part (c.body.getD 5 0) n s1
        else if p.chains.any (fun x => decide (n ≤ x.1) && decide (x.2.1 = 99)) then s1
        else
          decideDigest c.part n d (modPart s1 c.part (fun p => { p with
            chains := p.chains ++ [(n, c.body.getD 1 0 % 16, BitVec.ofNat 128 (c.body.getD 3 0))] })))

-- Starting a job -------------------------------------------------------------------------------------------------

/-- Every core of the partition that waits in LOADED for a start count its pan has reached enters RUN, or HOLD where the
partition is held; the first point of R169 applies after a load only (14 R355; 02 R40; 15 R393). -/
def startCores (k : Nat) (s : State) : State :=
  let held := decide ((getPart s k).st = .held)
  let fresh := !(getPart s k).restored
  mapCores s (fun g c => inPart s k g && decide (c.r.st = .loaded) &&
      (match c.x.commit with | some T => decide (T ≤ (getNode s (panOf g)).steps) | none => false))
    (fun g c =>
      let c1 := enterRun (envOf s g) fresh { c with x := { c.x with commit := none } }
      let c2 := { c1 with x := { c1.x with bpSkip := false } }
      if held && decide (c2.r.st = .run) then { c2 with r := { c2.r with st := .hold } } else c2)

/-- CORE_START_RUN: the cores whose start count has come enter RUN; a JOB_START with a count completes once the north rim has
reached it (14 R355). -/
def execCoreStartRun (k : Fin 32) (s : State) : Out :=
  .next (if s.tide.frozen then s
    else
      let s1 := startCores k s
      match (getPart s k).starts, (getPart s k).long with
      | some T, some l => if l.kind = .start ∧ T ≤ north s then completeLong k stOK [] (modPart s1 k (fun p => { p with starts := none })) else s1
      | _, _ => s1)

end Sys2Proof.Machine
end

