-- ==== Sys2Proof/Machine/Fabric.lean ====
section
/-! DEFINITION. The Chidex fabric: link blocks and replay, packets and the router, endpoints and channels, the transport, and
the registers of the block (13 R305 to R334; 09 R228 to R230). -/

namespace Sys2Proof.Machine

/-- A port. -/
def getPort (s : State) (p : Nat) : Port := tget Port.zero s.fab.ports p
/-- The module with a port replaced. -/
def setPort (s : State) (p : Nat) (x : Port) : State := { s with fab := { s.fab with ports := tset Port.zero s.fab.ports p x } }
/-- A credit object. -/
def getChan (s : State) (i : Nat) : Option Chan := tget none s.fab.chans i
/-- The module with a credit object replaced. -/
def setChan (s : State) (i : Nat) (c : Option Chan) : State := { s with fab := { s.fab with chans := tset none s.fab.chans i c } }
/-- An endpoint. -/
def getEp (s : State) (e : Nat) : Endpoint := tget Endpoint.zero s.fab.eps e
/-- The module with an endpoint replaced. -/
def setEp (s : State) (e : Nat) (x : Endpoint) : State := { s with fab := { s.fab with eps := tset Endpoint.zero s.fab.eps e x } }

/-- A drop counter advances: 0 HDR, 1 LEN, 2 EPOCH, 3 AGE, 4 LEVEL, 5 ROUTE, 6 NOMATCH, 7 DUP, 8 AUTHFAIL (13 Table 13-6). -/
def bump (i : Fin 9) (s : State) : State := { s with fab := { s.fab with drops := s.fab.drops.set i (s.fab.drops[i] + 1) } }

/-- The licensed ports: 16 without a licence (15 R374; 16 R410). -/
def licPorts (s : State) : Nat := match s.sec.licence with | some l => l.ports | none => 16
/-- Whether a licence for n ports enables port p: the first n / 4 of each side (01 R15, R21). -/
def portOn (n p : Nat) : Bool := decide (p % 12 < n / 4)

-- Packets --------------------------------------------------------------------------------------------------------

/-- The bytes of a packet's header (13 Table 13-2). -/
def headerBytes (p : Packet) : List Byte :=
  let b := fun (x : Bool) => x.toNat
  let w := fun (n : Nat) => bytesOf (BitVec.ofNat 32 n) 4
  w (p.ver + p.typ * 2 ^ 4 + p.vc * 2 ^ 8 + p.epoch * 2 ^ 11 + b p.alt * 2 ^ 12 + b p.resent * 2 ^ 13 + b p.enc * 2 ^ 14 + p.len * 2 ^ 16) ++
    w p.dst ++ w p.src ++ w (p.chn + p.tag * 2 ^ 16 + b p.tep * 2 ^ 19) ++ w p.seq ++ w p.arg0 ++ w p.arg1 ++ w p.age

/-- A packet from the bytes of its header, its body still to come (13 Table 13-2). -/
def parseHeader (bs : List Byte) : Packet :=
  let w := fun (i : Nat) => (BitVec.ofNat 32 (leAt bs (4 * i) 4) : Word)
  let h := w 0
  { ver := fld h 0 4, typ := fld h 4 4, vc := fld h 8 3, epoch := fld h 11 1, alt := h.getLsbD 12, resent := h.getLsbD 13,
    enc := h.getLsbD 14, len := fld h 16 9, dst := fld (w 1) 0 24, src := fld (w 2) 0 24, chn := fld (w 3) 0 16,
    tag := fld (w 3) 16 3, tep := (w 3).getLsbD 19, seq := (w 4).toNat, arg0 := (w 5).toNat, arg1 := (w 6).toNat,
    age := fld (w 7) 0 10, body := []
    resv := h.getLsbD 15 || decide (fld h 25 7 ≠ 0) || decide (fld (w 1) 24 8 ≠ 0) || decide (fld (w 2) 24 8 ≠ 0) ||
      decide (fld (w 3) 20 12 ≠ 0) || decide (fld (w 7) 10 22 ≠ 0) }

/-- The bytes that follow a header: 32 x LEN, and a tag of 16 where ENC is set (13 R312). -/
def bodyLen (p : Packet) : Nat := 32 * p.len + 16 * p.enc.toNat
/-- The 64 B units a packet needs (13 R316). -/
def unitsOf (p : Packet) : Nat := ceilDiv (32 + bodyLen p) 64
/-- The class base of a packet's virtual channels: 3 for DATA, 0 for the others (13 R319). -/
def vcBase (p : Packet) : Nat := if p.typ = 1 then 3 else 0
/-- The top level of a packet's class. -/
def topLevel (p : Packet) : Nat := if p.typ = 1 then 4 else 2
/-- The additional data of a packet: its header with VC, EPOCH, ALT, RESENT and AGE as 0 (13 R331). -/
def aadOf (p : Packet) : List Byte := headerBytes { p with vc := 0, epoch := 0, alt := false, resent := false, age := 0 }
/-- The IV of a packet: SRC, CHN, ESEQ (13 R331). -/
def ivOf (p : Packet) (eseq : Nat) : Nat := p.src * 2 ^ 72 + p.chn * 2 ^ 56 + eseq % 2 ^ 56

/-- The sequence with the low 32 bits n that lies nearest the next expected one (13 R325). -/
def nearest (next n : Nat) : Nat :=
  let base := next / 2 ^ 32 * 2 ^ 32 + n
  if base + 2 ^ 31 < next then base + 2 ^ 32
  else if next + 2 ^ 31 ≤ base ∧ 2 ^ 32 ≤ base then base - 2 ^ 32 else base

/-- Where a packet goes: an endpoint of this module, an output and the virtual channel there, or nowhere with the counter it
is dropped into (13 R318, R319, R324). -/
inductive Way where
  | here
  | out (port vc : Nat)
  | lost (counter : Fin 9)
  | down (port : Nat)

/-- The route of a packet by the table, in the order of checks 3 to 7 of R324. -/
def wayOf (s : State) (p : Packet) : Way :=
  let e := tget 0 s.fab.table (p.epoch * 65536 + p.dst / 256)
  let (port, rises, ok) := if p.alt then (fld e 8 6, e.getLsbD 14, e.getLsbD 15) else (fld e 0 6, e.getLsbD 6, e.getLsbD 7)
  let level := p.vc - vcBase p + rises.toNat
  if s.fab.wr[Fin.ofNat 2 p.epoch] then .lost 2
  else if p.dst / 256 = s.modnum ∨ e.getLsbD 16 then (if 1000 < p.age then .lost 3 else .here)
  else if !ok then .lost 5
  else if topLevel p < level then .lost 4
  else if 1000 < p.age then .lost 3
  else if (getPort s port).st = 2 ∨ (getPort s port).st = 3 then .out port (vcBase p + level)
  else if p.typ = 1 then .down port else .lost 5

/-- A packet leaves an endpoint: to another of this module at once, else into the router's queue from that endpoint. -/
def sendPkt (ep : Nat) (p : Packet) (s : State) : State :=
  if p.dst / 256 = s.modnum then
    let x := getEp s (p.dst % 256)
    setEp s (p.dst % 256) { x with inq := x.inq ++ [p] }
  else setEp s ep { getEp s ep with outq := (getEp s ep).outq ++ [p] }

/-- A NOTICE to the source of a packet: kinds 1 RETRY_START, 2 RETRY_END, 3 PATH_LOST, 4 LENGTH (13 R312, R329). -/
def notice (kind port : Nat) (p : Packet) (s : State) : State :=
  sendPkt 0 { ver := 1, typ := 3, vc := 0, epoch := s.fab.inj, alt := false, resent := false, enc := false, resv := false, len := 0,
              dst := p.src, src := s.modnum * 256, chn := p.chn, tag := 0, tep := false, seq := 0, arg0 := p.seq,
              arg1 := kind + p.resent.toNat * 16 + port * 32 + s.modnum * 65536, age := 0, body := [] } s

-- Link blocks ----------------------------------------------------------------------------------------------------

/-- A link block: control word, 500 B of packet bytes, CRC-32C (13 R309, Table 13-1). -/
def blockOf (x : Port) (replay : Bool) (bseq next vc crn : Nat) (bytes : List Byte) : List Byte :=
  let c : BitVec 64 := BitVec.ofNat 64 (bseq % 4096 + (x.back.getD 0) % 4096 * 2 ^ 12 + x.nak.toNat * 2 ^ 24 + replay.toNat * 2 ^ 25 +
    x.back.isSome.toNat * 2 ^ 26 + next * 2 ^ 32 + vc * 2 ^ 41 + (decide (0 < crn)).toNat * 2 ^ 44 + crn * 2 ^ 48)
  let b := bytesOf c 8 ++ padTo 500 bytes
  b ++ bytesOf (crc32c b) 4

/-- Bytes cut into blocks of 500; fuel bounds the blocks. -/
def linkChunks : Nat → List Byte → List (List Byte)
  | 0, _ => []
  | n + 1, bs => if bs.isEmpty then [] else bs.take 500 :: linkChunks n (bs.drop 500)

/-- The virtual channel whose credits the next block returns: the first that owes any. -/
def oweVc (x : Port) : Fin 8 := ((List.finRange 8).find? (fun v => decide (0 < x.ret[v]))).getD 0

/-- A port with a block sent, first or in a replay; it carries a credit return where one is owed (13 R309, R310, R316). -/
def emitBlock (replay : Bool) (x : Port) (b : Nat × Nat × List Byte) : Port :=
  let v := oweVc x
  let crn := min 0xFFFF x.ret[v]
  { x with sent := x.sent ++ [blockOf x replay b.1 b.2.1 v crn b.2.2], ret := x.ret.set v (x.ret[v] - crn) }

/-- A port with one more block sent and kept for replay (13 R310). -/
def addBlock (next : Nat) (x : Port) (bytes : List Byte) : Port :=
  let b := (x.bseq, next, bytes)
  { emitBlock false x b with bseq := (x.bseq + 1) % 4096, replay := x.replay ++ [b] }

/-- The block that a port sends where it has no packet to send: idle words, with the acknowledgement and the credits; one with a
full replay buffer is not kept and repeats the last sequence (13 R309, R310). -/
def controlBlock (x : Port) : Port :=
  if x.replay.length < 512 then addBlock 511 x [] else emitBlock false x ((x.bseq + 4095) % 4096, 511, [])

/-- A port with a packet's blocks sent; the header begins the first (13 R309). -/
def sendBlocks (x : Port) (p : Packet) : Port :=
  let x1 := { x with heads := x.heads ++ [(x.bseq % 4096, p)], txPkt := x.txPkt + 1 }
  match linkChunks 18 (headerBytes p ++ p.body) with
  | [] => x1
  | b :: rest => rest.foldl (addBlock 511) (addBlock 0 x1 b)

/-- Blocks up to a sequence are acknowledged (13 R310). -/
def acked (n : Nat) (x : Port) : Port :=
  let old := fun (q : Nat) => decide ((n + 4096 - q) % 4096 < 2048)
  { x with replay := x.replay.filter (fun b => !old b.1), heads := x.heads.filter (fun h => !old h.1) }

/-- The sources of the packets that a port's link events concern: those whose headers lie in its replay buffer and those
queued for it (13 R329). -/
def concerned (s : State) (p : Nat) : List Packet :=
  ((getPort s p).heads.map Prod.snd) ++
    (s.fab.ports.flatMap (fun qx => (qx.2.buf.filter (fun b => decide (b.out = some p))).map InPkt.p))

/-- One notice of a kind for each source concerned. -/
def noticeAll (kind p : Nat) (ps : List Packet) (s : State) : State :=
  (ps.foldl (fun (a : State × List Nat) q =>
    if a.2.contains q.src then a else (notice kind p q a.1, q.src :: a.2)) (s, [])).1

/-- A NAK starts a replay of every block kept: an attempt of the episode; the second puts the port into RETRY and sends the
notices; 100 episodes in an hour with none exhausted set the watch bit PORT (13 R310, R311, R329; 19 Table 19-6). -/
def naked (p : Nat) (s : State) : State :=
  let x := getPort s p
  let (ep, fresh) := match x.episode with
    | none => ((s.time, 1, match x.replay with | b :: _ => b.1 | [] => x.bseq), true)
    | some (t, n, b) => ((t, n + 1, b), false)
  let tries := recent s hour x.tries
  let x1 := { x with
    episode := some ep
    retries := if fresh then x.retries + 1 else x.retries
    tries := if fresh then s.time :: tries else tries }
  let x2 := x.replay.foldl (emitBlock true) x1
  let s1 := if 100 ≤ x1.tries.length ∧ recent s hour x.lost = [] then watch 2 s else s
  if ep.2.1 = 2 then noticeAll 1 p (concerned s p) (setPort s1 p { x2 with st := 3, noticed := (concerned s p).map Packet.src })
  else setPort s1 p x2

/-- An episode ends when the block that was NAKed is acknowledged (13 R311, R329). -/
def recovered (p : Nat) (s : State) : State :=
  let x := getPort s p
  match x.episode with
  | some (_, _, b) =>
    if x.replay.any (fun r => decide (r.1 = b)) then s
    else
      let s1 := setPort s p { x with episode := none, st := if x.st = 3 then 2 else x.st, noticed := [] }
      if x.st = 3 then
        x.noticed.dedup.foldl (fun s src => notice 2 p { parseHeader [] with src := src } s) s1
      else s1
  | none => s

/-- Bytes that belong to the packet still coming in fill it; the rest waits to be parsed. -/
def feed (bs : List Byte) (x : Port) : Port :=
  match x.buf.getLast? with
  | some b =>
    if b.need = 0 then { x with rx := x.rx ++ bs }
    else
      let n := min b.need bs.length
      { x with
        buf := x.buf.dropLast ++ [{ b with p := { b.p with body := b.p.body ++ bs.take n }, need := b.need - n }]
        rx := bs.drop n }
  | none => { x with rx := x.rx ++ bs }

/-- LINK_BLOCK_RECEIVE: an intact block in sequence is accepted with its acknowledgement, credits and bytes, any other sets NAK;
after a NAK only the replay of the next block is accepted; the port answers a NAK with its replay, any other block with the next
of its own. Its ce and ue count the codewords that the FEC corrected and could not (13 R305, R309 to R311, Table 13-7). -/
def execLinkBlockReceive (p : Fin 48) (block : LinkBlock) (s : State) : Out :=
  let x0 := getPort s p
  .next (if x0.st ≠ 2 ∧ x0.st ≠ 3 then s
    else
      let x := { x0 with fecCe := x0.fecCe + block.ce.setWidth 32, fecUe := x0.fecUe + block.ue.setWidth 32 }
      let back := fun (y : Port) => setPort s p (controlBlock y)
      let c : BitVec 64 := BitVec.ofNat 64 (leAt block.bytes 0 8)
      let good := decide (block.bytes.length = 512) && decide ((crc32c (block.bytes.take 508)).toNat = leAt block.bytes 508 4)
      let want := match x.back with | some n => (n + 1) % 4096 | none => 0
      let naks := fun (y : Port) => { y with nak := true, nakAt := if y.nak then y.nakAt else s.time }
      if !good then back (naks { x with crc := x.crc + 1 })
      else if fld c 0 12 ≠ want ∨ (x.nak ∧ !c.getLsbD 25) then back (naks x)
      else
        let x1 := { x with back := some want, nak := false, nakAt := if c.getLsbD 25 then x.nakAt else 0 }
        let x2 := if c.getLsbD 26 then acked (fld c 12 12) x1 else x1
        let v : Fin 8 := Fin.ofNat 8 (fld c 41 3)
        let x3 := if c.getLsbD 44 then { x2 with cred := x2.cred.set v (x2.cred[v] + fld c 48 16) } else x2
        let s1 := recovered p (setPort s p (feed ((block.bytes.drop 8).take 500) x3))
        if c.getLsbD 24 then naked p s1 else setPort s1 p (controlBlock (getPort s1 p)))

/-- A port as training leaves it: UP, every lane trained, sequences and credits fresh (13 R306, R308). -/
def trained (rtt : Nat) (x : Port) : Port :=
  { x with
    st := 2, lanes := 0xFF#8, rtt := rtt, bseq := 0, replay := [], back := none, nak := false, nakAt := 0, episode := none,
    noticed := [], refDown := false, cred := Vector.replicate 8 1040, ret := Vector.replicate 8 0, rx := [], heads := [],
    buf := x.buf.filter (fun b => decide (b.need = 0)) }

/-- PORT_TRAINED: a training port comes UP with its round trip measured, or DOWN where a lane has failed (13 R306, R308; 15
R371). -/
def execPortTrained (p : Fin 48) (link : Training) (s : State) : Out :=
  let x := getPort s p
  .next (if x.st ≠ 1 ∨ !s.tide.locked then s
    else fixRefDown (setPort s p (if link.lanes = 0xFF then trained link.rtt.toNat x else { x with st := 4, lanes := link.lanes, refDown := false })))

/-- The port's packets concerned are lost: one PATH_LOST for each class D packet, and they are discarded (13 R311, R329). -/
def losePort (p : Nat) (s : State) : State :=
  let ps := (concerned s p).filter (fun q => decide (q.typ = 1))
  let s1 := ps.foldl (fun s q => notice 3 p q s) s
  { s1 with fab := { s1.fab with ports := tmapv Port.zero (fun q x =>
      let gone := x.buf.filter (fun b => decide (b.out = some p) && decide (b.need = 0))
      let ret := gone.foldl (fun (v : Vector Nat 8) b => let i : Fin 8 := Fin.ofNat 8 b.p.vc; v.set i (v[i] + unitsOf b.p)) x.ret
      let x1 := { x with buf := x.buf.filter (fun b => !(decide (b.out = some p) && decide (b.need = 0))), ret := ret }
      if q = p then { x1 with replay := [], heads := [], episode := none, noticed := [] } else x1) s1.fab.ports } }

/-- RETRY_EXHAUSTED: after eight attempts or 10 µs the port goes DOWN, or FAILED at the third exhaustion within 1 s
(13 R307, R311). -/
def execRetryExhausted (p : Fin 48) (s : State) : Out :=
  let x := getPort s p
  .next (match x.episode with
    | some (t, n, _) =>
      if 8 ≤ n ∨ t + 10000000 ≤ s.time then
        let s1 := losePort p s
        let y := getPort s1 p
        let times := s.time :: recent s hour x.lost
        let st := if 3 ≤ (times.filter (fun u => decide (s.time < u + 1000000000000))).length then 5 else 4
        let s2 := setPort s1 p { y with st := st, lanes := 0, exhaust := min 0xFFFF (y.exhaust + 1), lost := times }
        if st = 5 then watch 2 s2 else s2
      else s
    | none => s)

/-- PORT_RETRAIN_DONE: a DOWN port is UP again, its round trip measured anew, or FAILED; one down for the reference waits for it (13 R307). -/
def execPortRetrainDone (p : Fin 48) (rtt : Option (BitVec 16)) (s : State) : Out :=
  let x := getPort s p
  .next (if x.st = 4 ∧ !x.refDown then
      match rtt with
      | some n => setPort s p (trained n.toNat x)
      | none => watch 2 (setPort s p { x with st := 5 })
    else s)

/-- PORT_CTRL_RETRAIN: a DOWN or FAILED port trains (13 R307). -/
def execPortCtrlRetrain (p : Fin 48) (s : State) : Out :=
  let x := getPort s p
  .next (if (x.st = 4 ∨ x.st = 5) ∧ !x.refDown then setPort s p { x with st := 1, lost := [] } else s)

/-- PORT_CTRL_DISABLE: the port is held in OFF, or no longer (13 R307). -/
def execPortCtrlDisable (p : Fin 48) (on : Bool) (s : State) : Out :=
  let x := getPort s p
  .next (if on then
      let s1 := losePort p s
      setPort s1 p { getPort s1 p with st := 0, lanes := 0, disable := true }
    else setPort s p { x with disable := false, st := if x.st = 0 ∧ portOn (licPorts s) p ∧ s.boot.p1 then 1 else x.st })

-- The router -----------------------------------------------------------------------------------------------------

/-- The leading idle words of a byte stream removed; fuel bounds the words. -/
def skipIdle : Nat → List Byte → List Byte
  | 0, bs => bs
  | n + 1, bs => if bs.take 4 = [0, 0, 0, 0] then skipIdle n (bs.drop 4) else bs

/-- PACKET_HEADER_ARRIVAL: the next header a port has accepted is checked in the order of R324: the packet is buffered for its
output, delivered to an endpoint, or dropped (13 R323, R324, R329). A dropped packet's bytes are drained as output 48. -/
def execPacketHeaderArrival (p : Fin 48) (s : State) : Out :=
  let x := getPort s p
  let busy := match x.buf.getLast? with | some b => decide (b.need ≠ 0) | none => false
  let rx := skipIdle (x.rx.length + 1) x.rx
  .next (if busy || decide (rx.length < 32) then s
    else
      let h0 := parseHeader (rx.take 32)
      let h := { h0 with age := h0.age + (if x.nakAt = 0 then 0 else ceilDiv (s.time - x.nakAt) 100000) }
      let put := fun (out : Option Nat) (s : State) =>
        let y := getPort s p
        let b : InPkt := ⟨h, out, s.time, bodyLen h⟩
        setPort s p (feed (rx.drop 32) { y with rx := [], rxPkt := y.rxPkt + 1, buf := y.buf ++ [b] })
      let dropIt := fun (i : Fin 9) => put (some 48) (bump i s)
      if h.ver ≠ 1 ∨ h.typ = 0 ∨ 4 < h.typ ∨ h.resv then dropIt 0
      else if 258 < h.len ∨ (h.len = 0 ∧ (h.typ = 1 ∨ h.typ = 4)) then notice 4 p h (dropIt 1)
      else if !s.fab.en then put (some 48) s
      else match wayOf s h with
        | .lost i => dropIt i
        | .down q => notice 3 q h (put (some 48) s)
        | .here => put none s
        | .out q _ => put (some q) s)

/-- Removes a packet from a port's buffer; its units go back as credits (13 R316). -/
def drain (q : Nat) (b : InPkt) (s : State) : State :=
  let x := getPort s q
  let v : Fin 8 := Fin.ofNat 8 b.p.vc
  setPort s q { x with buf := x.buf.erase b, ret := x.ret.set v (x.ret[v] + unitsOf b.p) }

/-- Whether a port carries blocks: UP or in RETRY (13 R307). -/
def portUp (s : State) (p : Nat) : Bool := decide ((getPort s p).st = 2) || decide ((getPort s p).st = 3)

/-- Packets for endpoints of this module, dropped ones, and those whose output has gone down leave the buffers once they are
whole; a class D packet of the last kind is told of by PATH_LOST, a class S one is counted (13 R318, R319, R324, R329). -/
def sink (s : State) : State :=
  s.fab.ports.foldl (fun s qx =>
    (qx.2.buf.filter (fun b => decide (b.need = 0) && (match b.out with | none => true | some q => !decide (q < 48) || !portUp s q))).foldl (fun s b =>
      let s1 := drain qx.1 b s
      match b.out with
      | none => setEp s1 (b.p.dst % 256) { getEp s1 (b.p.dst % 256) with inq := (getEp s1 (b.p.dst % 256)).inq ++ [b.p] }
      | some q => if q = 48 then s1 else if b.p.typ = 1 then notice 3 q b.p s1 else bump 5 s1) s) s

/-- The number of a CTRL message's job: the low word of its KEYID (13 R332). -/
def jobId (s : State) (k : Nat) : Nat := fld (getPart s k).keyid 0 32

/-- The 32 B of a CTRL message (13 Table 13-4; 19 R469): subtype 5 as R469 lays it out, the others four bytes a word. -/
def ctrlBytes (c : Ctrl) : List Byte :=
  let n := fun (i : Nat) => c.body.getD i 0
  if c.sub = 5 then
    padTo 32 (bytesOf (BitVec.ofNat 32 (n 0)) 4 ++ bytesOf (BitVec.ofNat 16 (n 1)) 2 ++ bytesOf (BitVec.ofNat 16 (n 2)) 2 ++
      bytesOf (BitVec.ofNat 128 (n 3)) 16 ++ [BitVec.ofNat 8 (n 4)] ++ bytesOf (BitVec.ofNat 16 (n 5)) 2)
  else padTo 32 (c.body.flatMap (fun x => bytesOf (BitVec.ofNat 32 x) 4))

/-- The words of a CTRL message from its bytes. -/
def ctrlBody (sub : Nat) (bs : List Byte) : List Nat :=
  if sub = 5 then [leAt bs 0 4, leAt bs 4 2, leAt bs 6 2, leAt bs 8 16, leAt bs 24 1, leAt bs 25 2]
  else (List.range 8).map (fun i => leAt bs (4 * i) 4)

/-- The CTRL sequence of a job toward a module. -/
def seqOf (l : List CtlSeq) (part peer : Nat) : CtlSeq := (l.find? (fun c => decide (c.part = part) && decide (c.peer = peer))).getD ⟨part, peer, 0, []⟩
/-- A list of CTRL sequences with one replaced. -/
def putSeq (l : List CtlSeq) (c : CtlSeq) : List CtlSeq := c :: l.filter (fun d => !(decide (d.part = c.part) && decide (d.peer = c.peer)))

/-- CTRL messages of the controller become packets of endpoint 0, sealed under their job's key and kept until acknowledged
(13 R331, R332). -/
def flushCtrl (s : State) : State :=
  if !s.fab.en then s
  else s.ctrlOut.foldl (fun s c =>
    let q := seqOf s.fab.sends c.part c.peer
    let p0 : Packet := {
      ver := 1, typ := 4, vc := 0, epoch := s.fab.inj, alt := false, resent := false, enc := true, resv := false,
      len := 1, dst := c.peer * 256, src := s.modnum * 256, chn := 0xFFFF, tag := 0, tep := false, seq := q.next % 2 ^ 32,
      arg0 := c.sub, arg1 := jobId s c.part, age := 0, body := [] }
    let p := { p0 with body := gcmSeal ((getPart s c.part).jk.getD 0) (ivOf p0 q.next) (aadOf p0) (ctrlBytes c) }
    let q1 := { q with next := q.next + 1, tx := q.tx ++ [⟨q.next, p, false, s.time, 0⟩] }
    sendPkt 0 p { s with fab := { s.fab with sends := putSeq s.fab.sends q1 } }) { s with ctrlOut := [] }

/-- A packet that may start on an output: its source, an input port or 48 plus an endpoint, and its virtual channel there. -/
structure Cand where
  src : Nat
  vc  : Nat
  p   : Packet
  b   : Option InPkt

/-- The packets that may start on an output: the first of its virtual channel at each input, whole, and the first of each
endpoint; credits must cover the whole packet (13 R316). -/
def cands (s : State) (p : Nat) : List Cand :=
  let fromPorts := s.fab.ports.flatMap (fun qx =>
    (List.range 8).filterMap (fun v =>
      match qx.2.buf.find? (fun b => decide (b.p.vc = v)) with
      | some b => if b.out = some p ∧ b.need = 0 then
          (match wayOf s b.p with
            | .out o vc => if o = p then some (⟨qx.1, vc, b.p, some b⟩ : Cand) else none
            | _ => none)
        else none
      | none => none))
  let fromEps := s.fab.eps.filterMap (fun ex =>
    match ex.2.outq with
    | h :: _ => (match wayOf s h with
      | .out o vc => if o = p then some (⟨48 + ex.1, vc, h, none⟩ : Cand) else none
      | _ => none)
    | [] => none)
  (fromPorts ++ fromEps).filter (fun c => decide (unitsOf c.p ≤ (getPort s p).cred[Fin.ofNat 8 c.vc]))

/-- The order of service: VC0 to VC2 first, then VC3 to VC7 in turn, and within one the sources in turn: vcTurn is the first of
VC3 to VC7, turns the first source of each (13 R317). -/
def pickCand (turns : Vector Nat 8) (vcTurn : Nat) (cs : List Cand) : Option Cand :=
  let key := fun (c : Cand) => (if c.vc < 3 then c.vc else 3 + (c.vc + 2 - vcTurn % 5) % 5) * 1000 + (c.src + 304 - turns[Fin.ofNat 8 c.vc] % 304) % 304
  (cs.foldl (fun (a : Option Cand) c => match a with
    | some b => if key c < key b then some c else a
    | none => some c) none)

/-- Packets at the head of an endpoint's queue that no output takes are dropped, class D with PATH_LOST; fuel bounds them. -/
def settleEp (e : Nat) : Nat → State → State
  | 0, s => s
  | n + 1, s =>
    match (getEp s e).outq with
    | h :: rest =>
      match wayOf s h with
      | .lost i => settleEp e n (bump i (setEp s e { getEp s e with outq := rest }))
      | .down q => settleEp e n (notice 3 q h (setEp s e { getEp s e with outq := rest }))
      | _ => s
    | [] => s

/-- Every endpoint's queue settled. -/
def settleEps (s : State) : State := s.fab.eps.foldl (fun s ex => settleEp ex.1 (ex.2.outq.length) s) s

/-- PACKET_DEPARTURE: an output starts the next packet it serves; AGE grows by the time it stayed and the link's delay, and one
past the lifetime is discarded (13 R316, R317, R323). -/
def execPacketDeparture (p : Fin 48) (s : State) : Out :=
  let s1 := settleEps (sink (flushCtrl s))
  let x := getPort s1 p
  .next (if !s1.fab.en ∨ (x.st ≠ 2 ∧ x.st ≠ 3) then s1
    else match pickCand x.turns x.vcTurn (cands s1 p) with
      | none => s1
      | some c =>
        let nb := ceilDiv (32 + bodyLen c.p) 500
        if 512 < x.replay.length + nb then s1
        else
          let since := match c.b with | some b => b.at_ | none => s1.time
          let age := c.p.age + ceilDiv (s1.time - since) 100000 + ceilDiv (ceilDiv x.rtt 2) 100
          let s2 := match c.b with
            | some b => drain c.src b s1
            | none => setEp s1 (c.src - 48) { getEp s1 (c.src - 48) with outq := (getEp s1 (c.src - 48)).outq.drop 1 }
          if 1000 < age then bump 3 s2
          else
            let y := getPort s2 p
            let v : Fin 8 := Fin.ofNat 8 c.vc
            setPort s2 p (sendBlocks { y with
              cred := y.cred.set v (y.cred[v] - unitsOf c.p)
              turns := y.turns.set v ((c.src + 1) % 304)
              vcTurn := if c.vc < 3 then y.vcTurn else (c.vc - 2) % 5 } { c.p with vc := c.vc, age := age }))

-- Endpoints ------------------------------------------------------------------------------------------------------

/-- LOC of a network interface fault: endpoint and credit object index (19 Table 19-2). -/
def niLoc (ep i : Nat) : Nat := ep + i * 256

/-- A channel that breaks its count: it stops, CR stays, and the job ends with SYNC_FAULT, the detail being the object, its
SIDE and whether the count overflows (09 R229, R238). -/
def creditFault (above : Bool) (i : Nat) (c : Chan) (s : State) : State :=
  syncFault [i, c.recv.toNat, above.toNat] c.part stSync 4 (niLoc c.ep i) (setChan s i (some { c with stop := true }))

/-- The channel of an endpoint, peer, number and side. -/
def chanOf (s : State) (recv : Bool) (ep peer chn : Nat) : Option (Nat × Chan) :=
  s.fab.chans.findSome? (fun ic => match ic.2 with
    | some c => if (c.recv == recv) && decide (c.ep = ep) && decide (c.peer = peer) && decide (c.chn = chn) && !c.stop then some (ic.1, c) else none
    | none => none)

/-- The first packet delivered to an endpoint that meets a test, with the module without it; none while EN is 0 (13 R313). -/
def takeInq (e : Nat) (t : Packet → Bool) (s : State) : Option (Packet × State) :=
  let s := sink s
  if !s.fab.en then none
  else match (getEp s e).inq.find? t with
    | some p => some (p, setEp s e { getEp s e with inq := (getEp s e).inq.erase p })
    | none => none

/-- An XPORT from an endpoint: the next sequence expected, and credits returned (13 R327). -/
def sendXport (ep dst chn next crn : Nat) (s : State) : State :=
  sendPkt ep { ver := 1, typ := 2, vc := 0, epoch := s.fab.inj, alt := false, resent := false, enc := false, resv := false, len := 0,
               dst := dst, src := s.modnum * 256 + ep, chn := chn, tag := 0, tep := false, seq := 0, arg0 := next % 2 ^ 32,
               arg1 := crn + 65536 + (decide (0 < crn)).toNat * 131072, age := 0, body := [] } s

/-- The next sequence expected once all buffered ones are counted; fuel bounds them. -/
def nextSeq : Nat → List Nat → Nat → Nat
  | 0, _, n => n
  | f + 1, l, n => if l.contains n then nextSeq f l (n + 1) else n

/-- A tag or key failure ends the receiving job with AUTH (13 R331). -/
def authFail (k ep i : Nat) (s : State) : State := recordFault k stAuth 4 (niLoc ep i) 0 false (bump 8 s)

/-- A CTRL packet reaches endpoint 0: its job is found, duplicates and a full store are handled, and what is in sequence goes
into the store (13 R331, R332). -/
def ctrlArrive (p : Packet) (s : State) : State :=
  let job := (List.range 32).find? (fun k => decide ((getPart s k).jk.isSome) && decide (jobId s k = p.arg1) &&
    decide ((getPart s k).st ≠ .none) && decide ((getPart s k).st ≠ .empty))
  match job with
  | none => bump 6 s
  | some k =>
    let peer := p.src / 256
    let q := seqOf s.fab.gets k peer
    let n := nearest q.next p.seq
    if p.arg0 = 0 ∨ 5 < p.arg0 then bump 6 s
    else if n < q.next || q.tx.any (fun t => decide (t.eseq = n)) then sendXport 0 p.src 0xFFFF q.next 0 (bump 7 s)
    else if !p.enc then authFail k 0 0 s
    else match gcmOpen ((getPart s k).jk.getD 0) (ivOf p n) (aadOf p) p.body with
      | none => authFail k 0 0 s
      | some bs =>
        if 1024 ≤ s.fab.store.length + q.tx.length then s
        else
          let held := q.tx ++ [⟨n, { p with body := bs }, false, 0, 0⟩]
          let next := nextSeq (held.length + 1) (held.map TxCopy.eseq) q.next
          let now := (List.range (next - q.next)).filterMap (fun i => (held.find? (fun t => decide (t.eseq = q.next + i))).map TxCopy.p)
          let msgs := now.map (fun p => (⟨p.arg0, k, peer, ctrlBody p.arg0 p.body⟩ : Ctrl))
          let q1 := { q with next := next, tx := held.filter (fun t => decide (next ≤ t.eseq)) }
          sendXport 0 p.src 0xFFFF next 0 { s with fab := { s.fab with store := s.fab.store ++ msgs, gets := putSeq s.fab.gets q1 } }

/-- The sideband of entry j of n of a token. -/
def tokSb (tag : Nat) (ep : Bool) (j n : Nat) : Byte := mkSb tag ep (decide (j = 0)) (decide (j + 1 = n))

/-- The steps of the rim segment at which an edge link lies. -/
def edgeSteps (s : State) (edge : Nat) : Nat := (getNode s (96 + edge % 4)).steps

/-- The ingress unit of a receiving channel injects the next entry in sequence, its endpoint at most one in a step of the rim; with the last one the buffer is released and
its credit returned (13 R313, R327, R330; 09 R229). -/
def ingress (x : Nat) (s : State) : State :=
  match getChan s x with
  | some c =>
    if !c.recv || c.stop || s.tide.frozen || decide ((getEp s c.ep).inAt = some (edgeSteps s c.edge)) then s
    else match c.rx.find? (fun r => decide (r.eseq = c.out)) with
      | none => s
      | some r =>
        let ed := getEdge s c.edge
        let row := r.ents.getD r.sent 0
        let s0 := setEp s c.ep { getEp s c.ep with inAt := some (edgeSteps s c.edge) }
        let s1 := setEdge s0 c.edge { ed with send := ed.send ++ [⟨c.tag, ⟨row, tokSb r.tag r.tep r.sent r.ents.length⟩⟩] }
        if r.sent + 1 < r.ents.length then
          setChan s1 x (some { c with rx := c.rx.map (fun q => if q.eseq = r.eseq then { q with sent := q.sent + 1 } else q) })
        else if (c.bufm1 : Int) + 1 < c.cr.toInt + 1 then creditFault true x c s1
        else
          sendXport c.ep c.peer c.chn c.next 1 (setChan s1 x (some { c with
            cr := c.cr + 1, out := c.out + 1, rx := c.rx.filter (fun q => decide (q.eseq ≠ r.eseq)) }))
  | none => s

/-- Whether the next entry that a channel injects is the last of its token, so that its buffer is released with it. -/
def releaseDue (c : Chan) : Bool := c.rx.any (fun r => decide (r.eseq = c.out) && decide (r.ents.length ≤ r.sent + 1))

/-- The additions of an interface cycle come before its subtractions: a buffer that is ready to be released is, before an
arrival that finds CR at 0 subtracts. That the two meet in one cycle then is the model's DESIGN CHOICE, log 106 (09 R230). -/
def releaseFirst (i : Nat) (s : State) : State :=
  match getChan s i with
  | some c => if c.cr.toInt < 1 ∧ releaseDue c then ingress i s else s
  | none => s

/-- An accepted arrival takes a buffer, is acknowledged, and subtracts from CR (13 R325, R326; 09 R229). -/
def accept (i n : Nat) (p : Packet) (bs : List Byte) (s : State) : State :=
  match getChan s i with
  | some c =>
    if c.stop then s
    else if c.cr.toInt - 1 < 0 then creditFault false i c s
    else
      let rx := c.rx ++ [⟨n, p.tag, p.tep, rowsOf 258 bs, 0⟩]
      let next := nextSeq (rx.length + 1) (rx.map RxBuf.eseq) c.next
      modMeter (sendXport c.ep c.peer c.chn next 0 (setChan s i (some { c with cr := c.cr - 1, rx := rx, next := next })))
        c.part (fun m => { m with units := m.units + unitsOf p })
  | none => s

/-- DATA_PACKET_ARRIVAL: an endpoint takes the next DATA packet, endpoint 0 the next CTRL packet: matched, checked against its
sequence, its tag and the credits, it takes a buffer and is acknowledged (13 R323, R325, R326, R331; 09 R229, R230). -/
def execDataPacketArrival (ep : Byte) (s : State) : Out :=
  let e := ep.toNat
  .next (match takeInq e (fun p => decide (p.typ = 1) || decide (p.typ = 4)) s with
    | none => s
    | some (p, s1) =>
      if 1000 < p.age then bump 3 s1
      else if p.typ = 4 then (if e = 0 then ctrlArrive p s1 else bump 6 s1)
      else match chanOf s1 true e p.src p.chn with
        | none => bump 6 s1
        | some (i, c) =>
          let n := nearest c.next p.seq
          if n < c.next || c.rx.any (fun r => decide (r.eseq = n)) then sendXport e c.peer c.chn c.next 0 (bump 7 s1)
          else if !p.enc then authFail c.part e i s1
          else match gcmOpen ((getPart s1 c.part).jk.getD 0) (ivOf p n) (aadOf p) p.body with
            | none => authFail c.part e i s1
            | some bs => accept i n p bs (releaseFirst i s1))

/-- INGRESS_DELIVERY: the ingress unit of a receiving channel injects its next entry (13 R327, R330). -/
def execIngressDelivery (x : Fin 4096) (s : State) : Out := .next (ingress x s)

/-- EGRESS_TOKEN_SEND: the egress unit of a sending channel takes the next entry of its route from the edge, one in a step of the
rim, or, with the token whole and a credit in hand, sends it as an encrypted DATA packet and keeps a copy; a token beyond 258 entries is dropped and
ends the job (13 R312, R313, R324, R326, R331; 09 R229). -/
def execEgressTokenSend (x : Fin 4096) (s : State) : Out :=
  .next (match getChan s x with
    | some c =>
      if c.recv || c.stop || s.tide.frozen || !s.fab.en then s
      else
        let whole := match c.tok.getLast? with | some e => sbLast e.sb | none => false
        if !whole then
          let ed := getEdge s c.edge
          if (getEp s c.ep).outAt = some (edgeSteps s c.edge) then s
          else match ed.inp.find? (fun f => decide (f.rt = c.tag)) with
          | some f =>
            let s0 := setEp s c.ep { getEp s c.ep with outAt := some (edgeSteps s c.edge) }
            let s1 := crossIn (setEdge s0 c.edge { ed with inp := ed.inp.erase f }) (c.edge / 4) (Fin.ofNat 4 (c.edge % 4))
              (getNode s (96 + c.edge % 4)).steps .credit
            setChan s1 x (some { c with tok := c.tok ++ [f.ent] })
          | none => s
        else if 258 < c.tok.length then
          recordFault c.part stBounds 4 (niLoc c.ep x) 0 false (bump 1 (setChan s x (some { c with tok := [] })))
        else if c.cr.toInt < 1 then s
        else
          let sb := match c.tok with | e :: _ => e.sb | [] => 0
          let p0 : Packet := {
            ver := 1, typ := 1, vc := 3, epoch := s.fab.inj, alt := decide (c.alt = some s.fab.inj), resent := false,
            enc := true, resv := false, len := c.tok.length, dst := c.peer, src := s.modnum * 256 + c.ep, chn := c.chn, tag := sbTag sb,
            tep := sbEp sb, seq := c.next % 2 ^ 32, arg0 := 0, arg1 := 0, age := 0, body := [] }
          let p := { p0 with body := gcmSeal ((getPart s c.part).jk.getD 0) (ivOf p0 c.next) (aadOf p0) (bytesOfRows (c.tok.map QEntry.data)) }
          let s1 := setChan s x (some { c with cr := c.cr - 1, tok := [], next := c.next + 1, tx := c.tx ++ [⟨c.next, p, false, s.time, 0⟩] })
          modMeter (sendPkt c.ep p s1) c.part (fun m => { m with units := m.units + unitsOf p })
    | none => s)

/-- XPORT: a sender takes an acknowledgement and a credit return; too many credits are a SYNC_FAULT; endpoint 0 takes those of
its CTRL packets (13 R327, R332; 09 R229). -/
def execXport (ep : Byte) (s : State) : Out :=
  let e := ep.toNat
  .next (match takeInq e (fun p => decide (p.typ = 2)) s with
    | none => s
    | some (p, s1) =>
      if 1000 < p.age then bump 3 s1
      else if e = 0 ∧ p.chn = 0xFFFF then
        { s1 with fab := { s1.fab with sends := s1.fab.sends.map (fun q =>
            if q.peer = p.src / 256 then { q with tx := q.tx.filter (fun t => decide (nearest q.next p.arg0 ≤ t.eseq)) } else q) } }
      else match chanOf s1 false e p.src p.chn with
        | none => bump 6 s1
        | some (i, c) =>
          let c1 := if (p.arg1 / 65536) % 2 = 1 then { c with tx := c.tx.filter (fun t => decide (nearest c.next p.arg0 ≤ t.eseq)) } else c
          let n := if (p.arg1 / 131072) % 2 = 1 then p.arg1 % 65536 else 0
          if (c.bufm1 : Int) + 1 < c.cr.toInt + n then creditFault true i c1 s1
          else setChan s1 i (some { c1 with cr := c1.cr + BitVec.ofNat 32 n }))

/-- The copies of an endpoint's channels changed. -/
def mapTx (e : Nat) (f : List TxCopy → List TxCopy) (s : State) : State :=
  { s with fab := { s.fab with
      chans := tmapv none (fun _ c => c.map (fun c => if c.ep = e then { c with tx := f c.tx } else c)) s.fab.chans
      sends := if e = 0 then s.fab.sends.map (fun q => { q with tx := f q.tx }) else s.fab.sends } }

/-- A RETRY_START is closed; with none left open the timers run on (13 R328, R329). -/
def closeRetry (e : Nat) (t : Nat × Nat × Nat → Bool) (s : State) : State :=
  let x := getEp s e
  let rest := x.retry.filter (fun r => !t r)
  let ends := rest.isEmpty && !x.retry.isEmpty && !s.fab.refDown
  let s1 := setEp s e { x with retry := rest, pausedAt := if ends then none else x.pausedAt }
  if ends then mapTx e (resumeTx s.time (x.pausedAt.getD s.time)) s1 else s1

/-- A NOTICE's kind. -/
def kindOf (p : Packet) : Nat := p.arg1 % 16
/-- The reporting module and port of a NOTICE. -/
def reporter (p : Packet) : Nat × Nat := (p.arg1 / 65536, p.arg1 / 32 % 64)

/-- RETRY_START: the endpoint's timers pause (13 R328, R329). -/
def execRetryStart (ep : Byte) (s : State) : Out :=
  .next (match takeInq ep.toNat (fun p => decide (p.typ = 3) && decide (kindOf p = 1)) s with
    | some (p, s1) =>
      let x := getEp s1 ep.toNat
      setEp s1 ep.toNat { x with
        retry := x.retry ++ [((reporter p).1, (reporter p).2, s1.time)]
        pausedAt := some (x.pausedAt.getD (if s1.fab.refDown then s1.fab.refAt else s1.time)) }
    | none => s)

/-- RETRY_END: the pause ends (13 R329). -/
def execRetryEnd (ep : Byte) (s : State) : Out :=
  .next (match takeInq ep.toNat (fun p => decide (p.typ = 3) && decide (kindOf p = 2)) s with
    | some (p, s1) => closeRetry ep.toNat (fun r => decide (r.1 = (reporter p).1) && decide (r.2.1 = (reporter p).2)) s1
    | none => s)

/-- RETRY_START_EXPIRY: a RETRY_START open for 12 µs is closed (13 R329). -/
def execRetryStartExpiry (ep : Byte) (s : State) : Out :=
  .next (closeRetry ep.toNat (fun r => decide (r.2.2 + 12000000 ≤ s.time)) s)

/-- The copy as it is resent: ALT and RESENT set, under the present epoch, its timer fresh (13 R321, R328). -/
def resendOf (s : State) (t : TxCopy) : TxCopy :=
  { t with resent := true, at_ := s.time, paused := 0, p := { t.p with alt := true, resent := true, epoch := s.fab.inj, vc := vcBase t.p, age := 0 } }

/-- One of the two causes of R328 for a copy of a channel: the first resends it, the second ends the job. -/
def lostCopy (code : Nat) (i : Nat) (c : Chan) (t : TxCopy) (s : State) : State :=
  if t.resent then recordFault c.part code 4 (niLoc c.ep i) 0 false s
  else
    let t1 := resendOf s t
    let c1 := { c with tx := c.tx.map (fun (u : TxCopy) => if u.eseq = t.eseq then t1 else u), alt := if code = stPathLost then some s.fab.inj else c.alt }
    let s1 := setChan s i (some c1)
    let s2 := { s1 with fab := (if code = stPathLost then { s1.fab with pl := min 0xFFFF (s1.fab.pl + 1) } else { s1.fab with tmos := min 0xFFFF (s1.fab.tmos + 1) }) }
    sendPkt c.ep t1.p s2

/-- The same for a CTRL packet of endpoint 0 (13 R332). -/
def lostCtrl (code : Nat) (q : CtlSeq) (t : TxCopy) (s : State) : State :=
  if t.resent then recordFault q.part code 4 0 0 false s
  else
    let t1 := resendOf s t
    let s1 := { s with fab := { s.fab with sends := putSeq s.fab.sends { q with tx := q.tx.map (fun (u : TxCopy) => if u.eseq = t.eseq then t1 else u) } } }
    let s2 := { s1 with fab := (if code = stPathLost then { s1.fab with pl := min 0xFFFF (s1.fab.pl + 1) } else { s1.fab with tmos := min 0xFFFF (s1.fab.tmos + 1) }) }
    sendPkt 0 t1.p s2

/-- PATH_LOST: the packet is resent once on ALT; for the resent copy it ends the job; a late notice of the original is ignored;
nothing is resent while the reference is lost (13 R328, R329, R333). -/
def execPathLost (ep : Byte) (s : State) : Out :=
  let e := ep.toNat
  .next (if s.fab.refDown then s else match takeInq e (fun p => decide (p.typ = 3) && decide (kindOf p = 3)) s with
    | none => s
    | some (p, s0) =>
      let s1 := closeRetry e (fun r => decide (r.1 = (reporter p).1) && decide (r.2.1 = (reporter p).2)) s0
      let resent := decide (p.arg1 / 16 % 2 = 1)
      let hit := fun (t : TxCopy) => decide (t.eseq % 2 ^ 32 = p.arg0) && (t.resent == resent)
      match s1.fab.chans.findSome? (fun ic => match ic.2 with
          | some c => if c.ep = e ∧ c.chn = p.chn ∧ !c.recv then (c.tx.find? hit).map (fun t => (ic.1, c, t)) else none
          | none => none) with
      | some (i, c, t) => lostCopy stPathLost i c t s1
      | none => s1)

/-- LENGTH: a router found the packet's length wrong; the sending job ends with BOUNDS (13 R324). -/
def execLength (ep : Byte) (s : State) : Out :=
  let e := ep.toNat
  .next (match takeInq e (fun p => decide (p.typ = 3) && decide (kindOf p = 4)) s with
    | none => s
    | some (_, s1) =>
      match (getEp s1 e).part with
      | some k => recordFault k stBounds 4 (niLoc e 0) 0 false (bump 1 s1)
      | none => bump 1 s1)

/-- TRANSPORT_TIMEOUT: a copy's timer, not paused, has run for CX_TMO: the first time it is resent, the second ends the job. i is
the credit object, or at endpoint 0 the place of a CTRL sequence (13 R328, R332). -/
def execTransportTimeout (ep : Byte) (i : Nat) (s : State) : Out :=
  let e := ep.toNat
  let due := fun (t : TxCopy) => decide (t.at_ + t.paused + s.fab.tmo * 1000000 ≤ s.time)
  .next (if s.fab.refDown || !(getEp s e).retry.isEmpty then s
    else if e = 0 then
      match s.fab.sends[i]? with
      | some q => (match q.tx.find? due with | some t => lostCtrl stTimeout q t s | none => s)
      | none => s
    else match getChan s i with
      | some c =>
        if c.ep = e ∧ !c.recv ∧ !c.stop then (match c.tx.find? due with | some t => lostCopy stTimeout i c t s | none => s) else s
      | none => s)

-- Registers ------------------------------------------------------------------------------------------------------

/-- CX_TBL_DATA written: LICENCE for an unlicensed port, FORMAT for a reserved bit, and the entry unchanged; else the entry is
written and the module index advances (13 R318, Table 13-6). -/
def writeTable (v : Word) (s : State) : Nat × State :=
  let f := s.fab
  if fld v 17 15 ≠ 0 then (stFormat, s)
  else if (v.getLsbD 7 && !portOn (licPorts s) (fld v 0 6)) || (v.getLsbD 15 && !portOn (licPorts s) (fld v 8 6)) then (stLicence, s)
  else (stOK, { s with fab := { f with table := tset 0 f.table (f.tblBank * 65536 + f.tblMod) v, tblMod := (f.tblMod + 1) % 65536 } })

/-- CX_TBL_DATA: an access to the entry at CX_TBL_ADDR; a read gives the entry (13 R318). -/
def execCxTblData (wr : Option Word) (s : State) : Out :=
  .next (match wr with
    | some v => (writeTable v s).2
    | none => { s with fab := { s.fab with tblMod := (s.fab.tblMod + 1) % 65536 } })

/-- CX_EPOCH written: a flip of INJ ends the use of ALT by channels that had lost a path (13 R328); a bank that is this module's INJ, or that INJ left less than 100 µs ago, cannot be set writing: BUSY
(13 R321). -/
def writeEpoch (v : Word) (s : State) : Nat × State :=
  let f := s.fab
  let inj := (v.getLsbD 0).toNat
  let left := if inj ≠ f.inj then some s.time else f.left
  let bad := fun (n : Nat) (b : Bool) => b && !f.wr[Fin.ofNat 2 n] && (decide (n = inj) || decide (n = f.inj) ||
    (match f.left with | some t => decide (s.time < t + 100000000) | none => false))
  if bad 0 (v.getLsbD 1) || bad 1 (v.getLsbD 2) then (stBusy, s)
  else (stOK, { s with fab := { f with
    inj := inj, left := left, wr := #v[v.getLsbD 1, v.getLsbD 2]
    chans := if inj = f.inj then f.chans else tmapv none (fun _ c => c.map (fun c => { c with alt := none })) f.chans } })

/-- CX_EPOCH (13 R321). -/
def execCxEpoch (v : Word) (s : State) : Out := .next (writeEpoch v s).2

/-- CX_CFG written: MODNUM does not change while EN stands (13 R313; 14 R340). -/
def writeCxCfg (v : Word) (s : State) : Nat × State :=
  if s.fab.en ∧ fld v 0 16 ≠ s.modnum then (stState, s)
  else (stOK, { s with modnum := fld v 0 16, fab := { s.fab with en := v.getLsbD 16 } })

/-- CX_CFG (13 R313). -/
def execCxCfg (v : Word) (s : State) : Out := .next (writeCxCfg v s).2

/-- Whether a credit object's side is settled: nothing unacknowledged or buffered, and every credit back. A sender whose CR is
below its buffer count has credits still out, at the other side or on the fabric: DEDUCED, log 107 (13 R330; 09 R235). -/
def settled1 (c : Chan) : Bool := c.tx.isEmpty && c.rx.isEmpty && c.tok.isEmpty && decide (c.cr = BitVec.ofNat 32 (c.bufm1 + 1))

/-- Whether a packet belongs to a partition's job: it comes from or goes to one of its endpoints here, or is a CTRL packet of
its job. -/
def pktOf (s : State) (k : Nat) (p : Packet) : Bool :=
  let mine := fun (e : Nat) => decide (e / 256 = s.modnum) && decide ((getEp s (e % 256)).part = some k)
  mine p.dst || mine p.src || (decide (p.typ = 4) && decide (p.arg1 = jobId s k))

/-- Whether no packet of a partition's job is in this module's part of the fabric: in no endpoint, no router buffer, no replay
buffer, and no CTRL message of it is stored, waits to be sent, or waits for its acknowledgement (09 R235; 13 R332). -/
def fabricClear (s : State) (k : Nat) : Bool :=
  s.fab.eps.all (fun ex => !ex.2.inq.any (pktOf s k) && !ex.2.outq.any (pktOf s k)) &&
  s.fab.ports.all (fun px => !px.2.buf.any (fun b => pktOf s k b.p) && !px.2.heads.any (fun h => pktOf s k h.2)) &&
  s.fab.store.all (fun c => decide (c.part ≠ k)) && s.ctrlOut.all (fun c => decide (c.part ≠ k)) &&
  (s.fab.sends ++ s.fab.gets).all (fun q => decide (q.part ≠ k) || q.tx.isEmpty)

/-- Whether every credit object of a partition is settled, with no packet, credit return or barrier completion of its job in
flight on the fabric (13 R330; 09 R235). -/
def settledChans (s : State) (k : Nat) : Bool :=
  s.fab.chans.all (fun ic => match ic.2 with | some c => decide (c.part ≠ k) || settled1 c | none => true) && fabricClear s k

/-- A partition's endpoints and credit objects are freed; what they held is discarded (13 R333; 15 R389). -/
def freeFabric (k : Nat) (s : State) : State :=
  { s with
    ctrlOut := s.ctrlOut.filter (fun c => decide (c.part ≠ k))
    fab := { s.fab with
      chans := tmapv none (fun _ c => match c with | some c => if c.part = k then none else some c | none => none) s.fab.chans
      eps := tmapv Endpoint.zero (fun _ e => if e.part = some k then Endpoint.zero else e) s.fab.eps
      store := s.fab.store.filter (fun c => decide (c.part ≠ k))
      sends := s.fab.sends.filter (fun q => decide (q.part ≠ k))
      gets := s.fab.gets.filter (fun q => decide (q.part ≠ k)) } }

end Sys2Proof.Machine
end

