-- ==== Sys2Proof/Machine/Stream.lean ====
section
/-! DEFINITION. Perimeter memory and its stream engines: slots and granules, encryption, READ and WRITE contexts, digests, the
host's reads and writes, and the stream commands (12; 08 R205, R206; 16 R414). -/

namespace Sys2Proof.Machine

-- Perimeter memory -----------------------------------------------------------------------------------------------

/-- Bytes of a granule (12 R287). -/
def granuleBytes : Nat := 1090519040
/-- The first byte of a stack that is reserved to the controller (12 R287). -/
def reservedFrom : Nat := 68702699520

/-- The table of a stack. -/
def stackMem (s : State) (e : Nat) : Tbl Cell := s.pmem.getD e []
/-- The stack byte at which window slot n of a partition lies (12 R289). -/
def slotAddr (s : State) (k e n : Nat) : Option Nat :=
  (((getPart s k).granules.getD e [])[n / 262144]?).map (fun g => g * granuleBytes + n % 262144 * 4160)

/-- The number of a pair that was supplied from outside the module; the pairs drawn here have even numbers. -/
def suppliedKey (pair : Nat) : Nat := 2 * (pair % 2 ^ 512) + 1
/-- The pair with a number. -/
def pairOf (key : Nat) : BitVec 512 := if key % 2 = 1 then BitVec.ofNat 512 (key / 2) else Config.drawnPair key

/-- A byte under a key: what was written under it, else unspecified (12 R292). -/
def cellRead (m : Tbl Cell) (key a : Nat) : Byte :=
  let c := tget ⟨0, 0⟩ m a
  if c.key = key ∧ key ≠ 0 then c.b else Config.staleByte key a

/-- Whether anything was written to a slot under a key (12 R292). -/
def slotWritten (s : State) (e key a : Nat) : Bool :=
  (stackMem s e).any (fun x => decide (a ≤ x.1) && decide (x.1 < a + 4160) && decide (x.2.key = key))

/-- Bytes of a stack under a key. -/
def memRead (s : State) (e key a n : Nat) : List Byte := (List.range n).map (fun i => cellRead (stackMem s e) key (a + i))

/-- Bytes written to a stack under a key. -/
def memWrite (s : State) (e key a : Nat) (bs : List Byte) : State :=
  let m := (bs.foldl (fun (t : Tbl Cell × Nat) b => (tset ⟨0, 0⟩ t.1 t.2 ⟨b, key⟩, t.2 + 1)) (stackMem s e, a)).1
  { s with pmem := setIdx e m s.pmem }

/-- The owner of a granule (12 R289). -/
def ownerOf (s : State) (e g : Nat) : Option Nat :=
  match tget 0 (getEng s e).owner g with
  | 0 => none
  | k + 1 => some k

/-- The unallotted granules of a stack: STK_STATUS.FREE (12 Table 12-5). -/
def freeGranules (s : State) (e : Nat) : List Nat :=
  if (getEng s e).trained then (List.range 63).filter (fun g => decide (tget 0 (getEng s e).owner g = 0)) else []

/-- Lines read or written are counted at the engine and for the partition's energy (12 Table 12-4; 18 R456). -/
def countLines (e k n : Nat) (wr : Bool) (s : State) : State :=
  let x := getEng s e
  let x1 := if wr then { x with wrLines := x.wrLines + BitVec.ofNat 32 n } else { x with rdLines := x.rdLines + BitVec.ofNat 32 n }
  modMeter (setEng s e x1) k (fun m => { m with lines := m.lines + n })

-- Descriptors and contexts ---------------------------------------------------------------------------------------

/-- A context of an engine. -/
def getCtx (s : State) (e c : Nat) : Ctx := tget Ctx.zero (getEng s e).ctxs c
/-- The module with a context replaced. -/
def setCtx (s : State) (e c : Nat) (x : Ctx) : State := setEng s e { getEng s e with ctxs := tset Ctx.zero (getEng s e).ctxs c x }
/-- A descriptor of an engine (12 Table 12-2). -/
def getDesc (s : State) (e i : Nat) : BitVec 256 := (tget (0, 0) (getEng s e).descs i).2

/-- KIND. -/
def sdKind (d : BitVec 256) : Nat := fld d 0 4
/-- DIG. -/
def sdDig (d : BitVec 256) : Bool := d.getLsbD 4
/-- DCL. -/
def sdDcl (d : BitVec 256) : Bool := d.getLsbD 5
/-- HWAIT. -/
def sdHwait (d : BitVec 256) : Bool := d.getLsbD 6
/-- LAST. -/
def sdLast (d : BitVec 256) : Bool := d.getLsbD 7
/-- ROUTE. -/
def sdRoute (d : BitVec 256) : Nat := fld d 16 16
/-- The window slot of tile k (12 R294). -/
def sdSlot (d : BitVec 256) (k : Nat) : Nat := fld d 32 24 + k * fld d 96 24
/-- ENTM1. -/
def sdEntm1 (d : BitVec 256) : Nat := fld d 128 8
/-- RPT. -/
def sdRpt (d : BitVec 256) : Nat := fld d 144 16
/-- The tiles of repetition r (12 R295). -/
def sdCount (d : BitVec 256) (r : Nat) : Nat :=
  let n := fld d 64 18 + 1
  if d.getLsbD 167 then min n ((fld d 224 32 + r) / (fld d 176 16 + 1)) else n

/-- Whether the gate of a READ lets it read tile k (12 R296). -/
def gateOpen (s : State) (e : Nat) (d : BitVec 256) (k : Nat) : Bool :=
  if d.getLsbD 166 then
    let w := (getCtx s e (fld d 160 6)).wtot
    let ahead := (BitVec.ofNat 32 (fld d 192 32 + k + 1) - w).toNat
    !(decide (1 ≤ ahead) && decide (ahead ≤ 2 ^ 31))
  else true

/-- Moves a context past a tile, a repetition, a descriptor: DCL closes the digest period, HWAIT waits, LAST ends it
(12 R293, R296, R301). step says whether a tile was done. -/
def advance (e c : Nat) (tile : Bool) (s : State) : State :=
  let x := getCtx s e c
  let d := getDesc s e x.idx
  let k := x.k + tile.toNat
  if k < sdCount d x.r then setCtx s e c { x with k := k }
  else if sdKind d = 1 ∧ (sdRpt d = 0 ∨ x.r + 1 < sdRpt d) then setCtx s e c { x with k := 0, r := x.r + 1 }
  else
    let p := x.part.getD 0
    let s1 := if sdDcl d then modPart s p (fun q => { q with closed := q.closed ++ [(e, c, x.closes, x.dig)] }) else s
    let x1 := if sdDcl d then { x with dig := 0, closes := x.closes + 1 } else x
    let next := getDesc s e (x.idx + 1)
    setCtx s1 e c (if sdLast d then { x1 with st := .done, k := 0, r := 0 }
      else { x1 with idx := x.idx + 1, k := 0, r := 0, st := if sdHwait next then .wait else .run })

/-- FOLD of a tile into a context's digest (12 R301). -/
def foldTile (s : State) (e c : Nat) (h : Row) (wr : Bool) : State :=
  let x := getCtx s e c
  let seed := (getPart s (x.part.getD 0)).seed
  setCtx s e c { x with dig := foldMix seed x.dig (hCrc h) (hTileId h) (hSstep h) (BitVec.ofNat 32 wr.toNat) }

/-- The substitute of an engine: its header; a READ gives it the EPOCH of its entries (12 R298; 05 R145). -/
def substHeader (e : Nat) (ep : Bool) : Row :=
  let h := setFld (setFld (setFld (setFld (setFld (setFld (0 : Row) 0 4 1) 10 1 1) 12 4 1) 48 13 15) 96 32 0xFFFFFFFF) 148 4 1
  let h1 := setBit (setFld h 128 20 e) 11 ep
  setFld h1 224 32 (tileCrc h1 (List.replicate 32 0)).toNat

/-- SE_ERR takes a code, and SE_ERR_LOC the context and tile index where it holds none yet (12 Table 12-4). -/
def recordSe (e c code : Nat) (s : State) : State :=
  let en := getEng s e
  let bit := if code = stPoison then 0 else if code = stFormat then 1 else 2
  let loc := if en.errLoc.getLsbD 31 then en.errLoc else BitVec.ofNat 32 (c + (getCtx s e c).k % 2 ^ 18 * 64 + 2 ^ 31)
  setEng s e { en with err := setBit en.err bit true, errLoc := loc }

/-- The controller learns a failure of an engine, with what is reported beside the code, and ends the job (12 R298; 08 R206). -/
def reportSe (det : List Nat) (e c code : Nat) (s : State) : State :=
  let k := (getCtx s e c).part.getD 0
  recordDet det true (otherModules s k) k code 2 (e + c * 64) 0 s

/-- A failure of a context: SE_ERR, the substitute counted, FAULT, and the job ends; the engine, the context and the tile
index are reported (12 R298, R299). -/
def ctxFault (e c code : Nat) (s : State) : State :=
  let x := getCtx s e c
  let s1 := recordSe e c code s
  let s2 := setEng s1 e { getEng s1 e with subst := min 0xFFFF ((getEng s1 e).subst + 1) }
  reportSe [e, c, x.k] e c code (setCtx s2 e c { x with st := .fault, stopping := false })

/-- The entries of a tile as a READ emits them: TAG and EP of the descriptor, FIRST and LAST (12 R297). -/
def emitRows (tag : Nat) (d : BitVec 256) (rows : List Row) : List Flit :=
  (rows.zipIdx).map (fun ri => ⟨tag, ⟨ri.1, tokSb (fld d 8 3) (d.getLsbD 11) ri.2 rows.length⟩⟩)

/-- Entries wait at the edge link of a READ's route. -/
def inject (k : Nat) (d : BitVec 256) (rows : List Row) (s : State) : State :=
  match (getPart s k).bound[sdRoute d]? with
  | some b =>
    match b.edge with
    | some (g, side) =>
      let i := 4 * g + (side : Nat)
      setEdge s i { getEdge s i with send := (getEdge s i).send ++ emitRows b.tag d rows }
    | none => s
  | none => s

/-- A tile of dense length with a zero payload, NNZ 0 and P set, emitted where an N:M tile does not decode (08 R206; 05 R142). -/
def poisonDense (h : Row) : Row × List Byte :=
  let h1 := setFld (setFld (setBit (setBit (setBit h 8 false) 9 false) 10 true) 16 7 (hDense h - 1)) 64 14 0
  let pay := List.replicate (32 * hDense h) (0 : Byte)
  (setFld h1 224 32 (tileCrc h1 pay).toNat, pay)

/-- The middle value of a list. -/
def median (l : List Nat) : Nat := (sortBy (fun a b => decide (a ≤ b)) l).getD (l.length / 2) 0

/-- The watch bit STACK: events of one stack, 1,000 in one hour and 10 times the median of the other stacks (19 Table 19-6). -/
def stackWatch (f : Engine48 → List Nat) (e : Nat) (s : State) : State :=
  let n := fun (i : Nat) => (recent s hour (f (getEng s i))).length
  if 1000 ≤ n e ∧ 10 * median (((List.range 48).filter (· ≠ e)).map n) ≤ n e then watch 1 s else s

/-- SE_REFETCH advances (12 R297). -/
def countRefetch (e : Nat) (s : State) : State :=
  let x := getEng s e
  stackWatch Engine48.refAt e (setEng s e { x with refetch := x.refetch + 1, refAt := s.time :: recent s hour x.refAt })

/-- STK_CE and STK_UE of a stack advance by corrected and uncorrectable lines (12 Table 12-5). -/
def countEcc (e ce ue : Nat) (s : State) : State :=
  let sat := fun (w : Word) (n : Nat) => BitVec.ofNat 32 (min 0xFFFFFFFF (w.toNat + n))
  let x := getEng s e
  let s1 := setEng s e { x with ce := sat x.ce ce, ue := sat x.ue ue, ceAt := List.replicate ce s.time ++ recent s hour x.ceAt }
  (List.range ue).foldl (fun s _ => countUe s) (if ce = 0 then s1 else stackWatch Engine48.ceAt e s1)

/-- STREAM_READ_TILE: a READ context in RUN reads its next tile: CRC with one refetch, header, N:M decode, length, then emits it
and folds it; a failure emits a substitute and ends the job. one and two are the first and the second reading (12 R294 to R298; 08
R205, R206). -/
def execStreamReadTile (e : Fin 48) (c : Fin 64) (one two : TileRead) (s : State) : Out :=
  let x := getCtx s e c
  let d := getDesc s e x.idx
  let k := x.part.getD 0
  .next (if x.st ≠ .run ∨ sdKind d ≠ 1 ∨ s.tide.frozen then s
    else if sdCount d x.r ≤ x.k then advance e c false s
    else if !gateOpen s e d x.k then s
    else match slotAddr s k e (sdSlot d x.k) with
      | none => s
      | some a =>
        let key := (getPart s k).xts
        let h : Row := ofBytes 256 (memRead s e key a 32)
        let n := hUnits h
        let pay := memRead s e key (a + 32) (32 * n)
        let lines := ceilDiv (32 * (n + 1)) 64
        let good := slotWritten s e key a && decide (tileCrc h pay = hCrc h)
        let again := one.bad || !good
        let s1 := countEcc e (one.ce + if again then (two.ce : Nat) else 0) (one.bad.toNat + (again && two.bad).toNat)
          (countLines e k (lines + (if again then lines else 0)) false s)
        let s2 := if again && good && !two.bad then countRefetch e s1 else s1
        let sub := fun (code : Nat) => ctxFault e c code (inject k d [substHeader e (d.getLsbD 11), 0] s2)
        let emit := fun (h' : Row) (pay' : List Byte) =>
          if sdEntm1 d < hUnits h' then sub stBounds
          else
            let s3 := inject k d (h' :: rowsOf 129 pay') s2
            advance e c true (if sdDig d && !hP h then foldTile s3 e c h false else s3)
        if !good || (again && two.bad) then sub stPoison
        else if !headerValid h then sub stFormat
        else if hC h && decide (leAt pay 0 1 % 16 = 2) then
          match nmDecode h pay, hTile h with
          | .ok (codes, scs), some f => let r := nmEmit h f codes scs; emit r.1 r.2
          | .error err, _ =>
            let code := match err with | .format => stFormat | .bounds => stBounds
            let r := poisonDense h
            reportSe [e, (hTileId h).toNat] e c code (advance e c true (recordSe e c code (inject k d (r.1 :: rowsOf 129 r.2) s2)))
          | _, _ => sub stFormat
        else emit h pay)

/-- A tile written whole to a window slot (12 R300). -/
def writeSlot (e c : Nat) (h : Row) (pay : List Byte) (s : State) : State :=
  let x := getCtx s e c
  let k := x.part.getD 0
  match slotAddr s k e (sdSlot (getDesc s e x.idx) x.k) with
  | some a =>
    let s1 := countLines e k (ceilDiv (32 + pay.length) 64) true (memWrite s e (getPart s k).xts a (bytesOf h 32 ++ pay))
    setCtx s1 e c { getCtx s1 e c with wtot := (getCtx s1 e c).wtot + 1 }
  | none => s

/-- A context back at its first descriptor (12 Table 12-3). -/
def Ctx.stopped (x : Ctx) : Ctx := { x with st := .armed, idx := x.first, k := 0, r := 0, stopping := false }

/-- The next entry of a spill route at its edge link: the router, the side, the entry (12 R299). -/
def spillHead (s : State) (k r : Nat) : Option (Nat × Fin 4 × Flit) :=
  ((getPart s k).spills[r]?).bind (fun b => b.edge.bind (fun gs =>
    ((getEdge s (4 * gs.1 + (gs.2 : Nat))).inp.find? (fun f => decide (f.rt = b.tag))).map (fun f => (gs.1, gs.2, f))))

/-- An engine takes an entry from an edge link, and a credit goes back. -/
def takeSpill (g : Nat) (side : Fin 4) (f : Flit) (s : State) : State :=
  let i := 4 * g + (side : Nat)
  let ed := getEdge s i
  crossIn (setEdge s i { ed with inp := ed.inp.erase f }) g side (getNode s (96 + (side : Nat))).steps .credit

/-- The entries of the tile that a spill route brings; where it holds none, a drain waits for it no more (12 R303). -/
def setSpill (k r : Nat) (l : List QEntry) (s : State) : State :=
  modPart s k (fun q => { q with spillBuf := setIdx r l q.spillBuf, drainOf := if l.isEmpty then q.drainOf.filter (· ≠ r) else q.drainOf })

/-- The first of checks 1, 2, 3 and 5 of R121 that an entry fails after those of its tile before it (12 R299). -/
def spillFault (d : BitVec 256) (buf : List QEntry) (en : QEntry) : Option Nat :=
  match buf with
  | [] =>
    if !sbFirst en.sb || !headerValid en.data then some stFormat
    else if sdEntm1 d < hUnits en.data then some stBounds
    else if sbLast en.sb then some stFormat else none
  | q :: _ => if sbLast en.sb = decide (buf.length = hUnits q.data) then none else some stFormat

/-- A failure of a WRITE: the substitute is written into the slot, and entries up to the next FIRST are discarded (12 R299). -/
def spillFail (e c code : Nat) (s : State) : State :=
  let s1 := ctxFault e c code (writeSlot e c (substHeader e false) (List.replicate 32 0) s)
  setCtx s1 e c { getCtx s1 e c with skip := true }

/-- A whole spilled tile is written to its slot, with P set where its CRC fails, and folded; a stop takes effect after it
(12 R296, R299, R300). -/
def storeTile (e c : Nat) (buf : List QEntry) (s : State) : State :=
  let h := (buf.headD ⟨0, 0⟩).data
  let pay := bytesOfRows ((buf.drop 1).map QEntry.data)
  let s1 := writeSlot e c (if tileCrc h pay = hCrc h then h else setBit h 10 true) pay s
  let s2 := advance e c true (if sdDig (getDesc s e (getCtx s e c).idx) then foldTile s1 e c h true else s1)
  let x := getCtx s2 e c
  if x.stopping ∧ x.st ≠ .done then setCtx s2 e c x.stopped else s2

/-- STREAM_WRITE_TILE: a WRITE context in RUN takes the next entry of its spill route and checks it; the last entry of a tile has
the tile written to its slot; a CRC failure sets P in what is stored, any other failure stores a substitute and ends the job
(12 R299, R300). -/
def execStreamWriteTile (e : Fin 48) (c : Fin 64) (s : State) : Out :=
  let x := getCtx s e c
  let d := getDesc s e x.idx
  let k := x.part.getD 0
  let r := sdRoute d
  let buf := (getPart s k).spillBuf.getD r []
  .next (if sdKind d ≠ 2 ∨ s.tide.frozen then s
    else match spillHead s k r with
      | none => s
      | some (g, side, f) =>
        if x.st = .fault ∧ x.skip then
          if sbFirst f.ent.sb then setCtx s e c { x with skip := false } else takeSpill g side f s
        else if x.st ≠ .run then s
        else if sbFirst f.ent.sb && !buf.isEmpty then spillFail e c stFormat (setSpill k r [] s)
        else
          let s1 := takeSpill g side f s
          match spillFault d buf f.ent with
          | some code => spillFail e c code (setSpill k r [] s1)
          | none =>
            if sbLast f.ent.sb then storeTile e c (buf ++ [f.ent]) (setSpill k r [] s1)
            else setSpill k r (buf ++ [f.ent]) s1)

-- The host's reads and writes ------------------------------------------------------------------------------------

/-- Where a host address lies: stack, granule, stack byte, partition, window slot and byte in it, if its window is open to the
source (12 R288, R290; 14 R337; 16 R414). -/
def hostWindow (s : State) (a src : Nat) : Option (Nat × Nat × Nat × Nat × Nat) :=
  let e := a / 2 ^ 36
  let off := a % 2 ^ 36
  if 48 ≤ e ∨ reservedFrom ≤ off then none
  else match ownerOf s e (off / granuleBytes) with
    | none => none
    | some k =>
      let w := (getPart s k).window
      if w.isOpen && (w.any || decide (w.spid = src)) then
        (firstIdx (· = off / granuleBytes) ((getPart s k).granules.getD e [])).map (fun i =>
          let slot := off % granuleBytes / 4160
          (e, off, k, i * 262144 + slot, off % granuleBytes % 4160))
      else none

/-- The tweak of a window slot: its WSA (12 R289, R291). -/
def tweakOf (e n : Nat) : Nat := e * 2 ^ 24 + n

/-- STK_DENIED of the stack an address names advances. -/
def deny (a : Nat) (s : State) : State :=
  if a / 2 ^ 36 < 48 then setEng s (a / 2 ^ 36) { getEng s (a / 2 ^ 36) with denied := (getEng s (a / 2 ^ 36)).denied + 1 } else s

/-- A line access takes a stack out of self refresh (18 R450). -/
def touch (e : Nat) (s : State) : State := setEng s e { getEng s e with selfRef := false }

/-- CXL_MEM_READ: a host read of a 64 B line: plaintext in a PLAIN window, ciphertext in a RAW one, zero where the window is
closed; an uncorrectable line has the data carry poison (12 R290; 14 R335, R337; 16 R414). -/
def execCxlMemRead (a : Nat) (src : BitVec 12) (line : LineRead) (s : State) : Out :=
  let a := a / 64 * 64
  .next (match hostWindow s a src.toNat with
    | none => say 1 (0 :: List.replicate 64 0) (deny a s)
    | some (e, off, k, n, byte) =>
      let p := getPart s k
      let plain := memRead s e p.xts off 64
      let bs := if p.window.raw then
          (List.range 4).flatMap (fun j => xtsEnc (pairOf p.xts) (tweakOf e n) (byte / 16 + j) ((plain.drop (16 * j)).take 16))
        else plain
      say 1 ((if line.ue then 1 else 0) :: bs) (countEcc e (!line.ue && line.ce).toNat line.ue.toNat (touch e s)))

/-- CXL_MEM_WRITE: a host write of the masked bytes of a line; a RAW write must cover whole 16 B blocks (12 R290; 16 R414). -/
def execCxlMemWrite (a : Nat) (src : BitVec 12) (mask : BitVec 64) (line : List Byte) (s : State) : Out :=
  let a := a / 64 * 64
  .next (match hostWindow s a src.toNat with
    | none => deny a s
    | some (e, off, k, n, byte) =>
      let p := getPart s k
      if !p.window.wr then deny a s
      else if p.window.raw then
        if (List.range 4).any (fun j => decide (fld mask (16 * j) 16 ≠ 0) && decide (fld mask (16 * j) 16 ≠ 0xFFFF)) then deny a s
        else
          (List.range 4).foldl (fun s j =>
            if fld mask (16 * j) 16 = 0 then s
            else memWrite s e p.xts (off + 16 * j)
              (padTo 16 (xtsDec (pairOf p.xts) (tweakOf e n) (byte / 16 + j) ((line.drop (16 * j)).take 16)))) (touch e s)
      else
        (List.range 64).foldl (fun s i => if mask.getLsbD i then memWrite s e p.xts (off + i) [line.getD i 0] else s) (touch e s))

-- Stacks and registers -------------------------------------------------------------------------------------------

/-- SELF_REFRESH_ENTRY: in park a stack without a line access enters self refresh (18 R450). -/
def execSelfRefreshEntry (e : Fin 48) (s : State) : Out :=
  .next (if s.power.parked && !s.power.waking && (getEng s e).trained then setEng s e { getEng s e with selfRef := true } else s)

/-- STACK_TEMPERATURE_POLL: the temperature is read; above 85 °C the refresh rate doubles (12 Table 12-1). -/
def execStackTemperaturePoll (e : Fin 48) (temp : Byte) (s : State) : Out :=
  .next (if (getEng s e).trained then setEng s e { getEng s e with temp := temp.toNat, fast := decide (85 < temp.toNat) } else s)

/-- SE_CTX_DATA: a read of a word of the selected context record advances SE_CTX_ADDR (12 R304). -/
def execSeCtxData (e : Fin 48) (s : State) : Out :=
  .next (setEng s e { getEng s e with ctxAddr := ((getEng s e).ctxAddr + 1) % 8 })

/-- A word of a context record (12 R304). -/
def ctxWord (x : Ctx) (i : Nat) : Word :=
  match i with
  | 0 => BitVec.ofNat 32 ((match x.st with | .idle => 0 | .armed => 1 | .run => 2 | .wait => 3 | .done => 4 | .fault => 5) + x.idx % 1024 * 8)
  | 1 => BitVec.ofNat 32 x.k
  | 2 => BitVec.ofNat 32 x.r
  | 3 => x.wtot
  | n + 4 => x.dig.extractLsb' (32 * (n % 4)) 32

-- Commands -------------------------------------------------------------------------------------------------------

/-- The engine a stream command names. -/
def argEng (c : Cmd) : Nat := argFld c 0 0 6
/-- The context a stream command names. -/
def argCtx (c : Cmd) : Nat := argFld c 0 8 6

/-- The checks of a command on a context: it must be the partition's and in a state the command is legal in
(12 Table 12-3; 14 R348, R349). -/
def ctxChecks (c : Cmd) (legal : List CtxSt) (s : State) : List (Bool × Nat) :=
  let x := getCtx s (argEng c) (argCtx c)
  let own := decide (argEng c < 48) && decide (x.part = some (c.part : Nat))
  [(badForm c false false false [0x3F3F], stFormat), (!isT s c, stAuth),
   (tooEarly s || !inSt s c [.ready, .running, .held] || (own && !legal.contains x.st), stState), (!own, stBounds)]

/-- A context begins its list, or waits where the first descriptor has HWAIT (12 Table 12-3). -/
def startCtx (e c : Nat) (s : State) : State :=
  let x := getCtx s e c
  setCtx s e c { x with idx := x.first, k := 0, r := 0, stopping := false, st := if sdHwait (getDesc s e x.first) then .wait else .run }

/-- STREAM_START (12 R296). -/
def execStreamStart (c : Cmd) (s : State) : Out :=
  runCmd 0x30 false c (ctxChecks c [.armed, .done]) (fun s => .done stOK [] (startCtx (argEng c) (argCtx c) s)) s

/-- STREAM_RELEASE (12 R296). -/
def execStreamRelease (c : Cmd) (s : State) : Out :=
  runCmd 0x31 false c (ctxChecks c [.wait]) (fun s =>
    .done stOK [] (setCtx s (argEng c) (argCtx c) { getCtx s (argEng c) (argCtx c) with st := .run })) s

/-- Whether a context stands inside a tile that its spill route has begun to bring (12 R296). -/
def midTile (s : State) (e : Nat) (x : Ctx) : Bool :=
  let d := getDesc s e x.idx
  decide (x.st = .run) && decide (sdKind d = 2) && !((getPart s (x.part.getD 0)).spillBuf.getD (sdRoute d) []).isEmpty

/-- STREAM_STOP: at the tile boundary the context returns to ARMED: at once, or once the tile begun is written (12 R296). -/
def execStreamStop (c : Cmd) (s : State) : Out :=
  runCmd 0x32 false c (ctxChecks c [.run, .wait]) (fun s =>
    let x := getCtx s (argEng c) (argCtx c)
    .done stOK [] (setCtx s (argEng c) (argCtx c) (if midTile s (argEng c) x then { x with stopping := true } else x.stopped))) s

/-- Whether every spill tile that an engine had begun to accept when the drain began is written (12 R303). -/
def drainedSpills (s : State) (k : Nat) : Bool := (getPart s k).drainOf.isEmpty

/-- STREAM_DRAIN: the READ contexts stop and the spills are waited for (12 R303; 14 R352). -/
def execStreamDrain (c : Cmd) (s : State) : Out :=
  runCmd 0x33 false c (fun s =>
    [(badForm c false false false [0, all32], stFormat), (!isT s c, stAuth),
     (tooEarly s || !inSt s c [.running, .held], stState), (longBusy s c, stBusy)])
    (fun s =>
      let t := arg c 1
      let l := longOf .drain c [if t = 0 then 16777216 else t] [] s
      .later (modPart (startDrain c.part (stopReads c.part s)) c.part (fun p => { p with long := some l }))) s

/-- The long command of a partition, if it is of a kind. -/
def longIs (s : State) (k : Nat) (kind : LongKind) : Option Long :=
  match (getPart s k).long with
  | some l => if l.kind = kind then some l else none
  | none => none

/-- STREAM_DRAIN_COMPLETE (12 R303). -/
def execStreamDrainComplete (k : Fin 32) (s : State) : Out :=
  .next (if (longIs s k .drain).isSome && drainedSpills s k then completeLong k stOK [] s else s)

/-- STREAM_DRAIN_TIMEOUT (14 R352). -/
def execStreamDrainTimeout (k : Fin 32) (s : State) : Out :=
  .next (match longIs s k .drain with
    | some l => if l.at_ + l.nums.getD 0 0 ≤ north s then completeLong k stTimeout [] s else s
    | none => s)

end Sys2Proof.Machine
end

