-- ==== Sys2Proof/Machine/Context.lean ====
section
/-! DEFINITION. A core's context as the rake reads and writes it: one image of 90,112 bytes (02 R51, R52, Table 2-6), and the
loader tiles that carry its parts (15 R377). -/

namespace Sys2Proof.Machine

/-- Bytes of a context image (02 R51). -/
def imageLen : Nat := 0x16000

/-- Where the queue data of an image begins; SRAM, the banks and staging lie below (02 Table 2-6). -/
def restFrom : Nat := 0x13000

/-- The data of a queue's 16 physical entries. -/
def queueData (q : Queue) : List Byte := q.ents.toList.flatMap (fun e => bytesOf e.data 32)
/-- The sideband bytes of a queue's 16 physical entries. -/
def queueSb (q : Queue) : List Byte := q.ents.toList.map QEntry.sb
/-- n zero bytes. -/
def zeros (n : Nat) : List Byte := List.replicate n 0

/-- The execution state block (02 R52). A CLEAR core's STALL_W reads 0 like the rest of its image (02 R53). -/
def execBlock (c : Core) : List Byte :=
  bytesOf (BitVec.ofNat 32 (c.pc % 2 ^ 14)) 4 ++ bytesOf (BitVec.ofNat 32 ((c.r.fold : Nat) + 8 * c.r.epoch.toNat)) 4 ++
  bytesOf (c.p.setWidth 32) 4 ++ bytesOf c.guard 4 ++ bytesOf (if c.r.st = .clear then 0 else c.stallW) 4 ++ bytesOf c.wcount 4 ++
  bytesOf c.flags 8 ++ bytesOf c.seed 8 ++ zeros 88

/-- The image from its queue data on. -/
def imageRest (c : Core) : List Byte :=
  c.iq.toList.flatMap queueData ++ c.oq.toList.flatMap queueData ++
  c.v.toList.flatMap (fun v => v.toList.flatMap (fun l => bytesOf l 2)) ++
  c.iq.toList.flatMap queueSb ++ c.oq.toList.flatMap queueSb ++
  c.iq.toList.flatMap (fun q => bytesOf q.ptr 4) ++ c.oq.toList.flatMap (fun q => bytesOf q.ptr 4) ++ zeros 16 ++
  c.s.toList.flatMap (fun w => bytesOf w 4) ++ execBlock c ++
  c.ch.toList.flatMap (fun p => bytesOf p.1 2 ++ bytesOf p.2 2) ++
  c.dma.toList.flatMap (fun d => bytesOf d 32) ++ c.su.toList.flatMap (fun u => bytesOf u 32) ++ zeros 192 ++
  c.folds.toList.flatMap (fun f => bytesOf f 64) ++ zeros 2560

/-- The n bytes of a core's image from offset a (02 Table 2-6). -/
def imageRead (c : Core) (a n : Nat) : List Byte :=
  if restFrom ≤ a then ((imageRest c).drop (a - restFrom)).take n
  else
    let low := (List.range (min n (restFrom - a))).map (fun i =>
      let x := a + i
      if x < 0x10000 then tget 0 c.sram x else if x < 0x12000 then tget 0 c.banks (x - 0x10000) else tget 0 c.stg (x - 0x12000))
    low ++ (imageRest c).take (a + n - restFrom)

/-- A queue read back from an image: its data, sideband bytes and pointer word. -/
def queueFrom (b : List Byte) (data sb ptr : Nat) : Queue :=
  ⟨Vector.ofFn (fun i => ⟨ofBytes 256 ((b.drop (data + 32 * (i : Nat))).take 32), BitVec.ofNat 8 (leAt b (sb + i) 1)⟩),
    BitVec.ofNat 32 (leAt b ptr 4)⟩

/-- A core with everything from its queue data on replaced by the bytes of an image; reserved bytes, and the reserved bits of
STEP_GUARD, are ignored, P0 reads as 1 (02 R51, R24, Table 2-5; 00 R9). -/
def putRest (b : List Byte) (c : Core) : Core :=
  { c with
    iq := Vector.ofFn (fun (q : Fin 8) => queueFrom b (512 * (q : Nat)) (0x2000 + 16 * (q : Nat)) (0x20C0 + 4 * (q : Nat)))
    oq := Vector.ofFn (fun (q : Fin 4) => queueFrom b (0x1000 + 512 * (q : Nat)) (0x2080 + 16 * (q : Nat)) (0x20E0 + 4 * (q : Nat)))
    v := Vector.ofFn (fun (r : Fin 32) => Vector.ofFn (fun (l : Fin 32) => BitVec.ofNat 16 (leAt b (0x1800 + 64 * (r : Nat) + 2 * (l : Nat)) 2)))
    s := Vector.ofFn (fun (r : Fin 32) => BitVec.ofNat 32 (leAt b (0x2100 + 4 * (r : Nat)) 4))
    pc := leAt b 0x2180 4 % 2 ^ 14
    r := { c.r with fold := Fin.ofNat 8 (leAt b 0x2184 4), epoch := decide (leAt b 0x2184 4 / 8 % 2 = 1) }
    p := setBit (BitVec.ofNat 8 (leAt b 0x2188 4)) 0 true
    guard := BitVec.ofNat 32 (leAt b 0x218C 4) &&& 0x0000FF0F#32
    stallW := BitVec.ofNat 32 (leAt b 0x2190 4)
    wcount := BitVec.ofNat 32 (leAt b 0x2194 4)
    flags := BitVec.ofNat 64 (leAt b 0x2198 8)
    seed := BitVec.ofNat 64 (leAt b 0x21A0 8)
    ch := Vector.ofFn (fun (i : Fin 16) => (BitVec.ofNat 16 (leAt b (0x2200 + 4 * (i : Nat)) 2), BitVec.ofNat 16 (leAt b (0x2202 + 4 * (i : Nat)) 2)))
    dma := Vector.ofFn (fun (i : Fin 4) => BitVec.ofNat 256 (leAt b (0x2240 + 32 * (i : Nat)) 32))
    su := Vector.ofFn (fun (i : Fin 4) => BitVec.ofNat 256 (leAt b (0x22C0 + 32 * (i : Nat)) 32))
    folds := Vector.ofFn (fun (i : Fin 8) => BitVec.ofNat 512 (leAt b (0x2400 + 64 * (i : Nat)) 64)) }

/-- The SRAM rows that the rake accesses in n bytes of an image from offset a on count as bank accesses, and the words that a
read corrects in SRAM_CE: DEDUCED, log 100 (02 R30, R31, R46, R49). -/
def rakeCount (read : Bool) (a n : Nat) (c : Core) : Core :=
  let m := min n (0x10000 - a)
  let c1 := { c with r := { c.r with actSram := c.r.actSram + BitVec.ofNat 32 (rowsIn a m).length } }
  if read then eccCount a m c1 else c1

/-- Whether n bytes of an image from offset a on hold an uncorrectable SRAM word (02 R46). -/
def imageBad (c : Core) (a n : Nat) : Bool := (eccBad c a (min n (0x10000 - a))).isSome

/-- What a slot has beyond its image, forgotten: its place in the order of loading, and what it held of a move (02 R51). -/
def forgetSlots (p : Fin 4 → Bool) (c : Core) : Core :=
  { c with x := { c.x with
      slotSeq := Vector.ofFn (fun (k : Fin 4) => if p k then 0 else c.x.slotSeq[k])
      slotN := Vector.ofFn (fun (k : Fin 4) => if p k then 0 else c.x.slotN[k])
      slotFin := Vector.ofFn (fun (k : Fin 4) => if p k then false else c.x.slotFin[k])
      copied := Vector.ofFn (fun (k : Fin 4) => if p k then none else c.x.copied[k])
      stgLeft := Vector.ofFn (fun (k : Fin 4) => if p k then [] else c.x.stgLeft[k])
      tout := Vector.ofFn (fun (k : Fin 4) => if p k then .none else c.x.tout[k]) } }

/-- A core with bytes of its image written from offset a on by the rake (02 R51; 09 R217). -/
def imageWrite (a : Nat) (bs : List Byte) (c0 : Core) : Core :=
  let c := rakeCount false a bs.length c0
  let seg := fun (lo hi : Nat) => (bs.drop (lo - a)).take (hi - max a lo)
  let c1 := if a < 0x10000 then sramPut a (seg 0 0x10000) c else c
  let c2 := if a < 0x12000 then { c1 with banks := mwrite c1.banks (max a 0x10000 - 0x10000) (seg 0x10000 0x12000) } else c1
  let c3 := if a < restFrom then { c2 with stg := mwrite c2.stg (max a 0x12000 - 0x12000) (seg 0x12000 restFrom) } else c2
  let tail := bs.drop (restFrom - a)
  if tail.isEmpty then c3
  else
    let old := imageRest c3
    let o := a - restFrom
    let c4 := putRest (old.take o ++ tail ++ old.drop (o + tail.length)) c3
    forgetSlots (fun k => decide (c4.dma[k] ≠ c3.dma[k])) c4

/-- Whether n bytes of an image from offset a on reach into the queues' data, sidebands or pointers (02 R52). -/
def touchesQueues (a n : Nat) : Bool :=
  let meets := fun (lo hi : Nat) => decide (a < restFrom + hi) && decide (restFrom + lo < a + n)
  meets 0 0x1800 || meets 0x2000 0x20F0

/-- A core whose image the rake has written in a step: where it wrote the queues the local port moves nothing in that step
(11 R282). -/
def rakeMark (now a n : Nat) (c : Core) : Core := if touchesQueues a n then { c with x := { c.x with rakeAt := now + 1 } } else c

/-- A whole image written is a restore: it clears the fault record (02 R53). -/
def restoreImage (bs : List Byte) (c : Core) : Core :=
  let c1 := forgetSlots (fun _ => true) (imageWrite 0 bs c)
  { c1 with r := { c1.r with fstat := 0, fpc := 0, finfo := 0, ftc := 0 } }

/-- The header of a loader tile: the image offset of its payload, the load sequence number; bad sets P, for a payload that
carries an uncorrectable word (15 R377; 02 R46). -/
def loaderHeader (bad : Bool) (off seq : Nat) (pay : List Byte) : Row :=
  let units := pay.length / 32
  let nnz := ((List.range (pay.length / 2)).filter (fun i => decide (leAt pay (2 * i) 2 ≠ 0))).length
  let h : Row := BitVec.ofNat 256
    ((4096 + (units - 1) * 65536) + (16 * units - 1) * 2 ^ 48 + nnz * 2 ^ 64 + off * 2 ^ 96 + 2 * 2 ^ 148 + seq * 2 ^ 160)
  setBit (setFld h 224 32 (tileCrc h pay).toNat) 10 bad

/-- The pieces of 4,096 bytes of an image from an offset on, each with its offset; fuel bounds the pieces. -/
def pieces : Nat → Nat → List Byte → List (Nat × List Byte)
  | 0, _, _ => []
  | n + 1, a, bs => if bs.isEmpty then [] else (a, bs.take 4096) :: pieces n (a + 4096) (bs.drop 4096)

end Sys2Proof.Machine
end

