-- ==== Sys2Proof/Machine/Bundle.lean ====
section
/-! DEFINITION. The job bundle as JOB_LOAD reads it: the header, the directory, the sections, and the checks of their form,
each a refusal with FORMAT (14 R356 to R365; 07 R168; 11 R276; 12 R294; 16 R411, R413). -/

namespace Sys2Proof.Machine

/-- Whether len bytes from off are 0. -/
def zeroAt (b : List Byte) (off len : Nat) : Bool := decide (leAt b off len = 0)

/-- Whether a list holds no element twice. -/
def noRepeat {α : Type} [DecidableEq α] : List α → Bool
  | [] => true
  | x :: t => !t.contains x && noRepeat t

/-- n records read one after another from an offset; each reader answers its record and the offset after it. -/
def readMany {α : Type} (f : Nat → Option (α × Nat)) : Nat → Nat → Option (List α × Nat)
  | 0, o => some ([], o)
  | n + 1, o =>
    match f o with
    | none => none
    | some (a, o1) =>
      match readMany f n o1 with
      | none => none
      | some (l, o2) => some (a :: l, o2)

/-- Whether the engine-written fields of a fold record are 0 (14 R359; 07 Table 7-1). -/
def foldFresh (w : BitVec 512) : Bool := decide (fld w 384 32 = 0) && decide (fld w 416 32 = 0) && decide (fld w 448 16 = 0)
/-- Whether the engine-written fields of a unit record are 0 (14 R359; 07 Table 7-3). -/
def unitFresh (u : BitVec 256) : Bool := decide (fld u 128 96 = 0)

/-- Whether no two chunks cover one byte. -/
def chunksApart : List (Nat × Bool × List Byte) → Bool
  | [] => true
  | (a, _, x) :: t => t.all (fun c => decide (a + x.length ≤ c.1) || decide (c.1 + c.2.2.length ≤ a)) && chunksApart t

/-- The conditions of R168 across the slots of one core; START is asked of a load's record, which gives all slots. -/
def foldsAgree (load : Bool) (ws : List (BitVec 512)) : Bool :=
  let vs := ws.filter fValid
  let pairs := vs.flatMap (fun w => (List.range 8).filterMap (fun k => if fBinds w k then some (k, fTag w, fEpoch w) else none))
  let owned := vs.flatMap (fun w => (List.range 4).filter (fOwns w))
  noRepeat pairs && noRepeat owned && (!load || vs.isEmpty || vs.any fStart)

/-- Whether no two units of one core in SWITCH mode, each owned by a valid slot, have the same Q and ITAG (07 R175, R179). -/
def unitsApart (ws : List (BitVec 512)) (us : List (Nat × BitVec 256)) : Bool :=
  noRepeat ((us.filter (fun u => decide (uMode u.2 = 1) && ws.any (fun w => fValid w && fOwns w u.1))).map (fun u => (uQ u.2, uItag u.2)))

/-- A chunk of a core record (14 Table 14-13). -/
def readChunk (b : List Byte) (o : Nat) : Option ((Nat × Bool × List Byte) × Nat) :=
  let w := leAt b o 4
  let n := leAt b (o + 4) 4
  if w < 2 ^ 17 ∧ w % 65536 % 32 = 0 ∧ 32 ≤ n ∧ n ≤ 65536 ∧ n % 32 = 0 ∧ o + 8 + n ≤ b.length then
    some ((w % 65536, decide (65536 ≤ w), (b.drop (o + 8)).take n), o + 8 + n)
  else none

/-- A core record (14 Table 14-13), with the conditions of R168 on its slots, of R179 on its units and of R359 on the whole; a
unit with a reserved MODE or SRC is admitted: DEDUCED, log 88. -/
def readCore (load : Bool) (b : List Byte) (o : Nat) : Option (CoreRec × Nat) :=
  let w := leAt b o 4
  let nf := w / 2 ^ 20 % 16
  let nu := w / 2 ^ 24 % 8
  let nc := leAt b (o + 4) 4
  let fold := fun (o : Nat) =>
    let r : BitVec 512 := BitVec.ofNat 512 (leAt b (o + 4) 64)
    if leAt b o 4 < 8 ∧ foldFresh r ∧ (!fValid r || foldOk r) then some ((leAt b o 4, r), o + 68) else none
  let unit := fun (o : Nat) =>
    let u : BitVec 256 := BitVec.ofNat 256 (leAt b (o + 4) 32)
    if leAt b o 4 < 4 ∧ unitFresh u ∧ unitBits u then some ((leAt b o 4, u), o + 36) else none
  if b.length < o + 0x58 ∨ 2 ^ 27 ≤ w ∨ 65536 ≤ nc ∨ !zeroAt b (o + 12) 4 then none
  else do
    let (folds, o1) ← readMany fold nf (o + 0x58)
    let (units, o2) ← readMany unit nu o1
    let (chunks, o3) ← readMany (readChunk b) nc o2
    if noRepeat (folds.map Prod.fst) && noRepeat (units.map Prod.fst) && chunksApart chunks && foldsAgree load (folds.map Prod.snd) &&
        unitsApart (folds.map Prod.snd) units then
      some (⟨w % 2 ^ 20, BitVec.ofNat 32 (leAt b (o + 8) 4), BitVec.ofNat 64 (leAt b (o + 16) 8),
        (List.range 16).map (fun i => BitVec.ofNat 32 (leAt b (o + 24 + 4 * i) 4)), folds, units, chunks⟩, o3)
    else none

/-- The CORES section, also the layout of a reload set (14 R359). -/
def readCores (load : Bool) (b : List Byte) : Option (List CoreRec) :=
  if b.length < 16 ∨ !zeroAt b 4 12 ∨ leAt b 0 4 = 0 ∨ b.length < leAt b 0 4 then none
  else do
    let (rs, o) ← readMany (readCore load b) (leAt b 0 4) 16
    if o = b.length ∧ noRepeat (rs.map CoreRec.icn) then some rs else none

/-- A destination entry: image core and input queue (11 R276). -/
def readDest (b : List Byte) (o : Nat) : Option ((Nat × Nat) × Nat) :=
  let w := leAt b o 4
  if w < 2 ^ 23 ∧ o + 4 ≤ b.length then some ((w % 2 ^ 20, w / 2 ^ 20), o + 4) else none

/-- A destination list: no core twice (11 R276). -/
def readDests (b : List Byte) (o n : Nat) : Option (List (Nat × Nat)) :=
  if o % 4 ≠ 0 ∨ b.length < o + 4 * n then none
  else do
    let (l, _) ← readMany (readDest b) n o
    if noRepeat (l.map Prod.fst) then some l else none

/-- SPPM1 and FIRST of a route, within the image period (11 R276; 14 R361). -/
def readSlots (limg w : Nat) : Option (Nat × Nat) :=
  if w < 2 ^ 20 ∧ w % 1024 + 1 ≤ limg ∧ w / 1024 < limg then some (w % 1024, w / 1024) else none

/-- A route descriptor with its destination list (11 Table 11-6). -/
def readRoute (limg : Nat) (b : List Byte) (o : Nat) : Option (RouteRec × Nat) :=
  let w := leAt b o 4
  let n := leAt b (o + 4) 4
  let eng := decide (w / 2 ^ 20 % 2 = 1)
  if b.length < o + 16 ∨ 2 ^ 23 ≤ w ∨ 65536 ≤ n ∨ (eng ∧ 64 ≤ w % 2 ^ 20) then none
  else do
    let (sp, first) ← readSlots limg (leAt b (o + 12) 4)
    let ds ← readDests b (leAt b (o + 8) 4) (n + 1)
    some (⟨if eng then some (w % 64) else none, w % 2 ^ 20, w / 2 ^ 21, sp, first, ds⟩, o + 16)

/-- The ROUTES section (14 R360). -/
def readRoutes (limg : Nat) (b : List Byte) : Option (List RouteRec) :=
  if b.length < 16 ∨ !zeroAt b 4 12 ∨ b.length < leAt b 0 4 then none
  else do
    let (rs, o) ← readMany (readRoute limg b) (leAt b 0 4) 16
    if b.length = o + 4 * (rs.foldl (fun n r => n + r.dests.length) 0) then some rs else none

/-- A spill route record (14 Table 14-15). -/
def readSpill (limg : Nat) (b : List Byte) (o : Nat) : Option (RouteRec × Nat) :=
  let w := leAt b o 4
  if b.length < o + 16 ∨ 2 ^ 30 ≤ w ∨ w / 2 ^ 22 % 4 ≠ 0 ∨ !zeroAt b (o + 8) 8 then none
  else do
    let (sp, first) ← readSlots limg (leAt b (o + 4) 4)
    some (⟨some (w / 2 ^ 24), w % 2 ^ 20, w / 2 ^ 20 % 4, sp, first, []⟩, o + 16)

/-- A save entry: first window slot and stack, or none (14 Table 14-14). -/
def readSave (b : List Byte) (o : Nat) : Option (Option (Nat × Nat) × Nat) :=
  let w := leAt b o 4
  if w = 0xFFFFFFFF then some (none, o + 4)
  else if w < 2 ^ 30 then some (some (w % 2 ^ 24, w / 2 ^ 24), o + 4) else none

/-- The PMAP section: GC, save entries, spill routes (14 R361). -/
def readPmap (limg npans : Nat) (b : List Byte) : Option (List Nat × List (Option (Nat × Nat)) × List RouteRec) :=
  let n := leAt b 0x30 4
  if b.length ≠ 0x40 + 4 * npans + 16 * n ∨ 65536 ≤ n ∨ !zeroAt b 0x34 12 then none
  else do
    let gc := (List.range 48).map (fun i => leAt b i 1)
    let (saves, o) ← readMany (readSave b) npans 0x40
    let (spills, _) ← readMany (readSpill limg b) n o
    some (gc, saves, spills)

/-- The reserved bits and codes of a stream descriptor, and what R294 asks of one descriptor by itself. -/
def descForm (d : BitVec 256) : Bool :=
  let kind := sdKind d
  let w := decide (kind = 2)
  (decide (kind = 1) || w) && decide (fld d 12 4 = 0) && decide (fld d 62 2 = 0) && decide (fld d 82 14 = 0) &&
  decide (fld d 120 8 = 0) && decide (fld d 136 8 = 0) && decide (fld d 168 8 = 0) && decide (sdEntm1 d ≠ 0) &&
  (!w || (decide (sdRpt d = 1) && !d.getLsbD 166 && !d.getLsbD 167))

/-- A descriptor entry: its engine and descriptor (14 R362). -/
def readDesc (b : List Byte) (o : Nat) : Option ((Nat × BitVec 256) × Nat) :=
  let e := leAt b o 4
  let d : BitVec 256 := BitVec.ofNat 256 (leAt b (o + 4) 32)
  if e < 48 ∧ descForm d then some ((e, d), o + 36) else none

/-- A binding entry: engine, context, first descriptor (14 R362). -/
def readBind (b : List Byte) (o : Nat) : Option ((Nat × Nat × Nat) × Nat) :=
  let w := leAt b o 4
  if w < 2 ^ 26 ∧ w / 64 % 4 = 0 ∧ w / 2 ^ 14 % 4 = 0 ∧ w % 64 < 48 then
    some ((w % 64, w / 256 % 64, w / 65536), o + 4)
  else none

/-- The STREAMS section (14 R362). -/
def readStreams (b : List Byte) : Option (List (Nat × BitVec 256) × List (Nat × Nat × Nat)) :=
  let nd := leAt b 0 2
  let nb := leAt b 2 2
  if b.length ≠ 16 + 36 * nd + 4 * nb ∨ !zeroAt b 4 12 then none
  else do
    let (ds, o) ← readMany (readDesc b) nd 16
    let (bs, _) ← readMany (readBind b) nb o
    some (ds, bs)

/-- The descriptors of one engine, in the order of its store. -/
def engDescs (ds : List (Nat × BitVec 256)) (e : Nat) : List (BitVec 256) := (ds.filter (fun d => decide (d.1 = e))).map Prod.snd

/-- The descriptors of a context's list: from its first to the one with LAST, none where the list has no LAST. -/
def ctxList (ds : List (BitVec 256)) (first : Nat) : Option (List (BitVec 256)) :=
  let l := ds.drop first
  match firstIdx sdLast l with
  | some i => some (l.take (i + 1))
  | none => none

/-- What R294 and R362 ask of descriptors and bindings together: each binding within its engine's entries, no context twice,
every list with LAST, DIG only with DCL, gates that name a WRITE context, routes that fit their engine. -/
def streamsAgree (routes spills : List RouteRec) (ds : List (Nat × BitVec 256)) (bs : List (Nat × Nat × Nat)) : Bool :=
  let writes := fun (e c : Nat) => bs.any (fun b => decide (b.1 = e) && decide (b.2.1 = c) &&
    (match (engDescs ds e)[b.2.2]? with | some d => decide (sdKind d = 2) | none => false))
  noRepeat (bs.map (fun b => (b.1, b.2.1))) &&
  bs.all (fun b => match ctxList (engDescs ds b.1) b.2.2 with
    | none => false
    | some l => decide (b.2.2 < (engDescs ds b.1).length) && (!l.any sdDig || l.any sdDcl)) &&
  ds.all (fun ed => let d := ed.2
    (!d.getLsbD 166 || writes ed.1 (fld d 160 6)) &&
    (if sdKind d = 1 then match routes[sdRoute d]? with | some r => decide (r.eng = some ed.1) | none => false
     else match spills[sdRoute d]? with | some r => decide (r.eng = some ed.1) | none => false))

/-- A channel declaration with its destinations (14 Table 14-16). -/
def readChan (limg : Nat) (b : List Byte) (o : Nat) : Option (ChanRec × Nat) :=
  let w := leAt b o 4
  let recv := decide (w / 65536 % 2 = 1)
  let r := leAt b (o + 20) 4
  if b.length < o + 32 ∨ 2 ^ 17 ≤ w ∨ w % 65536 = 0xFFFF ∨ 2 ^ 24 ≤ leAt b (o + 4) 4 ∨ 2 ^ 24 ≤ leAt b (o + 8) 4 ∨
      65536 ≤ leAt b (o + 12) 4 ∨ !zeroAt b (o + 28) 4 then none
  else do
    let (sp, first) ← readSlots limg (leAt b (o + 16) 4)
    if recv then
      if 65536 ≤ r then none
      else do
        let ds ← readDests b (leAt b (o + 24) 4) (r + 1)
        some (⟨w % 65536, true, leAt b (o + 4) 4, leAt b (o + 8) 4, leAt b (o + 12) 4, sp, first, 0, 0, ds⟩, o + 32)
    else if 2 ^ 22 ≤ r ∨ !zeroAt b (o + 24) 4 then none
    else some (⟨w % 65536, false, leAt b (o + 4) 4, leAt b (o + 8) 4, leAt b (o + 12) 4, sp, first, r % 2 ^ 20, r / 2 ^ 20, []⟩, o + 32)

/-- The digest declaration (19 Table 19-3); modnum is CX_CFG.MODNUM. A table that runs past the section is read as far as the
section goes (its refusal is BOUNDS). -/
def readDigest (modnum : Nat) (b : List Byte) (o : Nat) : Option DigestDecl :=
  let h : BitVec 128 := BitVec.ofNat 128 (leAt b o 16)
  let n := fld h 32 16
  let d : DigestDecl := ⟨h, (List.range (min ((fld h 0 4 + 1) * n) ((b.length - o - 16) / 2))).map (fun i => BitVec.ofNat 32 (leAt b (o + 16 + 2 * i) 2))⟩
  if b.length < o + 16 ∨ fld h 14 18 ≠ 0 ∨ fld h 64 64 ≠ 0 ∨ fld h 0 4 = 0 ∨ fld h 0 4 < fld h 4 4 ∨ n = 0 ∨ 4096 < n ∨ n ≤ fld h 48 16 ∨
      (fld h 4 4 * n + fld h 48 16 < d.modules.length ∧
        (d.modules.getD (fld h 4 4 * n + fld h 48 16) 0).toNat ≠ modnum) then none
  else some d

/-- The FABRIC section: channels and the digest declaration (14 R363). -/
def readFabric (limg modnum : Nat) (b : List Byte) : Option (List ChanRec × Option DigestDecl) :=
  let n := leAt b 0 2
  if b.length < 16 ∨ 2 ≤ leAt b 2 2 ∨ !zeroAt b 4 12 then none
  else do
    let (cs, o) ← readMany (readChan limg b) n 16
    let lists := o + 4 * (cs.foldl (fun n c => n + c.dests.length) 0)
    if !noRepeat (cs.map (fun c => (c.chn, c.recv))) then none
    else if leAt b 2 2 = 0 then if b.length = lists then some (cs, none) else none
    else do
      let d ← readDigest modnum b (16 * ceilDiv lists 16)
      some (cs, some d)

/-- A barrier record with its participants (14 Table 14-17). -/
def readBarrier (modnum : Nat) (b : List Byte) (o : Nat) : Option ((BarRec × Nat) × Nat) :=
  let n := leAt b (o + 8) 4
  let lo := leAt b (o + 16) 4
  let modm1 := leAt b (o + 14) 2
  if b.length < o + 24 ∨ 256 ≤ leAt b o 4 ∨ 2 ^ 21 ≤ leAt b (o + 4) 4 ∨ 2 ^ 21 ≤ n ∨ !zeroAt b (o + 20) 4 ∨
      b.length < lo + 4 * n ∨ lo % 4 ≠ 0 ∨ (modm1 = 0 ∧ leAt b (o + 12) 2 ≠ modnum) then none
  else
    let ps := (List.range n).map (fun i => leAt b (lo + 4 * i) 4)
    if ps.all (fun p => decide (p < 2 ^ 20)) && noRepeat ps then
      some ((⟨leAt b o 1, leAt b (o + 4) 4, leAt b (o + 12) 2, modm1, ps⟩, n), o + 24)
    else none

/-- The BARRIERS section (14 R364). -/
def readBarriers (modnum : Nat) (b : List Byte) : Option (List BarRec) :=
  if b.length < 16 ∨ !zeroAt b 4 12 ∨ b.length < leAt b 0 4 then none
  else do
    let (rs, o) ← readMany (readBarrier modnum b) (leAt b 0 4) 16
    if noRepeat (rs.map (fun r => r.1.bnum)) ∧ b.length = o + 4 * (rs.foldl (fun n r => n + r.2) 0) then some (rs.map Prod.fst) else none

/-- The RELOC section (14 R365). -/
def readRelocs (b : List Byte) : Option (List (Nat × Nat)) :=
  let n := leAt b 0 4
  if b.length ≠ 16 + 8 * n ∨ !zeroAt b 4 12 then none
  else
    let l := (List.range n).map (fun i => (leAt b (16 + 8 * i) 4, leAt b (20 + 8 * i) 4))
    if l.all (fun p => decide (p.1 < 2 ^ 20) && decide (p.2 % 4 = 0) && decide (0x4000 ≤ p.2) && decide (p.2 < 65536)) then some l else none

/-- The guard block, with the conditions that R148 checks with FORMAT. -/
def readGuard (b : List Byte) : Option (BitVec 128) :=
  let g : BitVec 128 := BitVec.ofNat 128 (leAt b 0 16)
  let sg := fun (lo : Nat) => (g.extractLsb' lo 8).toInt
  if b.length = 16 ∧ fld g 28 4 = 0 ∧ fld g 96 32 = 0 ∧ sg 8 ≤ sg 0 ∧ sg 0 ≤ sg 16 then some g else none

/-- The rank map: bits [31:24] of every entry are 0 (13 R314). -/
def readRanks (b : List Byte) : Option (List Word) :=
  let l := (List.range (b.length / 4)).map (fun i => BitVec.ofNat 32 (leAt b (4 * i) 4))
  if b.length % 4 = 0 ∧ l.all (fun w => decide (fld w 24 8 = 0)) then some l else none

/-- The form of a JOBKEY structure: length, version, reserved bits, KEYID (16 R411). -/
def keyForm (b : List Byte) : Bool :=
  decide (b.length = (if leAt b 1 1 = 1 then 264 else 200)) && decide (leAt b 0 1 = 1) && decide (leAt b 1 1 < 2) &&
  zeroAt b 3 5 && !zeroAt b 8 8 && zeroAt b 0x9D 3

/-- A bundle: what it holds, and the first section that extends beyond the buffer (14 Table 14-11, reason 12). -/
structure Bundle where
  image : Image
  beyond  : Option Nat

/-- A directory entry: kind, offset, length. -/
def readDir (b : List Byte) (i : Nat) : Option (Nat × Nat × Nat) :=
  let o := 0x40 + 16 * i
  if leAt b (o + 2) 2 = 0 ∧ 1 ≤ leAt b o 2 ∧ leAt b o 2 ≤ 10 ∧ leAt b (o + 8) 8 % 32 = 0 then
    some (leAt b o 2, leAt b (o + 8) 8, leAt b (o + 4) 4)
  else none

/-- The bundle of a buffer of n bytes, or none where it breaks a rule of form (14 R356, R358). A bundle longer than the buffer
has no CRC that could be checked; its sections beyond the buffer are refused later with FIT. -/
def readBundle (modnum n : Nat) (b : List Byte) : Option Bundle :=
  let nsec := leAt b 0x0C 4
  let len := leAt b 0x10 8
  let w1 := leAt b 4 4
  let w2 := leAt b 8 4
  let limg := 2 ^ (w1 / 2 ^ 18 % 16)
  let rate := w1 / 2 ^ 22 % 64
  let npans := w2 % 128
  let endbar := w2 / 65536
  if n < 64 ∨ leAt b 0 4 ≠ 0x4D49505A ∨ w1 / 256 % 256 ≠ 1 ∨ 2 ≤ w1 / 65536 % 4 ∨ w1 / 2 ^ 18 % 16 < 6 ∨ 10 < w1 / 2 ^ 18 % 16 ∨
      2 ^ 28 ≤ w1 ∨ (rate ≠ 0 ∧ (rate < 8 ∨ 50 < rate)) ∨ w2 / 128 % 512 ≠ 0 ∨ (256 ≤ endbar ∧ endbar ≠ 0xFFFF) ∨
      !zeroAt b 0x1C 36 ∨ 10 < nsec ∨ n < 64 + 16 * nsec ∨
      (len ≤ n ∧ (crc32c ((b.take len).drop 0x40)).toNat ≠ leAt b 0x18 4) then none
  else do
    let dir ← (List.range nsec).mapM (readDir b)
    let lim := min n len
    let beyond := firstIdx (fun (d : Nat × Nat × Nat) => decide (lim < d.2.1 + d.2.2)) dir
    let has := fun (k : Nat) => dir.any (fun d => decide (d.1 = k))
    let sec := fun (k : Nat) => match dir.find? (fun d => decide (d.1 = k)) with
      | some d => if lim < d.2.1 + d.2.2 then none else some ((b.drop d.2.1).take d.2.2)
      | none => none
    if !noRepeat (dir.map Prod.fst) || !([1, 2, 3, 4, 8, 9].all has) then none
    else do
      let cores ← match sec 1 with | some x => readCores true x | none => some []
      let routes ← match sec 2 with | some x => readRoutes limg x | none => some []
      let (gc, saves, spills) ← match sec 3 with | some x => readPmap limg npans x | none => some ([], [], [])
      let (descs, binds) ← match sec 4 with | some x => readStreams x | none => some ([], [])
      let (chans, digest) ← match sec 5 with | some x => readFabric limg modnum x | none => some ([], none)
      let bars ← match sec 6 with | some x => readBarriers modnum x | none => some []
      let relocs ← match sec 7 with | some x => readRelocs x | none => some []
      let guard ← match sec 8 with | some x => readGuard x | none => some 0
      let ranks ← match sec 9 with | some x => readRanks x | none => some []
      let jobkey ← match sec 10 with | some x => if keyForm x then some x else none | none => some []
      let complete := beyond.isNone
      let away := has 5 || ranks.any (fun w => decide (fld w 8 16 ≠ modnum))
      if (complete && !streamsAgree routes spills descs binds) ||
          (complete && endbar ≠ 0xFFFF && !bars.any (fun r => decide (r.bnum = endbar))) ||
          (complete && !relocs.all (fun r => cores.any (fun c => decide (c.icn = r.1)))) ||
          (complete && digest.isSome && !descs.any (fun d => sdDcl d.2)) || (away && !has 10) then none
      else some ⟨⟨w1 % 256, w1 / 65536 % 4, w1 / 2 ^ 18 % 16, rate, npans, endbar, cores, routes, gc, saves, spills, descs,
        binds, chans, digest, bars, relocs, guard, ranks, jobkey⟩, beyond⟩

/-- A reload set: the layout of CORES, with flags, counters, STALL_W and data absent (14 R359). -/
def readReload (b : List Byte) : Option (List CoreRec) := do
  let rs ← readCores false b
  if rs.all (fun r => decide (r.flags = 0) && decide (r.stallW = 0) && r.ch.all (fun w => decide (w = 0)) && r.chunks.all (fun c => c.2.1)) then
    some rs
  else none

end Sys2Proof.Machine
end

