-- ==== Sys2Proof/Machine/Admit.lean ====
section
/-! DEFINITION. Admission of a job bundle: the checks against the partition and the module in the order of R348, and the
binding of routes to slot tables (14 R366, Table 14-11; 11 R276 to R279; 03 R92; 16 R412). -/

namespace Sys2Proof.Machine

-- Binding routes -------------------------------------------------------------------------------------------------

/-- A router of a route's tree: the side its entries come from (0 to 3 an input, 4 the core), its outputs, its local
queue, its hops from the source. -/
structure TreeNode where
  at_  : Nat
  src  : Nat
  outs : List (Fin 4)
  loc  : Option Nat
  hops : Nat

/-- The output of an X-first path from router g toward router h, none at h. -/
def xFirst (g h : Nat) : Option (Fin 4) :=
  if gX g < gX h then some 1
  else if gX h < gX g then some 3
  else if gY g < gY h then some 2
  else if gY h < gY g then some 0
  else none

/-- A path from router g to router h as tree nodes, ending at h with the output or queue that the route takes there; fuel
bounds the hops. -/
def pathNodes : Nat → Nat → Nat → Nat → Nat → Option (Fin 4) → Option Nat → List TreeNode
  | 0, _, _, _, _, _, _ => []
  | n + 1, g, h, src, hops, out, loc =>
    match xFirst g h with
    | none => [⟨g, src, out.toList, loc, hops⟩]
    | some k =>
      match nbr g k with
      | some g' => ⟨g, src, [k], none, hops⟩ :: pathNodes n g' h (opp k : Nat) (hops + 1) out loc
      | none => []

/-- Adds a node to a tree: a router already there takes the new outputs and queue. -/
def addNode (t : List TreeNode) (n : TreeNode) : List TreeNode :=
  if t.any (fun m => decide (m.at_ = n.at_)) then
    t.map (fun m => if m.at_ = n.at_ then { m with outs := m.outs ++ n.outs.filter (fun o => !m.outs.contains o), loc := m.loc.orElse (fun _ => n.loc) } else m)
  else t ++ [n]

/-- The order in which the slots of a tree are bound: by hops, then X, then Y (11 R278). -/
def nodeBefore (a b : TreeNode) : Bool :=
  decide (a.hops < b.hops) || (decide (a.hops = b.hops) && (decide (gX a.at_ < gX b.at_) || (decide (gX a.at_ = gX b.at_) && decide (gY a.at_ ≤ gY b.at_))))

/-- What a route binds: its first router, the side or core its entries come from, its destinations as routers with a queue or
an outward side, and its slots in the image period. -/
structure Req where
  first : Nat
  src   : Nat
  loq   : Nat
  dests : List (Nat × Option (Fin 4) × Option Nat)
  sppm1 : Nat
  slot0 : Nat

/-- The tree of a route: the union of its X-first paths. -/
def treeOf (r : Req) : List TreeNode :=
  sortBy nodeBefore ((r.dests.flatMap (fun d => pathNodes 2000 r.first d.1 r.src 0 d.2.1 d.2.2)).foldl addNode [])

/-- The route tag by which an entry of a slot table moves what output k selects. -/
def outTag (e : BitVec 64) (k : Nat) : Nat := if selOf e k = 5 then otOf e else tagOf e (selOf e k - 1)

/-- The route tags in use on the links of a tree: on each output of its routers, and on the crossing into its first router. -/
def tagsUsed (s : State) (r : Req) (t : List TreeNode) : List Nat :=
  t.flatMap (fun n =>
    let es := (getRouter s n.at_).slots.map Prod.snd
    es.flatMap (fun e =>
      (n.outs.filter (fun o => decide (selOf e o ≠ 0))).map (fun o => outTag e o) ++
      (if n.at_ = r.first ∧ n.src < 4 ∧ ((List.range 4).any (fun o => decide (selOf e o = n.src + 1)) ∨ lselOf e = n.src + 1) then [tagOf e n.src]
       else [])))

/-- Whether a policy allows the routers and outputs of a tree to partition k: 0 OWN, 1 SHARE (11 R277, R279; 19 R474). -/
def policyOk (s : State) (k policy : Nat) (r : Req) (t : List TreeNode) : Bool :=
  !t.isEmpty && r.dests.all (fun d => t.any (fun n => decide (n.at_ = d.1))) &&
  t.all (fun n =>
    let p := panOf n.at_
    panLive s p && decide ((getRouter s n.at_).mode ≠ 2) && !(tget TestPan.zero s.rel.pans p).quar &&
    (decide (policy = 1) || decide ((getPan s p).part = some k)) &&
    n.outs.all (fun o => match (getRouter s n.at_).own[o] with | some j => decide (j = k) | none => true) &&
    (decide (n.src ≠ 4 ∧ n.loc = none) || decide ((getRouter s n.at_).mode = 0)))

/-- Whether a router's entry is free for a node of a route at a table index: its outputs and the local output are idle, and its
source is unselected or selects this route, which its tag alone tells on a link; a core's own output queue that is selected
already belongs to another route (11 R278). -/
def indexFree (s : State) (tag : Nat) (n : TreeNode) (ix : Nat) : Bool :=
  let e := tget 0 (getRouter s n.at_).slots ix
  let taken := (List.range 4).any (fun o => decide (selOf e o = n.src + 1)) || decide (lselOf e = n.src + 1)
  let same := decide (n.src ≠ 4) && decide (tagOf e n.src = tag)
  n.outs.all (fun o => decide (selOf e o = 0) && !laneOwned s n.at_ o ix) && (n.loc.isNone || decide (lselOf e = 0)) &&
  (!taken || same)

/-- A router's entry with a node of a route written into it (11 R278). -/
def writeIndex (r : Req) (tag : Nat) (n : TreeNode) (ix : Nat) (x : Router) : Router :=
  let e0 := tget 0 x.slots ix
  let e1 := n.outs.foldl (fun e (o : Fin 4) => setFld e (3 * (o : Nat)) 3 (n.src + 1)) e0
  let e2 := match n.loc with | some q => setFld (setFld e1 12 3 (n.src + 1)) 15 3 q | none => e1
  let e3 := if n.src = 4 then setFld (setFld e2 18 2 r.loq) 44 6 tag else setFld e2 (20 + 6 * n.src) 6 tag
  { x with slots := tset 0 x.slots ix e3 }

/-- One slot of a route bound at every router of its tree, from the times in ts; the answer is the router at which no index is
free (11 R278). -/
def bindSlot (r : Req) (tag L : Nat) : List TreeNode → List (Nat × Nat) → State → Except Nat State
  | [], _, s => .ok s
  | n :: rest, ts, s =>
    let t := ((ts.find? (fun p => decide (p.1 = n.at_))).map Prod.snd).getD 0
    match (List.range L).find? (fun i => indexFree s tag n ((t + i) % L)) with
    | none => .error n.at_
    | some i =>
      let j := t + i
      let s1 := modRouter s n.at_ (writeIndex r tag n (j % L))
      let next := n.outs.filterMap (fun o => match nbr n.at_ o with
        | some h => some (h, j + 1 + (if panOf h = panOf n.at_ then 0 else (getSluice s (4 * panOf h + (opp o : Nat))).d))
        | none => none)
      bindSlot r tag L rest (next ++ ts) s1

/-- The slots of a route, one after another, m in all. -/
def bindSlots (r : Req) (tag L m : Nat) (t : List TreeNode) : List Nat → State → Except Nat State
  | [], s => .ok s
  | i :: rest, s =>
    match bindSlot r tag L t [(r.first, (r.slot0 + i * L / m) % L)] s with
    | .error g => .error g
    | .ok s1 => bindSlots r tag L m t rest s1

/-- Binds a route for partition k: the tag and the module with its slots and its ownership, or the FIT reason and router:
7 where the policy forbids it, 6 where no tag or index is free (11 R277 to R279). -/
def bindRoute (k policy limg : Nat) (r : Req) (s : State) : Except (Nat × Nat) (Nat × List Nat × State) :=
  let t := treeOf r
  let L := period s
  if !policyOk s k policy r t then .error (7, 0)
  else
    let used := tagsUsed s r t
    match (List.range 64).find? (fun x => !used.contains x) with
    | none => .error (6, gX r.first + gY r.first * 65536)
    | some tag =>
      let m := (r.sppm1 + 1) * L / limg
      match bindSlots r tag L m t (List.range m) s with
      | .error g => .error (6, gX g + gY g * 65536)
      | .ok s1 =>
        let s2 := t.foldl (fun s n => n.outs.foldl (fun s (o : Fin 4) => modRouter s n.at_ (fun x => { x with own := x.own.set o (some k) })) s) s1
        .ok (tag, t.map TreeNode.at_, s2)

/-- The edge routers that a stream engine serves, with the side of the array they lie on (01 R15). -/
def enginePositions (e : Nat) : List (Nat × Fin 4) :=
  (List.range 80).map (fun i =>
    if e < 12 then (80 * e + i, 0)
    else if e < 24 then ((80 * (e - 12) + i) * 960 + 959, 1)
    else if e < 36 then (959 * 960 + (80 * (35 - e) + i), 2)
    else ((80 * (47 - e) + i) * 960, 3))

/-- The edge router of an engine that lies nearest a core's column; the lowest if tied, as all are on the east and west edges
(11 R278). -/
def engineRouter (e g : Nat) : Nat × Fin 4 :=
  let d := fun (p : Nat × Fin 4) => gX p.1 - gX g + (gX g - gX p.1)
  let ps := enginePositions e
  ps.foldl (fun best p => if d p < d best then p else best) (ps.headD (0, 0))

/-- The edge positions of a partition's pans, in ascending order of pan, side and position (13 R313). -/
def edgePositions (pans : List Nat) : List (Nat × Fin 4) :=
  pans.flatMap (fun p =>
    let x := p % 8 * 120
    let y := p / 8 * 80
    (if p / 8 = 0 then (List.range 120).map (fun i => (x + i, (0 : Fin 4))) else []) ++
    (if p % 8 = 7 then (List.range 80).map (fun i => ((y + i) * 960 + 959, (1 : Fin 4))) else []) ++
    (if p / 8 = 11 then (List.range 120).map (fun i => (959 * 960 + x + i, (2 : Fin 4))) else []) ++
    (if p % 8 = 0 then (List.range 80).map (fun i => ((y + i) * 960, (3 : Fin 4))) else []))

-- What an image names --------------------------------------------------------------------------------------------

/-- The image cores that a bundle names anywhere but in data words. -/
def namedCores (im : Image) : List Nat :=
  im.cores.map CoreRec.icn ++
  im.routes.flatMap (fun r => (if r.eng.isSome then [] else [r.src]) ++ r.dests.map Prod.fst) ++
  im.spills.map RouteRec.src ++ im.chans.flatMap (fun c => (if c.recv then [] else [c.src]) ++ c.dests.map Prod.fst) ++
  im.bars.flatMap BarRec.cores

/-- The image core that the data word of a relocation names (14 R365). -/
def relocTarget (im : Image) (r : Nat × Nat) : Nat :=
  match im.cores.find? (fun c => decide (c.icn = r.1)) with
  | none => 0
  | some c =>
    match c.chunks.find? (fun x => decide (x.1 ≤ r.2) && decide (r.2 + 4 ≤ x.1 + x.2.2.length)) with
    | some x => leAt x.2.2 (r.2 - x.1) 4 % 2 ^ 20
    | none => 0

/-- The format that an instruction uses, if it is a tile format (03 R92). -/
def insFormat : Instr → Option TileFmt
  | .vunpk _ _ _ _ f _ => some f
  | .mma _ _ _ _ f _ => some f
  | .mmas _ _ _ _ f _ => some f
  | _ => none

/-- The tile formats of the instructions in code bytes, read from the first on; fuel bounds the words. -/
def codeFormats : Nat → List Byte → List TileFmt
  | 0, _ => []
  | n + 1, bs =>
    if bs.isEmpty then []
    else
      let w1 : Word := BitVec.ofNat 32 (leAt bs 0 4)
      let long := w1.getLsbD 31
      let f := match decodeCore 0 w1 (BitVec.ofNat 32 (leAt bs 4 4)) with | .ok i => (insFormat i).toList | .error _ => []
      f ++ codeFormats n (bs.drop (if long then 8 else 4))

/-- Chunks in order of address, those that meet joined. -/
def joinChunks : List (Nat × List Byte) → List (Nat × List Byte)
  | [] => []
  | c :: t =>
    match joinChunks t with
    | d :: u => if c.1 + c.2.length = d.1 then (c.1, c.2 ++ d.2) :: u else c :: d :: u
    | [] => [c]

/-- The formats of a core record's code: the instructions of its code bytes, read from the start of each run of chunks on
(03 R92). -/
def recFormats (r : CoreRec) : List TileFmt :=
  let code := (r.chunks.filter (fun c => c.2.1)).map (fun c => (c.1, c.2.2))
  (joinChunks (sortBy (fun a b => decide (a.1 ≤ b.1)) code)).flatMap (fun c => codeFormats (c.2.length / 4) c.2)

-- The checks -----------------------------------------------------------------------------------------------------

/-- Whether an image core number lies in the image's numbering (14 R357). -/
def icnOk (im : Image) (c : Nat) : Bool := decide (c / 10240 < im.npans) && decide (c % 10240 < 9600)

/-- A rank's endpoint on this module, if its FID names it (13 R314). -/
def rankEp (modnum : Nat) (w : Word) : Option Nat := if fld w 8 16 = modnum then some (fld w 0 8) else none

/-- What an image breaks of the limits of its sections, which is refused with BOUNDS (14 R359 to R365; 06 R148; 09 R231;
12 R294; 13 R314; 19 R468). -/
def boundsBad (s : State) (k : Nat) (im : Image) : Bool :=
  let lim := fun (e : Nat) => 262144 * im.gc.getD e 0
  let sg := fun (lo : Nat) => (im.guard.extractLsb' lo 8).toInt
  let gt := fld im.guard 64 32
  let rankOk := fun (c : ChanRec) => match im.ranks[c.lrank]? with
    | some w => (rankEp s.modnum w).isSome
    | none => false
  !(namedCores im).all (icnOk im) ||
  im.cores.any (fun r => r.chunks.any (fun c => (!c.2.1 && decide (c.1 < 0x4000)) || decide (0x10000 < c.1 + c.2.2.length))) ||
  im.routes.any (fun r => match r.eng with | some e => decide (47 < e) | none => false) ||
  im.gc.any (fun n => decide (63 < n)) ||
  (im.saves.zipIdx).any (fun se => match se.1 with
    | none => false
    | some (first, st) =>
      let js := (im.cores.filter (fun r => decide (r.icn / 10240 = se.2))).map (fun r => r.icn % 10240)
      !js.isEmpty && decide (lim st < first + 22 * (js.foldl max 0 + 1))) ||
  im.spills.any (fun r => match r.eng with | some e => decide (47 < e) | none => true) ||
  im.descs.any (fun d => decide (fld d.2 56 6 ≠ d.1) || decide (lim d.1 ≤ fld d.2 32 24 + fld d.2 64 18 * fld d.2 96 24)) ||
  im.chans.any (fun c => !rankOk c || decide (im.ranks.length ≤ c.prank)) ||
  im.ranks.any (fun w => decide (rankEp s.modnum w = some 0)) ||
  (match im.digest with | some d => decide (d.modules.length < (fld d.head 0 4 + 1) * fld d.head 32 16) | none => false) ||
  im.bars.any (fun b => decide (b.total = 0) || decide (2 ^ 20 < b.total) ||
    decide (((getPart s k).pans.map (fun p => (9600 - (getPan s p).defects.length))).foldl (· + ·) 0 < b.cores.length)) ||
  im.relocs.any (fun r => !icnOk im (relocTarget im r)) ||
  decide (sg 8 < -126) || decide (126 < sg 16) || (decide (gt ≠ 0) && decide (gt < 16384))

/-- The key material of a bundle's JOBKEY, none where a check of R412 fails. A load accepts a KEYID once. -/
def openKey (s : State) (k : Nat) (load : Bool) (b : List Byte) : Option JobKey :=
  let id : BitVec 64 := BitVec.ofNat 64 (leAt b 8 8)
  if leAt b 0x10 8 ≠ s.fuse.serial.toNat ∨ leAt b 2 1 ≠ (getPart s k).prin ∨ (load ∧ s.sec.keyids.contains id) then none
  else match Config.unwrapKey ((b.drop 0x18).take 133) id.toNat (b.drop 0xA0) with
    | some (jk, x) => some ⟨id, jk, if leAt b 1 1 = 1 then x.map suppliedKey else none⟩
    | none => none

/-- A pan that no load or restore may use: dark or quarantined (15 R390; 19 R474). -/
def panUnfit (s : State) (p : Nat) : Bool := !panLive s p || (tget TestPan.zero s.rel.pans p).quar

/-- Good cores of a pan. -/
def goodCount (s : State) (p : Nat) : Nat := 9600 - (getPan s p).defects.length
/-- The pans that are numbered and not dark. -/
def numberedPans (s : State) : List Nat := (livePans s).filter (fun p => (getPan s p).num.isSome)
/-- The good cores that the module reports of a pan: 0 where it is dark or not numbered (01 R17). -/
def reportedCount (s : State) (p : Nat) : Nat := if (numberedPans s).contains p then goodCount s p else 0
/-- The good cores of the module (01 R17). -/
def goodTotal (s : State) : Nat := ((numberedPans s).map (goodCount s)).foldl (· + ·) 0

/-- Whether an image uses a 4-bit format (03 R92). -/
def image4 (im : Image) : Bool := im.cores.any (fun r => (recFormats r).any (fun f => decide (f.width = 4)))
/-- Whether an image uses a 4-bit format without a licence for it (01 R21). -/
def image4Bad (s : State) (im : Image) : Bool := !licensed4 s && image4 im

/-- Free granules of a stack, for a partition that gives its own back first. -/
def granulesFor (s : State) (k e : Nat) : Nat := (freeGranules s e).length + ((getPart s k).granules.getD e []).length

/-- Packet buffers in use on a side (13 R315). -/
def buffersUsed (s : State) (recv : Bool) : Nat :=
  (s.fab.chans.filterMap (fun c => c.2.bind (fun c => if c.recv = recv then some (c.bufm1 + 1) else none))).foldl (· + ·) 0

/-- The endpoints of the job on this module. -/
def jobEps (s : State) (im : Image) : List Nat := (im.ranks.filterMap (rankEp s.modnum)).dedup

/-- The first FIT reason of an image beside its routes, with its details, in the order of Table 14-11. -/
def fitBad (s : State) (k : Nat) (keepmem : Bool) (bu : Bundle) : Option (List Nat) :=
  let im := bu.image
  let pans := (getPart s k).pans
  let pick := fun (l : List (Option (List Nat))) => l.findSome? id
  let byEng := fun (e : Nat) => (im.descs.filter (fun d => decide (d.1 = e))).length
  let bufs := fun (r : Bool) => ((im.chans.filter (fun c => decide (c.recv = r))).map (fun c => c.bufm1 + 1)).foldl (· + ·) 0
  let freeObjs := (List.range 4096).filter (fun i => (tget none s.fab.chans i).isNone)
  let freeBars := (List.range 256).filter (fun i => (tget none s.bars i).isNone)
  pick [
    if im.bl ≠ 1 then some [1, im.bl, 0] else none,
    if im.npans ≠ pans.length then some [2, pans.length, 0] else none,
    (pans.zipIdx).findSome? (fun pi =>
      if (namedCores im ++ im.relocs.map (relocTarget im)).any (fun c => decide (c / 10240 = pi.2) && decide (goodCount s pi.1 ≤ c % 10240)) then
        some [3, pi.1, goodCount s pi.1] else none),
    if keepmem then none
    else (List.range 48).findSome? (fun e =>
      let n := im.gc.getD e 0
      if n ≠ 0 ∧ ((getEng s e).failed ∨ !(getEng s e).trained ∨ granulesFor s k e < n) then some [4, e, granulesFor s k e] else none),
    (List.range 48).findSome? (fun e =>
      let x := getEng s e
      if 1024 < x.descs.length + byEng e ∨ im.binds.any (fun b => decide (b.1 = e) && (tget Ctx.zero x.ctxs b.2.1).part.isSome) then
        some [5, e, 0] else none),
    (jobEps s im).findSome? (fun e => if (getEp s e).part.isSome then some [8, e, 0] else none),
    if 4096 < buffersUsed s true + bufs true then some [9, 0, 0] else none,
    if 4096 < buffersUsed s false + bufs false then some [9, 1, 0] else none,
    if freeObjs.length < im.chans.length then some [10, im.chans.length, 0] else none,
    if freeBars.length < im.bars.length then some [11, im.bars.length, 0] else none,
    bu.beyond.map (fun i => [12, i, 0]),
    im.cores.findSome? (fun r =>
      if 8 < r.folds.length ∨ 4 < r.units.length ∨ r.chunks.any (fun c => c.2.1 && decide (0x4000 < c.1 + c.2.2.length)) then
        some [13, 0, r.icn] else none),
    if keepmem then
      (List.range 48).findSome? (fun e => if im.gc.getD e 0 ≠ ((getPart s k).granules.getD e []).length then some [14, e, 0] else none)
    else none,
    if s.mesh.lcode < im.limg then some [17, im.limg, s.mesh.lcode] else none]

/-- Short formats, or 4-bit formats, used by the code for some pan that a test admits. -/
def usesFormat (s : State) (k : Nat) (im : Image) (f : TileFmt → Bool) (pan : Nat → Bool) : Bool :=
  im.cores.any (fun r => (match (getPart s k).pans[r.icn / 10240]? with | some p => pan p | none => false) && (recFormats r).any f)

end Sys2Proof.Machine
end

