-- ==== Sys2Proof/Machine/Parts.lean ====
section
/-! DEFINITION. Partitions: creation, destruction, reset and query, the host window, and the debug binding that a reset ends
(14 R349 to R351; 15 R388 to R391; 11 R281; 16 R414, R420; 20 R494, R496). -/

namespace Sys2Proof.Machine

-- The debug log and the end of a binding -------------------------------------------------------------------------

/-- Writes an entry of the debug log: opcode, status, partition, grant, ARG0 to ARG2 and the CRC of what was written; the
oldest of 4,096 is overwritten (20 R496). -/
def logDebug (opc status k : Nat) (g : Option Grant) (a0 a1 a2 wcrc : Nat) (s : State) : State :=
  let e : LogEntry := {
    seq := s.logSeq, tc := north s % 2 ^ 48, opc := opc, status := status,
    grole := match g with | some g => g.role | none => 0
    gprin := match g with | some g => g.prin | none => 0
    part := k, tprin := (getPart s k).prin, pgen := (getPart s k).pgen
    keyid := match g with | some g => g.key.toNat | none => 0
    target := a1, a := a0, b := a2, wcrc := wcrc }
  let l := s.log ++ [e]
  { s with log := l.drop (l.length - 4096), logSeq := s.logSeq + 1 }

/-- A pending halt request is withdrawn: fetch goes on where the halt stopped it, and the watchdog of one that STALL requested
counts from 0 (20 R494; 15 R392; 07 R181). -/
def dropHalt (e : Env) (c : Core) : Core :=
  if !c.x.haltReq then c
  else
    let ws := waiting c
    { c with
      wcount := if c.x.stalled then 0 else c.wcount
      x := { c.x with
        haltReq := false
        stalled := false
        fetchAt := e.now + 1
        fetch := if ws.any (fun d => isEnd d.ins) || c.x.begun.any (fun b => isEnd b.ins) then .ended
          else if ws.any (fun d => pauses d.ins) then .paused
          else if foldActive c then .going else .stopped } }

/-- Withdraws the halt requests of the cores that meet a test, those still on their way included. -/
def dropHalts (p : Nat → Bool) (s : State) : State :=
  mapCores { s with haltSent := s.haltSent.filter (fun g => !p g) } (fun g _ => p g) (fun g c => dropHalt (envOf s g) c)

/-- A core in HALT resumes: into RUN, or into HOLD while the wafer or its partition is held; the watchdog of one halted by
STALL counts from 0 (02 R41, R42; 20 R488, R494). -/
def resumeCore (s : State) (g : Nat) : State :=
  let c := getCore s g
  if c.r.st ≠ .halt then s
  else
    let c1 := enterRun (envOf s g) false { c with wcount := if c.x.stalled then 0 else c.wcount }
    let held := s.tide.frozen || partHeld s g
    setCore s g (if held && decide (c1.r.st = .run) then { c1 with r := { c1.r with st := .hold } } else c1)

/-- The cores of a partition in HALT. -/
def haltedCores (s : State) (k : Nat) : List Nat :=
  (s.cores.filter (fun gc => inPart s k gc.1 && decide (gc.2.r.st = .halt))).map Prod.fst

/-- Completes a debug command that was in progress, with its log entry (20 R495, R496). -/
def finishDbg (k : Nat) (g : Grant) (d : DbgCmd) (status : Nat) (res : List Nat) (s : State) : State :=
  let a := fun (i : Nat) => d.args.getD i 0
  complete d.qp d.epoch d.cid status k (getPart s k).st.code res
    (logDebug d.opc status k (some g) (a 0) (a 1) (a 2) 0 s)

/-- The debug commands of a partition in progress complete with STATE (20 R495). -/
def stopDbg (k : Nat) (s : State) : State :=
  match (getPart s k).dbg with
  | none => s
  | some d =>
    d.cmds.foldl (fun s x => finishDbg k d.grant x stState [] s)
      (modPart s k (fun p => { p with dbg := some { d with cmds := [] }, runs := [] }))

/-- The effects of a detach: commands in progress end, comparators, counts and masks clear, pending halts are withdrawn, and
with resume the cores halted since the attachment run again (20 R494). -/
def detach (k : Nat) (resume : Bool) (s : State) : State :=
  match (getPart s k).dbg with
  | none => s
  | some d =>
    let s1 := stopDbg k s
    let s2 := { s1 with stations := tmapv Station.zero (fun i t =>
      if (getPan s1 (i / 150)).part = some k then { t with haltTc := none, runTc := none, mask := 0, bp := Vector.replicate 2 0 } else t) s1.stations }
    let s3 := dropHalts (inPart s k) s2
    let go := resume && (decide ((getPart s3 k).st = .running) || decide ((getPart s3 k).st = .held))
    let s4 := if go then ((haltedCores s3 k).filter (fun g => !d.halts.contains g)).foldl resumeCore s3 else s3
    modPart s4 k (fun p => { p with dbg := none, runs := [] })

/-- A debugger's binding ends: the debugger is detached, if it attached through this pair, which is logged, and the pair is
unbound (16 R420; 20 R494, R496). -/
def endPair (q : Nat) (s : State) : State :=
  match (getQp s q).grant with
  | none => s
  | some g =>
    let k := g.part
    let here := match (getPart s k).dbg with | some d => decide (d.qp = q) | none => false
    let s1 := if here then logDebug 0x39 stOK k (some g) 0 0 0 0 (detach k true s) else s
    setQp s1 q { getQp s1 q with role := 0, prin := 0, grant := none, sess := none }

/-- The debug bindings for a partition that meet a test end (16 R420). -/
def endBindings (k : Nat) (t : Grant → Bool) (s : State) : State :=
  ((List.range 33).filter (fun q => match (getQp s q).grant with
    | some g => decide (g.part = k) && t g
    | none => false)).foldl (fun s q => endPair q s) s

/-- A pair bound to a partition's debugger attached to it (20 R482). -/
def attachedAs (s : State) (c : Cmd) : Bool :=
  match (getPart s c.part).dbg with
  | some d => decide (d.qp = (c.qp : Nat))
  | none => false

-- Reset ----------------------------------------------------------------------------------------------------------

/-- What waits at or crosses to an edge link under a route tag is discarded; a credit comes back for each flit that had taken
one (11 R281; 12 R303; 13 R333). -/
def purgeEdge (b : Bound) (s : State) : State :=
  match b.edge with
  | none => s
  | some (g, k) =>
    let mine := fun (f : Flight) => decide (f.at_ = g) && decide (f.side = k) && (match f.x with | .data d => decide (d.rt = b.tag) | _ => false)
    let i := 4 * panOf g + (k : Nat)
    let sl := getSluice s i
    let r := getRouter s g
    let e := getEdge s (4 * g + (k : Nat))
    let tagged := fun (f : Flit) => decide (f.rt = b.tag)
    let inn := (sl.held.filter mine).length + (r.inp[k].filter tagged).length
    let out := (sl.out.filter mine).length + (e.inp.filter tagged).length
    let s1 := setSluice s i { sl with held := sl.held.filter (fun f => !mine f), out := sl.out.filter (fun f => !mine f) }
    let s2 := setRouter s1 g { r with inp := r.inp.set k (r.inp[k].filter (fun f => !tagged f)), used := r.used.set k (r.used[k] - out) }
    setEdge s2 (4 * g + (k : Nat)) { e with send := e.send.filter (fun f => !tagged f), inp := e.inp.filter (fun f => !tagged f), used := e.used - inn }

/-- The inputs that an owned output of a partition feeds: router and side (11 R281). -/
def fedInputs (s : State) (k : Nat) : List (Nat × Fin 4) :=
  s.routers.flatMap (fun gr => (List.finRange 4).filterMap (fun (o : Fin 4) =>
    if gr.2.own[o] = some k then (nbr gr.1 o).map (fun h => (h, opp o)) else none))

/-- Steps 1 to 3 of a partition reset: the cores stop and are zeroised, injection stops, streams and endpoints stop, the
inputs that owned outputs feed absorb what they hold (15 R388, R389; 11 R281; 12 R303; 13 R333). -/
def tearDown (k : Nat) (s : State) : State :=
  let p := getPart s k
  let s0 := stopDbg k s
  let s1 := mapCores { s0 with haltSent := s0.haltSent.filter (fun g => !inPart s0 k g) } (fun g _ => inPart s0 k g) (fun _ c => zeroise c)
  let s2 := (p.bound ++ p.spills ++ p.links).foldl (fun s b => purgeEdge b s) s1
  let s3 := stopChans k (mapCtxs k (fun _ => Ctx.zero) s2)
  let ins := fedInputs s3 k
  let s4 := ins.foldl (fun s gk => modRouter s gk.1 (fun r => { r with
    absorb := setBit r.absorb (gk.2 : Nat) true, absorbFrom := (getNode s (panOf gk.1)).steps + 1 })) s3
  modPart s4 k (fun p => { p with phase := 1, absorbs := ins, quietAt := north s, stopAt := north s, spillBuf := [], drainOf := [], loads := [], starts := none, reload := none, ends := none })

/-- A slot entry with a partition's fields cleared: the selects of outputs it owns, the local output and the local source of a
router in its pans, and the tags of inputs that nothing selects any more (11 R281). -/
def clearEntry (own : Vector (Option Nat) 4) (k : Nat) (here : Bool) (e : BitVec 64) : BitVec 64 :=
  let e1 := (List.finRange 4).foldl (fun e (o : Fin 4) => if own[o] = some k then setFld e (3 * (o : Nat)) 3 0 else e) e
  let e2 := if here then setFld e1 12 6 0 else e1
  let any := fun (e : BitVec 64) (c : Nat) => (List.range 4).any (fun o => decide (selOf e o = c)) || decide (lselOf e = c)
  let e3 := (List.range 4).foldl (fun e i => if any e (i + 1) then e else setFld e (20 + 6 * i) 6 0) e2
  if any e3 5 then e3 else setFld (setFld e3 18 2 0) 44 6 0

/-- A router with a partition's fields and ownership cleared (11 R281). -/
def clearRouter (k : Nat) (here : Bool) (r : Router) : Router :=
  if here || r.own.toList.contains (some k) then
    { r with slots := tmapv 0 (fun _ e => clearEntry r.own k here e) r.slots, own := r.own.map (fun o => if o = some k then none else o) }
  else r

/-- An engine with a partition's descriptors and contexts freed (12 R303). -/
def freeEngine (k : Nat) (e : Engine48) : Engine48 :=
  { e with
    descs := tmapv (0, 0) (fun i d => if i / 1024 = k then (0, 0) else d) e.descs
    ctxs := tmapv Ctx.zero (fun _ c => if c.part = some k then Ctx.zero else c) e.ctxs }

/-- A barrier object of a partition freed (15 R389). -/
def freeBar (k : Nat) (b : Option BarObj) : Option BarObj :=
  match b with
  | some b => if b.part = k then none else some b
  | none => none

/-- Step 4 and the last of R281: slot fields, RT_ABSORB and ownership clear, credit objects, barrier objects, endpoints and
buffers are freed, the guard state goes, the generation advances, and bindings of debuggers end (15 R389; 11 R281, R273;
06 R154; 16 R420). -/
def releaseAll (k : Nat) (s : State) : State :=
  let p := getPart s k
  let s1 := { s with routers := tmapv Router.zero (fun g r => clearRouter k (decide ((getPan s (panOf g)).part = some k)) r) s.routers }
  let s2 := p.absorbs.foldl (fun s gk => modRouter s gk.1 (fun r => { r with absorb := setBit r.absorb (gk.2 : Nat) false })) s1
  let s3 := freeFabric k { s2 with
    bars := tmapv none (fun _ b => freeBar k b) s2.bars
    engs := tmapv Engine48.zero (fun _ e => freeEngine k e) s2.engs
    ctlIn := s2.ctlIn.filter (fun m => decide (m.2.part ≠ k)) }
  let s4 := p.pans.foldl (fun s x => modColl s x (fun _ => Collector.zero)) s3
  let s5 := endBindings k (fun _ => true) s4
  modPart s5 k (fun p => { Part.zero with
    st := p.st, prin := p.prin, pans := p.pans, pgen := (p.pgen + 1) % 8, endCode := p.endCode, loadQp := p.loadQp, seed := p.seed,
    ending := p.ending, fault := if p.ending then p.fault else none, long := p.long, waits := p.waits, stopAt := p.stopAt, phase := 2, granules := p.granules,
    window := p.window, xts := p.xts, xtsOwn := p.xtsOwn, keyid := p.keyid })

/-- Whether the rake has had its 12,288 steps for the clusters of a partition, and every absorbed input of a live pan has been
empty for one period (11 R281; 15 R389, R390). -/
def absorbQuiet (s : State) (k : Nat) : Bool :=
  let p := getPart s k
  decide (p.phase = 1) && !s.tide.frozen && decide (p.quietAt + period s ≤ north s) && decide (p.stopAt + 12288 ≤ north s) &&
  p.absorbs.all (fun gk => !panLive s (panOf gk.1) || (getRouter s gk.1).inp[gk.2].isEmpty)

/-- The window of a partition closes (16 R414). -/
def closeWindow (k : Nat) (s : State) : State := modPart s k (fun p => { p with window := .zero })

/-- ABSORB_QUIET: the zeroised cores have been read back and the absorbed buffers have been empty for a period: the mesh fields and the partition's objects are released;
a save keeps its records, key and bindings of its job (11 R281; 15 R389, R392; 16 R422). -/
def execAbsorbQuiet (k : Fin 32) (s : State) : Out :=
  .next (if !absorbQuiet s k then s
    else
      let s0 := readback (inPart s k) s
      let p := getPart s0 k
      let s1 := releaseAll k s0
      match p.long with
      | some l =>
        if l.kind = .save then modPart s1 k (fun q => { q with saved := p.saved, jk := p.jk, staged := p.staged }) else s1
      | none => s1)

/-- Begins a partition reset, or the reset that a destroy makes (15 R389, R391). -/
def beginReset (k : Nat) (l : Long) (s : State) : State :=
  newJobRate (tearDown k (modPart s k (fun p => { p with st := .draining, long := some l, ending := false, window := .zero })))

/-- The last steps of PART_DESTROY: the keys, the granules and the pans are let go; the generation advances; the meter ends
(15 R391; 18 R457). -/
def finishDestroy (k : Nat) (s : State) : State :=
  let p := getPart s k
  let s1 := p.pans.foldl (fun s x => setPan s x { getPan s x with part := none }) s
  let s2 := endBindings k (fun _ => true) s1
  let s3 := { s2 with engs := tmapv Engine48.zero (fun _ e => { e with owner := tmapv 0 (fun _ o => if o = k + 1 then 0 else o) e.owner }) s2.engs }
  setPart (modMeter s3 k (fun _ => Meter.zero)) k { Part.zero with pgen := (p.pgen + 1) % 8, long := p.long, waits := p.waits }

/-- What PART_DESTROY and PART_RESET do once nothing holds them: the state in which they find the partition decides
(14 Table 14-8; 15 R389, R391). -/
def applyReset (k : Nat) (l : Long) (s : State) : State :=
  let st := (getPart s k).st
  let refuse := fun (s : State) => complete l.qp l.epoch l.cid stState k (getPart s k).st.code [] s
  match l.kind with
  | .destroy =>
    if st = .empty then
      let s1 := finishDestroy k s
      complete l.qp l.epoch l.cid stOK k (getPart s1 k).st.code [] s1
    else if [PSt.ready, .saved, .faulted].contains st then beginReset k l s
    else refuse s
  | _ => if [PSt.ready, .running, .held, .saved, .faulted].contains st then beginReset k l s else refuse s

/-- PART_RESET_COMPLETE: a reset whose mesh is released enters EMPTY and completes, and a destroy goes on to its end; a reset
or destroy that waited for a long command is checked and begins (15 R389, R391; 14 R352). -/
def execPartResetComplete (k : Fin 32) (s : State) : Out :=
  let p := getPart s k
  .next (match p.long with
    | some l =>
      if p.phase ≠ 2 ∨ s.tide.frozen ∨ (l.kind ≠ .reset ∧ l.kind ≠ .abort ∧ l.kind ≠ .destroy) then s
      else
        let s1 := modPart s k (fun p => { p with st := .empty, phase := 0, ending := false })
        if l.kind = .destroy then completeLong k stOK [] (finishDestroy k s1) else newJobRate (completeLong k stOK [] s1)
    | none =>
      match p.waits with
      | l :: rest => if p.st = .draining then s else applyReset k l (modPart s k (fun p => { p with waits := rest }))
      | [] => s)

-- Commands on partitions -----------------------------------------------------------------------------------------

/-- The pans that a mask of 96 bits in ARG0 to ARG2 names, ascending (14 Table 14-9). -/
def maskPans (c : Cmd) : List Nat := (List.range 96).filter (fun p => (c.args.toList.getD (p / 32) 0).getLsbD (p % 32))

/-- Whether a pan is under test (19 R473). -/
def underTest (s : State) (p : Nat) : Bool := (tget TestPan.zero s.rel.pans p).run

/-- The licensed number of partitions; the smallest variant's until a licence is installed (21 R504). -/
def licParts (s : State) : Nat := match s.sec.licence with | some l => l.parts | none => 1

/-- The number of a pair that the security block draws, one that no pair had before; the pair itself is a free value (12 R292). -/
def freshKey (s : State) : Nat × State := (2 * s.free + 2, { s with free := s.free + 1 })
/-- A number that the security block draws: a free value. -/
def drawn (s : State) : Nat × State := (Config.freeNat s.free, { s with free := s.free + 1 })

/-- PART_CREATE: the checks of R350 and R383; the partition is EMPTY with its pans, principal, key pair, meter and next
generation. It waits while a pan it names is under test (14 R350; 16 R398; 19 R473, R474). -/
def execPartCreate (c : Cmd) (s : State) : Out :=
  let pans := maskPans c
  let k : Nat := c.part
  let prin := argFld c 3 0 8
  if pans.any (underTest s) then .next s
  else runCmd 0x10 false c (fun s =>
    [(badForm c false false false [all32, all32, all32, 0xFF], stFormat), (!isO s c, stAuth),
     (decide (licParts s ≤ ((List.range 32).filter (fun j => decide ((getPart s j).st ≠ .none))).length), stLicence),
     (tooEarly s || decide ((getPart s k).st ≠ .none) || (decide (prin ≠ 0) && (tget none s.sec.enrol prin).isNone) ||
        pans.any (fun p => panLive s p && (getPan s p).num.isNone), stState),
     (pans.isEmpty, stBounds), (pans.any (fun p => !panLive s p || (tget TestPan.zero s.rel.pans p).quar), stPanDark),
     (pans.any (fun p => (getPan s p).part.isSome), stFit)])
    (fun s =>
      let (x, s1) := freshKey s
      let s2 := pans.foldl (fun s p => setPan s p { getPan s p with part := some k }) s1
      let s3 := setPart s2 k { Part.zero with st := .empty, prin := prin, pans := pans, pgen := ((getPart s k).pgen + 1) % 8, xts := x }
      .done stOK [] (modMeter s3 k (fun _ => { Meter.zero with ticks := nextSecond s }))) s

/-- A reset or destroy is taken: it waits while a long command is in progress or the partition drains, else begins at once
(14 R352; 15 R389). -/
def takeReset (l : Long) (k : Nat) (s : State) : Reply :=
  let p := getPart s k
  if p.long.isSome ∨ p.st = .draining ∨ p.st = .loading then .later (modPart s k (fun p => { p with waits := p.waits ++ [l] }))
  else .later (applyReset k l s)

/-- PART_DESTROY (15 R391; 14 R352). It waits while a pan is under test (19 R473). -/
def execPartDestroy (c : Cmd) (s : State) : Out :=
  if (getPart s c.part).pans.any (underTest s) then .next s
  else runCmd 0x11 false c (fun s =>
    [(badForm c false false false [], stFormat), (!isO s c, stAuth),
     (tooEarly s || (!longBusy s c && !inSt s c [.empty, .ready, .saved, .faulted]) || decide ((getPart s c.part).st = .none), stState)])
    (fun s => takeReset (longOf .destroy c [] [] s) c.part s) s

/-- PART_RESET: the partition drains and is zeroised back to EMPTY (15 R389; 14 R352). -/
def execPartReset (c : Cmd) (s : State) : Out :=
  runCmd 0x12 false c (fun s =>
    [(badForm c false false false [], stFormat), (!(isO s c || isT s c), stAuth),
     (tooEarly s || !inSt s c [.ready, .running, .held, .saved, .faulted, .loading, .draining], stState)])
    (fun s => takeReset (longOf .reset c [] [] s) c.part s) s

/-- PART_QUERY: the completion itself reports the partition's state (14 Table 14-8). -/
def execPartQuery (c : Cmd) (s : State) : Out :=
  runCmd 0x13 false c (fun s =>
    [(badForm c false false false [], stFormat), (!(isO s c || isT s c), stAuth)])
    (fun s => .done stOK [] s) s

/-- The states in which a window opens and closes: every one but LOADING and DRAINING (14 Table 14-8). -/
def windowSt (s : State) (c : Cmd) : Bool := inSt s c [.empty, .ready, .running, .held, .saved, .faulted]

/-- WINDOW_OPEN: the partition's window opens to a source, in PLAIN mode only with CXL.mem IDE (16 R414). -/
def execWindowOpen (c : Cmd) (s : State) : Out :=
  runCmd 0x14 false c (fun s =>
    [(badForm c false false false [3, 0x1FFF], stFormat), (!isT s c, stAuth),
     (tooEarly s || !windowSt s c || (decide (argFld c 0 0 1 = 0) && !s.sec.ideMem), stState)])
    (fun s => .done stOK [] (modPart s c.part (fun p => { p with
      window := ⟨true, decide (argFld c 0 0 1 = 1), decide (argFld c 0 1 1 = 1), decide (argFld c 1 12 1 = 1), argFld c 1 0 12, c.qp⟩ }))) s

/-- WINDOW_CLOSE (16 R414). -/
def execWindowClose (c : Cmd) (s : State) : Out :=
  runCmd 0x15 false c (fun s =>
    [(badForm c false false false [], stFormat), (!isT s c, stAuth), (tooEarly s || !windowSt s c, stState)])
    (fun s => .done stOK [] (closeWindow c.part s)) s

end Sys2Proof.Machine
end

