-- ==== Sys2Proof/Machine/Load.lean ====
section
/-! DEFINITION. Loading a job: JOB_LOAD and its checks, the binding of an admitted image, the loader tiles, and the completion
of a load (14 R356 to R368; 15 R377; 16 R411 to R416). -/

namespace Sys2Proof.Machine

-- What an image becomes on the module ----------------------------------------------------------------------------

/-- An image core as a core number; the checks have found it in the partition. -/
def coreOf (s : State) (k icn : Nat) : Nat := (imageCore s k icn).getD 0

/-- The logical ID that a relocation writes for an image core (14 R365). -/
def relocLid (s : State) (k icn : Nat) : Nat := (lidOf s (coreOf s k icn)).getD 0

/-- The SRAM bytes of a core record: its chunks, then its relocated words (14 R359, R365). -/
def recSram (s : State) (k : Nat) (im : Image) (r : CoreRec) : Mem :=
  let m := r.chunks.foldl (fun m c => mwrite m c.1 c.2.2) []
  (im.relocs.filter (fun x => decide (x.1 = r.icn))).foldl (fun m x =>
    let w : Word := BitVec.ofNat 32 (leAt (mread m x.2 4) 0 4)
    mwrite m x.2 (bytesOf (setFld w 0 20 (relocLid s k (fld w 0 20))) 4)) m

/-- A core as its record describes it (14 Table 14-13). -/
def recCore (s : State) (k : Nat) (im : Image) (r : CoreRec) : Core :=
  { Core.zero with
    r := { CoreRegs.zero with st := .loaded }
    stallW := r.stallW
    flags := r.flags
    ch := Vector.ofFn (fun (i : Fin 16) => ((r.ch.getD i 0).extractLsb' 0 16, (r.ch.getD i 0).extractLsb' 16 16))
    sram := recSram s k im r
    folds := Vector.ofFn (fun (i : Fin 8) => ((r.folds.find? (fun f => decide (f.1 = (i : Nat)))).map Prod.snd).getD 0)
    su := Vector.ofFn (fun (i : Fin 4) => ((r.units.find? (fun u => decide (u.1 = (i : Nat)))).map Prod.snd).getD 0) }

/-- The loader tiles of a core: the pieces of its image that are not all zero, each with the tries made so far. A cleared core
holds zero already. -/
def coreLoads (g : Nat) (c : Core) : List (Nat × Nat × List Byte × Nat) :=
  ((pieces 23 0 (imageRead c 0 imageLen)).filter (fun p => p.2.any (fun b => decide (b ≠ 0)))).map (fun p => (g, p.1, p.2, 0))

/-- The members of the guard group on this module. -/
def memberCores (s : State) (k : Nat) (im : Image) : List Nat := (im.cores.filter isMember).map (fun r => coreOf s k r.icn)

-- Binding an image -----------------------------------------------------------------------------------------------

/-- The edge position of a job endpoint: the edge positions of the partition's pans in order, one for each endpoint of the job
(13 R313). -/
def epPosition (s : State) (k : Nat) (im : Image) (ep : Nat) : Option (Nat × Fin 4) :=
  let ps := edgePositions (getPart s k).pans
  if ps.isEmpty then none else ps[((firstIdx (· = ep) (jobEps s im)).getD 0) % ps.length]?

/-- The destinations of a route that ends at cores. -/
def coreDests (s : State) (k : Nat) (ds : List (Nat × Nat)) : List (Nat × Option (Fin 4) × Option Nat) :=
  ds.map (fun d => (coreOf s k d.1, none, some d.2))

/-- What a route of ROUTES binds, with the edge position where it enters from a stream engine (11 R278). -/
def routeReq (s : State) (k : Nat) (r : RouteRec) : Req × Option (Nat × Fin 4) :=
  match r.eng with
  | some e =>
    let p := engineRouter e (coreOf s k ((r.dests.headD (0, 0)).1))
    (⟨p.1, p.2, 0, coreDests s k r.dests, r.sppm1, r.first⟩, some p)
  | none => (⟨coreOf s k r.src, 4, r.oq, coreDests s k r.dests, r.sppm1, r.first⟩, none)

/-- What a spill route binds: from a core to the edge router of its engine (14 R361). -/
def spillReq (s : State) (k : Nat) (r : RouteRec) : Req × Option (Nat × Fin 4) :=
  let g := coreOf s k r.src
  let p := engineRouter (r.eng.getD 0) g
  (⟨g, 4, r.oq, [(p.1, some p.2, none)], r.sppm1, r.first⟩, some p)

/-- The endpoint of a channel on this module. -/
def chanEp (s : State) (im : Image) (c : ChanRec) : Nat := ((im.ranks[c.lrank]?).bind (rankEp s.modnum)).getD 0

/-- What a channel's mesh route binds, none where the partition has no edge pan (13 R315). -/
def chanReq (s : State) (k : Nat) (im : Image) (c : ChanRec) : Option (Req × Option (Nat × Fin 4)) :=
  (epPosition s k im (chanEp s im c)).map (fun p =>
    if c.recv then (⟨p.1, p.2, 0, coreDests s k c.dests, c.sppm1, c.first⟩, some p)
    else (⟨coreOf s k c.src, 4, c.oq, [(p.1, some p.2, none)], c.sppm1, c.first⟩, some p))

/-- Binds a list of routes in order; a failure answers its reason, its index in the list and the router (11 R278, R279). -/
def bindList (k policy limg : Nat) : List (Option (Req × Option (Nat × Fin 4))) → Nat → List Bound → State →
    Except (List Nat) (List Bound × State)
  | [], _, acc, s => .ok (acc, s)
  | none :: _, i, _, _ => .error [7, i, 0]
  | some (r, e) :: rest, i, acc, s =>
    match bindRoute k policy limg r s with
    | .error (reason, g) => .error [reason, i, g]
    | .ok (tag, _, s1) => bindList k policy limg rest (i + 1) (acc ++ [⟨tag, e⟩]) s1

/-- The routes, spill routes and channel routes of an image bound for a partition. -/
def bindImage (k : Nat) (im : Image) (s : State) : Except (List Nat) State :=
  let l := 2 ^ im.limg
  match bindList k im.policy l (im.routes.map (fun r => some (routeReq s k r))) 0 [] s with
  | .error e => .error e
  | .ok (rs, s1) =>
    match bindList k im.policy l (im.spills.map (fun r => some (spillReq s k r))) 0 [] s1 with
    | .error e => .error e
    | .ok (ss, s2) =>
      match bindList k im.policy l (im.chans.map (chanReq s k im)) 0 [] s2 with
      | .error e => .error e
      | .ok (cs, s3) =>
        .ok (modPart s3 k (fun p => { p with
          bound := rs, spills := ss, links := cs, spillBuf := im.spills.map (fun _ => []) }))

/-- The lowest free credit object. -/
def freeChan (s : State) : Option Nat := (List.range 4096).find? (fun i => (getChan s i).isNone)

/-- A credit object for a channel, at the lowest free index (09 R228). -/
def allotChan (s : State) (c : Chan) : State :=
  match freeChan s with
  | some i => setChan s i (some c)
  | none => s

/-- Credit objects for channels, in order (09 R228). -/
def allotChans (cs : List Chan) (s : State) : State := cs.foldl allotChan s

/-- The channel of a declaration with its bound route (09 Table 9-4; 13 R315). -/
def newChan (s : State) (k : Nat) (im : Image) (c : ChanRec) (b : Bound) : Chan :=
  { recv := c.recv, part := k, bufm1 := c.bufm1, cr := BitVec.ofNat 32 (c.bufm1 + 1)
    peer := fld (im.ranks.getD c.prank 0) 0 24, chn := c.chn, ep := chanEp s im c, tag := b.tag
    edge := match b.edge with | some p => 4 * p.1 + (p.2 : Nat) | none => 0
    next := 0, out := 0, tok := [], tx := [], rx := [], alt := none, stop := false }

/-- The endpoints of the job become the partition's (13 R314). -/
def takeEps (k : Nat) (im : Image) (s : State) : State :=
  (jobEps s im).foldl (fun s e => setEp s e { getEp s e with
    part := some k
    edge := match epPosition s k im e with | some p => 4 * p.1 + (p.2 : Nat) | none => 0 }) s

/-- A barrier object, at the lowest free index (09 R231). -/
def allotBar (s : State) (b : BarObj) : State :=
  match (List.range 256).find? (fun i => (getBar s i).isNone) with
  | some i => setBar s i (some b)
  | none => s

/-- Barrier objects, in order (09 R231). -/
def allotBars (bs : List BarObj) (s : State) : State := bs.foldl allotBar s

/-- The barrier object of a record (14 R364; 09 Table 9-5). -/
def newBar (s : State) (k : Nat) (b : BarRec) : BarObj :=
  { part := k, bnum := b.bnum, home := decide (b.home = s.modnum), lcm1 := b.cores.length - 1, arrived := 0, flag := 0
    fset := false, gen := 0, modm1 := b.modm1, marr := 0, homemod := b.home, members := b.cores.map (coreOf s k), record := [] }

/-- An engine's descriptors of a partition written to its store, under the partition's number (12 R293). -/
def putDescs (k : Nat) (im : Image) (s : State) : State :=
  (List.range 48).foldl (fun s e =>
    ((engDescs im.descs e).zipIdx).foldl (fun s di =>
      setEng s e { getEng s e with descs := tset (0, 0) (getEng s e).descs (k * 1024 + di.2) (k + 1, di.1) }) s) s

/-- The contexts of the bindings, each bound to its first descriptor and not yet armed (12 R293, Table 12-3). -/
def putCtxs (k : Nat) (im : Image) (s : State) : State :=
  im.binds.foldl (fun s b => setCtx s b.1 b.2.1 { Ctx.zero with part := some k, first := k * 1024 + b.2.2, idx := k * 1024 + b.2.2 }) s

/-- The partition's granules released, and as many as the image asks allotted anew, the lowest free ones first; the window
closes (12 R289; 14 R367; 16 R414). -/
def allotGranules (k : Nat) (im : Image) (s : State) : State :=
  let s1 := (List.range 48).foldl (fun s e =>
    let en := getEng s e
    let kept := tmapv 0 (fun _ o => if o = k + 1 then 0 else o) en.owner
    let got := ((List.range 63).filter (fun g => decide (tget 0 kept g = 0))).take (im.gc.getD e 0)
    let s2 := setEng s e { en with owner := got.foldl (fun t g => tset 0 t g (k + 1)) kept }
    modPart s2 k (fun p => { p with granules := setIdx e got p.granules })) s
  closeWindow k s1

/-- The member counts that the loader sets for the guard: each pan's collector and the module's guard unit (06 R146, R150;
11 R271). -/
def setMembers (k : Nat) (im : Image) (s : State) : State :=
  let ms := memberCores s k im
  let s1 := (getPart s k).pans.foldl (fun s p =>
    modColl s p (fun _ => { Collector.zero with members := (ms.filter (fun g => decide (panOf g = p))).length })) s
  modPart s1 k (fun p => { p with guard := { GuardUnit.zero with members := ms.length, ls := BitVec.ofNat 8 (fld im.guard 0 8) } })

-- JOB_LOAD -------------------------------------------------------------------------------------------------------

/-- The bytes of the buffer that a bundle is read from. -/
def bufOf (c : Cmd) : List Byte := c.data.take c.bufLen.toNat

/-- The bundle of a JOB_LOAD. -/
def bundleOf (s : State) (c : Cmd) : Option Bundle := readBundle s.modnum c.bufLen.toNat (bufOf c)

/-- The job key of a bundle, where it carries one that passes (16 R412, R413). -/
def loadKey (s : State) (c : Cmd) (im : Image) : Option JobKey :=
  if im.jobkey.isEmpty then none else openKey s c.part true im.jobkey

/-- KEEPMEM of a JOB_LOAD. -/
def keepMem (c : Cmd) : Bool := decide (argFld c 2 0 1 = 1)

/-- What AUTH refuses beside the principal: a JOBKEY that does not unwrap, and with KEEPMEM a pair that is not the one in
force (16 R412, R413). -/
def keyBad (s : State) (c : Cmd) (im : Image) : Bool :=
  !im.jobkey.isEmpty && (match loadKey s c im with
    | none => true
    | some x => keepMem c && (match x.xts with | some n => decide (n ≠ (getPart s c.part).xts) | none => false))

/-- Whether the key service is licensed (16 R412). -/
def licKeys (s : State) : Bool := match s.sec.licence with | some l => l.keySvc | none => false

/-- What LICENCE refuses: 4-bit formats, or a tenant pair without the key service (03 R92; 16 R412). -/
def licenceBad (s : State) (c : Cmd) (im : Image) : Bool :=
  (!licensed4 s && usesFormat s c.part im (fun f => decide (f.width = 4)) (fun _ => true)) ||
  (!licKeys s && decide (leAt im.jobkey 1 1 = 1))

/-- Short formats on a pan that has not enabled them (03 R92; 15 R383). -/
def earlyBad (s : State) (c : Cmd) (im : Image) : Bool := usesFormat s c.part im TileFmt.short (fun p => !(getPan s p).shortOn)

/-- The checks of JOB_LOAD up to PAN_DARK (14 R366). -/
def loadChecks (c : Cmd) (s : State) : List (Bool × Nat) :=
  let im? := (bundleOf s c).map Bundle.image
  let on := fun (f : Image → Bool) => match im? with | some im => f im | none => false
  [(badForm c false false true [all32, all32, 1] || im?.isNone, stFormat),
   (!isT s c || on (keyBad s c), stAuth),
   (on (licenceBad s c), stLicence),
   (tooEarly s || !inSt s c [.empty] || on (earlyBad s c), stState),
   (on (boundsBad s c.part), stBounds),
   ((getPart s c.part).pans.any (panUnfit s), stPanDark)]

/-- An image admitted: everything that a load binds and allots, with the cores' tiles to come. -/
def admitImage (k : Nat) (im : Image) (s : State) : State :=
  let s1 := takeEps k im (putCtxs k im (putDescs k im s))
  let cs := (im.chans.zip (getPart s1 k).links).map (fun cb => newChan s1 k im cb.1 cb.2)
  setMembers k im (allotBars (im.bars.map (newBar s1 k)) (allotChans cs s1))

/-- A tenant's partition that leaves EMPTY ends the operator's debug bindings for it (16 R420). -/
def leaveEmpty (k : Nat) (s : State) : State :=
  if (getPart s k).prin = 0 then s else endBindings k (fun g => decide (g.role = 1)) s

/-- JOB_LOAD's effect once every check has passed: keys, granules, objects and routes of the job, and the loader begins
(14 R366, R367; 16 R413, R416). -/
def beginLoad (c : Cmd) (im : Image) (key : Option JobKey) (s : State) : State :=
  let k : Nat := c.part
  let s1 := leaveEmpty k s
  let s2 := if keepMem c then s1 else allotGranules k im s1
  let s3 := admitImage k im s2
  let own := key.bind JobKey.xts
  modPart { s3 with sec := { s3.sec with keyids := key.toList.map JobKey.keyid ++ s3.sec.keyids } } k (fun p => { p with
    st := .loading, image := some im, loadQp := some (c.qp, (getQp s c.qp).epoch), seed := BitVec.ofNat 64 (arg c 0 + arg c 1 * 2 ^ 32)
    long := some (longOf .load c [] [] s), loads := im.cores.flatMap (fun r => coreLoads (coreOf s3 k r.icn) (recCore s3 k im r))
    xts := own.getD p.xts, xtsOwn := p.xtsOwn || own.isSome, jk := key.map JobKey.jk
    keyid := match key with | some x => x.keyid | none => 0
    staged := none, fault := none, chain := 0, periods := 0, closed := [], chains := [], restored := false, starts := none })

/-- JOB_LOAD. It waits while a pan of the partition is under test (14 R366, R367; 19 R473). -/
def execJobLoad (c : Cmd) (s : State) : Out :=
  if (getPart s c.part).pans.any (underTest s) then .next s
  else runCmd 0x20 false c (loadChecks c)
    (fun s =>
      match bundleOf s c with
      | none => .done stFormat [] s
      | some b =>
        match fitBad s c.part (keepMem c) b with
        | some r => .done stFit r s
        | none =>
          match bindImage c.part b.image s with
          | .error r => .done stFit r s
          | .ok s1 => if longBusy s c then .done stBusy [] s else .later (beginLoad c b.image (loadKey s c b.image) s1)) s

-- The loader ----------------------------------------------------------------------------------------------------

/-- Whether the rake station takes loader tiles for a core (15 R377). -/
def takesTiles (c : Core) : Bool := decide (c.r.st = .clear) || decide (c.r.st = .loaded) || decide (c.r.st = .halt)

/-- A load that ends with POISON: what it bound is released; a load leaves the partition EMPTY, a restore leaves it SAVED
(15 R377, R393). -/
def loadFailed (k : Nat) (s : State) : State :=
  let p := getPart s k
  let st := if (longIs s k .restore).isSome then PSt.saved else PSt.empty
  let s1 := releaseAll k (mapCores s (fun g _ => inPart s k g) (fun _ c => zeroise c))
  let s2 := modPart s1 k (fun q => { q with
    st := st, phase := 0, saved := p.saved, jk := if st = .saved then p.jk else none, staged := p.staged })
  readback (inPart s k) (newJobRate (completeLong k stPoison [] s2))

/-- LOADER_TILE: a rake station takes a loader tile and writes it at its place in the context image, or the controller sends
it again, at most 3 times; ok says that the tile passed its checks (15 R377). -/
def execLoaderTile (g : Nat) (ok : Bool) (s : State) : Out :=
  if numCores ≤ g then .fault .noSuchUnit
  else
    let k := ((getPan s (panOf g)).part).getD 32
    let p := getPart s k
    let c := getCore s g
    .next (match p.loads.find? (fun l => decide (l.1 = g)) with
      | none => s
      | some l =>
        if !takesTiles c || s.tide.frozen then s
        else if ok && !l.2.2.1.isEmpty then
          modPart (setCore s g (rakeMark (envOf s g).now l.2.1 l.2.2.1.length (imageWrite l.2.1 l.2.2.1 c))) k (fun p => { p with loads := p.loads.erase l })
        else if 3 ≤ l.2.2.2 then loadFailed k s
        else modPart s k (fun p => { p with loads := p.loads.map (fun x => if x = l then (l.1, l.2.1, l.2.2.1, l.2.2.2 + 1) else x) }))

/-- A core at the end of a load: JOB_SEED in every core, LS_INIT in the members, and LOADED (14 R367; 06 R148, R160). -/
def loadedCore (s : State) (k : Nat) (im : Image) (s1 : State) (r : CoreRec) : State :=
  let g := coreOf s k r.icn
  let c := getCore s1 g
  setCore s1 g { c with
    r := { c.r with st := .loaded }
    seed := (getPart s k).seed
    guard := if isMember r then setFld c.guard 8 8 (fld im.guard 0 8) else c.guard }

/-- The contexts of a partition armed (14 R367; 12 Table 12-3). -/
def armCtxs (k : Nat) (s : State) : State := mapCtxs k (fun c => { c with st := .armed }) s

/-- JOB_LOAD_COMPLETE: the bundle is written: the cores are LOADED, the contexts ARMED, the partition READY (14 R367, R368). -/
def execJobLoadComplete (k : Fin 32) (s : State) : Out :=
  let p := getPart s k
  .next (match longIs s k .load, p.image with
    | some _, some im =>
      if p.loads.isEmpty && !s.tide.frozen then
        let s1 := armCtxs k (im.cores.foldl (loadedCore s k im) s)
        newJobRate (completeLong k stOK [] (modPart s1 k (fun p => { p with st := .ready })))
      else s
    | _, _ => s)

end Sys2Proof.Machine
end

