-- ==== Sys2Proof/Machine/Jobs.lean ====
section
/-! DEFINITION. Commands on a loaded job: start, hold, resume, abort, status, flags, and the end of a job with OK (14 R351 to
R355; 09 R220; 15 R391; 11 R512). -/

namespace Sys2Proof.Machine

/-- Gives every LOADED core of a partition a start count. -/
def orderStart (k T : Nat) (s : State) : State :=
  mapCores s (fun g c => inPart s k g && decide (c.r.st = .loaded)) (fun _ c => { c with x := { c.x with commit := some T } })

/-- The state in which a started partition stands: HELD with the cause PARK while the module is parked (14 R351; 18 R450). -/
def startedPart (s : State) (p : Part) : Part :=
  if s.power.parked then { p with st := .held, holdPark := true, holdHost := false }
  else { p with st := .running, holdPark := false, holdHost := false }

/-- JOB_START: the cores enter RUN at once, or at the target count, which a COMMIT carries to them (14 R355). -/
def execJobStart (c : Cmd) (s : State) : Out :=
  let k : Nat := c.part
  runCmd 0x21 false c (fun s =>
    [(badForm c false true false [], stFormat), (!isT s c, stAuth), (tooEarly s || !inSt s c [.ready], stState),
     (decide (c.tc ≠ 0) && (!isAhead s c.tc || decide (aheadBy s c.tc < 8192) || decide (2 ^ 32 < aheadBy s c.tc)), stBounds),
     (longBusy s c, stBusy)])
    (fun s =>
      let s1 := modPart s k (startedPart s)
      if c.tc = 0 then
        let s2 := orderStart k 0 s1
        .done stOK [] (if s.tide.frozen then s2 else startCores k s2)
      else
        let T := stepOf s c.tc
        .later (broadcast (modPart s1 k (fun p => { p with starts := some T, long := some (longOf .start c [T] [] s) })) k (.commit T))) s

/-- JOB_HOLD: the hold cause HOST (14 R351). -/
def execJobHold (c : Cmd) (s : State) : Out :=
  runCmd 0x22 false c (fun s =>
    [(badForm c false false false [], stFormat), (!(isO s c || isT s c), stAuth), (tooEarly s || !inSt s c [.running], stState)])
    (fun s => .done stOK [] (hostHold c.part s)) s

/-- JOB_RESUME: HOST clears; with PARK still set it completes with BUSY and changes nothing (14 R351). -/
def execJobResume (c : Cmd) (s : State) : Out :=
  let k : Nat := c.part
  runCmd 0x23 false c (fun s =>
    [(badForm c false false false [], stFormat), (!(isO s c || isT s c), stAuth), (tooEarly s || !inSt s c [.held], stState),
     ((getPart s k).holdPark, stBusy)])
    (fun s => .done stOK [] (thaw (inPart s k) (modPart s k (fun p => { p with st := .running, holdHost := false })))) s

/-- JOB_ABORT: the partition is reset, and this completion is the only report; a long command in progress completes with STATE
(15 R391). -/
def execJobAbort (c : Cmd) (s : State) : Out :=
  runCmd 0x24 false c (fun s =>
    [(badForm c false false false [], stFormat), (!isT s c, stAuth), (tooEarly s || !inSt s c [.ready, .running, .held], stState)])
    (fun s => .later (beginReset c.part (longOf .abort c [] [] s) (completeLong c.part stState [] s))) s

/-- JOB_STATUS: guard steps, skips, LS_EXP, the last end code and the hold causes (14 Table 14-9). -/
def execJobStatus (c : Cmd) (s : State) : Out :=
  runCmd 0x2A false c (fun s =>
    [(badForm c false false false [], stFormat), (!(isO s c || isT s c), stAuth),
     (tooEarly s || decide ((getPart s c.part).st = .none), stState)])
    (fun s =>
      let p := getPart s c.part
      .done stOK [p.guard.steps % 2 ^ 32, p.guard.skipped % 2 ^ 32, p.guard.ls.toNat + p.endCode * 256, p.holdHost.toNat + 2 * p.holdPark.toNat] s) s

/-- FLAG_SET: the controller sends a FLAG_SET message to an image core (09 R220; 11 R512). -/
def execFlagSetCommand (c : Cmd) (s : State) : Out :=
  let k : Nat := c.part
  let icn := argFld c 0 0 20
  runCmd 0x2B false c (fun s =>
    [(badForm c false false false [0xFFFFF, 0x3F], stFormat), (!isT s c, stAuth),
     (tooEarly s || !inSt s c [.ready, .running, .held], stState), ((imageCore s k icn).isNone, stBounds)])
    (fun s => .done stOK [] (sendCore s k (coreOf s k icn) (.flagSet (Fin.ofNat 64 (argFld c 1 0 6))))) s

-- What is still on its way ---------------------------------------------------------------------------------------

/-- Whether a message is a partition's. -/
def msgOf (k : Nat) (m : Msg) : Bool := decide (m.part = k)

/-- Whether every control slot queue of a partition is empty and every message sent from it has been applied (09 R235). -/
def messagesDone (s : State) (k : Nat) : Bool :=
  let ctl := fun (f : Flight) => match f.x with | .ctl m => msgOf k m.msg | _ => false
  s.cores.all (fun gc => !inPart s k gc.1 || (gc.2.x.ctl.isEmpty && gc.2.x.urgent.isEmpty)) &&
  s.routers.all (fun gr => gr.2.lanes.toList.all (fun l => !l.any (fun m => msgOf k m.msg)) && !gr.2.port.any (fun m => msgOf k m.2.msg)) &&
  s.sluices.all (fun x => !x.2.held.any ctl && !x.2.out.any ctl) && s.edges.all (fun x => !x.2.ctl.any (fun m => msgOf k m.msg)) &&
  s.pans.all (fun x => !x.2.coll.inbox.any (msgOf k)) && !s.ctlIn.any (fun m => msgOf k m.2)

-- The end of a job with OK ---------------------------------------------------------------------------------------

/-- Whether a job that has reached its end barrier may be torn down: its spill streams are drained, or their bound has passed,
and its credit objects are settled, or 100 µs have passed (14 R354; 09 R235). -/
def endReady (s : State) (k : Nat) : Bool :=
  let p := getPart s k
  let late := decide (p.stopAt + 16777216 ≤ north s)
  (drainedSpills s k || late) && (settledChans s k || late)

/-- JOB_END_OK_COMPLETE: after the drains the partition is zeroised by a reset from its step 2; once its mesh is released it
enters EMPTY, and JOB_END is posted (14 R354, R368; 15 R389). -/
def execJobEndOkComplete (k : Fin 32) (s : State) : Out :=
  let p := getPart s k
  .next (if !p.ending || decide (p.st ≠ .draining) then s
    else if p.phase = 0 then
      if endReady s k && !s.tide.frozen then tearDown k (completeLong k stState [] s) else s
    else if p.phase = 2 then
      let s1 := modPart s k (fun p => { p with st := .empty, phase := 0, ending := false })
      let s2 := newJobRate (postJob k (jobEndEvent k (getPart s1 k)) s1)
      modPart s2 k (fun p => { p with fault := none })
    else s)

end Sys2Proof.Machine
end

