-- ==== Sys2Proof/Machine/Save.lean ====
section
/-! DEFINITION. Saving, restoring and moving a partition (09 R235, R236; 14 R352, R353, R367; 15 R392 to R394; 16 R415 to
R418). -/

namespace Sys2Proof.Machine

-- JOB_SAVE -------------------------------------------------------------------------------------------------------

/-- The first pan ordinal of a partition without a save entry (14 R361, R367). -/
def noSaveEntry (s : State) (k : Nat) : Option Nat :=
  match (getPart s k).image with
  | some im => (List.range (getPart s k).pans.length).find? (fun i => (im.saves.getD i none).isNone)
  | none => some 0

/-- JOB_SAVE: the partition drains, and waits for its messages and its credit objects (09 R235; 15 R392). -/
def execJobSave (c : Cmd) (s : State) : Out :=
  let k : Nat := c.part
  runCmd 0x25 false c (fun s =>
    [(badForm c false false false [], stFormat), (!(isO s c || isT s c), stAuth), (tooEarly s || !inSt s c [.running, .held], stState)])
    (fun s =>
      match noSaveEntry s k with
      | some i => .done stFit [16, i, 0] s
      | none =>
        if longBusy s c then .done stBusy [] s
        else
          let s1 := stopDbg k s
          .later (modPart s1 k (fun p => { p with st := .draining, long := some (longOf .save c [0, s.time] [] s) }))) s

/-- A save given up: the partition returns to the state it held before (14 R353). -/
def giveUpSave (k : Nat) (l : Long) (s : State) : State :=
  completeLong k stTimeout [] (modPart s k (fun p => { p with st := l.prev }))

/-- A save given up after its halts: pending requests are withdrawn and the cores that the save halted resume (15 R392). -/
def resumeSave (k : Nat) (l : Long) (s : State) : State :=
  let s1 := giveUpSave k l (dropHalts (inPart s k) s)
  let s2 := (l.cores.filter (fun g => decide ((getCore s1 g).r.st = .halt))).foldl resumeCore s1
  if l.prev = .held then freeze (inPart s2 k) s2 else s2

/-- SAVE_SETTLE_TIMEOUT: the credit objects have not settled within 100 µs, before the halts or after them (09 R235; 14
R353). -/
def execSaveSettleTimeout (k : Fin 32) (s : State) : Out :=
  .next (match longIs s k .save with
    | some l =>
      if s.time < l.nums.getD 1 0 + 100000000 || settledChans s k then s
      else if l.nums.getD 0 0 = 0 then giveUpSave k l s
      else if l.nums.getD 0 0 = 3 then resumeSave k l s else s
    | none => s)

/-- SAVE_HALT_TIMEOUT: a core has not entered HALT within 16,777,216 steps (15 R392). -/
def execSaveHaltTimeout (k : Fin 32) (s : State) : Out :=
  .next (match longIs s k .save with
    | some l => if l.nums.getD 0 0 = 1 ∧ l.at_ + 16777216 ≤ north s then resumeSave k l s else s
    | none => s)

/-- One core's context read by the rake into its 22 window slots, as loader tiles; a tile that carries an uncorrectable word has
P set (14 R361; 15 R392; 02 R46). -/
def saveCore (k : Nat) (im : Image) (s : State) (icn : Nat) : State :=
  match im.saves.getD (icn / 10240) none with
  | none => s
  | some (first, st) =>
    let g := coreOf s k icn
    let c := getCore s g
    let bs := imageRead c 0 imageLen
    ((pieces 23 0 bs).zipIdx).foldl (fun s pi =>
      match slotAddr s k st (first + 22 * (icn % 10240) + pi.2) with
      | some a =>
        countLines st k 65 true (memWrite s st (getPart s k).xts a (bytesOf (loaderHeader (imageBad c pi.1.1 pi.1.2.length) pi.1.1 pi.2 pi.1.2) 32 ++ pi.1.2))
      | none => s) (setCore s g (rakeCount true 0 imageLen c))

/-- A context as a save keeps it: its indices relative to the partition's descriptors. -/
def relCtx (x : Ctx) : Ctx := { x with idx := x.idx % 1024, first := x.first % 1024 }

/-- A collector with the cores of its arrivals named another way. -/
def Collector.rename (f : Nat → Nat) (c : Collector) : Collector :=
  { c with bars := c.bars.map (fun a => { a with cores := a.cores.map f, members := a.members.map f }) }

/-- The records of a partition as the controller saves them: participants and arrivals by image core, those that a pan's
collector still holds included, and the guard unit with its open step (09 R235, R236; 06 R154; 15 R392). -/
def saveRec (s : State) (k : Nat) (im : Image) : SaveRec :=
  let p := getPart s k
  { image := im, guard := p.guard
    bars := s.bars.filterMap (fun ib => ib.2.bind (fun b =>
      if b.part = k then some { b with members := b.members.map (icnOf s k), record := b.record.map (icnOf s k) } else none))
    colls := p.pans.map (fun x => (getPan s x).coll.rename (icnOf s k))
    chans := s.fab.chans.filterMap (fun ic => ic.2.bind (fun c => if c.part = k then some c else none))
    ctxs := s.engs.flatMap (fun ee => (ee.2.ctxs.filter (fun cc => decide (cc.2.part = some k))).map (fun cc => (ee.1, cc.1, relCtx cc.2)))
    seed := p.seed, chain := p.chain, periods := p.periods, closed := p.closed, chains := p.chains, keyid := p.keyid }

/-- The contexts and the records of a partition whose cores have halted are saved, and its mesh is torn down (15 R392). -/
def saveAll (k : Nat) (l : Long) (im : Image) (s : State) : State :=
  let r := saveRec s k im
  let s1 := (im.cores.map CoreRec.icn).foldl (saveCore k im) s
  tearDown k (modPart s1 k (fun p => { p with saved := some r, long := some { l with nums := [2] } }))

/-- JOB_SAVE_COMPLETE: the next stage of a save that is ready for it: the halts once all is settled; the contexts and records
once every core has halted, with what the cores sent meanwhile settled too, for which it waits 100 µs again; SAVED once the mesh
is released (15 R392; 09 R235). -/
def execJobSaveComplete (k : Fin 32) (s : State) : Out :=
  let p := getPart s k
  .next (match longIs s k .save, p.image with
    | some l, some im =>
      if s.tide.frozen then s
      else if l.nums.getD 0 0 = 0 then
        if messagesDone s k && settledChans s k then
          let gs := activeCores s k
          let s1 := mapCores s (fun g c => inPart s k g && decide (c.r.st = .hold)) (fun g c => requestHalt (envOf s g) c)
          let s2 := thaw (inPart s k) (sendHalts gs s1)
          modPart s2 k (fun p => { p with long := some { l with nums := [1], cores := gs, at_ := north s } })
        else s
      else if s.cores.any (fun gc => inPart s k gc.1 && [CoreSt.run, .hold, .loaded].contains gc.2.r.st) then s
      else if messagesDone s k && settledChans s k then saveAll k l im s
      else if l.nums.getD 0 0 = 1 then modPart s k (fun p => { p with long := some { l with nums := [3, s.time] } })
      else s
    | some l, none =>
      if l.nums.getD 0 0 = 2 ∧ p.phase = 2 then
        newJobRate (completeLong k stOK [] (modPart s k (fun p => { p with st := .saved, phase := 0 })))
      else s
    | none, _ => s)

-- JOB_RESTORE ----------------------------------------------------------------------------------------------------

/-- The image of a partition's saved record. -/
def savedImage (s : State) (k : Nat) : Option Image := (getPart s k).saved.map SaveRec.image

/-- The tile of a saved context in a window slot, empty where it fails a check, P among them (12 R297; 15 R377; 04 R121). -/
def savedTile (s : State) (k st n off : Nat) : List Byte :=
  match slotAddr s k st n with
  | none => []
  | some a =>
    let key := (getPart s k).xts
    let h : Row := ofBytes 256 (memRead s st key a 32)
    let pay := memRead s st key (a + 32) 4096
    if slotWritten s st key a && headerValid h && !hP h && decide (hUnits h = 128) && decide (tileCrc h pay = hCrc h) && decide (hTileId h = BitVec.ofNat 32 off) then pay else []

/-- The loader tiles of a restore: the 22 of every saved core (15 R393). -/
def restoreLoads (s : State) (k : Nat) (im : Image) : List (Nat × Nat × List Byte × Nat) :=
  (im.cores.map CoreRec.icn).flatMap (fun icn =>
    match im.saves.getD (icn / 10240) none with
    | none => []
    | some (first, st) => (List.range 22).map (fun i =>
        (coreOf s k icn, 4096 * i, savedTile s k st (first + 22 * (icn % 10240) + i) (4096 * i), 0)))

/-- The channels of a record on the routes of the restored partition (09 R236). -/
def backChans (s : State) (k : Nat) (im : Image) (r : SaveRec) : List Chan :=
  (im.chans.zip (getPart s k).links).filterMap (fun cb =>
    (r.chans.find? (fun x => decide (x.chn = cb.1.chn) && (x.recv == cb.1.recv))).map (fun x =>
      { newChan s k im cb.1 cb.2 with cr := x.cr, next := x.next, out := x.out, alt := x.alt }))

/-- The barrier objects of a record, participants and arrivals as cores of this module (09 R236). -/
def backBars (s : State) (k : Nat) (r : SaveRec) : List BarObj :=
  r.bars.map (fun b => { b with part := k, members := b.members.map (coreOf s k), record := b.record.map (coreOf s k) })

/-- The collectors of a record on the pans of the restored partition: what they had combined goes on (09 R235, R236). -/
def backColls (k : Nat) (r : SaveRec) (s : State) : State :=
  ((getPart s k).pans.zip r.colls).foldl (fun s pc =>
    modColl s pc.1 (fun c => { pc.2.rename (coreOf s k) with members := c.members, inbox := [] })) s

/-- A saved partition bound again: contexts of stream engines come back when the cores are written (15 R393). -/
def readmit (k : Nat) (im : Image) (r : SaveRec) (s : State) : State :=
  let s1 := takeEps k im (putCtxs k im (putDescs k im s))
  let s2 := backColls k r (setMembers k im (allotBars (backBars s1 k r) (allotChans (backChans s1 k im r) s1)))
  modPart s2 k (fun p => { p with
    guard := { r.guard with members := p.guard.members }, seed := r.seed, chain := r.chain, periods := r.periods
    closed := r.closed, chains := r.chains, keyid := r.keyid })

/-- JOB_RESTORE: the saved sections are checked again, the routes are bound to the present defect map, and the contexts are
read back (15 R393; 14 R366). It waits while a pan of the partition is under test (19 R473). -/
def execJobRestore (c : Cmd) (s : State) : Out :=
  let k : Nat := c.part
  if (getPart s k).pans.any (underTest s) then .next s
  else runCmd 0x26 false c (fun s =>
    [(badForm c false false false [], stFormat), (!(isO s c || isT s c), stAuth),
     ((match savedImage s k with | some im => image4Bad s im | none => false), stLicence),
     (tooEarly s || !inSt s c [.saved], stState),
     ((match savedImage s k with | some im => boundsBad s k im | none => true), stBounds),
     ((getPart s k).pans.any (panUnfit s), stPanDark)])
    (fun s =>
      match (getPart s k).saved with
      | none => .done stState [] s
      | some r =>
        match fitBad s k true ⟨r.image, none⟩ with
        | some e => .done stFit e s
        | none =>
          match bindImage k r.image s with
          | .error e => .done stFit e s
          | .ok s1 =>
            if longBusy s c then .done stBusy [] s
            else
              let s2 := readmit k r.image r s1
              .later (modPart s2 k (fun p => { p with
                st := .loading, image := some r.image, loadQp := some (c.qp, (getQp s c.qp).epoch)
                long := some (longOf .restore c [] [] s), loads := restoreLoads s2 k r.image, restored := true, starts := none
                fault := none }))) s

/-- A saved stream context back on its engine. -/
def backCtx (k : Nat) (s : State) (x : Nat × Nat × Ctx) : State :=
  setCtx s x.1 x.2.1 { x.2.2 with part := some k, idx := k * 1024 + x.2.2.idx, first := k * 1024 + x.2.2.first }

/-- JOB_RESTORE_COMPLETE: every context is written: the cores are in LOADED, stream contexts stand at their saved tiles, and the
partition is READY (15 R393; 12 R303). -/
def execJobRestoreComplete (k : Fin 32) (s : State) : Out :=
  let p := getPart s k
  .next (match longIs s k .restore, p.saved with
    | some _, some r =>
      if p.loads.isEmpty && !s.tide.frozen then
        let s1 := (r.image.cores.map CoreRec.icn).foldl (fun s icn =>
          let g := coreOf s k icn
          let x := getCore s g
          setCore s g { x with r := { x.r with st := .loaded, fstat := 0, fpc := 0, finfo := 0, ftc := 0 } }) s
        let s2 := r.ctxs.foldl (backCtx k) s1
        newJobRate (completeLong k stOK [] (modPart s2 k (fun p => { p with st := .ready, saved := none })))
      else s
    | _, _ => s)

-- JOB_EXPORT and JOB_IMPORT --------------------------------------------------------------------------------------

/-- The key hash of a partition's tenant; the operator's own partitions have none (16 R397, R417). -/
def tenantHash (s : State) (k : Nat) : BitVec 512 := (tget none s.sec.enrol (getPart s k).prin).getD 0

/-- JOB_EXPORT: the sealed record of a SAVED partition is written to the host's buffer (15 R394; 16 R417). nums are the
buffer's address, its length and EXPSEQ, which is drawn afresh. -/
def execJobExport (c : Cmd) (s : State) : Out :=
  let k : Nat := c.part
  runCmd 0x27 false c (fun s =>
    [(badForm c false false true [], stFormat), (!(isO s c || isT s c), stAuth), (tooEarly s || !inSt s c [.saved], stState),
     (longBusy s c, stBusy)])
    (fun s =>
      let (x, s1) := drawn s
      .later (modPart s1 k (fun p => { p with long := some (longOf .exp c [c.bufAddr.toNat, c.bufLen.toNat, x % 2 ^ 64] [] s) }))) s

/-- JOB_EXPORT_COMPLETE: the record has been written, and the bytes moved are reported (16 R417; 14 Table 14-9). -/
def execJobExportComplete (k : Fin 32) (s : State) : Out :=
  let p := getPart s k
  .next (match longIs s k .exp, p.saved with
    | some l, some r =>
      let bs := Config.sealRec (p.jk.getD 0) [r.image.bl, r.image.npans, r.keyid.toNat, l.nums.getD 2 0] (tenantHash s k) r (pairOf p.xts).toNat
      let out := bs.take (l.nums.getD 1 0)
      completeLong k stOK [out.length] { s with host := { s.host with out := s.host.out ++ [⟨l.nums.getD 0 0, out⟩] } }
    | _, _ => s)

/-- What a JOB_IMPORT opens: the records and the pair, where the staged key, the key hash and the tag agree (16 R418). -/
def openRecord (s : State) (c : Cmd) : Option (SaveRec × Nat × JobKey) :=
  match Config.recHead (bufOf c), (getPart s c.part).staged with
  | some h, some key =>
    if h.2.2.1 ≠ key.keyid.toNat ∨ tget none s.sec.enrol (getPart s c.part).prin ≠ some h.2.2.2 then none
    else (Config.unseal key.jk (bufOf c)).map (fun x => (x.1, x.2, key))
  | _, _ => none

/-- The FIT reason of an import: behaviour level, pans, granules (15 R394; 14 Table 14-11). -/
def importFit (s : State) (k : Nat) (bl npans : Nat) (r : SaveRec) : Option (List Nat) :=
  if bl ≠ 1 then some [1, bl, 0]
  else if npans ≠ (getPart s k).pans.length then some [2, (getPart s k).pans.length, 0]
  else (List.range 48).findSome? (fun e =>
    let n := r.image.gc.getD e 0
    if n ≠ 0 ∧ ((getEng s e).failed ∨ !(getEng s e).trained ∨ granulesFor s k e < n) then some [4, e, granulesFor s k e] else none)

/-- JOB_IMPORT: a sealed record is opened with the staged key, and granules are allotted from its PMAP; an import
that succeeds uses the staged key up (15 R394; 16 R418). It waits while a pan of the partition is under test (19 R473). -/
def execJobImport (c : Cmd) (s : State) : Out :=
  let k : Nat := c.part
  if (getPart s k).pans.any (underTest s) then .next s
  else runCmd 0x28 false c (fun s =>
    [(badForm c false false true [] || (Config.recHead (bufOf c)).isNone, stFormat),
     (!(isO s c || isT s c) || (openRecord s c).isNone, stAuth),
     ((match openRecord s c with | some r => image4Bad s r.1.image | none => false), stLicence), (tooEarly s || !inSt s c [.empty], stState)])
    (fun s =>
      match Config.recHead (bufOf c), openRecord s c with
      | some h, some (r, x, key) =>
        match importFit s k h.1 h.2.1 r with
        | some e => .done stFit e s
        | none =>
          let s1 := allotGranules k r.image (leaveEmpty k s)
          .later (modPart s1 k (fun p => { p with
            st := .loading, saved := some { r with keyid := key.keyid }, xts := suppliedKey x, xtsOwn := true, jk := some key.jk, staged := none
            long := some (longOf .imp c [(bufOf c).length] [] s) }))
      | _, _ => .done stAuth [] s) s

/-- JOB_IMPORT_COMPLETE: the records are written and the partition is SAVED (15 R394). -/
def execJobImportComplete (k : Fin 32) (s : State) : Out :=
  .next (match longIs s k .imp with
    | some l => completeLong k stOK [l.nums.getD 0 0] (modPart s k (fun p => { p with st := .saved }))
    | none => s)

end Sys2Proof.Machine
end

