-- ==== Sys2Proof/Machine/Security.lean ====
section
/-! DEFINITION. The security block: principals, sessions, binding of queue pairs, enrolment, staged keys, measurements, IDE;
licences and test packs; the mailbox (16 R396 to R421; 19 R472; 14 R335; 21 R504, R505). -/

namespace Sys2Proof.Machine

-- Principals and answers -----------------------------------------------------------------------------------------

/-- The session that a request rides in; number 48 stands for a request outside every session (16 R406). -/
def sessionOf (s : State) (n : Fin 49) : Option Session := if (n : Nat) < 48 then tget none s.sec.sess n else none

/-- Whether a session proves the tenant principal n: mutual authentication with the enrolled key (16 R396, R397). -/
def provesTenant (s : State) (x : Session) (n : Nat) : Bool := x.mutAuth && decide (n ≠ 0) && decide (tget none s.sec.enrol n = some x.key)

/-- Whether a session proves the operator (16 R396). -/
def provesOperator (s : State) (x : Session) : Bool := x.mutAuth && decide (x.root = s.fuse.owner)

/-- Whether the security block answers: its firmware runs from the end of P1, and not after a module trip (15 Table 15-1;
17 R438). -/
def secUp (s : State) : Bool := s.boot.p1 && !s.power.modTrip

/-- An SPDM error: Busy 3, UnexpectedRequest 4, UnsupportedRequest 7, SessionRequired 0x0B, InvalidRequest 1 (16 R404). -/
def spdmError (code : Byte) (s : State) : State := say 3 [0x7F#8, code] s

/-- The response to a Eufetos request: the code with bit 7 set, a status, two bytes of zero (16 R406). -/
def vendorAnswer (code status : Nat) (s : State) : State := say 3 [BitVec.ofNat 8 (code + 128), BitVec.ofNat 8 status, 0, 0] s

/-- A Eufetos request: outside a session the answer is SessionRequired; the first check that fails is the answer and nothing
else happens; else the effect and OK (16 R406). -/
def vendor (n : Fin 49) (code : Nat) (checks : Session → List (Bool × Nat)) (f : State → State) (s : State) : Out :=
  .next (if !secUp s then s
    else match sessionOf s n with
      | none => spdmError 0x0B s
      | some x =>
        match firstCode (checks x) with
        | some st => vendorAnswer code st s
        | none => vendorAnswer code stOK (f s))

-- Binding --------------------------------------------------------------------------------------------------------

/-- The form of a debug grant: length, MAGIC, GROLE, reserved fields, RIGHTS and NOTAFTER within their bits (16 Table 16-7). -/
def grantForm (b : List Byte) : Bool :=
  decide (b.length = 380) && decide (leAt b 0 4 = 0x4742445A) && (decide (leAt b 4 1 = 1) || decide (leAt b 4 1 = 2)) &&
  decide (leAt b 6 1 < 32) && decide (leAt b 7 1 = 0) && decide (leAt b 0x26 2 = 0) && decide (leAt b 0x28 4 < 16) &&
  decide (leAt b 0x2C 4 = 0) && decide (leAt b 0xF5 3 = 0)

/-- Whether a grant holds for the requester: signature, serial, BOOTID, the grantor's key, NOTAFTER ahead, DBGKEY (16 R419). -/
def grantOk (s : State) (x : Session) (b : List Byte) : Bool :=
  let g := Config.sha512 ((b.drop 0x70).take 133)
  x.mutAuth && Config.sigOk 3 b && decide (leAt b 8 8 = s.fuse.serial.toNat) && decide (leAt b 0x10 16 = s.sec.bootid.toNat) &&
  (if leAt b 4 1 = 1 then decide (g = s.fuse.owner) else decide (tget none s.sec.enrol (leAt b 5 1) = some g)) &&
  isAhead s (BitVec.ofNat 48 (leAt b 0x20 6)) && decide (ofBytes 512 ((b.drop 0x30).take 64) = x.key)

/-- Whether the partition meets the scope of a grant (16 R419). -/
def grantScope (s : State) (b : List Byte) : Bool :=
  let p := getPart s (leAt b 6 1)
  if leAt b 4 1 = 1 then decide (p.st = .empty) || (decide (p.st ≠ .none) && decide (p.prin = 0))
  else decide (p.st ≠ .none) && decide (p.prin = leAt b 5 1)

/-- A grant as the binding keeps it. -/
def grantOf (s : State) (b : List Byte) : Grant :=
  { part := leAt b 6 1, rights := BitVec.ofNat 4 (leAt b 0x28 4), role := leAt b 4 1, prin := leAt b 5 1
    key := BitVec.ofNat 64 (leAt b 0x30 8), pgen := (getPart s (leAt b 6 1)).pgen, after := BitVec.ofNat 48 (leAt b 0x20 6) }

/-- A pair loses its binding: the windows it opened close, and a debugger is detached (16 R400, R414, R420). -/
def unbind (q : Nat) (s : State) : State :=
  let s1 := (List.range 32).foldl (fun s k =>
    let w := (getPart s k).window
    if w.isOpen ∧ w.qp = q then closeWindow k s else s) s
  let s2 := endPair q s1
  setQp s2 q { getQp s2 q with role := 0, prin := 0, grant := none, sess := none }

/-- BIND_QP: the pair takes the role that the session proves (16 R399, R419). -/
def execBindQp (n : Fin 49) (pair role prin : Byte) (resv : Bool) (grant : List Byte) (s : State) : Out :=
  let q := pair.toNat
  let r := role.toNat
  vendor n 1 (fun x =>
    [(resv || decide (r = 0) || decide (3 < r) || (if r = 3 then !grantForm grant else !grant.isEmpty), stFormat),
     (if r = 1 then !provesOperator s x else if r = 2 then !provesTenant s x prin.toNat else !grantOk s x grant, stAuth),
     ((getQp s q).en || (decide (r = 3) && !grantScope s grant), stState), (decide (32 < q), stBounds),
     ((getQp s q).sess.isSome && decide ((getQp s q).sess ≠ some (n : Nat)), stBusy)])
    (fun s =>
      let s1 := endPair q s
      setQp s1 q { getQp s1 q with
        role := r
        prin := if r = 2 then prin.toNat else 0
        grant := if r = 3 then some (grantOf s1 grant) else none
        sess := some (n : Nat) }) s

/-- UNBIND_QP: the session that bound the pair lets it go (16 R400). -/
def execUnbindQp (n : Fin 49) (pair : Byte) (s : State) : Out :=
  vendor n 2 (fun _ => [(decide ((getQp s pair.toNat).sess ≠ some (n : Nat)), stAuth)]) (unbind pair.toNat) s

/-- A session ends and its pairs are unbound (16 R400). -/
def closeSession (n : Nat) (s : State) : State :=
  let s1 := ((List.range 33).filter (fun q => decide ((getQp s q).sess = some n))).foldl (fun s q => unbind q s) s
  { s1 with sec := { s1.sec with sess := tset none s1.sec.sess n none } }

/-- END_SESSION (16 R400). -/
def execEndSession (n : Fin 48) (s : State) : Out :=
  .next (if !secUp s then s else match tget none s.sec.sess n with
    | none => spdmError 0x0B s
    | some _ => say 3 [0x6C#8] (closeSession n s))

/-- HEARTBEAT_MISSED: a heartbeat missed for 24 s ends the session (16 R400). -/
def execHeartbeatMissed (n : Fin 48) (s : State) : Out :=
  .next (if (tget none s.sec.sess n).isSome then closeSession n s else s)

-- Enrolment and staged keys --------------------------------------------------------------------------------------

/-- Whether a partition names a principal (16 R397). -/
def named (s : State) (prin : Nat) : Bool := (List.range 32).any (fun k => decide ((getPart s k).st ≠ .none) && decide ((getPart s k).prin = prin))

/-- The enrolment table with an entry replaced. -/
def setEnrol (prin : Nat) (h : Option (BitVec 512)) (s : State) : State :=
  { s with sec := { s.sec with enrol := tset none s.sec.enrol prin h } }

/-- TENANT_ENROL (16 R397, Table 16-4). -/
def execTenantEnrol (n : Fin 49) (prin : Byte) (h : BitVec 512) (s : State) : Out :=
  vendor n 3 (fun x => [(!provesOperator s x, stAuth), (named s prin.toNat, stState), (decide (prin = 0), stBounds)])
    (setEnrol prin.toNat (some h)) s

/-- TENANT_REVOKE (16 R397, Table 16-4). -/
def execTenantRevoke (n : Fin 49) (prin : Byte) (s : State) : Out :=
  vendor n 4 (fun x => [(!provesOperator s x, stAuth), (named s prin.toNat, stState)]) (setEnrol prin.toNat none) s

/-- Whether a session is the partition's tenant; the operator is for principal 0 (16 R398). -/
def tenantOf (s : State) (x : Session) (k : Nat) : Bool :=
  let p := getPart s k
  decide (p.st ≠ .none) && (if p.prin = 0 then provesOperator s x else provesTenant s x p.prin)

/-- KEY_STAGE: a job key is unwrapped and staged on an EMPTY partition; with a pair it needs the tenant key service (01 R21;
16 R412, R418). -/
def execKeyStage (n : Fin 49) (part : Byte) (jk : List Byte) (s : State) : Out :=
  let k := part.toNat
  vendor n 5 (fun x =>
    [(!keyForm jk, stFormat), (!tenantOf s x k || (openKey s k false jk).isNone, stAuth),
     (!licKeys s && decide (leAt jk 1 1 = 1), stLicence), (decide ((getPart s k).st ≠ .empty), stState)])
    (fun s => modPart s k (fun p => { p with staged := openKey s k false jk })) s

-- Sessions -------------------------------------------------------------------------------------------------------

/-- KEY_EXCHANGE: a session opens in the first free place; a 49th gets Busy (16 R404, Table 16-3). -/
def execKeyExchange (mauth : Bool) (key root : BitVec 512) (s : State) : Out :=
  .next (if !secUp s then s else match (List.range 48).find? (fun n => decide (tget none s.sec.sess n = none)) with
    | none => spdmError 3 s
    | some n =>
      say 3 (0x64#8 :: BitVec.ofNat 8 n :: Config.sign [BitVec.ofNat 8 n])
        { s with sec := { s.sec with sess := tset none s.sec.sess n (some ⟨key, root, mauth, 0, 0⟩) } })

/-- A session changed, with the answer of its message; none is open: SessionRequired. -/
def inSession (n : Nat) (code : Byte) (f : Session → Session) (s : State) : Out :=
  .next (if !secUp s then s else match tget none s.sec.sess n with
    | none => spdmError 0x0B s
    | some x => say 3 [code] { s with sec := { s.sec with sess := tset none s.sec.sess n (some (f x)) } })

/-- HEARTBEAT restarts the session's heartbeat timer (16 R404). -/
def execHeartbeat (n : Fin 48) (s : State) : Out := inSession n 0x68 (fun x => { x with beats := x.beats + 1 }) s
/-- KEY_UPDATE changes the session's keys (16 R404). -/
def execKeyUpdate (n : Fin 48) (s : State) : Out := inSession n 0x69 (fun x => { x with updates := x.updates + 1 }) s

/-- GET_CERTIFICATE: the chain of slot 0 or 1 (16 Table 16-3). -/
def execGetCertificate (slot : Byte) (s : State) : Out :=
  .next (if !secUp s then s
    else if slot.toNat < 2 then say 3 (0x02#8 :: Config.certChain slot.toNat) s else spdmError 1 s)

/-- CHALLENGE: slot 0 signs with the alias key, slot 1 does not sign (16 Table 16-3, R402). -/
def execChallenge (slot : Byte) (s : State) : Out :=
  .next (if !secUp s then s
    else if slot = 0 then say 3 (0x03#8 :: Config.sign (Config.certChain 0)) s else spdmError 1 s)

/-- The bytes of a number, little-endian. -/
def nbytes (n v : Nat) : List Byte := bytesOf (BitVec.ofNat (8 * n) v) n

/-- The tenants whose entries a request may see: none outside a session, a tenant's own in its session, every one in any
other (16 R405). -/
def mayShow (s : State) (n : Fin 49) (prin : Nat) : Bool :=
  match sessionOf s n with
  | none => false
  | some x =>
    if provesOperator s x then true
    else if (List.range 256).any (provesTenant s x) then provesTenant s x prin else true

/-- The content of a measurement (16 Table 16-4A). -/
def measurement (s : State) (n : Fin 49) : Nat → List Byte
  | 1 => bytesOf (Config.sha512 Config.bootRom) 64
  | 2 => nbytes 1 0xA1 ++ nbytes 1 s.fuse.fw ++ nbytes 1 s.fuse.lic ++ nbytes 1 s.fuse.tp ++ nbytes 1 s.fuse.owners.length ++
      nbytes 1 s.fuse.keySvc.toNat
  | 3 => bytesOf (Config.sha512 (s.sec.image.getD [])) 64 ++ nbytes 4 s.sec.svn
  | 4 => bytesOf (Config.sha512 (Config.fwPart 1 (s.sec.image.getD []))) 64
  | 5 => bytesOf (Config.sha512 (Config.fwPart 2 (s.sec.image.getD []))) 64
  | 6 => bytesOf (Config.sha512 (Config.fwPart 3 (s.sec.image.getD []))) 64
  | 7 => bytesOf (match s.sec.licence with | some l => l.digest | none => 0) 64
  | 8 => bytesOf s.rel.digest 64
  | 9 => (s.sec.enrol.filter (fun e => mayShow s n e.1)).flatMap (fun e => nbytes 1 e.1 ++ bytesOf (e.2.getD 0) 64)
  | 10 => ((List.range 32).filter (fun k => decide ((getPart s k).st ≠ .none) && mayShow s n (getPart s k).prin)).flatMap (fun k =>
      let p := getPart s k
      nbytes 1 k ++ nbytes 12 ((p.pans.map (2 ^ ·)).foldl (· + ·) 0) ++ nbytes 1 p.prin ++ nbytes 1 p.st.code ++ nbytes 1 p.pgen)
  | 11 => ((List.range 33).filterMap (fun q => (getQp s q).grant.map (fun g => (q, g)))).flatMap (fun qg =>
      nbytes 1 qg.1 ++ nbytes 1 qg.2.part ++ nbytes 1 qg.2.rights.toNat ++ nbytes 1 qg.2.role ++ nbytes 1 qg.2.prin ++ bytesOf qg.2.key 8)
  | 12 => bytesOf s.sec.bootid 16
  | _ => []

/-- GET_MEASUREMENTS: one measurement, all of them, or their number, signed by the alias key (16 R402, R405). -/
def execGetMeasurements (n : Fin 49) (index : Byte) (s : State) : Out :=
  let i := index.toNat
  .next (if !secUp s then s
    else if 12 < i ∧ i ≠ 255 then spdmError 1 s
    else
      let m := if i = 0 then [12#8] else if i = 255 then (List.range 12).flatMap (fun j => measurement s n (j + 1)) else measurement s n i
      say 3 (0x60#8 :: m ++ Config.sign m) s)

/-- CXL_IDE_KM: the operator's session manages the IDE streams; any other gets UnexpectedRequest (16 R407). -/
def execCxlIdeKm (n : Fin 49) (io mem : Bool) (s : State) : Out :=
  .next (if !secUp s then s
    else match sessionOf s n with
      | some x =>
        if provesOperator s x then say 3 [0xFE#8] { s with sec := { s.sec with ideIo := io, ideMem := mem } } else spdmError 4 s
      | none => spdmError 4 s)

-- The mailbox ----------------------------------------------------------------------------------------------------

/-- A mailbox command that the port implements answers what CXL 3.1 defines, and changes nothing (14 Table 14-1). -/
def mailbox (op a : Nat) (s : State) : Out :=
  .next (say 4 (Config.mailbox op a s.free) { s with free := s.free + 1 })

/-- Identify Memory Device. -/
def execIdentifyMemoryDevice (s : State) : Out := mailbox 0 0 s
/-- Get Health Info. -/
def execGetHealthInfo (s : State) : Out := mailbox 1 0 s
/-- Get Supported Logs. -/
def execGetSupportedLogs (s : State) : Out := mailbox 2 0 s
/-- Get Log: log 0 gives the good cores of every pan, 2 bytes each; the others are as CXL 3.1 defines them (01 R17). -/
def execGetLog (log : Nat) (s : State) : Out :=
  if log = 0 then .next (say 4 ((List.range 96).flatMap (fun p => nbytes 2 (reportedCount s p))) s) else mailbox 3 log s

-- Licences -------------------------------------------------------------------------------------------------------

/-- A licence as its bytes spell it, with its serial and FLOOR; none where it is malformed (16 R410). -/
def readLicence (b : List Byte) : Option (Nat × Nat × Licence) :=
  match Config.readLicence b with
  | some [serial, version, floor, ports, parts, four, svc, tide] =>
    if (ports = 16 ∨ ports = 32 ∨ ports = 48) ∧ (parts = 1 ∨ parts = 8 ∨ parts = 32) ∧ 8 ≤ tide ∧ tide ≤ 50 ∧ floor ≤ version then
      some (serial, floor, ⟨version, ports, parts, decide (four ≠ 0), decide (svc ≠ 0), tide, Config.sha512 b⟩)
    else none
  | _ => none

/-- Whether a port beyond a licence carries a route table entry, as a primary or an alternate output (16 R410; 13 Table 13-3). -/
def portInTable (s : State) (n : Nat) : Bool :=
  s.fab.table.any (fun e => (e.2.getLsbD 7 && !portOn n (fld e.2 0 6)) || (e.2.getLsbD 15 && !portOn n (fld e.2 8 6)))

/-- Whether a licence sets a limit below what is in use (16 R410). -/
def belowUse (s : State) (l : Licence) : Bool :=
  let ps := (List.range 32).map (getPart s)
  decide (l.parts < (ps.filter (fun p => decide (p.st ≠ .none))).length) || portInTable s l.ports ||
  (!l.fourBit && ps.any (fun p => (match p.image with | some im => image4 im | none => false) ||
    (match p.saved with | some r => image4 r.image | none => false))) ||
  (!l.keySvc && ps.any (fun p => decide (p.st ≠ .none) && p.xtsOwn))

/-- Whether a licence lowers a limit other than the tide cap (21 R505). -/
def lowers (s : State) (l : Licence) : Bool :=
  decide (l.parts < licParts s) || decide (l.ports < licPorts s) || (licensed4 s && !l.fourBit) || (licKeys s && !l.keySvc)

/-- Ports that become licensed train; ports no longer licensed go to OFF (01 R21; 15 R374; 13 R306; 21 R505). -/
def licencePorts (old new : Nat) (s : State) : State :=
  (List.range 48).foldl (fun s p =>
    let x := getPort s p
    if portOn new p && !portOn old p && decide (x.st = 0) && !x.disable then setPort s p { x with st := 1 }
    else if portOn old p && !portOn new p then setPort s p { x with st := 0, lanes := 0 }
    else s) s

/-- RIM_BASE measured, once P5 has begun to: a free value (18 R455). -/
def calibrateRim (s : State) : State :=
  if s.boot.p5 then { s with power := { s.power with rimBase := Config.freeNat s.free % 2 ^ 16 }, free := s.free + 1 } else s

/-- A licence comes into force: the tide cap, the rollback counter, the ports (16 R409, R410). -/
def installLicence (floor : Nat) (l : Licence) (s : State) : State :=
  licencePorts (licPorts s) l.ports { (if l.ports = licPorts s then s else calibrateRim s) with
    sec := { s.sec with licence := some l }
    fuse := { s.fuse with lic := max s.fuse.lic floor }
    tide := { s.tide with lic := l.tide } }

/-- LICENCE_INSTALL (16 R408 to R410; 21 R505; 15 R384). -/
def execLicenceInstall (c : Cmd) (s : State) : Out :=
  let b := bufOf c
  let r := readLicence b
  let on := fun (f : Nat × Nat × Licence → Bool) => match r with | some x => f x | none => false
  runCmd 0x04 true c (fun s =>
    [(badForm c true false true [] || r.isNone, stFormat),
     (!isO s c || !Config.sigOk 1 b || on (fun x => decide (x.1 ≠ s.fuse.serial.toNat) || decide (x.2.2.version < s.fuse.lic)), stAuth),
     (s.power.modTrip || !s.boot.p1 || on (fun x => belowUse s x.2.2), stState),
     (on (fun x => lowers s x.2.2) && (List.range 32).any (fun k => decide ((getPart s k).st = .loading)), stBusy)])
    (fun s => .done stOK [] (match r with | some x => installLicence x.2.1 x.2.2 s | none => s)) s

-- Test packs -----------------------------------------------------------------------------------------------------

/-- A size rounded up to 32 bytes. -/
def pad32 (n : Nat) : Nat := ceilDiv n 32 * 32

/-- The kernels of a test pack from an offset, with the offset of their end, whether every reserved bit is 0, and whether
every length is in range (19 Table 19-5). -/
def readKernels (b : List Byte) : Nat → Nat → List Kernel × Nat × Bool × Bool
  | 0, o => ([], o, true, true)
  | n + 1, o =>
    let code := leAt b (o + 4) 4
    let data := leAt b (o + 8) 4
    let k : Kernel := ⟨decide (leAt b o 4 % 2 = 1), (b.drop (o + 32)).take code, (b.drop (o + 32 + pad32 code)).take data,
      (b.drop (o + 16)).take 16⟩
    let (ks, e, z, r) := readKernels b n (o + 32 + pad32 code + pad32 data)
    (k :: ks, e, z && decide (leAt b o 4 < 2) && decide (leAt b (o + 12) 4 = 0), r && decide (code ≤ 16384) && decide (data ≤ 49152))

/-- A test pack as its bytes give it. -/
structure Pack where
  ver      : Nat
  floor    : Nat
  interval : Nat
  budget   : Nat
  serials  : List Nat
  kernels  : List Kernel
deriving DecidableEq, Repr

/-- A test pack: FORMAT for a bad structure, BOUNDS for a field outside its range or a length beyond the buffer, in that order
(19 R472). -/
def readPack (n : Nat) (b : List Byte) : Except Nat Pack :=
  let len := leAt b 0x18 8
  let nser := leAt b 0x14 4
  let nker := leAt b 0x0E 2
  let far := decide (n < len)
  let out := decide (leAt b 0x0C 2 = 0) || decide (1440 < leAt b 0x0C 2) || decide (nker = 0) || decide (64 < nker) ||
    decide (leAt b 0x10 4 < 65536) || decide (16777216 < leAt b 0x10 4) || decide (nser = 0) || decide (65536 < nser)
  if leAt b 0 4 ≠ 0x4B50545A ∨ (leAt b 0x24 28) ≠ 0 ∨ leAt b 4 4 < leAt b 8 4 then .error stFormat
  else if !far ∧ leAt b 0x20 4 ≠ (crc32c ((b.take len).drop 0x40)).toNat then .error stFormat
  else if far || out then .error stBounds
  else
    let (ks, e, z, r) := readKernels b nker (0x40 + 8 * nser)
    if !z then .error stFormat
    else if !r then .error stBounds
    else if e ≠ len then .error stFormat
    else .ok ⟨leAt b 4 4, leAt b 8 4, leAt b 0x0C 2, leAt b 0x10 4, (List.range nser).map (fun i => leAt b (0x40 + 8 * i) 8), ks⟩

/-- Whether a pack's signature, serial list or version refuses it; read from the bytes, so that it is told before a field
outside its range (19 R472; 14 R348). -/
def packAuth (s : State) (b : List Byte) : Bool :=
  let nser := leAt b 0x14 4
  !Config.sigOk 2 b || decide (leAt b 4 4 < s.fuse.tp) ||
  !(List.range (min nser 65536)).any (fun i => decide (leAt b (0x40 + 8 * i) 8 = s.fuse.serial.toNat))

/-- TESTPACK_LOAD: the pack replaces the one in force and advances the TP counter (19 R472; 16 R409). -/
def execTestpackLoad (c : Cmd) (s : State) : Out :=
  let b := bufOf c
  let r := readPack c.bufLen.toNat b
  let err := fun (n : Nat) => match r with | .error m => decide (m = n) | .ok _ => false
  runCmd 0x05 true c (fun s =>
    [(badForm c true false true [] || err stFormat, stFormat), (!isO s c || packAuth s b, stAuth), (tooEarly s, stState),
     (err stBounds, stBounds)])
    (fun s => .done stOK [] (match r with
      | .ok p => { s with
          fuse := { s.fuse with tp := max s.fuse.tp p.floor }
          rel := { s.rel with ver := p.ver, interval := p.interval, budget := p.budget, kernels := p.kernels, digest := Config.sha512 b } }
      | .error _ => s)) s

-- Module commands ------------------------------------------------------------------------------------------------

/-- MOD_QUERY: identity, good cores, licence, CW_MAX, CAL; any pair may ask at any time (14 R341, Table 14-9; 15 R384;
17 R438). -/
def execModQuery (c : Cmd) (s : State) : Out :=
  runCmd 0x01 true c (fun _ => [(badForm c true false false [], stFormat)])
    (fun s =>
      let gs := (numberedPans s).map (goodCount s)
      let least := gs.foldl min 9600
      .done stOK [0x01A1, gs.foldl (· + ·) 0, licPorts s * 2 ^ 8 + licParts s * 2 ^ 16 + s.tide.lic * 2 ^ 24, s.mesh.cwMax,
        s.tide.cal + (if gs.isEmpty then 0 else least) * 2 ^ 16] s) s

/-- POWER_CAP: TARGET, RAMP and GUARD from the start count, or at once (18 R458). -/
def execPowerCap (c : Cmd) (s : State) : Out :=
  let t := argFld c 0 0 16
  let r := argFld c 0 16 9
  let g := argFld c 1 0 13
  let keep := decide (argFld c 1 16 1 = 1)
  runCmd 0x06 true c (fun s =>
    [(badForm c true true false [0x01FFFFFF, 0x11FFF], stFormat), (!isO s c, stAuth), (tooEarly s, stState),
     (decide (t < 4000) || decide (40000 < t) || decide (r = 0) || decide (400 < r) || (!keep && decide (4000 < g)) ||
        (decide (c.tc ≠ 0) && (decide (aheadBy s c.tc < 8192) || decide (2 ^ 32 < aheadBy s c.tc))), stBounds)])
    (fun s =>
      let g' := if keep then s.power.guard else g
      let s1 := if c.tc = 0 then applyCap 1 t r g' s
        else logCap 1 t r g' { s with power := { s.power with start := some (stepOf s c.tc, t, r, g') } }
      .done stOK [s.power.eff] s1) s

/-- The park causes, as PARK_STATUS bits 0 and 1 give them (18 R449). -/
def parkCauses (s : State) : Nat := s.power.oper.toNat + 2 * s.power.capPark.toNat

/-- MOD_PARK: sets OPER; a parked module is left as it is (18 R449, R450). -/
def execModPark (c : Cmd) (s : State) : Out :=
  runCmd 0x07 true c (fun s => [(badForm c true false false [], stFormat), (!isO s c, stAuth), (tooEarly s, stState)])
    (fun s => .done stOK [] (if s.power.parked then s else park true s)) s

/-- MOD_UNPARK: clears OPER and gives the causes that remain; an unparked module is left as it is (18 R449, R451). -/
def execModUnpark (c : Cmd) (s : State) : Out :=
  runCmd 0x08 true c (fun s => [(badForm c true false false [], stFormat), (!isO s c, stAuth), (tooEarly s, stState)])
    (fun s =>
      let s1 := if s.power.parked then wakeIfClear { s with power := { s.power with oper := false } } else s
      .done stOK [parkCauses s1] s1) s

/-- The MODE of an ENERGY_READ. -/
def energyMode (c : Cmd) : Nat := argFld c 0 16 2

/-- ENERGY_READ by MODE: the checks of modes 0 and 1 (18 R457). -/
def energyChecks (c : Cmd) (bounds : Bool) (s : State) : List (Bool × Nat) :=
  let r := (getQp s c.qp).role
  let there := decide ((getPart s c.part).st ≠ .none)
  [(badForm c false false false [0x30FFF] || decide (energyMode c = 3), stFormat),
   ((decide (r ≠ 1) && decide (r ≠ 2)) || (there && !isT s c), stAuth), (tooEarly s || !there, stState), (bounds, stBounds)]

/-- ENERGY_READ MODE 0: the last completed window; before the first, free values (18 R457). -/
def execEnergyReadWindow (c : Cmd) (s : State) : Out :=
  if energyMode c ≠ 0 ∧ energyMode c ≠ 3 then .next s
  else runCmd 0x09 false c (energyChecks c false)
    (fun s =>
      let m := getMeter s c.part
      let tot := [m.total % 2 ^ 32, m.total / 2 ^ 32 % 2 ^ 32]
      match m.last with
      | some (i, j, l) => .done stOK ([i, j, l] ++ tot) s
      | none =>
        let f := fun (i : Nat) => Config.freeNat (s.free + i) % 2 ^ 32
        .done stOK ([f 0, f 1, f 2] ++ tot) { s with free := s.free + 3 }) s

/-- ENERGY_READ MODE 1: the window length; window 0 starts at the next whole second, and until it has ended the last completed
window is that of before (18 R457). -/
def execEnergySetWindow (c : Cmd) (s : State) : Out :=
  let w := argFld c 0 0 12
  if energyMode c ≠ 1 ∧ energyMode c ≠ 3 then .next s
  else runCmd 0x09 false c (energyChecks c (decide (w = 0) || decide (3600 < w)))
    (fun s => .done stOK [] (modMeter s c.part (fun m => { m with window := w, ticks := nextSecond s, index := 0 }))) s

/-- ENERGY_READ MODE 2: the module's figures, for the operator (18 R457). joules counts microjoules. -/
def execEnergyReadModule (c : Cmd) (s : State) : Out :=
  if energyMode c ≠ 2 ∧ energyMode c ≠ 3 then .next s
  else runCmd 0x09 true c (fun s =>
      [(badForm c true false false [0x30FFF] || decide (energyMode c = 3), stFormat), (!isO s c, stAuth), (tooEarly s, stState)])
    (fun s =>
      let j := s.power.joules / 1000000
      .done stOK [j % 2 ^ 32, j / 2 ^ 32 % 2 ^ 32, s.power.entryV * s.power.entryI / 1000, s.power.eff, s.power.target] s) s

end Sys2Proof.Machine
end

