-- ==== Sys2Proof/Machine/Registers.lean ====
section
/-! DEFINITION. The registers of the controller's blocks as firmware and REG_READ and REG_WRITE see them: tide, mesh with its
routers, stream, Chidex; and the writes of management firmware and of the host to theirs (00 R9; 10 R257; 11 R283, R284;
12 R304; 13 R334; 14 R339, R340; 17 R441; 18 R460). -/

namespace Sys2Proof.Machine

/-- A word made of fields: place and value. -/
def fields (l : List (Nat × Nat)) : Word := BitVec.ofNat 32 ((l.map (fun f => f.2 * 2 ^ f.1)).foldl (· + ·) 0)

/-- Flags as a number. -/
def flag (b : Bool) : Nat := b.toNat

-- Reading --------------------------------------------------------------------------------------------------------

/-- Whether a side of a pan faces a rim segment. -/
def rimSide (p k : Nat) : Bool := decide (96 ≤ sluiceSender p k)

/-- A word of a sluice entry (10 Table 10-5). -/
def sluiceWord (s : State) (n w : Nat) : Word :=
  let x := getSluice s n
  let p := n / 4
  let rim := rimSide p (n % 4)
  match w with
  | 0 => fields [(0, x.d), (4, flag (!panLive s p || !nodeLive s (sluiceSender p (n % 4)))), (5, flag rim), (8, x.lat), (16, x.cap)]
  | 1 => fields [(0, x.hwm), (8, flag x.dead)]
  | 2 => x.waits
  | _ => fields [(0, if rim then x.dOut else 0), (8, x.latOut), (16, x.capOut)]

/-- REF_STATUS.PRESENT: set while the pace line is on the reference; before that, once the node has begun to step, whether edges
lie within limits is the reference's own, a free value of the time (10 R249, Table 10-4). -/
def refPresent (s : State) : Bool := s.tide.present || (decide (0 < north s) && Config.refPresent s.time)

/-- A register of the tide block (10 Table 10-4). -/
def tideWord (s : State) (off : Nat) : Word :=
  let t := s.tide
  match off with
  | 0x000 => fields [(0, t.rate), (6, flag t.refOk), (7, flag t.fallback), (8, flag t.hold), (9, flag t.pend.isSome)]
  | 0x004 => BitVec.ofNat 32 (north s)
  | 0x008 => t.tcHi.setWidth 32
  | 0x00C => fields [(0, t.cal), (8, t.lic), (16, t.pwr), (24, t.therm)]
  | 0x010 => t.armT.setWidth 32
  | 0x014 => fields [(0, fld t.armT 32 16)]
  | 0x018 => fields [(0, t.armRate), (31, flag t.pend.isSome)]
  | 0x01C => t.err.setWidth 32
  | 0x020 => fields [(0, flag (refPresent s)), (1, flag t.locked), (8, t.losses)]
  | 0x028 => t.holdCause.setWidth 32
  | 0x02C => t.holdSrc
  | 0x030 => BitVec.ofNat 32 t.holdCount
  | 0x034 => t.live.extractLsb' 0 32
  | 0x038 => t.live.extractLsb' 32 32
  | 0x03C => t.live.extractLsb' 64 32
  | _ => if 0x1000 ≤ off ∧ off < 0x2800 then sluiceWord s ((off - 0x1000) / 16) (off / 4 % 4) else 0

/-- An owner field of RT_OWN (11 Table 11-10). -/
def ownField (o : Option Nat) : Nat := match o with | some k => 32 + k % 32 | none => 0

/-- A word of a router's space (11 Table 11-10). -/
def rtWord (s : State) (g a : Nat) : Word :=
  let r := getRouter s g
  match a with
  | 0x00 => fields [(0, modeOf s g)]
  | 0x04 => (laneWords s g).1
  | 0x08 => (laneWords s g).2
  | 0x0C => fields [(0, ownField r.own[0]), (8, ownField r.own[1]), (16, ownField r.own[2]), (24, ownField r.own[3])]
  | 0x10 => r.absorb.setWidth 32
  | 0x14 => fields [(0, r.high[0]), (8, r.high[1]), (16, r.high[2]), (24, r.high[3])]
  | 0x18 => BitVec.ofNat 32 r.ce
  | 0x1C => BitVec.ofNat 32 r.ue
  | 0x20 => r.defer
  | 0x24 => r.stale
  | 0x28 => r.heldCount
  | _ => if 0x1000 ≤ a ∧ (a - 0x1000) / 8 < periodOf s (panOf g) then (tget 0 r.slots ((a - 0x1000) / 8)).extractLsb' (8 * (a % 8)) 32 else 0

/-- The router that RT_SEL selects, where there is one (11 Table 11-9). -/
def rtSelected (s : State) : Option Nat :=
  let x := fld s.mesh.sel 0 10
  let y := fld s.mesh.sel 10 10
  if x < 960 ∧ y < 960 then some (y * 960 + x) else none

/-- A register of the mesh block (11 Table 11-9). -/
def meshWord (s : State) (off : Nat) : Word :=
  let m := s.mesh
  match off with
  | 0x000 => BitVec.ofNat 32 (lcodeOf s 96)
  | 0x004 => fields [(0, flag m.lanes)]
  | 0x008 => BitVec.ofNat 32 m.cwMax
  | 0x00C => m.err.setWidth 32
  | 0x010 => m.loc
  | 0x014 => m.sel
  | 0x018 => BitVec.ofNat 32 m.addr
  | 0x01C => match rtSelected s with | some g => rtWord s g m.addr | none => 0
  | 0x020 => m.ce
  | 0x024 => m.defer
  | _ => 0

/-- Contexts of an engine in RUN (12 Table 12-4). -/
def activeCtxs (x : Engine48) : Nat := (x.ctxs.filter (fun c => decide (c.2.st = .run))).length

/-- A register of the stream block: engines below 0x3000, stacks from there (12 R304, Tables 12-4, 12-5). -/
def streamWord (s : State) (off : Nat) : Word :=
  if off < 0x3000 then
    let x := getEng s (off / 0x100)
    match off % 0x100 with
    | 0x00 => fields [(0, flag x.trained), (8, activeCtxs x)]
    | 0x04 => x.refetch
    | 0x08 => BitVec.ofNat 32 x.subst
    | 0x0C => x.err.setWidth 32
    | 0x10 => x.errLoc
    | 0x14 => x.rdLines
    | 0x18 => x.wrLines
    | 0x1C => BitVec.ofNat 32 x.ctxSel
    | 0x20 => ctxWord (tget Ctx.zero x.ctxs x.ctxSel) x.ctxAddr
    | 0x24 => BitVec.ofNat 32 x.ctxAddr
    | _ => 0
  else if off < 0x3300 then
    let e := (off - 0x3000) / 0x10
    let x := getEng s e
    match off % 0x10 with
    | 0x0 => fields [(0, flag x.trained), (1, flag x.failed), (8, x.temp), (16, if x.failed then 0 else if x.trained then (freeGranules s e).length else 63)]
    | 0x4 => x.ce
    | 0x8 => x.ue
    | _ => x.denied
  else 0

/-- A port's registers (13 Table 13-7). -/
def portWord (x : Port) (off : Nat) : Word :=
  match off with
  | 0x00 => fields [(0, x.st), (8, x.lanes.toNat)]
  | 0x04 => fields [(1, flag x.disable)]
  | 0x08 => x.fecCe
  | 0x0C => x.fecUe
  | 0x10 => x.crc
  | 0x14 => x.retries
  | 0x18 => BitVec.ofNat 32 x.exhaust
  | 0x1C => BitVec.ofNat 32 x.rtt
  | 0x20 => x.txPkt
  | 0x24 => x.rxPkt
  | _ => 0

/-- A register of the Chidex block (13 Tables 13-6, 13-7). -/
def chidexWord (s : State) (off : Nat) : Word :=
  let f := s.fab
  match off with
  | 0x000 => fields [(0, s.modnum), (16, flag f.en)]
  | 0x004 => fields [(0, flag f.refDown), (1, (f.ports.filter (fun p => decide (p.2.st = 2) || decide (p.2.st = 3))).length)]
  | 0x008 => fields [(0, f.inj), (1, flag f.wr[0]), (2, flag f.wr[1])]
  | 0x00C => BitVec.ofNat 32 f.tmo
  | 0x034 => fields [(0, f.pl), (16, f.tmos)]
  | 0x038 => fields [(0, f.tblMod), (16, f.tblBank)]
  | 0x03C => tget 0 f.table (f.tblBank * 65536 + f.tblMod)
  | _ =>
    if 0x010 ≤ off ∧ off < 0x034 then f.drops[Fin.ofNat 9 ((off - 0x10) / 4)]
    else if 0x1000 ≤ off ∧ off < 0x1C00 then portWord (getPort s ((off - 0x1000) / 0x40)) (off % 0x40)
    else 0

/-- A word of a block that REG_READ names. -/
def blockWord (s : State) (block off : Nat) : Word :=
  match block with
  | 0 => tideWord s off
  | 1 => meshWord s off
  | 2 => streamWord s off
  | _ => chidexWord s off

/-- The router word after an access is the next one (11 Table 11-9). -/
def nextRt (s : State) : State := { s with mesh := { s.mesh with addr := (s.mesh.addr + 4) % 16384 } }

/-- What a read changes: TIDE_TC_HI is captured, RT_ADDR, SE_CTX_ADDR and the table's module index advance (14 R340). -/
def readEffect (block off : Nat) (s : State) : State :=
  if block = 0 ∧ off = 0x004 then
    { s with tide := { s.tide with tcHi := (BitVec.ofNat 48 (north s)).extractLsb' 32 16 } }
  else if block = 1 ∧ off = 0x01C then nextRt s
  else if block = 2 ∧ off < 0x3000 ∧ off % 0x100 = 0x20 then
    let e := off / 0x100
    setEng s e { getEng s e with ctxAddr := ((getEng s e).ctxAddr + 1) % 8 }
  else if block = 3 ∧ off = 0x03C then { s with fab := { s.fab with tblMod := (s.fab.tblMod + 1) % 65536 } }
  else s

-- The router space -----------------------------------------------------------------------------------------------

/-- A bit of MESH_ERR with the location of the first recorded error (11 Table 11-9). -/
def meshError (bit g : Nat) (s : State) : State :=
  let loc := if s.mesh.loc.getLsbD 31 then s.mesh.loc else BitVec.ofNat 32 (xyOf g + 2 ^ 31)
  { s with mesh := { s.mesh with err := setBit s.mesh.err bit true, loc := loc } }

/-- An owner from a field of RT_OWN. -/
def ownOf (v : Word) (k : Nat) : Option Nat := if v.getLsbD (8 * k + 5) then some (fld v (8 * k) 5) else none

/-- The lane index fields of a word. -/
def laneMask : Word := 0x03FF03FF#32

/-- A slot entry is written in halves; one that would be invalid, or would move data on a lane-owned output, is refused
(11 R263, R266). -/
def writeSlotHalf (g i : Nat) (high : Bool) (v : Word) (s : State) : State :=
  let r := getRouter s g
  let e := setFld (tget 0 r.slots i) (if high then 32 else 0) 32 v.toNat
  if periodOf s (panOf g) ≤ i then s
  else if !entryOk (modeOf s g) e then meshError 0 g s
  else if (List.finRange 4).any (fun (k : Fin 4) => decide (selOf e k ≠ 0) && laneOwned s g k i) then meshError 1 g s
  else setRouter s g { r with slots := tset 0 r.slots i e }

/-- A write of a router word (11 Table 11-10). -/
def rtWrite (g a : Nat) (v : Word) (s : State) : State :=
  let r := getRouter s g
  match a with
  | 0x00 => if fld v 0 2 = 3 then s else setRouter s g { r with mode := fld v 0 2 }
  | 0x04 => setRouter s g { r with laneSet := some (v &&& laneMask, (laneWords s g).2) }
  | 0x08 => setRouter s g { r with laneSet := some ((laneWords s g).1, v &&& laneMask) }
  | 0x0C => setRouter s g { r with own := #v[ownOf v 0, ownOf v 1, ownOf v 2, ownOf v 3] }
  | 0x10 => setRouter s g { r with absorb := v.extractLsb' 0 4, absorbFrom := (getNode s (panOf g)).steps + 1 }
  | _ => if 0x1000 ≤ a then writeSlotHalf g ((a - 0x1000) / 8) (decide (a % 8 = 4)) v s else s

/-- RT_DATA: an access to the word at RT_SEL and RT_ADDR, which advances (11 R284). -/
def execRtData (wr : Option Word) (s : State) : Out :=
  .next (nextRt (match wr, rtSelected s with
    | some v, some g => rtWrite g s.mesh.addr v s
    | _, _ => s))

-- The schedule period --------------------------------------------------------------------------------------------

/-- Whether the period may change: every partition EMPTY or absent (11 R262). -/
def allEmpty (s : State) : Bool := (List.range 32).all (fun k => decide ((getPart s k).st = .none) || decide ((getPart s k).st = .empty))
/-- Whether a test pack run is in progress (11 R262; 19 R473). -/
def testing (s : State) : Bool := (List.range 96).any (underTest s)

/-- A new period: the slot tables clear, and it takes effect one worst-case control wave ahead. The model's loader routes hold no
slots, so none is bound afresh: log 112 (11 R262). -/
def beginPeriod (lcode : Nat) (s : State) : State :=
  { s with
    routers := tmapv Router.zero (fun _ r => { r with slots := [] }) s.routers
    mesh := { s.mesh with pend := some (north s + s.mesh.cwMax, lcode) } }

/-- MESH_CFG: a write of LCODE, 6 to 10, while every partition is EMPTY or absent and no test runs (11 R262). -/
def execMeshCfg (v : Word) (s : State) : Out :=
  let k := fld v 0 4
  .next (if allEmpty s && !testing s && s.mesh.pend.isNone && decide (6 ≤ k) && decide (k ≤ 10) then beginPeriod k s else s)

/-- The REG_WRITE that changed the period completes (11 R262). -/
def endMeshCmd (s : State) : State :=
  match s.host.meshCmd with
  | some l => complete l.qp l.epoch l.cid stOK 0 15 [] { s with host := { s.host with meshCmd := none } }
  | none => s

/-- LCODE_CHANGE_APPLY: every pan takes the new period and the lane indices computed for it at its own count; at the north rim's
the REG_WRITE completes and CW_MAX is that of the new period; once the last live pan has come to its count the change is over
(11 R262). -/
def execLcodeChangeApply (s : State) : Out :=
  .next (match s.mesh.pend with
    | some (T, k) =>
      if north s < T then s
      else
        let s1 := endMeshCmd (if s.mesh.lanes then { s with mesh := { s.mesh with cwMax := (computeLanes s).mesh.cwMax } } else s)
        if (livePans s).all (fun n => decide (T ≤ (getNode s n).steps)) then
          { s1 with
            mesh := { s1.mesh with lcode := k, pend := none }
            routers := tmapv Router.zero (fun _ r => { r with laneSet := none }) s1.routers }
        else s1
    | none => s)

-- Writing --------------------------------------------------------------------------------------------------------

/-- The state that an outcome leaves. -/
def after (s : State) (o : Out) : State := match o with | .next t => t | _ => s

/-- A write to the tide block (10 Tables 10-4, 10-5). -/
def tideWrite (off : Nat) (v : Word) (s : State) : State :=
  let t := s.tide
  match off with
  | 0x00C => { s with tide := { t with lic := fld v 8 6, pwr := fld v 16 6, therm := fld v 24 6 } }
  | 0x010 => { s with tide := { t with armT := setFld t.armT 0 32 v.toNat } }
  | 0x014 => { s with tide := { t with armT := setFld t.armT 32 16 (fld v 0 16) } }
  | 0x018 =>
    let s1 := { s with tide := { t with armRate := fld v 0 6 } }
    if v.getLsbD 31 then after s1 (execTideArmGo s1) else s1
  | 0x01C => { s with tide := { t with err := t.err &&& ~~~ v.setWidth 6 } }
  | 0x024 =>
    let s1 := if v.getLsbD 0 then raiseHold 0 0x7F s else s
    if v.getLsbD 1 then releaseHold s1 else s1
  | 0x028 => clearCauses (fld v 0 5) s
  | 0x034 => (List.range 32).foldl (fun s i => if v.getLsbD i then leaveTide i s else s) s
  | 0x038 => (List.range 32).foldl (fun s i => if v.getLsbD i then leaveTide (32 + i) s else s) s
  | 0x03C => (List.range 32).foldl (fun s i => if v.getLsbD i then leaveTide (64 + i) s else s) s
  | _ =>
    if 0x1000 ≤ off ∧ off < 0x2800 ∧ off % 16 = 4 ∧ v.getLsbD 8 then
      let n := (off - 0x1000) / 16
      setSluice s n { getSluice s n with dead := false }
    else s

/-- A write to the mesh block (11 Table 11-9). -/
def meshWrite (off : Nat) (v : Word) (s : State) : State :=
  match off with
  | 0x000 => after s (execMeshCfg v s)
  | 0x00C => { s with mesh := { s.mesh with err := s.mesh.err &&& ~~~ v.setWidth 3 } }
  | 0x014 => { s with mesh := { s.mesh with sel := v &&& 0xFFFFF#32 } }
  | 0x018 => { s with mesh := { s.mesh with addr := fld v 2 12 * 4 } }
  | 0x01C => after s (execRtData (some v) s)
  | _ => s

/-- A write to the stream block (12 Table 12-4). -/
def streamWrite (off : Nat) (v : Word) (s : State) : State :=
  let e := off / 0x100
  let x := getEng s e
  if 0x3000 ≤ off then s
  else match off % 0x100 with
    | 0x0C => setEng s e { x with err := x.err &&& ~~~ v.setWidth 3 }
    | 0x1C => setEng s e { x with ctxSel := fld v 0 6 }
    | 0x24 => setEng s e { x with ctxAddr := fld v 0 3 }
    | _ => s

/-- A write of PORT_CTRL (13 R307, Table 13-7). -/
def portCtrl (p : Nat) (v : Word) (s : State) : State :=
  let q : Fin 48 := Fin.ofNat 48 p
  let s1 := if v.getLsbD 1 = (getPort s p).disable then s else after s (execPortCtrlDisable q (v.getLsbD 1) s)
  if v.getLsbD 0 then after s1 (execPortCtrlRetrain q s1) else s1

/-- A write to the Chidex block, with its status (13 Tables 13-6, 13-7; 14 R340). -/
def chidexWrite (off : Nat) (v : Word) (s : State) : Nat × State :=
  match off with
  | 0x000 => writeCxCfg v s
  | 0x008 => writeEpoch v s
  | 0x00C => if fld v 0 16 < 100 then (stBounds, s) else (stOK, { s with fab := { s.fab with tmo := fld v 0 16 } })
  | 0x038 => (stOK, { s with fab := { s.fab with tblMod := fld v 0 16, tblBank := fld v 16 1 } })
  | 0x03C => writeTable v s
  | _ => (stOK, if 0x1000 ≤ off ∧ off < 0x1C00 ∧ off % 0x40 = 4 then portCtrl ((off - 0x1000) / 0x40) v s else s)

/-- A write to the power control block; a value out of range is ignored (18 Table 18-6). -/
def capWrite (off : Nat) (v : Word) (s : State) : State :=
  let w := s.power
  if off = 0x000 then
    let t := fld v 0 16
    let r := fld v 16 9
    if 4000 ≤ t ∧ t ≤ 40000 ∧ 1 ≤ r ∧ r ≤ 400 then { s with power := { w with target := t, ramp := r } } else s
  else if off = 0x004 then (if fld v 0 13 ≤ 4000 then { s with power := { w with guard := fld v 0 13 } } else s)
  else if 0x200 ≤ off ∧ off < 0x380 ∧ v.getLsbD 6 then modPwr s ((off - 0x200) / 4) (fun x => { x with drift := false })
  else s

/-- A write to a pair's registers; the bases are ignored while EN = 1 (14 R342, Table 14-4). -/
def qpWrite (off : Nat) (v : Word) (s : State) : State :=
  let q := off / 0x40
  let p := getQp s q
  if 33 ≤ q then s
  else match off % 0x40 with
    | 0x00 => if p.en then s else setQp s q { p with sqBase := setFld p.sqBase 12 20 (fld v 12 20) }
    | 0x04 => if p.en then s else setQp s q { p with sqBase := setFld p.sqBase 32 32 v.toNat }
    | 0x08 => if p.en then s else setQp s q { p with cqBase := setFld p.cqBase 12 20 (fld v 12 20) }
    | 0x0C => if p.en then s else setQp s q { p with cqBase := setFld p.cqBase 32 32 v.toNat }
    | 0x10 => after s (execQpEnable (Fin.ofNat 33 q) v s)
    | 0x14 => if v.getLsbD 1 then setQp s q { p with evlost := false } else s
    | _ => s

/-- A firmware write to a block: 0 tide, 1 mesh, 2 stream, 3 Chidex, 4 power, 5 power control, 7 the pairs' registers in BAR0;
the reliability block, 6, has no register that can be written (00 R8, R9). -/
def fwWrite (block off : Nat) (v : Word) (s : State) : State :=
  match block with
  | 0 => tideWrite off v s
  | 1 => meshWrite off v s
  | 2 => streamWrite off v s
  | 3 => (chidexWrite off v s).2
  | 4 => if 0x100 ≤ off ∧ off < 0x700 ∧ off % 16 = 0xC ∧ v.getLsbD 0 then after s (execPanCtrlOff (Fin.ofNat 96 ((off - 0x100) / 16)) s) else s
  | 5 => capWrite off v s
  | 7 => qpWrite off v s
  | _ => s

/-- FIRMWARE_REGISTER_WRITE: a write to a register; reserved and read-only bits ignore it, a misaligned offset is no register
(00 R8, R9). -/
def execFirmwareRegisterWrite (block : Fin 8) (off : BitVec 16) (v : Word) (s : State) : Out :=
  .next (if off.toNat % 4 ≠ 0 then s else fwWrite block off.toNat v s)

-- REG_READ and REG_WRITE -----------------------------------------------------------------------------------------

/-- The block, offset and word count of a REG_READ or REG_WRITE (14 R340). -/
def regArgs (c : Cmd) : Nat × Nat × Nat := (argFld c 0 0 2, argFld c 0 16 16, argFld c 1 0 3 + 1)

/-- Reads words one after another, each with its side effect. -/
def regRead (block : Nat) : Nat → Nat → State → List Nat × State
  | 0, _, s => ([], s)
  | n + 1, off, s =>
    let (l, s1) := regRead block n (off + 4) (readEffect block off s)
    ((blockWord s block off).toNat :: l, s1)

/-- REG_READ: up to six words of a block, with the side effects of a firmware read (14 R340). -/
def execRegRead (c : Cmd) (s : State) : Out :=
  let (b, off, n) := regArgs c
  runCmd 0x02 true c (fun s =>
    [(badForm c true false false [0xFFFF0003, 7] || decide (off % 4 ≠ 0), stFormat), (!isO s c, stAuth),
     (decide (6 < n) || decide (65536 < off + 4 * n), stBounds)])
    (fun s => let (l, s1) := regRead b n off s; .done stOK l s1) s

/-- Whether REG_WRITE accepts a word (14 R340). -/
def regWritable (block off : Nat) : Bool :=
  match block with
  | 0 => decide (off = 0x01C) || (decide (0x1000 ≤ off) && decide (off < 0x2800) && decide (off % 16 = 4))
  | 1 => [0x000, 0x00C, 0x014, 0x018].contains off
  | 2 => decide (off < 0x3000) && (decide (off % 0x100 = 0x1C) || decide (off % 0x100 = 0x24))
  | _ => [0x000, 0x008, 0x00C, 0x038, 0x03C].contains off || (decide (0x1000 ≤ off) && decide (off < 0x1C00) && decide (off % 0x40 = 4))

/-- The words of a REG_WRITE: offset and value. -/
def regWords (c : Cmd) : List (Nat × Word) :=
  let (_, off, n) := regArgs c
  (List.range (min n 6)).map (fun i => (off + 4 * i, c.args.toList.getD (2 + i) 0))

/-- Why a word is refused, beyond BOUNDS for one that cannot be written (11 R262; 13 R313, R318, R321; 14 R340). -/
def wordStatus (s : State) (block off : Nat) (v : Word) : Nat :=
  if block = 3 then (chidexWrite off v s).1
  else if block = 1 ∧ off = 0 then
    if !allEmpty s then stState
    else if fld v 0 4 < 6 ∨ 10 < fld v 0 4 then stBounds
    else if testing s ∨ s.mesh.pend.isSome then stBusy
    else stOK
  else stOK

/-- REG_WRITE: words to permitted registers; a write of MESH_CFG completes at the count at which the period changes
(14 R340; 11 R262). -/
def execRegWrite (c : Cmd) (s : State) : Out :=
  let (b, off, n) := regArgs c
  let ws := regWords c
  let any := fun (s : State) (st : Nat) => ws.any (fun w => decide (wordStatus s b w.1 w.2 = st))
  runCmd 0x03 true c (fun s =>
    [(badForm c true false false ([0xFFFF0003, 7] ++ List.replicate n all32) || decide (off % 4 ≠ 0) || any s stFormat, stFormat),
     (!isO s c, stAuth), (any s stLicence, stLicence), (tooEarly s || any s stState, stState),
     (decide (6 < n) || decide (65536 < off + 4 * n) || ws.any (fun w => !regWritable b w.1) || any s stBounds, stBounds),
     (any s stBusy, stBusy)])
    (fun s =>
      let s1 := ws.foldl (fun s w => fwWrite b w.1 w.2 s) s
      if b = 1 ∧ off = 0 then .later { s1 with host := { s1.host with meshCmd := some (longOf .load c [] [] s) } }
      else .done stOK [] s1) s

end Sys2Proof.Machine
end

