-- ==== Sys2Proof/Machine/Boot.lean ====
section
/-! DEFINITION. Bring-up from power good to full service, the resets of the module, and the test packs with the watch
indicators (15 R369 to R387, R395; 10 R244, R245; 12 R286; 19 R473 to R476; 21 R504). -/

namespace Sys2Proof.Machine

-- Power good and reset -------------------------------------------------------------------------------------------

/-- POWER_GOOD: entry and rim supply have been in range for 10 ms: bring-up starts, where the power entry and the signal
connector are mated (15 R369; 01 R13). -/
def execPowerGood (s : State) : Out :=
  .next (if s.boot.entry && s.boot.signal && !s.boot.good then
      { s with boot := { s.boot with good := true }, power := { s.power with entryOk := true } }
    else s)

/-- FUNDAMENTAL_RESET: nothing is kept; the rim stays powered and bring-up starts again (15 R369, R395). -/
def execFundamentalReset (s : State) : Out :=
  let s1 := moduleReset s
  .next { s1 with
    boot := { s1.boot with good := s.boot.good }
    power := { s1.power with entryOk := s.power.entryOk, entryV := s.power.entryV, entryI := s.power.entryI } }

/-- A pan made dark in bring-up leaves the tide, and the module is suspect (15 R375). -/
def bringDark (p : Nat) (s : State) : State :=
  suspect 1 (leaveTide p (modPwr s p (fun x => { x with st := 5 })))

/-- A pan whose rail the stage finds shorted before P0 switches it on: its breaker stays open, and its index is reported (17
R432; 15 R375). -/
def bringShort (p : Nat) (s : State) : State :=
  pldm 3 p (suspect 1 (leaveTide p (modPwr s p (fun x => { x with st := 2, brk := true }))))

/-- PAN_GROUP_SWITCH_ON: P0 switches the next group on, but for pans whose rail is shorted; a pan whose stage does not regulate is
dark (15 R370, R375; 17 R432). -/
def execPanGroupSwitchOn (g : Fin 12) (stages : Stages) (s : State) : Out :=
  .next (if !s.boot.good || s.boot.groups.getLsbD g || !(List.range g).all (fun i => s.boot.groups.getLsbD i) then s
    else
      let s1 := { s with boot := { s.boot with groups := setBit s.boot.groups g true } }
      (List.range 8).foldl (fun s i =>
        let p := 8 * (g : Nat) + i
        if stages.shorted.getLsbD i then bringShort p s
        else if stages.bad.getLsbD i then bringDark p s
        else modPwr s p (fun x => { x with st := 1, set := railOf s p s.tide.rate })) s1)

/-- CXL_LINK_UP: the link has trained to x8, or degraded to x4 or x2, which raises an ALARM (14 R335, R338). -/
def execCxlLinkUp (width : Fin 3) (s : State) : Out :=
  let w := 8 / 2 ^ (width : Nat)
  .next (if !s.boot.good then s
    else
      let s1 := { s with boot := { s.boot with linkUp := true }, host := { s.host with linkw := w } }
      if w < 8 then postAlarm 3 s1 else s1)

-- The boot offer -------------------------------------------------------------------------------------------------

/-- What the ROM answers to an offer: STATE outside P1, FORMAT, BOUNDS, the sections, then AUTH (15 R372 to R374). -/
def offerStatus (resv : Bool) (addr : BitVec 64) (len : Word) (image : List Byte) (s : State) : Nat :=
  let n := len.toNat
  if !s.boot.linkUp ∨ s.boot.p1 then stState
  else if resv ∨ addr.toNat % 4096 ≠ 0 then stFormat
  else if n < 4096 ∨ 67108864 < n then stBounds
  else match Config.imageVersion (image.take n) with
    | none => stFormat
    | some (svn, _) => if !Config.sigOk 0 (image.take n) ∨ svn < s.fuse.fw then stAuth else stOK

/-- P1 ends: the image is in force, the FW counter advances, BOOTID is drawn, the limits of L1 apply and their ports train
(15 R372, R374; 16 R403, R409; 21 R504). -/
def startFirmware (image : List Byte) (s : State) : State :=
  let (svn, floor) := (Config.imageVersion image).getD (0, 0)
  licencePorts 0 16 { s with
    boot := { s.boot with p1 := true }
    sec := { s.sec with image := some image, svn := svn, bootid := BitVec.ofNat 128 (Config.freeNat s.free) }
    fuse := { s.fuse with fw := max s.fuse.fw floor }
    tide := { s.tide with lic := 44 }
    free := s.free + 1 }

/-- BOOT_OFFER: the ROM reads and checks the image and answers (15 R372). -/
def execBootOffer (resv : Bool) (addr : BitVec 64) (len : Word) (image : List Byte) (s : State) : Out :=
  let st := offerStatus resv addr len image s
  .next (if !s.boot.good then s
    else say 2 [0x81#8, BitVec.ofNat 8 st, 0, 0] (if st = stOK then startFirmware (image.take len.toNat) s else s))

-- P2 -------------------------------------------------------------------------------------------------------------

/-- D and CAP for a crossing time in units of 100 ps (10 R244). -/
def sluiceD (lat : Nat) : Nat × Nat :=
  let d := 4 + ceilDiv (lat + 4) 8
  if 12 < d then (12, 3200 / (lat + 4)) else (d, 50)

/-- A sluice calibrated from its measured times, inward and, at the rim, outward (10 R244, Table 10-5). -/
def calibrate (n : Nat) (lat : Nat × Nat) (s : State) : State :=
  let x := getSluice s n
  let a := min 255 lat.1
  let x1 := { x with d := (sluiceD a).1, cap := (sluiceD a).2, lat := a }
  let b := min 255 lat.2
  setSluice s n (if rimSide (n / 4) (n % 4) then { x1 with dOut := (sluiceD b).1, capOut := (sluiceD b).2, latOut := b } else x1)

/-- P2_MESH: with P0 and P1 complete the cores are zeroised, the sluices calibrated from the measured times, the pans named bad
made dark, and the lanes computed (15 R375; 10 R244; 11 R267, R274). -/
def execP2Mesh (lats : List (Nat × Nat)) (bad : List (Fin 96)) (s : State) : Out :=
  .next (if !s.boot.p1 || s.boot.p2 || decide (s.boot.groups ≠ BitVec.allOnes 12) then s
    else
      let s1 := mapCores { s with boot := { s.boot with p2 := true } } (fun _ _ => true) (fun _ c => zeroise c)
      let s2 := (List.range 384).foldl (fun s n => calibrate n (lats.getD n (0, 0)) s) s1
      let s3 := bad.foldl (fun s p => if panLive s p then bringDark p s else s) s2
      computeLanes (readback (fun _ => true) s3))

/-- EARLY is set once a pan is in early service and every stack has trained or failed (15 R383). -/
def earlyNow (s : State) : State :=
  if (livePans s).any (fun p => (getPan s p).num.isSome) && (List.range 48).all (fun e => (getEng s e).trained || (getEng s e).failed) then
    { s with host := { s.host with early := true } }
  else s

/-- STACK_TRAINING: a stack has trained or failed; a failure is reported, and the module is suspect (12 R286). -/
def execStackTraining (e : Fin 48) (ok : Bool) (s : State) : Out :=
  let x := getEng s e
  .next (if !s.boot.p1 || x.trained || x.failed then s
    else
      let s1 := setEng s e { x with trained := ok, failed := !ok }
      earlyNow (if ok then s1 else suspect 0 (pldm 6 e s1)))

/-- A pan's test entry. -/
def getTest (s : State) (p : Nat) : TestPan := tget TestPan.zero s.rel.pans p
/-- The module with a pan's test entry replaced. -/
def setTest (s : State) (p : Nat) (x : TestPan) : State := { s with rel := { s.rel with pans := tset TestPan.zero s.rel.pans p x } }

-- P3, P4 ---------------------------------------------------------------------------------------------------------

/-- The DEFECT positions of a pan: those its kernels found and those of the fused configuration, ascending (15 R380). -/
def defectsOf (s : State) (p : Nat) (bad : List Nat) : List Nat :=
  let fused := (s.fuse.bad.filter (fun g => decide (panOf g = p))).map localOf
  (List.range 9600).filter (fun l => bad.contains l || fused.contains l)

/-- A pan numbered: its DEFECT cores and their routers in PASS, the other cores zeroised; its
test interval begins (15 R380, R381; 19 R472, R473). -/
def numberPan (p : Nat) (ds : List Nat) (s : State) : State :=
  let s1 := ds.foldl (fun s l =>
    let g := coreAt p l
    modRouter (setCore s g { Core.zero with r := { CoreRegs.zero with st := .defect } }) g (fun r => { r with mode := 1 })) s
  let s2 := mapCores s1 (fun g _ => decide (panOf g = p)) (fun _ c => zeroise c)
  setTest (setPan s2 p { getPan s2 p with defects := ds, num := some p }) p { getTest s2 p with passAt := s.time }

/-- The PLDM report of a pan's good cores and of the module's total (01 R17). -/
def coreReport (s : State) (p : Nat) : List Byte := 0x11#8 :: BitVec.ofNat 8 p :: nbytes 2 (reportedCount s p) ++ nbytes 4 (goodTotal s)

/-- P3_KERNELS: the pan's time budget ends: its defect map, its numbers, early service. bad are the local positions that
faulted or wrote no pass word; 9,600 says that a router failed a check, which takes the pan dark (15 R380 to R383; 11 R258). -/
def execP3Kernels (p : Fin 96) (bad : List Nat) (s : State) : Out :=
  .next (if !s.boot.p2 || !panLive s p || (getPan s p).num.isSome then s
    else if bad.contains 9600 then bringDark p s
    else
      let ds := defectsOf s p bad
      let s1 := numberPan p ds s
      let s2 := say 2 (coreReport s1 p) (if 9600 - ds.length < 9216 then suspect 2 s1 else s1)
      earlyNow (readback (fun g => decide (panOf g = (p : Nat))) s2))

/-- Whether a pan is in no partition or in an EMPTY one (15 R385, R387). -/
def idlePan (s : State) (p : Nat) : Bool :=
  match (getPan s p).part with
  | none => true
  | some k => decide ((getPart s k).st = .empty)

/-- P4_KERNELS: a pan in early service and in no job runs the short-format kernels; a failure makes the module suspect
(15 R385, R387). -/
def execP4Kernels (p : Fin 96) (ok : Bool) (s : State) : Out :=
  .next (if (getPan s p).num.isNone || !panLive s p || s.boot.p4.contains p || !idlePan s p then s
    else
      let s1 := { s with boot := { s.boot with p4 := (p : Nat) :: s.boot.p4 } }
      if ok then setPan s1 p { getPan s1 p with shortOn := true } else suspect 3 s1)

-- P5 -------------------------------------------------------------------------------------------------------------

/-- The sluice entries of live pans with their times, latencies and ceilings, the outward crossings at the rim among them. -/
def crossings (s : State) (lats : List (Nat × Nat)) : List (Nat × Nat × Nat) :=
  ((List.range 384).filter (fun n => panLive s (n / 4))).flatMap (fun n =>
    let x := getSluice s n
    let t := lats.getD n (0, 0)
    (t.1, x.d, x.cap) :: (if rimSide (n / 4) (n % 4) then [(t.2, x.dOut, x.capOut)] else []))

/-- The largest code at or below every CAP at which every D still covers the measured time; none from 8 up (10 R245). -/
def confirmed (cs : List (Nat × Nat × Nat)) : Option Nat :=
  let cap := cs.foldl (fun m c => min m c.2.2) 50
  (((List.range 43).map (50 - ·)).filter (fun k => decide (k ≤ cap))).find? (fun k =>
    cs.all (fun c => decide ((c.1 + 4) * k ≤ (c.2.1 - 4) * 400)))

/-- LAT of a live pan's sluices as P5 measures it anew; D and CAP stay as they are (10 R245). -/
def remeasure (lats : List (Nat × Nat)) (s : State) (n : Nat) : State :=
  let x := getSluice s n
  let t := lats.getD n (0, 0)
  if !panLive s (n / 4) then s
  else setSluice s n { x with lat := min 255 t.1, latOut := if rimSide (n / 4) (n % 4) then min 255 t.2 else x.latOut }

/-- CAL confirmed: a code below 22 schedules a change to it and makes the module suspect (10 R245; 15 R386). -/
def setCal (k : Option Nat) (s : State) : State :=
  let c := k.getD 8
  let s1 := { s with tide := { s.tide with cal := c } }
  if k.isSome ∧ 22 ≤ c then s1
  else
    let s2 := suspect 4 s1
    if c < s2.tide.rate ∧ s2.tide.pend.isNone then
      let s3 := deliverRate (north s2 + 4096) c s2
      { s3 with power := { s3.power with lowering := some (north s2 + 4096, c) } }
    else s2

/-- A pan's power calibrated: its coefficients and its offset, within its range, are free values (18 R445, R455). -/
def calibratePan (s : State) (p : Nat) : State :=
  if (getPwr s p).cald || !idlePan s p then s
  else
    let v : Int := (Config.freeNat s.free % 21 : Nat) - 10
    { modPwr s p (fun x => { x with cald := true, cal := s.free + 1, vofs := BitVec.ofInt 5 v }) with free := s.free + 1 }

/-- VF_TABLE as the THERM section of the firmware image loads it (15 R386; 18 R445). -/
def loadTherm (s : State) : State :=
  let sec := Config.fwPart 7 (s.sec.image.getD [])
  { s with power := { s.power with vf := some ((List.range 43).map (fun i => Config.vfPoint sec (8 + i) % 1024)) } }

/-- P5_FULL_SERVICE: with every live pan through P4 and the reference locked the rails rise, CAL is confirmed from the measured
times, the pans in no job are calibrated, and FULL is set once every live pan is (15 R386, R387; 10 R245; 18 R455). -/
def execP5FullService (lats : List (Nat × Nat)) (s : State) : Out :=
  .next (if !s.boot.p2 || s.host.full || !s.tide.locked || !(livePans s).all (fun p => s.boot.p4.contains p) then s
    else
      let s1 := if s.boot.p5 then s
        else calibrateRim (setRails s.tide.rate (setCal (confirmed (crossings s lats))
          ((List.range 384).foldl (remeasure lats) (loadTherm { s with boot := { s.boot with p5 := true } }))))
      let s2 := (livePans s1).foldl calibratePan s1
      if (livePans s2).all (fun p => (getPwr s2 p).cald) then { s2 with host := { s2.host with full := true } } else s2)

-- Test packs -----------------------------------------------------------------------------------------------------

/-- One minute, in picoseconds. -/
def minute : Nat := 60000000000000

/-- Whether a pan is free for a test: in no partition, or in one that is EMPTY or SAVED with no long command (19 R473). -/
def freePan (s : State) (p : Nat) : Bool :=
  match (getPan s p).part with
  | none => true
  | some k => (decide ((getPart s k).st = .empty) || decide ((getPart s k).st = .saved)) && (getPart s k).long.isNone

/-- TESTPACK_RUN: a due pan that is free begins a run (19 R473). -/
def execTestpackRun (p : Fin 96) (s : State) : Out :=
  let x := getTest s p
  .next (if panLive s p && (getPan s p).num.isSome && !x.run && freePan s p && decide (x.passAt + s.rel.interval * minute ≤ s.time) then
      setTest s p { x with run := true }
    else s)

/-- TESTPACK_RUN_END: the cores are zeroised; a pass restarts the pan's interval, a failure quarantines the pan and makes the
module suspect. fail is the kernel and the local x and y of the first failing core (19 R473, R474). -/
def execTestpackRunEnd (p : Fin 96) (fail : Option (Nat × Nat × Nat)) (s : State) : Out :=
  let x := getTest s p
  .next (if !x.run then s
    else
      let s1 := mapCores { s with rel := { s.rel with runs := (s.rel.runs + 1) % 2 ^ 32 } } (fun g _ => decide (panOf g = (p : Nat))) (fun _ c => zeroise c)
      readback (fun g => decide (panOf g = (p : Nat))) (match fail with
      | none => setTest s1 p { x with run := false, pass := true, passAt := s.time, overdue := false }
      | some f =>
        let s2 := setTest s1 p { x with run := false, pass := false, quar := true, fail := some f }
        suspect 7 { s2 with rel := { s2.rel with fails := min 0xFFFF (s2.rel.fails + 1) } }))

/-- PAN_OVERDUE: 24 intervals since the pan's last pass mark it OVERDUE and set the watch bit (19 R473, R476). -/
def execPanOverdue (p : Fin 96) (s : State) : Out :=
  let x := getTest s p
  .next (if panLive s p && (getPan s p).num.isSome && !x.overdue && decide (x.passAt + 24 * s.rel.interval * minute ≤ s.time) then
      watch 4 (setTest s p { x with overdue := true })
    else s)

/-- Whether a watch condition still stands (19 Table 19-6). -/
def standing (s : State) (b : Fin 6) : Bool :=
  match b with
  | 0 => false
  | 1 => false
  | 2 => s.fab.ports.any (fun p => decide (p.2.st = 5))
  | 3 => s.power.pans.any (fun p => p.2.drift)
  | 4 => s.rel.pans.any (fun p => p.2.overdue)
  | 5 => !(recent s (24 * hour) s.rel.ue).isEmpty

/-- WATCH_CLEAR: a watch indicator clears once its condition has been absent for 24 h (19 R476). -/
def execWatchClear (b : Fin 6) (s : State) : Out :=
  .next (if s.rel.seen[b] + 24 * hour ≤ s.time ∧ !standing s b then { s with rel := { s.rel with watch := setBit s.rel.watch b false } } else s)

end Sys2Proof.Machine
end

