-- ==== Sys2Proof/Machine/Debug.lean ====
section
/-! DEFINITION. Debug: attachment, halting, breakpoints and counts, the rake view, manual release, resets and the debug log
(20 R480 to R498; 15 R388; 16 R419, R420). -/

namespace Sys2Proof.Machine

-- Running a debug command ----------------------------------------------------------------------------------------

/-- Runs a command as runCmd does, with an entry in the debug log when it completes; wcrc is the CRC of what it writes
(20 R482, R496). -/
def runDbg (opc : Nat) (modCmd : Bool) (c : Cmd) (wcrc : Nat) (checks : State → List (Bool × Nat)) (f : State → Reply) (s : State) : Out :=
  match takeEntry c.qp s with
  | none => .next s
  | some s1 =>
    let ep := (getQp s1 c.qp).epoch
    let g := (getQp s1 c.qp).grant
    let fin := fun (st : Nat) (res : List Nat) (s : State) =>
      complete c.qp ep c.cid st c.part (stateField modCmd c.part s) res
        (logDebug opc st c.part g (arg c 0) (arg c 1) (arg c 2) (if st = stOK then wcrc else 0) s)
    let no := fun (code : Nat) (s : State) => { s with host := { s.host with refused := (opc, (c.part : Nat), code) :: s.host.refused } }
    match firstCode (checks s1) with
    | some code => .next (fin code [] (no code s1))
    | none =>
      match f s1 with
      | .done st res s2 => .next (fin st res (if st = stOK then s2 else no st s2))
      | .later s2 => .next s2

/-- The rights of a grant. -/
inductive Right where
  | read
  | write
  | sync
  | reset
deriving DecidableEq, Repr

/-- Whether the pair's grant holds a right (16 Table 16-7). -/
def hasRight (s : State) (c : Cmd) (r : Right) : Bool :=
  match (getQp s c.qp).grant with
  | some g => g.rights.getLsbD (match r with | .read => 0 | .write => 1 | .sync => 2 | .reset => 3)
  | none => false

/-- The checks that every debug command begins with: form, principal and right, attachment and the partition's state
(20 R482). -/
def dbgChecks (c : Cmd) (bad : Bool) (r : Right) (legal : List PSt) (s : State) : List (Bool × Nat) :=
  [(bad, stFormat), (!isD s c || !hasRight s c r, stAuth), (tooEarly s || !attachedAs s c || !inSt s c legal, stState)]

/-- The states in which a debugger may be attached (20 R480). -/
def attachedSt : List PSt := [.empty, .loading, .ready, .running, .held, .draining, .saved, .faulted]

/-- The cores that SCOPE and ARG1 select: one, a cluster, the partition; none where the image core is not the partition's
(20 R483). -/
def selCores (s : State) (c : Cmd) : Option (List Nat) :=
  let k : Nat := c.part
  let g? := imageCore s k (argFld c 1 0 20)
  match argFld c 0 0 2 with
  | 0 => g?.map (fun g => [g])
  | 1 => g?.map (fun g => (goodCores s (panOf g)).filter (fun h => decide (clusterOf h = clusterOf g)))
  | _ => some ((getPart s k).pans.flatMap (goodCores s))

/-- A selection that breaks the format: SCOPE 3, or an image core with SCOPE 2 (20 R483). -/
def badScope (c : Cmd) : Bool := decide (argFld c 0 0 2 = 3) || (decide (argFld c 0 0 2 = 2) && decide (arg c 1 ≠ 0))

/-- Changes the debugger of a partition. -/
def modDbg (k : Nat) (f : Dbg → Dbg) (s : State) : State := modPart s k (fun p => { p with dbg := p.dbg.map f })

/-- A debug command that completes later, with its deadline and cores. -/
def dbgCmd (opc : Nat) (c : Cmd) (at_ : Nat) (cores : List Nat) (s : State) : DbgCmd :=
  ⟨opc, c.qp, (getQp s c.qp).epoch, c.cid, at_, cores, [arg c 0, arg c 1, arg c 2]⟩

-- Attaching ------------------------------------------------------------------------------------------------------

/-- DEBUG_ATTACH: the pair's debugger is attached; with HALT every core of the partition gets a halt request (20 R480). -/
def execDebugAttach (c : Cmd) (s : State) : Out :=
  let k : Nat := c.part
  runDbg 0x38 false c 0 (fun s =>
    [(badForm c false false false [1], stFormat), (!isD s c, stAuth),
     (tooEarly s || !inSt s c [.empty, .ready, .running, .held, .faulted], stState), ((getPart s k).dbg.isSome, stBusy)])
    (fun s =>
      match (getQp s c.qp).grant with
      | none => .done stAuth [] s
      | some g =>
        let s1 := modPart s k (fun p => { p with dbg := some ⟨c.qp, g, haltedCores s k, []⟩ })
        .done stOK [] (if argFld c 0 0 1 = 1 then sendHalts (activeCores s k) s1 else s1)) s

/-- DEBUG_DETACH (20 R480, R494). -/
def execDebugDetach (c : Cmd) (s : State) : Out :=
  runDbg 0x39 false c 0 (fun s =>
    [(badForm c false false false [1], stFormat), (!isD s c, stAuth), (tooEarly s || !attachedAs s c, stState)])
    (fun s => .done stOK [] (detach c.part (decide (argFld c 0 0 1 = 1)) s)) s

/-- DEBUG_GRANT_EXPIRY: the north rim count reaches NOTAFTER and the binding ends (16 R420). -/
def execDebugGrantExpiry (q : Fin 33) (s : State) : Out :=
  .next (match (getQp s q).grant with
    | some g => if isAhead s g.after then s else endPair q s
    | none => s)

-- Halting --------------------------------------------------------------------------------------------------------

/-- DBG_HALT: halt requests to the selected cores in RUN or HOLD; with none it completes at once (20 R483, R484). -/
def execDbgHalt (c : Cmd) (s : State) : Out :=
  let k : Nat := c.part
  runDbg 0x3A false c 0 (fun s => dbgChecks c (badForm c false false false [3, 0xFFFFF, all32] || badScope c) .read [.running, .held] s ++
    [((selCores s c).isNone, stBounds)])
    (fun s =>
      let gs := ((selCores s c).getD []).filter (fun g => [CoreSt.run, .hold].contains (getCore s g).r.st)
      if gs.isEmpty then .done stOK [0, 0] s
      else
        let t := arg c 2
        .later (modDbg k (fun d => { d with cmds := d.cmds ++ [dbgCmd 0x3A c (north s + (if t = 0 then 65536 else t)) gs s] }) (sendHalts gs s))) s

/-- The cores of a DBG_HALT in a state. -/
def cmdCores (s : State) (d : DbgCmd) (l : List CoreSt) : Nat := (d.cores.filter (fun g => l.contains (getCore s g).r.st)).length

/-- Whether every core of a DBG_HALT is in HALT or FAULT, or has been reset. -/
def haltsDone (s : State) (d : DbgCmd) : Bool := d.cores.all (fun g => !([CoreSt.run, .hold].contains (getCore s g).r.st))

/-- Whether a message to a core is still on its way (20 R491). -/
def sentTo (s : State) (k g : Nat) : Bool :=
  let mine := fun (m : Msg) => msgOf k m && decide (m.tgt = some g) && !m.bc
  let ctl := fun (f : Flight) => match f.x with | .ctl m => mine m.msg | _ => false
  s.routers.any (fun gr => gr.2.lanes.toList.any (fun l => l.any (fun m => mine m.msg)) || gr.2.port.any (fun m => mine m.2.msg)) ||
  s.sluices.any (fun x => x.2.held.any ctl || x.2.out.any ctl) || s.edges.any (fun x => x.2.ctl.any (fun m => mine m.msg))

/-- What a debug command in progress completes with now, if it does: a DBG_HALT once its cores have halted, a DBG_SYNC once its
message has been applied (20 R484, R491). -/
def dbgDone (s : State) (k : Nat) (d : DbgCmd) : Option (List Nat) :=
  if d.opc = 0x3A then if haltsDone s d then some [cmdCores s d [.halt], 0] else none
  else if d.opc = 0x3E then if d.cores.any (sentTo s k) then none else some []
  else none

/-- The debug commands of a partition that have come to their end complete. -/
def settleDbg (k : Nat) (s : State) : State :=
  match (getPart s k).dbg with
  | none => s
  | some d =>
    d.cmds.foldl (fun s x =>
      match dbgDone s k x with
      | some res => finishDbg k d.grant x stOK res (modDbg k (fun d => { d with cmds := d.cmds.erase x }) s)
      | none => s) s

/-- NODE_STEP: the node completes the step in progress and begins the next; ups are the errors of the step. At a step of
the north rim the debug commands in progress are looked at (10 R240; 20 R484). -/
def execNodeStep (n : Fin 100) (ups : List Upset) (s : State) : Out :=
  .next (if (n : Nat) = 96 ∧ nodeReady s n then (s.parts.map Prod.fst).foldl (fun s k => settleDbg k s) (nodeStep n ups s)
    else nodeStep n ups s)

/-- DBG_HALT_TIMEOUT: the timeout of a DBG_HALT has passed; halt requests still pending stay in force (20 R484). -/
def execDbgHaltTimeout (k : Fin 32) (s : State) : Out :=
  .next (match (getPart s k).dbg with
    | none => s
    | some d =>
      (d.cmds.filter (fun x => decide (x.opc = 0x3A) && decide (x.at_ ≤ north s))).foldl (fun s x =>
        finishDbg k d.grant x (if haltsDone s x then stOK else stTimeout) [cmdCores s x [.halt], cmdCores s x [.run, .hold]]
          (modDbg k (fun d => { d with cmds := d.cmds.erase x }) s)) s)

-- Running --------------------------------------------------------------------------------------------------------

/-- A count at or before a step, as 48 bits read (00 R4). -/
def atOrBefore (t : Count) (n : Nat) : Bool := decide ((n + (2 ^ 48 - t.toNat)) % 2 ^ 48 < 2 ^ 47)

/-- The station of a core that resumes at step n: its resume count is past, and a halt count at or before it is dropped
(20 R495). -/
def pastRun (n : Nat) (t : Station) : Station :=
  { t with runTc := none, haltTc := match t.haltTc with | some T => if atOrBefore T n then none else some T | none => none }

/-- Cores resume at their step; the answer is those that were in HALT. -/
def resumeAll (gs : List Nat) (s : State) : List Nat × State :=
  let on := gs.filter (fun g => decide ((getCore s g).r.st = .halt))
  (on, on.foldl (fun s g => setStation (resumeCore s g) (stationOf g) (pastRun (getNode s (panOf g)).steps (getStation s (stationOf g)))) s)

/-- DBG_RUN: the selected cores in HALT resume, at once or at a count, and halt N steps later (20 R488). -/
def execDbgRun (c : Cmd) (s : State) : Out :=
  let k : Nat := c.part
  runDbg 0x3B false c 0 (fun s => dbgChecks c (badForm c false true false [3, 0xFFFFF, all32] || badScope c) .read [.running, .held] s ++
    [((selCores s c).isNone ||
      (decide (c.tc ≠ 0) && (!isAhead s c.tc || decide (aheadBy s c.tc < 8192) || decide (2 ^ 32 < aheadBy s c.tc))), stBounds)])
    (fun s =>
      let gs := ((selCores s c).getD []).filter (fun g => decide ((getCore s g).r.st = .halt))
      if c.tc = 0 then
        let r := resumeAll gs s
        .done stOK [r.1.length] (if arg c 2 = 0 then r.2
          else modPart r.2 k (fun p => { p with runs := p.runs ++ [⟨north s, [], arg c 2, r.1⟩] }))
      else
        let T := stepOf s c.tc
        let s1 := gs.foldl (fun s g => setStation s (stationOf g) { getStation s (stationOf g) with runTc := some c.tc }) s
        .later (modDbg k (fun d => { d with cmds := d.cmds ++ [dbgCmd 0x3B c T gs s] })
          (modPart s1 k (fun p => { p with runs := p.runs ++ [⟨T, gs, arg c 2, []⟩] })))) s

/-- The cores of an armed run whose pans have reached the resume count resume. -/
def runDue (k : Nat) (a : RunArm) (s : State) : State :=
  let due := a.cores.filter (fun g => decide (a.at_ ≤ (getNode s (panOf g)).steps))
  let r := resumeAll due s
  let a1 := { a with cores := a.cores.filter (fun g => !due.contains g), gone := a.gone ++ r.1 }
  modPart r.2 k (fun p => { p with runs := p.runs.map (fun b => if b = a then a1 else b) })

/-- A DBG_RUN completes once the north rim has reached its count and every core has been looked at. -/
def runEnd (k : Nat) (d : Dbg) (s : State) (x : DbgCmd) : State :=
  match (getPart s k).runs.find? (fun a => decide (a.at_ = x.at_) && decide (a.steps = x.args.getD 2 0) && a.cores.isEmpty &&
      (x.cores.all (fun g => decide (a.at_ ≤ (getNode s (panOf g)).steps)))) with
  | some a =>
    if a.at_ ≤ north s then
      finishDbg k d.grant x stOK [a.gone.length] (modDbg k (fun d => { d with cmds := d.cmds.erase x })
        (modPart s k (fun p => { p with runs := if a.steps = 0 then p.runs.erase a else p.runs })))
    else s
  | none => s

/-- DBG_RESUME_COUNT: the resume count is reached: cores whose pans are at it resume, and the command completes at the count
(20 R488). -/
def execDbgResumeCount (k : Fin 32) (s : State) : Out :=
  .next (if s.tide.frozen then s
    else
      let s1 := (getPart s k).runs.foldl (fun s a => if a.cores.isEmpty then s else runDue k a s) s
      match (getPart s1 k).dbg with
      | some d => (d.cmds.filter (fun x => decide (x.opc = 0x3B))).foldl (runEnd k d) s1
      | none => s1)

/-- HALT_COUNT_REACHED: the halt count of the core's station, or of a DBG_RUN it resumed by, is reached: the core takes a halt
request (20 R487, R488). -/
def execHaltCountReached (g : Nat) (s : State) : Out :=
  if numCores ≤ g then .fault .noSuchUnit
  else
    let n := (getNode s (panOf g)).steps
    let t := getStation s (stationOf g)
    let k := ((getPan s (panOf g)).part).getD 32
    let p := getPart s k
    let byTc := t.mask.getLsbD (posOf g) && (match t.haltTc with | some T => atOrBefore T n | none => false)
    let mine := fun (a : RunArm) => decide (0 < a.steps) && a.gone.contains g && decide (a.at_ + a.steps ≤ n)
    let byRun := p.runs.any mine
    .next (if s.tide.frozen || p.dbg.isNone || !(byTc || byRun) || !decide ((getCore s g).r.st = .run) then s
      else
        let s1 := setCore s g (requestHalt (envOf s g) (getCore s g))
        modPart s1 k (fun p => { p with
          runs := (p.runs.map (fun a => if mine a then { a with gone := a.gone.erase g } else a)).filter (fun a => !(a.cores.isEmpty && a.gone.isEmpty)) }))

-- Breakpoints ----------------------------------------------------------------------------------------------------

/-- The stations of cores, each with the mask of the cores' positions. -/
def stationMasks (gs : List Nat) : List (Nat × BitVec 64) :=
  ((gs.map stationOf).dedup).map (fun t =>
    (t, (gs.filter (fun g => decide (stationOf g = t))).foldl (fun m g => m ||| BitVec.ofNat 64 (2 ^ posOf g)) 0))

/-- A setting applied at the stations of the selected cores, with their positions put under it (20 R486). -/
def atStations (c : Cmd) (f : Station → BitVec 64 → Station) (s : State) : State :=
  (stationMasks ((selCores s c).getD [])).foldl (fun s tm => setStation s tm.1 (f (getStation s tm.1) tm.2)) s

/-- DBG_BREAK of one OP; a command whose OP is another belongs to another row (20 R486). -/
def dbgBreak (op : Nat) (c : Cmd) (useTc : Bool) (mask2 mask3 : Nat) (bad : Bool) (beyond : State → Bool) (f : Station → BitVec 64 → Station)
    (s : State) : Out :=
  if argFld c 2 0 2 ≠ op then .next s
  else runDbg 0x3C false c 0 (fun s =>
    dbgChecks c (badForm c false useTc false [3, 0xFFFFF, mask2, mask3] || badScope c || bad) .read [.ready, .running, .held] s ++
      [((selCores s c).isNone || beyond s, stBounds)])
    (fun s => .done stOK [] (atStations c f s)) s

/-- The comparator that ARG2 names. -/
def bpNo (c : Cmd) : Fin 2 := Fin.ofNat 2 (argFld c 2 2 1)

/-- DBG_BREAK with OP 0: a comparator is set to an address (20 R486). -/
def execDbgBreakSet (c : Cmd) (s : State) : Out :=
  dbgBreak 0 c false 7 0x3FFF (decide (argFld c 3 0 2 ≠ 0)) (fun _ => false)
    (fun t m => { t with bp := t.bp.set (bpNo c) (BitVec.ofNat 32 (argFld c 3 0 14 + 2 ^ 14)), mask := t.mask ||| m }) s

/-- DBG_BREAK with OP 1: a comparator is cleared (20 R486). -/
def execDbgBreakClear (c : Cmd) (s : State) : Out :=
  dbgBreak 1 c false 7 0 false (fun _ => false) (fun t _ => { t with bp := t.bp.set (bpNo c) 0 }) s

/-- DBG_BREAK with OP 2: the halt count is set; it must be ahead of the north rim count (20 R486). -/
def execDbgHaltCountSet (c : Cmd) (s : State) : Out :=
  dbgBreak 2 c true 3 0 false (fun s => !isAhead s c.tc) (fun t m => { t with haltTc := some c.tc, mask := t.mask ||| m }) s

/-- DBG_BREAK with OP 3: the halt count is cleared (20 R486). -/
def execDbgHaltCountClear (c : Cmd) (s : State) : Out :=
  dbgBreak 3 c false 3 0 false (fun _ => false) (fun t _ => { t with haltTc := none }) s

-- The rake view --------------------------------------------------------------------------------------------------

/-- The n bytes of a core's debug view from an offset: its context image, then its control registers (20 R489). -/
def debugView (s : State) (g a n : Nat) : List Byte :=
  let c := getCore s g
  let low := if a < imageLen then imageRead c a (min n (imageLen - a)) else []
  let regs := (List.range 64).flatMap (fun i => bytesOf (crRead (envOf s g) c (4 * i)) 4)
  low ++ (regs.drop (a - imageLen)).take (a + n - max a imageLen)

/-- Whether a core that a command names lies in a dark pan (17 R430). -/
def inDark (s : State) (g : Option Nat) : Bool := match g with | some g => !panLive s (panOf g) | none => false

/-- The checks of DBG_RAKE; dir is the direction that the row stands for. A core of a dark pan is lost and in no state: it gives
PAN_DARK (20 R489; 17 R430). -/
def rakeChecks (dir : Nat) (c : Cmd) (s : State) : List (Bool × Nat) :=
  let off := argFld c 1 0 17
  let n := argFld c 2 0 17
  let g? := imageCore s c.part (argFld c 0 0 20)
  let st := g?.map (fun g => (getCore s g).r.st)
  dbgChecks c (badForm c false false true [0xFFFFF, 0x1FFFF, 0x1FFFF, dir] || decide (off % 32 ≠ 0) || decide (n % 32 ≠ 0) || decide (n = 0))
    (if dir = 1 then .write else .read) attachedSt s ++
  [(!inDark s g? && (match st with
      | some x => !([CoreSt.halt, .fault, .clear].contains x) || (decide (dir = 1) && decide (x = .clear))
      | none => false), stState),
   (g?.isNone || decide ((if dir = 1 then imageLen else imageLen + 256) < off + n) || decide (c.bufLen.toNat < n), stBounds),
   (inDark s g?, stPanDark)]

/-- DBG_RAKE with DIR 0: the bytes of the view, SRAM as it is read, go to the host buffer (20 R489; 02 R46). -/
def execDbgRakeRead (c : Cmd) (s : State) : Out :=
  if argFld c 3 0 1 = 1 then .next s
  else runDbg 0x3D false c 0 (rakeChecks 0 c)
    (fun s =>
      let g := coreOf s c.part (argFld c 0 0 20)
      let off := argFld c 1 0 17
      let bs := debugView s g off (argFld c 2 0 17)
      let s1 := setCore s g (rakeCount true off bs.length (getCore s g))
      .done stOK [bs.length] { s1 with host := { s1.host with out := s1.host.out ++ [⟨c.bufAddr.toNat, bs⟩] } }) s

/-- The bytes that a DBG_RAKE writes. -/
def rakeBytes (c : Cmd) : List Byte := padTo (argFld c 2 0 17) (bufOf c)

/-- DBG_RAKE with DIR 1: bytes of the host buffer go to the context image; the whole image from offset 0 is a restore, which
clears the fault record (20 R489, R490). -/
def execDbgRakeWrite (c : Cmd) (s : State) : Out :=
  if argFld c 3 0 1 = 0 then .next s
  else runDbg 0x3D false c (crc32c (rakeBytes c)).toNat (rakeChecks 1 c)
    (fun s =>
      let g := coreOf s c.part (argFld c 0 0 20)
      let off := argFld c 1 0 17
      let bs := rakeBytes c
      let x := getCore s g
      .done stOK [bs.length] (setCore s g (rakeMark (envOf s g).now off bs.length
        (if off = 0 ∧ bs.length = imageLen then restoreImage bs x else imageWrite off bs x)))) s

-- Manual release -------------------------------------------------------------------------------------------------

/-- The image core that a DBG_SYNC names, as a core. -/
def syncCore (s : State) (c : Cmd) : Option Nat := imageCore s c.part (argFld c 1 0 20)

/-- DBG_SYNC of one KIND; reserved kinds are refused with FORMAT, and a command of another kind belongs to another row. need is
the kind's requirement, undeclared what completes with BOUNDS (20 R491, Table 20-2). -/
def dbgSync (kind : Nat) (c : Cmd) (mask1 mask2 : Nat) (legal : List PSt) (need undeclared : State → Bool) (f : State → Reply) (s : State) : Out :=
  let kd := argFld c 0 0 4
  if kd ≠ kind ∧ kd ≠ 0 ∧ kd < 9 then .next s
  else runDbg 0x3E false c 0 (fun s =>
    dbgChecks c (badForm c false false false [15, mask1, mask2] || decide (kd ≠ kind)) .sync legal s ++
      [(!need s && !undeclared s, stState), (undeclared s, stBounds)]) f s

/-- Whether the core that a DBG_SYNC names is in one of the states. -/
def coreIn (c : Cmd) (l : List CoreSt) (s : State) : Bool := match syncCore s c with | some g => l.contains (getCore s g).r.st | none => false

/-- A control message of a DBG_SYNC: the command completes when it has been applied (20 R491, R492). -/
def syncSend (c : Cmd) (b : MsgBody) (s : State) : Reply :=
  match syncCore s c with
  | some g =>
    .later (modDbg c.part (fun d => { d with cmds := d.cmds ++ [dbgCmd 0x3E c 0 [g] s] }) (sendCore s c.part g b))
  | none => .done stBounds [] s

/-- A flag written at a stopped core by the rake, or by a message otherwise (20 R492). -/
def syncFlag (c : Cmd) (v : Bool) (s : State) : Reply :=
  let f : Fin 64 := Fin.ofNat 64 (argFld c 2 0 6)
  if coreIn c [.halt, .fault] s then
    let g := (syncCore s c).getD 0
    .done stOK [] (setCore s g { getCore s g with flags := setBit (getCore s g).flags f v })
  else syncSend c (if v then .flagSet f else .flagClr f) s

/-- DBG_SYNC with KIND 1: a flag is set (20 R492). -/
def execDbgSyncSetFlag (c : Cmd) (s : State) : Out :=
  dbgSync 1 c 0xFFFFF 0x3F [.running, .held] (fun _ => true) (fun s => (syncCore s c).isNone) (syncFlag c true) s

/-- DBG_SYNC with KIND 2: a flag is cleared (20 R492). -/
def execDbgSyncClearFlag (c : Cmd) (s : State) : Out :=
  dbgSync 2 c 0xFFFFF 0x3F [.running, .held] (fun _ => true) (fun s => (syncCore s c).isNone) (syncFlag c false) s

/-- A counter of a stopped core written, unchecked (09 R237; 20 R491). -/
def syncWrite (c : Cmd) (producer : Bool) (s : State) : Reply :=
  let g := (syncCore s c).getD 0
  let x := getCore s g
  let i : Fin 16 := Fin.ofNat 16 (argFld c 2 0 4)
  let v : BitVec 16 := BitVec.ofNat 16 (argFld c 2 16 16)
  .done stOK [] (setCore s g { x with ch := x.ch.set i (if producer then (v, x.ch[i].2) else (x.ch[i].1, v)) })

/-- DBG_SYNC with KIND 3: a producer counter is written (20 R491). -/
def execDbgSyncWriteProducer (c : Cmd) (s : State) : Out :=
  dbgSync 3 c 0xFFFFF 0xFFFF000F [.running, .held, .faulted] (coreIn c [.halt, .fault]) (fun s => (syncCore s c).isNone) (syncWrite c true) s

/-- DBG_SYNC with KIND 4: a consumer counter is written (20 R491). -/
def execDbgSyncWriteConsumer (c : Cmd) (s : State) : Out :=
  dbgSync 4 c 0xFFFFF 0xFFFF000F [.running, .held, .faulted] (coreIn c [.halt, .fault]) (fun s => (syncCore s c).isNone) (syncWrite c false) s

/-- DBG_SYNC with KIND 5: a CH_PUT to a core in RUN or HOLD (20 R492). -/
def execDbgSyncAdvanceProducer (c : Cmd) (s : State) : Out :=
  dbgSync 5 c 0xFFFFF 0x7F [.running, .held] (coreIn c [.run, .hold]) (fun s => (syncCore s c).isNone)
    (syncSend c (.chPut (Fin.ofNat 16 (argFld c 2 0 4)) (argFld c 2 4 3 + 1))) s

/-- DBG_SYNC with KIND 6: a CH_GET to a core in RUN or HOLD (20 R492). -/
def execDbgSyncAdvanceConsumer (c : Cmd) (s : State) : Out :=
  dbgSync 6 c 0xFFFFF 0x7F [.running, .held] (coreIn c [.run, .hold]) (fun s => (syncCore s c).isNone)
    (syncSend c (.chGet (Fin.ofNat 16 (argFld c 2 0 4)) (argFld c 2 4 3 + 1))) s

/-- The credit object that CHN and SIDE of a DBG_SYNC name. -/
def syncChan (s : State) (c : Cmd) : Option (Nat × Chan) :=
  s.fab.chans.findSome? (fun ic => match ic.2 with
    | some x => if x.part = (c.part : Nat) ∧ x.chn = argFld c 1 0 16 ∧ x.recv = decide (argFld c 1 16 1 = 1) then some (ic.1, x) else none
    | none => none)

/-- DBG_SYNC with KIND 7: CR of a credit object is written at once (20 R492). -/
def execDbgSyncWriteCr (c : Cmd) (s : State) : Out :=
  dbgSync 7 c 0x1FFFF all32 [.running, .held] (fun _ => true) (fun s => (syncChan s c).isNone)
    (fun s => match syncChan s c with
      | some (i, x) => .done stOK [] (setChan s i (some { x with cr := c.args[2] }))
      | none => .done stBounds [] s) s

/-- DBG_SYNC with KIND 8: the current generation of a barrier is released, at its home module, at the cores that the arrival
record names (20 R492; 09 R233). -/
def execDbgSyncCompleteBarrier (c : Cmd) (s : State) : Out :=
  let k : Nat := c.part
  let bar := fun (s : State) => barOf s k (argFld c 1 0 8)
  dbgSync 8 c 0xFF 0 [.running, .held] (fun s => match bar s with | some ib => ib.2.home | none => false) (fun s => (bar s).isNone)
    (fun s => match bar s with
      | some (i, b) => .done stOK [] (sendCtrl 3 k (otherModules s k) [b.bnum, b.gen] (releaseBar i b s))
      | none => .done stBounds [] s) s

-- Resets ---------------------------------------------------------------------------------------------------------

/-- Cores reset to CLEAR: they stop at the end of the step in progress and are zeroised; halt requests on their way are
dropped (15 R388). -/
def resetCores (gs : List Nat) (s : State) : State :=
  readback gs.contains (mapCores { s with haltSent := s.haltSent.filter (fun g => !gs.contains g) } (fun g _ => gs.contains g) (fun _ c => zeroise c))

/-- DBG_RESET: the selected cores, or the cluster, are reset (20 R493; 15 R388). -/
def execDbgReset (c : Cmd) (s : State) : Out :=
  runDbg 0x3F false c 0 (fun s => dbgChecks c (badForm c false false false [3, 0xFFFFF] || badScope c) .reset attachedSt s ++
    [(decide (argFld c 0 0 2 = 2) || (selCores s c).isNone, stBounds)])
    (fun s => .done stOK [] (resetCores ((selCores s c).getD []) s)) s

/-- Whether the controller may reset cores of a pan by itself: during bring-up, or in a partition in FAULTED or EMPTY
(15 R388). -/
def mayReset (s : State) (p : Nat) : Bool :=
  match (getPan s p).part with
  | some k => [PSt.faulted, .empty].contains (getPart s k).st
  | none => !s.host.full

/-- CORE_RESET (15 R388). -/
def execCoreReset (g : Nat) (s : State) : Out :=
  if numCores ≤ g then .fault .noSuchUnit
  else .next (if mayReset s (panOf g) then resetCores [g] s else s)

/-- CLUSTER_RESET: the 64 positions of one rake station (15 R388). -/
def execClusterReset (p : Fin 96) (cl : Fin 150) (s : State) : Out :=
  .next (if mayReset s p then
      resetCores ((s.cores.map Prod.fst).filter (fun g => decide (panOf g = p) && decide (clusterOf g = cl))) s
    else s)

-- The log --------------------------------------------------------------------------------------------------------

/-- A debug log entry as 64 bytes (20 Table 20-4). -/
def logBytes (e : LogEntry) : List Byte :=
  let b := fun (v n : Nat) => bytesOf (BitVec.ofNat 64 v) n
  b e.seq 8 ++ b e.tc 8 ++ b e.opc 1 ++ b e.status 1 ++ b e.grole 1 ++ b e.gprin 1 ++ b e.part 1 ++ b e.tprin 1 ++ b e.pgen 1 ++ b 0 1 ++
  b e.keyid 8 ++ b e.target 4 ++ b e.a 4 ++ b e.b 4 ++ b e.wcrc 4 ++ zeros 16

/-- DBG_LOG_READ: log entries from a sequence number on go to the buffer; a tenant receives those of its own partitions
(20 R497). -/
def execDbgLogRead (c : Cmd) (s : State) : Out :=
  let n := argFld c 2 0 12
  runDbg 0x40 true c 0 (fun s =>
    [(badForm c true false true [all32, all32, 0xFFF], stFormat), (!([1, 2].contains (getQp s c.qp).role), stAuth), (tooEarly s, stState),
     (decide (n = 0) || decide (c.bufLen.toNat < 64 * n), stBounds)])
    (fun s =>
      let q := getQp s c.qp
      let first := arg c 0 + arg c 1 * 2 ^ 32
      let mine := s.log.filter (fun e => decide (first ≤ e.seq) && (decide (q.role = 1) || decide (e.tprin = q.prin)))
      let got := mine.take n
      let next := if mine.length ≤ n then s.logSeq else match got.getLast? with | some e => e.seq + 1 | none => s.logSeq
      .done stOK [got.length, next % 2 ^ 32, next / 2 ^ 32]
        { s with host := { s.host with out := s.host.out ++ [⟨c.bufAddr.toNat, got.flatMap logBytes⟩] } }) s

end Sys2Proof.Machine
end

