-- ==== Sys2Proof/Machine/Reload.lean ====
section
/-! DEFINITION. Reloading fold slots of a running job: the normal reload with its quiescence checks and its commit count, and
the forced reload (07 R183 to R186; 09 R218; 14 R359; 15 R379). -/

namespace Sys2Proof.Machine

-- The reload set -------------------------------------------------------------------------------------------------

/-- The slots that a core's record names: the mask S (07 R183). -/
def reloadSlots (r : CoreRec) : List (Fin 8) := (List.finRange 8).filter (fun (k : Fin 8) => r.folds.any (fun f => decide (f.1 = (k : Nat))))

/-- S as a mask. -/
def reloadMask (r : CoreRec) : Byte := BitVec.ofNat 8 (maskOf (reloadSlots r))

/-- The new configuration of a slot. -/
def newFold (r : CoreRec) (k : Fin 8) : BitVec 512 := ((r.folds.find? (fun f => decide (f.1 = (k : Nat)))).map Prod.snd).getD 0

/-- Whether the unit records are the units that the slots of S own (14 R359). -/
def unitsAgree (r : CoreRec) : Bool :=
  (List.range 4).all (fun u => (r.units.any (fun x => decide (x.1 = u))) == r.folds.any (fun f => fValid f.2 && fOwns f.2 u))

/-- The reload set of a JOB_RELOAD (14 R359). -/
def reloadSet (c : Cmd) : Option (List CoreRec) :=
  match readReload (bufOf c) with
  | some rs => if rs.all unitsAgree then some rs else none
  | none => none

/-- Whether a core of the running job has a bound route into IQ7 (15 R379). -/
def routedToIq7 (s : State) (k icn : Nat) : Bool :=
  match (getPart s k).image with
  | none => false
  | some im => im.routes.any (fun r => r.dests.contains (icn, 7)) || im.chans.any (fun x => x.dests.contains (icn, 7))

/-- The FIT reason of a reload set (14 R359, Table 14-11; 15 R379). -/
def reloadFit (s : State) (k : Nat) (rs : List CoreRec) : Option (List Nat) :=
  (rs.findSome? (fun r =>
    if 8 < r.folds.length ∨ 4 < r.units.length ∨ r.chunks.any (fun c => decide (0x4000 < c.1 + c.2.2.length)) then some [13, 0, r.icn] else none)).orElse
  (fun _ => rs.findSome? (fun r => if isMember r && routedToIq7 s k r.icn then some [15, r.icn, 0] else none))

/-- The checks of both reloads; force is the value of FORCE that the row stands for (07 R184, R185; 14 R348). -/
def reloadChecks (force : Nat) (c : Cmd) (s : State) : List (Bool × Nat) :=
  let rs? := reloadSet c
  [(badForm c false false true [force, all32] || rs?.isNone, stFormat), (!isT s c, stAuth),
   (tooEarly s || !inSt s c [.running, .held], stState),
   ((match rs? with | some rs => rs.any (fun r => (imageCore s c.part r.icn).isNone) | none => false), stBounds)]

-- Quiescence -----------------------------------------------------------------------------------------------------

/-- Whether an entry's TAG and EP equal those of a slot in S, valid or not (07 R184, R185). -/
def namesSlot (c : Core) (ks : List (Fin 8)) (en : QEntry) : Bool :=
  ks.any (fun k => decide (fTag c.folds[k] = sbTag en.sb) && fEpoch c.folds[k] == sbEp en.sb)

/-- The units that slots in S own. -/
def ownUnits (c : Core) (ks : List (Fin 8)) : List (Fin 4) :=
  (List.finRange 4).filter (fun (u : Fin 4) => ks.any (fun k => fOwns c.folds[k] u))

/-- The busy DMA slots that own a queue bound to a slot in S (07 R184). -/
def slotsOn (c : Core) (ks : List (Fin 8)) : List (Fin 4) :=
  (List.finRange 4).filter (fun (i : Fin 4) => decide (dKind c.dma[i] ≠ 0) && ks.any (fun k =>
    (usesIq c.dma[i] && fBinds c.folds[k] (dIq c.dma[i])) || (usesOq c.dma[i] && fOut c.folds[k] (dOq c.dma[i]))))

/-- Whether the slots in S are quiescent at a core (07 R184). -/
def quiescent (c : Core) (ks : List (Fin 8)) : Bool :=
  !ks.any (fun k => fActive c.folds[k]) &&
  c.iq.toList.all (fun q => !q.held.any (namesSlot c ks)) &&
  (ownUnits c ks).all (fun u => !uOpen c.su[u] && decide (uCfcnt c.su[u] = 0)) && (slotsOn c ks).isEmpty

-- Writing --------------------------------------------------------------------------------------------------------

/-- A slot that takes a new configuration: EPOCH turns, DISC is given, ACTIVE, FIRES and DISCARDS are 0, CAND is kept
(07 R184, R185). -/
def writeFold (disc : Bool) (old new : BitVec 512) : BitVec 512 :=
  setCand (setBit (setBit new 15 (!fEpoch old)) 20 disc) (fCand old)

/-- The slots and units of a core's record written; the slots of S become choosable again. A unit's record is written whole, so
STEERED, which R184 does not name, takes the record's 0: DESIGN CHOICE, log 102 (07 R184). -/
def writeReload (disc : Bool) (r : CoreRec) (c : Core) : Core :=
  let ks := reloadSlots r
  { c with
    folds := Vector.ofFn (fun (k : Fin 8) => if ks.contains k then writeFold disc c.folds[k] (newFold r k) else c.folds[k])
    su := Vector.ofFn (fun (u : Fin 4) => ((r.units.find? (fun x => decide (x.1 = (u : Nat)))).map Prod.snd).getD c.su[u])
    x := { c.x with held := c.x.held &&& ~~~ reloadMask r } }

/-- The code rows of a core's record written by the rake (09 R218). -/
def writeCode (r : CoreRec) (c : Core) : Core := r.chunks.foldl (fun c x => sramPut x.1 x.2.2 c) c

/-- The slots of a record choosable again, nothing else changed (07 R184). -/
def letGo (s : State) (gr : Nat × CoreRec) : State :=
  let c := getCore s gr.1
  setCore s gr.1 { c with x := { c.x with held := c.x.held &&& ~~~ reloadMask gr.2 } }

/-- A reload ends without a change: its slots are choosable again, cores that it halted resume (07 R184, R186). -/
def endReload (k code : Nat) (s : State) : State :=
  match (getPart s k).long, (getPart s k).reload with
  | some l, some r =>
    let s1 := dropHalts (fun g => l.cores.contains g) (r.recs.foldl letGo s)
    let s2 := (l.cores.filter (fun g => decide ((getCore s1 g).r.st = .halt))).foldl resumeCore s1
    completeLong k code (if l.nums.getD 0 0 = 1 then [l.nums.getD 1 0] else []) (modPart s2 k (fun p => { p with reload := none }))
  | _, _ => s

-- The normal reload ----------------------------------------------------------------------------------------------

/-- A reload reaches its cores: no slot in S is chosen from now on (07 R184). -/
def holdSlots (s : State) (gr : Nat × CoreRec) : State :=
  let c := getCore s gr.1
  setCore s gr.1 { c with x := { c.x with held := c.x.held ||| reloadMask gr.2 } }

/-- JOB_RELOAD, of a command whose FORCE is 0: the slots are held and the checks begin (07 R184). A command with FORCE set is the
other row's. -/
def execJobReload (c : Cmd) (s : State) : Out :=
  let k : Nat := c.part
  if argFld c 0 0 1 = 1 then .next s
  else runCmd 0x29 false c (reloadChecks 0 c)
    (fun s =>
      match reloadSet c with
      | none => .done stFormat [] s
      | some rs =>
        match reloadFit s k rs with
        | some e => .done stFit e s
        | none =>
          if longBusy s c then .done stBusy [] s
          else
            let gs := rs.map (fun r => (coreOf s k r.icn, r))
            .later (modPart (gs.foldl holdSlots s) k (fun p => { p with
              reload := some ⟨gs, arg c 1, north s, [], [], none⟩, long := some (longOf .reload c [0, 0, 0] [] s) }))) s

/-- Whether a core of a reload has faulted (07 R186). -/
def reloadFaulted (s : State) (r : Reload) : Bool := r.recs.any (fun x => decide ((getCore s x.1).r.st = .fault))

/-- Every core has confirmed: cores whose records carry code halt for it, are written and go on; then the commit count is set
(07 R184; 09 R218). -/
def afterConfirm (k : Nat) (l : Long) (r : Reload) (s : State) : State :=
  let coded := (r.recs.filter (fun x => isMember x.2))
  let going := (coded.map Prod.fst).filter (fun g => [CoreSt.run, .hold].contains (getCore s g).r.st)
  if going.isEmpty then
    let s1 := coded.foldl (fun s x => setCore s x.1 (writeCode x.2 (getCore s x.1))) s
    let s2 := (l.cores.filter (fun g => decide ((getCore s1 g).r.st = .halt))).foldl resumeCore s1
    modPart s2 k (fun p => { p with
      reload := some { r with goal := some (north s + s.mesh.cwMax) }, long := some { l with cores := [] } })
  else if l.cores.isEmpty then
    modPart (sendHalts going s) k (fun p => { p with reload := some r, long := some { l with cores := going } })
  else modPart s k (fun p => { p with reload := some r })

/-- QUIESCENCE_CHECK: every 256 steps the rake checks every core of a reload; a core whose slots were quiescent at every check
over 4,096 steps has confirmed; a core that has faulted ends the command with STATE (07 R184, R186). -/
def execQuiescenceCheck (k : Fin 32) (s : State) : Out :=
  .next (match longIs s k .reload, (getPart s k).reload with
    | some l, some r =>
      if s.tide.frozen || r.goal.isSome || decide (l.nums.getD 0 0 = 1) || decide (north s < r.last + 256) then s
      else if reloadFaulted s r then endReload k stState s
      else
        let done := r.recs.all (fun x => r.ok.contains x.1)
        if done then afterConfirm k l { r with last := north s } s
        else
          let quiet := (r.recs.filter (fun x => quiescent (getCore s x.1) (reloadSlots x.2))).map Prod.fst
          let since := quiet.map (fun g => (g, ((r.since.find? (fun x => decide (x.1 = g))).map Prod.snd).getD (north s)))
          let ok := (since.filter (fun x => decide (x.2 + 4096 ≤ north s))).map Prod.fst
          let r1 := { r with last := north s, since := since, ok := ok }
          if r.recs.all (fun x => ok.contains x.1) then afterConfirm k l r1 s
          else modPart s k (fun p => { p with reload := some r1 })
    | _, _ => s)

/-- RELOAD_TIMEOUT: a core has not confirmed within QTMO steps, or a forced reload's core has not halted: TIMEOUT, and no core
changes (07 R184; 14 R352). -/
def execReloadTimeout (k : Fin 32) (s : State) : Out :=
  .next (match longIs s k .reload, (getPart s k).reload with
    | some l, some r =>
      if !s.tide.frozen && r.goal.isNone && !r.recs.all (fun x => r.ok.contains x.1) && decide (l.at_ + r.qtmo ≤ north s) then endReload k stTimeout s
      else s
    | _, _ => s)

-- The forced reload ----------------------------------------------------------------------------------------------

/-- A queue that keeps only some of its entries, in order; HDISC goes with the end of the token at its head. -/
def keepEntries (keep : QEntry → Bool) (q : Queue) : Queue :=
  let l := q.held.filter keep
  let ents := (l.zipIdx).foldl (fun (v : Vector QEntry 16) x => v.set (Fin.ofNat 16 (q.head + x.2)) x.1) q.ents
  { ents := ents, ptr := setBit (setFld q.ptr 4 5 l.length) 10 (q.hdisc && !((match q.held with | en :: _ => !keep en | [] => false) && q.held.any endsToken)) }

/-- The tokens and loose entries of a queue that a test takes, each counted once, one whose earlier entries are gone included
(07 R185). -/
def tokensIn (t : QEntry → Bool) (q : Queue) : Nat :=
  (q.held.filter (fun en => t en && beginsToken en)).length + (match q.held with | en :: _ => (t en && !beginsToken en).toNat | [] => 0)

/-- Tokens that a forced reload discards at a core. -/
def discarded (c : Core) (ks : List (Fin 8)) : Nat := (c.iq.toList.map (tokensIn (namesSlot c ks))).foldl (· + ·) 0

/-- Whether the head entry of a queue meets a test. -/
def headMeets (t : QEntry → Bool) (q : Queue) : Bool := match q.held with | en :: _ => t en | [] => false

/-- A core's queue without the entries that meet a test; a mark on a head that goes is dropped, and the next head meets the open
token's decision. Each entry removed counts in ACT_FLIT (07 R185; 02 R49). -/
def clearQueue (t : QEntry → Bool) (q : Fin 8) (c0 : Core) : Core :=
  let c := actFlit (c0.iq[q].held.filter t).length c0
  let drop : Byte := if headMeets t c.iq[q] then setBit c.x.drop q false else c.x.drop
  steerHead q { c with iq := c.iq.set q (keepEntries (fun en => !t en) c.iq[q]), x := { c.x with drop := drop } }

/-- A forced reload at a core that needs no halt, or has halted: entries removed, DMA slots stopped, slots and units written with
DISC set; the slot that was active is the only candidate (07 R185). -/
def forceCore (r : CoreRec) (c : Core) : Core :=
  let ks := reloadSlots r
  let act := (ks.find? (fun k => fActive c.folds[k]))
  let t := namesSlot c ks
  let c1 := (List.finRange 8).foldl (fun (c : Core) (q : Fin 8) => clearQueue t q c) c
  let c2 := (slotsOn c1 ks).foldl (fun (c : Core) i => slotIdle i c) c1
  let c3 := writeReload true r (writeCode r c2)
  match act with
  | some a => { c3 with folds := Vector.ofFn (fun (k : Fin 8) => setCand c3.folds[k] (decide (k = a))), x := { c3.x with chosen := none } }
  | none => { c3 with x := { c3.x with chosen := match c3.x.chosen with | some k => if ks.contains k then none else some k | none => none } }

/-- Whether a forced reload halts a core: a slot in S is active, or the record carries code (07 R185; 09 R218). -/
def needsHalt (c : Core) (r : CoreRec) : Bool :=
  [CoreSt.run, .hold].contains c.r.st && (isMember r || (reloadSlots r).any (fun k => fActive c.folds[k]))

/-- A forced reload goes on: while a core needs a halt, halts go to those that have been sent none; once none does, every core is
written, those that the reload halted resume, and the command completes with the tokens discarded (07 R185, R186). -/
def forceReady (k : Nat) (s : State) : State :=
  match longIs s k .reload, (getPart s k).reload with
  | some l, some r =>
    let wait := (r.recs.filter (fun x => needsHalt (getCore s x.1) x.2)).map Prod.fst
    if wait.isEmpty then
      let n := (r.recs.map (fun x => discarded (getCore s x.1) (reloadSlots x.2))).foldl (· + ·) 0
      let s1 := r.recs.foldl (fun s x => setCore s x.1 (forceCore x.2 (getCore s x.1))) s
      let s2 := (l.cores.filter (fun g => decide ((getCore s1 g).r.st = .halt))).foldl resumeCore s1
      completeLong k stOK [n % 2 ^ 32] (modPart s2 k (fun p => { p with reload := none }))
    else
      let more := wait.filter (fun g => !l.cores.contains g)
      modPart (sendHalts more s) k (fun p => { p with long := some { l with cores := l.cores ++ more } })
  | _, _ => s

/-- JOB_RELOAD_FORCED, of a command whose FORCE is 1 (07 R185). -/
def execJobReloadForced (c : Cmd) (s : State) : Out :=
  let k : Nat := c.part
  if argFld c 0 0 1 = 0 then .next s
  else runCmd 0x29 false c (reloadChecks 1 c)
    (fun s =>
      match reloadSet c with
      | none => .done stFormat [] s
      | some rs =>
        match reloadFit s k rs with
        | some e => .done stFit e s
        | none =>
          if longBusy s c then .done stBusy [] s
          else
            let gs := rs.map (fun r => (coreOf s k r.icn, r))
            let s1 := modPart s k (fun p => { p with
              reload := some ⟨gs, arg c 1, north s, [], [], none⟩, long := some (longOf .reload c [1, 0] [] s) })
            .later (if s.tide.frozen then s1 else forceReady k s1)) s

/-- RELOAD_COMMIT: at the commit count each core of a normal reload takes its new slots and units, and the command completes
once all have; a forced reload goes on at the cores that have halted; a core that faulted before ends it with STATE
(07 R184 to R186). -/
def execReloadCommit (k : Fin 32) (s : State) : Out :=
  .next (match longIs s k .reload, (getPart s k).reload with
    | some l, some r =>
      if s.tide.frozen then s
      else if l.nums.getD 2 0 = 0 ∧ reloadFaulted s r then endReload k stState s
      else if l.nums.getD 0 0 = 1 then forceReady k s
      else match r.goal with
        | none => s
        | some T =>
          let due := r.recs.filter (fun x => decide (T ≤ (getNode s (panOf x.1)).steps))
          if due.isEmpty then s
          else
            let s1 := due.foldl (fun s x => setCore s x.1 (writeReload false x.2 (getCore s x.1))) s
            let rest := r.recs.filter (fun x => decide ((getNode s (panOf x.1)).steps < T))
            if rest.isEmpty then completeLong k stOK [0] (modPart s1 k (fun p => { p with reload := none }))
            else modPart s1 k (fun p => { p with reload := some { r with recs := rest }, long := some { l with nums := [0, 0, 1] } })
    | _, _ => s)

end Sys2Proof.Machine
end

