-- ==== Sys2Proof/Machine/Dispatch.lean ====
section
/-! DEFINITION. What each command does: one direct call of its meaning. -/

namespace Sys2Proof.Machine

/-- The effect of a command on everything but the queue of commands. -/
def exec (i : Instr) (s : State) : Host.Outcome State Fault Refusal :=
  match i with
  | .add g d a b => Sys2Proof.Machine.execAdd g d a b s
  | .sub g d a b => Sys2Proof.Machine.execSub g d a b s
  | .and g d a b => Sys2Proof.Machine.execAnd g d a b s
  | .or g d a b => Sys2Proof.Machine.execOr g d a b s
  | .xor g d a b => Sys2Proof.Machine.execXor g d a b s
  | .shl g d a b => Sys2Proof.Machine.execShl g d a b s
  | .shr g d a b => Sys2Proof.Machine.execShr g d a b s
  | .sra g d a b => Sys2Proof.Machine.execSra g d a b s
  | .mul g d a b => Sys2Proof.Machine.execMul g d a b s
  | .mulhu g d a b => Sys2Proof.Machine.execMulhu g d a b s
  | .mulhs g d a b => Sys2Proof.Machine.execMulhs g d a b s
  | .min g d a b => Sys2Proof.Machine.execMin g d a b s
  | .max g d a b => Sys2Proof.Machine.execMax g d a b s
  | .minu g d a b => Sys2Proof.Machine.execMinu g d a b s
  | .maxu g d a b => Sys2Proof.Machine.execMaxu g d a b s
  | .divu g d a b => Sys2Proof.Machine.execDivu g d a b s
  | .remu g d a b => Sys2Proof.Machine.execRemu g d a b s
  | .divs g d a b => Sys2Proof.Machine.execDivs g d a b s
  | .rems g d a b => Sys2Proof.Machine.execRems g d a b s
  | .addi g d a imm => Sys2Proof.Machine.execAddi g d a imm s
  | .andi g d a imm => Sys2Proof.Machine.execAndi g d a imm s
  | .ori g d a imm => Sys2Proof.Machine.execOri g d a imm s
  | .xori g d a imm => Sys2Proof.Machine.execXori g d a imm s
  | .shli g d a amt => Sys2Proof.Machine.execShli g d a amt s
  | .shri g d a amt => Sys2Proof.Machine.execShri g d a amt s
  | .srai g d a amt => Sys2Proof.Machine.execSrai g d a amt s
  | .li g d imm => Sys2Proof.Machine.execLi g d imm s
  | .cmp g p a b c => Sys2Proof.Machine.execCmp g p a b c s
  | .cmpi g p a c imm => Sys2Proof.Machine.execCmpi g p a c imm s
  | .plog g p a b op => Sys2Proof.Machine.execPlog g p a b op s
  | .ldw g d a imm => Sys2Proof.Machine.execLdw g d a imm s
  | .ldh g d a imm => Sys2Proof.Machine.execLdh g d a imm s
  | .ldhu g d a imm => Sys2Proof.Machine.execLdhu g d a imm s
  | .ldb g d a imm => Sys2Proof.Machine.execLdb g d a imm s
  | .ldbu g d a imm => Sys2Proof.Machine.execLdbu g d a imm s
  | .stw g d a imm => Sys2Proof.Machine.execStw g d a imm s
  | .sth g d a imm => Sys2Proof.Machine.execSth g d a imm s
  | .stb g d a imm => Sys2Proof.Machine.execStb g d a imm s
  | .br g off => Sys2Proof.Machine.execBr g off s
  | .brl g d off => Sys2Proof.Machine.execBrl g d off s
  | .jr g a => Sys2Proof.Machine.execJr g a s
  | .jrl g d a => Sys2Proof.Machine.execJrl g d a s
  | .qrd g d q w rem => Sys2Proof.Machine.execQrd g d q w rem s
  | .crr g d off => Sys2Proof.Machine.execCrr g d off s
  | .crw g a off => Sys2Proof.Machine.execCrw g a off s
  | .rel g e => Sys2Proof.Machine.execRel g e s
  | .acq g e => Sys2Proof.Machine.execAcq g e s
  | .syncAll g => Sys2Proof.Machine.execSyncAll g s
  | .stepCommitContribute g => Sys2Proof.Machine.execStepCommitContribute g s
  | .stepCommit g => Sys2Proof.Machine.execStepCommit g s
  | .endFold g => Sys2Proof.Machine.execEndFold g s
  | .suCnd g u p => Sys2Proof.Machine.execSuCnd g u p s
  | .brk g => Sys2Proof.Machine.execBrk g s
  | .flagSet g f rem tgt => Sys2Proof.Machine.execFlagSet g f rem tgt s
  | .flagClr g f rem tgt => Sys2Proof.Machine.execFlagClr g f rem tgt s
  | .flagWait g f => Sys2Proof.Machine.execFlagWait g f s
  | .flagWaitc g f => Sys2Proof.Machine.execFlagWaitc g f s
  | .barArrive g f tgt => Sys2Proof.Machine.execBarArrive g f tgt s
  | .chPut g ch amt rem tgt => Sys2Proof.Machine.execChPut g ch amt rem tgt s
  | .chGet g ch amt rem tgt => Sys2Proof.Machine.execChGet g ch amt rem tgt s
  | .chWait g ch amt => Sys2Proof.Machine.execChWait g ch amt s
  | .vadd g d a b vf rm => Sys2Proof.Machine.execVadd g d a b vf rm s
  | .vsub g d a b vf rm => Sys2Proof.Machine.execVsub g d a b vf rm s
  | .vmul g d a b vf rm => Sys2Proof.Machine.execVmul g d a b vf rm s
  | .vfma g d a b vf rm => Sys2Proof.Machine.execVfma g d a b vf rm s
  | .vmin g d a b vf => Sys2Proof.Machine.execVmin g d a b vf s
  | .vmax g d a b vf => Sys2Proof.Machine.execVmax g d a b vf s
  | .vcmp g d a b vf c => Sys2Proof.Machine.execVcmp g d a b vf c s
  | .vsel g d a b vf => Sys2Proof.Machine.execVsel g d a b vf s
  | .vand g d a b vf => Sys2Proof.Machine.execVand g d a b vf s
  | .vor g d a b vf => Sys2Proof.Machine.execVor g d a b vf s
  | .vxor g d a b vf => Sys2Proof.Machine.execVxor g d a b vf s
  | .vsh g d a b => Sys2Proof.Machine.execVsh g d a b s
  | .vabs g d a vf => Sys2Proof.Machine.execVabs g d a vf s
  | .vneg g d a vf => Sys2Proof.Machine.execVneg g d a vf s
  | .vexp2 g d a vf => Sys2Proof.Machine.execVexp2 g d a vf s
  | .vexp g d a vf => Sys2Proof.Machine.execVexp g d a vf s
  | .vlog2 g d a vf => Sys2Proof.Machine.execVlog2 g d a vf s
  | .vrcp g d a vf => Sys2Proof.Machine.execVrcp g d a vf s
  | .vsqrt g d a vf => Sys2Proof.Machine.execVsqrt g d a vf s
  | .vrsqrt g d a vf => Sys2Proof.Machine.execVrsqrt g d a vf s
  | .vtanh g d a vf => Sys2Proof.Machine.execVtanh g d a vf s
  | .vsigm g d a vf => Sys2Proof.Machine.execVsigm g d a vf s
  | .vrsum g d a vf rm => Sys2Proof.Machine.execVrsum g d a vf rm s
  | .vrmax g d a vf => Sys2Proof.Machine.execVrmax g d a vf s
  | .vrmin g d a vf => Sys2Proof.Machine.execVrmin g d a vf s
  | .vcvt g d a src vf rm => Sys2Proof.Machine.execVcvt g d a src vf rm s
  | .vunpk g d a b fmt part => Sys2Proof.Machine.execVunpk g d a b fmt part s
  | .vld g d a imm => Sys2Proof.Machine.execVld g d a imm s
  | .vst g d a imm => Sys2Proof.Machine.execVst g d a imm s
  | .vldb g d bank slot => Sys2Proof.Machine.execVldb g d bank slot s
  | .vstb g d bank slot => Sys2Proof.Machine.execVstb g d bank slot s
  | .vqrd g d q => Sys2Proof.Machine.execVqrd g d q s
  | .vqwr g a q first last => Sys2Proof.Machine.execVqwr g a q first last s
  | .vbcs g d a => Sys2Proof.Machine.execVbcs g d a s
  | .vext g d a lane => Sys2Proof.Machine.execVext g d a lane s
  | .vins g d a lane => Sys2Proof.Machine.execVins g d a lane s
  | .vmov g d a => Sys2Proof.Machine.execVmov g d a s
  | .viota g d a => Sys2Proof.Machine.execViota g d a s
  | .mma g d a b mf rm => Sys2Proof.Machine.execMma g d a b mf rm s
  | .mmas g d a b mf rm => Sys2Proof.Machine.execMmas g d a b mf rm s
  | .mstg g a b => Sys2Proof.Machine.execMstg g a b s
  | .mstgq g q b => Sys2Proof.Machine.execMstgq g q b s
  | .mzero g d fn => Sys2Proof.Machine.execMzero g d fn s
  | .mbst g d a fn => Sys2Proof.Machine.execMbst g d a fn s
  | .mbld g d a fn => Sys2Proof.Machine.execMbld g d a fn s
  | .mmask g d a b mode => Sys2Proof.Machine.execMmask g d a b mode s
  | .msmx g d a b => Sys2Proof.Machine.execMsmx g d a b s
  | .mscl g d a b => Sys2Proof.Machine.execMscl g d a b s
  | .dmov g slot a imm => Sys2Proof.Machine.execDmov g slot a imm s
  | .dwait g mask => Sys2Proof.Machine.execDwait g mask s
  | .instructionFetch g => Sys2Proof.Machine.execInstructionFetch g s
  | .copyRow g slot => Sys2Proof.Machine.execCopyRow g slot s
  | .qinEntry g slot => Sys2Proof.Machine.execQinEntry g slot s
  | .qoutEntry g slot => Sys2Proof.Machine.execQoutEntry g slot s
  | .tinEntry g slot => Sys2Proof.Machine.execTinEntry g slot s
  | .tstgEntry g slot => Sys2Proof.Machine.execTstgEntry g slot s
  | .stgRow g slot => Sys2Proof.Machine.execStgRow g slot s
  | .fwdEntry g slot => Sys2Proof.Machine.execFwdEntry g slot s
  | .toutSourceRead g slot => Sys2Proof.Machine.execToutSourceRead g slot s
  | .tileForm g slot => Sys2Proof.Machine.execTileForm g slot s
  | .toutEntry g slot => Sys2Proof.Machine.execToutEntry g slot s
  | .dmaSlotComplete g slot => Sys2Proof.Machine.execDmaSlotComplete g slot s
  | .entryArrival g q => Sys2Proof.Machine.execEntryArrival g q s
  | .foldChoice g => Sys2Proof.Machine.execFoldChoice g s
  | .foldFire g => Sys2Proof.Machine.execFoldFire g s
  | .steerDecide g u => Sys2Proof.Machine.execSteerDecide g u s
  | .tokenDrop g u => Sys2Proof.Machine.execTokenDrop g u s
  | .staleTokenDiscard g q => Sys2Proof.Machine.execStaleTokenDiscard g q s
  | .stallWatchdog g => Sys2Proof.Machine.execStallWatchdog g s
  | .quiescenceCheck k => Sys2Proof.Machine.execQuiescenceCheck k s
  | .reloadCommit k => Sys2Proof.Machine.execReloadCommit k s
  | .reloadTimeout k => Sys2Proof.Machine.execReloadTimeout k s
  | .haltRequest g => Sys2Proof.Machine.execHaltRequest g s
  | .haltEntry g => Sys2Proof.Machine.execHaltEntry g s
  | .coreStartRun k => Sys2Proof.Machine.execCoreStartRun k s
  | .flagSetMessage g => Sys2Proof.Machine.execFlagSetMessage g s
  | .flagClrMessage g => Sys2Proof.Machine.execFlagClrMessage g s
  | .chPutMessage g => Sys2Proof.Machine.execChPutMessage g s
  | .chGetMessage g => Sys2Proof.Machine.execChGetMessage g s
  | .faultMessage => Sys2Proof.Machine.execFaultMessage s
  | .guard p => Sys2Proof.Machine.execGuard p s
  | .guardWd p => Sys2Proof.Machine.execGuardWd p s
  | .guardPanReceive => Sys2Proof.Machine.execGuardPanReceive s
  | .guardRes g => Sys2Proof.Machine.execGuardRes g s
  | .guardTimeout k => Sys2Proof.Machine.execGuardTimeout k s
  | .barArr p => Sys2Proof.Machine.execBarArr p s
  | .barPanReceive => Sys2Proof.Machine.execBarPanReceive s
  | .barRel g => Sys2Proof.Machine.execBarRel g s
  | .jobEndOkComplete k => Sys2Proof.Machine.execJobEndOkComplete k s
  | .nodeStep n ups => Sys2Proof.Machine.execNodeStep n ups s
  | .paceRelease n => Sys2Proof.Machine.execPaceRelease n s
  | .rateChangeApply n => Sys2Proof.Machine.execRateChangeApply n s
  | .refLost => Sys2Proof.Machine.execRefLost s
  | .refBack => Sys2Proof.Machine.execRefBack s
  | .holdRaise => Sys2Proof.Machine.execHoldRaise s
  | .holdRelease => Sys2Proof.Machine.execHoldRelease s
  | .sluiceDead x => Sys2Proof.Machine.execSluiceDead x s
  | .panPower p => Sys2Proof.Machine.execPanPower p s
  | .breakerOpen p fuse => Sys2Proof.Machine.execBreakerOpen p fuse s
  | .brkfail p => Sys2Proof.Machine.execBrkfail p s
  | .panTrip p => Sys2Proof.Machine.execPanTrip p s
  | .modTrip => Sys2Proof.Machine.execModTrip s
  | .thermalSample temps inA inB outA outB => Sys2Proof.Machine.execThermalSample temps inA inB outA outB s
  | .thermStep => Sys2Proof.Machine.execThermStep s
  | .lcodeChangeApply => Sys2Proof.Machine.execLcodeChangeApply s
  | .absorbQuiet k => Sys2Proof.Machine.execAbsorbQuiet k s
  | .streamReadTile e c one two => Sys2Proof.Machine.execStreamReadTile e c one two s
  | .streamWriteTile e c => Sys2Proof.Machine.execStreamWriteTile e c s
  | .streamDigestForm k => Sys2Proof.Machine.execStreamDigestForm k s
  | .cxlMemRead a src line => Sys2Proof.Machine.execCxlMemRead a src line s
  | .cxlMemWrite a src mask line => Sys2Proof.Machine.execCxlMemWrite a src mask line s
  | .linkBlockReceive p block => Sys2Proof.Machine.execLinkBlockReceive p block s
  | .retryExhausted p => Sys2Proof.Machine.execRetryExhausted p s
  | .portTrained p link => Sys2Proof.Machine.execPortTrained p link s
  | .packetHeaderArrival p => Sys2Proof.Machine.execPacketHeaderArrival p s
  | .packetDeparture p => Sys2Proof.Machine.execPacketDeparture p s
  | .egressTokenSend x => Sys2Proof.Machine.execEgressTokenSend x s
  | .dataPacketArrival ep => Sys2Proof.Machine.execDataPacketArrival ep s
  | .ingressDelivery x => Sys2Proof.Machine.execIngressDelivery x s
  | .xport ep => Sys2Proof.Machine.execXport ep s
  | .retryStart ep => Sys2Proof.Machine.execRetryStart ep s
  | .retryEnd ep => Sys2Proof.Machine.execRetryEnd ep s
  | .pathLost ep => Sys2Proof.Machine.execPathLost ep s
  | .length ep => Sys2Proof.Machine.execLength ep s
  | .retryStartExpiry ep => Sys2Proof.Machine.execRetryStartExpiry ep s
  | .transportTimeout ep i' => Sys2Proof.Machine.execTransportTimeout ep i' s
  | .portRetrainDone p rtt => Sys2Proof.Machine.execPortRetrainDone p rtt s
  | .guardBit => Sys2Proof.Machine.execGuardBit s
  | .barDone => Sys2Proof.Machine.execBarDone s
  | .barRelCtrl => Sys2Proof.Machine.execBarRelCtrl s
  | .jobEndCtrl => Sys2Proof.Machine.execJobEndCtrl s
  | .digestCtrl => Sys2Proof.Machine.execDigestCtrl s
  | .modQuery c => Sys2Proof.Machine.execModQuery c s
  | .regRead c => Sys2Proof.Machine.execRegRead c s
  | .regWrite c => Sys2Proof.Machine.execRegWrite c s
  | .licenceInstall c => Sys2Proof.Machine.execLicenceInstall c s
  | .testpackLoad c => Sys2Proof.Machine.execTestpackLoad c s
  | .powerCap c => Sys2Proof.Machine.execPowerCap c s
  | .powerCapStart => Sys2Proof.Machine.execPowerCapStart s
  | .modPark c => Sys2Proof.Machine.execModPark c s
  | .modUnpark c => Sys2Proof.Machine.execModUnpark c s
  | .parkWakeDone => Sys2Proof.Machine.execParkWakeDone s
  | .energyReadWindow c => Sys2Proof.Machine.execEnergyReadWindow c s
  | .energySetWindow c => Sys2Proof.Machine.execEnergySetWindow c s
  | .energyReadModule c => Sys2Proof.Machine.execEnergyReadModule c s
  | .partCreate c => Sys2Proof.Machine.execPartCreate c s
  | .partDestroy c => Sys2Proof.Machine.execPartDestroy c s
  | .partReset c => Sys2Proof.Machine.execPartReset c s
  | .partResetComplete k => Sys2Proof.Machine.execPartResetComplete k s
  | .partQuery c => Sys2Proof.Machine.execPartQuery c s
  | .windowOpen c => Sys2Proof.Machine.execWindowOpen c s
  | .windowClose c => Sys2Proof.Machine.execWindowClose c s
  | .jobLoad c => Sys2Proof.Machine.execJobLoad c s
  | .jobLoadComplete k => Sys2Proof.Machine.execJobLoadComplete k s
  | .loaderTile g ok => Sys2Proof.Machine.execLoaderTile g ok s
  | .jobStart c => Sys2Proof.Machine.execJobStart c s
  | .jobHold c => Sys2Proof.Machine.execJobHold c s
  | .jobResume c => Sys2Proof.Machine.execJobResume c s
  | .jobAbort c => Sys2Proof.Machine.execJobAbort c s
  | .jobSave c => Sys2Proof.Machine.execJobSave c s
  | .saveSettleTimeout k => Sys2Proof.Machine.execSaveSettleTimeout k s
  | .saveHaltTimeout k => Sys2Proof.Machine.execSaveHaltTimeout k s
  | .jobSaveComplete k => Sys2Proof.Machine.execJobSaveComplete k s
  | .jobRestore c => Sys2Proof.Machine.execJobRestore c s
  | .jobExport c => Sys2Proof.Machine.execJobExport c s
  | .jobImport c => Sys2Proof.Machine.execJobImport c s
  | .jobReload c => Sys2Proof.Machine.execJobReload c s
  | .jobReloadForced c => Sys2Proof.Machine.execJobReloadForced c s
  | .jobStatus c => Sys2Proof.Machine.execJobStatus c s
  | .flagSetCommand c => Sys2Proof.Machine.execFlagSetCommand c s
  | .streamStart c => Sys2Proof.Machine.execStreamStart c s
  | .streamRelease c => Sys2Proof.Machine.execStreamRelease c s
  | .streamStop c => Sys2Proof.Machine.execStreamStop c s
  | .streamDrain c => Sys2Proof.Machine.execStreamDrain c s
  | .streamDrainComplete k => Sys2Proof.Machine.execStreamDrainComplete k s
  | .streamDrainTimeout k => Sys2Proof.Machine.execStreamDrainTimeout k s
  | .debugAttach c => Sys2Proof.Machine.execDebugAttach c s
  | .debugDetach c => Sys2Proof.Machine.execDebugDetach c s
  | .dbgHalt c => Sys2Proof.Machine.execDbgHalt c s
  | .dbgHaltTimeout k => Sys2Proof.Machine.execDbgHaltTimeout k s
  | .dbgRun c => Sys2Proof.Machine.execDbgRun c s
  | .dbgResumeCount k => Sys2Proof.Machine.execDbgResumeCount k s
  | .dbgBreakSet c => Sys2Proof.Machine.execDbgBreakSet c s
  | .dbgBreakClear c => Sys2Proof.Machine.execDbgBreakClear c s
  | .dbgHaltCountSet c => Sys2Proof.Machine.execDbgHaltCountSet c s
  | .dbgHaltCountClear c => Sys2Proof.Machine.execDbgHaltCountClear c s
  | .haltCountReached g => Sys2Proof.Machine.execHaltCountReached g s
  | .dbgRakeRead c => Sys2Proof.Machine.execDbgRakeRead c s
  | .dbgRakeWrite c => Sys2Proof.Machine.execDbgRakeWrite c s
  | .dbgSyncSetFlag c => Sys2Proof.Machine.execDbgSyncSetFlag c s
  | .dbgSyncClearFlag c => Sys2Proof.Machine.execDbgSyncClearFlag c s
  | .dbgSyncWriteProducer c => Sys2Proof.Machine.execDbgSyncWriteProducer c s
  | .dbgSyncWriteConsumer c => Sys2Proof.Machine.execDbgSyncWriteConsumer c s
  | .dbgSyncAdvanceProducer c => Sys2Proof.Machine.execDbgSyncAdvanceProducer c s
  | .dbgSyncAdvanceConsumer c => Sys2Proof.Machine.execDbgSyncAdvanceConsumer c s
  | .dbgSyncWriteCr c => Sys2Proof.Machine.execDbgSyncWriteCr c s
  | .dbgSyncCompleteBarrier c => Sys2Proof.Machine.execDbgSyncCompleteBarrier c s
  | .dbgReset c => Sys2Proof.Machine.execDbgReset c s
  | .dbgLogRead c => Sys2Proof.Machine.execDbgLogRead c s
  | .debugGrantExpiry q => Sys2Proof.Machine.execDebugGrantExpiry q s
  | .coreReset g => Sys2Proof.Machine.execCoreReset g s
  | .clusterReset p cl => Sys2Proof.Machine.execClusterReset p cl s
  | .bindQp s' pair role prin resv grant => Sys2Proof.Machine.execBindQp s' pair role prin resv grant s
  | .unbindQp s' pair => Sys2Proof.Machine.execUnbindQp s' pair s
  | .tenantEnrol s' prin h => Sys2Proof.Machine.execTenantEnrol s' prin h s
  | .tenantRevoke s' prin => Sys2Proof.Machine.execTenantRevoke s' prin s
  | .keyStage s' part jk => Sys2Proof.Machine.execKeyStage s' part jk s
  | .keyExchange mauth key root => Sys2Proof.Machine.execKeyExchange mauth key root s
  | .getMeasurements s' index => Sys2Proof.Machine.execGetMeasurements s' index s
  | .endSession s' => Sys2Proof.Machine.execEndSession s' s
  | .heartbeatMissed s' => Sys2Proof.Machine.execHeartbeatMissed s' s
  | .cxlIdeKm s' io mem => Sys2Proof.Machine.execCxlIdeKm s' io mem s
  | .identifyMemoryDevice => Sys2Proof.Machine.execIdentifyMemoryDevice s
  | .getHealthInfo => Sys2Proof.Machine.execGetHealthInfo s
  | .getSupportedLogs => Sys2Proof.Machine.execGetSupportedLogs s
  | .getLog log => Sys2Proof.Machine.execGetLog log s
  | .sqTail q i' => Sys2Proof.Machine.execSqTail q i' s
  | .cqHead q i' => Sys2Proof.Machine.execCqHead q i' s
  | .qpEnable q v => Sys2Proof.Machine.execQpEnable q v s
  | .modTcLo => Sys2Proof.Machine.execModTcLo s
  | .tideTcLo => Sys2Proof.Machine.execTideTcLo s
  | .tideArmGo => Sys2Proof.Machine.execTideArmGo s
  | .holdCtrlRaise => Sys2Proof.Machine.execHoldCtrlRaise s
  | .holdCtrlRelease => Sys2Proof.Machine.execHoldCtrlRelease s
  | .panTide p => Sys2Proof.Machine.execPanTide p s
  | .panCtrlOff p => Sys2Proof.Machine.execPanCtrlOff p s
  | .meshCfg v => Sys2Proof.Machine.execMeshCfg v s
  | .rtData wr => Sys2Proof.Machine.execRtData wr s
  | .seCtxData e => Sys2Proof.Machine.execSeCtxData e s
  | .cxTblData wr => Sys2Proof.Machine.execCxTblData wr s
  | .cxEpoch v => Sys2Proof.Machine.execCxEpoch v s
  | .cxCfg v => Sys2Proof.Machine.execCxCfg v s
  | .portCtrlRetrain p => Sys2Proof.Machine.execPortCtrlRetrain p s
  | .portCtrlDisable p on => Sys2Proof.Machine.execPortCtrlDisable p on s
  | .firmwareRegisterWrite block off v => Sys2Proof.Machine.execFirmwareRegisterWrite block off v s
  | .powerTick volt amp rim rails => Sys2Proof.Machine.execPowerTick volt amp rim rails s
  | .railSettled => Sys2Proof.Machine.execRailSettled s
  | .railLower => Sys2Proof.Machine.execRailLower s
  | .energyInterval rim pans => Sys2Proof.Machine.execEnergyInterval rim pans s
  | .energyWindowEnd k => Sys2Proof.Machine.execEnergyWindowEnd k s
  | .pldmCapTarget s' v => Sys2Proof.Machine.execPldmCapTarget s' v s
  | .pldmRamp s' v => Sys2Proof.Machine.execPldmRamp s' v s
  | .pldmPark s' => Sys2Proof.Machine.execPldmPark s' s
  | .pldmUnpark s' => Sys2Proof.Machine.execPldmUnpark s' s
  | .entryOutOfRange => Sys2Proof.Machine.execEntryOutOfRange s
  | .entryCurrentLimit => Sys2Proof.Machine.execEntryCurrentLimit s
  | .powerGood => Sys2Proof.Machine.execPowerGood s
  | .fundamentalReset => Sys2Proof.Machine.execFundamentalReset s
  | .panGroupSwitchOn g stages => Sys2Proof.Machine.execPanGroupSwitchOn g stages s
  | .cxlLinkUp width => Sys2Proof.Machine.execCxlLinkUp width s
  | .bootOffer resv addr len image => Sys2Proof.Machine.execBootOffer resv addr len image s
  | .p2Mesh lats bad => Sys2Proof.Machine.execP2Mesh lats bad s
  | .stackTraining e ok => Sys2Proof.Machine.execStackTraining e ok s
  | .p3Kernels p bad => Sys2Proof.Machine.execP3Kernels p bad s
  | .p4Kernels p ok => Sys2Proof.Machine.execP4Kernels p ok s
  | .p5FullService lats => Sys2Proof.Machine.execP5FullService lats s
  | .testpackRun p => Sys2Proof.Machine.execTestpackRun p s
  | .testpackRunEnd p fail => Sys2Proof.Machine.execTestpackRunEnd p fail s
  | .watchClear b => Sys2Proof.Machine.execWatchClear b s
  | .jobRestoreComplete k => Sys2Proof.Machine.execJobRestoreComplete k s
  | .jobImportComplete k => Sys2Proof.Machine.execJobImportComplete k s
  | .jobExportComplete k => Sys2Proof.Machine.execJobExportComplete k s
  | .rideThrough volt => Sys2Proof.Machine.execRideThrough volt s
  | .selfRefreshEntry e => Sys2Proof.Machine.execSelfRefreshEntry e s
  | .stackTemperaturePoll e temp => Sys2Proof.Machine.execStackTemperaturePoll e temp s
  | .panOverdue p => Sys2Proof.Machine.execPanOverdue p s
  | .msixHoldoffExpiry v => Sys2Proof.Machine.execMsixHoldoffExpiry v s
  | .heartbeat s' => Sys2Proof.Machine.execHeartbeat s' s
  | .keyUpdate s' => Sys2Proof.Machine.execKeyUpdate s' s
  | .getCertificate slot => Sys2Proof.Machine.execGetCertificate slot s
  | .challenge slot => Sys2Proof.Machine.execChallenge slot s

end Sys2Proof.Machine
end

