-- ==== Sys2Proof/Machine/Blocks.lean ====
section
/-! DEFINITION. The PCIe function and BAR0 as the host reads them, and the blocks that management firmware reads: power, power
control, reliability (14 R336, R339, R341; 17 R441; 18 R460; 19 R479). -/

namespace Sys2Proof.Machine

-- The function ---------------------------------------------------------------------------------------------------

/-- A word of the function's configuration space that R336 fixes: the class code over a revision that is left open, and BAR0,
64-bit and non-prefetchable, with no other BAR (14 R336). -/
def configWord (s : State) (off : Nat) : Option Word :=
  let f := s.host.pci
  match off with
  | 0x08 => some (fields [(0, Config.revision % 256), (8, f.classCode.toNat)])
  | 0x10 => some ((f.base.setWidth 32 &&& ~~~ BitVec.ofNat 32 (f.barSize - 1)) ||| fields [(1, if f.bar64 then 2 else 0), (3, flag f.prefetch)])
  | 0x14 => some (f.base.extractLsb' 32 32)
  | 0x18 | 0x1C | 0x20 | 0x24 => some 0
  | _ => none

/-- Where the Register Locator DVSEC points: BAR, offset in it and kind of each register block (14 R336, Table 14-2). -/
def locator (s : State) : List (Nat × Nat × Nat) := s.host.pci.blocks.map (fun b => (b.bar, b.off, b.kind))

-- BAR0 -----------------------------------------------------------------------------------------------------------

/-- A module register (14 Table 14-3). -/
def moduleWord (s : State) (off : Nat) : Word :=
  match off with
  | 0x00 => 0x01A1
  | 0x04 => fields [(0, flag s.host.early), (1, flag s.host.full), (2, flag s.tide.hold), (3, flag s.power.parked), (4, flag s.tide.fallback), (8, s.host.linkw)]
  | 0x08 => BitVec.ofNat 32 (goodTotal s)
  | 0x0C => BitVec.ofNat 32 (north s)
  | 0x10 => s.host.tcHi.setWidth 32
  | _ => 0

/-- A register of a queue pair (14 Table 14-4). -/
def qpWord (s : State) (q off : Nat) : Word :=
  let p := getQp s q
  match off with
  | 0x00 => p.sqBase.extractLsb' 0 32
  | 0x04 => p.sqBase.extractLsb' 32 32
  | 0x08 => p.cqBase.extractLsb' 0 32
  | 0x0C => p.cqBase.extractLsb' 32 32
  | 0x10 => fields [(0, p.sqsz), (4, p.cqsz), (8, flag p.en), (16, vecOf q p)]
  | 0x14 => fields [(0, flag p.err), (1, flag p.evlost), (8, p.code)]
  | 0x18 => fields [(0, p.role), (8, p.prin)]
  | 0x1C => BitVec.ofNat 32 p.sqHead
  | 0x20 => BitVec.ofNat 32 p.cqTail
  | _ => 0

/-- A word of BAR0: CXL's own blocks hold what CXL 3.1 gives them, a free value; the doorbells read 0 (14 Table 14-2). -/
def barWord (s : State) (off : Nat) : Word :=
  if off < 0x11000 then BitVec.ofNat 32 (Config.cxlWord off)
  else if 0x20000 ≤ off ∧ off < 0x21000 then moduleWord s (off - 0x20000)
  else if 0x21000 ≤ off ∧ off < 0x21000 + 33 * 0x40 then qpWord s ((off - 0x21000) / 0x40) (off % 0x40)
  else 0

-- Management firmware --------------------------------------------------------------------------------------------

/-- The partitions that PAN_INVOLVE names for a pan (17 R430, Table 17-7). -/
def involveWord (s : State) (p : Nat) : Word := (involved s p).foldl (fun w k => setBit w k true) 0

/-- A register of the power block (17 Tables 17-6, 17-7). -/
def powerWord (s : State) (off : Nat) : Word :=
  let w := s.power
  match off with
  | 0x000 => fields [(0, flag w.entryOk), (1, flag w.ride), (2, flag w.modTrip), (8, (w.pans.filter (fun p => decide (2 ≤ p.2.st))).length)]
  | 0x004 => BitVec.ofNat 32 w.entryV
  | 0x008 => BitVec.ofNat 32 w.entryI
  | 0x00C => fields [(0, w.cin), (8, w.cout)]
  | 0x010 => BitVec.ofNat 32 w.trips
  | _ =>
    if 0x100 ≤ off ∧ off < 0x700 then
      let p := (off - 0x100) / 16
      let x := getPwr s p
      match off % 16 with
      | 0x0 => fields [(0, x.st), (3, flag x.brk), (4, flag x.brkFail), (5, flag x.fuse), (6, flag x.warn), (7, flag x.throt), (8, flag x.hot), (16, x.tmax)]
      | 0x4 => fields [(0, x.mv), (16, x.amp)]
      | 0x8 => involveWord s p
      | _ => 0
    else 0

/-- A register of the power control block (18 Table 18-6). -/
def capWord (s : State) (off : Nat) : Word :=
  let w := s.power
  match off with
  | 0x000 => fields [(0, w.target), (16, w.ramp)]
  | 0x004 => BitVec.ofNat 32 w.guard
  | 0x008 => fields [(0, w.eff), (16, flag (decide (w.eff ≠ w.target))), (17, flag (decide (s.tide.pwr < s.tide.jobRate))), (18, flag w.curr)]
  | 0x00C => fields [(0, flag w.oper), (1, flag w.capPark), (2, flag w.parked), (3, flag w.waking)]
  | 0x010 => BitVec.ofNat 32 w.now
  | 0x014 => BitVec.ofNat 32 w.rimBase
  | _ =>
    if 0x080 ≤ off ∧ off < 0x12C then BitVec.ofNat 32 (vfOf s (8 + (off - 0x080) / 4))
    else if 0x200 ≤ off ∧ off < 0x380 then
      let x := getPwr s ((off - 0x200) / 4)
      fields [(0, x.vofs.toNat), (5, flag x.cald), (6, flag x.drift), (16, x.ratio)]
    else 0

/-- A register of the reliability block (19 Table 19-8). -/
def relWord (s : State) (off : Nat) : Word :=
  let r := s.rel
  match off with
  | 0x000 => if r.suspect ≠ 0 then 2 else if r.watch ≠ 0 then 1 else 0
  | 0x004 => r.suspect.setWidth 32
  | 0x008 => r.watch.setWidth 32
  | 0x00C => BitVec.ofNat 32 r.ver
  | 0x010 => BitVec.ofNat 32 r.interval
  | 0x014 => BitVec.ofNat 32 r.runs
  | 0x018 => BitVec.ofNat 32 r.fails
  | 0x01C => BitVec.ofNat 32 (min 0xFFFF (recent s (24 * hour) r.ue).length)
  | _ =>
    if 0x100 ≤ off ∧ off < 0x400 then
      let p := (off - 0x100) / 8
      let x := getTest s p
      if off % 8 = 0 then
        fields [(0, flag x.pass), (1, flag x.quar), (2, flag x.run), (3, flag x.overdue), (16, min 0xFFFF ((s.time - x.passAt) / minute))]
      else match x.fail with
        | some (k, y, z) => fields [(0, k % 64), (6, y % 128), (13, z % 128), (31, 1)]
        | none => 0
    else 0

-- PLDM sensors ---------------------------------------------------------------------------------------------------

/-- The park state that PLDM gives: 1 running, 3 parked, 4 waking (18 Table 18-5). -/
def parkState (s : State) : Nat := if !s.power.parked then 1 else if s.power.waking then 4 else 3

/-- What a PLDM sensor reads, by its ID (18 Table 18-5; 19 R479). -/
def sensor (s : State) (id : Nat) : Option Nat :=
  let w := s.power
  match id with
  | 1 => some w.now
  | 2 => some w.entryV
  | 3 => some w.entryI
  | 4 => some w.cin
  | 5 => some w.cout
  | 6 => some (w.joules / 1000000)
  | 0x300 => some w.target
  | 0x301 => some w.ramp
  | 0x302 => some (if w.oper then 1 else 2)
  | 0x303 => some (parkState s)
  | 0x400 => some (relWord s 0).toNat
  | 0x401 => some (relWord s 4).toNat
  | 0x402 => some (relWord s 8).toNat
  | _ =>
    if 0x100 ≤ id ∧ id < 0x160 then some ((getPwr s (id - 0x100)).meas / 100000)
    else if 0x200 ≤ id ∧ id < 0x260 then some (getPwr s (id - 0x200)).tmax
    else if 0x500 ≤ id ∧ id < 0x560 then some (relWord s (0x100 + 8 * (id - 0x500))).toNat
    else none

/-- A sensor reading as the management block gives it: inside an operator secured session only (18 R459; 19 R479). -/
def readSensor (s : State) (n : Nat) (id : Nat) : Option Nat := if operatorSession s n then sensor s id else none

end Sys2Proof.Machine
end

