-- ==== Sys2Proof/WellFormed.lean ====
section
/-! DEFINITION. Well-formed commands: the limits that the operands' types do not carry. A command that is not well-formed names
a unit or a measurement that the module does not have. -/

namespace Sys2Proof

/-- A core position of the wafer (00 R2). -/
def coreOk (g : Nat) : Bool := decide (g < 921600)

/-- The bytes that a command entry brings fit its buffer (14 R343). -/
def cmdOk (c : Cmd) : Bool := decide (c.data.length ≤ c.bufLen.toNat)

/-- A failing kernel and the local position of the first failing core (19 Tables 19-5, 19-8). -/
def kernelOk (fail : Option (Nat × Nat × Nat)) : Bool :=
  match fail with
  | none => true
  | some (k, x, y) => decide (k < 64) && decide (x < 120) && decide (y < 80)

/-- Whether a command is well-formed. -/
def Instr.wf (i : Instr) : Bool :=
  match i with
  | .add g _ _ _ => coreOk g
  | .sub g _ _ _ => coreOk g
  | .and g _ _ _ => coreOk g
  | .or g _ _ _ => coreOk g
  | .xor g _ _ _ => coreOk g
  | .shl g _ _ _ => coreOk g
  | .shr g _ _ _ => coreOk g
  | .sra g _ _ _ => coreOk g
  | .mul g _ _ _ => coreOk g
  | .mulhu g _ _ _ => coreOk g
  | .mulhs g _ _ _ => coreOk g
  | .min g _ _ _ => coreOk g
  | .max g _ _ _ => coreOk g
  | .minu g _ _ _ => coreOk g
  | .maxu g _ _ _ => coreOk g
  | .divu g _ _ _ => coreOk g
  | .remu g _ _ _ => coreOk g
  | .divs g _ _ _ => coreOk g
  | .rems g _ _ _ => coreOk g
  | .addi g _ _ _ => coreOk g
  | .andi g _ _ _ => coreOk g
  | .ori g _ _ _ => coreOk g
  | .xori g _ _ _ => coreOk g
  | .shli g _ _ _ => coreOk g
  | .shri g _ _ _ => coreOk g
  | .srai g _ _ _ => coreOk g
  | .li g _ _ => coreOk g
  | .cmp g _ _ _ _ => coreOk g
  | .cmpi g _ _ _ _ => coreOk g
  | .plog g _ _ _ _ => coreOk g
  | .ldw g _ _ _ => coreOk g
  | .ldh g _ _ _ => coreOk g
  | .ldhu g _ _ _ => coreOk g
  | .ldb g _ _ _ => coreOk g
  | .ldbu g _ _ _ => coreOk g
  | .stw g _ _ _ => coreOk g
  | .sth g _ _ _ => coreOk g
  | .stb g _ _ _ => coreOk g
  | .br g _ => coreOk g
  | .brl g _ _ => coreOk g
  | .jr g _ => coreOk g
  | .jrl g _ _ => coreOk g
  | .qrd g _ _ _ _ => coreOk g
  | .crr g _ _ => coreOk g
  | .crw g _ _ => coreOk g
  | .rel g _ => coreOk g
  | .acq g _ => coreOk g
  | .syncAll g => coreOk g
  | .stepCommitContribute g => coreOk g
  | .stepCommit g => coreOk g
  | .endFold g => coreOk g
  | .suCnd g _ _ => coreOk g
  | .brk g => coreOk g
  | .flagSet g _ _ _ => coreOk g
  | .flagClr g _ _ _ => coreOk g
  | .flagWait g _ => coreOk g
  | .flagWaitc g _ => coreOk g
  | .barArrive g _ _ => coreOk g
  | .chPut g _ _ _ _ => coreOk g
  | .chGet g _ _ _ _ => coreOk g
  | .chWait g _ _ => coreOk g
  | .vadd g _ _ _ _ _ => coreOk g
  | .vsub g _ _ _ _ _ => coreOk g
  | .vmul g _ _ _ _ _ => coreOk g
  | .vfma g _ _ _ _ _ => coreOk g
  | .vmin g _ _ _ _ => coreOk g
  | .vmax g _ _ _ _ => coreOk g
  | .vcmp g _ _ _ _ _ => coreOk g
  | .vsel g _ _ _ _ => coreOk g
  | .vand g _ _ _ _ => coreOk g
  | .vor g _ _ _ _ => coreOk g
  | .vxor g _ _ _ _ => coreOk g
  | .vsh g _ _ _ => coreOk g
  | .vabs g _ _ _ => coreOk g
  | .vneg g _ _ _ => coreOk g
  | .vexp2 g _ _ _ => coreOk g
  | .vexp g _ _ _ => coreOk g
  | .vlog2 g _ _ _ => coreOk g
  | .vrcp g _ _ _ => coreOk g
  | .vsqrt g _ _ _ => coreOk g
  | .vrsqrt g _ _ _ => coreOk g
  | .vtanh g _ _ _ => coreOk g
  | .vsigm g _ _ _ => coreOk g
  | .vrsum g _ _ _ _ => coreOk g
  | .vrmax g _ _ _ => coreOk g
  | .vrmin g _ _ _ => coreOk g
  | .vcvt g _ _ _ _ _ => coreOk g
  | .vunpk g _ _ _ _ _ => coreOk g
  | .vld g _ _ _ => coreOk g
  | .vst g _ _ _ => coreOk g
  | .vldb g _ _ _ => coreOk g
  | .vstb g _ _ _ => coreOk g
  | .vqrd g _ _ => coreOk g
  | .vqwr g _ _ _ _ => coreOk g
  | .vbcs g _ _ => coreOk g
  | .vext g _ _ _ => coreOk g
  | .vins g _ _ _ => coreOk g
  | .vmov g _ _ => coreOk g
  | .viota g _ _ => coreOk g
  | .mma g _ _ _ _ _ => coreOk g
  | .mmas g _ _ _ _ _ => coreOk g
  | .mstg g _ _ => coreOk g
  | .mstgq g _ _ => coreOk g
  | .mzero g _ _ => coreOk g
  | .mbst g _ _ _ => coreOk g
  | .mbld g _ _ _ => coreOk g
  | .mmask g _ _ _ _ => coreOk g
  | .msmx g _ _ _ => coreOk g
  | .mscl g _ _ _ => coreOk g
  | .dmov g _ _ _ => coreOk g
  | .dwait g _ => coreOk g
  | .instructionFetch g => coreOk g
  | .copyRow g _ => coreOk g
  | .qinEntry g _ => coreOk g
  | .qoutEntry g _ => coreOk g
  | .tinEntry g _ => coreOk g
  | .tstgEntry g _ => coreOk g
  | .stgRow g _ => coreOk g
  | .fwdEntry g _ => coreOk g
  | .toutSourceRead g _ => coreOk g
  | .tileForm g _ => coreOk g
  | .toutEntry g _ => coreOk g
  | .dmaSlotComplete g _ => coreOk g
  | .entryArrival g _ => coreOk g
  | .foldChoice g => coreOk g
  | .foldFire g => coreOk g
  | .steerDecide g _ => coreOk g
  | .tokenDrop g _ => coreOk g
  | .staleTokenDiscard g _ => coreOk g
  | .stallWatchdog g => coreOk g
  | .quiescenceCheck _ => true
  | .reloadCommit _ => true
  | .reloadTimeout _ => true
  | .haltRequest g => coreOk g
  | .haltEntry g => coreOk g
  | .coreStartRun _ => true
  | .flagSetMessage g => coreOk g
  | .flagClrMessage g => coreOk g
  | .chPutMessage g => coreOk g
  | .chGetMessage g => coreOk g
  | .faultMessage => true
  | .guard _ => true
  | .guardWd _ => true
  | .guardPanReceive => true
  | .guardRes g => coreOk g
  | .guardTimeout _ => true
  | .barArr _ => true
  | .barPanReceive => true
  | .barRel g => coreOk g
  | .jobEndOkComplete _ => true
  | .nodeStep _ ups => ups.all (fun u => match u with | .link l => coreOk l.router | .sram r => coreOk r.core | .stuck _ => true)
  | .paceRelease _ => true
  | .rateChangeApply _ => true
  | .refLost => true
  | .refBack => true
  | .holdRaise => true
  | .holdRelease => true
  | .sluiceDead _ => true
  | .panPower _ => true
  | .breakerOpen _ _ => true
  | .brkfail _ => true
  | .panTrip _ => true
  | .modTrip => true
  | .thermalSample temps _ _ _ _ => decide (temps.length = 960)
  | .thermStep => true
  | .lcodeChangeApply => true
  | .absorbQuiet _ => true
  | .streamReadTile _ _ _ _ => true
  | .streamWriteTile _ _ => true
  | .streamDigestForm _ => true
  | .cxlMemRead a _ _ => decide (a < 3 * 2 ^ 40)
  | .cxlMemWrite a _ _ line => decide (a < 3 * 2 ^ 40) && decide (line.length = 64)
  | .linkBlockReceive _ block => decide (block.bytes.length = 512)
  | .retryExhausted _ => true
  | .portTrained _ _ => true
  | .packetHeaderArrival _ => true
  | .packetDeparture _ => true
  | .egressTokenSend _ => true
  | .dataPacketArrival _ => true
  | .ingressDelivery _ => true
  | .xport _ => true
  | .retryStart _ => true
  | .retryEnd _ => true
  | .pathLost _ => true
  | .length _ => true
  | .retryStartExpiry _ => true
  | .transportTimeout _ i => decide (i < 2 ^ 20)
  | .portRetrainDone _ _ => true
  | .guardBit => true
  | .barDone => true
  | .barRelCtrl => true
  | .jobEndCtrl => true
  | .digestCtrl => true
  | .modQuery c => cmdOk c
  | .regRead c => cmdOk c
  | .regWrite c => cmdOk c
  | .licenceInstall c => cmdOk c
  | .testpackLoad c => cmdOk c
  | .powerCap c => cmdOk c
  | .powerCapStart => true
  | .modPark c => cmdOk c
  | .modUnpark c => cmdOk c
  | .parkWakeDone => true
  | .energyReadWindow c => cmdOk c
  | .energySetWindow c => cmdOk c
  | .energyReadModule c => cmdOk c
  | .partCreate c => cmdOk c
  | .partDestroy c => cmdOk c
  | .partReset c => cmdOk c
  | .partResetComplete _ => true
  | .partQuery c => cmdOk c
  | .windowOpen c => cmdOk c
  | .windowClose c => cmdOk c
  | .jobLoad c => cmdOk c
  | .jobLoadComplete _ => true
  | .loaderTile g _ => coreOk g
  | .jobStart c => cmdOk c
  | .jobHold c => cmdOk c
  | .jobResume c => cmdOk c
  | .jobAbort c => cmdOk c
  | .jobSave c => cmdOk c
  | .saveSettleTimeout _ => true
  | .saveHaltTimeout _ => true
  | .jobSaveComplete _ => true
  | .jobRestore c => cmdOk c
  | .jobExport c => cmdOk c
  | .jobImport c => cmdOk c
  | .jobReload c => cmdOk c
  | .jobReloadForced c => cmdOk c
  | .jobStatus c => cmdOk c
  | .flagSetCommand c => cmdOk c
  | .streamStart c => cmdOk c
  | .streamRelease c => cmdOk c
  | .streamStop c => cmdOk c
  | .streamDrain c => cmdOk c
  | .streamDrainComplete _ => true
  | .streamDrainTimeout _ => true
  | .debugAttach c => cmdOk c
  | .debugDetach c => cmdOk c
  | .dbgHalt c => cmdOk c
  | .dbgHaltTimeout _ => true
  | .dbgRun c => cmdOk c
  | .dbgResumeCount _ => true
  | .dbgBreakSet c => cmdOk c
  | .dbgBreakClear c => cmdOk c
  | .dbgHaltCountSet c => cmdOk c
  | .dbgHaltCountClear c => cmdOk c
  | .haltCountReached g => coreOk g
  | .dbgRakeRead c => cmdOk c
  | .dbgRakeWrite c => cmdOk c
  | .dbgSyncSetFlag c => cmdOk c
  | .dbgSyncClearFlag c => cmdOk c
  | .dbgSyncWriteProducer c => cmdOk c
  | .dbgSyncWriteConsumer c => cmdOk c
  | .dbgSyncAdvanceProducer c => cmdOk c
  | .dbgSyncAdvanceConsumer c => cmdOk c
  | .dbgSyncWriteCr c => cmdOk c
  | .dbgSyncCompleteBarrier c => cmdOk c
  | .dbgReset c => cmdOk c
  | .dbgLogRead c => cmdOk c
  | .debugGrantExpiry _ => true
  | .coreReset g => coreOk g
  | .clusterReset _ _ => true
  | .bindQp _ _ _ _ _ _ => true
  | .unbindQp _ _ => true
  | .tenantEnrol _ _ _ => true
  | .tenantRevoke _ _ => true
  | .keyStage _ _ _ => true
  | .keyExchange _ _ _ => true
  | .getMeasurements _ _ => true
  | .endSession _ => true
  | .heartbeatMissed _ => true
  | .cxlIdeKm _ _ _ => true
  | .identifyMemoryDevice => true
  | .getHealthInfo => true
  | .getSupportedLogs => true
  | .getLog _ => true
  | .sqTail _ _ => true
  | .cqHead _ _ => true
  | .qpEnable _ _ => true
  | .modTcLo => true
  | .tideTcLo => true
  | .tideArmGo => true
  | .holdCtrlRaise => true
  | .holdCtrlRelease => true
  | .panTide _ => true
  | .panCtrlOff _ => true
  | .meshCfg _ => true
  | .rtData _ => true
  | .seCtxData _ => true
  | .cxTblData _ => true
  | .cxEpoch _ => true
  | .cxCfg _ => true
  | .portCtrlRetrain _ => true
  | .portCtrlDisable _ _ => true
  | .firmwareRegisterWrite _ _ _ => true
  | .powerTick _ _ _ rails => decide (rails.length = 96)
  | .railSettled => true
  | .railLower => true
  | .energyInterval _ pans => decide (pans.length = 96)
  | .energyWindowEnd _ => true
  | .pldmCapTarget _ _ => true
  | .pldmRamp _ _ => true
  | .pldmPark _ => true
  | .pldmUnpark _ => true
  | .entryOutOfRange => true
  | .entryCurrentLimit => true
  | .powerGood => true
  | .fundamentalReset => true
  | .panGroupSwitchOn _ _ => true
  | .cxlLinkUp _ => true
  | .bootOffer _ _ _ _ => true
  | .p2Mesh lats _ => decide (lats.length = 384)
  | .stackTraining _ _ => true
  | .p3Kernels _ bad => bad.all (fun l => decide (l ≤ 9600))
  | .p4Kernels _ _ => true
  | .p5FullService lats => decide (lats.length = 384)
  | .testpackRun _ => true
  | .testpackRunEnd _ fail => kernelOk fail
  | .watchClear _ => true
  | .jobRestoreComplete _ => true
  | .jobImportComplete _ => true
  | .jobExportComplete _ => true
  | .rideThrough _ => true
  | .selfRefreshEntry _ => true
  | .stackTemperaturePoll _ _ => true
  | .panOverdue _ => true
  | .msixHoldoffExpiry _ => true
  | .heartbeat _ => true
  | .keyUpdate _ => true
  | .getCertificate _ => true
  | .challenge _ => true

end Sys2Proof
end

