-- ==== Sys2Proof/Safety.lean ====
section
/-! DEFINITION. The terms that claims are made in: a command that is carried out, what a module keeps whatever is commanded, and
the canonical form of its tables. -/

namespace Sys2Proof.Machine

/-- Core g may begin instruction i, dispatched as k, on an engine: it heads the engine's issue queue, nothing holds it back, and
what it waits for is there (03 R62; 02 R28). -/
def mayBegin (s : State) (g : Nat) (eng : Engine) (i : Instr) (k : Disp) : Prop :=
  g < numCores ∧ ready (envOf s g) eng i (getCore s g) = some k

/-- Instruction i, dispatched as k, heads an engine's issue queue in core g, and the core, the engine, the interlocks and SYNC.ALL
let it begin; what it waits for besides is left open (03 R62). -/
def headsQueue (s : State) (g : Nat) (eng : Engine) (i : Instr) (k : Disp) : Prop :=
  g < numCores ∧ headFree (envOf s g) eng (getCore s g) = some k ∧ k.ins = i

/-- Such an instruction when no other engine's head that was issued before it could begin in this step (02 R28). -/
def mayGo (s : State) (g : Nat) (eng : Engine) (i : Instr) (k : Disp) : Prop :=
  headsQueue s g eng i k ∧ firstIssued (envOf s g) eng k.seq (getCore s g) = true

/-- Core g once an engine has taken instruction k, for occ steps, with its results due in lat steps (03 R62). -/
def taken (s : State) (g : Nat) (eng : Engine) (k : Disp) (occ lat : Nat) : Core := beginIns (envOf s g) eng k occ lat (getCore s g)

/-- The module once a command has completed with a status and results over t; s1 is the module that had taken its entry
(14 R344, R349). -/
def answered (c : Cmd) (modCmd : Bool) (s1 : State) (st : Nat) (res : List Nat) (t : State) : State :=
  complete c.qp (getQp s1 c.qp).epoch c.cid st c.part (stateField modCmd c.part t) res t

/-- The fuse counters of b are those of a or higher, and its other fuses are those of a (16 R409, Table 16-5). -/
def Fuses.le (a b : Fuses) : Prop :=
  b.serial = a.serial ∧ b.owners = a.owners ∧ b.keySvc = a.keySvc ∧ b.bad = a.bad ∧ a.fw ≤ b.fw ∧ a.lic ≤ b.lic ∧ a.tp ≤ b.tp

/-- Every table of the module's units is in its canonical form, and so is the memory of each of the 48 stacks. -/
def State.tablesWf (s : State) : Bool :=
  twf Core.zero s.cores && twf Node.zero s.nodes && twf Sluice.zero s.sluices && twf Router.zero s.routers && twf Edge.zero s.edges &&
  twf Port.zero s.fab.ports && twf PanPwr.zero s.power.pans && twf Meter.zero s.power.meters && twf Qp.zero s.host.qps &&
  twf Pan.zero s.pans && twf Station.zero s.stations && twf Part.zero s.parts && twf none s.bars && twf Engine48.zero s.engs &&
  decide (s.pmem.length = 48) && s.pmem.all (twf ⟨0, 0⟩)

end Sys2Proof.Machine
end

