-- ==== Sys2Proof/Certificates/Slice0/Obligations.lean ====
section
/-! DEFINITION. The statements about this model: what each command does, what every step keeps, and what reset leaves. A
statement of several parts is the conjunction of the parts, each of which stands above it with the rules that it follows. -/

namespace Sys2Proof.Claims
end Sys2Proof.Claims

open Sys2Proof Sys2Proof.Machine Sys2Proof.Claims

/-- The scalar operations of two registers, with occupancy, latency and result on S[A] = x and S[B] = y (03 R65, R66). -/
def Sys2Proof.Claims.scalarOps (g : Nat) (d a b : Reg) (x y : Word) : List (Instr × Nat × Nat × Word) :=
  [(.add g d a b, 1, 1, x + y), (.sub g d a b, 1, 1, x - y), (.and g d a b, 1, 1, x &&& y), (.or g d a b, 1, 1, x ||| y),
   (.xor g d a b, 1, 1, x ^^^ y), (.shl g d a b, 1, 1, x <<< (y.toNat % 32)), (.shr g d a b, 1, 1, x >>> (y.toNat % 32)),
   (.sra g d a b, 1, 1, x.sshiftRight (y.toNat % 32)), (.mul g d a b, 1, 2, x * y),
   (.mulhu g d a b, 1, 2, BitVec.ofNat 32 (x.toNat * y.toNat / 2 ^ 32)),
   (.mulhs g d a b, 1, 2, BitVec.ofInt 32 (x.toInt * y.toInt / 2 ^ 32)),
   (.min g d a b, 1, 1, if x.toInt < y.toInt then x else y), (.max g d a b, 1, 1, if x.toInt < y.toInt then y else x),
   (.minu g d a b, 1, 1, if x.toNat < y.toNat then x else y), (.maxu g d a b, 1, 1, if x.toNat < y.toNat then y else x),
   (.divu g d a b, 18, 18, if y = 0 then BitVec.allOnes 32 else BitVec.ofNat 32 (x.toNat / y.toNat)),
   (.remu g d a b, 18, 18, if y = 0 then x else BitVec.ofNat 32 (x.toNat % y.toNat)),
   (.divs g d a b, 18, 18, if y = 0 then BitVec.allOnes 32 else BitVec.ofInt 32 (x.toInt.tdiv y.toInt)),
   (.rems g d a b, 18, 18, if y = 0 then x else BitVec.ofInt 32 (x.toInt.tmod y.toInt))]

/-- Each scalar operation of two registers writes its result to S[D], in every form, and nothing else of the core but the records
of the issue (03 R65, R66). -/
def Sys2Proof.Claims.ScalarTwoRegisterResults : Prop :=
  ∀ (s : State) (g : Nat) (d a b : Reg) (k : Disp) (i : Instr) (occ lat : Nat) (v : Word),
    (i, occ, lat, v) ∈ scalarOps g d a b (getCore s g).s[a] (getCore s g).s[b] → mayBegin s g .scalar i k →
    exec i s = .next (setCore s g { taken s g .scalar k occ lat with s := (getCore s g).s.set d v })

/-- The scalar operations with an immediate, with the result on S[A] = x (03 R67). -/
def Sys2Proof.Claims.immediateOps (g : Nat) (d a : Reg) (imm : Word) (amt : Fin 32) (x : Word) : List (Instr × Word) :=
  [(.addi g d a imm, x + imm), (.andi g d a imm, x &&& imm), (.ori g d a imm, x ||| imm), (.xori g d a imm, x ^^^ imm),
   (.shli g d a amt, x <<< (amt : Nat)), (.shri g d a amt, x >>> (amt : Nat)), (.srai g d a amt, x.sshiftRight amt), (.li g d imm, imm)]

/-- Each scalar operation with an immediate writes its result to S[D], available in the next step, and nothing else of the core
but the records of the issue (03 R67). -/
def Sys2Proof.Claims.ScalarImmediateResults : Prop :=
  ∀ (s : State) (g : Nat) (d a : Reg) (imm : Word) (amt : Fin 32) (k : Disp) (i : Instr) (v : Word),
    (i, v) ∈ immediateOps g d a imm amt (getCore s g).s[a] → mayBegin s g .scalar i k →
    exec i s = .next (setCore s g { taken s g .scalar k 1 1 with s := (getCore s g).s.set d v })

/-- A comparison as numbers (03 R68). -/
def Sys2Proof.Claims.condAs (k : Cond) (x y : Word) : Bool :=
  match k with
  | .eq => decide (x.toNat = y.toNat)
  | .ne => decide (x.toNat ≠ y.toNat)
  | .lt => decide (x.toInt < y.toInt)
  | .ge => decide (y.toInt ≤ x.toInt)
  | .ltu => decide (x.toNat < y.toNat)
  | .geu => decide (y.toNat ≤ x.toNat)

/-- The instructions that write a predicate, with the bit they give (03 R68). -/
def Sys2Proof.Claims.predicateOps (g : Nat) (p : Pred) (c : Core) (a b : Reg) (k : Cond) (imm : Word) (pa pb : Pred) : List (Instr × Bool) :=
  [(.cmp g p a b k, condAs k c.s[a] c.s[b]), (.cmpi g p a k imm, condAs k c.s[a] imm),
   (.plog g p pa pb .and, predGet c.p pa && predGet c.p pb), (.plog g p pa pb .or, predGet c.p pa || predGet c.p pb),
   (.plog g p pa pb .xor, predGet c.p pa ^^ predGet c.p pb), (.plog g p pa pb .andn, predGet c.p pa && !predGet c.p pb)]

/-- CMP, CMPI and PLOG write their bit to predicate P and no other predicate; P0 keeps reading 1 (03 R68; 02 R24). -/
def Sys2Proof.Claims.ComparisonsWriteOnePredicate : Prop :=
  ∀ (s : State) (g : Nat) (p : Pred) (a b : Reg) (c : Cond) (imm : Word) (pa pb : Pred) (k : Disp) (i : Instr) (v : Bool),
    (i, v) ∈ predicateOps g p (getCore s g) a b c imm pa pb → mayBegin s g .scalar i k →
    ∃ q : Byte, exec i s = .next (setCore s g { taken s g .scalar k 1 1 with p := q }) ∧
      predGet q p = (decide (p = 0) || v) ∧ (∀ r, r ≠ p → predGet q r = predGet (getCore s g).p r) ∧
      (p = 0 → q = (getCore s g).p)

/-- The loads, with their width and how they extend the number that the bytes spell, lowest first (03 R69; 00 R6). -/
def Sys2Proof.Claims.loadOps (g : Nat) (d a : Reg) (imm : Word) (v : Nat) : List (Instr × Nat × Word) :=
  [(.ldw g d a imm, 4, BitVec.ofNat 32 v), (.ldh g d a imm, 2, (BitVec.ofNat 16 v).signExtend 32), (.ldhu g d a imm, 2, BitVec.ofNat 32 v),
   (.ldb g d a imm, 1, (BitVec.ofNat 8 v).signExtend 32), (.ldbu g d a imm, 1, BitVec.ofNat 32 v)]

/-- Whether a data access of n bytes at an address lies in the data region on a multiple of n (02 R29). -/
def Sys2Proof.Claims.accessOk (adr n : Nat) : Prop := 0x4000 ≤ adr ∧ adr + n ≤ 0x10000 ∧ adr % n = 0

/-- Whether the bank of a row serves core c, once it has taken instruction k, in the step in which k begins (02 R31). -/
def Sys2Proof.Claims.bankFree (s : State) (g : Nat) (eng : Engine) (k : Disp) (row : Nat) (c : Core) : Bool :=
  bankServes (asksNow (envOf s g) c) c ⟨userOf eng, k.seq, row, 0, (envOf s g).now⟩

/-- A load whose access is in the data region and aligned begins. If its bank serves it, S[D] takes the extended value, available after 2
steps, SRAM_CE counts the corrected words, and memory and every other register stay; where an uncorrectable word lies in the access it is
POISON, SUB 0x0A, instead. If its bank refuses it, it stays in progress with its row still to read and nothing else changes (03 R62,
R69; 02 R29, R31, R46). -/
def Sys2Proof.Claims.LoadsReadMemory : Prop :=
  ∀ (s : State) (g : Nat) (d a : Reg) (imm : Word) (k : Disp) (i : Instr) (n : Nat) (v : Word),
    let c := getCore s g
    let t := taken s g .scalar k 1 2
    let adr := (c.s[a] + imm).toNat
    (i, n, v) ∈ loadOps g d a imm (natOfBytes (mread c.sram adr n)) → mayBegin s g .scalar i k → accessOk adr n →
    (∀ u, eccBad c adr n = some u → bankFree s g .scalar k (adr / 32) t = true →
      exec i s = .next (setCore s g (insFault (envOf s g) k stPoison 0x0A u (markServed .scalar (adr / 32) t)))) ∧
    (eccBad c adr n = none → bankFree s g .scalar k (adr / 32) t = true →
      exec i s = .next (setCore s g { eccCount adr n (markServed .scalar (adr / 32) t) with s := c.s.set d v })) ∧
    (bankFree s g .scalar k (adr / 32) t = false → exec i s = .next (setCore s g (holdRun (newRun (envOf s g) .scalar k c) t)))

/-- The stores, with their width (03 R69). -/
def Sys2Proof.Claims.storeOps (g : Nat) (d a : Reg) (imm : Word) : List (Instr × Nat) := [(.stw g d a imm, 4), (.sth g d a imm, 2), (.stb g d a imm, 1)]

/-- A store whose access is in the data region and aligned, and whose bank serves it, writes the low bytes of S[D], lowest first, at
S[A] + immediate, keeps every other byte and the canonical form of memory, and changes no register. One that its bank refuses stays
in progress with nothing written (03 R62, R69; 00 R6; 02 R29, R31). -/
def Sys2Proof.Claims.StoresWriteOnlyTheirBytes : Prop :=
  ∀ (s : State) (g : Nat) (d a : Reg) (imm : Word) (k : Disp) (i : Instr) (n : Nat),
    let c := getCore s g
    let t := taken s g .scalar k 1 1
    let adr := (c.s[a] + imm).toNat
    (i, n) ∈ storeOps g d a imm → mayBegin s g .scalar i k → accessOk adr n →
    (bankFree s g .scalar k (adr / 32) t = true → Memory.wf c.sram = true →
      ∃ m : Mem, exec i s = .next (setCore s g { markServed .scalar (adr / 32) t with sram := m }) ∧
        (∀ j, j < n → tget 0 m (adr + j) = byteAt c.s[d] j) ∧ (∀ x, x < adr ∨ adr + n ≤ x → tget 0 m x = tget 0 c.sram x) ∧
        Memory.wf m = true) ∧
    (bankFree s g .scalar k (adr / 32) t = false → exec i s = .next (setCore s g (holdRun (newRun (envOf s g) .scalar k c) t)))

/-- An access outside the data region is BOUNDS, SUB 0x05, a misaligned one SUB 0x06, with the low half of the address as DETAIL;
nothing is loaded or stored (02 R29; 03 R93). -/
def Sys2Proof.Claims.BadAccessesFault : Prop :=
  ∀ (s : State) (g : Nat) (d a : Reg) (imm : Word) (k : Disp) (i : Instr) (n v : Nat) (w : Word),
    let c := getCore s g
    let adr := (c.s[a] + imm).toNat
    (i, n, w) ∈ loadOps g d a imm v ∨ (i, n) ∈ storeOps g d a imm → mayBegin s g .scalar i k →
    (¬(0x4000 ≤ adr ∧ adr + n ≤ 0x10000) → exec i s = .next (setCore s g (insFault (envOf s g) k stBounds 0x05 (adr % 65536) c))) ∧
    (0x4000 ≤ adr ∧ adr + n ≤ 0x10000 ∧ adr % n ≠ 0 →
      exec i s = .next (setCore s g (insFault (envOf s g) k stBounds 0x06 (adr % 65536) c)))

/-- The jumps, with their target and the register that takes the return address (03 R70). -/
def Sys2Proof.Claims.jumpOps (g : Nat) (d a : Reg) (off : BitVec 15) (pc : Nat) (x : Word) : List (Instr × Word × Option Reg) :=
  [(.br g off, BitVec.ofNat 32 pc + 4 * off.signExtend 32, none), (.brl g d off, BitVec.ofNat 32 pc + 4 * off.signExtend 32, some d),
   (.jr g a, x, none), (.jrl g d a, x, some d)]

/-- A jump to a multiple of 4 in the code window sets the program counter, restarts fetch there in the next step, notes whether the target's
row is still to be fetched, and writes the
address behind the instruction to the link register; any other target is BOUNDS, SUB 0x07 (03 R63, R70, R93). -/
def Sys2Proof.Claims.JumpsRedirectFetch : Prop :=
  ∀ (s : State) (g : Nat) (d a : Reg) (off : BitVec 15) (k : Disp) (i : Instr) (t : Word) (link : Option Reg),
    let c := getCore s g
    (i, t, link) ∈ jumpOps g d a off k.pc c.s[a] → mayBegin s g .scalar i k →
    (t.toNat < 0x4000 ∧ t.toNat % 4 = 0 →
      ∃ c', exec i s = .next (setCore s g c') ∧ c'.pc = t.toNat ∧
        c'.s = (match link with | some r => c.s.set r (BitVec.ofNat 32 (k.pc + 4)) | none => c.s) ∧
        c'.x.fetchAt = (envOf s g).now + 1 ∧ (c.x.haltReq = false → c'.x.fetch = .going) ∧ c'.x.far = (bufWord c t.toNat).isNone ∧
        { c' with s := c.s, pc := c.pc, x := { c'.x with fetch := c.x.fetch, fetchAt := c.x.fetchAt, far := c.x.far, fbuf := c.x.fbuf } } = taken s g .scalar k 1 1) ∧
    (¬(t.toNat < 0x4000 ∧ t.toNat % 4 = 0) →
      exec i s = .next (setCore s g (insFault (envOf s g) k stBounds 0x07 (t.toNat % 65536) c)))

/-- QRD reads word w of the head of a ready input queue into S[D], and removes the entry where it says so; CRR reads a control
register, and of TIDE_LO captures TIDE_HI; CRW changes STALL_W alone (03 R71, R72; 02 R47, R48). -/
def Sys2Proof.Claims.QueueAndControlRegisterReads : Prop :=
  ∀ (s : State) (g : Nat) (d a : Reg) (q w : Fin 8) (rem : Bool) (off : Byte) (k : Disp),
    let c := getCore s g
    let t := taken s g .scalar k 1 1
    let word := (c.iq[q].ent 0).data.extractLsb' (32 * (w : Nat)) 32
    (mayBegin s g .scalar (.qrd g d q w rem) k →
      exec (.qrd g d q w rem) s = .next (setCore s g
        (if rem then takeHead (envOf s g).now q { t with s := c.s.set d word } else { t with s := c.s.set d word }))) ∧
    (mayBegin s g .scalar (.crr g d off) k →
      exec (.crr g d off) s = .next (setCore s g { t with
        s := c.s.set d (crRead (envOf s g) c off.toNat)
        r := { c.r with tideHi := if off = 0x24#8 then (envOf s g).tc.extractLsb' 32 16 else c.r.tideHi } })) ∧
    (mayBegin s g .scalar (.crw g a off) k →
      exec (.crw g a off) s = .next (setCore s g { t with stallW := if off = 0x2C#8 then c.s[a] else c.stallW }))

/-- REL begins at the head of its engine's queue; ACQ begins there once every ordering instruction dispatched before it has
completed, and drops its engine's staged copy; SYNC.ALL begins once every earlier instruction has completed, and drops both. Until
then ACQ and SYNC.ALL change nothing (09 R211 to R213). -/
def Sys2Proof.Claims.OrderingInstructionsComplete : Prop :=
  ∀ (s : State) (g : Nat) (eng : Engine) (k : Disp),
    let c := getCore s g
    let now := (envOf s g).now
    (mayGo s g eng (.rel g eng) k → exec (.rel g eng) s = .next (setCore s g (taken s g eng k 1 1))) ∧
    (mayGo s g eng (.acq g eng) k →
      (allDone now k.seq isOrdering c = true →
        ∃ c', exec (.acq g eng) s = .next (setCore s g c') ∧
          (eng = .matrix → c'.x.wRow = none) ∧ (eng = .dma → c'.x.dRow = none) ∧
          { c' with x := { c'.x with wRow := c.x.wRow, dRow := c.x.dRow } } = taken s g eng k 1 1) ∧
      (allDone now k.seq isOrdering c = false → exec (.acq g eng) s = .next (setCore s g c))) ∧
    (mayGo s g .scalar (.syncAll g) k →
      (allDone now k.seq (fun _ => true) c = true →
        ∃ c', exec (.syncAll g) s = .next (setCore s g c') ∧ c'.x.wRow = none ∧ c'.x.dRow = none ∧
          { c' with x := { c'.x with wRow := c.x.wRow, dRow := c.x.dRow } } = taken s g .scalar k 1 1) ∧
      (allDone now k.seq (fun _ => true) c = false → exec (.syncAll g) s = .next (setCore s g c)))

/-- At the end of a step a REL in progress is put off to complete at the earliest in the step after the next, if an earlier
instruction of its engine completes later than the next step or, for REL.D, if a row that a DMA slot had requested when the REL began
still stands unserved; so is a SYNC.ALL in the second case. Every other instruction in progress, and everything else, stays
(09 R211, R213). -/
def Sys2Proof.Claims.ReleasesWaitForTheirRows : Prop :=
  ∀ (now : Nat) (c : Core) (b : Begun), b ∈ c.x.begun →
    let rows := ∃ a ∈ c.x.refused, a.user = .dma ∧ a.since ≤ b.at_
    let put := { b with due := max b.due (now + 2) } ∈ (relEnd now c).x.begun
    (∀ g eng, b.ins = .rel g eng → now < b.due →
      ((∃ a ∈ c.x.begun, a.eng = eng ∧ a.seq < b.seq ∧ now + 1 < a.due) ∨ (eng = .dma ∧ rows) → put) ∧
      (¬((∃ a ∈ c.x.begun, a.eng = eng ∧ a.seq < b.seq ∧ now + 1 < a.due) ∨ (eng = .dma ∧ rows)) → b ∈ (relEnd now c).x.begun)) ∧
    (∀ g, b.ins = .syncAll g → now < b.due → (rows → put) ∧ (¬rows → b ∈ (relEnd now c).x.begun)) ∧
    ((∀ g eng, b.ins ≠ .rel g eng) → (∀ g, b.ins ≠ .syncAll g) → b ∈ (relEnd now c).x.begun) ∧
    { relEnd now c with x := { (relEnd now c).x with begun := c.x.begun } } = c

/-- STEP.COMMIT contributes once every earlier instruction has completed: its GUARD message leaves and OVF_LOCAL clears; with a halt
request pending the contribution is taken back at once by a GUARD_WD, and the instruction will be fetched again. It begins with GEN = 0
as without overflow; with RDONE, clearing RDONE and OVF_LOCAL; else on the guard result, writing OVF_JOB, LS_EXP and P7 and inverting
GPAR; without any of them it waits (06 R149, R152, R154; 02 R41). -/
def Sys2Proof.Claims.StepCommitRunsThroughItsPhases : Prop :=
  ∀ (s : State) (g : Nat) (k : Disp),
    let c := getCore s g
    let e := envOf s g
    let sent := coreMsg e none (.guardC (gOvf c.guard) 1 (gPar c.guard))
    mayGo s g .scalar (.stepCommit g) k → allDone e.now k.seq (fun _ => true) c = true →
    (e.guardOn = true → c.x.phase3 = none → gRdone c.guard = false → c.x.haltReq = false →
      exec (.stepCommitContribute g) s = .next (setCore s g { c with
        guard := setBit c.guard 0 false
        x := { c.x with phase3 := some (gOvf c.guard), urgent := c.x.urgent ++ [sent] } })) ∧
    (e.guardOn = true → c.x.phase3 = none → gRdone c.guard = false → c.x.haltReq = true → c.x.gres = none →
      ∃ w, exec (.stepCommitContribute g) s = .next (setCore s g { c with
        guard := w
        pc := k.pc
        x := { c.x with iss := c.x.iss.set 0 [], urgent := c.x.urgent ++ [sent] ++ [coreMsg e none (.guardWd 1 (gPar c.guard))] } }) ∧
        gOvf w = gOvf c.guard ∧ ∀ j, j ≠ 0 → w.getLsbD j = c.guard.getLsbD j) ∧
    (e.guardOn = false →
      ∃ c', exec (.stepCommit g) s = .next (setCore s g c') ∧ predGet c'.p 7 = true ∧ gJob c'.guard = false ∧ gLs c'.guard = gLs c.guard ∧
        gPar c'.guard = gPar c.guard ∧ gOvf c'.guard = gOvf c.guard ∧
        { c' with p := c.p, guard := c.guard, x := { c'.x with fetch := c.x.fetch, fetchAt := c.x.fetchAt } } = taken s g .scalar k 1 1) ∧
    (e.guardOn = true → gRdone c.guard = true →
      ∃ c', exec (.stepCommit g) s = .next (setCore s g c') ∧ gRdone c'.guard = false ∧ gOvf c'.guard = false ∧
        gPar c'.guard = !gPar c.guard ∧ gJob c'.guard = gJob c.guard ∧ gLs c'.guard = gLs c.guard ∧
        { c' with guard := c.guard, x := { c'.x with fetch := c.x.fetch, fetchAt := c.x.fetchAt } } = taken s g .scalar k 1 1) ∧
    (∀ b ovf ls, e.guardOn = true → gRdone c.guard = false → c.x.phase3 = some b → c.x.gres = some (ovf, ls) →
      ∃ c', exec (.stepCommit g) s = .next (setCore s g c') ∧ predGet c'.p 7 = !ovf ∧ gJob c'.guard = ovf ∧ gLs c'.guard = ls ∧
        gPar c'.guard = !gPar c.guard ∧ c'.x.phase3 = none ∧ c'.x.gres = none ∧
        { c' with p := c.p, guard := c.guard
                  x := { c'.x with fetch := c.x.fetch, fetchAt := c.x.fetchAt, phase3 := some b, gres := some (ovf, ls) } } =
          taken s g .scalar k 1 1) ∧
    (e.guardOn = true → gRdone c.guard = false → c.x.phase3 = none ∨ c.x.gres = none →
      exec (.stepCommit g) s = .next (setCore s g c))

/-- END, once every earlier instruction has completed, clears ACTIVE of the running fold, makes its NEXTMASK the candidate set and stops
fetch, and no fold is chosen in its step; SU.CND puts a predicate at the tail of a
CFIFO with room; BRK changes nothing but the issue without a debugger, and with one is a halt request (07 R169, R172, R178;
03 R75). -/
def Sys2Proof.Claims.FoldControlInstructions : Prop :=
  ∀ (s : State) (g : Nat) (u : Fin 4) (p : Pred) (k : Disp),
    let c := getCore s g
    let e := envOf s g
    let t := taken s g .scalar k 1 1
    (mayGo s g .scalar (.endFold g) k → allDone e.now k.seq (fun _ => true) c = true →
      ∃ c', exec (.endFold g) s = .next (setCore s g c') ∧ c'.x.fetch = .stopped ∧ c'.x.start.ended = true ∧
        (∀ j : Fin 8, fCand c'.folds[j] = fNext c.folds[c.r.fold] j) ∧
        (∀ j : Fin 8, fActive c'.folds[j] = (decide (j ≠ c.r.fold) && fActive c.folds[j])) ∧
        { c' with folds := c.folds, x := { c'.x with fetch := c.x.fetch, start := c.x.start } } = t) ∧
    (mayBegin s g .scalar (.suCnd g u p) k → unitOwned c u = true → uMode c.su[u] = 1 → uSrc c.su[u] = 0 → uCfcnt c.su[u] < 16 →
      ∃ w : BitVec 256, exec (.suCnd g u p) s = .next (setCore s g { t with su := c.su.set u w }) ∧
        uCfcnt w = uCfcnt c.su[u] + 1 ∧ w.getLsbD (160 + uCfcnt c.su[u]) = predGet c.p p ∧
        (∀ j, j < uCfcnt c.su[u] → w.getLsbD (160 + j) = c.su[u].getLsbD (160 + j))) ∧
    (mayBegin s g .scalar (.brk g) k →
      exec (.brk g) s = .next (setCore s g (if e.attached then requestHalt e t else t)))

/-- The local signals: FLAG.SET and FLAG.CLR, CH.PUT and CH.GET within their bounds, once every earlier release has completed;
FLAG.WAIT, FLAG.WAITC and CH.WAIT complete on a flag set, or a fill that suffices, at the start of the step, and else wait (09 R214, R222, R226, R227; 03 R76, R77). -/
def Sys2Proof.Claims.LocalFlagsAndChannels : Prop :=
  ∀ (s : State) (g : Nat) (f : Fin 64) (ch : Fin 16) (amt : Fin 8) (tgt : Reg) (k : Disp),
    let c := getCore s g
    let now := (envOf s g).now
    let t := taken s g .scalar k 1 1
    let n := (amt : Nat) + 1
    (mayGo s g .scalar (.flagSet g f false tgt) k → allDone now k.seq isRelease c = true →
      exec (.flagSet g f false tgt) s = .next (setCore s g { t with flags := c.flags ||| BitVec.twoPow 64 f })) ∧
    (mayGo s g .scalar (.flagClr g f false tgt) k → allDone now k.seq isRelease c = true →
      exec (.flagClr g f false tgt) s = .next (setCore s g { t with flags := c.flags &&& ~~~ BitVec.twoPow 64 f })) ∧
    (mayGo s g .scalar (.flagWait g f) k →
      exec (.flagWait g f) s = .next (setCore s g (if c.x.start.flags.getLsbD f then t else c))) ∧
    (mayGo s g .scalar (.flagWaitc g f) k →
      exec (.flagWaitc g f) s = .next (setCore s g
        (if c.x.start.flags.getLsbD f then { t with flags := c.flags &&& ~~~ BitVec.twoPow 64 f } else c))) ∧
    (mayGo s g .scalar (.chPut g ch amt false tgt) k → allDone now k.seq isRelease c = true → fill c.ch[ch] + n ≤ 128 →
      exec (.chPut g ch amt false tgt) s = .next (setCore s g { t with ch := c.ch.set ch (c.ch[ch].1 + BitVec.ofNat 16 n, c.ch[ch].2) })) ∧
    (mayGo s g .scalar (.chGet g ch amt false tgt) k → allDone now k.seq isRelease c = true → n ≤ fill c.ch[ch] →
      exec (.chGet g ch amt false tgt) s = .next (setCore s g { t with ch := c.ch.set ch (c.ch[ch].1, c.ch[ch].2 + BitVec.ofNat 16 n) })) ∧
    (mayGo s g .scalar (.chWait g ch amt) k →
      exec (.chWait g ch amt) s = .next (setCore s g (if n ≤ fill c.x.start.ch[ch] then t else c)))

/-- A channel advance that would break its bound is SYNC_FAULT, SUB 0x0B, with the pair's number, and leaves both counters
(09 R226). -/
def Sys2Proof.Claims.ChannelBoundsFault : Prop :=
  ∀ (s : State) (g : Nat) (ch : Fin 16) (amt : Fin 8) (tgt : Reg) (k : Disp),
    let c := getCore s g
    let e := envOf s g
    let n := (amt : Nat) + 1
    allDone e.now k.seq isRelease c = true →
    (mayGo s g .scalar (.chPut g ch amt false tgt) k → 128 < fill c.ch[ch] + n →
      ∃ c', exec (.chPut g ch amt false tgt) s = .next (setCore s g c') ∧ c' = insFault e k stSync 0x0B ch c ∧ c'.ch = c.ch) ∧
    (mayGo s g .scalar (.chGet g ch amt false tgt) k → fill c.ch[ch] < n →
      ∃ c', exec (.chGet g ch amt false tgt) s = .next (setCore s g c') ∧ c' = insFault e k stSync 0x0B ch c ∧ c'.ch = c.ch)

/-- The remote signals with the message each sends (03 R76, R77). -/
def Sys2Proof.Claims.remoteOps (g : Nat) (f : Fin 64) (ch : Fin 16) (amt : Fin 8) (tgt : Reg) : List (Instr × MsgBody) :=
  [(.flagSet g f true tgt, .flagSet f), (.flagClr g f true tgt, .flagClr f), (.chPut g ch amt true tgt, .chPut ch ((amt : Nat) + 1)),
   (.chGet g ch amt true tgt, .chGet ch ((amt : Nat) + 1))]

/-- A remote signal to a core of the partition enters the control slot queue of 8, changing nothing else but the issue; to a
target that is no logical core of the partition it is BOUNDS, SUB 0x09. BAR.ARRIVE enters its arrival likewise, and faults above
object 255 (03 R76, R77; 09 R214, R224, R232). -/
def Sys2Proof.Claims.RemoteSignalsEnterTheSlotQueue : Prop :=
  ∀ (s : State) (g : Nat) (f : Fin 64) (ch : Fin 16) (amt : Fin 8) (tgt : Reg) (k : Disp) (i : Instr) (b : MsgBody),
    let c := getCore s g
    let e := envOf s g
    let t := taken s g .scalar k 1 1
    allDone e.now k.seq isRelease c = true →
    ((i, b) ∈ remoteOps g f ch amt tgt → mayGo s g .scalar i k →
      (∀ h, memberOf s e.part (fld c.s[tgt] 0 20) = some h → c.x.ctl.length < 8 →
        exec i s = .next (setCore s g { t with x := { t.x with ctl := c.x.ctl ++ [coreMsg e (some h) b] } })) ∧
      (memberOf s e.part (fld c.s[tgt] 0 20) = none →
        exec i s = .next (setCore s g (insFault e k stBounds 0x09 (fld c.s[tgt] 0 16) c)))) ∧
    (mayGo s g .scalar (.barArrive g f tgt) k →
      (c.s[tgt].toNat ≤ 255 → c.x.ctl.length < 8 →
        exec (.barArrive g f tgt) s = .next (setCore s g { t with
          x := { t.x with ctl := c.x.ctl ++ [coreMsg e none (.barArr (c.s[tgt].extractLsb' 0 8) f [g] none)] } })) ∧
      (255 < c.s[tgt].toNat →
        exec (.barArrive g f tgt) s = .next (setCore s g (insFault e k stBounds 0x09 (fld c.s[tgt] 0 16) c))))

/-- The core once its vector engine has taken an instruction, counted in ACT_VEC (02 R49; 03 R62). -/
def Sys2Proof.Claims.vtaken (s : State) (g : Nat) (k : Disp) (occ lat : Nat) : Core :=
  { taken s g .vector k occ lat with r := { (getCore s g).r with actVec := (getCore s g).r.actVec + 1 } }

/-- An exact lane result rounded once, or an integer one (03 R80 to R82). -/
def Sys2Proof.Claims.laneOf (vf : LaneFmt) (mode : RMode) (ops : List FVal) (v : FVal) (w : Lane) : Lane × Bool :=
  match vf.float with
  | none => (w, false)
  | some ff => (BitVec.ofNat 16 (roundTo ff mode v), ovfOf ops (decodeFloat ff (roundTo ff mode v)))

/-- The lane-wise instructions on lanes x, y of A and B and z of D, with occupancy, latency, and lane j's result and whether it
sets OVF_LOCAL (03 R80 to R86). -/
def Sys2Proof.Claims.laneOps (g : Nat) (d a b : Reg) (vf src : LaneFmt) (rm : Rounding) (cond : VCond) (seed : BitVec 64) (sc : List Word)
    (va : Vector Lane 32) (x y z : Lane) (j : Nat) : List (Instr × Nat × Nat × (Lane × Bool)) :=
  let mode := roundMode rm seed sc 32 j vf.code
  let fx := vf.value x
  let fy := vf.value y
  let fz := vf.value z
  let one := fun (f : FVal → FVal) => laneOf vf .rne [fx] (f fx) x
  [(.vadd g d a b vf rm, 1, 3, laneOf vf mode [fx, fy] (sumF [fx, fy]) (x + y)),
   (.vsub g d a b vf rm, 1, 3, laneOf vf mode [fx, fy] (sumF [fx, fy.negate]) (x - y)),
   (.vmul g d a b vf rm, 1, 3, laneOf vf mode [fx, fy] (fx.mul fy) (x * y)),
   (.vfma g d a b vf rm, 1, 3, laneOf vf mode [fx, fy, fz] (sumF [fz, fx.mul fy]) (z + x * y)),
   (.vmin g d a b vf, 1, 3, (minMax vf false x y, false)), (.vmax g d a b vf, 1, 3, (minMax vf true x y, false)),
   (.vcmp g d a b vf cond, 1, 1, (if vcondHolds vf cond x y then BitVec.allOnes 16 else 0, false)),
   (.vsel g d a b vf, 1, 1, (if x = 0 then z else y, false)),
   (.vand g d a b vf, 1, 1, (x &&& y, false)), (.vor g d a b vf, 1, 1, (x ||| y, false)), (.vxor g d a b vf, 1, 1, (x ^^^ y, false)),
   (.vsh g d a b, 1, 1, (if 0 ≤ y.toInt then x <<< y.toNat else x.sshiftRight (-y.toInt).toNat, false)),
   (.vabs g d a vf, 1, 1, (if vf = .i16 then (if x.toInt < 0 then -x else x) else x &&& 0x7FFF, false)),
   (.vneg g d a vf, 1, 1, (if vf = .i16 then -x else x ^^^ 0x8000, false)),
   (.vexp2 g d a vf, 2, 6, one spExp2), (.vexp g d a vf, 2, 6, one spExp), (.vlog2 g d a vf, 2, 6, one spLog2),
   (.vrcp g d a vf, 2, 6, one spRcp), (.vsqrt g d a vf, 2, 6, one spSqrt), (.vrsqrt g d a vf, 2, 6, one spRsqrt),
   (.vtanh g d a vf, 2, 6, one spTanh), (.vsigm g d a vf, 2, 6, one spSigm),
   (.vrsum g d a vf rm, 1, 4, laneOf vf (roundMode rm seed sc 32 0 vf.code) (va.toList.map vf.value) (sumF (va.toList.map vf.value))
     (va.toList.foldl (· + ·) 0)),
   (.vrmax g d a vf, 1, 4, (va.toList.foldl (minMax vf true) va[0], false)),
   (.vrmin g d a vf, 1, 4, (va.toList.foldl (minMax vf false) va[0], false)),
   (.vcvt g d a src vf rm, 1, 2, if src = vf then (x, false) else match vf.float with
     | none => toI16 mode (src.value x)
     | some ff => (BitVec.ofNat 16 (roundTo ff mode (src.value x)), ovfOf [src.value x] (decodeFloat ff (roundTo ff mode (src.value x)))))]

/-- Every lane-wise and reducing vector instruction writes its 32 results to V[D], sets OVF_LOCAL where a lane says so, and changes
nothing else of the core but ACT_VEC and the records of the issue (03 R80 to R86; 02 R49). -/
def Sys2Proof.Claims.VectorLaneResults : Prop :=
  ∀ (s : State) (g : Nat) (d a b : Reg) (vf src : LaneFmt) (rm : Rounding) (cond : VCond) (k : Disp) (i : Instr) (occ lat : Nat)
    (f : Fin 32 → Lane × Bool),
    let c := getCore s g
    (∀ j : Fin 32, (i, occ, lat, f j) ∈ laneOps g d a b vf src rm cond c.seed k.sc c.v[a] c.v[a][j] c.v[b][j] c.v[d][j] j) →
    mayBegin s g .vector i k →
    exec i s = .next (setCore s g { vtaken s g k occ lat with
      v := c.v.set d (Vector.ofFn (fun j => (f j).1)), guard := gOrOvf c.guard ((List.finRange 32).any (fun j => (f j).2)) })

/-- The vector moves that touch neither SRAM, a queue nor an accumulator bank: broadcast, extraction, insertion, copy and sequence;
the scalar operand is the one read at dispatch (03 R79, R88). -/
def Sys2Proof.Claims.VectorMoves : Prop :=
  ∀ (s : State) (g : Nat) (d a : Reg) (lane : Fin 32) (k : Disp),
    let c := getCore s g
    let t := vtaken s g k 1 1
    let x := (scAt k.sc 0).extractLsb' 0 16
    (mayBegin s g .vector (.vbcs g d a) k → exec (.vbcs g d a) s = .next (setCore s g { t with v := c.v.set d (Vector.replicate 32 x) })) ∧
    (mayBegin s g .vector (.vext g d a lane) k →
      exec (.vext g d a lane) s = .next (setCore s g { t with s := c.s.set d (c.v[a][lane].setWidth 32) })) ∧
    (mayBegin s g .vector (.vins g d a lane) k →
      exec (.vins g d a lane) s = .next (setCore s g { t with v := c.v.set d (c.v[d].set lane x) })) ∧
    (mayBegin s g .vector (.vmov g d a) k → exec (.vmov g d a) s = .next (setCore s g { t with v := c.v.set d c.v[a] })) ∧
    (mayBegin s g .vector (.viota g d a) k →
      exec (.viota g d a) s = .next (setCore s g { t with v := c.v.set d (Vector.ofFn (fun j : Fin 32 => x + BitVec.ofNat 16 j)) }))

/-- VUNPK of a format that the pan and the licence allow writes 32 elements of V[A], each times its scale and rounded to nearest even
in W16; of any other format it is LICENCE or STATE and V[D] stays (03 R87, R92, Table 3-13; 05 R130). -/
def Sys2Proof.Claims.VectorUnpack : Prop :=
  ∀ (s : State) (g : Nat) (d a b : Reg) (fmt : TileFmt) (part : Fin 4) (k : Disp),
    let c := getCore s g
    let e := envOf s g
    let x := fun (j : Fin 32) => withScale ((scAt k.sc 0).toNat % 256) (fmt.value (elemAt fmt (vBytes c.v[a]) (32 * (part : Nat) + j)))
    let f := fun (j : Fin 32) => laneOf .w16 .rne [x j] (x j) 0
    mayBegin s g .vector (.vunpk g d a b fmt part) k →
    (shortFault e fmt = none →
      exec (.vunpk g d a b fmt part) s = .next (setCore s g { vtaken s g k 1 2 with
        v := c.v.set d (Vector.ofFn (fun j => (f j).1)), guard := gOrOvf c.guard ((List.finRange 32).any (fun j => (f j).2)) })) ∧
    (fmt.short = true → fmt.width = 4 → licensed4 s = false →
      exec (.vunpk g d a b fmt part) s = .next (setCore s g (insFault e k stLicence 0x0C fmt.code c))) ∧
    (fmt.short = true → ¬(fmt.width = 4 ∧ licensed4 s = false) → (getPan s (panOf g)).shortOn = false →
      exec (.vunpk g d a b fmt part) s = .next (setCore s g (insFault e k stState 0x0D fmt.code c)))

/-- VLD and VST reach 64 aligned bytes of the data region in two rows, which two banks serve. Served both, VLD writes V[D], available
after 2 steps, and VST the 64 bytes; a row that its bank refuses keeps the instruction in progress, and the other row is read or
written all the same. Outside the data region it is BOUNDS, SUB 0x05, misaligned SUB 0x06, and VLD of an uncorrectable word is POISON, SUB
0x0A (02 R29, R31, R46; 03 R88, R89, R93; 09 R209). -/
def Sys2Proof.Claims.VectorLoadsAndStores : Prop :=
  ∀ (s : State) (g : Nat) (d a : Reg) (imm : Word) (k : Disp),
    let c := getCore s g
    let e := envOf s g
    let adr := (scAt k.sc 0 + imm).toNat
    let row := adr / 32
    let rest := fun (q : Nat) (got : List (Bool × Nat × Row)) (t : Core) =>
      holdRun { newRun e .vector k c with rows := [⟨false, q, 0⟩], got := got ++ (newRun e .vector k c).got } t
    (∀ i ∈ [Instr.vld g d a imm, .vst g d a imm], mayBegin s g .vector i k →
      (¬(0x4000 ≤ adr ∧ adr + 64 ≤ 0x10000) → exec i s = .next (setCore s g (insFault e k stBounds 0x05 (adr % 65536) c))) ∧
      (0x4000 ≤ adr ∧ adr + 64 ≤ 0x10000 ∧ adr % 64 ≠ 0 → exec i s = .next (setCore s g (insFault e k stBounds 0x06 (adr % 65536) c)))) ∧
    (let t := vtaken s g k 1 2
     let t2 := eccCount adr 32 (markServed .vector row t)
     mayBegin s g .vector (.vld g d a imm) k → accessOk adr 64 → bankFree s g .vector k row t = true → bankFree s g .vector k (row + 1) t = true →
      (∀ u, eccBad c adr 32 = some u → exec (.vld g d a imm) s = .next (setCore s g (insFault e k stPoison 0x0A u (markServed .vector row t)))) ∧
      (∀ u, eccBad c adr 32 = none → eccBad c (adr + 32) 32 = some u →
        exec (.vld g d a imm) s = .next (setCore s g (insFault e k stPoison 0x0A u (markServed .vector (row + 1) t2))))) ∧
    (let t := vtaken s g k 1 2
     let got := fun (q : Nat) => (false, q, ofBytes 256 (mread c.sram (32 * q) 32))
     mayBegin s g .vector (.vld g d a imm) k → accessOk adr 64 → eccBad c adr 64 = none →
      (bankFree s g .vector k row t = true → bankFree s g .vector k (row + 1) t = true →
        exec (.vld g d a imm) s = .next (setCore s g { eccCount (adr + 32) 32 (markServed .vector (row + 1)
          (eccCount adr 32 (markServed .vector row t))) with v := c.v.set d (vOfBytes (mread c.sram adr 64)) })) ∧
      (bankFree s g .vector k row t = true → bankFree s g .vector k (row + 1) t = false →
        exec (.vld g d a imm) s = .next (setCore s g (rest (row + 1) [got row] (eccCount adr 32 (markServed .vector row t))))) ∧
      (bankFree s g .vector k row t = false → bankFree s g .vector k (row + 1) t = true →
        exec (.vld g d a imm) s = .next (setCore s g (rest row [got (row + 1)] (eccCount (adr + 32) 32 (markServed .vector (row + 1) t))))) ∧
      (bankFree s g .vector k row t = false → bankFree s g .vector k (row + 1) t = false →
        exec (.vld g d a imm) s = .next (setCore s g (holdRun (newRun e .vector k c) t)))) ∧
    (let t := vtaken s g k 1 1
     mayBegin s g .vector (.vst g d a imm) k → accessOk adr 64 →
      (bankFree s g .vector k row t = true → bankFree s g .vector k (row + 1) t = true →
        exec (.vst g d a imm) s = .next (setCore s g (sramPut (adr + 32) ((vBytes c.v[d]).drop 32) (markServed .vector (row + 1)
          (sramPut adr ((vBytes c.v[d]).take 32) (markServed .vector row t)))))) ∧
      (bankFree s g .vector k row t = true → bankFree s g .vector k (row + 1) t = false →
        exec (.vst g d a imm) s = .next (setCore s g (rest (row + 1) [] (sramPut adr ((vBytes c.v[d]).take 32) (markServed .vector row t))))) ∧
      (bankFree s g .vector k row t = false → bankFree s g .vector k (row + 1) t = true →
        exec (.vst g d a imm) s = .next (setCore s g (rest row [] (sramPut (adr + 32) ((vBytes c.v[d]).drop 32) (markServed .vector (row + 1) t))))) ∧
      (bankFree s g .vector k row t = false → bankFree s g .vector k (row + 1) t = false →
        exec (.vst g d a imm) s = .next (setCore s g (holdRun (newRun e .vector k c) t))))

/-- VLDB and VSTB move 64 bytes of an accumulator bank that the matrix engine does not use in their step; where it does, they stay in
progress and move nothing yet (02 R34; 03 R88). -/
def Sys2Proof.Claims.VectorBankMoves : Prop :=
  ∀ (s : State) (g : Nat) (d : Reg) (bank : Fin 16) (slot : Fin 8) (k : Disp),
    let c := getCore s g
    let e := envOf s g
    let at_ := 512 * (bank : Nat) + 64 * (slot : Nat)
    let free := fun (t : Core) => accFree (accAsks e t) t bank
    (mayBegin s g .vector (.vldb g d bank slot) k →
      let t := vtaken s g k 1 2
      exec (.vldb g d bank slot) s = .next (setCore s g (if free t then { t with v := c.v.set d (vOfBytes (mread c.banks at_ 64)) }
        else holdRun (newRun e .vector k c) t))) ∧
    (mayBegin s g .vector (.vstb g d bank slot) k →
      let t := vtaken s g k 1 1
      exec (.vstb g d bank slot) s = .next (setCore s g (if free t then { t with banks := mwrite c.banks at_ (vBytes c.v[d]) }
        else holdRun (newRun e .vector k c) t)))

/-- VQRD begins once the head of its queue may be taken and 2 entries are present, and VQWR once no busy slot owns its queue and 2
entries of room are present; until then they change nothing. Each moves its first entry in that step and stays in progress for the
second; VQWR stamps its entries with the running fold's tag and epoch (03 R88, R90; 02 R27, R28; 07 R165). -/
def Sys2Proof.Claims.VectorQueueAccessBegins : Prop :=
  ∀ (s : State) (g : Nat) (d : Reg) (q : Fin 8) (o : Fin 4) (first last : Bool) (k : Disp),
    let c := getCore s g
    let e := envOf s g
    let t := vtaken s g k 1 2
    let second := { newRun e .vector k c with k := 1, next := e.now + 1, grp := [], rows := [], later := [] }
    (mayGo s g .vector (.vqrd g d q) k →
      (iqReady e.now c q = true → 2 ≤ c.iq[q].count →
        exec (.vqrd g d q) s = .next (setCore s g (holdRun { second with data := bytesOf (c.iq[q].ent 0).data 32 } (takeHead e.now q t)))) ∧
      (¬(iqReady e.now c q = true ∧ 2 ≤ c.iq[q].count) → exec (.vqrd g d q) s = .next (setCore s g c))) ∧
    (mayGo s g .vector (.vqwr g d o first last) k →
      (oqReady e.now c o 2 = true →
        exec (.vqwr g d o first last) s = .next (setCore s g (holdRun { second with data := vBytes c.v[d] }
          (oqPush e.now o ⟨ofBytes 256 ((vBytes c.v[d]).take 32), outSb c o first false⟩ t)))) ∧
      (oqReady e.now c o 2 = false → exec (.vqwr g d o first last) s = .next (setCore s g c)))

/-- The second step of a VQRD or VQWR in progress: with its entry to be had, VQRD puts both entries into V[D], and VQWR its second
entry, stamped, at the tail of the queue, with bytes 32 to 63; the instruction then ends. Without it the instruction waits as it
stands (03 R88, R90; 02 R28). -/
def Sys2Proof.Claims.VectorQueueAccessEnds : Prop :=
  ∀ (e : Env) (l : List Ask) (acc : List Nat) (r : Run) (c : Core) (g : Nat) (d : Reg) (q : Fin 8) (o : Fin 4) (first last : Bool),
    r.k = 1 → r.rows = [] → r.later = [] →
    (r.d.ins = .vqrd g d q →
      (iqFree e.now q c = true → headReady c q = true →
        stepRun e l acc r c = { takeHead e.now q c with v := c.v.set d (vOfBytes (r.data ++ bytesOf (c.iq[q].ent 0).data 32)) }) ∧
      (¬(iqFree e.now q c = true ∧ headReady c q = true) → stepRun e l acc r c = holdRun r c)) ∧
    (r.d.ins = .vqwr g d o first last →
      (oqFree e.now o c = true → stepRun e l acc r c = oqPush e.now o ⟨ofBytes 256 (r.data.drop 32), outSb c o false last⟩ c) ∧
      (oqFree e.now o c = false → stepRun e l acc r c = holdRun r c))

/-- The first step of an instruction of the matrix engine that moves or multiplies: it is taken, and its first group of rows meets the
banks (04 R96; 02 R31). -/
def Sys2Proof.Claims.firstStep (s : State) (g : Nat) (k : Disp) (occ lat : Nat) : Core :=
  let e := envOf s g
  let t := taken s g .matrix k occ lat
  stepRun e (asksNow e t) (accAsks e t) (newRun e .matrix k (getCore s g)) t

/-- MSTG, MSTGQ, MZERO, MBST and MBLD within their limits begin and do their first step; their groups of rows are one for each step of
their occupancy, at most 16 rows each, and cover the range once, in order. MSTGQ waits until its entries are present (02 R27; 04 R96,
Tables 4-4, 4-7). -/
def Sys2Proof.Claims.MatrixMovesBegin : Prop :=
  ∀ (s : State) (g : Nat) (d a b fn : Reg) (q : Fin 8) (k : Disp),
    let c := getCore s g
    let adr := (scAt k.sc 0).toNat
    let n := 256 * ((fn : Nat) + 1)
    let occ := ceilDiv ((fn : Nat) + 1) 2
    let inRows := fun (rows occ : Nat) => (groupsOf c k).length = occ ∧ (∀ p ∈ groupsOf c k, p.length ≤ 16) ∧
      (groupsOf c k).flatten = (List.range rows).map (fun i => (false, adr / 32 + i))
    (mayBegin s g .matrix (.mzero g d fn) k → (d : Nat) + fn ≤ 31 →
      exec (.mzero g d fn) s = .next (setCore s g (firstStep s g k occ (occ + 1))) ∧ groupsOf c k = List.replicate occ []) ∧
    ((d : Nat) + fn ≤ 31 → adr % 256 = 0 → inData adr n = true →
      (mayBegin s g .matrix (.mbst g d a fn) k →
        exec (.mbst g d a fn) s = .next (setCore s g (firstStep s g k occ (occ + 2))) ∧ inRows (n / 32) occ) ∧
      (mayBegin s g .matrix (.mbld g d a fn) k →
        exec (.mbld g d a fn) s = .next (setCore s g (firstStep s g k occ (occ + 2))) ∧ inRows (n / 32) occ)) ∧
    (let w := scAt k.sc 1
     let off := fld w 0 7
     let rows := fld w 8 7 + 1
     mayBegin s g .matrix (.mstg g a b) k → w.getLsbD 7 = false → fld w 15 17 = 0 → off + rows ≤ 128 → adr % 32 = 0 → inData adr (32 * rows) = true →
      exec (.mstg g a b) s = .next (setCore s g (firstStep s g k (ceilDiv rows 16) (ceilDiv rows 16 + 1))) ∧ inRows rows (ceilDiv rows 16)) ∧
    (let w := scAt k.sc 0
     let m := fld w 8 4 + 1
     let here := iqReady (envOf s g).now c q = true ∧ m ≤ c.iq[q].count
     mayGo s g .matrix (.mstgq g q b) k →
      (here → w.getLsbD 7 = false → fld w 12 20 = 0 → fld w 0 7 + m ≤ 128 →
        exec (.mstgq g q b) s = .next (setCore s g (firstStep s g k m (m + 1))) ∧ groupsOf c k = List.replicate m []) ∧
      (¬here → exec (.mstgq g q b) s = .next (setCore s g c)))

/-- The banks serve every row of the group in hand (02 R31, R32). -/
def Sys2Proof.Claims.groupServed (l : List Ask) (r : Run) (c : Core) : Prop :=
  (r.rows.map (fun q => bankOf q.row)).Nodup ∧
  ∀ q ∈ r.rows, bankServes l c ⟨userOf r.eng, r.d.seq, q.row, q.n, r.next⟩ = true

/-- An instruction that has done a group: it ends, or its next group is asked for in the next step (04 R96). -/
def Sys2Proof.Claims.goOn (e : Env) (r : Run) (c : Core) : Core :=
  match r.later with
  | [] => c
  | p :: t => holdRun { r with k := r.k + 1, next := e.now + 1, grp := p, rows := askRows p, later := t } c

/-- Core c' is core c but for its SRAM, blocks and staging, the n accesses counted in ACT_SRAM, the corrected words counted, and the banks
noted as used in this step (02 R46, R49). -/
def Sys2Proof.Claims.movedOnly (c c' : Core) (n : Nat) : Prop :=
  c'.r.actSram = c.r.actSram + BitVec.ofNat 32 n ∧
  { c' with sram := c.sram, ecc := c.ecc, banks := c.banks, stg := c.stg
            r := { c'.r with actSram := c.r.actSram, sramCe := c.r.sramCe }
            x := { c'.x with served := c.x.served, accUsed := c.x.accUsed } } = c

/-- What one group of MSTG, MBLD and MBST does once the banks serve all of it and no row read holds an uncorrectable word: its rows go from
SRAM to staging, from SRAM to the blocks, or from the blocks to SRAM, and every other byte of all three stays; then the next group is
asked for, or the instruction ends (04 R96, Table 4-4; 09 R209). -/
def Sys2Proof.Claims.MatrixMovesMoveTheirRows : Prop :=
  ∀ (e : Env) (l : List Ask) (acc : List Nat) (r : Run) (c : Core) (g : Nat) (d a b fn : Reg),
    r.addr % 32 = 0 → groupServed l r c → (∀ q ∈ r.rows, q.scale = false ∧ r.addr / 32 ≤ q.row) →
    let rel := fun (q : RowReq) => q.row - r.addr / 32
    let clean := ∀ q ∈ r.rows, eccBad c (32 * q.row) 32 = none
    (r.d.ins = .mstg g a b → clean →
      ∃ c', stepRun e l acc r c = goOn e r c' ∧ movedOnly c c' r.rows.length ∧ c'.sram = c.sram ∧ c'.banks = c.banks ∧
        (∀ q ∈ r.rows, ∀ j, j < 32 → tget 0 c'.stg (32 * (fld (scAt r.d.sc 1) 0 7 + rel q) + j) = tget 0 c.sram (32 * q.row + j)) ∧
        (∀ x, (∀ q ∈ r.rows, x / 32 ≠ fld (scAt r.d.sc 1) 0 7 + rel q) → tget 0 c'.stg x = tget 0 c.stg x)) ∧
    (r.d.ins = .mbld g d a fn → clean →
      ∃ c', stepRun e l acc r c = goOn e r c' ∧ movedOnly c c' r.rows.length ∧ c'.sram = c.sram ∧ c'.stg = c.stg ∧
        (∀ q ∈ r.rows, ∀ j, j < 32 → tget 0 c'.banks (256 * (d : Nat) + 32 * rel q + j) = tget 0 c.sram (32 * q.row + j)) ∧
        (∀ x, (∀ q ∈ r.rows, x / 32 ≠ 8 * (d : Nat) + rel q) → tget 0 c'.banks x = tget 0 c.banks x)) ∧
    (r.d.ins = .mbst g d a fn → (∀ q ∈ r.rows, rel q < 8 * ((fn : Nat) + 1)) →
      ∃ c', stepRun e l acc r c = goOn e r c' ∧ movedOnly c c' r.rows.length ∧ c'.banks = c.banks ∧ c'.stg = c.stg ∧
        (∀ q ∈ r.rows, ∀ j, j < 32 → tget 0 c'.sram (32 * q.row + j) = tget 0 c.banks (256 * (d : Nat) + 32 * rel q + j)) ∧
        (∀ x, (∀ q ∈ r.rows, x / 32 ≠ q.row) → tget 0 c'.sram x = tget 0 c.sram x))

/-- A step of MZERO zeroes two blocks, or the last one; a step of MSTGQ takes the head entry of its queue into the next staging row, or waits
while the head may not be taken (04 R96, Table 4-4; 02 R28). -/
def Sys2Proof.Claims.ZeroingAndQueueStagingStep : Prop :=
  ∀ (e : Env) (l : List Ask) (acc : List Nat) (r : Run) (c : Core) (g : Nat) (d b fn : Reg) (q : Fin 8), r.rows = [] →
    (r.d.ins = .mzero g d fn → 2 * r.k ≤ (fn : Nat) →
      let n := 256 * min 2 ((fn : Nat) + 1 - 2 * r.k)
      let lo := 256 * ((d : Nat) + 2 * r.k)
      ∃ c', stepRun e l acc r c = goOn e r c' ∧ movedOnly c c' 0 ∧ c'.sram = c.sram ∧ c'.stg = c.stg ∧
        (∀ x, tget 0 c'.banks x = if lo ≤ x ∧ x < lo + n then 0 else tget 0 c.banks x)) ∧
    (r.d.ins = .mstgq g q b →
      (iqFree e.now q c = true → headReady c q = true →
        stepRun e l acc r c = goOn e r { takeHead e.now q c with
          stg := mwrite c.stg (32 * (fld (scAt r.d.sc 0) 0 7 + r.k)) (bytesOf (c.iq[q].ent 0).data 32) }) ∧
      (¬(iqFree e.now q c = true ∧ headReady c q = true) → stepRun e l acc r c = holdRun r c))

/-- MMA and MMAS, of a format that is allowed and within their limits, begin and do their first step: as many groups of rows as their
occupancy has steps, every row of W that MMA needs asked for once. MMAS faults on a bad operand unit with FORMAT, SUB 0x11
(04 R96, R103 to R106; 08 R198, R199, R201). -/
def Sys2Proof.Claims.MatrixProductsBegin : Prop :=
  ∀ (s : State) (g : Nat) (d a b : Reg) (mf : TileFmt) (rm : Rounding) (k : Disp),
    let c := getCore s g
    let sh := shapeOf (scAt k.sc 1) (scAt k.sc 2)
    let wa := (scAt k.sc 0).toNat
    let n := sh.m * sh.k
    shortFault (envOf s g) mf = none →
    (mayBegin s g .matrix (.mma g d a b mf rm) k → firstBroken (mmaLimits mf rm d a b sh wa) = none →
      exec (.mma g d a b mf rm) s = .next (setCore s g (firstStep s g k (ceilDiv n 8) (ceilDiv n 8 + 6))) ∧
      (groupsOf c k).length = ceilDiv n 8 ∧
      ((groupsOf c k).flatten.filter (fun p => !p.1)).map Prod.snd = (List.range sh.k).map (fun i => (wa + sh.wrow * i) / 32)) ∧
    (let set := setBits (mread c.stg (sh.xoff + 32) (32 * bitmapUnits n)) n
     let occ := mmasOccupancy set n
     mayBegin s g .matrix (.mmas g d a b mf rm) k → firstBroken (mmasLimits mf rm d a b sh wa ++ [(decide (1000 < mmasWorst n), [b])]) = none →
      (mmasBad sh c = none →
        exec (.mmas g d a b mf rm) s = .next (setCore s g (firstStep s g k occ (occ + 6))) ∧ (groupsOf c k).length = occ) ∧
      (∀ det, mmasBad sh c = some det →
        exec (.mmas g d a b mf rm) s = .next (setCore s g (insFault (envOf s g) k stFormat 0x11 det c))))

/-- One group of MMA or MMAS, once the banks serve all of it and no row holds an uncorrectable word: its rows are read, ACT_MTX advances by
the step's units, and the next group is asked for; the last group ends the instruction with its results (02 R49; 04 R96, R104;
08 R199, R201; 09 R210). -/
def Sys2Proof.Claims.MatrixProductsReadTheirRows : Prop :=
  ∀ (e : Env) (l : List Ask) (acc : List Nat) (r : Run) (c : Core) (g : Nat) (d a b : Reg) (mf : TileFmt) (rm : Rounding),
    groupServed l r c → (∀ q ∈ r.rows, eccBad c (32 * q.row) 32 = none) →
    r.d.ins = .mma g d a b mf rm ∨ r.d.ins = .mmas g d a b mf rm →
    ∃ (got : List (Bool × Nat × Row)) (c' : Core),
      (∀ q ∈ r.rows, gotRow got q.scale q.row = ofBytes 256 (mread c.sram (32 * q.row) 32)) ∧
      (∀ sc row, (∀ q ∈ r.rows, ¬(q.scale = sc ∧ q.row = row)) → gotRow got sc row = gotRow r.got sc row) ∧
      c'.r.actMtx = c.r.actMtx + BitVec.ofNat 32 (r.units.headD 0) ∧
      movedOnly c { c' with r := { c'.r with actMtx := c.r.actMtx }, x := { c'.x with wRow := c.x.wRow } } r.rows.length ∧
      c'.sram = c.sram ∧ c'.banks = c.banks ∧ c'.stg = c.stg ∧
      (r.later ≠ [] → stepRun e l acc r c = goOn e { r with got := got, units := r.units.drop 1 } c') ∧
      (r.later = [] → stepRun e l acc r c = (if r.d.ins = .mma g d a b mf rm then mmaFinish mf rm d r.d.sc r.addr got c'
        else mmasFinish mf rm d r.d.sc r.addr got c'))

/-- Element (q, col) of W, with its block scale unless results are I32 (04 R99, R101). -/
def Sys2Proof.Claims.wElem (mf : TileFmt) (sh : Shape) (got : List (Bool × Nat × Row)) (wa q col : Nat) : FVal :=
  let v := mf.value (elemAt mf (bytesOf (gotRow got false ((wa + sh.wrow * q) / 32)) 32) col)
  if mf.short && sh.outF ≠ 2 then withScale (gotByte got (sh.wsa + (q * mmaCols mf + col) / sh.bw)).toNat v else v

/-- One result of a product, from the pairs of elements that meet in it and the number that stood in its place: the exact sum, and the old
value where ACC says so, rounded once (04 R100 to R102). -/
def Sys2Proof.Claims.isResult (sh : Shape) (mode : RMode) (pairs : List (FVal × FVal)) (old new : Nat) : Prop :=
  let prods := pairs.map (fun p => p.1.mul p.2)
  let ff := if sh.outF = 0 then fmtH16 else fmtW16
  let dst := if sh.acc then [decodeFloat ff old] else []
  (sh.outF = 2 → new = (BitVec.ofInt 32 (sumAt 0 prods + (if sh.acc then (old : Int) else 0))).toNat) ∧
  (sh.outF ≠ 2 → new = (BitVec.ofNat 16 (roundTo ff mode (if sh.acc && prods.isEmpty then decodeFloat ff old else sumF (prods ++ dst)))).toNat)

/-- The results of MMA and MMAS: each of the M x N places of the destination takes the exact sum of its products, rounded once; MMA sums over
every k, MMAS over the k whose bitmap bit is set. Every other byte of the blocks stays, and nothing else of the core changes but
OVF_LOCAL, which can only rise (04 R99 to R106; 08 R198, R200). -/
def Sys2Proof.Claims.MatrixProductResults : Prop :=
  ∀ (mf : TileFmt) (rm : Rounding) (d : Reg) (sc : List Word) (wa : Nat) (got : List (Bool × Nat × Row)) (c : Core),
    let sh := shapeOf (scAt sc 1) (scAt sc 2)
    let n := mmaCols mf
    let w := outWidth sh
    let base := 256 * (d : Nat)
    let size := sh.m * sh.k
    let old := fun (i : Nat) => natOfBytes (mread c.banks (base + i * w) w)
    let mode := fun (i : Nat) => roundMode rm c.seed sc 512 i (if sh.outF = 0 then 0 else 1)
    let framed := fun (c' : Core) => (∀ x, x < base ∨ base + sh.m * n * w ≤ x → tget 0 c'.banks x = tget 0 c.banks x) ∧
      (∃ o, c'.guard = gOrOvf c.guard o) ∧ { c' with banks := c.banks, guard := c.guard } = c
    (let c' := mmaFinish mf rm d sc wa got c
     let xb := mread c.stg sh.xoff (ceilDiv (size * mf.width) 8)
     framed c' ∧ ∀ i, i < sh.m * n →
      isResult sh (mode i) ((List.range sh.k).map (fun q =>
        (xValue mf sh c (elemAt mf xb (q * sh.m + i / n)) (q * sh.m + i / n), wElem mf sh got wa q (i % n))))
        (old i) (natOfBytes (mread c'.banks (base + i * w) w))) ∧
    (let c' := mmasFinish mf rm d sc wa got c
     let set := setBits (mread c.stg (sh.xoff + 32) (32 * bitmapUnits size)) size
     let vals := mread c.stg (sh.xoff + 32 * (1 + bitmapUnits size)) (32 * valueUnits mf set.length)
     framed c' ∧ ∀ i, i < sh.m * n →
      isResult sh (mode i) ((set.zipIdx.filter (fun p => decide (p.1 % sh.m = i / n))).map (fun p =>
        (xValue mf sh c (elemAt mf vals p.2) p.1, wElem mf sh got wa (p.1 / sh.m) (i % n))))
        (old i) (natOfBytes (mread c'.banks (base + i * w) w)))

/-- The core once its matrix engine has taken an attention instruction, the accumulator banks of its step noted (02 R34; 04 R96). -/
def Sys2Proof.Claims.attended (s : State) (g : Nat) (k : Disp) (occ lat : Nat) : Core :=
  let t := taken s g .matrix k occ lat
  { t with x := { t.x with accUsed := accBanks k 0 ++ t.x.accUsed } }

/-- MMASK, within its limits, replaces the masked elements from block D on by minus infinity, as CAUSAL, WINDOW or BAND says, and keeps the
others; nothing else of the core changes but the records of the issue (04 R108, R109). -/
def Sys2Proof.Claims.MaskingScores : Prop :=
  ∀ (s : State) (g : Nat) (d a b : Reg) (mode : MaskMode) (k : Disp),
    let c := getCore s g
    let sh := attnShape (scAt k.sc 2)
    let occ := ceilDiv (sh.m * sh.n) 128
    let base := 256 * (d : Nat)
    let q := fun (i : Nat) => fld (scAt k.sc 0) 0 24 + i / sh.n
    let key := fun (i : Nat) => fld (scAt k.sc 1) 0 24 + i % sh.n
    let win := fld (scAt k.sc 3) 0 24 + 1
    let off := fun (i : Nat) => match mode with
      | .causal => q i < key i
      | .window => q i < key i ∨ key i + win ≤ q i
      | .band => q i + win ≤ key i ∨ key i + win ≤ q i
    mayBegin s g .matrix (.mmask g d a b mode) k → sh.rsv = false → sh.fmt ≤ 1 → base + 2 * (sh.m * sh.n) ≤ 8192 →
    fld (scAt k.sc 0) 24 8 = 0 → fld (scAt k.sc 1) 24 8 = 0 → (mode = .causal ∨ fld (scAt k.sc 3) 24 8 = 0) →
    fld (scAt k.sc 0) 0 24 + sh.m - 1 ≤ 16777215 → fld (scAt k.sc 1) 0 24 + sh.n - 1 ≤ 16777215 →
    ∃ m : Mem, exec (.mmask g d a b mode) s = .next (setCore s g { attended s g k occ (occ + 2) with banks := m }) ∧
      (∀ i, i < sh.m * sh.n →
        (off i → natOfBytes (mread m (base + 2 * i) 2) = if sh.fmt = 0 then 0xFC00 else 0xFF80) ∧
        (¬off i → mread m (base + 2 * i) 2 = mread c.banks (base + 2 * i) 2)) ∧
      ∀ x, x < base ∨ base + 2 * (sh.m * sh.n) ≤ x → tget 0 m x = tget 0 c.banks x

/-- MSMX, within its limits, writes for each row of scores the new maximum, sum and correction to block A and the probabilities to staging,
element by element, and OVF_LOCAL; every other byte of blocks and staging, and the rest of the core but the records of the issue,
stays (04 R108, R110). -/
def Sys2Proof.Claims.SoftmaxOfABlock : Prop :=
  ∀ (s : State) (g : Nat) (d a b : Reg) (k : Disp),
    let c := getCore s g
    let sh := attnShape (scAt k.sc 0)
    let occ := 2 * ceilDiv (sh.m * sh.n) 128
    let st := 256 * (a : Nat)
    let h := fun (o : Nat) => natOfBytes (mread c.banks o 2)
    let at_ := fun (m : Mem) (o : Nat) => BitVec.ofNat 16 (natOfBytes (mread m o 2))
    let row := fun (m : Nat) => msmxRow (attnFmt sh) ((List.range sh.n).map (fun n => h (256 * (d : Nat) + 2 * (m * sh.n + n))))
      (if sh.init then (if sh.fmt = 0 then 0xFC00 else 0xFF80) else h (st + 2 * m)) (if sh.init then 0 else h (st + 16 + 2 * m))
    mayBegin s g .matrix (.msmx g d a b) k → sh.rsv = false → sh.fmt ≤ 1 → 256 * (d : Nat) + 2 * (sh.m * sh.n) ≤ 8192 →
    sh.xoff + 2 * sh.m * sh.n ≤ 4096 →
    ∃ m t : Mem, exec (.msmx g d a b) s = .next (setCore s g { attended s g k occ (occ + 8) with
        banks := m, stg := t, guard := gOrOvf c.guard ((List.range sh.m).any (fun j => (row j).2.2.2.2)) }) ∧
      (∀ j, j < sh.m → at_ m (st + 2 * j) = BitVec.ofNat 16 (row j).1 ∧ at_ m (st + 16 + 2 * j) = BitVec.ofNat 16 (row j).2.1 ∧
        at_ m (st + 32 + 2 * j) = BitVec.ofNat 16 (row j).2.2.1 ∧
        ∀ n, n < sh.n → at_ t (sh.xoff + 2 * (n * sh.m + j)) = BitVec.ofNat 16 ((row j).2.2.2.1.getD n 0)) ∧
      (∀ x, (x < st ∨ st + 2 * sh.m ≤ x) → (x < st + 16 ∨ st + 16 + 2 * sh.m ≤ x) → (x < st + 32 ∨ st + 32 + 2 * sh.m ≤ x) →
        tget 0 m x = tget 0 c.banks x) ∧
      (∀ x, x < sh.xoff ∨ sh.xoff + 2 * sh.m * sh.n ≤ x → tget 0 t x = tget 0 c.stg x)

/-- MSCL, within its limits, multiplies each element from block D on by the correction factor of its row, rounds once and sets OVF_LOCAL where
a result says so; nothing else of the core changes but the records of the issue (04 R108, R111). -/
def Sys2Proof.Claims.CorrectionOfAnAccumulator : Prop :=
  ∀ (s : State) (g : Nat) (d a b : Reg) (k : Disp),
    let c := getCore s g
    let sh := attnShape (scAt k.sc 0)
    let ff := if sh.fmt = 0 then fmtH16 else fmtW16
    let el := sh.m * sh.n * (fld (scAt k.sc 1) 0 4 + 1)
    let occ := ceilDiv el 128
    let base := 256 * (d : Nat)
    let x := fun (i : Nat) => decodeFloat ff (natOfBytes (mread c.banks (base + 2 * i) 2))
    let y := fun (i : Nat) => decodeFloat ff (natOfBytes (mread c.banks (256 * (a : Nat) + 32 + 2 * (i % (sh.m * sh.n) / sh.n)) 2))
    let res := fun (i : Nat) => roundTo ff .rne ((x i).mul (y i))
    mayBegin s g .matrix (.mscl g d a b) k → sh.rsv = false → sh.fmt ≤ 1 → base + 2 * el ≤ 8192 → fld (scAt k.sc 1) 4 28 = 0 →
    ∃ m : Mem, exec (.mscl g d a b) s = .next (setCore s g { attended s g k occ (occ + 4) with
        banks := m, guard := gOrOvf c.guard ((List.range el).any (fun i => ovfOf [x i, y i] (decodeFloat ff (res i)))) }) ∧
      (∀ i, i < el → natOfBytes (mread m (base + 2 * i) 2) = (BitVec.ofNat 16 (res i)).toNat) ∧
      ∀ z, z < base ∨ base + 2 * el ≤ z → tget 0 m z = tget 0 c.banks z

/-- DMOV waits until its slot is idle. Then its descriptor is the staged one, or the row at its address once the bank serves it; refused, it
stays in progress. A misplaced address, a bad descriptor, a bad range and an uncorrectable row fault in this order and leave the slot.
Else TOUT goes on to read its template; any other kind loads the slot, keeps the descriptor staged, and changes nothing else of the
core but the records of the issue (04 R112, R114, R115; 02 R31, R46; 09 R210). -/
def Sys2Proof.Claims.DmovLoadsItsSlot : Prop :=
  ∀ (s : State) (g : Nat) (slot : Fin 4) (a : Reg) (imm : Word) (k : Disp),
    let c := getCore s g
    let e := envOf s g
    let i := Instr.dmov g slot a imm
    let adr := (scAt k.sc 0 + imm).toNat
    let held := match c.x.dRow with | some (b, w) => if b = adr then some w else none | none => none
    let w := held.getD (ofBytes 256 (mread c.sram adr 32))
    let t := taken s g .dma k 1 2
    let t1 := if held.isSome then t else eccCount adr 32 (markServed .dmov (adr / 32) t)
    mayGo s g .dma i k →
    (slotFree c slot = false → exec i s = .next (setCore s g c)) ∧
    (slotFree c slot = true →
      (¬(adr % 32 = 0 ∧ inData adr 32 = true) →
        exec i s = .next (setCore s g (insFault e k stBounds 0x14 ((slot : Nat) * 16384 + adr % 65536 / 4 % 16384) c))) ∧
      (adr % 32 = 0 → inData adr 32 = true →
        (held = none → bankFree s g .dma k (adr / 32) t = false → exec i s = .next (setCore s g (holdRun (newRun e .dma k c) t))) ∧
        (held.isSome = true ∨ bankFree s g .dma k (adr / 32) t = true →
          (∀ j, descBad w = some j → exec i s = .next (setCore s g (insFault e k stFormat 0x12 (slotDetail slot j) t1))) ∧
          (∀ b, descBad w = none → descRange w = some b →
            exec i s = .next (setCore s g (insFault e k stBounds 0x14 (slotDetail slot (b / 4)) t1))) ∧
          (∀ u, descBad w = none → descRange w = none → held = none → eccBad c adr 32 = some u →
            exec i s = .next (setCore s g (insFault e k stPoison 0x0A u t1))) ∧
          (descBad w = none → descRange w = none → (held = none → eccBad c adr 32 = none) →
            ∃ c', exec i s = .next (setCore s g c') ∧ c'.x.dRow = some (adr, w) ∧
              { c' with dma := c.dma, x := t1.x } = t1 ∧
              (dKind w ≠ 5 → c'.dma = c.dma.set slot (slotImage w k.pc k.long) ∧ c'.x.slotAt[slot] = e.now + 2 ∧
                c'.x.slotFin[slot] = false ∧ c'.x.runs = c.x.runs) ∧
              (dKind w = 5 → c'.dma = c.dma ∧ ∃ r, c'.x.runs = c.x.runs ++ [r] ∧ r.d = k ∧ r.k = 1 ∧ r.addr = adr ∧ r.data = bytesOf w 32 ∧
                r.next = e.now + 1 ∧ r.rows = [⟨false, dSrc w / 32, 0⟩] ∧ r.later = [])))))

/-- The second step of a DMOV of a TOUT slot: its bank refuses the template row and it waits, or it reads the row. A template that fails
its checks, a source range outside the data region and an uncorrectable row fault in this order; else the slot is loaded, with the n of
the template it has checked (04 R115; 05 R145; 02 R31, R46). -/
def Sys2Proof.Claims.DmovChecksItsTemplate : Prop :=
  ∀ (e : Env) (l : List Ask) (acc : List Nat) (r : Run) (c : Core) (g : Nat) (slot : Fin 4) (a : Reg) (imm : Word),
    let w : BitVec 256 := ofBytes 256 r.data
    let src := dSrc w
    let ask : Ask := ⟨userOf r.eng, r.d.seq, src / 32, 0, r.next⟩
    let tpl : Row := ofBytes 256 (mread c.sram src 32)
    let c1 := eccCount src 32 (markServed (userOf r.eng) (src / 32) c)
    r.d.ins = .dmov g slot a imm → r.k = 1 → r.rows = [⟨false, src / 32, 0⟩] → r.later = [] → dKind w = 5 → src % 32 = 0 →
    (bankServes l c ask = false → stepRun e l acc r c = holdRun r c) ∧
    (bankServes l c ask = true →
      (templateValid tpl = false → stepRun e l acc r c = insFault e r.d stFormat 0x13 (slotDetail slot 0) c1) ∧
      (templateValid tpl = true → inData src (32 + 2 * hN tpl) = false →
        stepRun e l acc r c = insFault e r.d stBounds 0x14 (slotDetail slot (src / 4)) c1) ∧
      (∀ u, templateValid tpl = true → inData src (32 + 2 * hN tpl) = true → eccBad c src 32 = some u →
        stepRun e l acc r c = insFault e r.d stPoison 0x0A u c1) ∧
      (templateValid tpl = true → inData src (32 + 2 * hN tpl) = true → eccBad c src 32 = none →
        let c' := stepRun e l acc r c
        c'.dma = c.dma.set slot (slotImage w r.d.pc r.d.long) ∧ c'.x.slotN[slot] = hN tpl ∧ c'.x.slotAt[slot] = e.now + 1 ∧
        c'.x.slotFin[slot] = false ∧ c'.x.tout[slot] = .none ∧ { c' with dma := c.dma, x := c1.x } = c1))

/-- Whether the bank serves the row that a slot asks for in this step, and the core after the request: the access counted and noted, or the
refused request kept (02 R31; 04 R116). -/
def Sys2Proof.Claims.slotAsk (s : State) (g : Nat) (slot : Fin 4) (adr : Nat) : Bool × Core :=
  askBank (envOf s g) .dma slot (adr / 32) (getCore s g)

/-- A slot whose row is refused makes no move (02 R31). -/
def Sys2Proof.Claims.RefusedSlotsWait : Prop :=
  ∀ (s : State) (g : Nat) (slot : Fin 4) (adr : Nat),
    let c := getCore s g
    (slotAsk s g slot adr).1 = false →
    ∃ l, (slotAsk s g slot adr).2 = { c with x := { c.x with refused := l } } ∧
      (∃ a ∈ l, a.user = .dma ∧ a.tag = (slot : Nat)) ∧ ∀ a ∈ c.x.refused, a ∈ l

/-- COPY reads a row when the source bank serves it, and writes it in a later step when the destination bank does, uncorrectable words
marked as such; a halt lets it write what it has read. QIN, QOUT, STG and FWD each move one row or entry from where PROG stands and advance
by 32 bytes, when their bank serves them, a head may be taken and there is room; a slot that its bank refuses keeps its request
(04 Table 4-6, R115, R116; 02 R31, R41, R46). -/
def Sys2Proof.Claims.RawSlotsMoveOneRow : Prop :=
  ∀ (s : State) (g : Nat) (slot : Fin 4) (w : BitVec 256), g < numCores →
    let c := getCore s g
    let e := envOf s g
    let p := dProg w
    let q := dIq w
    let o := dOq w
    let fin := decide (dLen w ≤ p + 32)
    let src := dSrc w + p
    let dst := dDst w + p
    let S := slotAsk s g slot src
    let D := slotAsk s g slot dst
    let cs := eccCount src 32 S.2
    let words : Row := ofBytes 256 (mread c.sram src 32)
    (slotReady e 1 slot c = some w → c.x.copied[slot] = none →
      exec (.copyRow g slot) s = .next (setCore s g (if S.1 then { cs with x := { cs.x with
        copied := cs.x.copied.set slot (some (words, rowMarks src c)), slotAt := cs.x.slotAt.set slot (e.now + 1) } } else S.2))) ∧
    (∀ row marks, slotReady e 1 slot c = some w → c.x.copied[slot] = some (row, marks) →
      (D.1 = false → exec (.copyRow g slot) s = .next (setCore s g D.2)) ∧
      (D.1 = true → ∃ c', exec (.copyRow g slot) s = .next (setCore s g c') ∧ c'.x.copied[slot] = none ∧ c'.x.slotFin[slot] = fin ∧
        c'.dma = c.dma.set slot (setFld w 192 16 (p + 32)) ∧ c'.sram = mwrite c.sram dst (bytesOf row 32) ∧
        (dst % 8 = 0 → ∀ j : Fin 4, tget 0 c'.ecc (dst / 8 + j) = if marks.getLsbD j then 2 else 0) ∧
        { c' with dma := c.dma, sram := c.sram, ecc := c.ecc, x := D.2.x } = D.2)) ∧
    (slotReady e 2 slot c = some w → headFor e.now c q = true →
      exec (.qinEntry g slot) s = .next (setCore s g (if D.1 then slotMoved slot (p + 32) (e.now + 1) fin
        (sramPut dst (bytesOf (c.iq[q].ent 0).data 32) (takeHead e.now q D.2)) else D.2))) ∧
    (let first := dFl w && decide (p = 0)
     let data := if first && (eccBad c src 32).isSome then setBit words 10 true else words
     slotReady e 3 slot c = some w → roomFor e.now c o = true →
      exec (.qoutEntry g slot) s = .next (setCore s g (if S.1 then slotMoved slot (p + 32) (e.now + 1) fin
        (oqPush e.now o ⟨data, outSb c o first (dFl w && fin)⟩ cs) else S.2))) ∧
    (slotReady e 7 slot c = some w → rowInUse e.now c (dst / 32) = false →
      (S.1 = false → exec (.stgRow g slot) s = .next (setCore s g S.2)) ∧
      (∀ u, S.1 = true → eccBad c src 32 = some u →
        exec (.stgRow g slot) s = .next (setCore s g (slotFault e slot w stPoison 0x0A u S.2))) ∧
      (S.1 = true → eccBad c src 32 = none →
        exec (.stgRow g slot) s = .next (setCore s g (slotMoved slot (p + 32) (e.now + 1) fin { cs with stg := mwrite c.stg dst (mread c.sram src 32) })))) ∧
    (let en := c.iq[q].ent 0
     slotReady e 8 slot c = some w → headFor e.now c q = true → roomFor e.now c o = true →
      exec (.fwdEntry g slot) s = .next (setCore s g (slotMoved slot (p + 32) (e.now + 1) (endsToken en)
        (oqPush e.now o ⟨en.data, setFld en.sb 6 2 0⟩ (takeHead e.now q c)))))

/-- TIN takes a tile's header entry once its ring has room, if it passes R121, and then its payload entries into SRAM with the running CRC,
which the last entry must bear out; what fails faults with the DETAIL of the slot and the tile, and a header read back with an
uncorrectable word is POISON, SUB 0x0A (04 R118, R121, R123; 05 R143). -/
def Sys2Proof.Claims.TinTakesTilesEntryByEntry : Prop :=
  ∀ (s : State) (g : Nat) (slot : Fin 4) (w : BitVec 256), g < numCores →
    let c := getCore s g
    let e := envOf s g
    let p := dProg w
    let q := dIq w
    let en := c.iq[q].ent 0
    let base := dDst w + (dDone w % dRing w) * dStride w
    let h : Row := ofBytes 256 (mread c.sram base 32)
    let det := slotDetail slot (dDone w)
    let i := Instr.tinEntry g slot
    let A := slotAsk s g slot (base + p)
    slotReady e 4 slot c = some w → headFor e.now c q = true →
    (p = 0 → dChe w = true → dRing w * dAmt w ≤ fill c.ch[dCh w] → exec i s = .next (setCore s g c)) ∧
    (p = 0 → (dChe w = true → fill c.ch[dCh w] < dRing w * dAmt w) →
      (∀ code sub, headerFault w en none = some (code, sub) → exec i s = .next (setCore s g (slotFault e slot w code sub det c))) ∧
      (headerFault w en none = none → exec i s = .next (setCore s g (if A.1 then setCrcp slot (crcHeader en.data)
        (slotMoved slot 32 (e.now + 1) false (sramPut base (bytesOf en.data 32) (takeHead e.now q A.2))) else A.2)))) ∧
    (p ≠ 0 →
      (∀ u, eccBad c base 32 = some u → exec i s = .next (setCore s g (slotFault e slot w stPoison 0x0A u c))) ∧
      (eccBad c base 32 = none →
        (sbLast en.sb ≠ decide (32 * hUnits h ≤ p) → exec i s = .next (setCore s g (slotFault e slot w stFormat 0x13 det c))) ∧
        (sbLast en.sb = decide (32 * hUnits h ≤ p) →
          let crc := crcGo (dCrcp w) (bytesOf en.data 32)
          let c2 := sramPut (base + p) (bytesOf en.data 32) (takeHead e.now q A.2)
          (A.1 = false → exec i s = .next (setCore s g A.2)) ∧
          (A.1 = true → sbLast en.sb = true → crc ^^^ 0xFFFFFFFF#32 ≠ hCrc h →
            exec i s = .next (setCore s g (slotFault e slot w stPoison 0x17 det c2))) ∧
          (A.1 = true → (sbLast en.sb = true → crc ^^^ 0xFFFFFFFF#32 = hCrc h) →
            exec i s = .next (setCore s g (setCrcp slot crc (slotMoved slot (p + 32) (e.now + 1) (sbLast en.sb) c2)))))))

/-- TSTG takes a tile's header entry that passes R121 and the limits of R196 to the SRAM prefix, a dense tile's payload entries to staging
with the running CRC, and of a compressed tile the form unit and the bitmap to the prefix and then the values and scales, whose dense
rows it writes one a step; rows that the matrix engine has in use make it wait, and faults carry slot and tile (04 R115, R121; 08 R196, R197;
02 R35). -/
def Sys2Proof.Claims.TstgExpandsTiles : Prop :=
  ∀ (s : State) (g : Nat) (slot : Fin 4) (w : BitVec 256), g < numCores →
    let c := getCore s g
    let e := envOf s g
    let p := dProg w
    let q := dIq w
    let en := c.iq[q].ent 0
    let h : Row := ofBytes 256 (mread c.sram (dStride w) 32)
    let det := slotDetail slot (dDone w)
    let i := Instr.tstgEntry g slot
    let A := slotAsk s g slot (dStride w + p)
    let crc := crcGo (dCrcp w) (bytesOf en.data 32)
    let good := sbLast en.sb = true → crc ^^^ 0xFFFFFFFF#32 = hCrc h
    let bu := bitmapUnits (hN h)
    let u := p / 32 - 1
    let wrote := fun (rows : List StgWrite) (c : Core) =>
      let c1 := setCrcp slot crc (slotMoved slot (p + 32) (e.now + 1) (sbLast en.sb && rows.isEmpty) c)
      { c1 with x := { c1.x with stgLeft := c1.x.stgLeft.set slot rows } }
    (∀ row rest, c.x.stgLeft[slot] = row :: rest → dmaRuns e c = true → slotTurn e slot c = true → c.dma[slot] = w → dKind w = 6 →
      rowInUse e.now c (stgRow row) = false →
      exec i s = .next (setCore s g { c with
        stg := stgPut row c.stg
        x := { c.x with
          stgLeft := c.x.stgLeft.set slot rest
          slotAt := c.x.slotAt.set slot (e.now + 1)
          slotFin := c.x.slotFin.set slot (rest.isEmpty && decide (32 * hUnits h < p)) } })) ∧
    (c.x.stgLeft[slot] = [] → slotReady e 6 slot c = some w → headFor e.now c q = true →
      (p = 0 →
        (∀ code sub, tstgFault w en = some (code, sub) → exec i s = .next (setCore s g (slotFault e slot w code sub det c))) ∧
        (tstgFault w en = none → exec i s = .next (setCore s g (if A.1 then setCrcp slot (crcHeader en.data)
          (slotMoved slot 32 (e.now + 1) false (sramPut (dStride w) (bytesOf en.data 32) (takeHead e.now q A.2))) else A.2)))) ∧
      (p ≠ 0 → eccBad c (dStride w) 32 = none → sbLast en.sb = decide (32 * hUnits h ≤ p) →
        (hC h = false → rowInUse e.now c ((dDst w + p - 32) / 32) = true → exec i s = .next (setCore s g c)) ∧
        (hC h = false → rowInUse e.now c ((dDst w + p - 32) / 32) = false → good →
          exec i s = .next (setCore s g (wrote [] { takeHead e.now q c with
            stg := mwrite c.stg (dDst w + p - 32) (bytesOf en.data 32) }))) ∧
        (∀ f, hC h = true → hTile h = some f → u ≤ bu → prefixOk w h f u en.data c = false →
          exec i s = .next (setCore s g (slotFault e slot w stFormat 0x1E det c))) ∧
        (∀ f, hC h = true → hTile h = some f → u ≤ bu → prefixOk w h f u en.data c = true → A.1 = true → good →
          exec i s = .next (setCore s g (wrote (if u = bu then (List.range (hDense h)).map (fun j => rowWrite (dDst w + 32 * j) (List.replicate 32 0)) else [])
            (sramPut (dStride w + p) (bytesOf en.data 32) (takeHead e.now q A.2))))) ∧
        (∀ f, hC h = true → hTile h = some f → bu < u → eccBad c (dStride w) (64 + 32 * bu) = none → good →
          exec i s = .next (setCore s g (wrote (expandRows w h f u en.data (mread c.sram (dStride w + 64) (32 * bu))) (takeHead e.now q c))))))

/-- TOUT reads its template and its source, one row a step, each time its bank serves it; the compressor takes a source that was read
whole, lower slots first, and forms the tile 2 + n / 128 steps after; TOUT then emits the tile's entries one at a time
(04 R116, R119; 08 R189). -/
def Sys2Proof.Claims.ToutReadsFormsAndEmits : Prop :=
  ∀ (s : State) (g : Nat) (slot : Fin 4) (w : BitVec 256), g < numCores →
    let c := getCore s g
    let e := envOf s g
    let p := dProg w
    let o := dOq w
    let read := Instr.toutSourceRead g slot
    slotReady e 5 slot c = some w →
    (∀ rows ue, (c.x.tout[slot] = .none ∧ rows = [] ∧ ue = false) ∨ c.x.tout[slot] = .reading rows ue →
      let i := rows.length
      let A := slotAsk s g slot (dSrc w + 32 * i)
      let all := rows ++ [(ofBytes 256 (mread c.sram (dSrc w + 32 * i) 32) : Row)]
      let tpl := all.headD 0
      let n := hN tpl
      let size := if i = 0 then 32 else min 32 (32 + 2 * n - 32 * i)
      let ue1 := ue || (eccBad c (dSrc w + 32 * i) size).isSome
      let vals := (all.drop 1).flatMap (fun r => bytesOf r 32)
      let bad := i = 0 ∧ (templateValid tpl = false ∨ (c.x.slotN[slot] ≠ 0 ∧ c.x.slotN[slot] ≠ n) ∨ inData (dSrc w) (32 + 2 * n) = false)
      (A.1 = false → exec read s = .next (setCore s g A.2)) ∧
      (A.1 = true → bad → exec read s = .next (setCore s g (slotFault e slot w stFormat 0x13 (slotDetail slot (dDone w)) A.2))) ∧
      (A.1 = true → ¬bad →
        let c2 := eccCount (dSrc w + 32 * i) size A.2
        exec read s = .next (setCore s g { c2 with x := { c2.x with
          tout := c2.x.tout.set slot (if 32 + 2 * n ≤ 32 * (i + 1) then
            .read tpl ((List.range n).map (fun j => leAt vals (2 * j) 2)) ue1 else .reading all ue1)
          slotAt := c2.x.slotAt.set slot (e.now + 1) } }))) ∧
    (∀ tpl xs ue t, c.x.tout[slot] = .source tpl xs ue t →
      exec (.tileForm g slot) s = .next (setCore s g (if t ≤ e.now then { c with x := { c.x with
        tout := c.x.tout.set slot (.formed (formTile tpl xs c.seed c.r.epoch ue (BitVec.ofNat 20 e.lid))) } } else c))) ∧
    (∀ ents, c.x.tout[slot] = .formed ents → roomFor e.now c o = true →
      exec (.toutEntry g slot) s = .next (setCore s g (slotMoved slot (p + 32) (e.now + 1) (decide (ents.length ≤ p / 32 + 1))
        (oqPush e.now o ⟨(ents.drop (p / 32)).headD 0, outSb c o (decide (p / 32 = 0)) (decide (ents.length ≤ p / 32 + 1))⟩ c))))

/-- At the end of a step the compressor takes the sources that were read whole: alone, one is formed 2 + n / 128 steps after the next;
of two, the lower slot's is formed first and the other begins when it is done (08 R189). -/
def Sys2Proof.Claims.TheCompressorTakesLowerSlotsFirst : Prop :=
  ∀ (now : Nat) (c : Core) (j k : Fin 4) (tpl tpl' : Row) (xs xs' : List Nat) (ue ue' : Bool),
    (∀ i : Fin 4, i ≠ j → i ≠ k → c.x.tout[i] = .none) →
    c.x.tout[k] = .read tpl xs ue →
    (c.x.tout[j] = .none → (toutEnd now c).x.tout[k] = .source tpl xs ue (now + 1 + (2 + ceilDiv xs.length 128))) ∧
    (j < k → c.x.tout[j] = .read tpl' xs' ue' →
      (toutEnd now c).x.tout[j] = .source tpl' xs' ue' (now + 1 + (2 + ceilDiv xs'.length 128)) ∧
      (toutEnd now c).x.tout[k] = .source tpl xs ue (now + 1 + (2 + ceilDiv xs'.length 128) + (2 + ceilDiv xs.length 128)))

/-- A finished slot, after the scalar engine's signal and the lower slots of its step, advances its channel where it names one, sets its
flag where it names one, and goes idle, unless it is a TIN or FWD slot with tiles left, which begins the next; a channel bound broken is
SYNC_FAULT, SUB 0x0B (04 R117; 09 R223, R226). -/
def Sys2Proof.Claims.FinishedSlotsSignal : Prop :=
  ∀ (s : State) (g : Nat) (slot : Fin 4), g < numCores →
    let c := getCore s g
    let e := envOf s g
    let w := c.dma[slot]
    let adv := (c.ch[dCh w].1 + BitVec.ofNat 16 (dAmt w), c.ch[dCh w].2)
    live e c = true → c.x.slotFin[slot] = true → dKind w ≠ 0 →
    (signalAhead e c = true ∨ (∃ j : Fin 4, j < slot ∧ slotEnds e j c = true) → exec (.dmaSlotComplete g slot) s = .next (setCore s g c)) ∧
    (signalAhead e c = false → (∀ j : Fin 4, j < slot → slotEnds e j c = false) →
      ((dChe w = true → fill c.ch[dCh w] + dAmt w ≤ 128) →
        ∃ c', exec (.dmaSlotComplete g slot) s = .next (setCore s g c') ∧ c'.x.slotFin[slot] = false ∧
          c'.ch = (if dChe w then c.ch.set (dCh w) adv else c.ch) ∧
          c'.flags = (if dFle w then c.flags ||| BitVec.twoPow 64 (dFlag w) else c.flags) ∧
          (dKind w ≠ 4 ∧ dKind w ≠ 8 ∨ dTiles w ≤ dDone w + 1 → c'.dma = c.dma.set slot 0) ∧
          ((dKind w = 4 ∨ dKind w = 8) ∧ dDone w + 1 < dTiles w → dKind c'.dma[slot] = dKind w ∧ dProg c'.dma[slot] = 0 ∧ dDone c'.dma[slot] = dDone w + 1) ∧
          { c' with ch := c.ch, flags := c.flags, dma := c.dma, x := c.x } = c) ∧
      (dChe w = true → 128 < fill c.ch[dCh w] + dAmt w →
        exec (.dmaSlotComplete g slot) s = .next (setCore s g (slotFault e slot w stSync 0x0B (dCh w) c))))

/-- FOLD_CHOICE: with no fold active and none chosen, no END begun in the step, every queue bound to a candidate settled, the lowest candidate whose TAG and
EPOCH match the heads as they stood at the start of the step is chosen, and nothing else changes; where none matches and no reload
holds a slot, the core takes STATE, SUB 0x1D, with the candidates as DETAIL. In the step of an END, with a fold active or chosen, or with a
bound queue unsettled, nothing is chosen (07 R168, R170, R172, Table 7-5). -/
def Sys2Proof.Claims.FoldChoiceTakesTheLowestMatch : Prop :=
  ∀ (s : State) (g : Nat) (k : Fin 8),
    let c := getCore s g
    let b := atStart c
    g < numCores →
    (c.x.start.ended = true ∨ foldActive c = true ∨ c.x.chosen.isSome = true ∨
      (∃ q j : Fin 8, fValid c.folds[j] = true ∧ fCand c.folds[j] = true ∧ fBinds c.folds[j] q = true ∧ settled b q = false) →
      exec (.foldChoice g) s = .next (setCore s g c)) ∧
    (c.r.st = .run → c.x.haltReq = false → foldActive c = false → c.x.chosen = none → c.x.start.ended = false →
    fValid c.folds[k] = true → fCand c.folds[k] = true →
    (∀ (q j : Fin 8), fValid c.folds[j] = true → fCand c.folds[j] = true → fBinds c.folds[j] q = true → settled b q = true) →
    (matchesHeads b k = true → (∀ j : Fin 8, j < k → fValid c.folds[j] = true → fCand c.folds[j] = true → matchesHeads b j = false) →
      c.x.held.getLsbD k = false → foldOk c.folds[k] = true →
      exec (.foldChoice g) s = .next (setCore s g { c with x := { c.x with chosen := some k } })) ∧
    ((∀ j : Fin 8, fValid c.folds[j] = true → fCand c.folds[j] = true → matchesHeads b j = false) → c.x.held = 0 →
      exec (.foldChoice g) s = .next (setCore s g (dataFault (envOf s g) stState 0x1D (maskOf (candidates c)) c))))

/-- FOLD_FIRE: when the chosen fold's conditions hold, every CAND bit clears, its ACTIVE is set, FIRES advances, CORE_STATE takes
the slot and its epoch, the program counter takes ENTRY and fetch begins in the next step; nothing else of a slot changes
(07 R171). -/
def Sys2Proof.Claims.FoldFireActivatesTheChosenFold : Prop :=
  ∀ (s : State) (g : Nat) (k : Fin 8),
    let c := getCore s g
    g < numCores → c.r.st = .run → c.x.haltReq = false → c.x.chosen = some k → c.x.start.ended = false → fires c k = true →
    ∃ c', exec (.foldFire g) s = .next (setCore s g c') ∧
      (∀ j : Fin 8, fCand c'.folds[j] = false ∧ fActive c'.folds[j] = (decide (j = k) || fActive c.folds[j]) ∧
        fFires c'.folds[j] = (if j = k then (fFires c.folds[j] + 1) % 2 ^ 32 else fFires c.folds[j]) ∧
        (∀ b, b ≠ 384 → b ≠ 385 → ¬(416 ≤ b ∧ b < 448) → c'.folds[j].getLsbD b = c.folds[j].getLsbD b)) ∧
      c'.r = { c.r with fold := k, epoch := fEpoch c.folds[k] } ∧ c'.pc = fEntry c.folds[k] ∧
      c'.x = { c.x with chosen := none, fetch := .going, fetchAt := (envOf s g).now + 1, prefire := c'.x.prefire
                        start := { c.x.start with fired := true } } ∧
      { c' with folds := c.folds, r := c.r, pc := c.pc, x := c.x } = c

/-- STEER_DECIDE: a valid unit that would decide on the head of its queue, now and at the start of the step, and whose condition is
known, takes the decision: DEC, and OPEN unless the token is one entry. The head takes STEERED, and is marked for removal or takes
the new TAG, its data and other marks kept (07 R176, R177). -/
def Sys2Proof.Claims.SteeringDecidesTheHead : Prop :=
  ∀ (s : State) (g : Nat) (k : Fin 4) (d : Bool),
    let c := getCore s g
    let u := c.su[k]
    let q : Fin 8 := Fin.ofNat 8 (uQ u)
    let en := c.iq[q].ent 0
    let b := atStart c
    g < numCores → c.r.st = .run → 0 < c.iq[q].count → 0 < b.iq[q].count → wouldDecide c k q en = true →
    wouldDecide b k q (b.iq[q].ent 0) = true → iqFree (envOf s g).now q c = true → unitOk u = true → unitCond u (uCfcnt b.su[k]) en = some d →
    ∃ u' : BitVec 256, uDec u' = d ∧ uOpen u' = !endsToken en ∧
      (uDrop u d = true →
        exec (.steerDecide g k) s = .next (setCore s g { c with
          su := c.su.set k u', iq := c.iq.set q (c.iq[q].setHead ⟨en.data, en.sb ||| 0x80#8⟩)
          x := { c.x with drop := c.x.drop ||| BitVec.twoPow 8 q } })) ∧
      (uDrop u d = false →
        ∃ sb : Byte, exec (.steerDecide g k) s = .next (setCore s g { c with su := c.su.set k u', iq := c.iq.set q (c.iq[q].setHead ⟨en.data, sb⟩) }) ∧
          sbTag sb = uTag u d ∧ sbSteered sb = true ∧ sbEp sb = sbEp en.sb ∧ sbFirst sb = sbFirst en.sb ∧ sbLast sb = sbLast en.sb ∧
          sbLoose sb = sbLoose en.sb)

/-- An entry of a dropped token leaves its queue, at the word of the unit that decided the drop, from the step after the decision on; an entry of a stale token leaves where the
fold's DISC is 1, and DISCARDS counts the token, saturating; each removal advances ACT_FLIT. With DISC 0 a stale token is STATE, SUB
0x18 (07 R177, R183, Table 7-5). -/
def Sys2Proof.Claims.DropsAndDiscardsRemoveOneEntry : Prop :=
  ∀ (s : State) (g : Nat) (k : Fin 4) (f q : Fin 8),
    let c := getCore s g
    let now := (envOf s g).now
    g < numCores → c.r.st = .run → 0 < c.iq[q].count → iqFree now q c = true →
    (uQ c.su[k] = q → dropsHead c k q = true → c.x.drop.getLsbD q = true → c.x.start.drop.getLsbD q = true →
      ∃ c', exec (.tokenDrop g k) s = .next (setCore s g c') ∧ c'.iq[q].head = (c.iq[q].head + 1) % 16 ∧
        c'.iq[q].count = c.iq[q].count - 1 ∧ (∀ j : Fin 8, j ≠ q → c'.iq[j] = c.iq[j]) ∧
        (endsToken (c.iq[q].ent 0) = true → uOpen c'.su[k] = false) ∧ (∀ j : Fin 4, uQ c.su[j] ≠ q → c'.su[j] = c.su[j]) ∧
        c'.r = { c.r with actFlit := c.r.actFlit + 1 } ∧ { c' with iq := c.iq, su := c.su, r := c.r, x := c.x } = c) ∧
    (c.x.drop.getLsbD q = false → c.iq[q].hdisc = true →
      ∃ c', exec (.staleTokenDiscard g q) s = .next (setCore s g c') ∧ c'.iq[q].head = (c.iq[q].head + 1) % 16 ∧
        c'.iq[q].count = c.iq[q].count - 1 ∧ c'.iq[q].hdisc = !endsToken (c.iq[q].ent 0) ∧ (∀ j : Fin 8, j ≠ q → c'.iq[j] = c.iq[j]) ∧
        c'.r = { c.r with actFlit := c.r.actFlit + 1 } ∧ { c' with iq := c.iq, su := c.su, r := c.r, x := c.x } = c) ∧
    (c.x.drop.getLsbD q = false → c.iq[q].hdisc = false → staleFold c q (c.iq[q].ent 0) = some f →
      (fDisc c.folds[f] = true →
        ∃ c', exec (.staleTokenDiscard g q) s = .next (setCore s g c') ∧ c'.iq[q].head = (c.iq[q].head + 1) % 16 ∧
          c'.iq[q].count = c.iq[q].count - 1 ∧ c'.iq[q].hdisc = !endsToken (c.iq[q].ent 0) ∧ (∀ j : Fin 8, j ≠ q → c'.iq[j] = c.iq[j]) ∧
          fDiscards c'.folds[f] = min 65535 (fDiscards c.folds[f] + 1) ∧ (∀ j : Fin 8, j ≠ f → c'.folds[j] = c.folds[j]) ∧
          c'.r = { c.r with actFlit := c.r.actFlit + 1 } ∧ { c' with iq := c.iq, su := c.su, folds := c.folds, r := c.r, x := c.x } = c) ∧
      (fDisc c.folds[f] = false →
        let en := c.iq[q].ent 0
        exec (.staleTokenDiscard g q) s =
          .next (setCore s g (dataFault (envOf s g) stState 0x18 ((q : Nat) + 8 * sbTag en.sb + 64 * (sbEp en.sb).toNat) c))))

/-- An entry reaches an input queue through the local output of the router: it stands at the tail, loose where FIRST is clear and no
token is open, never yet steered, and ACT_FLIT advances; a FIRST inside an open token is FORMAT, SUB 0x19 (07 R164, R166;
11 R265). -/
def Sys2Proof.Claims.ArrivalsEnterTheQueue : Prop :=
  ∀ (s : State) (g : Nat) (q : Fin 8) (k : Nat) (f : Flit) (outs : List (Fin 4)),
    let c := getCore s g
    let r := getRouter s g
    let t := (getNode s (panOf g)).steps
    let done := fun c' => exec (.entryArrival g q) s = .next (setRouter (setCore s g c') g { r with localDone := t + 1 })
    g < numCores → s.tide.frozen = false → r.localDone ≠ t + 1 → lselOf (tget 0 r.slots (t % periodOf s (panOf g))) = k → k ≠ 0 →
    moveOf s g t k = some ⟨k, f, outs, some q⟩ → c.r.st = .run → c.iq[q].count < 16 →
    (sbFirst f.ent.sb && c.iq[q].topen) = false →
    ∃ c', done c' ∧ c'.iq[q].count = c.iq[q].count + 1 ∧ (c'.iq[q].ent c.iq[q].count).data = f.ent.data ∧
      (0 < c.iq[q].count → sbLoose (c'.iq[q].ent c.iq[q].count).sb = (!sbFirst f.ent.sb && !c.iq[q].topen)) ∧
      c'.iq[q].topen = ((sbFirst f.ent.sb || c.iq[q].topen) && !sbLast f.ent.sb) ∧ (∀ j : Fin 8, j ≠ q → c'.iq[j] = c.iq[j]) ∧
      c'.r = { c.r with actFlit := c.r.actFlit + 1 } ∧ { c' with iq := c.iq, su := c.su, r := c.r, x := c.x } = c

/-- The fetch of a one-word instruction that the fetch buffer holds: decoded without error, its predicate true and nothing pending
on it, it joins its engine's issue queue with its place in program order and the scalar operands read at dispatch, and the program
counter moves on; END ends fetch, and a branch, a jump and STEP.COMMIT pause it. Where its predicate is false only the program counter
moves on; with the queue full or an operand to come, nothing changes (03 R59 to R63; 07 R172). -/
def Sys2Proof.Claims.FetchDispatchesInOrder : Prop :=
  ∀ (s : State) (g : Nat) (w : Word) (i : Instr),
    let c := getCore s g
    let e := envOf s g
    let op := fld w 20 7
    let eng := engineOf i op
    let pw := pendingWrites e.now c.x.seq c
    let on := fetched e.now false c.x.fetch c
    g < numCores → live e c = true → c.x.fetch = .going → c.x.fetchAt ≤ e.now → c.x.haltReq = false → c.x.fw1 = none → c.pc < 0x4000 →
    bufWord c c.pc = some w → eccBad c c.pc 4 = none → (getStation s (stationOf g)).mask = 0 → w.getLsbD 31 = false →
    decodeCore g w 0 = .ok i → pw.contains (.p (Fin.ofNat 8 (fld w 27 3))) = false →
    (predHolds c.p w = false → exec (.instructionFetch g) s = .next (setCore s g on)) ∧
    (predHolds c.p w = true → 4 ≤ (issueOf eng c).length ∨ (∃ r ∈ dispatchRegs i, pw.contains (.s r) = true) →
      exec (.instructionFetch g) s = .next (setCore s g c)) ∧
    (predHolds c.p w = true → (issueOf eng c).length < 4 → (∀ r ∈ dispatchRegs i, pw.contains (.s r) = false) →
      let on := fetched e.now false (if isEnd i then .ended else if pauses i then .paused else .going) c
      exec (.instructionFetch g) s = .next (setCore s g { on with
        x := { on.x with
          iss := c.x.iss.set (engNum eng) (issueOf eng c ++ [⟨i, c.pc, op, false, c.x.seq, e.now, (dispatchRegs i).map (fun r => c.s[r])⟩])
          seq := c.x.seq + 1 } })) ∧
    on.pc = c.pc + 4

/-- Fetch asks the bank for the row of the program counter where its buffer does not hold it. Refused, it keeps its request; served, the row
fills the buffer, and for the target of a jump the instruction is dispatched only in the step after. Past 0x3FFF fetch is BOUNDS, SUB
0x08, with the address of the last instruction dispatched (02 R29, R31; 03 R59, R63). -/
def Sys2Proof.Claims.FetchReadsItsRow : Prop :=
  ∀ (s : State) (g : Nat),
    let c := getCore s g
    let e := envOf s g
    let A := askBank e .fetch 0 (c.pc / 32) c
    g < numCores → live e c = true → c.x.fetch = .going → c.x.fetchAt ≤ e.now → c.x.haltReq = false → c.x.fw1 = none →
    (c.pc < 0x4000 → bufWord c c.pc = none →
      (A.1 = false → exec (.instructionFetch g) s = .next (setCore s g A.2)) ∧
      (A.1 = true → c.x.far = true →
        ∃ c', exec (.instructionFetch g) s = .next (setCore s g c') ∧
          c'.x.fbuf = some (c.pc / 32, ofBytes 256 (mread c.sram (32 * (c.pc / 32)) 32)) ∧ c'.x.far = false ∧ c'.x.fetchAt = e.now + 1 ∧
          { c' with r := A.2.r, x := A.2.x } = A.2 ∧ c'.x.iss = c.x.iss)) ∧
    (0x4000 ≤ c.pc →
      exec (.instructionFetch g) s = .next (setCore s g (coreFault e .scalar stBounds 0x08 0 0 false c.x.lastPc c)))

/-- A halt request that reaches a running core stops fetch and stands until the core has drained; a STEP.COMMIT in phase 3 is taken back by a
GUARD_WD, its overflow bit put back and its address the program counter. The drained core enters HALT, with no chosen fold and no
staged copy, its context kept and the step counted for the watchdog (02 R41; 20 R485; 07 R174, R181; 06 R154). That a core past its last
code address faults there instead is the model's reading, log 96. -/
def Sys2Proof.Claims.HaltRequestsDrainIntoHalt : Prop :=
  ∀ (s : State) (g : Nat),
    let c := getCore s g
    let e := envOf s g
    g < numCores → c.r.st = .run →
    (s.haltSent.contains g = true → c.x.phase3 = none →
      exec (.haltRequest g) s = .next (setCore { s with haltSent := s.haltSent.filter (· ≠ g) } g
        { c with x := { c.x with haltReq := true, fetch := .stopped } })) ∧
    (∀ b d l, s.haltSent.contains g = true → c.x.phase3 = some b → c.x.gres = none → issueOf .scalar c = d :: l →
      ∃ w, exec (.haltRequest g) s = .next (setCore { s with haltSent := s.haltSent.filter (· ≠ g) } g { c with
        guard := w
        pc := d.pc
        x := { c.x with haltReq := true, fetch := .stopped, iss := c.x.iss.set 0 [], phase3 := none
                        urgent := c.x.urgent ++ [coreMsg e none (.guardWd 1 (gPar c.guard))] } }) ∧
        gOvf w = (gOvf c.guard || b) ∧ ∀ j, j ≠ 0 → w.getLsbD j = c.guard.getLsbD j) ∧
    (c.x.haltReq = true → drained e c = true →
      let past := 0x4000 ≤ c.pc ∧ foldActive c = true ∧ c.x.fetch ≠ .ended
      (¬past → exec (.haltEntry g) s = .next (setCore s g { c with
        wcount := nextWcount c
        r := { c.r with st := .halt }
        x := { c.x with haltReq := false, fetch := .stopped, fw1 := none, wRow := none, dRow := none, chosen := none, begun := []
                        refused := [], stgLeft := Vector.replicate 4 [] } })) ∧
      (past → exec (.haltEntry g) s = .next (setCore s g (coreFault e .scalar stBounds 0x08 0 0 false c.x.lastPc c)))) ∧
    (c.x.haltReq = true → drained e c = false → exec (.haltEntry g) s = .next (setCore s g c))

/-- STALL_WATCHDOG: when the count reaches STALL_W in a step in which nothing can still fire or leave a full queue, a core without a debugger
faults with STALL, SUB 0x1A, its DETAIL the full queues, the last fold and whether it is active; one with a debugger takes a halt
request, and event 7 goes to the debugger's pair. Below STALL_W nothing happens (07 R181, R182; 20 R481). -/
def Sys2Proof.Claims.StallWatchdogRaises : Prop :=
  ∀ (s : State) (g : Nat),
    let c := getCore s g
    let e := envOf s g
    let full := ∃ q : Fin 8, c.x.start.iq[q].count = 16
    let counts := c.x.start.fired = false ∧ c.x.start.drained = false ∧ full
    g < numCores → c.r.st = .run → c.x.stalled = false →
    (¬counts ∨ c.stallW = 0 ∨ (c.wcount + 1).toNat < c.stallW.toNat → exec (.stallWatchdog g) s = .next s) ∧
    (counts → c.stallW ≠ 0 → c.stallW.toNat ≤ (c.wcount + 1).toNat → mayFire e c = false → mayDrain e c = false →
      (e.attached = false → exec (.stallWatchdog g) s = .next (setCore s g (dataFault e stStall 0x1A (stallDetail c) c))) ∧
      (∀ (k : Nat) (d : Dbg), e.part = some k → (getPart s k).dbg = some d →
        ∃ c', exec (.stallWatchdog g) s = .next (postTo d.qp ⟨7, stStall, k, (getPart s k).st.code, [icnOf s k g, stallDetail c]⟩ (setCore s g c')) ∧
          c'.x.haltReq = true ∧ c'.x.fetch = .stopped ∧ c'.x.stalled = true ∧
          (c.x.phase3 = none → c' = { c with x := { c.x with stalled := true, haltReq := true, fetch := .stopped } })))

/-- A core in RUN or HOLD that takes a fault, with no firing to take back: it enters FAULT, fills its record (code, engine, SUB, DETAIL,
opcode, length, program counter, tide count), fetches no more, and one FAULT message leaves ahead of the others. In RUN its registers,
queues and memory stay, and the engines stop at the end of the step; in HOLD they have stopped, and what they had begun and not yet
written is taken back at once (02 R42, R44, Table 2-5; 03 R91; 09 R217). -/
def Sys2Proof.Claims.TakingAFaultFillsTheRecord : Prop :=
  ∀ (e : Env) (eng : Engine) (code sub detail op : Nat) (long : Bool) (pc : Nat) (c : Core),
    let c' := coreFault e eng code sub detail op long pc c
    c.r.st = .run ∨ c.r.st = .hold → c.x.prefire = none → code < 256 → sub < 256 → detail < 65536 → op < 128 → pc < 16384 →
    c'.r.st = .fault ∧ c'.r.fstat.getLsbD 31 = true ∧ fld c'.r.fstat 0 8 = code ∧ fld c'.r.fstat 8 2 = (engNum eng : Nat) ∧
      c'.r.fstat.getLsbD 10 = false ∧ c'.r.fpc.toNat = pc ∧ fld c'.r.finfo 0 16 = detail ∧ fld c'.r.finfo 16 8 = sub ∧
      fld c'.r.finfo 24 7 = op ∧ c'.r.finfo.getLsbD 31 = long ∧ c'.r.ftc = e.tc ∧ c'.x.fetch = .stopped ∧ c'.x.haltReq = false ∧
      c'.x.urgent = coreMsg e none (.fault e.g (BitVec.ofNat 8 code) (BitVec.ofNat 8 sub)) :: c.x.urgent ∧
      (c.r.st = .run → { c' with r := c.r, x := c.x } = c ∧ c'.x.faultAt = e.now + 1) ∧
      (c.r.st = .hold → c'.x.begun = [] ∧ c'.x.runs = [] ∧ c'.x.iss = Vector.replicate 4 [] ∧ c'.x.wRow = none ∧ c'.x.dRow = none ∧
        { c' with r := c.r, x := c.x, s := c.s, p := c.p, v := c.v, banks := c.banks, stg := c.stg } = c)

/-- A fault in the step in which a core has already taken one sets MORE and leaves the record, unless it comes before the recorded one in the
order of engines: then the record is its own, with MORE, and its FAULT message alone leaves. A fault of a later step only sets MORE
(02 R45; 04 R123; 07 R187). -/
def Sys2Proof.Claims.SecondFaultsSetMore : Prop :=
  ∀ (e : Env) (rank : Nat) (eng : Engine) (code sub detail op : Nat) (long : Bool) (pc : Nat) (c : Core),
    let c' := faultAs rank e eng code sub detail op long pc c
    c.r.st = .fault → code < 256 → sub < 256 → detail < 65536 →
    (¬(c.x.faultAt = e.now + 1 ∧ rank < c.x.frank) → c' = { c with r := { c.r with fstat := c.r.fstat ||| 0x400#32 } }) ∧
    (c.x.faultAt = e.now + 1 → rank < c.x.frank → c.x.prefire = none →
      c'.r.st = .fault ∧ c'.r.fstat.getLsbD 10 = true ∧ fld c'.r.fstat 0 8 = code ∧ fld c'.r.finfo 16 8 = sub ∧ fld c'.r.finfo 0 16 = detail ∧
      c'.x.frank = rank ∧ c'.x.faultAt = e.now + 1 ∧
      c'.x.urgent = coreMsg e none (.fault e.g (BitVec.ofNat 8 code) (BitVec.ofNat 8 sub)) ::
        c.x.urgent.filter (fun m => match m.body with | .fault _ _ _ => false | _ => true) ∧
      { c' with r := c.r, x := c.x } = c)

/-- At the end of the step of its fault a core is left with nothing in progress: what was due later is taken back, the issue queues, the
requests and the staged copies are dropped (02 R44; 09 R217). -/
def Sys2Proof.Claims.FaultedCoresAreAbandoned : Prop :=
  ∀ (now : Nat) (c : Core), c.r.st = .fault → c.x.faultAt = now + 1 →
    let c' := settleFault now c
    c'.x.iss = Vector.replicate 4 [] ∧ c'.x.begun = [] ∧ c'.x.runs = [] ∧ c'.x.refused = [] ∧ c'.x.wRow = none ∧ c'.x.dRow = none ∧
    c'.x.chosen = none ∧ c'.x.phase3 = none ∧ c'.r = c.r ∧ c'.sram = c.sram ∧ c'.iq = c.iq ∧ c'.oq = c.oq ∧ c'.folds = c.folds ∧
    c'.dma = c.dma ∧ c'.flags = c.flags ∧ c'.ch = c.ch ∧
    ((∀ b ∈ c.x.begun, b.due ≤ now + 1) → c'.s = c.s ∧ c'.p = c.p ∧ c'.v = c.v ∧ c'.banks = c.banks ∧ c'.stg = c.stg) ∧
    (∀ b r v, c.x.begun = [b] → now + 1 < b.due → b.undo = [.s r v] → c'.s = c.s.set r v)

/-- CORE_START_RUN: with the wafer not held, every LOADED core of the partition whose start count its pan has reached, and whose
pointer words are valid, enters RUN, or HOLD in a HELD partition; after a load CAND takes START; no core outside the partition changes
(14 R355; 02 R40, R511; 07 R169). -/
def Sys2Proof.Claims.CoresStartAtTheirCount : Prop :=
  ∀ (s : State) (k : Fin 32), s.tide.frozen = false → twf Core.zero s.cores = true →
    ∃ t, exec (.coreStartRun k) s = .next t ∧
      (∀ g, inPart s k g = false → getCore t g = getCore s g) ∧
      (∀ (g T : Nat), inPart s k g = true → (getCore s g).r.st = .loaded → (getCore s g).x.commit = some T →
        T ≤ (getNode s (panOf g)).steps → badPointer (getCore s g) = none →
        (getCore t g).r.st = (if (getPart s k).st = .held then .hold else .run) ∧ (getCore t g).x.commit = none ∧
          ((getPart s k).restored = false → ∀ j : Fin 8, fCand (getCore t g).folds[j] = fStart (getCore s g).folds[j]))

/-- The control messages to cores, with what each does to its core (09 R223, R226, R233; 06 R152, R154). -/
def Sys2Proof.Claims.messageOps (g : Nat) (f : Fin 64) (ch : Fin 16) (a : Nat) (ovf : Bool) (ls n : Byte) (gen : Nat) (cores : List Nat) (c : Core) :
    List (Instr × MsgBody × Core) :=
  [(.flagSetMessage g, .flagSet f, { c with flags := c.flags ||| BitVec.twoPow 64 f }),
   (.flagClrMessage g, .flagClr f, { c with flags := c.flags &&& ~~~ BitVec.twoPow 64 f }),
   (.barRel g, .barRel n f gen cores, if cores.contains g then { c with flags := c.flags ||| BitVec.twoPow 64 f } else c)] ++
  (if fill c.ch[ch] + a ≤ 128 then [(.chPutMessage g, .chPut ch a, { c with ch := c.ch.set ch (c.ch[ch].1 + BitVec.ofNat 16 a, c.ch[ch].2) })] else []) ++
  (if a ≤ fill c.ch[ch] then [(.chGetMessage g, .chGet ch a, { c with ch := c.ch.set ch (c.ch[ch].1, c.ch[ch].2 + BitVec.ofNat 16 a) })] else []) ++
  (if c.x.phase3.isSome then [(.guardRes g, .guardRes ovf ls, { c with x := { c.x with gres := some (ovf, ls) } })] else [])

/-- A message due first at a core's control port, of the current generation, leaves the port and is applied once the core's own operations of
the step are over: a flag set or cleared, a channel counter advanced within its bounds, a guard result taken by a member of the job, a
barrier's flag set at the cores of its record; nothing else changes. Until then it waits. An advance that breaks its bound is
SYNC_FAULT, SUB 0x20, of engine 0, and leaves both counters (02 R38; 09 R223, R226, R233, R238; 06 R146, R152; 11 R273). -/
def Sys2Proof.Claims.ControlMessagesApplyAtTheirCore : Prop :=
  ∀ (s : State) (g : Nat) (f : Fin 64) (ch : Fin 16) (a : Nat) (ovf : Bool) (ls n : Byte) (gen : Nat) (cores : List Nat)
    (i : Instr) (c' : Core) (p : Nat × LaneMsg) (rest : List (Nat × LaneMsg)),
    let r := getRouter s g
    let c := getCore s g
    let e := envOf s g
    let s1 := setRouter s g { r with port := r.port.erase p }
    let bad := fun (det : Nat) => setCore s1 g (faultAs (faultRank .scalar 0x20 1) e .scalar stSync 0x20 det 0 false c.pc c)
    g < numCores → portDue r (getNode s (panOf g)).steps = p :: rest → fresh s g p.2.msg = true → c.r.st ≠ .defect →
    (localOver e c = true → memberCore s g = true → (i, p.2.msg.body, c') ∈ messageOps g f ch a ovf ls n gen cores c →
      exec i s = .next (setCore s1 g c')) ∧
    (localOver e c = false → i ∈ [.flagSetMessage g, .flagClrMessage g, .chPutMessage g, .chGetMessage g, .guardRes g, .barRel g] →
      exec i s = .next s) ∧
    (localOver e c = true → c.r.st ≠ .fault → c.x.prefire = none →
      (p.2.msg.body = .chPut ch a → 128 < fill c.ch[ch] + a → exec (.chPutMessage g) s = .next (bad ch)) ∧
      (p.2.msg.body = .chGet ch a → fill c.ch[ch] < a → exec (.chGetMessage g) s = .next (bad (ch + 16))))

/-- A guard result that comes to a member core after its STEP.COMMIT was withdrawn writes OVF_JOB, LS_EXP and P7 and sets RDONE, so that the
next STEP.COMMIT completes at once; at a core that is no member it changes nothing (06 R146, R152, R154). -/
def Sys2Proof.Claims.LateGuardResultSetsRdone : Prop :=
  ∀ (s : State) (g : Nat) (ovf : Bool) (ls : Byte) (p : Nat × LaneMsg) (rest : List (Nat × LaneMsg)),
    let r := getRouter s g
    let c := getCore s g
    g < numCores → portDue r (getNode s (panOf g)).steps = p :: rest → p.2.msg.body = .guardRes ovf ls → fresh s g p.2.msg = true →
    c.r.st ≠ .defect → c.x.phase3 = none → localOver (envOf s g) c = true →
    (memberCore s g = false → exec (.guardRes g) s = .next (setCore (setRouter s g { r with port := r.port.erase p }) g c)) ∧
    (memberCore s g = true →
    ∃ c', exec (.guardRes g) s = .next (setCore (setRouter s g { r with port := r.port.erase p }) g c') ∧ gRdone c'.guard = true ∧
      gJob c'.guard = ovf ∧ gLs c'.guard = ls ∧ gOvf c'.guard = gOvf c.guard ∧ gPar c'.guard = gPar c.guard ∧ predGet c'.p 7 = !ovf ∧
      (∀ j : Pred, j ≠ 7 → predGet c'.p j = predGet c.p j) ∧ { c' with guard := c.guard, p := c.p } = c)

/-- A message of another partition or generation leaves the port, counts in RT_STALE and changes no core (11 R273). -/
def Sys2Proof.Claims.StaleMessagesOnlyCount : Prop :=
  ∀ (s : State) (g : Nat) (f : Fin 64) (set : Bool) (p : Nat × LaneMsg) (rest : List (Nat × LaneMsg)),
    let r := getRouter s g
    twf Router.zero s.routers = true → g < numCores → portDue r (getNode s (panOf g)).steps = p :: rest →
    p.2.msg.body = (if set then MsgBody.flagSet f else .flagClr f) → fresh s g p.2.msg = false → localOver (envOf s g) (getCore s g) = true →
    exec (if set then .flagSetMessage g else .flagClrMessage g) s =
      .next (setRouter s g { r with port := r.port.erase p, stale := r.stale + 1 })

/-- NODE_STEP: a node with a release whose live neighbours have all begun step n - 4, and into which every crossing has delivered the
entry of its step, completes its step and begins the next, its release spent, no other node moved. Where an entry has not come it waits,
and SLC_WAITS of that crossing counts the step once. A node that is not ready does nothing (10 R240, R243, Table 10-5). -/
def Sys2Proof.Claims.NodesStepWhenReady : Prop :=
  ∀ (s : State) (n : Fin 100) (ups : List Upset),
    (nodeReady s n = true → awaited s n = [] → ∃ t, exec (.nodeStep n ups) s = .next t ∧ (getNode t n).steps = (getNode s n).steps + 1 ∧
      (getNode t n).release = false ∧ (getNode t n).rate = (getNode s n).rate ∧ (getNode t n).sched = (getNode s n).sched ∧
      ∀ m, m ≠ (n : Nat) → getNode t m = getNode s m) ∧
    (nodeReady s n = true → ∀ i, awaited s n = [i] → ∃ t, exec (.nodeStep n ups) s = .next t ∧ (∀ m, getNode t m = getNode s m) ∧
      (getSluice t i).waits = (getSluice s i).waits + (if (getSluice s i).waitAt = (getNode s n).steps + 1 then 0 else 1) ∧
      (∀ j, j ≠ i → getSluice t j = getSluice s j) ∧ t.cores = s.cores ∧ t.routers = s.routers) ∧
    (nodeReady s n = false → exec (.nodeStep n ups) s = .next s)

/-- A node is ready only when HOLD has not stopped it, it is in the tide, its pace has released it, and every live neighbour is at
most 3 steps behind (10 R240, R241, R244). -/
def Sys2Proof.Claims.ReadinessNeedsNeighboursAndRelease : Prop :=
  ∀ (s : State) (n : Nat), nodeReady s n = true ↔
    (s.tide.frozen = false ∧ nodeLive s n = true ∧ (getNode s n).release = true ∧
      ∀ m ∈ nodeNbrs s n, (getNode s n).steps ≤ (getNode s m).steps + 3)

/-- PACE_RELEASE: a live node's timer leaves one release pending, and one that finds a release pending is lost; the north rim's releases fall at
exact multiples of 40 / k ns from where its period began. RATE_CHANGE_APPLY: at its count a live node takes the code of the change it
holds, and TIDE_RATE takes the north rim's; the change is pending until no live node holds it (10 R241, R246). That the model reads wall time
in whole picoseconds is its own choice, log 33. -/
def Sys2Proof.Claims.PaceAndRate : Prop :=
  ∀ (s : State) (n : Fin 100), nodeLive s n = true →
    let x := getNode s n
    let k := max 1 x.rate
    let t := s.tide
    let s1 := setNode s n { x with release := true }
    ((n : Nat) ≠ 96 → exec (.paceRelease n) s = .next s1) ∧
    ((n : Nat) = 96 → t.paceRate = x.rate → exec (.paceRelease n) s =
      .next { s1 with time := t.paceAt + (t.paceN + 1) * 40000 / k, tide := { t with paceN := t.paceN + 1 } }) ∧
    ((n : Nat) = 96 → t.paceRate ≠ x.rate → exec (.paceRelease n) s =
      .next { s1 with time := s.time + 40000 / k, tide := { t with paceAt := s.time, paceN := 1, paceRate := x.rate } }) ∧
    (∀ T code : Nat, x.sched = some (T, code) → T ≤ x.steps + 1 →
      let s2 := setNode s n { x with rate := code, sched := none }
      ∃ p, exec (.rateChangeApply n) s = .next { s2 with tide := { t with rate := if (n : Nat) = 96 then code else t.rate, pend := p } } ∧
        ((∃ m : Fin 100, nodeLive s m = true ∧ m ≠ n ∧ (getNode s m).sched.isSome = true) → p = t.pend) ∧
        ((∀ m : Fin 100, m ≠ n → nodeLive s m = true → (getNode s m).sched = none) → p = none))

/-- FAULT_MESSAGE: a core's fault of the current generation is recorded with SRC 1, its code and SUB, and the core's logical ID, POISON by
an uncorrectable word counted besides; one of another generation only counts as stale at its sender (19 R464, Table 19-8; 11 R273). -/
def Sys2Proof.Claims.FaultMessagesAreRecorded : Prop :=
  ∀ (s : State) (t : Nat) (m : Msg) (g : Nat) (code sub : Byte) (rest : List (Nat × Msg)),
    s.ctlIn = (t, m) :: rest → m.body = .fault g code sub →
    let s1 := { s with ctlIn := rest }
    let ue := code.toNat = stPoison ∧ sub = 0x0A
    (freshMsg s m = true →
      exec .faultMessage s = .next (recordFault m.part code.toNat 1 ((lidOf s g).getD 0) sub.toNat false (if ue then countUe s1 else s1))) ∧
    (freshMsg s m = false → exec .faultMessage s = .next (modRouter s1 m.src (fun r => { r with stale := r.stale + 1 })))

/-- The first failure of a partition in READY, RUNNING or HELD is its first fault, with the north rim's count and MORE 0; the partition
becomes FAULTED with the code as its end code, its open guard step is dropped, its cores are sent halt requests, and no other partition changes;
while HOLD has stopped the wafer all this but the record waits for the release. A later failure only advances MORE, saturating. A
synchronisation fault keeps its detail (19 R464, R465, R467; 17 R430; 09 R238). -/
def Sys2Proof.Claims.TheFirstFaultIsKept : Prop :=
  ∀ (s : State) (k code src loc sub : Nat) (quiet : Bool),
    let p := getPart s k
    let t := recordFault k code src loc sub quiet s
    (p.st = .ready ∨ p.st = .running ∨ p.st = .held → p.ends = none → (s.tide.frozen = false ∨ s.power.modTrip = true) →
      (getPart t k).st = .faulted ∧ (getPart t k).endCode = code ∧ (getPart t k).fault = some ⟨code, src, loc, sub, BitVec.ofNat 48 (north s), 0, []⟩ ∧
        (getPart t k).guard = dropGuardStep p.guard ∧ (getPart t k).long = none ∧ (getPart t k).reload = none ∧
        (∀ g ∈ activeCores s k, g ∈ t.haltSent) ∧ ∀ j, j ≠ k → getPart t j = getPart s j) ∧
    (p.st = .ready ∨ p.st = .running ∨ p.st = .held → p.ends = none → s.tide.frozen = true → s.power.modTrip = false →
      getPart t k = { p with fault := some ⟨code, src, loc, sub, BitVec.ofNat 48 (north s), 0, []⟩, ends := some code } ∧
        t.haltSent = s.haltSent ∧ t.cores = s.cores ∧ ∀ j, j ≠ k → getPart t j = getPart s j) ∧
    (∀ det, p.st = .ready ∨ p.st = .running ∨ p.st = .held → p.ends = none →
      (getPart (syncFault det k code src loc s) k).fault = some ⟨code, src, loc, 0, BitVec.ofNat 48 (north s), 0, det⟩) ∧
    (p.st = .faulted ∨ (p.st = .ready ∨ p.st = .running ∨ p.st = .held) ∧ p.ends.isSome = true →
      t = setPart s k { p with fault := p.fault.map (fun f => { f with more := min 0xFFFF (f.more + 1) }) })

/-- GUARD and GUARD_WD at a collector: a contribution of the open parity counts, and with every member there one pan message goes
north and the next step opens; one of the other parity goes north at once, alone; a withdrawal is taken off (06 R150, R154;
11 R271). -/
def Sys2Proof.Claims.CollectorsGatherGuardSteps : Prop :=
  ∀ (s : State) (p : Fin 96) (m : Msg) (rest : List Msg) (n : Nat) (ovf : Bool),
    let c := (getPan s p).coll
    let s1 := modColl s p (fun c => { c with inbox := rest })
    c.inbox = m :: rest → freshPan s p m = true →
    (m.body = .guardC ovf n c.par → c.count + n ≠ c.members →
      exec (.guard p) s = .next (modColl s1 p (fun c => { c with count := c.count + n, ovf := c.ovf || ovf }))) ∧
    (m.body = .guardC ovf n c.par → c.count + n = c.members →
      exec (.guard p) s = .next (sendNorth (modColl s1 p (fun c => { c with par := !c.par, count := 0, ovf := false })) p
        { m with src := collectorOf p, body := .guardC (c.ovf || ovf) (c.count + n) c.par })) ∧
    (m.body = .guardC ovf n (!c.par) → exec (.guard p) s = .next (sendNorth s1 p m)) ∧
    (m.body = .guardWd n c.par → exec (.guardWd ⟨p, by omega⟩) s = .next (modColl s1 p (fun c => { c with count := c.count - n }))) ∧
    (m.body = .guardWd n (!c.par) → exec (.guardWd ⟨p, by omega⟩) s = .next (sendNorth s1 p m))

/-- GUARD_PAN_RECEIVE and GUARD_WD at the guard unit: a pan message of the open step counts, starting the timer at the first; with every
member there the module's bit is final, goes to the other modules, and the step is decided once all bits are there; a withdrawal is taken
off; a message of another parity changes nothing (06 R150, R151, R153, R154). The two words of the message to other modules, and that
messages that come once the module's bit is final change nothing, are the model's choices, logs 104 and 103. -/
def Sys2Proof.Claims.GuardUnitCountsAndDecides : Prop :=
  ∀ (s : State) (t : Nat) (m : Msg) (rest : List (Nat × Msg)) (n : Nat) (ovf : Bool),
    let s1 := { s with ctlIn := rest }
    let p := getPart s m.part
    let u := p.guard
    let u1 := { u with count := u.count + n, ovf := u.ovf || ovf, timer := some (u.timer.getD 0) }
    let s2 := setPart s1 m.part { p with guard := u1 }
    let s3 := setPart s2 m.part { p with guard := { u1 with own := some u1.ovf } }
    s.ctlIn = (t, m) :: rest → freshMsg s m = true →
    (u.own = none → m.body = .guardC ovf n u.par → u1.count ≠ u.members → exec .guardPanReceive s = .next s2) ∧
    (u.own = none → m.body = .guardC ovf n u.par → u1.count = u.members →
      exec .guardPanReceive s = .next (decideGuard m.part { s3 with
        ctrlOut := s.ctrlOut ++ (otherModules s m.part).map (fun x => ⟨1, m.part, x, [u.steps, u1.ovf.toNat]⟩) })) ∧
    (m.body = .guardC ovf n (!u.par) ∨ (u.own.isSome = true ∧ m.body = .guardC ovf n u.par) → exec .guardPanReceive s = .next s1) ∧
    (u.own = none → m.body = .guardWd n u.par →
      exec (.guardWd 96) s = .next (setPart s1 m.part { p with guard := { u with count := u.count - n } })) ∧
    (m.body = .guardWd n (!u.par) ∨ (u.own.isSome = true ∧ m.body = .guardWd n u.par) → exec (.guardWd 96) s = .next (setPart s1 m.part p))

/-- The decision of a guard step: the result is the OR of the module's bit and every other module's; without every bit nothing is decided; the
exponent falls by BACKOFF, not
below its minimum, on an overflow, and rises by one, not above its maximum, when the window fills; the step counts, and its result goes
to every core of the partition (06 R151, R152, R155). -/
def Sys2Proof.Claims.GuardStepsDecideTheScale : Prop :=
  ∀ (s : State) (k : Nat) (b : Bool),
    let p := getPart s k
    let g := p.guard
    let bits := g.others.filter (fun o => decide (o.2.1 = g.steps))
    let ovf := b || bits.any (fun o => o.2.2)
    let w := guardBlock s k
    g.own = some b →
    (∀ m ∈ otherModules s k, (∀ o ∈ bits, o.1 ≠ m) → decideGuard k s = s) ∧
    ((∀ m ∈ otherModules s k, ∃ o ∈ bits, o.1 = m) →
    ∃ (ls : Byte) (win : Nat),
      decideGuard k s = broadcast (setPart s k { p with guard :=
        { g with par := !g.par, count := 0, ovf := false, steps := g.steps + 1, skipped := g.skipped + ovf.toNat, ls := ls, window := win
                 timer := g.next, next := none, own := none, others := g.others.filter (fun o => decide (g.steps < o.2.1)) } }) k (.guardRes ovf ls) ∧
      (ovf = true → ls = BitVec.ofInt 8 (max (g.ls.toInt - (fld w 24 3 + 1 : Nat)) (sbyte (fld w 8 8))) ∧ win = 0) ∧
      (ovf = false → fld w 32 32 ≠ 0 → (g.window + 1) % 2 ^ 32 = fld w 32 32 → ls = BitVec.ofInt 8 (min (g.ls.toInt + 1) (sbyte (fld w 16 8))) ∧ win = 0) ∧
      (ovf = false → (fld w 32 32 = 0 ∨ (g.window + 1) % 2 ^ 32 ≠ fld w 32 32) → ls = g.ls ∧ win = (g.window + 1) % 2 ^ 32))

/-- GUARD_TIMEOUT: an incomplete guard step whose timer has reached GTMO ends the job with TIMEOUT, SRC 6; before that nothing happens
(06 R153). -/
def Sys2Proof.Claims.GuardStepsTimeOut : Prop :=
  ∀ (s : State) (k : Fin 32) (t : Nat), (getPart s k).guard.timer = some t →
    (gtmoOf s k ≤ t → exec (.guardTimeout k) s = .next (recordFault k stTimeout 6 0 0 false s)) ∧
    (t < gtmoOf s k → exec (.guardTimeout k) s = .next s)

/-- BAR_ARR: an arrival at a collector of a declared barrier by participants joins the pan's count; when the pan is complete its message
goes north; a number that is not declared ends the job with BOUNDS, SRC 5, and so does a core that is no participant; a flag other than
the recorded one ends it with FORMAT, SRC 5, with both flags in the detail (09 R232, R234, R238; 11 R271). -/
def Sys2Proof.Claims.CollectorsGatherBarrierArrivals : Prop :=
  ∀ (s : State) (p : Fin 96) (m : Msg) (rest : List Msg) (n : Byte) (f : Fin 64) (cores : List Nat) (odd : Option (Fin 64)),
    let s1 := modColl s p (fun c => { c with inbox := rest })
    (getPan s p).coll.inbox = m :: rest → m.body = .barArr n f cores odd → freshPan s p m = true →
    (barOf s m.part n.toNat = none → exec (.barArr p) s = .next (syncFault [m.part, n.toNat] m.part stBounds 5 n.toNat s1)) ∧
    (∀ (i : Nat) (b : BarObj) (a : BarAcc), barOf s m.part n.toNat = some (i, b) →
      (accOf (getPan s p).coll n).getD ⟨n, 0, f, [], []⟩ = a →
      ((∀ g ∈ cores, b.members.contains g = true) → a.count ≠ 0 → a.flag ≠ f →
        exec (.barArr p) s = .next (syncFault [n.toNat, a.flag, f] m.part stFormat 5 n.toNat s1)) ∧
      (∀ g x, cores = [g] → odd = none → b.members.contains g = false → a.count ≠ 0 → a.flag = f → a.count ≠ (barMembers b p).length →
        syncFault [m.part, n.toNat] m.part stBounds 5 n.toNat s1 = x →
        exec (.barArr p) s = .next (modColl x p (fun c => { c with bars := { a with members := barMembers b p } :: c.bars.filter (fun y => decide (y.bnum ≠ n)) }))) ∧
      ((∀ g ∈ cores, b.members.contains g = true) → odd = none → a.count = 0 ∨ a.flag = f → a.count + cores.length ≠ 0 →
        let a' := { a with flag := f, cores := a.cores ++ cores, count := a.count + cores.length, members := barMembers b p }
        let put := fun (x : BarAcc) => modColl s1 p (fun c => { c with bars := x :: c.bars.filter (fun y => decide (y.bnum ≠ n)) })
        (a'.count ≠ a'.members.length → exec (.barArr p) s = .next (put a')) ∧
        (a'.count = a'.members.length →
          exec (.barArr p) s = .next (sendNorth (put { a' with count := 0, cores := [] }) p { m with src := collectorOf p, body := .barArr n f a'.cores none }))))

/-- BAR_PAN_RECEIVE: the barrier unit records the arriving cores and the release flag; with every participant there a barrier of one
module is released, one of several is reported to its home module; another flag than the recorded one ends the job with FORMAT, SRC 5
(09 R232, R234). -/
def Sys2Proof.Claims.BarrierUnitsRecordArrivals : Prop :=
  ∀ (s : State) (t : Nat) (m : Msg) (rest : List (Nat × Msg)) (n : Byte) (f : Fin 64) (cores : List Nat) (odd : Option (Fin 64)) (i : Nat)
    (b : BarObj),
    let s1 := { s with ctlIn := rest }
    let b1 := { b with flag := f, fset := true, arrived := b.arrived + cores.length, record := b.record ++ cores }
    s.ctlIn = (t, m) :: rest → m.body = .barArr n f cores odd → freshMsg s m = true → barOf s m.part n.toNat = some (i, b) →
    (b.fset = true → b.flag ≠ f → exec .barPanReceive s = .next (syncFault [n.toNat, b.flag, f] m.part stFormat 5 n.toNat s1)) ∧
    (b.fset = false ∨ b.flag = f →
      (b1.arrived ≠ b.lcm1 + 1 → exec .barPanReceive s = .next (setBar s1 i (some b1))) ∧
      (b1.arrived = b.lcm1 + 1 → b.modm1 = 0 → exec .barPanReceive s = .next (releaseBar i b1 s1)) ∧
      (b1.arrived = b.lcm1 + 1 → b.modm1 ≠ 0 → b.home = false →
        exec .barPanReceive s = .next (sendCtrl 2 m.part [b.homemod] [b.bnum, b.gen] (setBar s1 i (some b1)))) ∧
      (b1.arrived = b.lcm1 + 1 → b.modm1 ≠ 0 → b.home = true → exec .barPanReceive s = .next (homeDone i { b1 with marr := b.marr + 1 } s1)))

/-- A barrier's release sends its flag and generation to the cores of the arrival record, and begins the next generation with nothing
arrived and no flag recorded (09 R233). -/
def Sys2Proof.Claims.BarrierReleaseOpensTheNextGeneration : Prop :=
  ∀ (s : State) (i : Nat) (b : BarObj), (∀ im, (getPart s b.part).image = some im → im.endbar ≠ b.bnum) →
    releaseBar i b s = broadcast (setBar s i (some { b with arrived := 0, fset := false, flag := 0, marr := 0, record := [], gen := (b.gen + 1) % 65536 }))
      b.part (.barRel (BitVec.ofNat 8 b.bnum) b.flag b.gen b.record)

/-- The messages of other modules: a guard bit joins those of its step and starts that step's timer; a complete module counts at the barrier's home; the home's
release releases here; a job's end is recorded with SRC 9 (06 R151, R153; 09 R232, R233; 13 R332; 19 R466). That a module without members answers each step
with its bit 0 is the model's choice, log 105. -/
def Sys2Proof.Claims.MessagesOfOtherModules : Prop :=
  ∀ (s : State) (c : Ctrl) (rest : List Ctrl) (i : Nat) (b : BarObj),
    let s1 := { s with fab := { s.fab with store := rest } }
    let g := (getPart s c.part).guard
    let n := c.body.getD 0 0
    s.fab.store = c :: rest →
    (c.sub = 1 → g.steps ≤ n → g.members ≠ 0 → exec .guardBit s = .next (decideGuard c.part (modPart s1 c.part (fun p => { p with guard :=
      { g with others := g.others ++ [(c.peer, n, decide (c.body.getD 1 0 ≠ 0))]
               timer := if n = g.steps then some (g.timer.getD 0) else g.timer
               next := if n = g.steps then g.next else some (g.next.getD 0) } })))) ∧
    (c.sub = 1 → n = g.steps → g.members = 0 → g.own = none → ∃ u, exec .guardBit s = .next u ∧
      ∀ m ∈ otherModules s c.part, ⟨1, c.part, m, [n, 0]⟩ ∈ u.ctrlOut) ∧
    (c.sub = 1 → n < g.steps → exec .guardBit s = .next s1) ∧
    (c.sub = 2 → barOf s c.part n = some (i, b) → b.home = true → b.gen = c.body.getD 1 0 →
      exec .barDone s = .next (homeDone i { b with marr := b.marr + 1 } s1)) ∧
    (c.sub = 3 → barOf s c.part n = some (i, b) → b.home = false → b.gen = c.body.getD 1 0 →
      exec .barRelCtrl s = .next (releaseBar i b s1)) ∧
    (c.sub = 4 → exec .jobEndCtrl s = .next (recordWith false [] c.part n 9 c.peer 0 s1))

/-- STREAM_DIGEST_FORM: with the closing contexts' digests of the period there, they are folded in order into the stream digest, the
chain value advances by it and the period counts; between exchanges nothing else happens. DIGEST_CTRL: a replica's chain value joins
those of its exchange, which is decided when all are there; a notice of an expulsion holds the job (12 R302; 19 R469, R470). -/
def Sys2Proof.Claims.DigestsFoldAndAreExchanged : Prop :=
  ∀ (s : State) (k : Fin 32) (dig : Nat × Nat → BitVec 128),
    let p := getPart s k
    let n := p.periods
    let cs := closers s k
    let sd := cs.foldl (fun (acc : BitVec 128) ec => foldMix p.seed acc (quad (dig ec)).1 (quad (dig ec)).2.1 (quad (dig ec)).2.2.1
      ((quad (dig ec)).2.2.2 ^^^ BitVec.ofNat 32 (ec.1 * 256 + ec.2))) 0
    let next := { p with chain := foldMix p.seed p.chain (quad sd).1 (quad sd).2.1 (quad sd).2.2.1 ((quad sd).2.2.2 ^^^ BitVec.ofNat 32 n)
                         periods := n + 1, closed := p.closed.filter (fun x => decide (x.2.2.1 ≠ n)) }
    (cs ≠ [] → (∀ ec ∈ cs, p.closed.find? (fun x => decide (x.1 = ec.1) && decide (x.2.1 = ec.2) && decide (x.2.2.1 = n)) =
        some (ec.1, ec.2, n, dig ec)) →
      (∀ d, p.image.bind (fun im => im.digest) = some d → (n + 1) % (fld d.head 8 6 + 1) ≠ 0) →
      exec (.streamDigestForm k) s = .next (setPart s k next)) ∧
    (∀ (c : Ctrl) (rest : List Ctrl) (d : DigestDecl),
      let s1 := { s with fab := { s.fab with store := rest } }
      let m := c.body.getD 0 0
      s.fab.store = c :: rest → c.sub = 5 → c.part = k → p.image.bind (fun im => im.digest) = some d →
      (c.body.getD 4 0 = 1 → exec .digestCtrl s = .next (expelHold k (c.body.getD 5 0) m s1)) ∧
      (c.body.getD 4 0 ≠ 1 → (∀ x ∈ p.chains, ¬(m ≤ x.1 ∧ x.2.1 = 99)) →
        exec .digestCtrl s = .next (decideDigest k m d (modPart s1 k (fun p => { p with
          chains := p.chains ++ [(m, c.body.getD 1 0 % 16, BitVec.ofNat 128 (c.body.getD 3 0))] })))))

/-- SQ_TAIL and CQ_HEAD on an enabled pair: an index within the ring makes entries available or consumes them; one beyond the ring, or
past CQ_TAIL, stops the pair with BOUNDS; a pair that is not enabled ignores both (14 R342). -/
def Sys2Proof.Claims.DoorbellsMoveTheirIndex : Prop :=
  ∀ (s : State) (q : Fin 33) (i : BitVec 12),
    let p := getQp s q
    (p.en = false → exec (.sqTail q i) s = .next s ∧ exec (.cqHead q i) s = .next s) ∧
    (p.en = true → i.toNat < ringSize p.sqsz → exec (.sqTail q i) s = .next (setQp s q { p with sqTail := i.toNat })) ∧
    (p.en = true → ringSize p.sqsz ≤ i.toNat → ∃ t, exec (.sqTail q i) s = .next t ∧ (getQp t q).en = false ∧ (getQp t q).err = true ∧
      (getQp t q).code = stBounds ∧ ∀ j, j ≠ (q : Nat) → getQp t j = getQp s j) ∧
    (p.en = true → i.toNat < ringSize p.cqsz → p.events = [] → p.lost = false →
      ∀ n, n = (i.toNat + (ringSize p.cqsz - p.cqHead)) % ringSize p.cqsz → n ≤ p.cq.length →
      exec (.cqHead q i) s = .next (setQp s q { p with cqHead := i.toNat, cq := p.cq.drop n })) ∧
    (p.en = true → (ringSize p.cqsz ≤ i.toNat ∨ p.cq.length < (i.toNat + (ringSize p.cqsz - p.cqHead)) % ringSize p.cqsz) →
      ∃ t, exec (.cqHead q i) s = .next t ∧ (getQp t q).en = false ∧ (getQp t q).err = true ∧ (getQp t q).code = stBounds ∧
        ∀ j, j ≠ (q : Nat) → getQp t j = getQp s j)

/-- An event of an enabled pair is written as an entry of CID 0xFFFF where the ring has room and none waits, and its vector is raised;
else it waits, among at most 64, and beyond those it is lost, which the pair remembers; a disabled pair gets none (14 R346, R347). -/
def Sys2Proof.Claims.EventsWaitForRoom : Prop :=
  ∀ (s : State) (q : Nat) (e : Event),
    let p := getQp s q
    let t := postTo q e s
    let room := p.events = [] ∧ p.lost = false ∧ p.taken + p.cq.length + 1 < ringSize p.cqsz
    (p.en = false → t = s) ∧
    (p.en = true → room →
      (getQp t q).cq = p.cq ++ [⟨0xFFFF#16, e.status, p.phase, e.evno, p.sqHead, e.part, e.state, e.res⟩] ∧
        (∀ j, j ≠ q → getQp t j = getQp s j) ∧ (∃ x, t = setVec (setQp s q (getQp t q)) (vecOf q p) x) ∧
        ((getVec s (vecOf q p)).off = false → (getVec t (vecOf q p)).raised = (getVec s (vecOf q p)).raised + 1)) ∧
    (p.en = true → ¬ room → p.events.length < 64 → t = setQp s q { p with events := p.events ++ [e] }) ∧
    (p.en = true → ¬ room → 64 ≤ p.events.length → t = setQp s q { p with evlost := true, lost := true })

/-- QP_ENABLE: setting EN of a disabled pair writes the sizes and the vector, sets both indices to 0 and PHASE to 1, and clears what was
pending; clearing EN discards completions and events to come; a write that leaves EN as it is writes the sizes and the vector while EN
is 0, and nothing while it is 1 (14 R342, Table 14-4). -/
def Sys2Proof.Claims.QueuePairsEnableAndStop : Prop :=
  ∀ (s : State) (q : Fin 33) (v : Word),
    let p := getQp s q
    (p.en = false → v.getLsbD 8 = true →
      exec (.qpEnable q v) s = .next (setQp s q { p with
        sqsz := min 8 (fld v 0 4), cqsz := min 8 (fld v 4 4), vec := some (fld v 16 6), en := true, err := false, code := 0, sqHead := 0
        sqTail := 0, cqHead := 0, cqTail := 0, phase := true, epoch := p.epoch + 1, taken := 0, cq := [], events := [], lost := false })) ∧
    (p.en = true → v.getLsbD 8 = false →
      exec (.qpEnable q v) s = .next (setQp s q { p with en := false, cq := [], events := [], lost := false, taken := 0 })) ∧
    (p.en = false → v.getLsbD 8 = false →
      exec (.qpEnable q v) s = .next (setQp s q { p with sqsz := min 8 (fld v 0 4), cqsz := min 8 (fld v 4 4), vec := some (fld v 16 6) })) ∧
    (p.en = true → v.getLsbD 8 = true → exec (.qpEnable q v) s = .next (setQp s q p))

/-- MSIX_HOLDOFF_EXPIRY raises a vector once more where a raise waited, and else ends its holdoff, of a vector in one; a read of MOD_TC_LO captures bits
[47:32] of the north rim's count in MOD_TC_HI (14 R339, R347). -/
def Sys2Proof.Claims.VectorsAndTheCountRegister : Prop :=
  ∀ (s : State) (v : Fin 34),
    let x := getVec s v
    (x.off = false → exec (.msixHoldoffExpiry v) s = .next s) ∧
    (x.off = true → x.wait = true → exec (.msixHoldoffExpiry v) s = .next (setVec s v { raised := x.raised + 1, off := true, wait := false })) ∧
    (x.off = true → x.wait = false → exec (.msixHoldoffExpiry v) s = .next (setVec s v { x with off := false })) ∧
    exec .modTcLo s = .next { s with host := { s.host with tcHi := (BitVec.ofNat 48 (north s)).extractLsb' 32 16 } }

/-- The module takes a pair's entry, with the checks of every command passed that ask the module alone (14 R345; 15 R384). -/
def Sys2Proof.Claims.goes (c : Cmd) (s s1 : State) : Prop := takeEntry c.qp s = some s1 ∧ tooEarly s1 = false

/-- The module once a command has been refused with a code and results, which is logged (14 R348). -/
def Sys2Proof.Claims.refusedWith (opc : Nat) (c : Cmd) (m : Bool) (s1 : State) (st : Nat) (res : List Nat) : State :=
  answered c m s1 st res { s1 with host := { s1.host with refused := (opc, (c.part : Nat), st) :: s1.host.refused } }

/-- Taking an entry needs the pair's turn, advances its head, and reserves the place of its completion; nothing but the host attachment
changes (14 R345). -/
def Sys2Proof.Claims.EntriesAreTakenInTurn : Prop :=
  ∀ (s t : State) (q : Nat), takeEntry q s = some t →
    turnOf s = some q ∧ canTake s q = true ∧ (getQp t q).sqHead = ((getQp s q).sqHead + 1) % ringSize (getQp s q).sqsz ∧
      (getQp t q).taken = (getQp s q).taken + 1 ∧ t.host.turn = (q + 1) % 33 ∧ (∀ j, j ≠ q → getQp t j = getQp s j) ∧ { t with host := s.host } = s

/-- A completion is written at the tail of an enabled pair's ring of the same enable, with the command's identifier, the status, the
phase, the partition, its state and the results; the pair's vector is raised. A pair enabled anew since, or disabled, gets nothing
(14 R342, R344, R347). -/
def Sys2Proof.Claims.CompletionsAreWritten : Prop :=
  ∀ (s : State) (q epoch : Nat) (cid : BitVec 16) (st part state : Nat) (res : List Nat),
    let p := getQp s q
    let t := complete q epoch cid st part state res s
    (p.en = true → p.epoch = epoch →
      (getQp t q).cq = p.cq ++ [⟨cid, st, p.phase, 0, p.sqHead, part, state, res⟩] ∧
        (getQp t q).cqTail = (if ringSize p.cqsz ≤ p.cqTail + 1 then 0 else p.cqTail + 1) ∧
        (getQp t q).phase = (if ringSize p.cqsz ≤ p.cqTail + 1 then !p.phase else p.phase) ∧
        (∀ j, j ≠ q → getQp t j = getQp s j) ∧ { t with host := s.host } = s) ∧
    (p.en = false ∨ p.epoch ≠ epoch → t = s)

/-- The host commands, with their opcode and whether the command is the module's own, of those that a plain check list guards
(14 Table 14-8). -/
def Sys2Proof.Claims.hostOps (c : Cmd) : List (Instr × Nat × Bool) :=
  [(.modQuery c, 0x01, true), (.regRead c, 0x02, true), (.regWrite c, 0x03, true), (.licenceInstall c, 0x04, true), (.testpackLoad c, 0x05, true),
   (.partQuery c, 0x13, false), (.partReset c, 0x12, false), (.windowOpen c, 0x14, false), (.windowClose c, 0x15, false), (.jobStart c, 0x21, false),
   (.jobHold c, 0x22, false), (.jobResume c, 0x23, false), (.jobAbort c, 0x24, false), (.jobSave c, 0x25, false), (.jobExport c, 0x27, false),
   (.jobStatus c, 0x2A, false), (.flagSetCommand c, 0x2B, false), (.streamStart c, 0x30, false), (.streamRelease c, 0x31, false),
   (.streamStop c, 0x32, false), (.streamDrain c, 0x33, false)]

/-- A command out of its pair's turn waits and changes nothing; one whose CID is 0xFFFF completes with FORMAT, which is logged, and has no
other effect (14 R343, R345, R348). -/
def Sys2Proof.Claims.CommandsOutOfTurnOrFormChangeNothing : Prop :=
  ∀ (s s1 : State) (c : Cmd) (i : Instr) (opc : Nat) (m : Bool), (i, opc, m) ∈ hostOps c →
    (takeEntry c.qp s = none → exec i s = .next s) ∧
    (takeEntry c.qp s = some s1 → c.cid = 0xFFFF#16 →
      exec i s = .next (refusedWith opc c m s1 stFormat []))

/-- PART_CREATE by the operator: of free, good, numbered pans under no test, with a licence left and an enrolled principal or none, the
partition is EMPTY with its pans, its principal, the next generation and a key pair that none had before; no other partition or pan
changes (14 R350; 16 R398; 12 R292). -/
def Sys2Proof.Claims.PartCreateMakesAnEmptyPartition : Prop :=
  ∀ (s s1 : State) (c : Cmd),
    let k : Nat := c.part
    let pans := maskPans c
    let prin := argFld c 3 0 8
    goes c s s1 → pans ≠ [] → (∀ p ∈ pans, underTest s p = false) → badForm c false false false [all32, all32, all32, 0xFF] = false →
    isO s1 c = true → ((List.range 32).filter (fun j => decide ((getPart s1 j).st ≠ .none))).length < licParts s1 →
    (getPart s1 k).st = .none → prin = 0 ∨ (tget none s1.sec.enrol prin).isSome = true →
    (∀ p ∈ pans, panLive s1 p = true ∧ (getPan s1 p).num.isSome = true ∧ (getPan s1 p).part = none ∧ (tget TestPan.zero s1.rel.pans p).quar = false) →
    ∃ t, exec (.partCreate c) s = .next (answered c false s1 stOK [] t) ∧
      getPart t k = { Part.zero with st := .empty, prin := prin, pans := pans, pgen := ((getPart s1 k).pgen + 1) % 8, xts := 2 * s1.free + 2 } ∧
      t.free = s1.free + 1 ∧
      (∀ j, j ≠ k → getPart t j = getPart s1 j) ∧ (∀ p ∈ pans, getPan t p = { getPan s1 p with part := some k }) ∧
      (∀ p, p ∉ pans → getPan t p = getPan s1 p) ∧ t.cores = s1.cores

/-- PART_DESTROY of an EMPTY partition completes with its pans let go; PART_RESET of a READY, RUNNING, HELD, SAVED or FAULTED one begins the
reset: DRAINING, every core of the partition CLEAR but the DEFECT ones; behind a long command it waits. PART_RESET_COMPLETE: once the mesh is
released the partition is EMPTY and the command completes (15 R388, R389, R391; 14 R352). -/
def Sys2Proof.Claims.PartitionsResetAndDestroy : Prop :=
  ∀ (s s1 : State) (c : Cmd),
    let k : Nat := c.part
    let p := getPart s1 k
    (goes c s s1 → p.long = none → p.st = .empty → (∀ x ∈ (getPart s k).pans, underTest s x = false) → badForm c false false false [] = false →
      isO s1 c = true → twf Pan.zero s1.pans = true →
      ∃ t, exec (.partDestroy c) s = .next (answered c false s1 stOK [] t) ∧ ∀ x ∈ p.pans, getPan t x = { getPan s1 x with part := none }) ∧
    (goes c s s1 → p.long = none → [PSt.ready, .running, .held, .saved, .faulted].contains p.st = true → badForm c false false false [] = false →
      (isO s1 c || isT s1 c) = true → twf Core.zero s1.cores = true →
      ∃ t, exec (.partReset c) s = .next t ∧ (getPart t k).st = .draining ∧ (getPart t k).phase = 1 ∧
        (getPart t k).long = some (longOf .reset c [] [] s1) ∧
        ∀ g, inPart s1 k g = true → (getCore t g).r.st = .clear ∨ ((getCore t g).r.st = .defect ∧ getCore t g = getCore s1 g)) ∧
    (goes c s s1 → p.long.isSome = true → [PSt.ready, .running, .held, .saved, .faulted, .loading, .draining].contains p.st = true →
      badForm c false false false [] = false → (isO s1 c || isT s1 c) = true →
      exec (.partReset c) s = .next (setPart s1 k { p with waits := p.waits ++ [longOf .reset c [] [] s1] })) ∧
    (∀ l, (getPart s k).long = some l → l.kind = .reset → (getPart s k).phase = 2 → s.tide.frozen = false →
      exec (.partResetComplete c.part) s = .next (newJobRate (completeLong k stOK [] (setPart s k { getPart s k with st := .empty, phase := 0, ending := false }))))

/-- PART_QUERY completes with the partition's state; WINDOW_OPEN opens the window that ARG0 and ARG1 describe, PLAIN only under CXL.mem IDE;
WINDOW_CLOSE closes it (14 Table 14-8; 16 R414). -/
def Sys2Proof.Claims.PartitionQueriesAndWindows : Prop :=
  ∀ (s s1 : State) (c : Cmd), goes c s s1 →
    let k : Nat := c.part
    let p := getPart s1 k
    (badForm c false false false [] = false → (isO s1 c || isT s1 c) = true → exec (.partQuery c) s = .next (answered c false s1 stOK [] s1)) ∧
    (isT s1 c = true → windowSt s1 c = true →
      (badForm c false false false [3, 0x1FFF] = false → (argFld c 0 0 1 = 1 ∨ s1.sec.ideMem = true) →
        exec (.windowOpen c) s = .next (answered c false s1 stOK [] (setPart s1 k { p with
          window := ⟨true, decide (argFld c 0 0 1 = 1), decide (argFld c 0 1 1 = 1), decide (argFld c 1 12 1 = 1), argFld c 1 0 12, c.qp⟩ }))) ∧
      (badForm c false false false [] = false →
        exec (.windowClose c) s = .next (answered c false s1 stOK [] (setPart s1 k { p with window := .zero }))))

/-- ABSORB_QUIET: once the absorbed inputs have been empty for a period, and the zeroised cores read back as 0, the partition's mesh
fields and objects are released and its generation advances; before that nothing happens (11 R273, R281; 15 R389; 16 R422). -/
def Sys2Proof.Claims.AbsorbQuietReleasesTheMesh : Prop :=
  ∀ (s : State) (k : Fin 32),
    (absorbQuiet s k = false → exec (.absorbQuiet k) s = .next s) ∧
    (absorbQuiet s k = true → (∀ g ∈ s.stuck, inPart s k g = false) → (getPart s k).st = .draining →
      (∀ l, (getPart s k).long = some l → l.kind ≠ .save) →
      exec (.absorbQuiet k) s = .next (releaseAll k s) ∧ (getPart (releaseAll k s) k).phase = 2 ∧ (getPart (releaseAll k s) k).st = .draining ∧
        (getPart (releaseAll k s) k).pgen = ((getPart s k).pgen + 1) % 8 ∧ (getPart (releaseAll k s) k).image = none ∧
        (getPart (releaseAll k s) k).pans = (getPart s k).pans)

/-- Zeroised cores that read back as 0 leave the module as it is; so does one that does not on a pan that is dark. One on a live pan takes
its pan dark: the pan leaves the tide, it loses its power and its cores, a running job that it involves ends with PAN_DARK, and the
module is suspect of a core not cleared (16 R422; 15 R390; 19 Table 19-7). How a core fails to clear, and that the pan's STATE then reads
5, is this model's choice (log 115). -/
def Sys2Proof.Claims.ReadbackTakesAPanDark : Prop :=
  ∀ (s : State) (t : Nat → Bool) (g : Nat),
    let u := readback t s
    (s.stuck.filter t = [] → u = s) ∧
    (s.stuck.filter t = [g] → panLive s (panOf g) = false → u = s) ∧
    (s.stuck.filter t = [g] → panLive s (panOf g) = true →
      panLive u (panOf g) = false ∧ (getPwr u (panOf g)).st = 5 ∧ u.rel.suspect.getLsbD 6 = true ∧
        ∀ k, k ∈ involved s (panOf g) → (getPart s k).st = .running →
          (getPart u k).st = .faulted ∧ (getPart u k).endCode = stPanDark)

/-- JOB_START of a READY partition without a count: the partition is RUNNING, or HELD while the module is parked, and with the wafer not
held its LOADED cores whose pointer words are valid enter RUN (HOLD where it is HELD). With a count at least 8,192 and at most 2^32 steps
ahead the command waits for it, and a COMMIT carries it to the cores (14 R355; 18 R450). -/
def Sys2Proof.Claims.JobStartRunsTheCores : Prop :=
  ∀ (s s1 : State) (c : Cmd), goes c s s1 →
    let k : Nat := c.part
    let p := getPart s1 k
    badForm c false true false [] = false → isT s1 c = true → p.st = .ready → p.long = none →
    (c.tc = 0 → s1.tide.frozen = false → twf Core.zero s1.cores = true →
      ∃ t, exec (.jobStart c) s = .next (answered c false s1 stOK [] t) ∧ getPart t k = startedPart s1 p ∧
        (∀ g, inPart s1 k g = false → getCore t g = getCore s1 g) ∧
        ∀ g, inPart s1 k g = true → (getCore s1 g).r.st = .loaded → badPointer (getCore s1 g) = none →
          (getCore t g).r.st = (if s1.power.parked then .hold else .run)) ∧
    (c.tc ≠ 0 → isAhead s1 c.tc = true → 8192 ≤ aheadBy s1 c.tc → aheadBy s1 c.tc ≤ 2 ^ 32 →
      ∃ t, exec (.jobStart c) s = .next (broadcast t k (.commit (stepOf s1 c.tc))) ∧
        getPart t k = { startedPart s1 p with starts := some (stepOf s1 c.tc), long := some (longOf .start c [stepOf s1 c.tc] [] s1) } ∧
        t.cores = s1.cores)

/-- JOB_HOLD: the partition is HELD with the cause HOST, its running cores are frozen, cores in HALT record it. JOB_RESUME: it is RUNNING,
and the frozen cores run on unless the wafer is held; while PARK is set it answers BUSY and changes nothing else (14 R351;
02 R40 to R42). -/
def Sys2Proof.Claims.JobsHoldAndResume : Prop :=
  ∀ (s s1 : State) (c : Cmd), goes c s s1 →
    let k : Nat := c.part
    let p := getPart s1 k
    badForm c false false false [] = false → (isO s1 c || isT s1 c) = true → twf Core.zero s1.cores = true →
    (p.st = .running → ∃ t, exec (.jobHold c) s = .next (answered c false s1 stOK [] t) ∧
      getPart t k = { p with st := .held, holdHost := true } ∧
      (∀ g, inPart s1 k g = false → getCore t g = getCore s1 g) ∧
      (∀ g, inPart s1 k g = true → (getCore s1 g).r.st = .run → getCore t g = { getCore s1 g with r := { (getCore s1 g).r with st := .hold } }) ∧
      (∀ g, inPart s1 k g = true → (getCore s1 g).r.st = .halt → getCore t g = { getCore s1 g with r := { (getCore s1 g).r with holdSeen := true } })) ∧
    (p.st = .held → p.holdPark = false → ∃ t, exec (.jobResume c) s = .next (answered c false s1 stOK [] t) ∧
      getPart t k = { p with st := .running, holdHost := false } ∧ (∀ g, inPart s1 k g = false → getCore t g = getCore s1 g) ∧
      (∀ g, inPart s1 k g = true → (getCore s1 g).r.st = .hold → s1.tide.frozen = false → (getCore s1 g).x.haltReq = false →
        getCore t g = { getCore s1 g with r := { (getCore s1 g).r with st := .run } }) ∧
      (s1.tide.frozen = true → t.cores = s1.cores)) ∧
    (p.st = .held → p.holdPark = true → exec (.jobResume c) s = .next (refusedWith 0x23 c false s1 stBusy []))

/-- JOB_ABORT begins the partition's reset, after a long command in progress has completed with STATE. JOB_STATUS reports the guard steps,
the skips, LS_EXP with the end code, and the hold causes. FLAG_SET sends a FLAG_SET message to the image core (15 R391; 14 Table 14-9;
09 R220). -/
def Sys2Proof.Claims.JobsAbortReportAndSignal : Prop :=
  ∀ (s s1 : State) (c : Cmd) (g : Nat), goes c s s1 →
    let k : Nat := c.part
    let p := getPart s1 k
    (badForm c false false false [] = false → isT s1 c = true → [PSt.ready, .running, .held].contains p.st = true →
      ∃ t, exec (.jobAbort c) s = .next t ∧ t = beginReset k (longOf .abort c [] [] s1) (completeLong k stState [] s1) ∧
        (getPart t k).st = .draining ∧ (getPart t k).long = some (longOf .abort c [] [] s1)) ∧
    (badForm c false false false [] = false → (isO s1 c || isT s1 c) = true → p.st ≠ .none →
      exec (.jobStatus c) s = .next (answered c false s1 stOK [p.guard.steps % 2 ^ 32, p.guard.skipped % 2 ^ 32, p.guard.ls.toNat + p.endCode * 256,
        p.holdHost.toNat + 2 * p.holdPark.toNat] s1)) ∧
    (badForm c false false false [0xFFFFF, 0x3F] = false → isT s1 c = true → [PSt.ready, .running, .held].contains p.st = true →
      imageCore s1 k (argFld c 0 0 20) = some g →
      exec (.flagSetCommand c) s = .next (answered c false s1 stOK [] (sendCore s1 k g (.flagSet (Fin.ofNat 64 (argFld c 1 0 6))))))

/-- JOB_END_OK_COMPLETE: a job past its end barrier is torn down once its drains are done, and not before; with its mesh released the
partition is EMPTY, and JOB_END with OK has been posted; on any other partition nothing happens (14 R354, R368). -/
def Sys2Proof.Claims.JobsEndWithOk : Prop :=
  ∀ (s : State) (k : Fin 32),
    let p := getPart s k
    ((p.ending = false ∨ p.st ≠ .draining) → exec (.jobEndOkComplete k) s = .next s) ∧
    (p.phase = 0 → endReady s k = false → exec (.jobEndOkComplete k) s = .next s) ∧
    (p.ending = true → p.st = .draining → p.phase = 0 → endReady s k = true → s.tide.frozen = false → p.long = none →
      ∃ t, exec (.jobEndOkComplete k) s = .next t ∧ t = tearDown k s ∧ (getPart t k).phase = 1) ∧
    (p.ending = true → p.st = .draining → p.phase = 2 → ∃ t, exec (.jobEndOkComplete k) s = .next t ∧ getPart t k = { p with st := .empty, phase := 0, ending := false, fault := none } ∧
      t.cores = s.cores)

/-- JOB_LOAD: when every check passes, no section is refused and every route binds, the partition is LOADING with the image of the bundle
and JOB_SEED, the pair remembered, the loader's tiles to come and the command in progress (14 R366, R367). -/
def Sys2Proof.Claims.JobLoadBeginsTheLoader : Prop :=
  ∀ (s s1 s2 : State) (c : Cmd) (b : Bundle),
    let k : Nat := c.part
    goes c s s1 → (∀ x ∈ (getPart s k).pans, underTest s x = false) → firstCode (loadChecks c s1) = none → bundleOf s1 c = some b →
    fitBad s1 k (keepMem c) b = none → bindImage k b.image s1 = .ok s2 → (getPart s1 k).long = none →
    ∃ t, exec (.jobLoad c) s = .next t ∧ t = beginLoad c b.image (loadKey s1 c b.image) s2 ∧ (getPart t k).st = .loading ∧
      (getPart t k).image = some b.image ∧ (getPart t k).seed = BitVec.ofNat 64 (arg c 0 + arg c 1 * 2 ^ 32) ∧
      (getPart t k).long = some (longOf .load c [] [] s2) ∧ (getPart t k).loadQp = some ((c.qp : Nat), (getQp s2 c.qp).epoch) ∧
      (getPart t k).fault = none

/-- LOADER_TILE: a tile that passes its checks is written at its place in the core's image, one that does not is sent again, at most 3
times; the fourth failure ends the load with POISON. JOB_LOAD_COMPLETE: with every tile written the job's cores are LOADED and the partition
READY (15 R377; 14 R367). -/
def Sys2Proof.Claims.LoaderTilesFillTheCores : Prop :=
  ∀ (s : State) (g : Nat) (ok : Bool) (k : Fin 32) (l : Nat × Nat × List Byte × Nat) (rest : List (Nat × Nat × List Byte × Nat)),
    let p := getPart s k
    let c := getCore s g
    (g < numCores → (getPan s (panOf g)).part = some (k : Nat) → p.loads = l :: rest → l.1 = g → takesTiles c = true → s.tide.frozen = false →
      (ok = true → l.2.2.1 ≠ [] → exec (.loaderTile g ok) s = .next (setPart
        (setCore s g (rakeMark (envOf s g).now l.2.1 l.2.2.1.length (imageWrite l.2.1 l.2.2.1 c))) k { p with loads := rest })) ∧
      ((ok = false ∨ l.2.2.1 = []) → 3 ≤ l.2.2.2 → exec (.loaderTile g ok) s = .next (loadFailed k s)) ∧
      ((ok = false ∨ l.2.2.1 = []) → l.2.2.2 < 3 → ∃ t, exec (.loaderTile g ok) s = .next t ∧ (getPart t k).loads.head? = some (l.1, l.2.1, l.2.2.1, l.2.2.2 + 1) ∧
        t.cores = s.cores)) ∧
    (∀ lg im, p.long = some lg → lg.kind = .load → p.image = some im → p.loads = [] → s.tide.frozen = false →
      ∃ t, exec (.jobLoadComplete k) s = .next t ∧ (getPart t k).st = .ready ∧ (getPart t k).long = none ∧
        ∀ r ∈ im.cores, (getCore t (coreOf s k r.icn)).r.st = .loaded ∧ (getCore t (coreOf s k r.icn)).seed = p.seed)

/-- JOB_SAVE of a RUNNING or HELD job whose pans all have save entries makes the partition DRAINING and begins the save; the stages follow:
halts once everything has settled, the contexts and records once every core has halted and what the cores sent meanwhile has settled too,
and SAVED once the mesh is released (09 R235; 15 R392). -/
def Sys2Proof.Claims.SavesDrainHaltAndFinish : Prop :=
  ∀ (s s1 : State) (c : Cmd),
    let k : Nat := c.part
    (goes c s s1 → badForm c false false false [] = false → (isO s1 c || isT s1 c) = true → [PSt.running, .held].contains (getPart s1 k).st = true →
      noSaveEntry s1 k = none → (getPart s1 k).long = none →
      ∃ t, exec (.jobSave c) s = .next t ∧ (getPart t k).st = .draining ∧ (getPart t k).long = some (longOf .save c [0, s1.time] [] s1) ∧
        t.cores = s1.cores ∧ t.routers = s1.routers) ∧
    (∀ (l : Long) (im : Image), (getPart s k).long = some l → l.kind = .save → s.tide.frozen = false →
      ((getPart s k).image = some im → l.nums.getD 0 0 = 0 → messagesDone s k = true → settledChans s k = true →
        ∃ t, exec (.jobSaveComplete c.part) s = .next t ∧ (getPart t k).long = some { l with nums := [1], cores := activeCores s k, at_ := north s } ∧
          ∀ g ∈ activeCores s k, t.haltSent.contains g = true) ∧
      ((getPart s k).image = some im → l.nums.getD 0 0 = 1 →
        (∀ gc ∈ s.cores, inPart s k gc.1 = true → [CoreSt.run, .hold, .loaded].contains gc.2.r.st = false) →
        exec (.jobSaveComplete c.part) s = .next (if messagesDone s k && settledChans s k then
            tearDown k (modPart ((im.cores.map CoreRec.icn).foldl (saveCore k im) s) k
              (fun p => { p with saved := some (saveRec s k im), long := some { l with nums := [2] } }))
          else setPart s k { getPart s k with long := some { l with nums := [3, s.time] } })) ∧
      ((getPart s k).image = none → l.nums.getD 0 0 = 2 → (getPart s k).phase = 2 →
        exec (.jobSaveComplete c.part) s = .next (newJobRate (completeLong k stOK [] (setPart s k { getPart s k with st := .saved, phase := 0 })))))

/-- A save that does not settle within 100 µs, before its halts or after them, or whose cores do not halt within 16,777,216 steps, ends with
TIMEOUT; the partition returns to the state it held before, and no halt request is pending on its way to a core of it (09 R235;
14 R353; 15 R392). -/
def Sys2Proof.Claims.SavesTimeOut : Prop :=
  ∀ (s : State) (k : Fin 32) (l : Long), (getPart s k).long = some l → l.kind = .save →
    let u := resumeSave k l s
    (l.nums.getD 0 0 = 0 → l.nums.getD 1 0 + 100000000 ≤ s.time → settledChans s k = false →
      exec (.saveSettleTimeout k) s = .next (completeLong k stTimeout [] (setPart s k { getPart s k with st := l.prev }))) ∧
    (l.nums.getD 0 0 = 3 → l.nums.getD 1 0 + 100000000 ≤ s.time → settledChans s k = false →
      exec (.saveSettleTimeout k) s = .next u) ∧
    (l.nums.getD 0 0 = 1 → l.at_ + 16777216 ≤ north s → exec (.saveHaltTimeout k) s = .next u) ∧
    (l.prev = .running → (getPart u k).st = .running ∧ (getPart u k).long = none ∧ ∀ g, inPart s k g = true → u.haltSent.contains g = false)

/-- JOB_RESTORE of a SAVED partition whose record passes its checks and binds makes it LOADING with the record's image and the saved tiles to
come. JOB_RESTORE_COMPLETE: with every tile written the cores are LOADED, their fault records clear, and the partition READY
(15 R393). -/
def Sys2Proof.Claims.RestoresBringTheRecordBack : Prop :=
  ∀ (s s1 s2 : State) (c : Cmd) (r : SaveRec),
    let k : Nat := c.part
    (goes c s s1 → (∀ x ∈ (getPart s k).pans, underTest s x = false) → badForm c false false false [] = false → (isO s1 c || isT s1 c) = true →
      (getPart s1 k).st = .saved → (getPart s1 k).saved = some r → image4Bad s1 r.image = false → boundsBad s1 k r.image = false →
      (∀ x ∈ (getPart s1 k).pans, panUnfit s1 x = false) → fitBad s1 k true ⟨r.image, none⟩ = none → bindImage k r.image s1 = .ok s2 →
      (getPart s1 k).long = none →
      ∃ t, exec (.jobRestore c) s = .next t ∧ (getPart t k).st = .loading ∧ (getPart t k).image = some r.image ∧
        (getPart t k).long = some (longOf .restore c [] [] s1) ∧ (getPart t k).restored = true ∧ (getPart t k).fault = none ∧
        (getPart t k).seed = r.seed ∧ (getPart t k).chain = r.chain) ∧
    (∀ l, (getPart s k).long = some l → l.kind = .restore → (getPart s k).saved = some r → (getPart s k).loads = [] → s.tide.frozen = false →
      ∃ t, exec (.jobRestoreComplete c.part) s = .next t ∧ (getPart t k).st = .ready ∧ (getPart t k).long = none ∧ (getPart t k).saved = none ∧
        ∀ icn ∈ r.image.cores.map CoreRec.icn, (getCore t (coreOf s k icn)).r.st = .loaded ∧ (getCore t (coreOf s k icn)).r.fstat = 0)

/-- JOB_EXPORT of a SAVED partition begins the sealing under a number drawn afresh; JOB_EXPORT_COMPLETE writes at most the buffer's length
to it and reports the bytes moved. JOB_IMPORT of a record that the staged key opens, that the licence allows and that fits makes the EMPTY
partition LOADING and uses the key up, any other answers why; JOB_IMPORT_COMPLETE makes it SAVED. What a sealed record spells, and whether a
key opens it, are free values (log 6). (15 R394; 16 R417, R418). -/
def Sys2Proof.Claims.ExportsAndImportsMoveTheRecord : Prop :=
  ∀ (s s1 : State) (c : Cmd),
    let k : Nat := c.part
    (goes c s s1 → badForm c false false true [] = false → (isO s1 c || isT s1 c) = true → (getPart s1 k).st = .saved → (getPart s1 k).long = none →
      exec (.jobExport c) s = .next (setPart (drawn s1).2 k { getPart s1 k with
        long := some (longOf .exp c [c.bufAddr.toNat, c.bufLen.toNat, (drawn s1).1 % 2 ^ 64] [] s1) })) ∧
    (∀ l r, (getPart s k).long = some l → l.kind = .exp → (getPart s k).saved = some r →
      ∃ bs : List Byte, bs.length ≤ l.nums.getD 1 0 ∧ exec (.jobExportComplete c.part) s = .next (completeLong k stOK [bs.length]
        { s with host := { s.host with out := s.host.out ++ [⟨l.nums.getD 0 0, bs⟩] } })) ∧
    (goes c s s1 → (∀ x ∈ (getPart s k).pans, underTest s x = false) → badForm c false false true [] = false → (isO s1 c || isT s1 c) = true →
      (getPart s1 k).st = .empty →
      exec (.jobImport c) s = .next (match Config.recHead (bufOf c), openRecord s1 c with
        | none, _ => refusedWith 0x28 c false s1 stFormat []
        | some _, none => refusedWith 0x28 c false s1 stAuth []
        | some h, some (r, x, key) =>
          if image4Bad s1 r.image then refusedWith 0x28 c false s1 stLicence []
          else match importFit s1 k h.1 h.2.1 r with
          | some e => refusedWith 0x28 c false s1 stFit e
          | none => modPart (allotGranules k r.image (leaveEmpty k s1)) k (fun p => { p with
              st := .loading, saved := some { r with keyid := key.keyid }, xts := suppliedKey x, xtsOwn := true, jk := some key.jk, staged := none
              long := some (longOf .imp c [(bufOf c).length] [] s1) }))) ∧
    (∀ l, (getPart s k).long = some l → l.kind = .imp →
      exec (.jobImportComplete c.part) s = .next (completeLong k stOK [l.nums.getD 0 0] (setPart s k { getPart s k with st := .saved })))

/-- JOB_RELOAD holds the slots of its records at their cores and begins the checks; JOB_RELOAD_FORCED sends halt requests to the cores that
need them, or, where none does, writes every core and completes with the tokens discarded; while the wafer is held it waits
(07 R184 to R186). -/
def Sys2Proof.Claims.ReloadsBegin : Prop :=
  ∀ (s s1 : State) (c : Cmd) (rs : List CoreRec), goes c s s1 →
    let k : Nat := c.part
    let gs := rs.map (fun r => (coreOf s1 k r.icn, r))
    isT s1 c = true → [PSt.running, .held].contains (getPart s1 k).st = true → reloadSet c = some rs →
    (∀ r ∈ rs, (imageCore s1 k r.icn).isSome = true) → reloadFit s1 k rs = none → (getPart s1 k).long = none →
    (argFld c 0 0 1 = 0 → badForm c false false true [0, all32] = false →
      ∃ t, exec (.jobReload c) s = .next t ∧ t = setPart (gs.foldl holdSlots s1) k { getPart s1 k with
        reload := some ⟨gs, arg c 1, north s1, [], [], none⟩, long := some (longOf .reload c [0, 0, 0] [] s1) }) ∧
    (argFld c 0 0 1 = 1 → badForm c false false true [1, all32] = false →
      let l := longOf .reload c [1, 0] [] s1
      let t := setPart s1 k { getPart s1 k with reload := some ⟨gs, arg c 1, north s1, [], [], none⟩, long := some l }
      let wait := (gs.filter (fun x => needsHalt (getCore s1 x.1) x.2)).map Prod.fst
      let n := (gs.map (fun x => discarded (getCore s1 x.1) (reloadSlots x.2))).foldl (· + ·) 0
      exec (.jobReloadForced c) s = .next (
        if s1.tide.frozen then t
        else if wait = [] then
          completeLong k stOK [n % 2 ^ 32] (modPart (gs.foldl (fun s x => setCore s x.1 (forceCore x.2 (getCore s x.1))) t) k (fun p => { p with reload := none }))
        else setPart (sendHalts wait t) k { getPart t k with long := some { l with cores := wait } }))

/-- QUIESCENCE_CHECK notes at each check which cores are quiescent and since when; RELOAD_TIMEOUT ends a reload that has not been confirmed
within QTMO with TIMEOUT and no change; at the commit count RELOAD_COMMIT gives every core its new slots, each with its EPOCH turned, and
completes; a core that faults before ends it with STATE and no change (07 R184, R186). -/
def Sys2Proof.Claims.ReloadsAreConfirmedAndCommitted : Prop :=
  ∀ (s : State) (k : Fin 32) (l : Long) (r : Reload),
    let p := getPart s k
    let quiet := (r.recs.filter (fun x => quiescent (getCore s x.1) (reloadSlots x.2))).map Prod.fst
    let since := quiet.map (fun g => (g, ((r.since.find? (fun x => decide (x.1 = g))).map Prod.snd).getD (north s)))
    let ok := (since.filter (fun x => decide (x.2 + 4096 ≤ north s))).map Prod.fst
    p.long = some l → l.kind = .reload → p.reload = some r → s.tide.frozen = false →
    (l.nums = [0, 0, 0] → r.goal = none → r.last + 256 ≤ north s → reloadFaulted s r = false → (∃ x ∈ r.recs, r.ok.contains x.1 = false) →
      (∃ x ∈ r.recs, ok.contains x.1 = false) →
      exec (.quiescenceCheck k) s = .next (setPart s k { p with reload := some { r with last := north s, since := since, ok := ok } })) ∧
    (r.goal = none → (∃ x ∈ r.recs, r.ok.contains x.1 = false) → l.at_ + r.qtmo ≤ north s →
      exec (.reloadTimeout k) s = .next (endReload k stTimeout s)) ∧
    (l.nums = [0, 0, 0] → reloadFaulted s r = true →
      exec (.reloadCommit k) s = .next (endReload k stState s) ∧
      (r.goal = none → r.last + 256 ≤ north s → exec (.quiescenceCheck k) s = .next (endReload k stState s))) ∧
    (∀ T, l.nums = [0, 0, 0] → r.goal = some T → reloadFaulted s r = false → r.recs ≠ [] →
      (∀ x ∈ r.recs, T ≤ (getNode s (panOf x.1)).steps) →
      exec (.reloadCommit k) s = .next (completeLong k stOK [0] (modPart (r.recs.foldl (fun s x => setCore s x.1 (writeReload false x.2 (getCore s x.1))) s) k
        (fun p => { p with reload := none }))))

/-- The writing of a core's record gives each slot of S its new configuration with the other EPOCH, DISC as the reload says, CAND kept, nothing
fired or discarded and the slot not active, and leaves every other slot; S can be chosen again (07 R184, R185). -/
def Sys2Proof.Claims.ReloadWritesTurnTheEpoch : Prop :=
  ∀ (disc : Bool) (r : CoreRec) (c : Core) (k : Fin 8),
    let c' := writeReload disc r c
    let w := newFold r k
    foldFresh w = true →
    (k ∈ reloadSlots r → fEpoch c'.folds[k] = !fEpoch c.folds[k] ∧ fDisc c'.folds[k] = disc ∧ fCand c'.folds[k] = fCand c.folds[k] ∧
      fActive c'.folds[k] = false ∧ fFires c'.folds[k] = 0 ∧ fDiscards c'.folds[k] = 0 ∧ fEntry c'.folds[k] = fEntry w ∧
      fTag c'.folds[k] = fTag w ∧ fValid c'.folds[k] = fValid w ∧ c'.x.held.getLsbD k = false) ∧
    (k ∉ reloadSlots r → c'.folds[k] = c.folds[k] ∧ c'.x.held.getLsbD k = c.x.held.getLsbD k) ∧
    { c' with folds := c.folds, su := c.su, x := { c'.x with held := c.x.held } } = c

/-- The pair's entry is taken, and its debugger is attached to the partition and holds a right (20 R482). -/
def Sys2Proof.Claims.mayDebug (c : Cmd) (s s1 : State) (r : Right) (l : List PSt) : Prop :=
  goes c s s1 ∧ isD s1 c = true ∧ hasRight s1 c r = true ∧ attachedAs s1 c = true ∧ inSt s1 c l = true

/-- The module once a debug command has completed over t, with its entry in the debug log (20 R496). -/
def Sys2Proof.Claims.debugged (opc : Nat) (c : Cmd) (m : Bool) (wcrc : Nat) (s1 : State) (res : List Nat) (t : State) : State :=
  answered c m s1 stOK res (logDebug opc stOK c.part (getQp s1 c.qp).grant (arg c 0) (arg c 1) (arg c 2) wcrc t)

/-- DEBUG_ATTACH attaches the pair's debugger under its grant, noting the cores already halted, and with HALT sends halt requests to the
active ones; DEBUG_DETACH ends the attachment with its effects; at NOTAFTER the binding of a debugger's pair ends (20 R480, R494; 16 R420). -/
def Sys2Proof.Claims.DebuggersAttachAndDetach : Prop :=
  ∀ (s s1 : State) (c : Cmd) (g : Grant),
    let k : Nat := c.part
    let p := getPart s1 k
    let t := setPart s1 k { p with dbg := some ⟨c.qp, g, haltedCores s1 k, []⟩ }
    (goes c s s1 → badForm c false false false [1] = false → isD s1 c = true → inSt s1 c [.empty, .ready, .running, .held, .faulted] = true →
      p.dbg = none → (getQp s1 c.qp).grant = some g →
      exec (.debugAttach c) s = .next (debugged 0x38 c false 0 s1 [] (if argFld c 0 0 1 = 1 then sendHalts (activeCores s1 k) t else t))) ∧
    (goes c s s1 → badForm c false false false [1] = false → isD s1 c = true → attachedAs s1 c = true → p.st ≠ .none →
      exec (.debugDetach c) s = .next (debugged 0x39 c false 0 s1 [] (detach k (decide (argFld c 0 0 1 = 1)) s1)) ∧
        (getPart (detach k (decide (argFld c 0 0 1 = 1)) s1) k).dbg = none) ∧
    (∀ q : Fin 33, (getQp s q).grant = some g →
      (isAhead s g.after = false → exec (.debugGrantExpiry q) s = .next (endPair q s)) ∧
      (isAhead s g.after = true → exec (.debugGrantExpiry q) s = .next s))

/-- DBG_HALT sends halt requests to the selected cores in RUN or HOLD and waits for them under its timeout, or answers at once where there are
none; at the timeout it completes with TIMEOUT and what is halted and what is not, unless all are (20 R483, R484). -/
def Sys2Proof.Claims.DebugHalts : Prop :=
  ∀ (s s1 : State) (c : Cmd) (l : List Nat),
    let k : Nat := c.part
    let gs := l.filter (fun g => [CoreSt.run, .hold].contains (getCore s1 g).r.st)
    (mayDebug c s s1 .read [.running, .held] → badForm c false false false [3, 0xFFFFF, all32] = false → badScope c = false → selCores s1 c = some l →
      (gs = [] → exec (.dbgHalt c) s = .next (debugged 0x3A c false 0 s1 [0, 0] s1)) ∧
      (gs ≠ [] → exec (.dbgHalt c) s = .next (modDbg k (fun d => { d with cmds := d.cmds ++
        [dbgCmd 0x3A c (north s1 + (if arg c 2 = 0 then 65536 else arg c 2)) gs s1] }) (sendHalts gs s1)))) ∧
    (∀ (d : Dbg) (x : DbgCmd), (getPart s k).dbg = some d → d.cmds = [x] → x.opc = 0x3A → x.at_ ≤ north s → haltsDone s x = false →
      exec (.dbgHaltTimeout c.part) s = .next (finishDbg k d.grant x stTimeout [cmdCores s x [.halt], cmdCores s x [.run, .hold]]
        (modDbg k (fun d => { d with cmds := d.cmds.erase x }) s)))

/-- DBG_RUN resumes the selected cores in HALT at once, N steps to run where ARG2 gives an N, or arms their resume count; at the count a core in HALT whose pan has reached it
resumes; a halt count, of the station or of the run, gives a running core a halt request (20 R487, R488). -/
def Sys2Proof.Claims.DebugRuns : Prop :=
  ∀ (s s1 : State) (c : Cmd) (l : List Nat) (g : Nat),
    let k : Nat := c.part
    let gs := l.filter (fun g => decide ((getCore s1 g).r.st = .halt))
    (mayDebug c s s1 .read [.running, .held] → badForm c false true false [3, 0xFFFFF, all32] = false → badScope c = false → selCores s1 c = some l →
      (c.tc = 0 → arg c 2 = 0 → exec (.dbgRun c) s = .next (debugged 0x3B c false 0 s1 [gs.length] (resumeAll gs s1).2)) ∧
      (c.tc = 0 → arg c 2 ≠ 0 → exec (.dbgRun c) s = .next (debugged 0x3B c false 0 s1 [gs.length]
        (modPart (resumeAll gs s1).2 k (fun p => { p with runs := p.runs ++ [⟨north s1, [], arg c 2, gs⟩] })))) ∧
      (c.tc ≠ 0 → isAhead s1 c.tc = true → 8192 ≤ aheadBy s1 c.tc → aheadBy s1 c.tc ≤ 2 ^ 32 →
        ∃ t, exec (.dbgRun c) s = .next t ∧ t.cores = s1.cores ∧
          (getPart t k).runs = (getPart s1 k).runs ++ [⟨stepOf s1 c.tc, gs, arg c 2, []⟩] ∧
          ∀ x ∈ gs, (getStation t (stationOf x)).runTc = some c.tc)) ∧
    (∀ (a : RunArm) (d : Dbg), (getPart s k).runs = [a] → a.cores = [g] → (getPart s k).dbg = some d → d.cmds = [] → s.tide.frozen = false →
      twf Station.zero s.stations = true → partHeld s g = false → a.at_ ≤ (getNode s (panOf g)).steps → (getCore s g).r.st = .halt → badPointer (getCore s g) = none →
      ∃ t, exec (.dbgResumeCount c.part) s = .next t ∧ (getCore t g).r.st = .run ∧ (getStation t (stationOf g)).runTc = none ∧
        (getPart t k).runs = [{ a with cores := [], gone := a.gone ++ [g] }] ∧ ∀ h, h ≠ g → getCore t h = getCore s h) ∧
    (∀ T, g < numCores → s.tide.frozen = false → (getPan s (panOf g)).part = some k → (getPart s k).dbg.isSome = true → (getPart s k).runs = [] →
      (getStation s (stationOf g)).mask.getLsbD (posOf g) = true → (getStation s (stationOf g)).haltTc = some T →
      atOrBefore T (getNode s (panOf g)).steps = true → (getCore s g).r.st = .run → (getCore s g).x.phase3 = none →
      ∃ t, exec (.haltCountReached g) s = .next t ∧ getPart t k = getPart s k ∧
        getCore t g = { getCore s g with x := { (getCore s g).x with haltReq := true, fetch := .stopped } } ∧
        ∀ h, h ≠ g → getCore t h = getCore s h)

/-- The four operations of DBG_BREAK: operation code, whether the count is used, the bits of ARG2 and ARG3 that are, what a rake station takes
with the positions under it (20 R486). -/
def Sys2Proof.Claims.breakOp (c : Cmd) (x : Instr × Nat × Bool × Nat × Nat × (Station → BitVec 64 → Station)) : Prop :=
  x ∈ [(.dbgBreakSet c, 0, false, 7, 0x3FFF, fun t m => { t with bp := t.bp.set (bpNo c) (BitVec.ofNat 32 (argFld c 3 0 14 + 2 ^ 14)), mask := t.mask ||| m }),
       (.dbgBreakClear c, 1, false, 7, 0, fun t _ => { t with bp := t.bp.set (bpNo c) 0 }),
       (.dbgHaltCountSet c, 2, true, 3, 0, fun t m => { t with haltTc := some c.tc, mask := t.mask ||| m }),
       (.dbgHaltCountClear c, 3, false, 3, 0, fun t _ => { t with haltTc := none })]

/-- DBG_BREAK sets or clears a comparator or the halt count at the stations of the selected cores; with one core selected only its station
changes, by the core's own position. A comparator's address is a multiple of 4, and a halt count lies ahead (20 R486). -/
def Sys2Proof.Claims.BreakpointsAreSetAtTheStations : Prop :=
  ∀ (s s1 : State) (c : Cmd) (i : Instr) (op m2 m3 : Nat) (tc : Bool) (f : Station → BitVec 64 → Station) (l : List Nat),
    breakOp c (i, op, tc, m2, m3, f) → argFld c 2 0 2 = op → mayDebug c s s1 .read [.ready, .running, .held] →
    badForm c false tc false [3, 0xFFFFF, m2, m3] = false → badScope c = false → selCores s1 c = some l →
    (op = 0 → argFld c 3 0 2 = 0) → (op = 2 → isAhead s1 c.tc = true) →
    exec i s = .next (debugged 0x3C c false 0 s1 [] (atStations c f s1)) ∧
      ∀ g, l = [g] → atStations c f s1 = setStation s1 (stationOf g) (f (getStation s1 (stationOf g)) (BitVec.ofNat 64 (2 ^ posOf g)))

/-- DBG_RAKE reads bytes of the debug view of a core in HALT, FAULT or CLEAR to the host's buffer, or writes the buffer's bytes to the context
image of one in HALT or FAULT, the whole image being a restore; the log keeps the CRC of what was written; a core of a dark pan gives PAN_DARK.
DBG_LOG_READ gives log entries from a sequence number on, a tenant those of its own partitions (20 R489, R490, R496, R497; 17 R430). -/
def Sys2Proof.Claims.TheRakeAndTheLog : Prop :=
  ∀ (s s1 : State) (c : Cmd) (g : Nat),
    let off := argFld c 1 0 17
    let n := argFld c 2 0 17
    let x := getCore s1 g
    let bs := rakeBytes c
    let lost := { s1 with host := { s1.host with refused := (0x3D, (c.part : Nat), stPanDark) :: s1.host.refused } }
    (off % 32 = 0 → n % 32 = 0 → n ≠ 0 → imageCore s1 c.part (argFld c 0 0 20) = some g → n ≤ c.bufLen.toNat →
      (panLive s1 (panOf g) = false → ∀ j ∈ [(Instr.dbgRakeRead c, 0, Right.read), (.dbgRakeWrite c, 1, .write)], argFld c 3 0 1 = j.2.1 →
        badForm c false false true [0xFFFFF, 0x1FFFF, 0x1FFFF, j.2.1] = false → mayDebug c s s1 j.2.2 attachedSt → off + n ≤ imageLen →
        exec j.1 s = .next (answered c false s1 stPanDark []
          (logDebug 0x3D stPanDark c.part (getQp s1 c.qp).grant (arg c 0) (arg c 1) (arg c 2) 0 lost))) ∧
      (argFld c 3 0 1 = 0 → badForm c false false true [0xFFFFF, 0x1FFFF, 0x1FFFF, 0] = false → mayDebug c s s1 .read attachedSt → panLive s1 (panOf g) = true →
        [CoreSt.halt, .fault, .clear].contains x.r.st = true → off + n ≤ imageLen + 256 →
        exec (.dbgRakeRead c) s = .next (debugged 0x3D c false 0 s1 [(debugView s1 g off n).length]
          { setCore s1 g (rakeCount true off (debugView s1 g off n).length x) with
            host := { s1.host with out := s1.host.out ++ [⟨c.bufAddr.toNat, debugView s1 g off n⟩] } })) ∧
      (argFld c 3 0 1 = 1 → badForm c false false true [0xFFFFF, 0x1FFFF, 0x1FFFF, 1] = false → mayDebug c s s1 .write attachedSt → panLive s1 (panOf g) = true →
        [CoreSt.halt, .fault].contains x.r.st = true → off + n ≤ imageLen →
        exec (.dbgRakeWrite c) s = .next (debugged 0x3D c false (crc32c bs).toNat s1 [n]
          (setCore s1 g (rakeMark (envOf s1 g).now off n (if off = 0 ∧ n = imageLen then restoreImage bs x else imageWrite off bs x)))))) ∧
    (let q := getQp s1 c.qp
     let w := argFld c 2 0 12
     let mine := s1.log.filter (fun e => decide (arg c 0 + arg c 1 * 2 ^ 32 ≤ e.seq) && (decide (q.role = 1) || decide (e.tprin = q.prin)))
     goes c s s1 → badForm c true false true [all32, all32, 0xFFF] = false → q.role = 1 ∨ q.role = 2 → w ≠ 0 → 64 * w ≤ c.bufLen.toNat → mine.length ≤ w →
      exec (.dbgLogRead c) s = .next (debugged 0x40 c true 0 s1 [mine.length, s1.logSeq % 2 ^ 32, s1.logSeq / 2 ^ 32]
        { s1 with host := { s1.host with out := s1.host.out ++ [⟨c.bufAddr.toNat, mine.flatMap logBytes⟩] } }))

/-- DBG_SYNC on a core: a flag is set or cleared at a stopped core by the rake and otherwise by a message; a counter of a stopped core is written;
a running core's counter is advanced by a message (20 R491, R492; 09 R237). -/
def Sys2Proof.Claims.ManualReleaseOfCores : Prop :=
  ∀ (s s1 : State) (c : Cmd) (g : Nat),
    let k : Nat := c.part
    let kd := argFld c 0 0 4
    let x := getCore s1 g
    let f : Fin 64 := Fin.ofNat 64 (argFld c 2 0 6)
    let ch : Fin 16 := Fin.ofNat 16 (argFld c 2 0 4)
    let v : BitVec 16 := BitVec.ofNat 16 (argFld c 2 16 16)
    let sent := fun (b : MsgBody) => modDbg k (fun d => { d with cmds := d.cmds ++ [dbgCmd 0x3E c 0 [g] s1] }) (sendCore s1 k g b)
    let done := fun (y : Core) => debugged 0x3E c false 0 s1 [] (setCore s1 g y)
    let stopped := [CoreSt.halt, .fault].contains x.r.st
    imageCore s1 k (argFld c 1 0 20) = some g →
    (mayDebug c s s1 .sync [.running, .held] → badForm c false false false [15, 0xFFFFF, 0x3F] = false →
      (kd = 1 → exec (.dbgSyncSetFlag c) s = .next (if stopped then done { x with flags := setBit x.flags f true } else sent (.flagSet f))) ∧
      (kd = 2 → exec (.dbgSyncClearFlag c) s = .next (if stopped then done { x with flags := setBit x.flags f false } else sent (.flagClr f)))) ∧
    (mayDebug c s s1 .sync [.running, .held, .faulted] → badForm c false false false [15, 0xFFFFF, 0xFFFF000F] = false → stopped = true →
      (kd = 3 → exec (.dbgSyncWriteProducer c) s = .next (done { x with ch := x.ch.set ch (v, x.ch[ch].2) })) ∧
      (kd = 4 → exec (.dbgSyncWriteConsumer c) s = .next (done { x with ch := x.ch.set ch (x.ch[ch].1, v) }))) ∧
    (mayDebug c s s1 .sync [.running, .held] → badForm c false false false [15, 0xFFFFF, 0x7F] = false → [CoreSt.run, .hold].contains x.r.st = true →
      (kd = 5 → exec (.dbgSyncAdvanceProducer c) s = .next (sent (.chPut ch (argFld c 2 4 3 + 1)))) ∧
      (kd = 6 → exec (.dbgSyncAdvanceConsumer c) s = .next (sent (.chGet ch (argFld c 2 4 3 + 1)))))

/-- DBG_SYNC on the module's objects: the credit count of a channel's object is written; the current generation of a barrier is released at its
home, and the other modules are told (20 R492; 09 R233). -/
def Sys2Proof.Claims.ManualReleaseOfObjects : Prop :=
  ∀ (s s1 : State) (c : Cmd) (i : Nat) (x : Chan) (b : BarObj),
    let k : Nat := c.part
    mayDebug c s s1 .sync [.running, .held] →
    (argFld c 0 0 4 = 7 → badForm c false false false [15, 0x1FFFF, all32] = false → syncChan s1 c = some (i, x) →
      exec (.dbgSyncWriteCr c) s = .next (debugged 0x3E c false 0 s1 [] (setChan s1 i (some { x with cr := c.args[2] })))) ∧
    (argFld c 0 0 4 = 8 → badForm c false false false [15, 0xFF, 0] = false → barOf s1 k (argFld c 1 0 8) = some (i, b) → b.home = true →
      exec (.dbgSyncCompleteBarrier c) s = .next (debugged 0x3E c false 0 s1 []
        (sendCtrl 3 k (otherModules s1 k) [b.bnum, b.gen] (releaseBar i b s1))))

/-- DBG_RESET, CORE_RESET and CLUSTER_RESET zeroise the cores they name to CLEAR, DEFECT positions excepted, drop halt requests on their way to
them, and change no other core, where each core reads back as 0; the controller resets on its own in bring-up and in a FAULTED or EMPTY
partition alone (15 R388; 20 R493). -/
def Sys2Proof.Claims.ResetsClearTheirCores : Prop :=
  ∀ (s s1 : State) (c : Cmd) (l : List Nat) (g : Nat) (p : Fin 96) (cl : Fin 150),
    (mayDebug c s s1 .reset attachedSt → badForm c false false false [3, 0xFFFFF] = false → badScope c = false → argFld c 0 0 2 ≠ 2 →
      selCores s1 c = some l → exec (.dbgReset c) s = .next (debugged 0x3F c false 0 s1 [] (resetCores l s1))) ∧
    (g < numCores → exec (.coreReset g) s = .next (if mayReset s (panOf g) then resetCores [g] s else s)) ∧
    (mayReset s p = false → exec (.clusterReset p cl) s = .next s) ∧
    (mayReset s p = true → ∃ gs, exec (.clusterReset p cl) s = .next (resetCores gs s) ∧ (∀ x ∈ gs, panOf x = p ∧ clusterOf x = cl) ∧
      ∀ x, panOf x = p → clusterOf x = cl → getCore s x ≠ Core.zero → x ∈ gs) ∧
    (twf Core.zero s.cores = true → (∀ x ∈ s.stuck, l.contains x = false) → ∀ h, getCore (resetCores l s) h = if h ∈ l then zeroise (getCore s h) else getCore s h) ∧
    (∀ x : Core, x.r.st ≠ .defect → (zeroise x).r.st = .clear ∧ (zeroise x).s = Vector.replicate 32 0 ∧ (zeroise x).sram = [] ∧ (zeroise x).p = 1 ∧
      (zeroise x).r.fstat = 0 ∧ (zeroise x).r.actFlit = x.r.actFlit ∧ (zeroise x).r.sramCe = x.r.sramCe)

/-- A READ context that runs, with a tile left whose gate is open and whose slot, at stack byte a, is mapped (12 R294 to R297). -/
def Sys2Proof.Claims.readsAt (s : State) (e : Fin 48) (c : Fin 64) (a : Nat) : Prop :=
  let x := getCtx s e c
  let d := getDesc s e x.idx
  x.st = .run ∧ sdKind d = 1 ∧ s.tide.frozen = false ∧ x.k < sdCount d x.r ∧ gateOpen s e d x.k = true ∧
    slotAddr s (x.part.getD 0) e (sdSlot d x.k) = some a

/-- STREAM_READ_TILE of a READ context whose first reading has no uncorrectable line and a CRC that agrees: a tile of a valid header, not N:M
packed, that fits waits at the edge link of its route, TAG and EP rewritten; an N:M tile that decodes goes out dense; the lines are counted,
the tile is folded where the descriptor says so and P is 0, and the context moves past it (12 R294 to R297, R301; 08 R205). -/
def Sys2Proof.Claims.StreamReadsEmitTheTile : Prop :=
  ∀ (s : State) (e : Fin 48) (c : Fin 64) (bad2 : Bool) (ce1 ce2 : Fin 66) (a : Nat),
    let x := getCtx s e c
    let d := getDesc s e x.idx
    let k := x.part.getD 0
    let key := (getPart s k).xts
    let h : Row := ofBytes 256 (memRead s e key a 32)
    let pay := memRead s e key (a + 32) (32 * hUnits h)
    let s1 := countEcc e ce1 0 (countLines e k (ceilDiv (32 * (hUnits h + 1)) 64) false s)
    let out := fun (h' : Row) (pay' : List Byte) =>
      let s2 := inject k d (h' :: rowsOf 129 pay') s1
      advance e c true (if sdDig d && !hP h then foldTile s2 e c h false else s2)
    let packed := hC h && decide (leAt pay 0 1 % 16 = 2)
    readsAt s e c a → slotWritten s e key a = true → tileCrc h pay = hCrc h → headerValid h = true →
    (packed = false → hUnits h ≤ sdEntm1 d → exec (.streamReadTile e c ⟨false, ce1⟩ ⟨bad2, ce2⟩) s = .next (out h pay)) ∧
    (∀ codes scs f, packed = true → nmDecode h pay = .ok (codes, scs) → hTile h = some f → hUnits (nmEmit h f codes scs).1 ≤ sdEntm1 d →
      exec (.streamReadTile e c ⟨false, ce1⟩ ⟨bad2, ce2⟩) s = .next (out (nmEmit h f codes scs).1 (nmEmit h f codes scs).2))

/-- A reading with an uncorrectable line or a wrong CRC is made once more, which SE_REFETCH counts where it helps; failing again, or with a
header that is not valid or a tile that does not fit, the context emits a substitute and faults with POISON, FORMAT or BOUNDS. An N:M tile
that does not decode goes out as a tile of zeros with P set, its TILE_ID is reported, and the job ends (12 R297, R298; 08 R205, R206). -/
def Sys2Proof.Claims.StreamReadsThatFail : Prop :=
  ∀ (s : State) (e : Fin 48) (c : Fin 64) (bad1 bad2 : Bool) (ce1 ce2 : Fin 66) (a : Nat),
    let x := getCtx s e c
    let d := getDesc s e x.idx
    let k := x.part.getD 0
    let key := (getPart s k).xts
    let h : Row := ofBytes 256 (memRead s e key a 32)
    let pay := memRead s e key (a + 32) (32 * hUnits h)
    let lines := ceilDiv (32 * (hUnits h + 1)) 64
    let good := slotWritten s e key a = true ∧ tileCrc h pay = hCrc h
    let s1 := countEcc e ce1 0 (countLines e k lines false s)
    let twice := fun (ue : Nat) => countEcc e (ce1 + (ce2 : Nat)) ue (countLines e k (lines + lines) false s)
    let sub := fun (code : Nat) (s : State) => ctxFault e c code (inject k d [substHeader e (d.getLsbD 11), 0] s)
    let packed := hC h && decide (leAt pay 0 1 % 16 = 2)
    let i := Instr.streamReadTile e c ⟨bad1, ce1⟩ ⟨bad2, ce2⟩
    readsAt s e c a →
    (bad2 = true → (bad1 = true ∨ ¬ good) → exec i s = .next (sub stPoison (twice (bad1.toNat + 1)))) ∧
    (bad2 = false → ¬ good → exec i s = .next (sub stPoison (twice bad1.toNat))) ∧
    (bad1 = true → bad2 = false → good → headerValid h = true → packed = false → hUnits h ≤ sdEntm1 d →
      exec i s = .next (let s2 := inject k d (h :: rowsOf 129 pay) (countRefetch e (twice 1))
        advance e c true (if sdDig d && !hP h then foldTile s2 e c h false else s2))) ∧
    (bad1 = false → good → headerValid h = false → exec i s = .next (sub stFormat s1)) ∧
    (bad1 = false → good → headerValid h = true → packed = false → sdEntm1 d < hUnits h → exec i s = .next (sub stBounds s1)) ∧
    (bad1 = false → good → headerValid h = true → packed = true → ∀ err, nmDecode h pay = .error err →
      let code := match err with | .format => stFormat | .bounds => stBounds
      exec i s = .next (reportSe [e, (hTileId h).toNat] e c code (advance e c true (recordSe e c code
        (inject k d ((poisonDense h).1 :: rowsOf 129 (poisonDense h).2) s1)))))

/-- A WRITE context that runs, on a wafer that is not held, with flit f of its spill route at its edge link (12 R299). -/
def Sys2Proof.Claims.spillsAt (s : State) (e : Fin 48) (c : Fin 64) (g : Nat) (side : Fin 4) (f : Flit) : Prop :=
  let x := getCtx s e c
  let d := getDesc s e x.idx
  sdKind d = 2 ∧ s.tide.frozen = false ∧ spillHead s (x.part.getD 0) (sdRoute d) = some (g, side, f)

/-- STREAM_WRITE_TILE of a WRITE context in RUN takes the oldest entry of its spill route from the edge link, whose credit goes back: an entry
that passes its checks joins the tile, or with LAST has the whole tile stored and folded and the context moved on; one that fails has the
substitute stored, the context faults, and entries up to the next FIRST are discarded (12 R299 to R301). -/
def Sys2Proof.Claims.StreamWritesStoreTheTile : Prop :=
  ∀ (s : State) (e : Fin 48) (c : Fin 64) (g : Nat) (side : Fin 4) (f : Flit), spillsAt s e c g side f →
    let x := getCtx s e c
    let d := getDesc s e x.idx
    let k := x.part.getD 0
    let r := sdRoute d
    let buf := (getPart s k).spillBuf.getD r []
    let s1 := takeSpill g side f s
    (x.st = .run → (sbFirst f.ent.sb = false ∨ buf = []) →
      (spillFault d buf f.ent = none → sbLast f.ent.sb = false → exec (.streamWriteTile e c) s = .next (setSpill k r (buf ++ [f.ent]) s1)) ∧
      (spillFault d buf f.ent = none → sbLast f.ent.sb = true →
        exec (.streamWriteTile e c) s = .next (storeTile e c (buf ++ [f.ent]) (setSpill k r [] s1))) ∧
      (∀ code, spillFault d buf f.ent = some code → exec (.streamWriteTile e c) s = .next (spillFail e c code (setSpill k r [] s1)))) ∧
    (x.st = .run → sbFirst f.ent.sb = true → buf ≠ [] → exec (.streamWriteTile e c) s = .next (spillFail e c stFormat (setSpill k r [] s))) ∧
    (x.st = .fault → x.skip = true → sbFirst f.ent.sb = false → exec (.streamWriteTile e c) s = .next s1)

/-- What is stored of a spilled tile is its header, with P set where its CRC disagrees, and its payload; the tile is folded where the
descriptor says so, the context moves past it, and a stop that waited for it takes effect. An entry is checked for FIRST, a valid header and
its length at the first, and for LAST at each (12 R296, R299 to R301). -/
def Sys2Proof.Claims.SpilledTilesAreCheckedAndStored : Prop :=
  ∀ (s : State) (e c : Nat) (buf : List QEntry) (d : BitVec 256) (q en : QEntry),
    let x := getCtx s e c
    let h := q.data
    let pay := bytesOfRows (buf.map QEntry.data)
    let s1 := writeSlot e c (if tileCrc h pay = hCrc h then h else setBit h 10 true) pay s
    let s2 := advance e c true (if sdDig (getDesc s e x.idx) then foldTile s1 e c h true else s1)
    storeTile e c (q :: buf) s = (if (getCtx s2 e c).stopping = true ∧ (getCtx s2 e c).st ≠ .done then setCtx s2 e c (getCtx s2 e c).stopped else s2) ∧
    (spillFault d [] en = none ↔ sbFirst en.sb = true ∧ headerValid en.data = true ∧ hUnits en.data ≤ sdEntm1 d ∧ sbLast en.sb = false) ∧
    (sbFirst en.sb = true → headerValid en.data = true → sdEntm1 d < hUnits en.data → spillFault d [] en = some stBounds) ∧
    (spillFault d (q :: buf) en = if sbLast en.sb = decide (buf.length + 1 = hUnits h) then none else some stFormat)

/-- CXL_MEM_READ answers 64 bytes with a poison mark: zeros where no window is open to the source, which the stack counts, else the line as
stored in a PLAIN window and as AES-256-XTS ciphertext of the slot in a RAW one; the stack leaves self refresh, and a corrected or
uncorrectable line is counted, the latter answered as poison (12 R289 to R292; 14 R335, R337; 18 R450). -/
def Sys2Proof.Claims.HostReadsAnswerALine : Prop :=
  ∀ (s : State) (a : Nat) (src : BitVec 12) (ue ce : Bool),
    (hostWindow s (a / 64 * 64) src.toNat = none →
      exec (.cxlMemRead a src ⟨ue, ce⟩) s = .next (say 1 (List.replicate 65 0) (deny (a / 64 * 64) s))) ∧
    (∀ e off k n byte, hostWindow s (a / 64 * 64) src.toNat = some (e, off, k, n, byte) →
      let p := getPart s k
      let line := memRead s e p.xts off 64
      let bs := if p.window.raw then
        (List.range 4).flatMap (fun j => xtsEnc (pairOf p.xts) (tweakOf e n) (byte / 16 + j) ((line.drop (16 * j)).take 16)) else line
      (ue = false → ce = false → exec (.cxlMemRead a src ⟨ue, ce⟩) s = .next (say 1 (0 :: bs) (countEcc e 0 0 (touch e s)))) ∧
      (ue = false → ce = true → exec (.cxlMemRead a src ⟨ue, ce⟩) s = .next (say 1 (0 :: bs) (countEcc e 1 0 (touch e s)))) ∧
      (ue = true → exec (.cxlMemRead a src ⟨ue, ce⟩) s = .next (say 1 (1 :: bs) (countEcc e 0 1 (touch e s)))))

/-- CXL_MEM_WRITE writes the masked bytes of a line through a PLAIN window that allows it, and whole 16 B blocks, decrypted, through a RAW
one, and no other byte of any stack; through a window that is closed to the source, or allows no write, or for part of a block, it writes
nothing and is counted (12 R290, R291; 16 R414). -/
def Sys2Proof.Claims.HostWritesStoreTheMaskedBytes : Prop :=
  ∀ (s : State) (a : Nat) (src : BitVec 12) (mask : BitVec 64) (line : List Byte), s.tablesWf = true →
    (hostWindow s (a / 64 * 64) src.toNat = none → exec (.cxlMemWrite a src mask line) s = .next (deny (a / 64 * 64) s)) ∧
    (∀ e off k n byte, hostWindow s (a / 64 * 64) src.toNat = some (e, off, k, n, byte) →
      let p := getPart s k
      let part := ∃ j, j < 4 ∧ fld mask (16 * j) 16 ≠ 0 ∧ fld mask (16 * j) 16 ≠ 0xFFFF
      (p.window.wr = false → exec (.cxlMemWrite a src mask line) s = .next (deny (a / 64 * 64) s)) ∧
      (p.window.wr = true → p.window.raw = false →
        ∃ t, exec (.cxlMemWrite a src mask line) s = .next t ∧
          (∀ x, tget ⟨0, 0⟩ (stackMem t e) x = if off ≤ x ∧ x < off + 64 ∧ mask.getLsbD (x - off) = true
            then ⟨line.getD (x - off) 0, p.xts⟩ else tget ⟨0, 0⟩ (stackMem s e) x) ∧
          (∀ j, j ≠ e → stackMem t j = stackMem s j) ∧ { t with pmem := s.pmem, engs := s.engs } = s) ∧
      (p.window.wr = true → p.window.raw = true → part → exec (.cxlMemWrite a src mask line) s = .next (deny (a / 64 * 64) s)) ∧
      (p.window.wr = true → p.window.raw = true → ¬ part →
        ∃ t, exec (.cxlMemWrite a src mask line) s = .next t ∧
          (∀ x, tget ⟨0, 0⟩ (stackMem t e) x = if off ≤ x ∧ x < off + 64 ∧ mask.getLsbD (x - off) = true
            then ⟨(padTo 16 (xtsDec (pairOf p.xts) (tweakOf e n) (byte / 16 + (x - off) / 16)
              ((line.drop (16 * ((x - off) / 16))).take 16))).getD ((x - off) % 16) 0, p.xts⟩ else tget ⟨0, 0⟩ (stackMem s e) x) ∧
          (∀ j, j ≠ e → stackMem t j = stackMem s j) ∧ { t with pmem := s.pmem, engs := s.engs } = s))

/-- A trained stack enters self refresh in park, takes a polled temperature, and doubles its refresh rate above 85 °C; a read of
SE_CTX_DATA moves SE_CTX_ADDR on (18 R450; 12 R304, Table 12-1). -/
def Sys2Proof.Claims.StacksRefreshAndReport : Prop :=
  ∀ (s : State) (e : Fin 48) (temp : Byte),
    let x := getEng s e
    (x.trained = true → s.power.parked = true → s.power.waking = false →
      exec (.selfRefreshEntry e) s = .next (setEng s e { x with selfRef := true })) ∧
    (x.trained = true → exec (.stackTemperaturePoll e temp) s = .next (setEng s e { x with temp := temp.toNat, fast := decide (85 < temp.toNat) })) ∧
    (x.trained = false → exec (.selfRefreshEntry e) s = .next s ∧ exec (.stackTemperaturePoll e temp) s = .next s) ∧
    exec (.seCtxData e) s = .next (setEng s e { x with ctxAddr := (x.ctxAddr + 1) % 8 })

/-- STREAM_START runs an ARMED or DONE context from its first descriptor, which may wait for the host; STREAM_RELEASE lets a waiting one
run; STREAM_STOP takes one back to ARMED, at once, or once the tile that its spill route has begun is stored (12 R296, Table 12-3). -/
def Sys2Proof.Claims.StreamCommandsMoveTheContext : Prop :=
  ∀ (s s1 : State) (c : Cmd), goes c s s1 →
    let e := argEng c
    let n := argCtx c
    let x := getCtx s1 e n
    badForm c false false false [0x3F3F] = false → isT s1 c = true → inSt s1 c [.ready, .running, .held] = true → e < 48 →
    x.part = some (c.part : Nat) →
    (x.st = .armed ∨ x.st = .done → exec (.streamStart c) s = .next (answered c false s1 stOK [] (setCtx s1 e n { x with
      idx := x.first, k := 0, r := 0, stopping := false, st := if sdHwait (getDesc s1 e x.first) then .wait else .run }))) ∧
    (x.st = .wait → exec (.streamRelease c) s = .next (answered c false s1 stOK [] (setCtx s1 e n { x with st := .run }))) ∧
    (x.st = .run ∨ x.st = .wait → midTile s1 e x = false →
      exec (.streamStop c) s = .next (answered c false s1 stOK [] (setCtx s1 e n { x with
        st := .armed, idx := x.first, k := 0, r := 0, stopping := false }))) ∧
    (x.st = .run → midTile s1 e x = true →
      exec (.streamStop c) s = .next (answered c false s1 stOK [] (setCtx s1 e n { x with stopping := true })))

/-- STREAM_DRAIN of a RUNNING or HELD partition stops its READ contexts, notes the spill routes whose tile has begun, and waits, 2^24 steps
where ARG1 is 0; it completes with OK once those tiles are written, and with TIMEOUT once the steps have passed (12 R303; 14 R352). -/
def Sys2Proof.Claims.DrainsWaitForTheSpills : Prop :=
  ∀ (s s1 : State) (c : Cmd) (k : Fin 32) (l : Long),
    (goes c s s1 → badForm c false false false [0, all32] = false → isT s1 c = true → inSt s1 c [.running, .held] = true →
      longBusy s1 c = false →
      ∃ t, exec (.streamDrain c) s = .next t ∧ (getPart t c.part).long = some (longOf .drain c [if arg c 1 = 0 then 16777216 else arg c 1] [] s1) ∧
        (∀ i, i ∈ (getPart t c.part).drainOf ↔ ∃ b, (getPart s1 c.part).spillBuf[i]? = some b ∧ b ≠ []) ∧
        t.engs = (stopReads c.part s1).engs ∧ t.cores = s1.cores ∧ t.pmem = s1.pmem) ∧
    ((getPart s k).long = some l → l.kind = .drain →
      (exec (.streamDrainComplete k) s = .next (if (getPart s k).drainOf = [] then completeLong k stOK [] s else s)) ∧
      (exec (.streamDrainTimeout k) s = .next (if l.at_ + l.nums.getD 0 0 ≤ north s then completeLong k stTimeout [] s else s)))

/-- LINK_BLOCK_RECEIVE on a port that is UP or in RETRY: a block that is not intact advances the CRC count and sets NAK; an intact one
out of sequence, or none of a replay after a NAK, sets NAK alone; one in sequence is accepted: NAK clears, its acknowledgement takes
blocks from the replay buffer, its credits come back, and its 500 bytes fill the packet that is coming in. The port answers a NAK with its
replay and any other block with one of its own; the FEC counts advance (13 R305, R309 to R311). -/
def Sys2Proof.Claims.LinkBlocksAreTakenInOrder : Prop :=
  ∀ (s : State) (p : Fin 48) (block : List Byte) (ce ue : Byte),
    let x0 := getPort s p
    let x := { x0 with fecCe := x0.fecCe + ce.setWidth 32, fecUe := x0.fecUe + ue.setWidth 32 }
    let c : BitVec 64 := BitVec.ofNat 64 (leAt block 0 8)
    let intact := decide (block.length = 512) && decide ((crc32c (block.take 508)).toNat = leAt block 508 4)
    let want := match x.back with | some n => (n + 1) % 4096 | none => 0
    let v : Fin 8 := Fin.ofNat 8 (fld c 41 3)
    let i := Instr.linkBlockReceive p ⟨block, ce, ue⟩
    (x0.st ≠ 2 → x0.st ≠ 3 → exec i s = .next s) ∧
    (x0.st = 2 ∨ x0.st = 3 →
      (intact = false → exec i s = .next (setPort s p (controlBlock { x with
        crc := x.crc + 1, nak := true, nakAt := if x.nak then x.nakAt else s.time }))) ∧
      (intact = true → (fld c 0 12 ≠ want ∨ (x.nak = true ∧ c.getLsbD 25 = false)) →
        exec i s = .next (setPort s p (controlBlock { x with nak := true, nakAt := if x.nak then x.nakAt else s.time }))) ∧
      (intact = true → fld c 0 12 = want → (x.nak = false ∨ c.getLsbD 25 = true) →
        let old := fun (q : Nat) => c.getLsbD 26 && decide ((fld c 12 12 + 4096 - q) % 4096 < 2048)
        let s1 := recovered p (setPort s p (feed ((block.drop 8).take 500) { x with
          back := some want
          nak := false
          nakAt := if c.getLsbD 25 then x.nakAt else 0
          replay := x.replay.filter (fun b => !old b.1)
          heads := x.heads.filter (fun h => !old h.1)
          cred := if c.getLsbD 44 then x.cred.set v (x.cred[v] + fld c 48 16) else x.cred }))
        exec i s = .next (if c.getLsbD 24 then naked p s1 else setPort s1 p (controlBlock (getPort s1 p)))))

/-- A port owes its partner a block for every block: while its replay buffer holds fewer than 512 it sends one of idle words with the next
sequence and keeps it, else one that repeats the last sequence; a NAK has the whole replay buffer sent again in order, and at the second
attempt of an episode puts the port into RETRY, of which the sources concerned are told (13 R309 to R311, R329). How a port answers each
block is the model's choice (log 116). -/
def Sys2Proof.Claims.PortsAnswerAndReplay : Prop :=
  ∀ (s : State) (x : Port) (p : Nat),
    (x.replay.length < 512 → (controlBlock x).replay = x.replay ++ [(x.bseq, 511, [])] ∧ (controlBlock x).bseq = (x.bseq + 1) % 4096) ∧
    (512 ≤ x.replay.length → (controlBlock x).replay = x.replay ∧ (controlBlock x).bseq = x.bseq) ∧
    (controlBlock x).sent.length = x.sent.length + 1 ∧
    (x.st ≠ 0 → getPort s p = x →
      (x.episode = none → (getPort (naked p s) p).retries = x.retries + 1 ∧ (getPort (naked p s) p).st = x.st) ∧
      (∀ t b, x.episode = some (t, 1, b) → (getPort (naked p s) p).st = 3 ∧ (getPort (naked p s) p).episode = some (t, 2, b)) ∧
      (getPort (naked p s) p).sent.length = x.sent.length + x.replay.length)

/-- A training port comes UP with fresh sequences, all lanes and 1,040 credits a channel, or with a failed lane DOWN; a DOWN port that does
not wait for the reference is UP again or FAILED; a DOWN or FAILED one is made to train; a disabled port stands in OFF, and trains again
where it is licensed. After eight attempts or 10 µs of an episode a port goes DOWN, at the third exhaustion in 1 s FAILED, and its replay
buffer is empty (13 R306 to R308, R311; 01 R15, R21; 15 R371). -/
def Sys2Proof.Claims.PortsTrainFailAndRetrain : Prop :=
  ∀ (s : State) (p : Fin 48) (lanes : Byte) (rtt : BitVec 16) (t n b : Nat),
    let x := getPort s p
    let up := { x with
      st := 2, lanes := 0xFF#8, rtt := rtt.toNat, bseq := 0, replay := [], back := none, nak := false, nakAt := 0, episode := none,
      noticed := [], refDown := false, cred := Vector.replicate 8 1040, ret := Vector.replicate 8 0, rx := [], heads := [],
      buf := x.buf.filter (fun b => decide (b.need = 0)) }
    (x.st = 1 → s.tide.locked = true → lanes = 0xFF → exec (.portTrained p ⟨lanes, rtt⟩) s = .next (fixRefDown (setPort s p up))) ∧
    (x.st = 1 → s.tide.locked = true → lanes ≠ 0xFF →
      exec (.portTrained p ⟨lanes, rtt⟩) s = .next (fixRefDown (setPort s p { x with st := 4, lanes := lanes, refDown := false }))) ∧
    ((x.st ≠ 1 ∨ s.tide.locked = false) → exec (.portTrained p ⟨lanes, rtt⟩) s = .next s) ∧
    (x.st = 4 → x.refDown = false →
      exec (.portRetrainDone p (some rtt)) s = .next (setPort s p up) ∧
      exec (.portRetrainDone p none) s = .next (watch 2 (setPort s p { x with st := 5 }))) ∧
    ((x.st = 4 ∨ x.st = 5) → x.refDown = false → exec (.portCtrlRetrain p) s = .next (setPort s p { x with st := 1, lost := [] })) ∧
    (exec (.portCtrlDisable p true) s = .next (setPort (losePort p s) p { getPort (losePort p s) p with st := 0, lanes := 0, disable := true })) ∧
    (x.st = 0 → exec (.portCtrlDisable p false) s = .next (setPort s p { x with
      disable := false, st := if portOn (licPorts s) p ∧ s.boot.p1 = true then 1 else 0 })) ∧
    (x.episode = some (t, n, b) → (8 ≤ n ∨ t + 10000000 ≤ s.time) → s.tablesWf = true →
      let times := s.time :: recent s hour x.lost
      ∃ u, exec (.retryExhausted p) s = .next u ∧
        (getPort u p).st = (if 3 ≤ (times.filter (fun z => decide (s.time < z + 1000000000000))).length then 5 else 4) ∧
        (getPort u p).lanes = 0 ∧ (getPort u p).exhaust = min 0xFFFF (x.exhaust + 1) ∧ (getPort u p).lost = times ∧
        (getPort u p).replay = [] ∧ (getPort u p).heads = [] ∧ (getPort u p).episode = none)

/-- PACKET_HEADER_ARRIVAL with a whole header accepted and no packet still coming in: a legal header with the router enabled is
buffered for its output, for an endpoint of this module, or to be dropped with its counter advanced, or with PATH_LOST to its source
where the output is down; one of another version, type or with a reserved bit is dropped and counted as HDR (13 R313, R323, R324, R329). -/
def Sys2Proof.Claims.HeadersAreRoutedOrDropped : Prop :=
  ∀ (s : State) (p : Fin 48),
    let x := getPort s p
    let rx := skipIdle (x.rx.length + 1) x.rx
    let h0 := parseHeader (rx.take 32)
    let h := { h0 with age := h0.age + (if x.nakAt = 0 then 0 else ceilDiv (s.time - x.nakAt) 100000) }
    let put := fun (out : Option Nat) (s : State) => setPort s p (feed (rx.drop 32)
      { getPort s p with rx := [], rxPkt := (getPort s p).rxPkt + 1, buf := (getPort s p).buf ++ [⟨h, out, s.time, bodyLen h⟩] })
    (∀ b, x.buf.getLast? = some b → b.need = 0) → 32 ≤ rx.length →
    (h.ver ≠ 1 ∨ h.typ = 0 ∨ 4 < h.typ ∨ h.resv = true → exec (.packetHeaderArrival p) s = .next (put (some 48) (bump 0 s))) ∧
    (h.ver = 1 → 1 ≤ h.typ → h.typ ≤ 4 → h.resv = false →
      (258 < h.len ∨ (h.len = 0 ∧ (h.typ = 1 ∨ h.typ = 4)) → exec (.packetHeaderArrival p) s = .next (notice 4 p h (put (some 48) (bump 1 s)))) ∧
      (h.len ≤ 258 → (h.len = 0 → h.typ ≠ 1 ∧ h.typ ≠ 4) → s.fab.en = false → exec (.packetHeaderArrival p) s = .next (put (some 48) s)) ∧
      (h.len ≤ 258 → (h.len = 0 → h.typ ≠ 1 ∧ h.typ ≠ 4) → s.fab.en = true →
        exec (.packetHeaderArrival p) s = .next (match wayOf s h with
          | .lost i => put (some 48) (bump i s)
          | .down q => notice 3 q h (put (some 48) s)
          | .here => put none s
          | .out q _ => put (some q) s)))

/-- PACKET_DEPARTURE on an enabled router's port that is UP or in RETRY: the packet it serves next leaves its buffer or its endpoint's
queue, its units are taken from the credits of its virtual channel, AGE has grown by its stay and the link's delay, and its blocks are
sent and kept for replay; one that is past its lifetime is dropped and counted (13 R309, R310, R316, R317, R323). -/
def Sys2Proof.Claims.PacketsDepartInTurn : Prop :=
  ∀ (s : State) (p : Fin 48) (c : Cand),
    let s1 := settleEps (sink (flushCtrl s))
    let x := getPort s1 p
    let age := c.p.age + ceilDiv (s1.time - (match c.b with | some b => b.at_ | none => s1.time)) 100000 + ceilDiv (ceilDiv x.rtt 2) 100
    let s2 := match c.b with
      | some b => drain c.src b s1
      | none => setEp s1 (c.src - 48) { getEp s1 (c.src - 48) with outq := (getEp s1 (c.src - 48)).outq.drop 1 }
    let y := getPort s2 p
    let v : Fin 8 := Fin.ofNat 8 c.vc
    s1.fab.en = true → (x.st = 2 ∨ x.st = 3) → pickCand x.turns x.vcTurn (cands s1 p) = some c →
    x.replay.length + ceilDiv (32 + bodyLen c.p) 500 ≤ 512 →
    (1000 < age → exec (.packetDeparture p) s = .next (bump 3 s2)) ∧
    (age ≤ 1000 → exec (.packetDeparture p) s = .next (setPort s2 p (sendBlocks { y with
      cred := y.cred.set v (y.cred[v] - unitsOf c.p)
      turns := y.turns.set v ((c.src + 1) % 304)
      vcTurn := if c.vc < 3 then y.vcTurn else (c.vc - 2) % 5 } { c.p with vc := c.vc, age := age })))

/-- The egress unit takes the next entry of its route from the edge, one in a step of the rim, whose credit goes back, and with the token
whole and a credit in hand sends it as one encrypted DATA packet of the next sequence, of which it keeps a copy; a token of more than 258
entries ends the job with BOUNDS. The ingress unit injects the next entry of the packet in sequence, its endpoint one in a step, and with
its last one frees the buffer and returns the credit (09 R229; 13 R312, R313, R324, R326, R327, R330, R331). -/
def Sys2Proof.Claims.ChannelsCarryTokens : Prop :=
  ∀ (s : State) (i : Fin 4096) (c : Chan), getChan s i = some c → c.stop = false → s.tide.frozen = false →
    let ed := getEdge s c.edge
    let ep := getEp s c.ep
    let now := edgeSteps s c.edge
    (c.recv = false → s.fab.en = true →
      ((∀ e, c.tok.getLast? = some e → sbLast e.sb = false) → ep.outAt = some now → exec (.egressTokenSend i) s = .next s) ∧
      (∀ f, (∀ e, c.tok.getLast? = some e → sbLast e.sb = false) → ep.outAt ≠ some now → ed.inp.find? (fun f => decide (f.rt = c.tag)) = some f →
        exec (.egressTokenSend i) s = .next (setChan (crossIn (setEdge (setEp s c.ep { ep with outAt := some now }) c.edge { ed with inp := ed.inp.erase f })
          (c.edge / 4) (Fin.ofNat 4 (c.edge % 4)) (getNode s (96 + c.edge % 4)).steps .credit) i (some { c with tok := c.tok ++ [f.ent] }))) ∧
      (∀ q0 rest q, c.tok = q0 :: rest → c.tok.getLast? = some q → sbLast q.sb = true →
        (258 < c.tok.length → exec (.egressTokenSend i) s = .next (recordFault c.part stBounds 4 (c.ep + (i : Nat) * 256) 0 false
          (bump 1 (setChan s i (some { c with tok := [] }))))) ∧
        (c.tok.length ≤ 258 → c.cr.toInt < 1 → exec (.egressTokenSend i) s = .next s) ∧
        (c.tok.length ≤ 258 → 1 ≤ c.cr.toInt → ∃ t p, exec (.egressTokenSend i) s = .next t ∧
          getChan t i = some { c with cr := c.cr - 1, tok := [], next := c.next + 1, tx := c.tx ++ [⟨c.next, p, false, s.time, 0⟩] } ∧
          p.typ = 1 ∧ p.len = c.tok.length ∧ p.dst = c.peer ∧ p.src = s.modnum * 256 + c.ep ∧ p.chn = c.chn ∧ p.enc = true ∧
          p.seq = c.next % 2 ^ 32 ∧ p.tag = sbTag q0.sb ∧ p.tep = sbEp q0.sb ∧ p.epoch = s.fab.inj ∧
          p.body = gcmSeal ((getPart s c.part).jk.getD 0) (ivOf p c.next) (aadOf p) (bytesOfRows (c.tok.map QEntry.data)) ∧
          (p.dst / 256 ≠ s.modnum → (getEp t c.ep).outq = ep.outq ++ [p])))) ∧
    (c.recv = true →
      (ep.inAt = some now → exec (.ingressDelivery i) s = .next s) ∧
      ∀ r, ep.inAt ≠ some now → c.rx.find? (fun r => decide (r.eseq = c.out)) = some r →
        let s1 := setEdge (setEp s c.ep { ep with inAt := some now }) c.edge
          { ed with send := ed.send ++ [⟨c.tag, ⟨r.ents.getD r.sent 0, tokSb r.tag r.tep r.sent r.ents.length⟩⟩] }
        (r.sent + 1 < r.ents.length → exec (.ingressDelivery i) s = .next (setChan s1 i (some { c with
          rx := c.rx.map (fun q => if q.eseq = r.eseq then { q with sent := q.sent + 1 } else q) }))) ∧
        (r.ents.length ≤ r.sent + 1 → (c.bufm1 : Int) + 1 < c.cr.toInt + 1 → exec (.ingressDelivery i) s = .next (creditFault true i c s1)) ∧
        (r.ents.length ≤ r.sent + 1 → c.cr.toInt + 1 ≤ (c.bufm1 : Int) + 1 →
          exec (.ingressDelivery i) s = .next (sendXport c.ep c.peer c.chn c.next 1 (setChan s1 i (some { c with
            cr := c.cr + 1, out := c.out + 1, rx := c.rx.filter (fun q => decide (q.eseq ≠ r.eseq)) })))))

/-- DATA_PACKET_ARRIVAL: a DATA packet in its lifetime, of a channel of the endpoint and a sequence not yet seen, encrypted, whose AES-256-GCM
tag agrees, takes a buffer and its credit and is acknowledged; a tag that does not agree, or none, ends the job with AUTH, a credit that is
not there, with no buffer ready to be released before it, with SYNC_FAULT; one seen before is counted and acknowledged again
(13 R323, R325, R326, R331; 09 R229, R230). That a buffer ready to be released is, is the model's choice (log 106). -/
def Sys2Proof.Claims.DataPacketsTakeABuffer : Prop :=
  ∀ (s s1 : State) (ep : Byte) (p : Packet) (i : Nat) (c : Chan),
    let e := ep.toNat
    let n := nearest c.next p.seq
    let seen := decide (n < c.next) || c.rx.any (fun r => decide (r.eseq = n))
    takeInq e (fun p => decide (p.typ = 1) || decide (p.typ = 4)) s = some (p, s1) →
    (1000 < p.age → exec (.dataPacketArrival ep) s = .next (bump 3 s1)) ∧
    (p.age ≤ 1000 → p.typ = 1 → chanOf s1 true e p.src p.chn = none → exec (.dataPacketArrival ep) s = .next (bump 6 s1)) ∧
    (p.age ≤ 1000 → p.typ = 1 → chanOf s1 true e p.src p.chn = some (i, c) → getChan s1 i = some c →
      (seen = true → exec (.dataPacketArrival ep) s = .next (sendXport e c.peer c.chn c.next 0 (bump 7 s1))) ∧
      (seen = false → p.enc = false → exec (.dataPacketArrival ep) s = .next (authFail c.part e i s1)) ∧
      (seen = false → p.enc = true → exec (.dataPacketArrival ep) s = .next
        (match gcmOpen ((getPart s1 c.part).jk.getD 0) (ivOf p n) (aadOf p) p.body with
        | none => authFail c.part e i s1
        | some bs =>
          if c.cr.toInt < 1 then (if releaseDue c then accept i n p bs (ingress i s1) else creditFault false i c s1)
          else
            let rx := c.rx ++ [⟨n, p.tag, p.tep, rowsOf 258 bs, 0⟩]
            let next := nextSeq (rx.length + 1) (rx.map RxBuf.eseq) c.next
            modMeter (sendXport e c.peer c.chn next 0 (setChan s1 i (some { c with cr := c.cr - 1, rx := rx, next := next })))
              c.part (fun m => { m with units := m.units + unitsOf p }))))

/-- XPORT: a sender drops the copies up to the sequence acknowledged and takes the credits returned; more than the channel has are a
SYNC_FAULT; the copies of CTRL packets at endpoint 0 go the same way (13 R327, R332; 09 R229). -/
def Sys2Proof.Claims.AcknowledgementsReturnCredits : Prop :=
  ∀ (s s1 : State) (ep : Byte) (p : Packet), takeInq ep.toNat (fun p => decide (p.typ = 2)) s = some (p, s1) → p.age ≤ 1000 →
    (ep = 0 → p.chn = 0xFFFF → exec (.xport ep) s = .next { s1 with fab := { s1.fab with sends := s1.fab.sends.map (fun q =>
      if q.peer = p.src / 256 then { q with tx := q.tx.filter (fun t => decide (nearest q.next p.arg0 ≤ t.eseq)) } else q) } }) ∧
    (¬(ep = 0 ∧ p.chn = 0xFFFF) → ∀ i c, chanOf s1 false ep.toNat p.src p.chn = some (i, c) →
      let n := if (p.arg1 / 131072) % 2 = 1 then p.arg1 % 65536 else 0
      let c1 := { c with tx := if (p.arg1 / 65536) % 2 = 1 then c.tx.filter (fun t => decide (nearest c.next p.arg0 ≤ t.eseq)) else c.tx }
      (c.cr.toInt + n ≤ (c.bufm1 : Int) + 1 → exec (.xport ep) s = .next (setChan s1 i (some { c1 with cr := c1.cr + BitVec.ofNat 32 n }))) ∧
      ((c.bufm1 : Int) + 1 < c.cr.toInt + n → exec (.xport ep) s = .next (creditFault true i c1 s1)))

/-- RETRY_START pauses the timers of an endpoint and RETRY_END, or 12 µs, lets them run on. A copy whose notice PATH_LOST comes, or whose
timer has run out, is resent once, ALT and RESENT set, and for the resent copy the job ends; none is while the reference is lost. LENGTH
ends the sending job with BOUNDS (13 R321, R324, R328, R329, R333). -/
def Sys2Proof.Claims.NoticesAndTimersResendOnce : Prop :=
  ∀ (s s1 : State) (ep : Byte) (p : Packet),
    let e := ep.toNat
    let from_ := fun (r : Nat × Nat × Nat) => decide (r.1 = p.arg1 / 65536) && decide (r.2.1 = p.arg1 / 32 % 64)
    let arrives := fun (kind : Nat) => takeInq e (fun p => decide (p.typ = 3) && decide (p.arg1 % 16 = kind)) s = some (p, s1)
    (arrives 1 → exec (.retryStart ep) s = .next (setEp s1 e { getEp s1 e with
      retry := (getEp s1 e).retry ++ [(p.arg1 / 65536, p.arg1 / 32 % 64, s1.time)]
      pausedAt := some ((getEp s1 e).pausedAt.getD (if s1.fab.refDown then s1.fab.refAt else s1.time)) })) ∧
    (arrives 2 → exec (.retryEnd ep) s = .next (closeRetry e from_ s1)) ∧
    (exec (.retryStartExpiry ep) s = .next (closeRetry e (fun r => decide (r.2.2 + 12000000 ≤ s.time)) s)) ∧
    (∀ k, arrives 4 → (getEp s1 e).part = some k →
      exec (.length ep) s = .next (recordFault k stBounds 4 e 0 false (bump 1 s1))) ∧
    (s.fab.refDown = true → exec (.pathLost ep) s = .next s ∧ ∀ i, exec (.transportTimeout ep i) s = .next s) ∧
    (∀ i c t, s.fab.refDown = false → arrives 3 → (closeRetry e from_ s1).fab.chans.findSome? (fun ic => match ic.2 with
        | some c => if c.ep = e ∧ c.chn = p.chn ∧ c.recv = false then (c.tx.find? (fun t => decide (t.eseq % 2 ^ 32 = p.arg0) &&
            (t.resent == decide (p.arg1 / 16 % 2 = 1)))).map (fun t => (ic.1, c, t)) else none
        | none => none) = some (i, c, t) →
      exec (.pathLost ep) s = .next (lostCopy stPathLost i c t (closeRetry e from_ s1))) ∧
    (∀ i c t, e ≠ 0 → s.fab.refDown = false → (getEp s e).retry = [] → getChan s i = some c → c.ep = e → c.recv = false → c.stop = false →
      c.tx.find? (fun t => decide (t.at_ + t.paused + s.fab.tmo * 1000000 ≤ s.time)) = some t →
      exec (.transportTimeout ep i) s = .next (lostCopy stTimeout i c t s)) ∧
    (∀ i q t, e = 0 → s.fab.refDown = false → (getEp s e).retry = [] → s.fab.sends[i]? = some q →
      q.tx.find? (fun t => decide (t.at_ + t.paused + s.fab.tmo * 1000000 ≤ s.time)) = some t →
      exec (.transportTimeout ep i) s = .next (lostCtrl stTimeout q t s)) ∧
    (∀ code i c t, (t.resent = true → lostCopy code i c t s = recordFault c.part code 4 (c.ep + i * 256) 0 false s) ∧
      (t.resent = false → (getChan (lostCopy code i c t s) i).map Chan.tx = some (c.tx.map (fun u => if u.eseq = t.eseq then
        { t with resent := true, at_ := s.time, paused := 0
                 p := { t.p with alt := true, resent := true, epoch := s.fab.inj, vc := if t.p.typ = 1 then 3 else 0, age := 0 } } else u))))

/-- A read of CX_TBL_DATA moves the module index on; a write of a licensed route without a reserved bit sets the entry; a route through an
unlicensed port, or a reserved bit, leaves it. CX_EPOCH selects the bank, a new one ending the use of ALT, unless it would set writing a bank
in use or left less than 100 µs ago; CX_CFG the module number and the enable, which fixes the number (13 R313, R318, R321, R328; 01 R21). -/
def Sys2Proof.Claims.FabricRegistersAreWritten : Prop :=
  ∀ (s : State) (v : Word),
    let f := s.fab
    let inj := (v.getLsbD 0).toNat
    let on := fun (p : Nat) => portOn (licPorts s) p = true
    (exec (.cxTblData none) s = .next { s with fab := { f with tblMod := (f.tblMod + 1) % 65536 } }) ∧
    (fld v 17 15 = 0 → (v.getLsbD 7 = true → on (fld v 0 6)) → (v.getLsbD 15 = true → on (fld v 8 6)) →
      exec (.cxTblData (some v)) s = .next { s with fab := { f with
        table := tset 0 f.table (f.tblBank * 65536 + f.tblMod) v, tblMod := (f.tblMod + 1) % 65536 } }) ∧
    (fld v 17 15 ≠ 0 ∨ (v.getLsbD 7 = true ∧ ¬ on (fld v 0 6)) ∨ (v.getLsbD 15 = true ∧ ¬ on (fld v 8 6)) →
      exec (.cxTblData (some v)) s = .next s) ∧
    (v.getLsbD 1 = false → v.getLsbD 2 = false → exec (.cxEpoch v) s = .next { s with fab := { f with
      inj := inj, left := if inj ≠ f.inj then some s.time else f.left, wr := #v[false, false]
      chans := if inj = f.inj then f.chans else tmapv none (fun _ c => c.map (fun c => { c with alt := none })) f.chans } }) ∧
    (∀ n : Fin 2, v.getLsbD ((n : Nat) + 1) = true → f.wr[n] = false →
      ((n : Nat) = inj ∨ (n : Nat) = f.inj ∨ ∃ t, f.left = some t ∧ s.time < t + 100000000) → exec (.cxEpoch v) s = .next s) ∧
    (f.en = false ∨ fld v 0 16 = s.modnum →
      exec (.cxCfg v) s = .next { s with modnum := fld v 0 16, fab := { f with en := v.getLsbD 16 } }) ∧
    (f.en = true → fld v 0 16 ≠ s.modnum → exec (.cxCfg v) s = .next s) ∧
    (∀ p, p < 48 → (portOn 16 p = true ↔ p % 12 < 4) ∧ (portOn 32 p = true ↔ p % 12 < 8) ∧ portOn 48 p = true)

/-- TIDE_ARM_GO schedules a change at a count 4,096 or more steps ahead and a code of 8 to 50, at every live node, as the lowest of the code
and the limits; else TIDE_ERR tells LATE, RANGE or BUSY. A read of TIDE_TC_LO captures TIDE_TC_HI. With the raised rails settled the change
is scheduled, and 256 steps after a lowering one the rails come down (10 R246, Table 10-4; 18 R446). -/
def Sys2Proof.Claims.RateChangesAreScheduled : Prop :=
  ∀ (s : State) (k T : Nat),
    let t := s.tide
    let late := !isAhead s t.armT || decide (aheadBy s t.armT < 4096)
    let range := decide (t.armRate < 8) || decide (50 < t.armRate)
    ((late || range) = true → exec .tideArmGo s = .next { s with tide := { t with
      err := t.err ||| BitVec.ofNat 6 (late.toNat + 2 * range.toNat + 4 * t.pend.isSome.toNat) } }) ∧
    ((late || range) = false → t.pend.isSome = true → exec .tideArmGo s = .next { s with tide := { t with err := t.err ||| 4#6 } }) ∧
    ((late || range) = false → t.pend = none → s.tablesWf = true →
      ∃ u, exec .tideArmGo s = .next u ∧ u.tide = { t with pend := some (stepOf s t.armT, t.armRate) } ∧
        ∀ n, n < 100 → getNode u n = if nodeLive s n then { getNode s n with
          sched := some (stepOf s t.armT, min (min t.armRate t.cal) (min t.lic (min t.pwr t.therm))) } else getNode s n) ∧
    (exec .tideTcLo s = .next { s with tide := { t with tcHi := (BitVec.ofNat 48 (north s)).extractLsb' 32 16 } }) ∧
    (s.power.raising = some k → railsSettled s = true → t.pend = none →
      exec .railSettled s = .next (deliverRate (north s + 4096) k { s with power := { s.power with raising := none } })) ∧
    (s.power.lowering = some (T, k) → T + 256 ≤ north s →
      exec .railLower s = .next (setRails k { s with power := { s.power with lowering := none } }))

/-- REF_LOST, of a reference that is there or is lost again: the pace and every node's rate fall to 16 or stay lower, a pending change is cancelled and told, the loss is counted and the
ports go down. REF_BACK: the pace is on the reference again, with its rate as it stands (10 R247 to R249; 13 R333). -/
def Sys2Proof.Claims.TheReferenceIsLostAndBack : Prop :=
  ∀ (s : State),
    let t := s.tide
    (s.tablesWf = true → ∃ u, exec .refLost s = .next u ∧ u.tide = { t with
        rate := min t.rate 16, refOk := false, fallback := true, present := false, locked := false, pend := none
        err := t.err ||| BitVec.ofNat 6 (16 + (if t.pend.isSome then 8 else 0)), losses := min 255 (t.losses + 1) } ∧
      (∀ n, (getNode u n).rate = min (getNode s n).rate 16 ∧ (getNode u n).sched = none ∧ (getNode u n).steps = (getNode s n).steps) ∧
      u.fab.refDown = true ∧ u.cores = s.cores) ∧
    (t.fallback = true → ∃ u, exec .refBack s = .next u ∧
      u.tide = { t with refOk := true, fallback := false, present := true, locked := true, err := t.err ||| 32#6 } ∧
      u.fab.refDown = s.fab.ports.any (fun p => p.2.refDown) ∧ u.cores = s.cores ∧ u.nodes = s.nodes)

/-- HOLD is raised with cause FW and its source, released once no cause stands; at the nodes it freezes the running cores, and lets them run
on, each node at its next release, and every job whose end has waited for it ends. With HOLD down, and no release of it in the last 2 µs, a node that has waited 1 µs for an entry declares
its sender dead, which raises HOLD and opens a sending pan's breaker, or ends every job (10 R250 to R254; 02 R40; 17 R430; 19 R467). -/
def Sys2Proof.Claims.HoldStopsTheWafer : Prop :=
  ∀ (s : State) (x : Fin 384),
    let t := s.tide
    let held := { s with tide := { t with
      holdCause := setBit t.holdCause 0 true, holdSrc := if t.holdCause = 0 then BitVec.ofNat 32 (0x7F + 2 ^ 31) else t.holdSrc
      holdCount := if t.hold then t.holdCount else min 0xFFFF (t.holdCount + 1), hold := true } }
    let n := (x : Nat) / 4
    let m := sluiceSender n ((x : Nat) % 4)
    let s1 := raiseHold 1 (n + (x : Nat) % 4 * 128) (setSluice s x { getSluice s x with dead := true })
    let dead := fun (q : Nat) => modPwr s1 q (fun p => if p.why = 0 then { p with why := 2 } else p)
    let out := decide (96 ≤ m) && waitsFor s x m n
    exec .holdCtrlRaise s = .next held ∧
    exec .holdCtrlRelease s = .next (if t.holdCause = 0 then { s with tide := { t with hold := false } } else s) ∧
    (t.hold = true → t.frozen = false → s.tablesWf = true → ∃ u, exec .holdRaise s = .next u ∧ u.tide = { t with frozen := true } ∧
      ∀ g, (getCore u g).r.st = (if (getCore s g).r.st = .run then .hold else (getCore s g).r.st) ∧ (getCore u g).s = (getCore s g).s) ∧
    (t.hold = false → t.frozen = true → s.tablesWf = true → ∃ u, exec .holdRelease s = .next (endWaiting u) ∧
      u.tide = { t with frozen := false, relAt := some s.time } ∧ u.parts = s.parts ∧ (∀ n, getNode u n = { getNode s n with release := false }) ∧
      ∀ g, (getCore s g).x.haltReq = false →
        (getCore u g).r.st = (if (getCore s g).r.st = .hold ∧ partHeld s g = false then .run else (getCore s g).r.st)) ∧
    (s.tablesWf = true → (endWaiting s).cores = s.cores ∧ ((∀ k, (getPart s k).ends = none) → endWaiting s = s) ∧
      ∀ k, ((getPart s k).ends = none → getPart (endWaiting s) k = getPart s k) ∧
        ∀ code, (getPart s k).ends = some code → (getPart (endWaiting s) k).st = .faulted ∧ (getPart (endWaiting s) k).endCode = code ∧
          (getPart (endWaiting s) k).ends = none ∧ ∀ g ∈ activeCores s k, g ∈ (endWaiting s).haltSent) ∧
    ((t.hold = true ∨ t.frozen = true ∨ (getSluice s x).dead = true ∨ (∃ r, t.relAt = some r ∧ s.time < r + 2000000) ∨
        (waitsFor s x n m = false ∧ out = false)) → exec (.sluiceDead x) s = .next s) ∧
    (t.hold = false → t.frozen = false → (getSluice s x).dead = false → (∀ r, t.relAt = some r → r + 2000000 ≤ s.time) →
      (waitsFor s x n m = true → m < 96 → exec (.sluiceDead x) s = .next (dead m)) ∧
      (waitsFor s x n m = true → 96 ≤ m →
        exec (.sluiceDead x) s = .next (s.parts.foldl (fun s kp => recordFault kp.1 stPanDark 7 n 0 false s) s1)) ∧
      (waitsFor s x n m = false → out = true → exec (.sluiceDead x) s = .next (dead n)))

/-- A pan above its power, at 110 °C, or hot and of one holder has its breaker commanded open and raises HOLD, also where another cause has
commanded it already; the first trip of a pan counts, and the fourth trips the module. BRKFAIL tells that a breaker has not opened;
PAN_TIDE takes a pan out of the tide (10 R250, R255, R256; 17 R429, R437 to R439). -/
def Sys2Proof.Claims.PansAreSwitchedOff : Prop :=
  ∀ (s : State) (p : Fin 96),
    let x := getPwr s p
    (x.st < 2 → exec (.panPower p) s = .next (raiseHold 2 p (setPwr s p (if x.why = 0 then { x with why := 2 } else x)))) ∧
    (2 ≤ x.st → exec (.panPower p) s = .next s ∧ exec (.panTrip p) s = .next s) ∧
    (x.why ≠ 0 → x.brk = false → exec (.brkfail p) s = .next (setPwr s p { x with brkFail := true })) ∧
    (x.st < 2 → x.trip = true → exec (.panTrip p) s = .next (raiseHold 3 p (setPwr s p (if x.why = 0 then { x with why := 3 } else x)))) ∧
    (x.st < 2 → x.trip = false → s.power.trips < 3 → ∃ t, exec (.panTrip p) s = .next t ∧ t.power.trips = s.power.trips + 1 ∧
      getPwr t p = { x with why := if x.why = 0 then 3 else x.why, trip := true } ∧ t.tide.hold = true ∧ t.tide.holdCause.getLsbD 3 = true) ∧
    (x.st < 2 → x.trip = false → 3 ≤ s.power.trips → ∃ t, exec (.panTrip p) s = .next t ∧ t.power.trips = 4 ∧ t.power.modTrip = true) ∧
    (x.hot = true → x.why = 0 → x.st < 2 → (∀ k ∈ involved s p, (getPan s p).part = some k) →
      exec (.panCtrlOff p) s = .next (raiseHold 0 0x7F (setPwr s p { x with why := 4 }))) ∧
    (∃ t, exec (.panTide p) s = .next t ∧ panLive t p = false ∧ (∀ q, q ≠ (p : Nat) → panLive t q = panLive s q) ∧ t.cores = s.cores ∧
      (panLive s p = true → s.tablesWf = true → ∀ k, k < 4 → (getSluice t (4 * p + k)).held = []))

/-- BREAKER_OPEN with the opening commanded: the pan has left the tide, is dark for the reason recorded with its readings 0, its cores but
the DEFECT ones are cleared, and with no other opening to come the causes that faults raised are clear. MOD_TRIP: HOLD is raised with cause
4, every breaker is open, every core but the DEFECT ones is cleared and every running job ends with PAN_DARK, or with the code it waited to end with (17 R430, R433,
R438; 10 R256; 16 Table 16-8; 19 R464). -/
def Sys2Proof.Claims.DarkPansLeaveTheWafer : Prop :=
  ∀ (s : State) (p : Fin 96) (fuse : Bool),
    let x := getPwr s p
    let lost := fun (g : Nat) => if (getCore s g).r.st = .defect then getCore s g else Core.zero
    (x.why ≠ 0 → x.st < 2 → s.tablesWf = true → ∃ t, exec (.breakerOpen p fuse) s = .next t ∧ panLive t p = false ∧
      getPwr t p = { x with st := x.why, mv := 0, amp := 0, set := 0, brk := x.brk || !fuse, fuse := x.fuse || fuse } ∧
      (∀ g, panOf g = (p : Nat) → getCore t g = lost g) ∧ (∀ g, panOf g ≠ (p : Nat) → getCore t g = getCore s g) ∧
      (pansPending t = false → t.tide.holdCause.getLsbD 1 = false ∧ t.tide.holdCause.getLsbD 2 = false ∧ t.tide.holdCause.getLsbD 3 = false)) ∧
    ((x.why = 0 ∨ 2 ≤ x.st) → exec (.breakerOpen p fuse) s = .next s) ∧
    (s.power.modTrip = false → s.tablesWf = true → ∃ t, exec .modTrip s = .next t ∧ t.power.modTrip = true ∧ t.tide.hold = true ∧
      t.tide.holdCause.getLsbD 4 = true ∧ (∀ q, q < 96 → (getPwr t q).brk = true ∧ (getPwr t q).mv = 0 ∧ (getPwr t q).amp = 0) ∧
      (∀ g, getCore t g = lost g) ∧ ∀ k, (getPart s k).st = .running → (getPart t k).st = .faulted ∧
        (getPart t k).endCode = (match (getPart s k).ends with | some c => c | none => stPanDark))

/-- THERMAL_SAMPLE records each live pan's hottest sensor and its levels with their hysteresis, and commands the breaker of a hot pan that
involves its holder alone. THERM_STEP lowers THERM while a pan throttles, first to two below the code in force, then by 2 each 10 ms, and
raises it by 1 each 100 ms without (17 R435, R439; 18 R448). -/
def Sys2Proof.Claims.TemperaturesMoveTheLimit : Prop :=
  ∀ (s : State) (temps : List Byte) (a b c d : Byte),
    let t := s.tide
    let w := s.power
    let up := fun (old : Bool) (v hi lo : Nat) => if hi ≤ v then true else if v < lo then false else old
    (s.tablesWf = true → ∃ u, exec (.thermalSample temps a b c d) s = .next u ∧ u.power.cin = max a.toNat b.toNat ∧ u.power.cout = max c.toNat d.toNat ∧
      u.cores = s.cores ∧ (∀ p, panLive s p = false → getPwr u p = getPwr s p) ∧
      ∀ p, p < 96 → panLive s p = true →
        let x := getPwr s p
        let v := ((temps.drop (10 * p)).take 10).foldl (fun m b => max m b.toNat) 0
        let off := up x.hot v 105 100 && (involved s p).all (fun k => decide ((getPan s p).part = some k)) && decide (x.why = 0) && decide (x.st < 2)
        getPwr u p = { x with
          tmax := v, warn := up x.warn v 95 92, throt := up x.throt v 100 97, hot := up x.hot v 105 100, why := if off then 4 else x.why }) ∧
    (throttled s = true → (w.lastHot = false ∨ 0 < w.coolFor) → exec .thermStep s = .next { s with
      tide := { t with therm := max 8 (min t.therm (t.rate - 2)) }, power := { w with lastHot := true, hotFor := 0, coolFor := 0 } }) ∧
    (throttled s = true → w.lastHot = true → w.coolFor = 0 → exec .thermStep s = .next (if 10 ≤ w.hotFor then { s with
      tide := { t with therm := max 8 (t.therm - 2) }, power := { w with hotFor := 0 } } else s)) ∧
    (throttled s = false → exec .thermStep s = .next (if 100 ≤ w.coolFor then { s with
      tide := { t with therm := min 50 (t.therm + 1) }, power := { w with coolFor := 0, lastHot := false } } else s))

/-- POWER_TICK moves CAP_EFF by at most RAMP toward TARGET, records the entry's readings, adds the tick to the timebase, and chooses PWR from 8
to 50. PARK_WAKE_DONE ends the park: the partitions without a hold of the host run again (18 R442, R443, R447, R451). -/
def Sys2Proof.Claims.TheTickMovesTheCap : Prop :=
  ∀ (s : State) (volt amp : BitVec 16) (rim : Nat) (rails : List (Nat × Nat)),
    let w := s.power
    (∃ t, exec (.powerTick volt amp rim rails) s = .next t ∧
      t.power.eff = (if w.eff ≤ w.target then min w.target (w.eff + w.ramp) else max w.target (w.eff - w.ramp)) ∧
      t.power.entryV = volt.toNat ∧ t.power.entryI = amp.toNat ∧ t.power.rim = rim ∧ t.power.joules = w.joules + volt.toNat * amp.toNat ∧
      t.power.ticks = w.ticks + 1 ∧ t.power.curr = decide (8550 < amp.toNat) ∧ 8 ≤ t.tide.pwr ∧ t.tide.pwr ≤ 50) ∧
    (w.parked = true → w.waking = true → railsSettled s = true → w.oper = false → w.capPark = false → s.tablesWf = true →
      ∃ t, exec .parkWakeDone s = .next t ∧ t.power = { w with parked := false, waking := false } ∧
        t.tide = (releaseHold (clearCauses 1 s)).tide ∧
        ∀ k, k < 32 → getPart t k = if (getPart s k).holdPark then { getPart s k with
            holdPark := false
            st := if (getPart s k).holdHost = false ∧ (getPart s k).st = .held then .running else (getPart s k).st }
          else getPart s k)

/-- ENERGY_INTERVAL divides each live pan's energy among its holders by the model, and the rim's above its base by lines and units, and
starts both anew. ENERGY_WINDOW_END forms the report of a window in whole joules and carries the rest (18 R456, R457). -/
def Sys2Proof.Claims.EnergyIsMetered : Prop :=
  ∀ (s : State) (rim : Nat) (pans : List Nat) (k : Fin 32),
    let m := getMeter s k
    let cost := fun (j : Nat) => Config.rimCost 0 * (getMeter s j).lines + Config.rimCost 1 * (getMeter s j).units
    let tot := ((List.range 32).map cost).foldl (· + ·) 0
    let all := fun (p : Nat) => ((getPwr s p).model.map Prod.snd).foldl (· + ·) 0
    let mine := fun (p : Nat) => (((getPwr s p).model.filter (fun m => decide (m.1 = some (k : Nat)))).map Prod.snd).foldl (· + ·) 0
    (s.tablesWf = true → ∃ t, exec (.energyInterval rim pans) s = .next t ∧ t.cores = s.cores ∧ t.tide = s.tide ∧
      (getMeter t k).lines = 0 ∧ (getMeter t k).units = 0 ∧
      (getMeter t k).acc = m.acc + ((livePans s).map (fun p => pans.getD p 0 * mine p / all p)).foldl (· + ·) 0 +
        (rim - s.power.rimBase * 100000) * cost k / tot ∧
      ∀ p ∈ livePans s, (getPwr t p).model = [] ∧ (getPwr t p).meas = pans.getD p 0) ∧
    ((getPart s k).st ≠ .none → m.ticks + m.window * 1000 ≤ s.power.ticks →
      ∃ t, exec (.energyWindowEnd k) s = .next t ∧ t = { s with power := { s.power with meters := t.power.meters } } ∧
        getMeter t k = { m with ticks := m.ticks + m.window * 1000, acc := m.acc % 1000000, index := m.index + 1
                                last := some (m.index, m.acc / 1000000, m.window), total := m.total + m.acc / 1000000 })

/-- An entry voltage within 50 V to 60 V is recorded; one in a ride-through band is ridden through from full service on; any other, or a
current held at its limit, takes the module dark: all is reset but the fuses, what the silicon is, how it is mated, the time and what waits outside
(17 R425, R426; 15 R369, R395). -/
def Sys2Proof.Claims.TheEntryKeepsOrDarkensTheModule : Prop :=
  ∀ (s : State) (volt : BitVec 16),
    let v := volt.toNat
    let dark := { State.reset with
      fuse := s.fuse, stuck := s.stuck, free := s.free, pending := s.pending, time := s.time, tide := { Tide.zero with paceAt := s.time }
      boot := { Boot.zero with entry := s.boot.entry, signal := s.boot.signal } }
    exec .entryOutOfRange s = .next dark ∧ exec .entryCurrentLimit s = .next dark ∧
    (5000 ≤ v → v ≤ 6000 → exec (.rideThrough volt) s = .next { s with power := { s.power with entryV := v, ride := false, entryOk := true } }) ∧
    (¬(5000 ≤ v ∧ v ≤ 6000) → s.host.full = true → 4500 ≤ v → v ≤ 6300 →
      exec (.rideThrough volt) s = .next { s with power := { s.power with entryV := v, ride := true, entryOk := false } }) ∧
    (¬(5000 ≤ v ∧ v ≤ 6000) → (s.host.full = false ∨ v < 4500 ∨ 6300 < v) → exec (.rideThrough volt) s = .next dark)

/-- A POWER_CAP with a start comes into force at it. A PLDM effecter write in the operator's secured session sets TARGET or RAMP within
their ranges, parks or unparks the module; out of range it answers INVALID_DATA, outside such a session NOT_READY (18 R449, R458, R459). -/
def Sys2Proof.Claims.CapsAndParkByPldm : Prop :=
  ∀ (s : State) (n : Fin 49) (v : Word) (T target ramp guard : Nat),
    let w := s.power
    let cap := fun (target ramp : Nat) => { s with power := { w with
      writes := (2, target, ramp, w.guard) :: w.writes, target := target, ramp := ramp, start := none } }
    (w.start = some (T, target, ramp, guard) → T ≤ north s →
      exec .powerCapStart s = .next { s with power := { w with target := target, ramp := ramp, guard := guard, start := none } }) ∧
    (operatorSession s n = true →
      (4000 ≤ v.toNat → v.toNat ≤ 40000 → exec (.pldmCapTarget n v) s = .next (say 2 [0] (cap v.toNat w.ramp))) ∧
      (1 ≤ v.toNat → v.toNat ≤ 400 → exec (.pldmRamp n v) s = .next (say 2 [0] (cap w.target v.toNat))) ∧
      (v.toNat < 4000 ∨ 40000 < v.toNat → exec (.pldmCapTarget n v) s = .next (say 2 [0x02] s)) ∧
      exec (.pldmPark n) s = .next (say 2 [0] (parkNow { s with power := { w with oper := true } })) ∧
      exec (.pldmUnpark n) s = .next (say 2 [0] (wakeIfClear { s with power := { w with oper := false } }))) ∧
    (operatorSession s n = false → ∀ i ∈ [Instr.pldmCapTarget n v, .pldmRamp n v, .pldmPark n, .pldmUnpark n],
      exec i s = .next (say 2 [0x04] s))

/-- REG_READ answers up to six words of a block, each with what its read changes; REG_WRITE writes words that it permits and whose values are
legal, and completes, but for MESH_CFG, whose write completes with the change of the period; a write of a register that it does not
permit answers BOUNDS and writes nothing (14 R340; 11 R262). -/
def Sys2Proof.Claims.RegisterCommandsReadAndWrite : Prop :=
  ∀ (s s1 : State) (c : Cmd), goes c s s1 → isO s1 c = true →
    let b := argFld c 0 0 2
    let off := argFld c 0 16 16
    let n := argFld c 1 0 3 + 1
    let used : List Nat := [0xFFFF0003, 7]
    off % 4 = 0 → n ≤ 6 → off + 4 * n ≤ 65536 →
    (badForm c true false false used = false →
      exec (.regRead c) s = .next (answered c true s1 stOK (regRead b n off s1).1 (regRead b n off s1).2)) ∧
    (badForm c true false false (used ++ List.replicate n all32) = false → (∀ w ∈ regWords c, wordStatus s1 b w.1 w.2 = stOK) →
      ((∀ w ∈ regWords c, regWritable b w.1 = true) →
        (¬(b = 1 ∧ off = 0) → exec (.regWrite c) s = .next (answered c true s1 stOK [] ((regWords c).foldl (fun s w => fwWrite b w.1 w.2 s) s1))) ∧
        (b = 1 → off = 0 → ∃ t, exec (.regWrite c) s = .next t ∧ t.host.meshCmd = some (longOf .load c [] [] s1) ∧
          t.mesh.pend = ((regWords c).foldl (fun s w => fwWrite b w.1 w.2 s) s1).mesh.pend)) ∧
      ((∃ w ∈ regWords c, regWritable b w.1 = false) → exec (.regWrite c) s = .next (refusedWith 0x03 c true s1 stBounds [])))

/-- RT_DATA moves RT_ADDR on, and a write reaches the selected router's word: its mode, its owners, its absorbing sides, or a half of a slot
entry that stays valid and moves no data on a lane-owned output. MESH_CFG changes the period while no partition holds more than pans and no
test runs, at the count a worst-case wave ahead, each pan at its own; the slot tables clear, and the write completes at the north rim's
(11 R262, R263, R266, R284, Table 11-10). -/
def Sys2Proof.Claims.TheMeshIsConfigured : Prop :=
  ∀ (s : State) (v : Word) (g T k : Nat) (l : Long),
    let m := s.mesh
    let r := getRouter s g
    let moved := fun (r' : Router) => { setRouter s g r' with mesh := { m with addr := (m.addr + 4) % 16384 } }
    exec (.rtData none) s = .next { s with mesh := { m with addr := (m.addr + 4) % 16384 } } ∧
    (rtSelected s = some g →
      (m.addr = 0x00 → fld v 0 2 ≠ 3 → exec (.rtData (some v)) s = .next (moved { r with mode := fld v 0 2 })) ∧
      (m.addr = 0x0C → exec (.rtData (some v)) s = .next (moved { r with own := #v[ownOf v 0, ownOf v 1, ownOf v 2, ownOf v 3] })) ∧
      (m.addr = 0x10 → exec (.rtData (some v)) s = .next (moved { r with absorb := v.extractLsb' 0 4, absorbFrom := (getNode s (panOf g)).steps + 1 })) ∧
      (0x1000 ≤ m.addr → m.addr % 4 = 0 →
        let i := (m.addr - 0x1000) / 8
        let e := setFld (tget 0 r.slots i) (if m.addr % 8 = 4 then 32 else 0) 32 v.toNat
        i < periodOf s (panOf g) → entryOk (modeOf s g) e = true → (∀ o : Fin 4, selOf e o ≠ 0 → laneOwned s g o i = false) →
        exec (.rtData (some v)) s = .next (moved { r with slots := tset 0 r.slots i e }))) ∧
    (allEmpty s = true → testing s = false → m.pend = none → 6 ≤ fld v 0 4 → fld v 0 4 ≤ 10 →
      ∃ t, exec (.meshCfg v) s = .next t ∧ t.mesh = { m with pend := some (north s + m.cwMax, fld v 0 4) } ∧ t.cores = s.cores ∧
        (s.tablesWf = true → ∀ j, getRouter t j = { getRouter s j with slots := [] })) ∧
    (m.pend = some (T, k) → T ≤ north s →
      let s0 := if m.lanes then { s with mesh := { m with cwMax := (computeLanes s).mesh.cwMax } } else s
      let s1 := match s.host.meshCmd with
        | some l => complete l.qp l.epoch l.cid stOK 0 15 [] { s0 with host := { s0.host with meshCmd := none } }
        | none => s0
      ((∃ n ∈ livePans s, (getNode s n).steps < T) → exec .lcodeChangeApply s = .next s1) ∧
      ((∀ n ∈ livePans s, T ≤ (getNode s n).steps) → ∃ t, exec .lcodeChangeApply s = .next t ∧ t.host = s1.host ∧ t.cores = s.cores ∧
        t.mesh = { s0.mesh with lcode := k, pend := none } ∧ (s.tablesWf = true → ∀ j, getRouter t j = { getRouter s j with laneSet := none })))

/-- A firmware write reaches its register: the limits of the pace, TIDE_ERR's bits cleared by ones, RT_SEL, a context's selection, the
timeout in its range, CAP_GUARD, the base of a disabled pair; a misaligned offset is no register, and the reliability block has none
that can be written (00 R8, R9; 10 Table 10-4; 13 Table 13-6; 14 R342; 18 Table 18-6). -/
def Sys2Proof.Claims.FirmwareWritesRegisters : Prop :=
  ∀ (s : State) (v : Word) (b : Fin 8) (off : BitVec 16),
    (off.toNat % 4 ≠ 0 → exec (.firmwareRegisterWrite b off v) s = .next s) ∧
    exec (.firmwareRegisterWrite 0 0x00C v) s = .next { s with tide := { s.tide with lic := fld v 8 6, pwr := fld v 16 6, therm := fld v 24 6 } } ∧
    exec (.firmwareRegisterWrite 0 0x01C v) s = .next { s with tide := { s.tide with err := s.tide.err &&& ~~~ v.setWidth 6 } } ∧
    exec (.firmwareRegisterWrite 1 0x014 v) s = .next { s with mesh := { s.mesh with sel := v &&& 0xFFFFF#32 } } ∧
    exec (.firmwareRegisterWrite 2 0x01C v) s = .next (setEng s 0 { getEng s 0 with ctxSel := fld v 0 6 }) ∧
    (100 ≤ fld v 0 16 → exec (.firmwareRegisterWrite 3 0x00C v) s = .next { s with fab := { s.fab with tmo := fld v 0 16 } }) ∧
    (fld v 0 16 < 100 → exec (.firmwareRegisterWrite 3 0x00C v) s = .next s) ∧
    (fld v 0 13 ≤ 4000 → exec (.firmwareRegisterWrite 5 0x004 v) s = .next { s with power := { s.power with guard := fld v 0 13 } }) ∧
    ((getQp s 1).en = false → exec (.firmwareRegisterWrite 7 0x044 v) s = .next (setQp s 1 { getQp s 1 with
      sqBase := setFld (getQp s 1).sqBase 32 32 v.toNat })) ∧
    exec (.firmwareRegisterWrite 6 off v) s = .next s

/-- BIND_QP gives a disabled pair, that no other session bound, the role its session proves: the operator's, a tenant's, or a debugger's
under a grant that holds; the session that bound it lets it go with UNBIND_QP. A session that ends, by END_SESSION or for want of
heartbeats, lets all its pairs go (16 R399, R400, R419). -/
def Sys2Proof.Claims.PairsAreBoundBySessions : Prop :=
  ∀ (s : State) (n : Fin 49) (e : Fin 48) (x : Session) (pair prin : Byte) (grant : List Byte),
    let q := pair.toNat
    let s1 := endPair q s
    let bound := fun (role : Nat) (prin : Nat) (g : Option Grant) => vendorAnswer 1 stOK (setQp s1 q { getQp s1 q with
      role := role, prin := prin, grant := g, sess := some (n : Nat) })
    secUp s = true →
    (sessionOf s n = none → exec (.bindQp n pair 1 prin false []) s = .next (spdmError 0x0B s)) ∧
    (sessionOf s n = some x → (getQp s q).en = false → q ≤ 32 → (getQp s q).sess = none ∨ (getQp s q).sess = some (n : Nat) →
      (provesOperator s x = true → exec (.bindQp n pair 1 prin false []) s = .next (bound 1 0 none)) ∧
      (provesOperator s x = false → exec (.bindQp n pair 1 prin false []) s = .next (vendorAnswer 1 stAuth s)) ∧
      (provesTenant s x prin.toNat = true → exec (.bindQp n pair 2 prin false []) s = .next (bound 2 prin.toNat none)) ∧
      (grantForm grant = true → grantScope s grant = true → exec (.bindQp n pair 3 prin false grant) s = .next
        (if grantOk s x grant then bound 3 0 (some (grantOf s1 grant)) else vendorAnswer 1 stAuth s))) ∧
    (sessionOf s n = some x → (getQp s q).sess = some (n : Nat) → exec (.unbindQp n pair) s = .next (vendorAnswer 2 stOK (unbind q s))) ∧
    ((tget none s.sec.sess e).isSome = true → exec (.endSession e) s = .next (say 3 [0x6C] (closeSession e s)) ∧
      exec (.heartbeatMissed e) s = .next (closeSession e s)) ∧
    (s.tablesWf = true → (getQp (unbind q s) q).role = 0 ∧ (getQp (unbind q s) q).grant = none ∧ (getQp (unbind q s) q).sess = none)

/-- The operator enrols and revokes a principal that no partition names; the partition's own principal stages a job key that opens on an
EMPTY partition, one wrapped for a pair under the licence of the tenant key service alone. Of the SPDM messages KEY_EXCHANGE opens a session in the first free place, HEARTBEAT and KEY_UPDATE are counted in theirs,
certificates, challenges and measurements are answered, and the operator's session manages IDE (16 R397, R402 to R407, R412, R418). -/
def Sys2Proof.Claims.TheSecurityBlockAnswers : Prop :=
  ∀ (s : State) (n : Fin 49) (e : Fin 48) (x : Session) (prin part : Byte) (h key root : BitVec 512) (jk : List Byte) (mauth io mem : Bool),
    let k := part.toNat
    let sess := fun (i : Nat) (y : Option Session) => { s with sec := { s.sec with sess := tset none s.sec.sess i y } }
    secUp s = true →
    (sessionOf s n = some x → provesOperator s x = true → named s prin.toNat = false →
      (prin ≠ 0 → exec (.tenantEnrol n prin h) s = .next (vendorAnswer 3 stOK { s with sec := { s.sec with enrol := tset none s.sec.enrol prin.toNat (some h) } })) ∧
      exec (.tenantRevoke n prin) s = .next (vendorAnswer 4 stOK { s with sec := { s.sec with enrol := tset none s.sec.enrol prin.toNat none } })) ∧
    (sessionOf s n = some x → keyForm jk = true → tenantOf s x k = true → (getPart s k).st = .empty →
      exec (.keyStage n part jk) s = .next (if (openKey s k false jk).isNone then vendorAnswer 5 stAuth s
        else if !licKeys s && decide (leAt jk 1 1 = 1) then vendorAnswer 5 stLicence s
        else vendorAnswer 5 stOK (setPart s k { getPart s k with staged := openKey s k false jk }))) ∧
    (∀ i, i < 48 → tget none s.sec.sess i = none → (∀ j, j < i → (tget none s.sec.sess j).isSome = true) →
      exec (.keyExchange mauth key root) s = .next (say 3 (0x64#8 :: BitVec.ofNat 8 i :: Config.sign [BitVec.ofNat 8 i])
        (sess i (some ⟨key, root, mauth, 0, 0⟩)))) ∧
    ((∀ j, j < 48 → (tget none s.sec.sess j).isSome = true) → exec (.keyExchange mauth key root) s = .next (say 3 [0x7F, 3] s)) ∧
    (tget none s.sec.sess e = some x →
      exec (.heartbeat e) s = .next (say 3 [0x68] (sess e (some { x with beats := x.beats + 1 }))) ∧
      exec (.keyUpdate e) s = .next (say 3 [0x69] (sess e (some { x with updates := x.updates + 1 })))) ∧
    (part.toNat < 2 → exec (.getCertificate part) s = .next (say 3 (0x02#8 :: Config.certChain part.toNat) s)) ∧
    exec (.challenge 0) s = .next (say 3 (0x03#8 :: Config.sign (Config.certChain 0)) s) ∧
    (1 ≤ part.toNat → part.toNat ≤ 12 → exec (.getMeasurements n part) s = .next
      (say 3 (0x60#8 :: measurement s n part.toNat ++ Config.sign (measurement s n part.toNat)) s)) ∧
    (sessionOf s n = some x → provesOperator s x = true →
      exec (.cxlIdeKm n io mem) s = .next (say 3 [0xFE] { s with sec := { s.sec with ideIo := io, ideMem := mem } }))

/-- The mailbox commands that the port implements answer, each with a value of CXL's own definition, and change nothing else: the answer's
bytes are a free value; Get Log 0 gives the good cores of every pan, which no other answer of a command does (14 Table 14-1; 01 R17; the
free value and the log are the model's choice: assumption log 75, 114). -/
def Sys2Proof.Claims.MailboxCommandsAnswer : Prop :=
  ∀ (s : State) (log : Nat) (i : Instr) (op a : Nat),
    exec (.getLog 0) s = .next { s with said := s.said ++ [(4, (List.range 96).flatMap (fun p => nbytes 2 (reportedCount s p)))] } ∧
    (log ≠ 0 → (i, op, a) ∈ [(Instr.identifyMemoryDevice, 0, 0), (.getHealthInfo, 1, 0), (.getSupportedLogs, 2, 0), (.getLog log, 3, log)] →
      exec i s = .next { s with said := s.said ++ [(4, Config.mailbox op a s.free)], free := s.free + 1 })

/-- LICENCE_INSTALL by the operator of a licence that reads, is signed, names this module and is no older than the counter, sets no limit
below what is in use and lowers none while a partition loads, brings it into force, with the ports it lists; TESTPACK_LOAD of a pack that reads, is signed, lists
this module and is no older than its counter replaces the pack. The counters never fall (16 R408 to R410; 19 R472; 21 R505). -/
def Sys2Proof.Claims.LicencesAndPacksAreInstalled : Prop :=
  ∀ (s s1 : State) (c : Cmd) (p : Pack), goes c s s1 → isO s1 c = true → badForm c true false true [] = false →
    let b := bufOf c
    (s1.boot.p1 = true → exec (.licenceInstall c) s = .next (match readLicence b with
      | none => refusedWith 0x04 c true s1 stFormat []
      | some (serial, floor, l) =>
        if !Config.sigOk 1 b || decide (serial ≠ s1.fuse.serial.toNat) || decide (l.version < s1.fuse.lic) then refusedWith 0x04 c true s1 stAuth []
        else if belowUse s1 l then refusedWith 0x04 c true s1 stState []
        else if lowers s1 l && (List.range 32).any (fun k => decide ((getPart s1 k).st = .loading)) then refusedWith 0x04 c true s1 stBusy []
        else answered c true s1 stOK [] (installLicence floor l s1))) ∧
    (∀ floor l, let t := installLicence floor l s1
      t.sec.licence = some l ∧ t.fuse = { s1.fuse with lic := max s1.fuse.lic floor } ∧ t.tide = { s1.tide with lic := l.tide } ∧ t.cores = s1.cores ∧
      (∀ p, p < 48 → s1.tablesWf = true → portOn (licPorts s1) p = true → portOn l.ports p = false → (getPort t p).st = 0) ∧
      (∀ p, p < 48 → portOn (licPorts s1) p = false → portOn l.ports p = true → (getPort s1 p).st = 0 → (getPort s1 p).disable = false →
        (getPort t p).st = 1)) ∧
    (readPack c.bufLen.toNat b = .ok p → exec (.testpackLoad c) s = .next
      (if packAuth s1 b then refusedWith 0x05 c true s1 stAuth []
        else answered c true s1 stOK [] { s1 with
          fuse := { s1.fuse with tp := max s1.fuse.tp p.floor }
          rel := { s1.rel with ver := p.ver, interval := p.interval, budget := p.budget, kernels := p.kernels, digest := Config.sha512 b } }))

/-- MOD_QUERY answers the identity, the good cores, the licence, CW_MAX and CAL; POWER_CAP writes TARGET, RAMP and GUARD at once, or keeps them
for a start count; MOD_PARK and MOD_UNPARK set and clear the operator's park cause (14 Table 14-9; 18 R449 to R451, R458). -/
def Sys2Proof.Claims.ModuleCommandsAct : Prop :=
  ∀ (s s1 : State) (c : Cmd), goes c s s1 →
    let gs := (numberedPans s1).map (goodCount s1)
    let t := argFld c 0 0 16
    let r := argFld c 0 16 9
    let keep := decide (argFld c 1 16 1 = 1)
    let g := if keep then s1.power.guard else argFld c 1 0 13
    let w := s1.power
    (badForm c true false false [] = false → exec (.modQuery c) s = .next (answered c true s1 stOK
      [0x01A1, gs.foldl (· + ·) 0, licPorts s1 * 2 ^ 8 + licParts s1 * 2 ^ 16 + s1.tide.lic * 2 ^ 24, s1.mesh.cwMax,
        s1.tide.cal + (if gs.isEmpty then 0 else gs.foldl min 9600) * 2 ^ 16] s1)) ∧
    (isO s1 c = true → badForm c true true false [0x01FFFFFF, 0x11FFF] = false → 4000 ≤ t → t ≤ 40000 → 1 ≤ r → r ≤ 400 → g ≤ 4000 ∨ keep = true →
      (c.tc = 0 → exec (.powerCap c) s = .next (answered c true s1 stOK [w.eff] { s1 with power := { w with
        writes := (1, t, r, g) :: w.writes, target := t, ramp := r, guard := g, start := none } })) ∧
      (c.tc ≠ 0 → 8192 ≤ aheadBy s1 c.tc → aheadBy s1 c.tc ≤ 2 ^ 32 → exec (.powerCap c) s = .next (answered c true s1 stOK [w.eff]
        { s1 with power := { w with writes := (1, t, r, g) :: w.writes, start := some (stepOf s1 c.tc, t, r, g) } }))) ∧
    (isO s1 c = true → badForm c true false false [] = false →
      exec (.modPark c) s = .next (answered c true s1 stOK [] (if w.parked then s1 else parkNow { s1 with power := { w with oper := true } })) ∧
      (w.parked = false → exec (.modUnpark c) s = .next (answered c true s1 stOK [w.oper.toNat + 2 * w.capPark.toNat] s1)) ∧
      (w.parked = true → exec (.modUnpark c) s = .next (answered c true s1 stOK [2 * w.capPark.toNat]
        (wakeIfClear { s1 with power := { w with oper := false } }))))

/-- ENERGY_READ answers a partition's last completed window, sets its window's length, which starts a new one at the next whole second, and
answers the module's figures to the operator (18 R457). -/
def Sys2Proof.Claims.EnergyIsRead : Prop :=
  ∀ (s s1 : State) (c : Cmd) (i j l : Nat), goes c s s1 →
    let m := getMeter s1 c.part
    let w := s1.power
    let e := w.joules / 1000000
    let may := ((getQp s1 c.qp).role = 1 ∨ (getQp s1 c.qp).role = 2) ∧ isT s1 c = true ∧ (getPart s1 c.part).st ≠ .none
    (badForm c false false false [0x30FFF] = false → may →
      (energyMode c = 0 → m.last = some (i, j, l) →
        exec (.energyReadWindow c) s = .next (answered c false s1 stOK [i, j, l, m.total % 2 ^ 32, m.total / 2 ^ 32 % 2 ^ 32] s1)) ∧
      (energyMode c = 0 → m.last = none → ∃ a b d, exec (.energyReadWindow c) s =
        .next (answered c false s1 stOK [a, b, d, m.total % 2 ^ 32, m.total / 2 ^ 32 % 2 ^ 32] { s1 with free := s1.free + 3 })) ∧
      (energyMode c = 1 → 1 ≤ argFld c 0 0 12 → argFld c 0 0 12 ≤ 3600 → exec (.energySetWindow c) s = .next (answered c false s1 stOK []
        { s1 with power := { w with meters := tset Meter.zero w.meters c.part { m with
          window := argFld c 0 0 12, ticks := (w.ticks / 1000 + 1) * 1000, index := 0 } } }))) ∧
    (badForm c true false false [0x30FFF] = false → isO s1 c = true → energyMode c = 2 →
      exec (.energyReadModule c) s = .next (answered c true s1 stOK [e % 2 ^ 32, e / 2 ^ 32 % 2 ^ 32, w.entryV * w.entryI / 1000, w.eff, w.target] s1))

/-- POWER_GOOD starts bring-up where the power entry and the signal connector are mated, and else leaves the module dark; FUNDAMENTAL_RESET
leaves the reset state but for the fuses, the supply and what waits outside. P0 switches the groups of pans on in order, a stage that does
not regulate making its pan dark; a pan whose rail is shorted is not switched on, and its index is reported. The link comes up at its width, with an ALARM below x8. An
offer whose image reads, is signed and no older than the counter starts the firmware (15 R369, R370, R372 to R375, R395; 14 R335, R338; 01 R13; 17 R432). -/
def Sys2Proof.Claims.BringUpStartsTheFirmware : Prop :=
  ∀ (s : State) (g : Fin 12) (bad shorted : Byte) (width : Fin 3) (resv : Bool) (addr : BitVec 64) (len : Word) (image : List Byte),
    let up := { s with boot := { s.boot with linkUp := true }, host := { s.host with linkw := 8 / 2 ^ (width : Nat) } }
    (s.boot.good = false → exec .powerGood s = .next (if s.boot.entry = true ∧ s.boot.signal = true then { s with
        boot := { s.boot with good := true }, power := { s.power with entryOk := true } } else s)) ∧
    exec .fundamentalReset s = .next { State.reset with
      fuse := s.fuse, stuck := s.stuck, free := s.free, pending := s.pending, time := s.time, tide := { Tide.zero with paceAt := s.time }
      boot := { State.reset.boot with entry := s.boot.entry, signal := s.boot.signal, good := s.boot.good }
      power := { State.reset.power with entryOk := s.power.entryOk, entryV := s.power.entryV, entryI := s.power.entryI } } ∧
    (s.boot.good = true →
      (s.boot.groups.getLsbD g = false → (∀ i, i < (g : Nat) → s.boot.groups.getLsbD i = true) →
        ∃ t, exec (.panGroupSwitchOn g ⟨bad, shorted⟩) s = .next t ∧ t.boot = { s.boot with groups := setBit s.boot.groups g true } ∧ t.cores = s.cores ∧
          ∀ i, i < 8 → if shorted.getLsbD i then getPwr t (8 * g + i) = { getPwr s (8 * g + i) with st := 2, brk := true } ∧
              (2, [3#8, BitVec.ofNat 8 (8 * g + i)]) ∈ t.said
            else if bad.getLsbD i then (getPwr t (8 * g + i)).st = 5 ∧ panLive t (8 * g + i) = false
            else getPwr t (8 * g + i) = { getPwr s (8 * g + i) with st := 1, set := railOf s (8 * g + i) s.tide.rate }) ∧
      (exec (.cxlLinkUp width) s = .next (if width = 0 then up else postAlarm 3 up)) ∧
      (s.boot.linkUp = true → s.boot.p1 = false → 4096 ≤ len.toNat → len.toNat ≤ 67108864 →
        (resv = true ∨ addr.toNat % 4096 ≠ 0 → exec (.bootOffer resv addr len image) s = .next (say 2 [0x81, 4, 0, 0] s)) ∧
        (resv = false → addr.toNat % 4096 = 0 →
          let im := image.take len.toNat
          exec (.bootOffer resv addr len image) s = .next (match Config.imageVersion im with
            | none => say 2 [0x81, 4, 0, 0] s
            | some (svn, _) => if !Config.sigOk 0 im ∨ svn < s.fuse.fw then say 2 [0x81, 3, 0, 0] s
                else say 2 [0x81, 0, 0, 0] (startFirmware im s)))))

/-- P2_MESH zeroises every core, and reads back that each is cleared, sets each sluice's delay and ceiling from its measured time, and makes the bad pans dark; STACK_TRAINING
records a stack's outcome (10 R244; 12 R286; 15 R375; 16 R422). -/
def Sys2Proof.Claims.BringUpPreparesTheMesh : Prop :=
  ∀ (s : State) (lats : List (Nat × Nat)) (bad : List (Fin 96)) (e : Fin 48),
    (s.boot.p1 = true → s.boot.p2 = false → s.boot.groups = BitVec.allOnes 12 → s.tablesWf = true → s.stuck = [] →
      ∃ t, exec (.p2Mesh lats bad) s = .next t ∧ t.boot = { s.boot with p2 := true } ∧ (∀ g, getCore t g = zeroise (getCore s g)) ∧
        (∀ n, n < 384 →
          let a := min 255 (lats.getD n (0, 0)).1
          let d := 4 + ceilDiv (a + 4) 8
          (getSluice t n).lat = a ∧ (getSluice t n).d = min 12 d ∧ (getSluice t n).cap = if 12 < d then 3200 / (a + 4) else 50) ∧
        ∀ p : Fin 96, panLive t p = (panLive s p && !bad.contains p)) ∧
    (s.boot.p1 = true → (getEng s e).trained = false → (getEng s e).failed = false →
      exec (.stackTraining e true) s = .next (earlyNow (setEng s e { getEng s e with trained := true })) ∧
      ∃ t, exec (.stackTraining e false) s = .next t ∧ getEng t e = { getEng s e with failed := true } ∧ t.rel.suspect.getLsbD 0 = true)

/-- P3_KERNELS numbers a live pan: its DEFECT positions are those its kernels and its fuses name, their routers pass; its other cores are
zeroised and read back, and its good cores and the module's are reported. P4_KERNELS turns the short formats on, or makes the module suspect. P5_FULL_SERVICE measures the sluices anew, confirms CAL, calibrates the idle pans, and
sets FULL once every live pan is calibrated (15 R380, R381, R385 to R387; 10 R245; 18 R455; 01 R17; 16 R422; the report's bytes are the model's: assumption log 114). -/
def Sys2Proof.Claims.BringUpNumbersThePans : Prop :=
  ∀ (s : State) (p : Fin 96) (bad : List Nat) (lats : List (Nat × Nat)),
    let ds := defectsOf s p bad
    (s.boot.p2 = true → panLive s p = true → (getPan s p).num = none →
      (9600 ∈ bad → exec (.p3Kernels p bad) s = .next (bringDark p s)) ∧
      (9600 ∉ bad → s.tablesWf = true → (∀ g ∈ s.stuck, panOf g ≠ (p : Nat)) → ∃ t, exec (.p3Kernels p bad) s = .next t ∧
        t.said.getLast? = some (2, 0x11#8 :: BitVec.ofNat 8 p :: nbytes 2 (9600 - ds.length) ++ nbytes 4 (goodTotal t)) ∧
        getPan t p = { getPan s p with defects := ds, num := some (p : Nat) } ∧
        (∀ l ∈ ds, (getCore t (coreAt p l)).r.st = .defect ∧ (getRouter t (coreAt p l)).mode = 1) ∧
        (∀ g, panOf g = (p : Nat) → (∀ l ∈ ds, g ≠ coreAt p l) → getCore t g = zeroise (getCore s g)) ∧
        ∀ g, panOf g ≠ (p : Nat) → getCore t g = getCore s g)) ∧
    (panLive s p = true → (getPan s p).num.isSome = true → s.boot.p4.contains (p : Nat) = false → idlePan s p = true →
      let s1 := { s with boot := { s.boot with p4 := (p : Nat) :: s.boot.p4 } }
      exec (.p4Kernels p true) s = .next (setPan s1 p { getPan s p with shortOn := true }) ∧
      exec (.p4Kernels p false) s = .next (suspect 3 s1)) ∧
    (s.boot.p2 = true → s.host.full = false → s.tide.locked = true → (∀ q ∈ livePans s, s.boot.p4.contains q = true) → s.boot.p5 = false →
      ∃ t, exec (.p5FullService lats) s = .next t ∧ t.boot = { s.boot with p5 := true } ∧
        t.tide.cal = (confirmed (crossings s lats)).getD 8 ∧ t.power.vf.isSome = true ∧
        (∀ n, n < 384 → s.tablesWf = true → panLive s (n / 4) = true → (getSluice t n).lat = min 255 (lats.getD n (0, 0)).1) ∧
        (∀ q ∈ livePans s, idlePan s q = true → (getPwr t q).cald = true) ∧
        ((∀ q ∈ livePans s, idlePan s q = true) → t.host.full = true))

/-- A due pan in no job begins a test run; a pass restarts its interval, a failure quarantines it and makes the module suspect, and either
way its cores are zeroised and read back. After 24 intervals without a pass it is OVERDUE. A watch indicator clears once its condition has been absent
for 24 h (19 R473, R474, R476; 16 R422). -/
def Sys2Proof.Claims.PansAreTestedAndWatched : Prop :=
  ∀ (s : State) (p : Fin 96) (f : Nat × Nat × Nat) (b : Fin 6),
    let x := getTest s p
    (panLive s p = true → (getPan s p).num.isSome = true →
      (x.run = false → freePan s p = true → x.passAt + s.rel.interval * minute ≤ s.time →
        exec (.testpackRun p) s = .next (setTest s p { x with run := true })) ∧
      (x.overdue = false → x.passAt + 24 * s.rel.interval * minute ≤ s.time →
        exec (.panOverdue p) s = .next (watch 4 (setTest s p { x with overdue := true })))) ∧
    (x.run = true → s.tablesWf = true → (∀ g ∈ s.stuck, panOf g ≠ (p : Nat)) →
      (∃ t, exec (.testpackRunEnd p none) s = .next t ∧ getTest t p = { x with run := false, pass := true, passAt := s.time, overdue := false } ∧
        t.rel.runs = (s.rel.runs + 1) % 2 ^ 32 ∧ ∀ g, getCore t g = if panOf g = (p : Nat) then zeroise (getCore s g) else getCore s g) ∧
      (∃ t, exec (.testpackRunEnd p (some f)) s = .next t ∧ getTest t p = { x with run := false, pass := false, quar := true, fail := some f } ∧
        t.rel.suspect.getLsbD 7 = true ∧ t.rel.fails = min 0xFFFF (s.rel.fails + 1) ∧
        ∀ g, getCore t g = if panOf g = (p : Nat) then zeroise (getCore s g) else getCore s g)) ∧
    (s.rel.seen[b] + 24 * hour ≤ s.time → standing s b = false →
      exec (.watchClear b) s = .next { s with rel := { s.rel with watch := setBit s.rel.watch b false } })

/-- The command words of a core in the R layout, by opcode and FN, for registers D, A and B (03 Table 3-3, Table 3-4, Table 3-11; 04 Table 4-1). -/
def Sys2Proof.Claims.wordsR (g : Nat) (d a b : Reg) : List (Nat × Nat × Instr) :=
  [(0x01, 0, .add g d a b), (0x01, 1, .sub g d a b), (0x01, 2, .and g d a b), (0x01, 3, .or g d a b), (0x01, 4, .xor g d a b),
   (0x01, 5, .shl g d a b), (0x01, 6, .shr g d a b), (0x01, 7, .sra g d a b), (0x01, 8, .mul g d a b), (0x01, 9, .mulhu g d a b),
   (0x01, 10, .mulhs g d a b), (0x01, 11, .min g d a b), (0x01, 12, .max g d a b), (0x01, 13, .minu g d a b), (0x01, 14, .maxu g d a b),
   (0x01, 15, .divu g d a b), (0x01, 16, .remu g d a b), (0x01, 17, .divs g d a b), (0x01, 18, .rems g d a b),
   (0x25, 0, .vmin g d a b .h16), (0x25, 4, .vmin g d a b .w16), (0x25, 8, .vmin g d a b .i16), (0x26, 4, .vmax g d a b .w16),
   (0x28, 0, .vsel g d a b .h16), (0x38, 0, .vext g d a b), (0x39, 0, .vins g d a b)]

/-- Scalar operations, immediates and comparisons write their result to their destination alone. -/
def Obligations.ScalarArithmeticWritesItsDestination : Prop :=
  Sys2Proof.Claims.ScalarTwoRegisterResults ∧ Sys2Proof.Claims.ScalarImmediateResults ∧ Sys2Proof.Claims.ComparisonsWriteOnePredicate

/-- Loads and stores move their bytes and no other, and bad addresses fault. -/
def Obligations.LoadsAndStoresMoveTheirBytes : Prop :=
  Sys2Proof.Claims.LoadsReadMemory ∧ Sys2Proof.Claims.StoresWriteOnlyTheirBytes ∧ Sys2Proof.Claims.BadAccessesFault

/-- Jumps redirect fetch; QRD, CRR and CRW read and write what they name. -/
def Obligations.JumpsQueueReadsAndControlRegisters : Prop :=
  Sys2Proof.Claims.JumpsRedirectFetch ∧ Sys2Proof.Claims.QueueAndControlRegisterReads

/-- REL, ACQ, SYNC.ALL and STEP.COMMIT complete as ordered. -/
def Obligations.OrderingAndStepCommit : Prop :=
  Sys2Proof.Claims.OrderingInstructionsComplete ∧ Sys2Proof.Claims.ReleasesWaitForTheirRows ∧ Sys2Proof.Claims.StepCommitRunsThroughItsPhases

/-- END, SU.CND, BRK and the flags, channels and arrivals, local and remote. -/
def Obligations.FoldControlFlagsAndChannels : Prop :=
  Sys2Proof.Claims.FoldControlInstructions ∧ Sys2Proof.Claims.LocalFlagsAndChannels ∧ Sys2Proof.Claims.ChannelBoundsFault ∧ Sys2Proof.Claims.RemoteSignalsEnterTheSlotQueue

/-- The lane-wise, reducing and converting vector instructions write V[D]. -/
def Obligations.VectorLaneOperations : Prop :=
  Sys2Proof.Claims.VectorLaneResults

/-- Vector moves, VUNPK, vector loads, stores and queue accesses. -/
def Obligations.VectorMovesAndMemory : Prop :=
  Sys2Proof.Claims.VectorMoves ∧ Sys2Proof.Claims.VectorUnpack ∧ Sys2Proof.Claims.VectorLoadsAndStores ∧ Sys2Proof.Claims.VectorBankMoves ∧ Sys2Proof.Claims.VectorQueueAccessBegins ∧ Sys2Proof.Claims.VectorQueueAccessEnds

/-- Matrix staging, zeroing and bank moves, row by row. -/
def Obligations.MatrixMoves : Prop :=
  Sys2Proof.Claims.MatrixMovesBegin ∧ Sys2Proof.Claims.MatrixMovesMoveTheirRows ∧ Sys2Proof.Claims.ZeroingAndQueueStagingStep

/-- MMA and MMAS check, read their rows and add their products. -/
def Obligations.MatrixProducts : Prop :=
  Sys2Proof.Claims.MatrixProductsBegin ∧ Sys2Proof.Claims.MatrixProductsReadTheirRows ∧ Sys2Proof.Claims.MatrixProductResults

/-- MMASK, MSMX and MSCL. -/
def Obligations.AttentionInstructions : Prop :=
  Sys2Proof.Claims.MaskingScores ∧ Sys2Proof.Claims.SoftmaxOfABlock ∧ Sys2Proof.Claims.CorrectionOfAnAccumulator

/-- DMOV starts a slot, and a finished slot signals. -/
def Obligations.DmaSlotsStartAndFinish : Prop :=
  Sys2Proof.Claims.DmovLoadsItsSlot ∧ Sys2Proof.Claims.DmovChecksItsTemplate ∧ Sys2Proof.Claims.FinishedSlotsSignal

/-- Each DMA kind moves one row or entry. -/
def Obligations.DmaSlotsMoveRowsAndEntries : Prop :=
  Sys2Proof.Claims.RefusedSlotsWait ∧ Sys2Proof.Claims.RawSlotsMoveOneRow ∧ Sys2Proof.Claims.TinTakesTilesEntryByEntry ∧ Sys2Proof.Claims.TstgExpandsTiles ∧ Sys2Proof.Claims.ToutReadsFormsAndEmits ∧ Sys2Proof.Claims.TheCompressorTakesLowerSlotsFirst

/-- The firing rule chooses the lowest match and activates it. -/
def Obligations.FiringChoosesAndActivatesAFold : Prop :=
  Sys2Proof.Claims.FoldChoiceTakesTheLowestMatch ∧ Sys2Proof.Claims.FoldFireActivatesTheChosenFold

/-- Steering decides heads; dropped and stale tokens leave entry by entry. -/
def Obligations.SteeringDropsAndDiscards : Prop :=
  Sys2Proof.Claims.SteeringDecidesTheHead ∧ Sys2Proof.Claims.DropsAndDiscardsRemoveOneEntry

/-- Entries arrive at the tail; fetch dispatches in order. -/
def Obligations.ArrivalsAndFetch : Prop :=
  Sys2Proof.Claims.ArrivalsEnterTheQueue ∧ Sys2Proof.Claims.FetchDispatchesInOrder ∧ Sys2Proof.Claims.FetchReadsItsRow

/-- Halt requests drain, the stall watchdog raises, cores start at their count. -/
def Obligations.HaltsStallsAndStarts : Prop :=
  Sys2Proof.Claims.HaltRequestsDrainIntoHalt ∧ Sys2Proof.Claims.StallWatchdogRaises ∧ Sys2Proof.Claims.CoresStartAtTheirCount

/-- A core that takes a fault fills its record, stops and is abandoned. -/
def Obligations.TakingAFaultFillsTheRecord : Prop :=
  Sys2Proof.Claims.TakingAFaultFillsTheRecord ∧ Sys2Proof.Claims.SecondFaultsSetMore ∧ Sys2Proof.Claims.FaultedCoresAreAbandoned

/-- Control messages apply at their core; stale ones are only counted. -/
def Obligations.ControlMessagesAtACore : Prop :=
  Sys2Proof.Claims.ControlMessagesApplyAtTheirCore ∧ Sys2Proof.Claims.LateGuardResultSetsRdone ∧ Sys2Proof.Claims.StaleMessagesOnlyCount

/-- A tide node steps when it is ready. -/
def Obligations.NodesStepWithTheTide : Prop :=
  Sys2Proof.Claims.NodesStepWhenReady ∧ Sys2Proof.Claims.ReadinessNeedsNeighboursAndRelease ∧ Sys2Proof.Claims.PaceAndRate

/-- Fault messages are recorded, and the first fault of a job is kept. -/
def Obligations.FaultsOfAJobAreRecorded : Prop :=
  Sys2Proof.Claims.FaultMessagesAreRecorded ∧ Sys2Proof.Claims.TheFirstFaultIsKept

/-- Collectors gather guard steps and the guard unit decides them. -/
def Obligations.GuardStepsAreGathered : Prop :=
  Sys2Proof.Claims.CollectorsGatherGuardSteps ∧ Sys2Proof.Claims.GuardUnitCountsAndDecides

/-- A guard step moves the loss scale or times out. -/
def Obligations.GuardStepsDecideTheScale : Prop :=
  Sys2Proof.Claims.GuardStepsDecideTheScale ∧ Sys2Proof.Claims.GuardStepsTimeOut

/-- Barrier arrivals are gathered, recorded and released. -/
def Obligations.BarriersGatherAndRelease : Prop :=
  Sys2Proof.Claims.CollectorsGatherBarrierArrivals ∧ Sys2Proof.Claims.BarrierUnitsRecordArrivals ∧ Sys2Proof.Claims.BarrierReleaseOpensTheNextGeneration

/-- Messages and digests of other modules. -/
def Obligations.MessagesAndDigestsOfOtherModules : Prop :=
  Sys2Proof.Claims.MessagesOfOtherModules ∧ Sys2Proof.Claims.DigestsFoldAndAreExchanged

/-- Doorbells, queue pairs, vectors and the tide count register. -/
def Obligations.QueuePairsAndVectors : Prop :=
  Sys2Proof.Claims.DoorbellsMoveTheirIndex ∧ Sys2Proof.Claims.QueuePairsEnableAndStop ∧ Sys2Proof.Claims.VectorsAndTheCountRegister

/-- Entries are taken in turn and completed; bad ones change nothing. -/
def Obligations.CommandsAreTakenAndCompleted : Prop :=
  Sys2Proof.Claims.EntriesAreTakenInTurn ∧ Sys2Proof.Claims.CompletionsAreWritten ∧ Sys2Proof.Claims.EventsWaitForRoom ∧ Sys2Proof.Claims.CommandsOutOfTurnOrFormChangeNothing

/-- Partitions are created, reset and destroyed. -/
def Obligations.PartitionsAreMadeResetAndDestroyed : Prop :=
  Sys2Proof.Claims.PartCreateMakesAnEmptyPartition ∧ Sys2Proof.Claims.PartitionsResetAndDestroy ∧ Sys2Proof.Claims.AbsorbQuietReleasesTheMesh ∧ Sys2Proof.Claims.ReadbackTakesAPanDark

/-- Partition queries and windows; aborts, status and flags of jobs. -/
def Obligations.QueriesWindowsAndAborts : Prop :=
  Sys2Proof.Claims.PartitionQueriesAndWindows ∧ Sys2Proof.Claims.JobsAbortReportAndSignal

/-- Jobs start, hold and resume. -/
def Obligations.JobsStartHoldAndResume : Prop :=
  Sys2Proof.Claims.JobStartRunsTheCores ∧ Sys2Proof.Claims.JobsHoldAndResume

/-- Jobs load tile by tile and end. -/
def Obligations.JobsLoadAndEnd : Prop :=
  Sys2Proof.Claims.JobLoadBeginsTheLoader ∧ Sys2Proof.Claims.LoaderTilesFillTheCores ∧ Sys2Proof.Claims.JobsEndWithOk

/-- Jobs are saved, restored, exported and imported. -/
def Obligations.JobsSaveRestoreAndMove : Prop :=
  Sys2Proof.Claims.SavesDrainHaltAndFinish ∧ Sys2Proof.Claims.SavesTimeOut ∧ Sys2Proof.Claims.RestoresBringTheRecordBack ∧ Sys2Proof.Claims.ExportsAndImportsMoveTheRecord

/-- Hot reloads begin, commit and turn the epoch. -/
def Obligations.ReloadsReplaceCode : Prop :=
  Sys2Proof.Claims.ReloadsBegin ∧ Sys2Proof.Claims.ReloadsAreConfirmedAndCommitted ∧ Sys2Proof.Claims.ReloadWritesTurnTheEpoch

/-- Debuggers attach, detach, read and write through the rake. -/
def Obligations.DebuggersAttachAndRead : Prop :=
  Sys2Proof.Claims.DebuggersAttachAndDetach ∧ Sys2Proof.Claims.TheRakeAndTheLog

/-- Debuggers halt and run cores and set breakpoints. -/
def Obligations.DebuggersHaltAndRun : Prop :=
  Sys2Proof.Claims.DebugHalts ∧ Sys2Proof.Claims.DebugRuns ∧ Sys2Proof.Claims.BreakpointsAreSetAtTheStations

/-- Manual release of sync objects, and core resets. -/
def Obligations.ManualReleaseAndResets : Prop :=
  Sys2Proof.Claims.ManualReleaseOfCores ∧ Sys2Proof.Claims.ManualReleaseOfObjects ∧ Sys2Proof.Claims.ResetsClearTheirCores

/-- Stream contexts read and write whole tiles. -/
def Obligations.StreamTilesAreReadAndWritten : Prop :=
  Sys2Proof.Claims.StreamReadsEmitTheTile ∧ Sys2Proof.Claims.StreamReadsThatFail ∧ Sys2Proof.Claims.StreamWritesStoreTheTile ∧ Sys2Proof.Claims.SpilledTilesAreCheckedAndStored

/-- Host reads and writes of perimeter memory, and its stacks. -/
def Obligations.HostMemoryAccesses : Prop :=
  Sys2Proof.Claims.HostReadsAnswerALine ∧ Sys2Proof.Claims.HostWritesStoreTheMaskedBytes ∧ Sys2Proof.Claims.StacksRefreshAndReport

/-- Stream contexts start, release, stop and drain. -/
def Obligations.StreamCommands : Prop :=
  Sys2Proof.Claims.StreamCommandsMoveTheContext ∧ Sys2Proof.Claims.DrainsWaitForTheSpills

/-- Link blocks are taken in order; ports train, fail and retrain. -/
def Obligations.LinksAndPorts : Prop :=
  Sys2Proof.Claims.LinkBlocksAreTakenInOrder ∧ Sys2Proof.Claims.PortsAnswerAndReplay ∧ Sys2Proof.Claims.PortsTrainFailAndRetrain

/-- Packets are routed, dropped and sent in turn. -/
def Obligations.PacketsAreRouted : Prop :=
  Sys2Proof.Claims.HeadersAreRoutedOrDropped ∧ Sys2Proof.Claims.PacketsDepartInTurn

/-- Channels carry tokens as packets with credits. -/
def Obligations.ChannelsDeliverOnce : Prop :=
  Sys2Proof.Claims.ChannelsCarryTokens ∧ Sys2Proof.Claims.DataPacketsTakeABuffer ∧ Sys2Proof.Claims.AcknowledgementsReturnCredits

/-- Notices and timers resend once; the fabric registers. -/
def Obligations.TransportResendsAndRegisters : Prop :=
  Sys2Proof.Claims.NoticesAndTimersResendOnce ∧ Sys2Proof.Claims.FabricRegistersAreWritten

/-- Rate changes and the loss of the reference. -/
def Obligations.RateAndReference : Prop :=
  Sys2Proof.Claims.RateChangesAreScheduled ∧ Sys2Proof.Claims.TheReferenceIsLostAndBack

/-- HOLD stops the wafer; pans are switched off and leave it. -/
def Obligations.HoldAndDarkPans : Prop :=
  Sys2Proof.Claims.HoldStopsTheWafer ∧ Sys2Proof.Claims.PansAreSwitchedOff ∧ Sys2Proof.Claims.DarkPansLeaveTheWafer

/-- Thermal limits, the power tick and the energy meters. -/
def Obligations.ThermalTickAndEnergy : Prop :=
  Sys2Proof.Claims.TemperaturesMoveTheLimit ∧ Sys2Proof.Claims.TheTickMovesTheCap ∧ Sys2Proof.Claims.EnergyIsMetered

/-- The power entry, caps and park. -/
def Obligations.EntryCapsAndPark : Prop :=
  Sys2Proof.Claims.TheEntryKeepsOrDarkensTheModule ∧ Sys2Proof.Claims.CapsAndParkByPldm

/-- Register reads and writes, router words and the schedule period. -/
def Obligations.RegistersAreReadAndWritten : Prop :=
  Sys2Proof.Claims.RegisterCommandsReadAndWrite ∧ Sys2Proof.Claims.TheMeshIsConfigured ∧ Sys2Proof.Claims.FirmwareWritesRegisters

/-- Sessions bind pairs; the security block and the mailbox answer. -/
def Obligations.SessionsBindAndAnswer : Prop :=
  Sys2Proof.Claims.PairsAreBoundBySessions ∧ Sys2Proof.Claims.TheSecurityBlockAnswers ∧ Sys2Proof.Claims.MailboxCommandsAnswer

/-- Licences, test packs, module commands and energy reads. -/
def Obligations.LicencesPacksAndModuleCommands : Prop :=
  Sys2Proof.Claims.LicencesAndPacksAreInstalled ∧ Sys2Proof.Claims.ModuleCommandsAct ∧ Sys2Proof.Claims.EnergyIsRead

/-- Bring-up from power good to the mesh. -/
def Obligations.BringUpToTheMesh : Prop :=
  Sys2Proof.Claims.BringUpStartsTheFirmware ∧ Sys2Proof.Claims.BringUpPreparesTheMesh

/-- Pans are numbered, tested and watched. -/
def Obligations.PansAreNumberedAndTested : Prop :=
  Sys2Proof.Claims.BringUpNumbersThePans ∧ Sys2Proof.Claims.PansAreTestedAndWatched

/-- A step takes the command at the front of the queue and carries it out with the rest of the queue; on an empty queue the block idles
(the queue and the idling are the model's: assumption log 1). -/
def Obligations.StepRunsTheFrontCommand : Prop :=
  ∀ (s : State) (i : Instr) (l : List Instr), step { s with pending := i :: l } = exec i { s with pending := l } ∧ step { s with pending := [] } = .next { s with pending := [] }

/-- The module after reset: its function shows class code 0x12_0000, a 64-bit BAR0 that is not prefetchable, 1 MiB, and no other BAR, with
the Register Locator's two blocks; no command waits, every core is CLEAR, the pace stands at code 16 of the fallback with CAL at 22,
the schedule period is 1,024, no partition exists, no pair is enabled, no port or stack is up, no firmware runs, and every table is in its
canonical form with the fuses as they stand (14 R336, Table 14-2; 02 R53; 10 Table 10-4; 11 R262; 15 R369, R395; the values that the spec does not
give, zero registers and unwritten fuses among them, are the model's: assumption log 3, 4, and of the locator's kinds, 118). -/
def Obligations.ResetIsAsTheSpecSays : Prop :=
  let s := State.reset
  (∀ w, configWord s 0x08 = some w → fld w 8 24 = 0x120000) ∧ configWord s 0x10 = some 4 ∧ s.host.pci.barSize = 0x100000 ∧
    (∀ off, off ∈ [0x18, 0x1C, 0x20, 0x24] → configWord s off = some 0) ∧ (locator s).map (·.2.1) = [0, 0x10000] ∧
    s.pending = [] ∧ s.tablesWf = true ∧ (∀ g, (getCore s g).r.st = .clear ∧ predGet (getCore s g).p 0 = true ∧ (getCore s g).stallW = 0x00010000) ∧
    s.tide.rate = 16 ∧ s.tide.fallback = true ∧ s.tide.cal = 22 ∧ s.tide.hold = false ∧ period s = 1024 ∧
    (∀ k, (getPart s k).st = .none ∧ (getPan s k).part = none ∧ (getPan s k).num = none) ∧
    (∀ q, (getQp s q).en = false ∧ (getQp s q).role = 0) ∧ (∀ p, (getPort s p).st = 0) ∧ (∀ e, (getEng s e).trained = false) ∧
    s.boot.good = false ∧ s.boot.p1 = false ∧ s.host.early = false ∧ s.host.full = false ∧ s.sec.licence = none

/-- Every step keeps the tables of the module's units in their canonical form, the tables that the memories of the stacks are among: keys
strictly rise and no entry equals what an unlisted key reads as. -/
def Obligations.StepsKeepTheTablesCanonical : Prop :=
  ∀ (s t : State), s.tablesWf = true → step s = .next t → t.tablesWf = true

/-- Every step takes just the front command off the queue, and lowers no fuse counter: the version counters of firmware, licence and test pack
only rise, and the other fuses stay (16 R409, Table 16-5). -/
def Obligations.StepsKeepTheQueueAndTheFuses : Prop :=
  ∀ (s t : State), step s = .next t → t.pending = s.pending.tail ∧ Fuses.le s.fuse t.fuse

/-- A well-formed command always completes with a next state, in every state of the module: no ordinary operand and no state of the block
stops it; no command is refused, and one that stops names a core past the wafer (the stop is the model's: assumption log 91). -/
def Obligations.EveryWellFormedCommandCompletes : Prop :=
  ∀ (s : State) (i : Instr), (i.wf = true → ∃ t, exec i s = .next t) ∧ (∀ r, exec i s ≠ .refused r) ∧ (∀ f, exec i s = .fault f → i.wf = false)

/-- The words that a core fetches decode to their instructions with every register at every value: the R layout from its fields, whatever the
predicate, ADDI and LI from a sign-extended immediate; the FN values 0x13 to 0x1F of the ALU group are FORMAT, SUB 0x01 (03 R55 to R57,
R64, R65, R67, Table 3-13). -/
def Obligations.CoreWordsDecode : Prop :=
  ∀ (g : Nat) (d a b : Reg) (pr : Fin 16) (op fn : Nat) (i : Instr) (imm : BitVec 10) (w2 : Word),
    let word := fun (op fn : Nat) => (BitVec.ofNat 32 ((pr : Nat) * 2 ^ 27 + op * 2 ^ 20 + (d : Nat) * 2 ^ 15 + (a : Nat) * 2 ^ 10 + (b : Nat) * 2 ^ 5 + fn) : Word)
    let wordI := fun (op : Nat) (a : Reg) => (BitVec.ofNat 32 ((pr : Nat) * 2 ^ 27 + op * 2 ^ 20 + (d : Nat) * 2 ^ 15 + (a : Nat) * 2 ^ 10 + imm.toNat) : Word)
    ((op, fn, i) ∈ wordsR g d a b → decodeCore g (word op fn) w2 = .ok i) ∧
    (18 < fn → fn < 32 → decodeCore g (word 0x01 fn) w2 = .error (1, fn)) ∧
    decodeCore g (wordI 0x02 a) w2 = .ok (.addi g d a (imm.signExtend 32)) ∧
    decodeCore g (wordI 0x04 a) w2 = .ok (.ori g d a (imm.setWidth 32)) ∧ decodeCore g (wordI 0x09 0) w2 = .ok (.li g d (imm.signExtend 32))

/-- A word with OP = 0x00 of an engine's range decodes to no instruction, and its fetch is FORMAT, SUB 0x01, of that engine; a word of zeros is one
(03 R58). A 64-bit one whose second word would lie at 0x4000 takes BOUNDS, SUB 0x08, instead (02 R29). -/
def Obligations.ZeroWordsFaultAtFetch : Prop :=
  ∀ (s : State) (g : Nat) (w w2 : Word), fld w 20 5 = 0 →
    let c := getCore s g
    let e := envOf s g
    decodeCore g w w2 = .error (1, 0) ∧ fld (0 : Word) 20 5 = 0 ∧
    (g < numCores → live e c = true → c.x.fetch = .going → c.x.fetchAt ≤ e.now → c.x.haltReq = false → c.x.fw1 = none → c.pc < 0x4000 →
      bufWord c c.pc = some w → eccBad c c.pc 4 = none → (getStation s (stationOf g)).mask = 0 →
      ((w.getLsbD 31 = false ∨ (c.pc + 4 < 0x4000 ∧ bufWord c (c.pc + 4) = some w2 ∧ eccBad c (c.pc + 4) 4 = none)) →
        exec (.instructionFetch g) s = .next (setCore s g
          (coreFault e (engOf (fld w 25 2)) stFormat 0x01 0 (fld w 20 7) (w.getLsbD 31) c.pc c))) ∧
      (w.getLsbD 31 = true → 0x4000 ≤ c.pc + 4 → exec (.instructionFetch g) s = .next (setCore s g
        (coreFault e (engOf (fld w 25 2)) stBounds 0x08 0 (fld w 20 7) true c.pc c))))

/-- DWAIT is the word of OP 0x62 with its mask in FN[3:0]; FN[4], D, A or B not 0 is FORMAT, SUB 0x02. At the head of the DMA issue queue it waits while
a slot of its mask is busy, and once every one is idle, or for a mask of 0, it completes with latency 1 (04 R113). -/
def Obligations.DwaitFollowsItsRule : Prop :=
  ∀ (s : State) (g : Nat) (mask : BitVec 4) (k : Disp) (x : Nat) (w2 : Word),
    let c := getCore s g
    decodeCore g (BitVec.ofNat 32 (0x62 * 2 ^ 20 + mask.toNat)) w2 = .ok (.dwait g mask) ∧
    (0 < x → x < 65536 → decodeCore g (BitVec.ofNat 32 (0x62 * 2 ^ 20 + x * 2 ^ 4 + mask.toNat)) w2 = .error (2, 0)) ∧
    (mayGo s g .dma (.dwait g mask) k →
      ((∀ j : Fin 4, mask.getLsbD j = true → slotFree c j = true) → exec (.dwait g mask) s = .next (setCore s g (taken s g .dma k 1 1))) ∧
      ((∃ j : Fin 4, mask.getLsbD j = true ∧ slotFree c j = false) → exec (.dwait g mask) s = .next (setCore s g c)))

/-- Division never faults: by zero DIVU and DIVS give 0xFFFFFFFF and REMU and REMS give A; 0x80000000 by -1 gives 0x80000000 and remainder 0; the
divider holds the scalar engine for its 18 steps, in which no other scalar instruction begins (03 R66). -/
def Obligations.DivisionNeverFaults : Prop :=
  ∀ (s : State) (g : Nat) (d a b : Reg) (k : Disp),
    let c := getCore s g
    let x := c.s[a]
    let y := c.s[b]
    let gives := fun (i : Instr) (v : Word) => mayBegin s g .scalar i k →
      ∃ c', exec i s = .next (setCore s g c') ∧ c'.s = c.s.set d v ∧ c'.r = c.r ∧
        ∀ (e : Env) (j : Instr), e.now < (envOf s g).now + 18 → ready e .scalar j c' = none
    (y = 0 → gives (.divu g d a b) 0xFFFFFFFF ∧ gives (.divs g d a b) 0xFFFFFFFF ∧ gives (.remu g d a b) x ∧ gives (.rems g d a b) x) ∧
    (x = 0x80000000 → y = 0xFFFFFFFF → gives (.divs g d a b) 0x80000000 ∧ gives (.rems g d a b) 0) ∧
    (∀ i ∈ [Instr.divu g d a b, .divs g d a b, .remu g d a b, .rems g d a b], ∃ v, gives i v)
end

