-- ==== Sys2Proof/Laws/Table.lean ====
section
/-! SUPPORT. The laws of sparse tables and byte memories: what a read gives after a write, what keeps the canonical form, and
that tables in it that read alike are equal. -/

namespace Sys2Proof.Machine

set_option Elab.async false

variable {α : Type}

@[simp] theorem tget_nil (d : α) (k : Nat) : tget d [] k = d := rfl

theorem tget_cons (d : α) (p : Nat × α) (t : Tbl α) (k : Nat) : tget d (p :: t) k = if p.1 = k then p.2 else tget d t k := rfl

theorem tget_tput_same (d : α) (t : Tbl α) (k : Nat) (v : α) : tget d (tput t k v) k = v := by
  induction t with
  | nil => simp [tput, tget]
  | cons p t ih =>
    obtain ⟨j, a⟩ := p
    simp only [tput]
    split
    · simp [tget]
    · split
      · simp [tget]
      · simp [tget, *]

theorem tget_tput_ne (d : α) (t : Tbl α) (k j : Nat) (v : α) (h : j ≠ k) : tget d (tput t k v) j = tget d t j := by
  induction t with
  | nil => simp [tput, tget, h.symm]
  | cons p t ih =>
    obtain ⟨i, a⟩ := p
    simp only [tput]
    split
    · next e => subst e; simp [tget, h.symm]
    · split
      · simp [tget, h.symm]
      · simp [tget, ih]

theorem tget_terase_ne (d : α) (t : Tbl α) (k j : Nat) (h : j ≠ k) : tget d (terase t k) j = tget d t j := by
  induction t with
  | nil => rfl
  | cons p t ih =>
    obtain ⟨i, a⟩ := p
    simp only [terase]
    split
    · next e => subst e; simp [tget, h.symm]
    · split
      · rfl
      · simp [tget, ih]

variable [DecidableEq α]

/-- A write leaves every other key as it was. -/
@[simp] theorem tget_tset_ne (d : α) (t : Tbl α) (k j : Nat) (v : α) (h : j ≠ k) : tget d (tset d t k v) j = tget d t j := by
  unfold tset
  split
  · exact tget_terase_ne d t k j h
  · exact tget_tput_ne d t k j v h

/-- A written value that is not the default is read back. -/
theorem tget_tset_of_ne (d : α) (t : Tbl α) (k : Nat) (v : α) (h : v ≠ d) : tget d (tset d t k v) k = v := by
  unfold tset
  rw [if_neg h, tget_tput_same]

theorem twf_tail {d : α} {p : Nat × α} {t : Tbl α} (h : twf d (p :: t) = true) : twf d t = true := by
  obtain ⟨j, a⟩ := p
  cases t with
  | nil => rfl
  | cons q t => obtain ⟨k, b⟩ := q; simp only [twf, Bool.and_eq_true] at h; exact h.2

theorem twf_head {d : α} {j : Nat} {a : α} {t : Tbl α} (h : twf d ((j, a) :: t) = true) : a ≠ d := by
  cases t with
  | nil => simpa [twf] using h
  | cons q t => obtain ⟨k, b⟩ := q; simp only [twf, Bool.and_eq_true, decide_eq_true_eq] at h; exact h.1.1

/-- In a table in canonical form the keys behind the first are greater. -/
theorem twf_lt {d : α} {j : Nat} {a : α} {t : Tbl α} (h : twf d ((j, a) :: t) = true) : ∀ p ∈ t, j < p.1 := by
  induction t generalizing j a with
  | nil => simp
  | cons q t ih =>
    obtain ⟨k, b⟩ := q
    intro p hp
    have hjk : j < k := by simp only [twf, Bool.and_eq_true, decide_eq_true_eq] at h; exact h.1.2
    rcases List.mem_cons.mp hp with rfl | hp
    · exact hjk
    · exact Nat.lt_trans hjk (ih (twf_tail h) p hp)

/-- The canonical form from its parts. -/
theorem twf_cons {d : α} {j : Nat} {a : α} {t : Tbl α} (ha : a ≠ d) (hlt : ∀ p ∈ t, j < p.1) (ht : twf d t = true) :
    twf d ((j, a) :: t) = true := by
  cases t with
  | nil => simpa [twf] using ha
  | cons q t =>
    obtain ⟨k, b⟩ := q
    simp only [twf, Bool.and_eq_true, decide_eq_true_eq]
    exact ⟨⟨ha, hlt (k, b) (by simp)⟩, ht⟩

omit [DecidableEq α] in
theorem tget_of_lt {d : α} {t : Tbl α} {k : Nat} (h : ∀ p ∈ t, k < p.1) : tget d t k = d := by
  induction t with
  | nil => rfl
  | cons p t ih =>
    have := h p (by simp)
    rw [tget_cons, if_neg (by omega)]
    exact ih (fun q hq => h q (by simp [hq]))

theorem tget_terase_same (d : α) (t : Tbl α) (k : Nat) (h : twf d t = true) : tget d (terase t k) k = d := by
  induction t with
  | nil => rfl
  | cons p t ih =>
    obtain ⟨j, a⟩ := p
    simp only [terase]
    split
    · next e => subst e; exact tget_of_lt (twf_lt h)
    · split
      · next hne hlt =>
        rw [tget_cons, if_neg hne]
        exact tget_of_lt (fun q hq => Nat.lt_trans hlt (twf_lt h q hq))
      · next hne _ => rw [tget_cons, if_neg hne]; exact ih (twf_tail h)

/-- A write to a table in canonical form is read back. -/
@[simp] theorem tget_tset_same (d : α) (t : Tbl α) (k : Nat) (v : α) (h : twf d t = true) : tget d (tset d t k v) k = v := by
  unfold tset
  split
  · next e => rw [tget_terase_same d t k h, e]
  · exact tget_tput_same d t k v

omit [DecidableEq α] in
theorem mem_terase {t : Tbl α} {k : Nat} {p : Nat × α} (h : p ∈ terase t k) : p ∈ t := by
  induction t with
  | nil => simp [terase] at h
  | cons q t ih =>
    obtain ⟨j, a⟩ := q
    simp only [terase] at h
    split at h
    · exact List.mem_cons_of_mem _ h
    · split at h
      · exact h
      · rcases List.mem_cons.mp h with rfl | h
        · simp
        · exact List.mem_cons_of_mem _ (ih h)

omit [DecidableEq α] in
theorem mem_tput {t : Tbl α} {k : Nat} {v : α} {p : Nat × α} (h : p ∈ tput t k v) : p.1 = k ∨ p ∈ t := by
  induction t with
  | nil => simp [tput] at h; simp [h]
  | cons q t ih =>
    obtain ⟨j, a⟩ := q
    simp only [tput] at h
    split at h
    · rcases List.mem_cons.mp h with rfl | h
      · simp
      · exact .inr (List.mem_cons_of_mem _ h)
    · split at h
      · rcases List.mem_cons.mp h with rfl | h
        · simp
        · exact .inr h
      · rcases List.mem_cons.mp h with rfl | h
        · simp
        · rcases ih h with e | e
          · exact .inl e
          · exact .inr (List.mem_cons_of_mem _ e)

/-- A write keeps the canonical form. -/
theorem twf_tset (d : α) (t : Tbl α) (k : Nat) (v : α) (h : twf d t = true) : twf d (tset d t k v) = true := by
  unfold tset
  split
  · induction t with
    | nil => rfl
    | cons p t ih =>
      obtain ⟨j, a⟩ := p
      simp only [terase]
      split
      · exact twf_tail h
      · split
        · exact h
        · exact twf_cons (twf_head h) (fun q hq => twf_lt h q (mem_terase hq)) (ih (twf_tail h))
  · next hv =>
    induction t with
    | nil => simpa [tput, twf] using hv
    | cons p t ih =>
      obtain ⟨j, a⟩ := p
      simp only [tput]
      split
      · next e => subst e; exact twf_cons hv (twf_lt h) (twf_tail h)
      · split
        · next hne hlt => exact twf_cons hv (fun q hq => by
            rcases List.mem_cons.mp hq with rfl | hq
            · exact hlt
            · exact Nat.lt_trans hlt (twf_lt h q hq)) h
        · next hne hnl => exact twf_cons (twf_head h) (fun q hq => by
            rcases mem_tput hq with e | hq
            · omega
            · exact twf_lt h q hq) (ih (twf_tail h))

theorem mem_tmapv {d : α} {f : Nat → α → α} {t : Tbl α} {p : Nat × α} (h : p ∈ tmapv d f t) : ∃ a, (p.1, a) ∈ t ∧ p.2 = f p.1 a := by
  induction t with
  | nil => simp [tmapv] at h
  | cons q t ih =>
    obtain ⟨j, a⟩ := q
    simp only [tmapv] at h
    split at h
    · obtain ⟨b, hb, e⟩ := ih h; exact ⟨b, by simp [hb], e⟩
    · rcases List.mem_cons.mp h with rfl | h
      · exact ⟨a, by simp, rfl⟩
      · obtain ⟨b, hb, e⟩ := ih h; exact ⟨b, by simp [hb], e⟩

/-- Changing every entry keeps the canonical form. -/
theorem twf_tmapv (d : α) (f : Nat → α → α) (t : Tbl α) (h : twf d t = true) : twf d (tmapv d f t) = true := by
  induction t with
  | nil => rfl
  | cons p t ih =>
    obtain ⟨j, a⟩ := p
    simp only [tmapv]
    split
    · exact ih (twf_tail h)
    · next hne => exact twf_cons hne (fun q hq => by
        obtain ⟨b, hb, -⟩ := mem_tmapv hq
        exact (twf_lt h _ hb :)) (ih (twf_tail h))

/-- What a changed table reads: the image of what was there, where the change leaves the default as it is. -/
theorem tget_tmapv (d : α) (f : Nat → α → α) (t : Tbl α) (k : Nat) (h : twf d t = true) (hd : f k d = d) :
    tget d (tmapv d f t) k = f k (tget d t k) := by
  induction t with
  | nil => simp [tmapv, hd]
  | cons p t ih =>
    obtain ⟨j, a⟩ := p
    simp only [tmapv, tget_cons]
    by_cases hj : j = k
    · subst hj
      rw [if_pos rfl]
      split
      · next e =>
        rw [e]
        exact tget_of_lt (fun q hq => by
          obtain ⟨b, hb, -⟩ := mem_tmapv hq
          exact (twf_lt h _ hb :))
      · simp [tget]
    · rw [if_neg hj]
      split
      · exact ih (twf_tail h)
      · rw [tget_cons, if_neg hj]; exact ih (twf_tail h)

/-- A key that is listed in a table in canonical form does not read as the default. -/
theorem tget_mem {d : α} {t : Tbl α} {k : Nat} {a : α} (h : twf d t = true) (hm : (k, a) ∈ t) : tget d t k = a := by
  induction t with
  | nil => simp at hm
  | cons p t ih =>
    obtain ⟨j, b⟩ := p
    rw [tget_cons]
    rcases List.mem_cons.mp hm with e | hm
    · obtain ⟨rfl, rfl⟩ := Prod.mk.inj e; simp
    · have := twf_lt h _ hm
      rw [if_neg (show ¬ j = k by simp only at this; omega)]
      exact ih (twf_tail h) hm

/-- Tables in canonical form that read alike are equal. -/
theorem tbl_ext {d : α} {t u : Tbl α} (ht : twf d t = true) (hu : twf d u = true) (h : ∀ k, tget d t k = tget d u k) : t = u := by
  induction t generalizing u with
  | nil =>
    cases u with
    | nil => rfl
    | cons q u =>
      obtain ⟨k, b⟩ := q
      have := h k
      rw [tget_nil, tget_cons, if_pos rfl] at this
      exact absurd this.symm (twf_head hu)
  | cons p t ih =>
    obtain ⟨j, a⟩ := p
    cases u with
    | nil =>
      have := h j
      rw [tget_nil, tget_cons, if_pos rfl] at this
      exact absurd this (twf_head ht)
    | cons q u =>
      obtain ⟨k, b⟩ := q
      have hjk : j = k := by
        rcases Nat.lt_trichotomy j k with hlt | he | hlt
        · have := h j
          rw [tget_cons, if_pos rfl, tget_of_lt (d := d) (t := (k, b) :: u) (k := j) (fun q hq => by
            rcases List.mem_cons.mp hq with rfl | hq
            · exact hlt
            · exact Nat.lt_trans hlt (twf_lt hu q hq))] at this
          exact absurd this (twf_head ht)
        · exact he
        · have := h k
          rw [tget_cons (p := (k, b)), if_pos rfl, tget_of_lt (d := d) (t := (j, a) :: t) (k := k) (fun q hq => by
            rcases List.mem_cons.mp hq with rfl | hq
            · exact hlt
            · exact Nat.lt_trans hlt (twf_lt ht q hq))] at this
          exact absurd this.symm (twf_head hu)
      subst hjk
      have hab : a = b := by
        have := h j
        rwa [tget_cons, if_pos rfl, tget_cons, if_pos rfl] at this
      subst hab
      rw [ih (twf_tail ht) (twf_tail hu) (fun i => by
        by_cases hi : j = i
        · subst hi; rw [tget_of_lt (twf_lt ht), tget_of_lt (twf_lt hu)]
        · have := h i
          rwa [tget_cons, if_neg hi, tget_cons, if_neg hi] at this)]

/-- Writing what is read changes nothing. -/
theorem tset_tget (d : α) (t : Tbl α) (k : Nat) (h : twf d t = true) : tset d t k (tget d t k) = t :=
  tbl_ext (twf_tset d t k _ h) h (fun j => by
    by_cases e : j = k
    · subst e; exact tget_tset_same d t j _ h
    · exact tget_tset_ne d t k j _ e)

/-- A write to a byte memory keeps its canonical form. -/
theorem memory_wf_mwrite (m : Mem) (a : Nat) (bs : List Byte) (h : Memory.wf m = true) : Memory.wf (mwrite m a bs) = true := by
  induction bs generalizing m a with
  | nil => exact h
  | cons b bs ih => exact ih _ _ (twf_tset 0 m a b h)

/-- Bytes outside a write read as before. -/
theorem tget_mwrite_ne (m : Mem) (a x : Nat) (bs : List Byte) (h : x < a ∨ a + bs.length ≤ x) : tget 0 (mwrite m a bs) x = tget 0 m x := by
  induction bs generalizing m a with
  | nil => rfl
  | cons b bs ih =>
    simp only [List.length_cons] at h
    rw [mwrite, ih _ _ (by omega), tget_tset_ne _ _ _ _ _ (by omega)]

/-- A written byte is read back. -/
theorem tget_mwrite (m : Mem) (a i : Nat) (bs : List Byte) (h : Memory.wf m = true) (hi : i < bs.length) :
    tget 0 (mwrite m a bs) (a + i) = bs.getD i 0 := by
  induction bs generalizing m a i with
  | nil => simp at hi
  | cons b bs ih =>
    rw [mwrite]
    cases i with
    | zero =>
      rw [tget_mwrite_ne _ _ _ _ (by omega)]
      exact tget_tset_same 0 m a b h
    | succ i =>
      have := ih (tset 0 m a b) (a + 1) i (twf_tset 0 m a b h) (by simpa using hi)
      rw [show a + (i + 1) = a + 1 + i by omega, this]; simp

end Sys2Proof.Machine
end

