-- ==== Sys2Proof/Laws/Keeps.lean ====
section
/-! SUPPORT. What no command touches: every operation keeps the queue of waiting commands, lowers no fuse counter, and keeps every
table of the module in its canonical form. -/

namespace Sys2Proof.Machine

set_option Elab.async false

/-- Every table of a module is in its canonical form, by table. -/
structure Canon (s : State) : Prop where
  cores : twf Core.zero s.cores = true
  nodes : twf Node.zero s.nodes = true
  sluices : twf Sluice.zero s.sluices = true
  routers : twf Router.zero s.routers = true
  edges : twf Edge.zero s.edges = true
  pans : twf Pan.zero s.pans = true
  stations : twf Station.zero s.stations = true
  parts : twf Part.zero s.parts = true
  bars : twf none s.bars = true
  engs : twf Engine48.zero s.engs = true
  ports : twf Port.zero s.fab.ports = true
  pwr : twf PanPwr.zero s.power.pans = true
  meters : twf Meter.zero s.power.meters = true
  qps : twf Qp.zero s.host.qps = true
  count : s.pmem.length = 48
  pmem : ∀ m ∈ s.pmem, twf ⟨0, 0⟩ m = true

theorem tablesWf_iff (s : State) : s.tablesWf = true ↔ Canon s := by
  simp only [State.tablesWf, Bool.and_eq_true, decide_eq_true_eq, List.all_eq_true]
  constructor
  · intro h
    obtain ⟨⟨⟨⟨⟨⟨⟨⟨⟨⟨⟨⟨⟨⟨⟨h1, h2⟩, h3⟩, h4⟩, h5⟩, h6⟩, h7⟩, h8⟩, h9⟩, h10⟩, h11⟩, h12⟩, h13⟩, h14⟩, h15⟩, h16⟩ := h
    exact { cores := h1, nodes := h2, sluices := h3, routers := h4, edges := h5, ports := h6, pwr := h7, meters := h8, qps := h9, pans := h10, stations := h11, parts := h12, bars := h13, engs := h14, count := h15, pmem := h16 }
  · intro h
    exact ⟨⟨⟨⟨⟨⟨⟨⟨⟨⟨⟨⟨⟨⟨⟨h.cores, h.nodes⟩, h.sluices⟩, h.routers⟩, h.edges⟩, h.ports⟩, h.pwr⟩, h.meters⟩, h.qps⟩, h.pans⟩, h.stations⟩, h.parts⟩, h.bars⟩, h.engs⟩, h.count⟩, h.pmem⟩
/-- t has the waiting commands of s, no fuse counter below those of s, and its tables in canonical form if s has. -/
structure Keeps (s t : State) : Prop where
  fuse : Fuses.le s.fuse t.fuse
  pending : t.pending = s.pending
  canon : Canon s → Canon t

/-- What a command answers keeps the fuses and the waiting commands. -/
def OutKeeps (s : State) : Out → Prop
  | .next t => Keeps s t
  | .fault _ => True
  | .refused _ => True

/-- What a command's effect answers keeps the fuses and the waiting commands. -/
def ReplyKeeps (s : State) : Reply → Prop
  | .done _ _ t => Keeps s t
  | .later t => Keeps s t

theorem keeps_mk {s0 x : State} {time : Nat} {cores : Tbl Core} {nodes : Tbl Node} {tide : Tide} {sluices : Tbl Sluice} {routers : Tbl Router} {mesh : Mesh} {edges : Tbl Edge} {ctlIn : List (Nat × Msg)} {pans : Tbl Pan} {stations : Tbl Station} {haltSent : List Nat} {parts : Tbl Part} {host : HostIf} {bars : Tbl (Option BarObj)} {engs : Tbl Engine48} {pmem : List (Tbl Cell)} {sec : Security} {ctrlOut : List Ctrl} {modnum : Nat} {fab : Fabric} {power : Power} {rel : Rel} {boot : Boot} {log : List LogEntry} {logSeq : Nat} {said : List (Nat × List Byte)} {stuck : List Nat} {free : Nat} (h : Keeps s0 x)
    (hcores : Canon x → twf Core.zero cores = true := by first | exact fun h => h.cores | exact fun h => twf_tset _ _ _ _ h.cores | exact fun h => twf_tmapv _ _ _ h.cores | exact fun _ => rfl) (hnodes : Canon x → twf Node.zero nodes = true := by first | exact fun h => h.nodes | exact fun h => twf_tset _ _ _ _ h.nodes | exact fun h => twf_tmapv _ _ _ h.nodes | exact fun _ => rfl) (hsluices : Canon x → twf Sluice.zero sluices = true := by first | exact fun h => h.sluices | exact fun h => twf_tset _ _ _ _ h.sluices | exact fun h => twf_tmapv _ _ _ h.sluices | exact fun _ => rfl) (hrouters : Canon x → twf Router.zero routers = true := by first | exact fun h => h.routers | exact fun h => twf_tset _ _ _ _ h.routers | exact fun h => twf_tmapv _ _ _ h.routers | exact fun _ => rfl) (hedges : Canon x → twf Edge.zero edges = true := by first | exact fun h => h.edges | exact fun h => twf_tset _ _ _ _ h.edges | exact fun h => twf_tmapv _ _ _ h.edges | exact fun _ => rfl) (hpans : Canon x → twf Pan.zero pans = true := by first | exact fun h => h.pans | exact fun h => twf_tset _ _ _ _ h.pans | exact fun h => twf_tmapv _ _ _ h.pans | exact fun _ => rfl) (hstations : Canon x → twf Station.zero stations = true := by first | exact fun h => h.stations | exact fun h => twf_tset _ _ _ _ h.stations | exact fun h => twf_tmapv _ _ _ h.stations | exact fun _ => rfl) (hparts : Canon x → twf Part.zero parts = true := by first | exact fun h => h.parts | exact fun h => twf_tset _ _ _ _ h.parts | exact fun h => twf_tmapv _ _ _ h.parts | exact fun _ => rfl) (hbars : Canon x → twf none bars = true := by first | exact fun h => h.bars | exact fun h => twf_tset _ _ _ _ h.bars | exact fun h => twf_tmapv _ _ _ h.bars | exact fun _ => rfl) (hengs : Canon x → twf Engine48.zero engs = true := by first | exact fun h => h.engs | exact fun h => twf_tset _ _ _ _ h.engs | exact fun h => twf_tmapv _ _ _ h.engs | exact fun _ => rfl) (hports : Canon x → twf Port.zero fab.ports = true := by first | exact fun h => h.ports | exact fun h => twf_tset _ _ _ _ h.ports | exact fun h => twf_tmapv _ _ _ h.ports | exact fun _ => rfl) (hpwr : Canon x → twf PanPwr.zero power.pans = true := by first | exact fun h => h.pwr | exact fun h => twf_tset _ _ _ _ h.pwr | exact fun h => twf_tmapv _ _ _ h.pwr | exact fun _ => rfl) (hmeters : Canon x → twf Meter.zero power.meters = true := by first | exact fun h => h.meters | exact fun h => twf_tset _ _ _ _ h.meters | exact fun h => twf_tmapv _ _ _ h.meters | exact fun _ => rfl) (hqps : Canon x → twf Qp.zero host.qps = true := by first | exact fun h => h.qps | exact fun h => twf_tset _ _ _ _ h.qps | exact fun h => twf_tmapv _ _ _ h.qps | exact fun _ => rfl) (hpmem : Canon x → pmem.length = 48 ∧ ∀ m ∈ pmem, twf ⟨0, 0⟩ m = true := by first | exact fun h => ⟨h.count, h.pmem⟩ | exact fun _ => by decide) :
    Keeps s0 (State.mk time cores nodes tide sluices routers mesh edges ctlIn pans stations haltSent parts host bars engs pmem sec x.fuse ctrlOut modnum fab power rel boot log logSeq said stuck free x.pending) :=
  ⟨h.fuse, h.pending, fun k => have q := h.canon k; { cores := hcores q, nodes := hnodes q, sluices := hsluices q, routers := hrouters q, edges := hedges q, pans := hpans q, stations := hstations q, parts := hparts q, bars := hbars q, engs := hengs q, ports := hports q, pwr := hpwr q, meters := hmeters q, qps := hqps q, count := (hpmem q).1, pmem := (hpmem q).2 }⟩
theorem keeps_plain {s0 x : State} {time : Nat} {tide : Tide} {mesh : Mesh} {ctlIn : List (Nat × Msg)} {haltSent : List Nat} {sec : Security} {ctrlOut : List Ctrl} {modnum : Nat} {rel : Rel} {boot : Boot} {log : List LogEntry} {logSeq : Nat} {said : List (Nat × List Byte)} {stuck : List Nat} {free : Nat} (h : Keeps s0 x) :
    Keeps s0 (State.mk time x.cores x.nodes tide x.sluices x.routers mesh x.edges ctlIn x.pans x.stations haltSent x.parts x.host x.bars x.engs x.pmem sec x.fuse ctrlOut modnum x.fab x.power rel boot log logSeq said stuck free x.pending) :=
  ⟨h.fuse, h.pending, fun k => have q := h.canon k; { cores := q.cores, nodes := q.nodes, sluices := q.sluices, routers := q.routers, edges := q.edges, pans := q.pans, stations := q.stations, parts := q.parts, bars := q.bars, engs := q.engs, ports := q.ports, pwr := q.pwr, meters := q.meters, qps := q.qps, count := q.count, pmem := q.pmem }⟩
theorem keeps_ite {s0 a b : State} {c : Prop} [Decidable c] (ha : Keeps s0 a) (hb : Keeps s0 b) : Keeps s0 (if c then a else b) := by
  split <;> assumption
theorem outKeeps_ite {s0 : State} {a b : Out} {c : Prop} [Decidable c] (ha : OutKeeps s0 a) (hb : OutKeeps s0 b) :
    OutKeeps s0 (if c then a else b) := by
  split <;> assumption
theorem replyKeeps_ite {s0 : State} {a b : Reply} {c : Prop} [Decidable c] (ha : ReplyKeeps s0 a) (hb : ReplyKeeps s0 b) :
    ReplyKeeps s0 (if c then a else b) := by
  split <;> assumption
theorem keeps_ite2 {α : Type} {s0 : State} {a b : α × State} {c : Prop} [Decidable c] (ha : Keeps s0 a.2) (hb : Keeps s0 b.2) :
    Keeps s0 (if c then a else b).2 := by
  split <;> assumption
theorem keeps_cut {s0 x t : State} (h : Keeps s0 x) (k : Keeps s0 x → Keeps s0 t) : Keeps s0 t := k h
theorem outKeeps_cut {s0 x : State} {o : Out} (h : Keeps s0 x) (k : Keeps s0 x → OutKeeps s0 o) : OutKeeps s0 o := k h
theorem replyKeeps_cut {s0 x : State} {r : Reply} (h : Keeps s0 x) (k : Keeps s0 x → ReplyKeeps s0 r) : ReplyKeeps s0 r := k h
theorem Fuses.le_refl (a : Fuses) : Fuses.le a a := ⟨rfl, rfl, rfl, rfl, Nat.le_refl _, Nat.le_refl _, Nat.le_refl _⟩
theorem Keeps.refl (s : State) : Keeps s s := ⟨Fuses.le_refl _, rfl, id⟩
theorem Fuses.le_fw {a b : Fuses} (n : Nat) (h : Fuses.le a b) : Fuses.le a { b with fw := max b.fw n } :=
  ⟨h.1, h.2.1, h.2.2.1, h.2.2.2.1, Nat.le_trans h.2.2.2.2.1 (Nat.le_max_left _ _), h.2.2.2.2.2.1, h.2.2.2.2.2.2⟩
theorem Fuses.le_lic {a b : Fuses} (n : Nat) (h : Fuses.le a b) : Fuses.le a { b with lic := max b.lic n } :=
  ⟨h.1, h.2.1, h.2.2.1, h.2.2.2.1, h.2.2.2.2.1, Nat.le_trans h.2.2.2.2.2.1 (Nat.le_max_left _ _), h.2.2.2.2.2.2⟩
theorem Fuses.le_tp {a b : Fuses} (n : Nat) (h : Fuses.le a b) : Fuses.le a { b with tp := max b.tp n } :=
  ⟨h.1, h.2.1, h.2.2.1, h.2.2.2.1, h.2.2.2.2.1, h.2.2.2.2.2.1, Nat.le_trans h.2.2.2.2.2.2 (Nat.le_max_left _ _)⟩
theorem keeps_foldl {α : Type} {s0 : State} {f : State → α → State} {l : List α}
    (hf : ∀ t a, Keeps s0 t → Keeps s0 (f t a)) : ∀ {s : State}, Keeps s0 s → Keeps s0 (l.foldl f s) := by
  induction l with
  | nil => exact fun h => h
  | cons a l ih => exact fun h => ih (hf _ a h)
theorem keeps_foldr {α : Type} {s0 : State} {f : α → State → State} {l : List α}
    (hf : ∀ t a, Keeps s0 t → Keeps s0 (f a t)) : ∀ {s : State}, Keeps s0 s → Keeps s0 (l.foldr f s) := by
  induction l with
  | nil => exact fun h => h
  | cons a l ih => exact fun h => hf _ _ (ih h)
theorem outKeeps_next {s t : State} (h : Keeps s t) : OutKeeps s (.next t) := h
theorem outKeeps_fault {s : State} {f : Fault} : OutKeeps s (.fault f) := True.intro
theorem replyKeeps_done {s t : State} {a : Nat} {r : List Nat} (h : Keeps s t) : ReplyKeeps s (.done a r t) := h
theorem replyKeeps_later {s t : State} (h : Keeps s t) : ReplyKeeps s (.later t) := h

theorem setCore_keeps {s0 s : State} (g : Nat) (c : Core) (h0 : Keeps s0 s) : Keeps s0 (setCore s g c) := by
  unfold setCore
  repeat' (first | assumption | with_reducible apply outKeeps_fault | with_reducible apply outKeeps_ite | with_reducible apply replyKeeps_ite | with_reducible refine keeps_plain ?_ | with_reducible refine keeps_mk ?_)

theorem setNode_keeps {s0 s : State} (k : Nat) (n : Node) (h0 : Keeps s0 s) : Keeps s0 (setNode s k n) := by
  unfold setNode
  repeat' (first | assumption | with_reducible apply outKeeps_fault | with_reducible apply outKeeps_ite | with_reducible apply replyKeeps_ite | with_reducible refine keeps_plain ?_ | with_reducible refine keeps_mk ?_)

theorem setPan_keeps {s0 s : State} (k : Nat) (p : Pan) (h0 : Keeps s0 s) : Keeps s0 (setPan s k p) := by
  unfold setPan
  repeat' (first | assumption | with_reducible apply outKeeps_fault | with_reducible apply outKeeps_ite | with_reducible apply replyKeeps_ite | with_reducible refine keeps_plain ?_ | with_reducible refine keeps_mk ?_)

theorem onCore_keeps {s0 s : State} (g : Nat) (f : Env → Core → Core) (h0 : Keeps s0 s) : OutKeeps s0 (onCore g s f) := by
  unfold onCore
  split
  · exact setCore_keeps g _ h0
  · exact outKeeps_fault

theorem execAdd_keeps {s0 s : State} (g : Nat) (d a b : Reg) (h0 : Keeps s0 s) : OutKeeps s0 (execAdd g d a b s) := by
  unfold execAdd
  repeat' (first | assumption | with_reducible apply onCore_keeps)

theorem execSub_keeps {s0 s : State} (g : Nat) (d a b : Reg) (h0 : Keeps s0 s) : OutKeeps s0 (execSub g d a b s) := by
  unfold execSub
  repeat' (first | assumption | with_reducible apply onCore_keeps)

theorem execAnd_keeps {s0 s : State} (g : Nat) (d a b : Reg) (h0 : Keeps s0 s) : OutKeeps s0 (execAnd g d a b s) := by
  unfold execAnd
  repeat' (first | assumption | with_reducible apply onCore_keeps)

theorem execOr_keeps {s0 s : State} (g : Nat) (d a b : Reg) (h0 : Keeps s0 s) : OutKeeps s0 (execOr g d a b s) := by
  unfold execOr
  repeat' (first | assumption | with_reducible apply onCore_keeps)

theorem execXor_keeps {s0 s : State} (g : Nat) (d a b : Reg) (h0 : Keeps s0 s) : OutKeeps s0 (execXor g d a b s) := by
  unfold execXor
  repeat' (first | assumption | with_reducible apply onCore_keeps)

theorem execShl_keeps {s0 s : State} (g : Nat) (d a b : Reg) (h0 : Keeps s0 s) : OutKeeps s0 (execShl g d a b s) := by
  unfold execShl
  repeat' (first | assumption | with_reducible apply onCore_keeps)

theorem execShr_keeps {s0 s : State} (g : Nat) (d a b : Reg) (h0 : Keeps s0 s) : OutKeeps s0 (execShr g d a b s) := by
  unfold execShr
  repeat' (first | assumption | with_reducible apply onCore_keeps)

theorem execSra_keeps {s0 s : State} (g : Nat) (d a b : Reg) (h0 : Keeps s0 s) : OutKeeps s0 (execSra g d a b s) := by
  unfold execSra
  repeat' (first | assumption | with_reducible apply onCore_keeps)

theorem execMul_keeps {s0 s : State} (g : Nat) (d a b : Reg) (h0 : Keeps s0 s) : OutKeeps s0 (execMul g d a b s) := by
  unfold execMul
  repeat' (first | assumption | with_reducible apply onCore_keeps)

theorem execMulhu_keeps {s0 s : State} (g : Nat) (d a b : Reg) (h0 : Keeps s0 s) : OutKeeps s0 (execMulhu g d a b s) := by
  unfold execMulhu
  repeat' (first | assumption | with_reducible apply onCore_keeps)

theorem execMulhs_keeps {s0 s : State} (g : Nat) (d a b : Reg) (h0 : Keeps s0 s) : OutKeeps s0 (execMulhs g d a b s) := by
  unfold execMulhs
  repeat' (first | assumption | with_reducible apply onCore_keeps)

theorem execMin_keeps {s0 s : State} (g : Nat) (d a b : Reg) (h0 : Keeps s0 s) : OutKeeps s0 (execMin g d a b s) := by
  unfold execMin
  repeat' (first | assumption | with_reducible apply onCore_keeps)

theorem execMax_keeps {s0 s : State} (g : Nat) (d a b : Reg) (h0 : Keeps s0 s) : OutKeeps s0 (execMax g d a b s) := by
  unfold execMax
  repeat' (first | assumption | with_reducible apply onCore_keeps)

theorem execMinu_keeps {s0 s : State} (g : Nat) (d a b : Reg) (h0 : Keeps s0 s) : OutKeeps s0 (execMinu g d a b s) := by
  unfold execMinu
  repeat' (first | assumption | with_reducible apply onCore_keeps)

theorem execMaxu_keeps {s0 s : State} (g : Nat) (d a b : Reg) (h0 : Keeps s0 s) : OutKeeps s0 (execMaxu g d a b s) := by
  unfold execMaxu
  repeat' (first | assumption | with_reducible apply onCore_keeps)

theorem execDivu_keeps {s0 s : State} (g : Nat) (d a b : Reg) (h0 : Keeps s0 s) : OutKeeps s0 (execDivu g d a b s) := by
  unfold execDivu
  repeat' (first | assumption | with_reducible apply onCore_keeps)

theorem execRemu_keeps {s0 s : State} (g : Nat) (d a b : Reg) (h0 : Keeps s0 s) : OutKeeps s0 (execRemu g d a b s) := by
  unfold execRemu
  repeat' (first | assumption | with_reducible apply onCore_keeps)

theorem execDivs_keeps {s0 s : State} (g : Nat) (d a b : Reg) (h0 : Keeps s0 s) : OutKeeps s0 (execDivs g d a b s) := by
  unfold execDivs
  repeat' (first | assumption | with_reducible apply onCore_keeps)

theorem execRems_keeps {s0 s : State} (g : Nat) (d a b : Reg) (h0 : Keeps s0 s) : OutKeeps s0 (execRems g d a b s) := by
  unfold execRems
  repeat' (first | assumption | with_reducible apply onCore_keeps)

theorem execAddi_keeps {s0 s : State} (g : Nat) (d a : Reg) (imm : Word) (h0 : Keeps s0 s) : OutKeeps s0 (execAddi g d a imm s) := by
  unfold execAddi
  repeat' (first | assumption | with_reducible apply onCore_keeps)

theorem execAndi_keeps {s0 s : State} (g : Nat) (d a : Reg) (imm : Word) (h0 : Keeps s0 s) : OutKeeps s0 (execAndi g d a imm s) := by
  unfold execAndi
  repeat' (first | assumption | with_reducible apply onCore_keeps)

theorem execOri_keeps {s0 s : State} (g : Nat) (d a : Reg) (imm : Word) (h0 : Keeps s0 s) : OutKeeps s0 (execOri g d a imm s) := by
  unfold execOri
  repeat' (first | assumption | with_reducible apply onCore_keeps)

theorem execXori_keeps {s0 s : State} (g : Nat) (d a : Reg) (imm : Word) (h0 : Keeps s0 s) : OutKeeps s0 (execXori g d a imm s) := by
  unfold execXori
  repeat' (first | assumption | with_reducible apply onCore_keeps)

theorem execShli_keeps {s0 s : State} (g : Nat) (d a : Reg) (amt : Fin 32) (h0 : Keeps s0 s) : OutKeeps s0 (execShli g d a amt s) := by
  unfold execShli
  repeat' (first | assumption | with_reducible apply onCore_keeps)

theorem execShri_keeps {s0 s : State} (g : Nat) (d a : Reg) (amt : Fin 32) (h0 : Keeps s0 s) : OutKeeps s0 (execShri g d a amt s) := by
  unfold execShri
  repeat' (first | assumption | with_reducible apply onCore_keeps)

theorem execSrai_keeps {s0 s : State} (g : Nat) (d a : Reg) (amt : Fin 32) (h0 : Keeps s0 s) : OutKeeps s0 (execSrai g d a amt s) := by
  unfold execSrai
  repeat' (first | assumption | with_reducible apply onCore_keeps)

theorem execLi_keeps {s0 s : State} (g : Nat) (d : Reg) (imm : Word) (h0 : Keeps s0 s) : OutKeeps s0 (execLi g d imm s) := by
  unfold execLi
  repeat' (first | assumption | with_reducible apply onCore_keeps)

theorem execCmp_keeps {s0 s : State} (g : Nat) (p : Pred) (a b : Reg) (k : Cond) (h0 : Keeps s0 s) : OutKeeps s0 (execCmp g p a b k s) := by
  unfold execCmp
  repeat' (first | assumption | with_reducible apply onCore_keeps)

theorem execCmpi_keeps {s0 s : State} (g : Nat) (p : Pred) (a : Reg) (k : Cond) (imm : Word) (h0 : Keeps s0 s) : OutKeeps s0 (execCmpi g p a k imm s) := by
  unfold execCmpi
  repeat' (first | assumption | with_reducible apply onCore_keeps)

theorem execPlog_keeps {s0 s : State} (g : Nat) (p a b : Pred) (op : PlogOp) (h0 : Keeps s0 s) : OutKeeps s0 (execPlog g p a b op s) := by
  unfold execPlog
  repeat' (first | assumption | with_reducible apply onCore_keeps)

theorem execLdw_keeps {s0 s : State} (g : Nat) (d a : Reg) (imm : Word) (h0 : Keeps s0 s) : OutKeeps s0 (execLdw g d a imm s) := by
  unfold execLdw
  repeat' (first | assumption | with_reducible apply onCore_keeps)

theorem execLdh_keeps {s0 s : State} (g : Nat) (d a : Reg) (imm : Word) (h0 : Keeps s0 s) : OutKeeps s0 (execLdh g d a imm s) := by
  unfold execLdh
  repeat' (first | assumption | with_reducible apply onCore_keeps)

theorem execLdhu_keeps {s0 s : State} (g : Nat) (d a : Reg) (imm : Word) (h0 : Keeps s0 s) : OutKeeps s0 (execLdhu g d a imm s) := by
  unfold execLdhu
  repeat' (first | assumption | with_reducible apply onCore_keeps)

theorem execLdb_keeps {s0 s : State} (g : Nat) (d a : Reg) (imm : Word) (h0 : Keeps s0 s) : OutKeeps s0 (execLdb g d a imm s) := by
  unfold execLdb
  repeat' (first | assumption | with_reducible apply onCore_keeps)

theorem execLdbu_keeps {s0 s : State} (g : Nat) (d a : Reg) (imm : Word) (h0 : Keeps s0 s) : OutKeeps s0 (execLdbu g d a imm s) := by
  unfold execLdbu
  repeat' (first | assumption | with_reducible apply onCore_keeps)

theorem execStw_keeps {s0 s : State} (g : Nat) (d a : Reg) (imm : Word) (h0 : Keeps s0 s) : OutKeeps s0 (execStw g d a imm s) := by
  unfold execStw
  repeat' (first | assumption | with_reducible apply onCore_keeps)

theorem execSth_keeps {s0 s : State} (g : Nat) (d a : Reg) (imm : Word) (h0 : Keeps s0 s) : OutKeeps s0 (execSth g d a imm s) := by
  unfold execSth
  repeat' (first | assumption | with_reducible apply onCore_keeps)

theorem execStb_keeps {s0 s : State} (g : Nat) (d a : Reg) (imm : Word) (h0 : Keeps s0 s) : OutKeeps s0 (execStb g d a imm s) := by
  unfold execStb
  repeat' (first | assumption | with_reducible apply onCore_keeps)

theorem execBr_keeps {s0 s : State} (g : Nat) (off : BitVec 15) (h0 : Keeps s0 s) : OutKeeps s0 (execBr g off s) := by
  unfold execBr
  repeat' (first | assumption | with_reducible apply onCore_keeps)

theorem execBrl_keeps {s0 s : State} (g : Nat) (d : Reg) (off : BitVec 15) (h0 : Keeps s0 s) : OutKeeps s0 (execBrl g d off s) := by
  unfold execBrl
  repeat' (first | assumption | with_reducible apply onCore_keeps)

theorem execJr_keeps {s0 s : State} (g : Nat) (a : Reg) (h0 : Keeps s0 s) : OutKeeps s0 (execJr g a s) := by
  unfold execJr
  repeat' (first | assumption | with_reducible apply onCore_keeps)

theorem execJrl_keeps {s0 s : State} (g : Nat) (d a : Reg) (h0 : Keeps s0 s) : OutKeeps s0 (execJrl g d a s) := by
  unfold execJrl
  repeat' (first | assumption | with_reducible apply onCore_keeps)

theorem execQrd_keeps {s0 s : State} (g : Nat) (d : Reg) (q w : Fin 8) (rem : Bool) (h0 : Keeps s0 s) : OutKeeps s0 (execQrd g d q w rem s) := by
  unfold execQrd
  repeat' (first | assumption | with_reducible apply onCore_keeps)

theorem execCrr_keeps {s0 s : State} (g : Nat) (d : Reg) (off : Byte) (h0 : Keeps s0 s) : OutKeeps s0 (execCrr g d off s) := by
  unfold execCrr
  repeat' (first | assumption | with_reducible apply onCore_keeps)

theorem execCrw_keeps {s0 s : State} (g : Nat) (a : Reg) (off : Byte) (h0 : Keeps s0 s) : OutKeeps s0 (execCrw g a off s) := by
  unfold execCrw
  repeat' (first | assumption | with_reducible apply onCore_keeps)

theorem execRel_keeps {s0 s : State} (g : Nat) (eng : Engine) (h0 : Keeps s0 s) : OutKeeps s0 (execRel g eng s) := by
  unfold execRel
  repeat' (first | assumption | with_reducible apply onCore_keeps)

theorem execAcq_keeps {s0 s : State} (g : Nat) (eng : Engine) (h0 : Keeps s0 s) : OutKeeps s0 (execAcq g eng s) := by
  unfold execAcq
  repeat' (first | assumption | with_reducible apply onCore_keeps)

theorem execSyncAll_keeps {s0 s : State} (g : Nat) (h0 : Keeps s0 s) : OutKeeps s0 (execSyncAll g s) := by
  unfold execSyncAll
  repeat' (first | assumption | with_reducible apply onCore_keeps)

theorem execStepCommitContribute_keeps {s0 s : State} (g : Nat) (h0 : Keeps s0 s) : OutKeeps s0 (execStepCommitContribute g s) := by
  unfold execStepCommitContribute
  repeat' (first | assumption | with_reducible apply onCore_keeps)

theorem execStepCommit_keeps {s0 s : State} (g : Nat) (h0 : Keeps s0 s) : OutKeeps s0 (execStepCommit g s) := by
  unfold execStepCommit
  repeat' (first | assumption | with_reducible apply onCore_keeps)

theorem execEndFold_keeps {s0 s : State} (g : Nat) (h0 : Keeps s0 s) : OutKeeps s0 (execEndFold g s) := by
  unfold execEndFold
  repeat' (first | assumption | with_reducible apply onCore_keeps)

theorem execSuCnd_keeps {s0 s : State} (g : Nat) (u : Fin 4) (p : Pred) (h0 : Keeps s0 s) : OutKeeps s0 (execSuCnd g u p s) := by
  unfold execSuCnd
  repeat' (first | assumption | with_reducible apply onCore_keeps)

theorem execBrk_keeps {s0 s : State} (g : Nat) (h0 : Keeps s0 s) : OutKeeps s0 (execBrk g s) := by
  unfold execBrk
  repeat' (first | assumption | with_reducible apply onCore_keeps)

theorem execFlagSet_keeps {s0 s : State} (g : Nat) (f : Fin 64) (rem : Bool) (tgt : Reg) (h0 : Keeps s0 s) : OutKeeps s0 (execFlagSet g f rem tgt s) := by
  unfold execFlagSet
  repeat' (first | assumption | with_reducible apply onCore_keeps)

theorem execFlagClr_keeps {s0 s : State} (g : Nat) (f : Fin 64) (rem : Bool) (tgt : Reg) (h0 : Keeps s0 s) : OutKeeps s0 (execFlagClr g f rem tgt s) := by
  unfold execFlagClr
  repeat' (first | assumption | with_reducible apply onCore_keeps)

theorem execFlagWait_keeps {s0 s : State} (g : Nat) (f : Fin 64) (h0 : Keeps s0 s) : OutKeeps s0 (execFlagWait g f s) := by
  unfold execFlagWait
  repeat' (first | assumption | with_reducible apply onCore_keeps)

theorem execFlagWaitc_keeps {s0 s : State} (g : Nat) (f : Fin 64) (h0 : Keeps s0 s) : OutKeeps s0 (execFlagWaitc g f s) := by
  unfold execFlagWaitc
  repeat' (first | assumption | with_reducible apply onCore_keeps)

theorem execBarArrive_keeps {s0 s : State} (g : Nat) (f : Fin 64) (tgt : Reg) (h0 : Keeps s0 s) : OutKeeps s0 (execBarArrive g f tgt s) := by
  unfold execBarArrive
  repeat' (first | assumption | with_reducible apply onCore_keeps)

theorem execChPut_keeps {s0 s : State} (g : Nat) (ch : Fin 16) (amt : Fin 8) (rem : Bool) (tgt : Reg) (h0 : Keeps s0 s) : OutKeeps s0 (execChPut g ch amt rem tgt s) := by
  unfold execChPut
  repeat' (first | assumption | with_reducible apply onCore_keeps)

theorem execChGet_keeps {s0 s : State} (g : Nat) (ch : Fin 16) (amt : Fin 8) (rem : Bool) (tgt : Reg) (h0 : Keeps s0 s) : OutKeeps s0 (execChGet g ch amt rem tgt s) := by
  unfold execChGet
  repeat' (first | assumption | with_reducible apply onCore_keeps)

theorem execChWait_keeps {s0 s : State} (g : Nat) (ch : Fin 16) (amt : Fin 8) (h0 : Keeps s0 s) : OutKeeps s0 (execChWait g ch amt s) := by
  unfold execChWait
  repeat' (first | assumption | with_reducible apply onCore_keeps)

theorem execFoldChoice_keeps {s0 s : State} (g : Nat) (h0 : Keeps s0 s) : OutKeeps s0 (execFoldChoice g s) := by
  unfold execFoldChoice
  repeat' (first | assumption | with_reducible apply onCore_keeps)

theorem execFoldFire_keeps {s0 s : State} (g : Nat) (h0 : Keeps s0 s) : OutKeeps s0 (execFoldFire g s) := by
  unfold execFoldFire
  repeat' (first | assumption | with_reducible apply onCore_keeps)

theorem execSteerDecide_keeps {s0 s : State} (g : Nat) (u : Fin 4) (h0 : Keeps s0 s) : OutKeeps s0 (execSteerDecide g u s) := by
  unfold execSteerDecide
  repeat' (first | assumption | with_reducible apply onCore_keeps)

theorem execTokenDrop_keeps {s0 s : State} (g : Nat) (u : Fin 4) (h0 : Keeps s0 s) : OutKeeps s0 (execTokenDrop g u s) := by
  unfold execTokenDrop
  repeat' (first | assumption | with_reducible apply onCore_keeps)

theorem execStaleTokenDiscard_keeps {s0 s : State} (g : Nat) (q : Fin 8) (h0 : Keeps s0 s) : OutKeeps s0 (execStaleTokenDiscard g q s) := by
  unfold execStaleTokenDiscard
  repeat' (first | assumption | with_reducible apply onCore_keeps)

theorem setQp_keeps {s0 s : State} (q : Nat) (p : Qp) (h0 : Keeps s0 s) : Keeps s0 (setQp s q p) := by
  unfold setQp
  repeat' (first | assumption | with_reducible apply keeps_foldl | with_reducible apply replyKeeps_ite | split | with_reducible refine keeps_plain ?_ | with_reducible refine keeps_mk ?_)

theorem setPart_keeps {s0 s : State} (k : Nat) (p : Part) (h0 : Keeps s0 s) : Keeps s0 (setPart s k p) := by
  unfold setPart
  repeat' (first | assumption | with_reducible apply keeps_foldl | with_reducible apply replyKeeps_ite | split | with_reducible refine keeps_plain ?_ | with_reducible refine keeps_mk ?_)

theorem modPart_keeps {s0 s : State} (k : Nat) (f : Part → Part) (h0 : Keeps s0 s) : Keeps s0 (modPart s k f) := by
  unfold modPart
  repeat' (first | assumption | with_reducible apply setPart_keeps)

theorem setStation_keeps {s0 s : State} (k : Nat) (t : Station) (h0 : Keeps s0 s) : Keeps s0 (setStation s k t) := by
  unfold setStation
  repeat' (first | assumption | with_reducible apply keeps_foldl | with_reducible apply replyKeeps_ite | split | with_reducible refine keeps_plain ?_ | with_reducible refine keeps_mk ?_)

theorem setEng_keeps {s0 s : State} (e : Nat) (x : Engine48) (h0 : Keeps s0 s) : Keeps s0 (setEng s e x) := by
  unfold setEng
  repeat' (first | assumption | with_reducible apply keeps_foldl | with_reducible apply replyKeeps_ite | split | with_reducible refine keeps_plain ?_ | with_reducible refine keeps_mk ?_)

theorem mapCores_keeps {s0 s : State} (p : Nat → Core → Bool) (f : Nat → Core → Core) (h0 : Keeps s0 s) : Keeps s0 (mapCores s p f) := by
  unfold mapCores
  repeat' (first | assumption | with_reducible apply keeps_foldl | with_reducible apply replyKeeps_ite | split | with_reducible refine keeps_plain ?_ | with_reducible refine keeps_mk ?_)

theorem setVec_keeps {s0 s : State} (v : Nat) (x : Vec) (h0 : Keeps s0 s) : Keeps s0 (setVec s v x) := by
  unfold setVec
  repeat' (first | assumption | with_reducible apply keeps_foldl | with_reducible apply replyKeeps_ite | split | with_reducible refine keeps_plain ?_ | with_reducible refine keeps_mk ?_)

theorem raiseVec_keeps {s0 s : State} (v : Nat) (h0 : Keeps s0 s) : Keeps s0 (raiseVec s v) := by
  unfold raiseVec
  repeat' (first | assumption | with_reducible apply setVec_keeps | with_reducible apply keeps_foldl | with_reducible apply keeps_ite)

theorem execMsixHoldoffExpiry_keeps {s0 s : State} (v : Fin 34) (h0 : Keeps s0 s) : OutKeeps s0 (execMsixHoldoffExpiry v s) := by
  unfold execMsixHoldoffExpiry
  repeat' (first | assumption | with_reducible apply setVec_keeps | with_reducible apply keeps_foldl | with_reducible apply outKeeps_next | with_reducible apply replyKeeps_ite | split)

theorem postTo_keeps {s0 s : State} (q : Nat) (e : Event) (h0 : Keeps s0 s) : Keeps s0 (postTo q e s) := by
  unfold postTo
  repeat' (first | assumption | with_reducible apply raiseVec_keeps | with_reducible apply setQp_keeps | with_reducible apply keeps_foldl | with_reducible apply keeps_ite)

theorem drainEvents_keeps {s0 : State} (q : Nat) : ∀ (n : Nat) {s : State}, Keeps s0 s → Keeps s0 (drainEvents q n s) := by
  intro n
  induction n with
  | zero => exact fun h => h
  | succ n ih =>
    intro s h
    unfold drainEvents
    repeat' (first | assumption | with_reducible apply ih | with_reducible apply raiseVec_keeps | with_reducible apply setQp_keeps | with_reducible apply keeps_foldl | intro _ | with_reducible apply replyKeeps_ite | split | with_reducible refine keeps_plain ?_)

theorem takeEntry_keeps {s0 s t : State} {q : Nat} (he : takeEntry q s = some t) (h : Keeps s0 s) : Keeps s0 t := by
  unfold takeEntry at he
  split at he
  · injection he with he
    subst he
    repeat' (first | assumption | with_reducible apply setQp_keeps | with_reducible apply keeps_foldl | intro _ | with_reducible apply replyKeeps_ite | split | with_reducible refine keeps_plain ?_ | with_reducible refine keeps_mk ?_)
  · simp at he

theorem postOps_keeps {s0 s : State} (e : Event) (h0 : Keeps s0 s) : Keeps s0 (postOps e s) := by
  unfold postOps
  repeat' (first | assumption | with_reducible apply postTo_keeps | with_reducible apply keeps_foldl | intro _)

theorem postJob_keeps {s0 s : State} (k : Nat) (e : Event) (h0 : Keeps s0 s) : Keeps s0 (postJob k e s) := by
  unfold postJob
  repeat' (first | assumption | with_reducible apply postTo_keeps | with_reducible apply keeps_foldl | intro _)

theorem postAlarm_keeps {s0 s : State} (cause : Nat) (h0 : Keeps s0 s) : Keeps s0 (postAlarm cause s) := by
  unfold postAlarm
  repeat' (first | assumption | with_reducible apply postOps_keeps | with_reducible apply raiseVec_keeps | with_reducible apply keeps_foldl | with_reducible apply replyKeeps_ite | split)

theorem complete_keeps {s0 s : State} (q epoch : Nat) (cid : BitVec 16) (status part state : Nat) (res : List Nat) (h0 : Keeps s0 s) : Keeps s0 (complete q epoch cid status part state res s) := by
  unfold complete
  repeat' (first | assumption | with_reducible apply raiseVec_keeps | with_reducible apply setQp_keeps | with_reducible apply keeps_foldl | with_reducible apply keeps_ite)

theorem completeLong_keeps {s0 s : State} (k status : Nat) (res : List Nat) (h0 : Keeps s0 s) : Keeps s0 (completeLong k status res s) := by
  unfold completeLong
  repeat' (first | assumption | with_reducible apply complete_keeps | with_reducible apply modPart_keeps | with_reducible apply keeps_foldl | with_reducible apply replyKeeps_ite | split)

theorem say_keeps {s0 s : State} (ch : Nat) (bs : List Byte) (h0 : Keeps s0 s) : Keeps s0 (say ch bs s) := by
  unfold say
  repeat' (first | assumption | with_reducible apply keeps_foldl | with_reducible apply replyKeeps_ite | split | with_reducible refine keeps_plain ?_)

theorem pldm_keeps {s0 s : State} (code v : Nat) (h0 : Keeps s0 s) : Keeps s0 (pldm code v s) := by
  unfold pldm
  repeat' (first | assumption | with_reducible apply say_keeps)

theorem suspect_keeps {s0 s : State} (bit : Nat) (h0 : Keeps s0 s) : Keeps s0 (suspect bit s) := by
  unfold suspect
  repeat' (first | assumption | with_reducible apply pldm_keeps | with_reducible apply postOps_keeps | with_reducible apply keeps_foldl | with_reducible apply replyKeeps_ite | split | with_reducible refine keeps_plain ?_)

theorem watch_keeps {s0 s : State} (bit : Fin 6) (h0 : Keeps s0 s) : Keeps s0 (watch bit s) := by
  unfold watch
  repeat' (first | assumption | with_reducible apply keeps_foldl | with_reducible apply replyKeeps_ite | split | with_reducible refine keeps_plain ?_)

theorem countUe_keeps {s0 s : State}  (h0 : Keeps s0 s) : Keeps s0 (countUe s) := by
  unfold countUe
  repeat' (first | assumption | with_reducible apply suspect_keeps | with_reducible apply watch_keeps | with_reducible apply keeps_foldl | with_reducible apply replyKeeps_ite | split | with_reducible refine keeps_plain ?_)

theorem runCmd_keeps {s0 s : State} (opc : Nat) (modCmd : Bool) (c : Cmd) (checks : State → List (Bool × Nat)) (f : State → Reply)
    (h0 : Keeps s0 s) (hf : ∀ t, Keeps s0 t → ReplyKeeps s0 (f t)) : OutKeeps s0 (runCmd opc modCmd c checks f s) := by
  unfold runCmd
  split
  · exact h0
  · rename_i s1 he
    have h1 := takeEntry_keeps he h0
    dsimp only
    split
    · repeat' (first | assumption | with_reducible apply complete_keeps | with_reducible apply keeps_foldl | with_reducible apply outKeeps_next | with_reducible apply replyKeeps_ite | split | with_reducible refine keeps_plain ?_ | with_reducible refine keeps_mk ?_)
    · have h2 := hf s1 h1
      revert h2
      cases f s1 with
      | done a r t =>
        intro h2
        have h3 : Keeps s0 t := h2
        repeat' (first | assumption | with_reducible apply complete_keeps | with_reducible apply keeps_foldl | with_reducible apply outKeeps_next | with_reducible apply replyKeeps_ite | split | with_reducible refine keeps_plain ?_ | with_reducible refine keeps_mk ?_)
      | later t => exact fun h2 => h2

theorem ringError_keeps {s0 s : State} (q : Nat) (h0 : Keeps s0 s) : Keeps s0 (ringError q s) := by
  unfold ringError
  repeat' (first | assumption | with_reducible apply setQp_keeps)

theorem execSqTail_keeps {s0 s : State} (q : Fin 33) (tail : BitVec 12) (h0 : Keeps s0 s) : OutKeeps s0 (execSqTail q tail s) := by
  unfold execSqTail
  repeat' (first | assumption | with_reducible apply ringError_keeps | with_reducible apply setQp_keeps | with_reducible apply keeps_foldl | with_reducible apply outKeeps_next | with_reducible apply replyKeeps_ite | split)

theorem execCqHead_keeps {s0 s : State} (q : Fin 33) (head : BitVec 12) (h0 : Keeps s0 s) : OutKeeps s0 (execCqHead q head s) := by
  unfold execCqHead
  repeat' (first | assumption | with_reducible apply ringError_keeps | with_reducible apply drainEvents_keeps | with_reducible apply setQp_keeps | with_reducible apply keeps_foldl | with_reducible apply outKeeps_next | with_reducible apply replyKeeps_ite | split)

theorem execQpEnable_keeps {s0 s : State} (q : Fin 33) (v : Word) (h0 : Keeps s0 s) : OutKeeps s0 (execQpEnable q v s) := by
  unfold execQpEnable
  repeat' (first | assumption | with_reducible apply setQp_keeps | with_reducible apply keeps_foldl | with_reducible apply outKeeps_next | with_reducible apply replyKeeps_ite | split)

theorem execModTcLo_keeps {s0 s : State}  (h0 : Keeps s0 s) : OutKeeps s0 (execModTcLo s) := by
  unfold execModTcLo
  repeat' (first | assumption | with_reducible apply keeps_foldl | with_reducible apply outKeeps_next | with_reducible apply replyKeeps_ite | split | with_reducible refine keeps_plain ?_ | with_reducible refine keeps_mk ?_)

theorem freeze_keeps {s0 s : State} (p : Nat → Bool) (h0 : Keeps s0 s) : Keeps s0 (freeze p s) := by
  unfold freeze
  repeat' (first | assumption | with_reducible apply mapCores_keeps)

theorem thaw_keeps {s0 s : State} (p : Nat → Bool) (h0 : Keeps s0 s) : Keeps s0 (thaw p s) := by
  unfold thaw
  repeat' (first | assumption | with_reducible apply mapCores_keeps | split)

theorem newJobRate_keeps {s0 s : State}  (h0 : Keeps s0 s) : Keeps s0 (newJobRate s) := by
  unfold newJobRate
  repeat' (first | assumption | with_reducible refine keeps_plain ?_)

theorem sendHalts_keeps {s0 s : State} (gs : List Nat) (h0 : Keeps s0 s) : Keeps s0 (sendHalts gs s) := by
  unfold sendHalts
  repeat' (first | assumption | with_reducible refine keeps_plain ?_)

theorem sendCtrl_keeps {s0 s : State} (sub k : Nat) (peers body : List Nat) (h0 : Keeps s0 s) : Keeps s0 (sendCtrl sub k peers body s) := by
  unfold sendCtrl
  repeat' (first | assumption | with_reducible refine keeps_plain ?_)

theorem mapCtxs_keeps {s0 s : State} (k : Nat) (f : Ctx → Ctx) (h0 : Keeps s0 s) : Keeps s0 (mapCtxs k f s) := by
  unfold mapCtxs
  repeat' (first | assumption | with_reducible refine keeps_plain ?_ | with_reducible refine keeps_mk ?_)

theorem endFaulted_keeps {s0 s : State} (k code : Nat) (h0 : Keeps s0 s) : Keeps s0 (endFaulted k code s) := by
  unfold endFaulted
  repeat' (first | assumption | with_reducible apply sendHalts_keeps | with_reducible apply modPart_keeps | with_reducible apply completeLong_keeps | with_reducible apply newJobRate_keeps | with_reducible apply postJob_keeps)

theorem stopChans_keeps {s0 s : State} (k : Nat) (h0 : Keeps s0 s) : Keeps s0 (stopChans k s) := by
  unfold stopChans
  repeat' (first | assumption | with_reducible refine keeps_plain ?_ | with_reducible refine keeps_mk ?_)

theorem endOrWait_keeps {s0 s : State} (k code : Nat) (h0 : Keeps s0 s) : Keeps s0 (endOrWait k code s) := by
  unfold endOrWait
  repeat' (first | assumption | with_reducible apply modPart_keeps | with_reducible apply endFaulted_keeps | split)

theorem endWaiting_keeps {s0 s : State} (h0 : Keeps s0 s) : Keeps s0 (endWaiting s) := by
  unfold endWaiting
  refine keeps_foldl (fun u p hu => ?_) h0
  split
  · exact endFaulted_keeps _ _ hu
  · exact hu

theorem recordDet_keeps {s0 s : State} (det : List Nat) (stop : Bool) (peers : List Nat) (k code src loc sub : Nat) (h0 : Keeps s0 s) : Keeps s0 (recordDet det stop peers k code src loc sub s) := by
  unfold recordDet
  repeat' (first | assumption | with_reducible apply modPart_keeps | with_reducible apply stopChans_keeps | with_reducible apply mapCtxs_keeps | with_reducible apply endOrWait_keeps | with_reducible apply sendCtrl_keeps | with_reducible apply keeps_foldl | with_reducible apply keeps_foldr | with_reducible apply outKeeps_next | with_reducible apply replyKeeps_done | with_reducible apply replyKeeps_later | with_reducible apply outKeeps_fault | intro _ | (extract_lets +onlyGivenNames zx; (first | ((first | refine keeps_cut (x := zx) ?_ ?_ | refine outKeeps_cut (x := zx) ?_ ?_ | refine replyKeeps_cut (x := zx) ?_ ?_); (on_goal 2 => (intro zh; clear_value zx)); (on_goal 1 => (dsimp -zeta only [zx]))) | skip)) | with_reducible apply keeps_ite | with_reducible apply outKeeps_ite | with_reducible apply replyKeeps_ite | split)

theorem recordWith_keeps {s0 s : State} (stop : Bool) (peers : List Nat) (k code src loc sub : Nat) (h0 : Keeps s0 s) : Keeps s0 (recordWith stop peers k code src loc sub s) := by
  unfold recordWith
  repeat' (first | assumption | with_reducible apply recordDet_keeps)

theorem syncFault_keeps {s0 s : State} (det : List Nat) (k code src loc : Nat) (h0 : Keeps s0 s) : Keeps s0 (syncFault det k code src loc s) := by
  unfold syncFault
  repeat' (first | assumption | with_reducible apply recordDet_keeps)

theorem recordFault_keeps {s0 s : State} (k code src loc sub : Nat) (quiet : Bool) (h0 : Keeps s0 s) : Keeps s0 (recordFault k code src loc sub quiet s) := by
  unfold recordFault
  repeat' (first | assumption | with_reducible apply recordWith_keeps)

theorem execHaltRequest_keeps {s0 s : State} (g : Nat) (h0 : Keeps s0 s) : OutKeeps s0 (execHaltRequest g s) := by
  unfold execHaltRequest
  repeat' (first | assumption | with_reducible apply onCore_keeps | split | with_reducible refine keeps_plain ?_)

theorem execHaltEntry_keeps {s0 s : State} (g : Nat) (h0 : Keeps s0 s) : OutKeeps s0 (execHaltEntry g s) := by
  unfold execHaltEntry
  repeat' (first | assumption | with_reducible apply onCore_keeps)

theorem execStallWatchdog_keeps {s0 s : State} (g : Nat) (h0 : Keeps s0 s) : OutKeeps s0 (execStallWatchdog g s) := by
  unfold execStallWatchdog
  repeat' (first | assumption | with_reducible apply postTo_keeps | with_reducible apply setCore_keeps | with_reducible apply outKeeps_next | with_reducible apply outKeeps_fault | (extract_lets +onlyGivenNames zx; (first | ((first | refine keeps_cut (x := zx) ?_ ?_ | refine outKeeps_cut (x := zx) ?_ ?_ | refine replyKeeps_cut (x := zx) ?_ ?_); (on_goal 2 => (intro zh; clear_value zx)); (on_goal 1 => (dsimp -zeta only [zx]))) | skip)) | split)

theorem execInstructionFetch_keeps {s0 s : State} (g : Nat) (h0 : Keeps s0 s) : OutKeeps s0 (execInstructionFetch g s) := by
  unfold execInstructionFetch
  repeat' (first | assumption | with_reducible apply setCore_keeps | with_reducible apply setStation_keeps | with_reducible apply outKeeps_fault | (extract_lets +onlyGivenNames zx; (first | ((first | refine keeps_cut (x := zx) ?_ ?_ | refine outKeeps_cut (x := zx) ?_ ?_ | refine replyKeeps_cut (x := zx) ?_ ?_); (on_goal 2 => (intro zh; clear_value zx)); (on_goal 1 => (dsimp -zeta only [zx]))) | skip)) | split)

end Sys2Proof.Machine
end

