-- ==== Sys2Proof/Laws/KeepsMesh.lean ====
section
/-! SUPPORT. What no command touches, for the mesh, the clock, the power tree, control messages and the rim: the queue, the fuse counters and the
canonical form of every table. -/

namespace Sys2Proof.Machine

set_option Elab.async false

theorem setRouter_keeps {s0 s : State} (g : Nat) (r : Router) (h0 : Keeps s0 s) : Keeps s0 (setRouter s g r) := by
  unfold setRouter
  repeat' (first | assumption | with_reducible refine keeps_plain ?_ | with_reducible refine keeps_mk ?_)

theorem modRouter_keeps {s0 s : State} (g : Nat) (f : Router → Router) (h0 : Keeps s0 s) : Keeps s0 (modRouter s g f) := by
  unfold modRouter
  repeat' (first | assumption | with_reducible apply setRouter_keeps)

theorem setSluice_keeps {s0 s : State} (k : Nat) (x : Sluice) (h0 : Keeps s0 s) : Keeps s0 (setSluice s k x) := by
  unfold setSluice
  repeat' (first | assumption | with_reducible refine keeps_plain ?_ | with_reducible refine keeps_mk ?_)

theorem setEdge_keeps {s0 s : State} (k : Nat) (x : Edge) (h0 : Keeps s0 s) : Keeps s0 (setEdge s k x) := by
  unfold setEdge
  repeat' (first | assumption | with_reducible refine keeps_plain ?_ | with_reducible refine keeps_mk ?_)

theorem modColl_keeps {s0 s : State} (k : Nat) (f : Collector → Collector) (h0 : Keeps s0 s) : Keeps s0 (modColl s k f) := by
  unfold modColl
  repeat' (first | assumption | with_reducible apply setPan_keeps)

theorem computeLanes_keeps {s0 s : State}  (h0 : Keeps s0 s) : Keeps s0 (computeLanes s) := by
  unfold computeLanes
  repeat' (first | assumption | with_reducible refine keeps_plain ?_)

theorem cross_keeps {s0 s : State} (g : Nat) (k : Fin 4) (t : Nat) (x : Xfer) (h0 : Keeps s0 s) : Keeps s0 (cross s g k t x) := by
  unfold cross
  repeat' (first | assumption | with_reducible apply setSluice_keeps | split)

theorem crossIn_keeps {s0 s : State} (g : Nat) (k : Fin 4) (t : Nat) (x : Xfer) (h0 : Keeps s0 s) : Keeps s0 (crossIn s g k t x) := by
  unfold crossIn
  repeat' (first | assumption | with_reducible apply setSluice_keeps | with_reducible apply keeps_foldl | with_reducible apply keeps_foldr | with_reducible apply outKeeps_next | with_reducible apply replyKeeps_done | with_reducible apply replyKeeps_later | with_reducible apply outKeeps_fault | intro _ | (extract_lets +onlyGivenNames zx; (first | ((first | refine keeps_cut (x := zx) ?_ ?_ | refine outKeeps_cut (x := zx) ?_ ?_ | refine replyKeeps_cut (x := zx) ?_ ?_); (on_goal 2 => (intro zh; clear_value zx)); (on_goal 1 => (dsimp -zeta only [zx]))) | skip)) | with_reducible apply keeps_ite)

theorem deliver_keeps {s0 s : State} (g : Nat) (q : Fin 8) (en : QEntry) (h0 : Keeps s0 s) : Keeps s0 (deliver s g q en) := by
  unfold deliver
  repeat' (first | assumption | with_reducible apply setCore_keeps | with_reducible apply keeps_ite)

theorem creditBack_keeps {s0 s : State} (g : Nat) (k : Fin 4) (t : Nat) (lane : Option (Fin 4)) (h0 : Keeps s0 s) : Keeps s0 (creditBack s g k t lane) := by
  unfold creditBack
  repeat' (first | assumption | with_reducible apply modRouter_keeps | with_reducible apply cross_keeps | split)

theorem sendFlit_keeps {s0 s : State} (g t : Nat) (f : Flit) (k : Fin 4) (h0 : Keeps s0 s) : Keeps s0 (sendFlit s g t f k) := by
  unfold sendFlit
  repeat' (first | assumption | with_reducible apply modRouter_keeps | with_reducible apply cross_keeps | split)

theorem applyMove_keeps {s0 s : State} (g t : Nat) (m : Move) (h0 : Keeps s0 s) : Keeps s0 (applyMove g t m s) := by
  unfold applyMove
  have h1 : ∀ u, Keeps s0 u → Keeps s0 (m.outs.foldl (fun s k => sendFlit s g t m.flit k) u) :=
    fun u hu => keeps_foldl (fun v x hv => sendFlit_keeps _ _ _ _ hv) hu
  extract_lets c q k s1 s2
  have hs : Keeps s0 s1 := keeps_ite (setCore_keeps _ _ h0) (creditBack_keeps _ _ _ _ (modRouter_keeps _ _ h0))
  clear_value s1
  have h2 : Keeps s0 s2 := h1 _ hs
  clear_value s2
  split
  · exact keeps_ite h2 (deliver_keeps _ _ _ h2)
  · exact h2

theorem execEntryArrival_keeps {s0 s : State} (g : Nat) (q : Fin 8) (h0 : Keeps s0 s) : OutKeeps s0 (execEntryArrival g q s) := by
  unfold execEntryArrival
  repeat' (first | assumption | with_reducible apply modRouter_keeps | with_reducible apply deliver_keeps | with_reducible apply outKeeps_next | with_reducible apply outKeeps_fault | split)

theorem applyPort_keeps {s0 s : State} (g : Nat) (m : Msg) (h0 : Keeps s0 s) : Keeps s0 (applyPort s g m) := by
  unfold applyPort
  repeat' (first | assumption | with_reducible apply setCore_keeps | with_reducible apply modRouter_keeps | split)

theorem portEvent_keeps {s0 s : State} (g : Nat) (kind : MsgBody → Bool) (h0 : Keeps s0 s) : OutKeeps s0 (portEvent g kind s) := by
  unfold portEvent
  repeat' (first | assumption | with_reducible apply applyPort_keeps | with_reducible apply setRouter_keeps | with_reducible apply outKeeps_next | with_reducible apply outKeeps_fault | split)

theorem execFlagSetMessage_keeps {s0 s : State} (g : Nat) (h0 : Keeps s0 s) : OutKeeps s0 (execFlagSetMessage g s) := by
  unfold execFlagSetMessage
  repeat' (first | assumption | with_reducible apply portEvent_keeps)

theorem execFlagClrMessage_keeps {s0 s : State} (g : Nat) (h0 : Keeps s0 s) : OutKeeps s0 (execFlagClrMessage g s) := by
  unfold execFlagClrMessage
  repeat' (first | assumption | with_reducible apply portEvent_keeps)

theorem execChPutMessage_keeps {s0 s : State} (g : Nat) (h0 : Keeps s0 s) : OutKeeps s0 (execChPutMessage g s) := by
  unfold execChPutMessage
  repeat' (first | assumption | with_reducible apply portEvent_keeps)

theorem execChGetMessage_keeps {s0 s : State} (g : Nat) (h0 : Keeps s0 s) : OutKeeps s0 (execChGetMessage g s) := by
  unfold execChGetMessage
  repeat' (first | assumption | with_reducible apply portEvent_keeps)

theorem execGuardRes_keeps {s0 s : State} (g : Nat) (h0 : Keeps s0 s) : OutKeeps s0 (execGuardRes g s) := by
  unfold execGuardRes
  repeat' (first | assumption | with_reducible apply portEvent_keeps)

theorem execBarRel_keeps {s0 s : State} (g : Nat) (h0 : Keeps s0 s) : OutKeeps s0 (execBarRel g s) := by
  unfold execBarRel
  repeat' (first | assumption | with_reducible apply portEvent_keeps)

theorem sendRim_keeps {s0 s : State} (x : Nat) (m : LaneMsg) (h0 : Keeps s0 s) : Keeps s0 (sendRim s x m) := by
  unfold sendRim
  repeat' (first | assumption | with_reducible apply setEdge_keeps)

theorem sendCore_keeps {s0 s : State} (k : Nat) (g : Nat) (b : MsgBody) (h0 : Keeps s0 s) : Keeps s0 (sendCore s k g b) := by
  unfold sendCore
  repeat' (first | assumption | with_reducible apply sendRim_keeps)

theorem broadcast_keeps {s0 s : State} (k : Nat) (b : MsgBody) (h0 : Keeps s0 s) : Keeps s0 (broadcast s k b) := by
  unfold broadcast
  repeat' (first | assumption | with_reducible apply sendRim_keeps | with_reducible apply keeps_foldl | with_reducible apply keeps_foldr | with_reducible apply outKeeps_next | with_reducible apply replyKeeps_done | with_reducible apply replyKeeps_later | with_reducible apply outKeeps_fault | intro _ | (extract_lets +onlyGivenNames zx; (first | ((first | refine keeps_cut (x := zx) ?_ ?_ | refine outKeeps_cut (x := zx) ?_ ?_ | refine replyKeeps_cut (x := zx) ?_ ?_); (on_goal 2 => (intro zh; clear_value zx)); (on_goal 1 => (dsimp -zeta only [zx]))) | skip)) | with_reducible apply keeps_ite | with_reducible apply outKeeps_ite | with_reducible apply replyKeeps_ite | split)

theorem keeps_foldl1 {α β : Type} {s0 : State} {f : State × β → α → State × β} {l : List α}
    (hf : ∀ a x, Keeps s0 a.1 → Keeps s0 (f a x).1) : ∀ {a : State × β}, Keeps s0 a.1 → Keeps s0 (l.foldl f a).1 := by
  induction l with
  | nil => exact fun h => h
  | cons x l ih => exact fun h => ih (hf _ x h)

theorem laneArrive_keeps {s0 s : State} (g t : Nat) (m : LaneMsg) (h : Keeps s0 s) : Keeps s0 (laneArrive s g t m).1 := by
  unfold laneArrive
  extract_lets m1 keep here s1 s2
  have hk : ∀ u m, Keeps s0 u → Keeps s0 (keep u m).1 := fun u m hu => by
    dsimp only [keep]
    exact modRouter_keeps _ _ hu
  have h1 : Keeps s0 s1 := keeps_ite (modRouter_keeps _ _ h) h
  have h2 : Keeps s0 s2 := modRouter_keeps _ _ h
  clear_value s1 s2 here keep m1
  split
  · exact hk _ _ h
  split
  · split
    · exact hk _ _ h
    split
    · dsimp only
      exact modColl_keeps _ _ h
    · dsimp only
      exact modRouter_keeps _ _ h
  · exact hk _ _ h
  · dsimp only
    split
    · exact hk _ _ h1
    · exact h1
  · split
    · exact h2
    · exact hk _ _ h2

theorem sendCtl_keeps {s0 : State} (g t : Nat) (k : Fin 4) (m : LaneMsg) (a : State × List (Nat × LaneMsg)) (h : Keeps s0 a.1) :
    Keeps s0 (sendCtl g t k m a).1 := by
  unfold sendCtl
  dsimp only
  repeat' (first | assumption | with_reducible apply modRouter_keeps | with_reducible apply cross_keeps | with_reducible apply keeps_foldl | split)

theorem countHeld_keeps {s0 s : State} (t : Nat) (g : Nat) (h0 : Keeps s0 s) : Keeps s0 (countHeld t s g) := by
  unfold countHeld
  repeat' (first | assumption | with_reducible apply modRouter_keeps | with_reducible apply keeps_foldl | split)

theorem noteFlit_keeps {s0 s : State} (g : Nat) (k : Fin 4) (h0 : Keeps s0 s) : Keeps s0 (noteFlit g k s) := by
  unfold noteFlit
  repeat' (first | assumption | with_reducible apply keeps_foldl | split | with_reducible refine keeps_plain ?_ | with_reducible refine keeps_mk ?_)

theorem absorbAt_keeps {s0 s : State} (t : Nat) (g : Nat) (h0 : Keeps s0 s) : Keeps s0 (absorbAt t s g) := by
  unfold absorbAt
  repeat' (first | assumption | with_reducible apply creditBack_keeps | with_reducible apply noteFlit_keeps | with_reducible apply setRouter_keeps | with_reducible apply keeps_foldl | intro _ | with_reducible apply keeps_ite)

theorem switchPan_keeps {s0 s : State} (n t : Nat) (h0 : Keeps s0 s) : Keeps s0 (switchPan n t s) := by
  unfold switchPan
  repeat' (first | assumption | with_reducible apply countHeld_keeps | with_reducible apply applyMove_keeps | with_reducible apply absorbAt_keeps | with_reducible apply keeps_foldl | intro _)

theorem portsPan_keeps {s0 s : State} (n t : Nat) (h0 : Keeps s0 s) : Keeps s0 (portsPan n t s) := by
  unfold portsPan
  repeat' (first | assumption | with_reducible apply applyPort_keeps | with_reducible apply modRouter_keeps | with_reducible apply keeps_foldl | intro _)

theorem freePlace_keeps {s0 s : State} (g t : Nat) (l : Fin 4) (m : LaneMsg) (h0 : Keeps s0 s) : Keeps s0 (freePlace g t l m s) := by
  unfold freePlace
  repeat' (first | assumption | with_reducible apply creditBack_keeps | with_reducible apply keeps_foldl | with_reducible apply keeps_foldr | with_reducible apply outKeeps_next | with_reducible apply replyKeeps_done | with_reducible apply replyKeeps_later | with_reducible apply outKeeps_fault | intro _ | (extract_lets +onlyGivenNames zx; (first | ((first | refine keeps_cut (x := zx) ?_ ?_ | refine outKeeps_cut (x := zx) ?_ ?_ | refine replyKeeps_cut (x := zx) ?_ ?_); (on_goal 2 => (intro zh; clear_value zx)); (on_goal 1 => (dsimp -zeta only [zx]))) | skip)) | with_reducible apply keeps_ite)

theorem takeCtl_keeps {s0 s : State} (g t : Nat) (p : CtlSrc × LaneMsg) (h0 : Keeps s0 s) : Keeps s0 (takeCtl g t s p) := by
  unfold takeCtl
  repeat' (first | assumption | with_reducible apply freePlace_keeps | with_reducible apply modRouter_keeps | with_reducible apply setRouter_keeps | with_reducible apply setCore_keeps | with_reducible apply keeps_foldl | with_reducible apply keeps_foldr | with_reducible apply outKeeps_next | with_reducible apply replyKeeps_done | with_reducible apply replyKeeps_later | with_reducible apply outKeeps_fault | intro _ | (extract_lets +onlyGivenNames zx; (first | ((first | refine keeps_cut (x := zx) ?_ ?_ | refine outKeeps_cut (x := zx) ?_ ?_ | refine replyKeeps_cut (x := zx) ?_ ?_); (on_goal 2 => (intro zh; clear_value zx)); (on_goal 1 => (dsimp -zeta only [zx]))) | skip)) | with_reducible apply keeps_ite | with_reducible apply outKeeps_ite | with_reducible apply replyKeeps_ite | split)

theorem arriveCtl_keeps {s0 s : State} (ups : List Upset) (t : Nat) (p : Nat × LaneMsg) (h0 : Keeps s0 s) : Keeps s0 (arriveCtl ups t s p) := by
  unfold arriveCtl
  obtain ⟨g, m⟩ := p
  dsimp -zeta only
  split
  · exact laneArrive_keeps _ _ _ h0
  extract_lets k x
  have hx : Keeps s0 x := modRouter_keeps _ _ h0
  clear_value x
  split
  · split
    · exact hx
    · exact creditBack_keeps _ _ _ _ hx
  · split
    · exact laneArrive_keeps _ _ _ hx
    · exact creditBack_keeps _ _ _ _ (laneArrive_keeps _ _ _ hx)

theorem laneOut_keeps {s0 : State} (u0 : State) (g t : Nat) (k : Fin 4) (asks : List (CtlSrc × LaneMsg)) (a : State × List (Nat × LaneMsg))
    (h : Keeps s0 a.1) : Keeps s0 (laneOut u0 g t k asks a).1 := by
  unfold laneOut
  extract_lets mine groups go late u w s1 s2
  have h1 : Keeps s0 s1 := by
    show Keeps s0 (if late = 0 then a.1 else _)
    split
    · exact h
    · exact keeps_mk (modRouter_keeps _ _ h)
  have h2 : Keeps s0 s2 := keeps_foldl (fun u x hu => takeCtl_keeps g t x hu) h1
  clear_value s2
  exact keeps_foldl1 (fun b x hb => sendCtl_keeps g t k _ b hb) (a := (s2, a.2)) h2

theorem laneStep_keeps {s0 : State} (u0 : State) (g t : Nat) (ls : List (Fin 4)) (a : State × List (Nat × LaneMsg)) (h : Keeps s0 a.1) :
    Keeps s0 (laneStep u0 g t ls a).1 := by
  unfold laneStep
  extract_lets asks home s1
  have h1 : Keeps s0 s1 := keeps_foldl (fun u x hu => laneArrive_keeps _ _ _ (takeCtl_keeps g t x hu)) h
  clear_value s1
  exact keeps_foldl1 (fun b x hb => laneOut_keeps u0 g t x asks b hb) (a := (s1, a.2)) h1

theorem lanesPan_keeps {s0 s : State} (n t : Nat) (ups : List Upset) (h0 : Keeps s0 s) : Keeps s0 (lanesPan n t ups s) := by
  unfold lanesPan
  extract_lets gs r
  have hr : Keeps s0 r.1 := keeps_foldl1 (fun b x hb => by
    split
    · exact hb
    · exact laneStep_keeps _ _ _ _ _ hb) (a := (s, [])) h0
  clear_value r
  exact keeps_foldl (fun u x hu => arriveCtl_keeps _ _ _ hu) hr

theorem coresEnd_keeps {s0 s : State} (n : Nat) (h0 : Keeps s0 s) : Keeps s0 (coresEnd n s) := by
  unfold coresEnd
  repeat' (first | assumption | with_reducible apply mapCores_keeps)

theorem landed_keeps {s0 s : State} (ups : List Upset) (t : Nat) (f : Flight) (h0 : Keeps s0 s) : Keeps s0 (landed ups t s f) := by
  unfold landed
  repeat' (first | assumption | with_reducible apply modRouter_keeps | with_reducible apply arriveCtl_keeps | with_reducible apply keeps_foldl | with_reducible apply keeps_foldr | with_reducible apply outKeeps_next | with_reducible apply replyKeeps_done | with_reducible apply replyKeeps_later | with_reducible apply outKeeps_fault | intro _ | (extract_lets +onlyGivenNames zx; (first | ((first | refine keeps_cut (x := zx) ?_ ?_ | refine outKeeps_cut (x := zx) ?_ ?_ | refine replyKeeps_cut (x := zx) ?_ ?_); (on_goal 2 => (intro zh; clear_value zx)); (on_goal 1 => (dsimp -zeta only [zx]))) | skip)) | with_reducible apply keeps_ite | with_reducible apply outKeeps_ite | with_reducible apply replyKeeps_ite | split)

theorem sluicesIn_keeps {s0 s : State} (n t : Nat) (ups : List Upset) (h0 : Keeps s0 s) : Keeps s0 (sluicesIn n t ups s) := by
  unfold sluicesIn
  repeat' (first | assumption | with_reducible apply landed_keeps | with_reducible apply setSluice_keeps | with_reducible apply keeps_foldl | with_reducible apply keeps_foldr | with_reducible apply outKeeps_next | with_reducible apply replyKeeps_done | with_reducible apply replyKeeps_later | with_reducible apply outKeeps_fault | intro _ | (extract_lets +onlyGivenNames zx; (first | ((first | refine keeps_cut (x := zx) ?_ ?_ | refine outKeeps_cut (x := zx) ?_ ?_ | refine replyKeeps_cut (x := zx) ?_ ?_); (on_goal 2 => (intro zh; clear_value zx)); (on_goal 1 => (dsimp -zeta only [zx]))) | skip)) | with_reducible apply keeps_ite)

theorem countWait_keeps {s0 s : State} (t : Nat) (i : Nat) (h0 : Keeps s0 s) : Keeps s0 (countWait t s i) := by
  unfold countWait
  repeat' (first | assumption | with_reducible apply setSluice_keeps | with_reducible apply watch_keeps | with_reducible apply keeps_foldl | with_reducible apply keeps_foldr | with_reducible apply outKeeps_next | with_reducible apply replyKeeps_done | with_reducible apply replyKeeps_later | with_reducible apply outKeeps_fault | intro _ | (extract_lets +onlyGivenNames zx; (first | ((first | refine keeps_cut (x := zx) ?_ ?_ | refine outKeeps_cut (x := zx) ?_ ?_ | refine replyKeeps_cut (x := zx) ?_ ?_); (on_goal 2 => (intro zh; clear_value zx)); (on_goal 1 => (dsimp -zeta only [zx]))) | skip)) | with_reducible apply keeps_ite)

theorem markHeld_keeps {s0 s : State} (i : Nat) (h0 : Keeps s0 s) : Keeps s0 (markHeld s i) := by
  unfold markHeld
  repeat' (first | assumption | with_reducible apply setSluice_keeps | with_reducible apply keeps_foldl | with_reducible apply keeps_foldr | with_reducible apply outKeeps_next | with_reducible apply replyKeeps_done | with_reducible apply replyKeeps_later | with_reducible apply outKeeps_fault | intro _ | (extract_lets +onlyGivenNames zx; (first | ((first | refine keeps_cut (x := zx) ?_ ?_ | refine outKeeps_cut (x := zx) ?_ ?_ | refine replyKeeps_cut (x := zx) ?_ ?_); (on_goal 2 => (intro zh; clear_value zx)); (on_goal 1 => (dsimp -zeta only [zx]))) | skip)) | with_reducible apply keeps_ite)

theorem sluiceMark_keeps {s0 s : State} (n : Nat) (h0 : Keeps s0 s) : Keeps s0 (sluiceMark n s) := by
  unfold sluiceMark
  repeat' (first | assumption | with_reducible apply markHeld_keeps | with_reducible apply keeps_foldl)

theorem noteUe_keeps {s0 s : State} (u : LinkUpset) (h0 : Keeps s0 s) : Keeps s0 (noteUe u s) := by
  unfold noteUe
  repeat' (first | assumption | with_reducible apply modRouter_keeps | with_reducible apply countUe_keeps | with_reducible apply keeps_foldl | split | with_reducible refine keeps_plain ?_)

theorem dropped_keeps {s0 s : State} (u : LinkUpset) (ctl : Bool) (h0 : Keeps s0 s) : Keeps s0 (dropped u ctl s) := by
  unfold dropped
  repeat' (first | assumption | with_reducible apply recordFault_keeps | with_reducible apply noteUe_keeps | with_reducible apply keeps_foldl | split)

theorem resend_keeps {s0 s : State} (t : Nat) (u : LinkUpset) (h0 : Keeps s0 s) : Keeps s0 (resend t u s) := by
  unfold resend
  repeat' (first | assumption | with_reducible apply setRouter_keeps)

theorem resent_keeps {s0 s : State} (n t : Nat) (h0 : Keeps s0 s) : Keeps s0 (resent n t s) := by
  unfold resent
  repeat' (first | assumption | with_reducible apply modRouter_keeps | with_reducible apply setRouter_keeps | with_reducible apply keeps_foldl | with_reducible apply keeps_foldr | with_reducible apply outKeeps_next | with_reducible apply replyKeeps_done | with_reducible apply replyKeeps_later | with_reducible apply outKeeps_fault | intro _ | (extract_lets +onlyGivenNames zx; (first | ((first | refine keeps_cut (x := zx) ?_ ?_ | refine outKeeps_cut (x := zx) ?_ ?_ | refine replyKeeps_cut (x := zx) ?_ ?_); (on_goal 2 => (intro zh; clear_value zx)); (on_goal 1 => (dsimp -zeta only [zx]))) | skip)) | with_reducible apply keeps_ite)

theorem upset_keeps {s0 s : State} (t : Nat) (u : LinkUpset) (h0 : Keeps s0 s) : Keeps s0 (upset t s u) := by
  unfold upset
  refine iteInduction (fun _ => h0) (fun _ => ?_)
  generalize getRouter s u.router = r
  refine iteInduction (fun _ => keeps_mk (setRouter_keeps _ _ h0)) (fun _ => ?_)
  refine iteInduction (fun _ => dropped_keeps _ _ (resend_keeps _ _ h0)) (fun _ => ?_)
  dsimp only
  split
  · refine iteInduction (fun _ => setRouter_keeps _ _ h0) (fun _ => ?_)
    exact dropped_keeps _ _ (resend_keeps _ _ (iteInduction (fun _ => setRouter_keeps _ _ h0) (fun _ => creditBack_keeps _ _ _ _ (setRouter_keeps _ _ h0))))
  · exact iteInduction (fun _ => h0) (fun _ => dropped_keeps _ _ (resend_keeps _ _ h0))

theorem upsetOne_keeps {s0 s : State} (t : Nat) (u : Upset) (h0 : Keeps s0 s) : Keeps s0 (upsetOne t s u) := by
  unfold upsetOne
  split
  · exact upset_keeps _ _ h0
  · exact keeps_ite h0 (setCore_keeps _ _ h0)
  · exact keeps_mk h0

theorem panStep_keeps {s0 s : State} (n t : Nat) (ups : List Upset) (h0 : Keeps s0 s) : Keeps s0 (panStep n t ups s) := by
  unfold panStep
  extract_lets mine s1 x s2 s3
  have h1 : Keeps s0 s1 := coresEnd_keeps _ (lanesPan_keeps _ _ _ (portsPan_keeps _ _ (switchPan_keeps _ _ h0)))
  clear_value s1
  have h2 : Keeps s0 s2 := setNode_keeps _ _ h1
  clear_value s2
  exact keeps_foldl (fun u x hu => upsetOne_keeps _ _ hu) (sluiceMark_keeps _ (sluicesIn_keeps _ _ _ (resent_keeps _ _ h2)))

theorem edgeSend_keeps {s0 s : State} (t : Nat) (i : Nat) (h0 : Keeps s0 s) : Keeps s0 (edgeSend t s i) := by
  unfold edgeSend
  repeat' (first | assumption | with_reducible apply crossIn_keeps | with_reducible apply setEdge_keeps | with_reducible apply keeps_foldl | split | with_reducible refine keeps_plain ?_)

theorem rimSend_keeps {s0 s : State} (t : Nat) (i : Nat) (h0 : Keeps s0 s) : Keeps s0 (rimSend t s i) := by
  unfold rimSend
  repeat' (first | assumption | with_reducible apply edgeSend_keeps | with_reducible apply crossIn_keeps | with_reducible apply setEdge_keeps | with_reducible apply keeps_foldl | with_reducible apply keeps_foldr | with_reducible apply outKeeps_next | with_reducible apply replyKeeps_done | with_reducible apply replyKeeps_later | with_reducible apply outKeeps_fault | intro _ | (extract_lets +onlyGivenNames zx; (first | ((first | refine keeps_cut (x := zx) ?_ ?_ | refine outKeeps_cut (x := zx) ?_ ?_ | refine replyKeeps_cut (x := zx) ?_ ?_); (on_goal 2 => (intro zh; clear_value zx)); (on_goal 1 => (dsimp -zeta only [zx]))) | skip)) | with_reducible apply keeps_ite)

theorem rimIn_keeps {s0 s : State} (n t : Nat) (k : Nat) (h0 : Keeps s0 s) : Keeps s0 (rimIn n t s k) := by
  unfold rimIn
  repeat' (first | assumption | with_reducible apply setEdge_keeps | with_reducible apply setSluice_keeps | with_reducible apply keeps_foldl | intro _ | split | with_reducible refine keeps_plain ?_)

theorem guardTimers_keeps {s0 s : State}  (h0 : Keeps s0 s) : Keeps s0 (guardTimers s) := by
  unfold guardTimers
  repeat' (first | assumption | with_reducible apply keeps_foldl | split | with_reducible refine keeps_plain ?_ | with_reducible refine keeps_mk ?_)

theorem rimStep_keeps {s0 s : State} (n t : Nat) (h0 : Keeps s0 s) : Keeps s0 (rimStep n t s) := by
  unfold rimStep
  repeat' (first | assumption | with_reducible apply rimSend_keeps | with_reducible apply setNode_keeps | with_reducible apply sluiceMark_keeps | with_reducible apply rimIn_keeps | with_reducible apply guardTimers_keeps | with_reducible apply keeps_foldl | with_reducible apply keeps_foldr | with_reducible apply outKeeps_next | with_reducible apply replyKeeps_done | with_reducible apply replyKeeps_later | with_reducible apply outKeeps_fault | intro _ | (extract_lets +onlyGivenNames zx; (first | ((first | refine keeps_cut (x := zx) ?_ ?_); (on_goal 2 => (intro zh; clear_value zx)); (on_goal 1 => (dsimp -zeta only [zx]))))) | with_reducible apply keeps_ite)

theorem nodeStep_keeps {s0 s : State} (n : Nat) (ups : List Upset) (h0 : Keeps s0 s) : Keeps s0 (nodeStep n ups s) := by
  unfold nodeStep
  repeat' (first | assumption | with_reducible apply panStep_keeps | with_reducible apply rimStep_keeps | with_reducible apply countWait_keeps | with_reducible apply keeps_foldl | with_reducible apply keeps_foldr | with_reducible apply outKeeps_next | with_reducible apply replyKeeps_done | with_reducible apply replyKeeps_later | with_reducible apply outKeeps_fault | intro _ | (extract_lets +onlyGivenNames zx; (first | ((first | refine keeps_cut (x := zx) ?_ ?_ | refine outKeeps_cut (x := zx) ?_ ?_ | refine replyKeeps_cut (x := zx) ?_ ?_); (on_goal 2 => (intro zh; clear_value zx)); (on_goal 1 => (dsimp -zeta only [zx]))) | skip)) | with_reducible apply keeps_ite | with_reducible apply outKeeps_ite | with_reducible apply replyKeeps_ite | split)

theorem paceTime_keeps {s0 s : State} (k : Nat) (h0 : Keeps s0 s) : Keeps s0 (paceTime k s) := by
  unfold paceTime
  repeat' (first | assumption | with_reducible apply keeps_foldl | with_reducible apply keeps_foldr | with_reducible apply outKeeps_next | with_reducible apply replyKeeps_done | with_reducible apply replyKeeps_later | with_reducible apply outKeeps_fault | intro _ | (extract_lets +onlyGivenNames zx; (first | ((first | refine keeps_cut (x := zx) ?_ ?_ | refine outKeeps_cut (x := zx) ?_ ?_ | refine replyKeeps_cut (x := zx) ?_ ?_); (on_goal 2 => (intro zh; clear_value zx)); (on_goal 1 => (dsimp -zeta only [zx]))) | skip)) | with_reducible apply keeps_ite | with_reducible apply outKeeps_ite | with_reducible apply replyKeeps_ite | split | dsimp -zeta only | with_reducible refine keeps_plain ?_)

theorem execPaceRelease_keeps {s0 s : State} (n : Fin 100) (h0 : Keeps s0 s) : OutKeeps s0 (execPaceRelease n s) := by
  unfold execPaceRelease
  repeat' (first | assumption | with_reducible apply setNode_keeps | with_reducible apply paceTime_keeps | with_reducible apply keeps_foldl | with_reducible apply keeps_foldr | with_reducible apply outKeeps_next | with_reducible apply replyKeeps_done | with_reducible apply replyKeeps_later | with_reducible apply outKeeps_fault | intro _ | (extract_lets +onlyGivenNames zx; (first | ((first | refine keeps_cut (x := zx) ?_ ?_ | refine outKeeps_cut (x := zx) ?_ ?_ | refine replyKeeps_cut (x := zx) ?_ ?_); (on_goal 2 => (intro zh; clear_value zx)); (on_goal 1 => (dsimp -zeta only [zx]))) | skip)) | with_reducible apply keeps_ite)

theorem settlePend_keeps {s0 s : State}  (h0 : Keeps s0 s) : Keeps s0 (settlePend s) := by
  unfold settlePend
  repeat' (first | assumption | with_reducible apply keeps_foldl | with_reducible apply keeps_foldr | with_reducible apply outKeeps_next | with_reducible apply replyKeeps_done | with_reducible apply replyKeeps_later | with_reducible apply outKeeps_fault | intro _ | (extract_lets +onlyGivenNames zx; (first | ((first | refine keeps_cut (x := zx) ?_ ?_ | refine outKeeps_cut (x := zx) ?_ ?_ | refine replyKeeps_cut (x := zx) ?_ ?_); (on_goal 2 => (intro zh; clear_value zx)); (on_goal 1 => (dsimp -zeta only [zx]))) | skip)) | with_reducible apply keeps_ite | with_reducible apply outKeeps_ite | with_reducible apply replyKeeps_ite | split | dsimp -zeta only | with_reducible refine keeps_plain ?_)

theorem execRateChangeApply_keeps {s0 s : State} (n : Fin 100) (h0 : Keeps s0 s) : OutKeeps s0 (execRateChangeApply n s) := by
  unfold execRateChangeApply
  repeat' (first | assumption | with_reducible apply setNode_keeps | with_reducible apply settlePend_keeps | with_reducible apply keeps_foldl | with_reducible apply keeps_foldr | with_reducible apply outKeeps_next | with_reducible apply replyKeeps_done | with_reducible apply replyKeeps_later | with_reducible apply outKeeps_fault | intro _ | (extract_lets +onlyGivenNames zx; (first | ((first | refine keeps_cut (x := zx) ?_ ?_ | refine outKeeps_cut (x := zx) ?_ ?_ | refine replyKeeps_cut (x := zx) ?_ ?_); (on_goal 2 => (intro zh; clear_value zx)); (on_goal 1 => (dsimp -zeta only [zx]))) | skip)) | with_reducible apply keeps_ite | with_reducible apply outKeeps_ite | with_reducible apply replyKeeps_ite | split | dsimp -zeta only | with_reducible refine keeps_plain ?_)

theorem setPwr_keeps {s0 s : State} (p : Nat) (x : PanPwr) (h0 : Keeps s0 s) : Keeps s0 (setPwr s p x) := by
  unfold setPwr
  repeat' (first | assumption | with_reducible apply keeps_foldl | with_reducible apply keeps_foldr | split | with_reducible refine keeps_plain ?_ | with_reducible refine keeps_mk ?_)

theorem modPwr_keeps {s0 s : State} (p : Nat) (f : PanPwr → PanPwr) (h0 : Keeps s0 s) : Keeps s0 (modPwr s p f) := by
  unfold modPwr
  repeat' (first | assumption | with_reducible apply setPwr_keeps)

theorem deliverRate_keeps {s0 s : State} (T k : Nat) (h0 : Keeps s0 s) : Keeps s0 (deliverRate T k s) := by
  unfold deliverRate
  repeat' (first | assumption | with_reducible apply setNode_keeps | with_reducible apply keeps_foldl | with_reducible apply keeps_foldr | intro _ | split | with_reducible refine keeps_plain ?_)

theorem execTideArmGo_keeps {s0 s : State}  (h0 : Keeps s0 s) : OutKeeps s0 (execTideArmGo s) := by
  unfold execTideArmGo
  repeat' (first | assumption | with_reducible apply deliverRate_keeps | with_reducible apply keeps_foldl | with_reducible apply keeps_foldr | with_reducible apply outKeeps_next | split | with_reducible refine keeps_plain ?_)

theorem execTideTcLo_keeps {s0 s : State}  (h0 : Keeps s0 s) : OutKeeps s0 (execTideTcLo s) := by
  unfold execTideTcLo
  repeat' (first | assumption | with_reducible apply keeps_foldl | with_reducible apply keeps_foldr | with_reducible apply outKeeps_next | split | with_reducible refine keeps_plain ?_)

theorem portsDown_keeps {s0 s : State}  (h0 : Keeps s0 s) : Keeps s0 (portsDown s) := by
  unfold portsDown
  repeat' (first | assumption | with_reducible apply keeps_foldl | with_reducible apply keeps_foldr | split | with_reducible refine keeps_plain ?_ | with_reducible refine keeps_mk ?_)

theorem fixRefDown_keeps {s0 s : State}  (h0 : Keeps s0 s) : Keeps s0 (fixRefDown s) := by
  unfold fixRefDown
  repeat' (first | assumption | with_reducible apply keeps_foldl | with_reducible apply replyKeeps_done | with_reducible apply replyKeeps_later | with_reducible apply keeps_ite | split | with_reducible refine keeps_plain ?_ | with_reducible refine keeps_mk ?_)

theorem portsBack_keeps {s0 s : State}  (h0 : Keeps s0 s) : Keeps s0 (portsBack s) := by
  unfold portsBack
  repeat' (first | assumption | with_reducible apply fixRefDown_keeps | with_reducible apply keeps_foldl | with_reducible apply keeps_foldr | with_reducible apply outKeeps_next | with_reducible apply replyKeeps_done | with_reducible apply replyKeeps_later | with_reducible apply outKeeps_fault | intro _ | (extract_lets +onlyGivenNames zx; (first | ((first | refine keeps_cut (x := zx) ?_ ?_ | refine outKeeps_cut (x := zx) ?_ ?_ | refine replyKeeps_cut (x := zx) ?_ ?_); (on_goal 2 => (intro zh; clear_value zx)); (on_goal 1 => (dsimp -zeta only [zx]))) | skip)) | with_reducible apply keeps_ite | with_reducible apply outKeeps_ite | with_reducible apply replyKeeps_ite | split | dsimp -zeta only | with_reducible refine keeps_plain ?_ | with_reducible refine keeps_mk ?_)

theorem execRefLost_keeps {s0 s : State}  (h0 : Keeps s0 s) : OutKeeps s0 (execRefLost s) := by
  unfold execRefLost
  repeat' (first | assumption | with_reducible apply pldm_keeps | with_reducible apply postAlarm_keeps | with_reducible apply portsDown_keeps | with_reducible apply keeps_foldl | with_reducible apply keeps_foldr | (extract_lets +onlyGivenNames zx; (first | ((first | refine keeps_cut (x := zx) ?_ ?_ | refine outKeeps_cut (x := zx) ?_ ?_ | refine replyKeeps_cut (x := zx) ?_ ?_); (on_goal 2 => (intro zh; clear_value zx)); (on_goal 1 => (dsimp -zeta only [zx]))) | skip)) | split | dsimp -zeta only | with_reducible refine keeps_plain ?_ | with_reducible refine keeps_mk ?_)

theorem execRefBack_keeps {s0 s : State}  (h0 : Keeps s0 s) : OutKeeps s0 (execRefBack s) := by
  unfold execRefBack
  repeat' (first | assumption | with_reducible apply pldm_keeps | with_reducible apply postAlarm_keeps | with_reducible apply portsBack_keeps | with_reducible apply keeps_foldl | with_reducible apply keeps_foldr | (extract_lets +onlyGivenNames zx; (first | ((first | refine keeps_cut (x := zx) ?_ ?_ | refine outKeeps_cut (x := zx) ?_ ?_ | refine replyKeeps_cut (x := zx) ?_ ?_); (on_goal 2 => (intro zh; clear_value zx)); (on_goal 1 => (dsimp -zeta only [zx]))) | skip)) | split | dsimp -zeta only | with_reducible refine keeps_plain ?_)

theorem raiseHold_keeps {s0 s : State} (bit src : Nat) (h0 : Keeps s0 s) : Keeps s0 (raiseHold bit src s) := by
  unfold raiseHold
  repeat' (first | assumption | with_reducible apply keeps_foldl | with_reducible apply keeps_foldr | split | with_reducible refine keeps_plain ?_)

theorem releaseHold_keeps {s0 s : State}  (h0 : Keeps s0 s) : Keeps s0 (releaseHold s) := by
  unfold releaseHold
  repeat' (first | assumption | with_reducible apply keeps_foldl | with_reducible apply keeps_foldr | split | with_reducible refine keeps_plain ?_)

theorem clearCauses_keeps {s0 s : State} (m : Nat) (h0 : Keeps s0 s) : Keeps s0 (clearCauses m s) := by
  unfold clearCauses
  repeat' (first | assumption | with_reducible apply keeps_foldl | with_reducible apply keeps_foldr | split | with_reducible refine keeps_plain ?_)

theorem execHoldRaise_keeps {s0 s : State}  (h0 : Keeps s0 s) : OutKeeps s0 (execHoldRaise s) := by
  unfold execHoldRaise
  repeat' (first | assumption | with_reducible apply freeze_keeps | with_reducible apply keeps_foldl | with_reducible apply keeps_foldr | with_reducible apply outKeeps_next | split | with_reducible refine keeps_plain ?_)

theorem execHoldRelease_keeps {s0 s : State}  (h0 : Keeps s0 s) : OutKeeps s0 (execHoldRelease s) := by
  unfold execHoldRelease
  repeat' (first | assumption | with_reducible apply endWaiting_keeps | with_reducible apply thaw_keeps | with_reducible apply keeps_foldl | with_reducible apply keeps_foldr | with_reducible apply outKeeps_next | split | with_reducible refine keeps_plain ?_ | with_reducible refine keeps_mk ?_)

theorem execHoldCtrlRaise_keeps {s0 s : State}  (h0 : Keeps s0 s) : OutKeeps s0 (execHoldCtrlRaise s) := by
  unfold execHoldCtrlRaise
  repeat' (first | assumption | with_reducible apply raiseHold_keeps | with_reducible apply keeps_foldl | with_reducible apply keeps_foldr | with_reducible apply outKeeps_next)

theorem execHoldCtrlRelease_keeps {s0 s : State}  (h0 : Keeps s0 s) : OutKeeps s0 (execHoldCtrlRelease s) := by
  unfold execHoldCtrlRelease
  repeat' (first | assumption | with_reducible apply releaseHold_keeps | with_reducible apply keeps_foldl | with_reducible apply keeps_foldr | with_reducible apply outKeeps_next)

theorem execSluiceDead_keeps {s0 s : State} (x : Fin 384) (h0 : Keeps s0 s) : OutKeeps s0 (execSluiceDead x s) := by
  unfold execSluiceDead
  repeat' (first | assumption | with_reducible apply raiseHold_keeps | with_reducible apply setSluice_keeps | with_reducible apply modPwr_keeps | with_reducible apply recordFault_keeps | with_reducible apply keeps_foldl | with_reducible apply keeps_foldr | intro _ | (extract_lets +onlyGivenNames zx; (first | ((first | refine keeps_cut (x := zx) ?_ ?_ | refine outKeeps_cut (x := zx) ?_ ?_ | refine replyKeeps_cut (x := zx) ?_ ?_); (on_goal 2 => (intro zh; clear_value zx)); (on_goal 1 => (dsimp -zeta only [zx]))) | skip)) | split)

theorem leaveTide_keeps {s0 s : State} (p : Nat) (h0 : Keeps s0 s) : Keeps s0 (leaveTide p s) := by
  unfold leaveTide
  repeat' (first | assumption | with_reducible apply settlePend_keeps | with_reducible apply setNode_keeps | with_reducible apply setSluice_keeps | with_reducible apply keeps_foldl | with_reducible apply keeps_foldr | with_reducible apply outKeeps_next | with_reducible apply replyKeeps_done | with_reducible apply replyKeeps_later | with_reducible apply outKeeps_fault | intro _ | (extract_lets +onlyGivenNames zx; (first | ((first | refine keeps_cut (x := zx) ?_ ?_ | refine outKeeps_cut (x := zx) ?_ ?_ | refine replyKeeps_cut (x := zx) ?_ ?_); (on_goal 2 => (intro zh; clear_value zx)); (on_goal 1 => (dsimp -zeta only [zx]))) | skip)) | with_reducible apply keeps_ite | with_reducible apply outKeeps_ite | with_reducible apply replyKeeps_ite | split | dsimp -zeta only | with_reducible refine keeps_plain ?_)

theorem execPanTide_keeps {s0 s : State} (p : Fin 96) (h0 : Keeps s0 s) : OutKeeps s0 (execPanTide p s) := by
  unfold execPanTide
  repeat' (first | assumption | with_reducible apply leaveTide_keeps | with_reducible apply keeps_foldl | with_reducible apply keeps_foldr | with_reducible apply outKeeps_next)

theorem endForPan_keeps {s0 s : State} (p k : Nat) (h0 : Keeps s0 s) : Keeps s0 (endForPan p k s) := by
  unfold endForPan
  repeat' (first | assumption | with_reducible apply recordFault_keeps | with_reducible apply modPart_keeps | with_reducible apply endFaulted_keeps | with_reducible apply mapCtxs_keeps | with_reducible apply keeps_foldl | with_reducible apply keeps_foldr | split | with_reducible refine keeps_plain ?_)

theorem panLost_keeps {s0 s : State} (p : Nat) (h0 : Keeps s0 s) : Keeps s0 (panLost p s) := by
  unfold panLost
  repeat' (first | assumption | with_reducible apply mapCores_keeps | with_reducible apply keeps_foldl | with_reducible apply keeps_foldr | split | with_reducible refine keeps_plain ?_)

theorem allLost_keeps {s0 s : State}  (h0 : Keeps s0 s) : Keeps s0 (allLost s) := by
  unfold allLost
  repeat' (first | assumption | with_reducible apply mapCores_keeps | with_reducible apply keeps_foldl | with_reducible apply keeps_foldr | with_reducible apply outKeeps_next | with_reducible apply replyKeeps_done | with_reducible apply replyKeeps_later | with_reducible apply outKeeps_fault | intro _ | (extract_lets +onlyGivenNames zx; (first | ((first | refine keeps_cut (x := zx) ?_ ?_); (on_goal 2 => (intro zh; clear_value zx)); (on_goal 1 => (dsimp -zeta only [zx]))))) | with_reducible apply keeps_ite | with_reducible apply outKeeps_ite | with_reducible apply replyKeeps_ite | split | dsimp -zeta only | with_reducible refine keeps_plain ?_)

theorem unclearPan_keeps {s0 s : State} (p : Nat) (h0 : Keeps s0 s) : Keeps s0 (unclearPan p s) := by
  unfold unclearPan
  repeat' (first | assumption | with_reducible apply endForPan_keeps | with_reducible apply leaveTide_keeps | with_reducible apply suspect_keeps | with_reducible apply panLost_keeps | with_reducible apply modPwr_keeps | with_reducible apply keeps_foldl | with_reducible apply keeps_foldr | with_reducible apply outKeeps_next | with_reducible apply replyKeeps_done | with_reducible apply replyKeeps_later | with_reducible apply outKeeps_fault | intro _ | (extract_lets +onlyGivenNames zx; (first | ((first | refine keeps_cut (x := zx) ?_ ?_ | refine outKeeps_cut (x := zx) ?_ ?_ | refine replyKeeps_cut (x := zx) ?_ ?_); (on_goal 2 => (intro zh; clear_value zx)); (on_goal 1 => (dsimp -zeta only [zx]))) | skip)) | with_reducible apply keeps_ite)

theorem readback_keeps {s0 s : State} (t : Nat → Bool) (h0 : Keeps s0 s) : Keeps s0 (readback t s) := by
  unfold readback
  repeat' (first | assumption | with_reducible apply unclearPan_keeps | with_reducible apply keeps_foldl)

theorem postAll_keeps {s0 s : State} (ks : List Nat) (e : Event) (h0 : Keeps s0 s) : Keeps s0 (postAll ks e s) := by
  unfold postAll
  repeat' (first | assumption | with_reducible apply postTo_keeps | with_reducible apply keeps_foldl | with_reducible apply keeps_foldr | intro _)

theorem execPanPower_keeps {s0 s : State} (p : Fin 96) (h0 : Keeps s0 s) : OutKeeps s0 (execPanPower p s) := by
  unfold execPanPower
  repeat' (first | assumption | with_reducible apply raiseHold_keeps | with_reducible apply modPwr_keeps | with_reducible apply keeps_foldl | with_reducible apply keeps_foldr | with_reducible apply outKeeps_next | split)

theorem execBrkfail_keeps {s0 s : State} (p : Fin 96) (h0 : Keeps s0 s) : OutKeeps s0 (execBrkfail p s) := by
  unfold execBrkfail
  repeat' (first | assumption | with_reducible apply modPwr_keeps | with_reducible apply keeps_foldl | with_reducible apply keeps_foldr | with_reducible apply outKeeps_next | split)

theorem execBreakerOpen_keeps {s0 s : State} (p : Fin 96) (fuse : Bool) (h0 : Keeps s0 s) : OutKeeps s0 (execBreakerOpen p fuse s) := by
  unfold execBreakerOpen
  repeat' (first | assumption | with_reducible apply leaveTide_keeps | with_reducible apply setPwr_keeps | with_reducible apply endForPan_keeps | with_reducible apply panLost_keeps | with_reducible apply modPwr_keeps | with_reducible apply postAll_keeps | with_reducible apply pldm_keeps | with_reducible apply suspect_keeps | with_reducible apply clearCauses_keeps | with_reducible apply releaseHold_keeps | with_reducible apply keeps_foldl | with_reducible apply keeps_foldr | with_reducible apply outKeeps_next | with_reducible apply replyKeeps_done | with_reducible apply replyKeeps_later | with_reducible apply outKeeps_fault | intro _ | (extract_lets +onlyGivenNames zx; (first | ((first | refine keeps_cut (x := zx) ?_ ?_ | refine outKeeps_cut (x := zx) ?_ ?_ | refine replyKeeps_cut (x := zx) ?_ ?_); (on_goal 2 => (intro zh; clear_value zx)); (on_goal 1 => (dsimp -zeta only [zx]))) | skip)) | with_reducible apply keeps_ite)

theorem modTrip_keeps {s0 s : State} (h0 : Keeps s0 s) : Keeps s0 (modTrip s) := by
  unfold modTrip
  split
  · exact h0
  extract_lets w s1 s2 s3
  have h1 : Keeps s0 s1 := raiseHold_keeps _ _ (keeps_mk h0)
  clear_value s1
  have h2 : Keeps s0 s2 := keeps_foldl (fun u p hu => modPwr_keeps _ _ hu) h1
  clear_value s2
  have h3 : Keeps s0 s3 := keeps_foldl (fun u p hu => endForPan_keeps _ _ hu) h2
  clear_value s3
  exact pldm_keeps _ _ (postAlarm_keeps _ (allLost_keeps (endWaiting_keeps h3)))

theorem execModTrip_keeps {s0 s : State}  (h0 : Keeps s0 s) : OutKeeps s0 (execModTrip s) := by
  unfold execModTrip
  repeat' (first | assumption | with_reducible apply modTrip_keeps | with_reducible apply keeps_foldl | with_reducible apply keeps_foldr | with_reducible apply outKeeps_next)

theorem execPanTrip_keeps {s0 s : State} (p : Fin 96) (h0 : Keeps s0 s) : OutKeeps s0 (execPanTrip p s) := by
  unfold execPanTrip
  repeat' (first | assumption | with_reducible apply raiseHold_keeps | with_reducible apply modPwr_keeps | with_reducible apply modTrip_keeps | with_reducible apply keeps_foldl | with_reducible apply keeps_foldr | (extract_lets +onlyGivenNames zx; (first | ((first | refine keeps_cut (x := zx) ?_ ?_ | refine outKeeps_cut (x := zx) ?_ ?_ | refine replyKeeps_cut (x := zx) ?_ ?_); (on_goal 2 => (intro zh; clear_value zx)); (on_goal 1 => (dsimp -zeta only [zx]))) | skip)) | split | dsimp -zeta only | with_reducible refine keeps_plain ?_ | with_reducible refine keeps_mk ?_)

theorem heatOff_keeps {s0 s : State} (p : Nat) (h0 : Keeps s0 s) : Keeps s0 (heatOff p s) := by
  unfold heatOff
  repeat' (first | assumption | with_reducible apply raiseHold_keeps | with_reducible apply modPwr_keeps | with_reducible apply keeps_foldl | with_reducible apply keeps_foldr | with_reducible apply outKeeps_next | with_reducible apply replyKeeps_done | with_reducible apply replyKeeps_later | with_reducible apply outKeeps_fault | intro _ | (extract_lets +onlyGivenNames zx; (first | ((first | refine keeps_cut (x := zx) ?_ ?_ | refine outKeeps_cut (x := zx) ?_ ?_ | refine replyKeeps_cut (x := zx) ?_ ?_); (on_goal 2 => (intro zh; clear_value zx)); (on_goal 1 => (dsimp -zeta only [zx]))) | skip)) | with_reducible apply keeps_ite)

theorem execPanCtrlOff_keeps {s0 s : State} (p : Fin 96) (h0 : Keeps s0 s) : OutKeeps s0 (execPanCtrlOff p s) := by
  unfold execPanCtrlOff
  repeat' (first | assumption | with_reducible apply heatOff_keeps | with_reducible apply keeps_foldl | with_reducible apply keeps_foldr | with_reducible apply outKeeps_next)

theorem thermalEvent_keeps {s0 s : State} (p lvl : Nat) (h0 : Keeps s0 s) : Keeps s0 (thermalEvent p lvl s) := by
  unfold thermalEvent
  repeat' (first | assumption | with_reducible apply say_keeps)

theorem execThermalSample_keeps {s0 s : State} (temps : List Byte) (inA inB outA outB : Byte) (h0 : Keeps s0 s) : OutKeeps s0 (execThermalSample temps inA inB outA outB s) := by
  unfold execThermalSample
  repeat' (first | assumption | with_reducible apply setPwr_keeps | with_reducible apply thermalEvent_keeps | with_reducible apply postAlarm_keeps | with_reducible apply heatOff_keeps | with_reducible apply keeps_foldl | with_reducible apply keeps_foldr | with_reducible apply outKeeps_next | with_reducible apply replyKeeps_done | with_reducible apply replyKeeps_later | with_reducible apply outKeeps_fault | intro _ | (extract_lets +onlyGivenNames zx; (first | ((first | refine keeps_cut (x := zx) ?_ ?_ | refine outKeeps_cut (x := zx) ?_ ?_ | refine replyKeeps_cut (x := zx) ?_ ?_); (on_goal 2 => (intro zh; clear_value zx)); (on_goal 1 => (dsimp -zeta only [zx]))) | skip)) | with_reducible apply keeps_ite | with_reducible apply outKeeps_ite | with_reducible apply replyKeeps_ite | split | dsimp -zeta only | with_reducible refine keeps_plain ?_ | with_reducible refine keeps_mk ?_)

theorem execThermStep_keeps {s0 s : State}  (h0 : Keeps s0 s) : OutKeeps s0 (execThermStep s) := by
  unfold execThermStep
  repeat' (first | assumption | with_reducible apply keeps_foldl | with_reducible apply keeps_foldr | with_reducible apply outKeeps_next | split | with_reducible refine keeps_plain ?_ | with_reducible refine keeps_mk ?_)

theorem setRails_keeps {s0 s : State} (k : Nat) (h0 : Keeps s0 s) : Keeps s0 (setRails k s) := by
  unfold setRails
  repeat' (first | assumption | with_reducible apply modPwr_keeps | with_reducible apply keeps_foldl | with_reducible apply keeps_foldr | intro _)

theorem seekRate_keeps {s0 s : State}  (h0 : Keeps s0 s) : Keeps s0 (seekRate s) := by
  unfold seekRate
  repeat' (first | assumption | with_reducible apply setRails_keeps | with_reducible apply deliverRate_keeps | with_reducible apply keeps_foldl | with_reducible apply keeps_foldr | split | with_reducible refine keeps_plain ?_ | with_reducible refine keeps_mk ?_)

theorem execRailSettled_keeps {s0 s : State}  (h0 : Keeps s0 s) : OutKeeps s0 (execRailSettled s) := by
  unfold execRailSettled
  repeat' (first | assumption | with_reducible apply deliverRate_keeps | with_reducible apply keeps_foldl | with_reducible apply keeps_foldr | with_reducible apply outKeeps_next | split | with_reducible refine keeps_plain ?_ | with_reducible refine keeps_mk ?_)

theorem execRailLower_keeps {s0 s : State}  (h0 : Keeps s0 s) : OutKeeps s0 (execRailLower s) := by
  unfold execRailLower
  repeat' (first | assumption | with_reducible apply setRails_keeps | with_reducible apply keeps_foldl | with_reducible apply keeps_foldr | with_reducible apply outKeeps_next | split | with_reducible refine keeps_plain ?_ | with_reducible refine keeps_mk ?_)

theorem parkNow_keeps {s0 s : State}  (h0 : Keeps s0 s) : Keeps s0 (parkNow s) := by
  unfold parkNow
  repeat' (first | assumption | with_reducible apply freeze_keeps | with_reducible apply modPart_keeps | with_reducible apply raiseHold_keeps | with_reducible apply modPwr_keeps | with_reducible apply pldm_keeps | with_reducible apply keeps_foldl | with_reducible apply keeps_foldr | intro _ | split | with_reducible refine keeps_plain ?_ | with_reducible refine keeps_mk ?_)

theorem wakeIfClear_keeps {s0 s : State} (h0 : Keeps s0 s) : Keeps s0 (wakeIfClear s) := by
  unfold wakeIfClear
  extract_lets w s1
  split
  · have h1 : Keeps s0 s1 := setRails_keeps _ (keeps_mk h0)
    clear_value s1
    exact pldm_keeps _ _ (keeps_mk h1)
  · exact h0

theorem park_keeps {s0 s : State} (oper : Bool) (h0 : Keeps s0 s) : Keeps s0 (park oper s) := by
  unfold park
  repeat' (first | assumption | with_reducible apply parkNow_keeps | with_reducible apply keeps_foldl | with_reducible apply keeps_foldr | split | with_reducible refine keeps_plain ?_ | with_reducible refine keeps_mk ?_)

theorem execParkWakeDone_keeps {s0 s : State} (h0 : Keeps s0 s) : OutKeeps s0 (execParkWakeDone s) := by
  unfold execParkWakeDone
  refine outKeeps_next ?_
  split
  · extract_lets w s1
    have h1 : Keeps s0 s1 := releaseHold_keeps (clearCauses_keeps _ (keeps_mk h0))
    clear_value s1
    refine pldm_keeps _ _ (keeps_foldl (fun u k hu => ?_) h1)
    dsimp only
    refine keeps_ite (keeps_ite (modPart_keeps _ _ hu) (thaw_keeps _ (modPart_keeps _ _ hu))) hu
  · exact h0

theorem tickPans_keeps {s0 s : State} (rails : List (Nat × Nat)) (h0 : Keeps s0 s) : Keeps s0 (tickPans rails s) := by
  unfold tickPans
  repeat' (first | assumption | with_reducible apply setPwr_keeps | with_reducible apply keeps_foldl | with_reducible apply keeps_foldr | intro _ | split | with_reducible refine keeps_plain ?_ | with_reducible refine keeps_mk ?_)

theorem execPowerTick_keeps {s0 s : State} (volt amp : BitVec 16) (rim : Nat) (rails : List (Nat × Nat)) (h0 : Keeps s0 s) :
    OutKeeps s0 (execPowerTick volt amp rim rails s) := by
  have h1 : Keeps s0 (tickPans rails s) := tickPans_keeps _ h0
  have h2 : ∀ u, Keeps s0 u → ∀ (c d : Bool), Keeps s0 (if d then wakeIfClear { (if c then park false u else u) with
      power := { (if c then park false u else u).power with capPark := false } } else (if c then park false u else u)) := by
    intro u hu c d
    have h3 : Keeps s0 (if c then park false u else u) := keeps_ite (park_keeps _ hu) hu
    exact keeps_ite (wakeIfClear_keeps (keeps_mk h3)) h3
  unfold execPowerTick
  generalize tickPans rails s = s1 at h1 ⊢
  exact seekRate_keeps (h2 _ (keeps_mk h1) _ _)

theorem modMeter_keeps {s0 s : State} (k : Nat) (f : Meter → Meter) (h0 : Keeps s0 s) : Keeps s0 (modMeter s k f) := by
  unfold modMeter
  repeat' (first | assumption | with_reducible apply keeps_foldl | with_reducible apply keeps_foldr | split | with_reducible refine keeps_plain ?_ | with_reducible refine keeps_mk ?_)

theorem chargePan_keeps {s0 s : State} (meas : List Nat) (p : Nat) (h0 : Keeps s0 s) : Keeps s0 (chargePan meas s p) := by
  unfold chargePan
  repeat' (first | assumption | with_reducible apply modMeter_keeps | with_reducible apply setPwr_keeps | with_reducible apply watch_keeps | with_reducible apply keeps_foldl | with_reducible apply keeps_foldr | intro _ | with_reducible apply keeps_ite)

theorem execEnergyInterval_keeps {s0 s : State} (rim : Nat) (pans : List Nat) (h0 : Keeps s0 s) : OutKeeps s0 (execEnergyInterval rim pans s) := by
  unfold execEnergyInterval
  repeat' (first | assumption | with_reducible apply chargePan_keeps | with_reducible apply modMeter_keeps | with_reducible apply keeps_foldl | with_reducible apply keeps_foldr | intro _ | (extract_lets +onlyGivenNames zx; (first | ((first | refine keeps_cut (x := zx) ?_ ?_); (on_goal 2 => (intro zh; clear_value zx)); (on_goal 1 => (dsimp -zeta only [zx]))) | skip)) | split)

theorem execEnergyWindowEnd_keeps {s0 s : State} (k : Fin 32) (h0 : Keeps s0 s) : OutKeeps s0 (execEnergyWindowEnd k s) := by
  unfold execEnergyWindowEnd
  repeat' (first | assumption | with_reducible apply modMeter_keeps | with_reducible apply keeps_foldl | with_reducible apply keeps_foldr | with_reducible apply outKeeps_next | split)

theorem moduleReset_keeps {s0 s : State} (h0 : Keeps s0 s) : Keeps s0 (moduleReset s) := by
  refine ⟨h0.fuse, h0.pending, fun _ => ?_⟩
  have h : State.reset.tablesWf = true := by decide
  have q := (tablesWf_iff _).1 h
  exact { cores := q.cores, nodes := q.nodes, sluices := q.sluices, routers := q.routers, edges := q.edges, pans := q.pans, stations := q.stations, parts := q.parts, bars := q.bars, engs := q.engs, ports := q.ports, pwr := q.pwr, meters := q.meters, qps := q.qps, count := q.count, pmem := q.pmem }

theorem execEntryOutOfRange_keeps {s0 s : State}  (h0 : Keeps s0 s) : OutKeeps s0 (execEntryOutOfRange s) := by
  unfold execEntryOutOfRange
  repeat' (first | assumption | with_reducible apply moduleReset_keeps | with_reducible apply keeps_foldl | with_reducible apply keeps_foldr | with_reducible apply outKeeps_next)

theorem execEntryCurrentLimit_keeps {s0 s : State}  (h0 : Keeps s0 s) : OutKeeps s0 (execEntryCurrentLimit s) := by
  unfold execEntryCurrentLimit
  repeat' (first | assumption | with_reducible apply moduleReset_keeps | with_reducible apply keeps_foldl | with_reducible apply keeps_foldr | with_reducible apply outKeeps_next)

theorem execRideThrough_keeps {s0 s : State} (volt : BitVec 16) (h0 : Keeps s0 s) : OutKeeps s0 (execRideThrough volt s) := by
  unfold execRideThrough
  repeat' (first | assumption | with_reducible apply moduleReset_keeps | with_reducible apply keeps_foldl | with_reducible apply keeps_foldr | with_reducible apply outKeeps_next | split | with_reducible refine keeps_plain ?_ | with_reducible refine keeps_mk ?_)

theorem setCap_keeps {s0 s : State} (target ramp guard : Nat) (h0 : Keeps s0 s) : Keeps s0 (setCap target ramp guard s) := by
  unfold setCap
  repeat' (first | assumption | with_reducible apply keeps_foldl | with_reducible apply keeps_foldr | split | with_reducible refine keeps_plain ?_ | with_reducible refine keeps_mk ?_)

theorem logCap_keeps {s0 s : State} (src target ramp guard : Nat) (h0 : Keeps s0 s) : Keeps s0 (logCap src target ramp guard s) := by
  unfold logCap
  repeat' (first | assumption | with_reducible apply keeps_foldl | with_reducible apply keeps_foldr | split | with_reducible refine keeps_plain ?_ | with_reducible refine keeps_mk ?_)

theorem applyCap_keeps {s0 s : State} (src target ramp guard : Nat) (h0 : Keeps s0 s) : Keeps s0 (applyCap src target ramp guard s) := by
  unfold applyCap
  repeat' (first | assumption | with_reducible apply setCap_keeps | with_reducible apply logCap_keeps)

theorem execPowerCapStart_keeps {s0 s : State}  (h0 : Keeps s0 s) : OutKeeps s0 (execPowerCapStart s) := by
  unfold execPowerCapStart
  repeat' (first | assumption | with_reducible apply setCap_keeps | with_reducible apply keeps_foldl | with_reducible apply keeps_foldr | with_reducible apply outKeeps_next | split)

theorem pldmWrite_keeps {s0 s : State} (n : Fin 49) (ok : Bool) (f : State → State) (h0 : Keeps s0 s)
    (hf : ∀ t, Keeps s0 t → Keeps s0 (f t)) : OutKeeps s0 (pldmWrite n ok f s) := by
  unfold pldmWrite
  exact outKeeps_next (keeps_ite (say_keeps _ _ h0) (keeps_ite (say_keeps _ _ (hf _ h0)) (say_keeps _ _ h0)))

theorem execPldmCapTarget_keeps {s0 s : State} (n : Fin 49) (v : Word) (h0 : Keeps s0 s) : OutKeeps s0 (execPldmCapTarget n v s) := by
  unfold execPldmCapTarget
  repeat' (first | assumption | with_reducible apply pldmWrite_keeps | with_reducible apply applyCap_keeps | with_reducible apply keeps_foldl | with_reducible apply keeps_foldr | intro _)

theorem execPldmRamp_keeps {s0 s : State} (n : Fin 49) (v : Word) (h0 : Keeps s0 s) : OutKeeps s0 (execPldmRamp n v s) := by
  unfold execPldmRamp
  repeat' (first | assumption | with_reducible apply pldmWrite_keeps | with_reducible apply applyCap_keeps | with_reducible apply keeps_foldl | with_reducible apply keeps_foldr | intro _)

theorem execPldmPark_keeps {s0 s : State} (n : Fin 49) (h0 : Keeps s0 s) : OutKeeps s0 (execPldmPark n s) := by
  unfold execPldmPark
  repeat' (first | assumption | with_reducible apply pldmWrite_keeps | with_reducible apply park_keeps | with_reducible apply keeps_foldl | with_reducible apply keeps_foldr | intro _)

theorem execPldmUnpark_keeps {s0 s : State} (n : Fin 49) (h0 : Keeps s0 s) : OutKeeps s0 (execPldmUnpark n s) := by
  unfold execPldmUnpark
  repeat' (first | assumption | with_reducible apply pldmWrite_keeps | with_reducible apply wakeIfClear_keeps | with_reducible apply keeps_foldl | with_reducible apply keeps_foldr | intro _ | split | with_reducible refine keeps_plain ?_ | with_reducible refine keeps_mk ?_)

theorem takeNorth_keeps {s0 s t : State} {kind : MsgBody → Bool} {m : Msg} (he : takeNorth kind s = some (m, t))
    (h : Keeps s0 s) : Keeps s0 t := by
  unfold takeNorth at he
  split at he
  · obtain ⟨rfl, rfl⟩ := he
    exact keeps_mk h
  · cases he

theorem takeInbox_keeps {s0 s t : State} {p : Nat} {kind : MsgBody → Bool} {m : Msg} (he : takeInbox p kind s = some (m, t))
    (h : Keeps s0 s) : Keeps s0 t := by
  unfold takeInbox at he
  split at he
  · obtain ⟨rfl, rfl⟩ := he
    exact modColl_keeps _ _ h
  · cases he

theorem takeStore_keeps {s0 s t : State} {n : Nat} {c : Ctrl} (he : takeStore n s = some (c, t))
    (h : Keeps s0 s) : Keeps s0 t := by
  unfold takeStore at he
  split at he
  · obtain ⟨rfl, rfl⟩ := he
    exact keeps_mk h
  · cases he

theorem sendNorth_keeps {s0 s : State} (p : Nat) (m : Msg) (h0 : Keeps s0 s) : Keeps s0 (sendNorth s p m) := by
  unfold sendNorth
  repeat' (first | assumption | with_reducible apply modRouter_keeps)

theorem staleAt_keeps {s0 s : State} (m : Msg) (h0 : Keeps s0 s) : Keeps s0 (staleAt m s) := by
  unfold staleAt
  repeat' (first | assumption | with_reducible apply modRouter_keeps)

theorem execFaultMessage_keeps {s0 s : State}  (h0 : Keeps s0 s) : OutKeeps s0 (execFaultMessage s) := by
  unfold execFaultMessage
  repeat' (first | assumption | (with_reducible apply takeNorth_keeps; assumption) | with_reducible apply countUe_keeps | with_reducible apply recordFault_keeps | with_reducible apply staleAt_keeps | with_reducible apply outKeeps_next | split)

theorem execGuard_keeps {s0 s : State} (p : Fin 96) (h0 : Keeps s0 s) : OutKeeps s0 (execGuard p s) := by
  unfold execGuard
  repeat' (first | assumption | (with_reducible apply takeInbox_keeps; assumption) | with_reducible apply staleAt_keeps | with_reducible apply sendNorth_keeps | with_reducible apply modColl_keeps | with_reducible apply outKeeps_next | with_reducible apply keeps_ite | split)

theorem decideGuard_keeps {s0 s : State} (k : Nat) (h0 : Keeps s0 s) : Keeps s0 (decideGuard k s) := by
  unfold decideGuard
  repeat' (first | assumption | with_reducible apply broadcast_keeps | with_reducible apply modPart_keeps | split | with_reducible refine keeps_plain ?_)

theorem closeOwn_keeps {s0 s : State} (k : Nat) (ovf : Bool) (h0 : Keeps s0 s) : Keeps s0 (closeOwn k ovf s) := by
  unfold closeOwn
  repeat' (first | assumption | with_reducible apply modPart_keeps | with_reducible apply sendCtrl_keeps)

theorem emptyOwn_keeps {s0 s : State} (k : Nat) (h0 : Keeps s0 s) : Keeps s0 (emptyOwn k s) := by
  unfold emptyOwn
  repeat' (first | assumption | with_reducible apply decideGuard_keeps | with_reducible apply closeOwn_keeps | with_reducible apply keeps_foldl | with_reducible apply keeps_foldr | with_reducible apply outKeeps_next | with_reducible apply replyKeeps_done | with_reducible apply replyKeeps_later | with_reducible apply outKeeps_fault | intro _ | (extract_lets +onlyGivenNames zx; (first | ((first | refine keeps_cut (x := zx) ?_ ?_ | refine outKeeps_cut (x := zx) ?_ ?_ | refine replyKeeps_cut (x := zx) ?_ ?_); (on_goal 2 => (intro zh; clear_value zx)); (on_goal 1 => (dsimp -zeta only [zx]))) | skip)) | with_reducible apply keeps_ite)

theorem execGuardPanReceive_keeps {s0 s : State}  (h0 : Keeps s0 s) : OutKeeps s0 (execGuardPanReceive s) := by
  unfold execGuardPanReceive
  repeat' (first | assumption | (with_reducible apply takeNorth_keeps; assumption) | with_reducible apply staleAt_keeps | with_reducible apply modPart_keeps | with_reducible apply decideGuard_keeps | with_reducible apply closeOwn_keeps | with_reducible apply keeps_foldl | with_reducible apply keeps_foldr | with_reducible apply outKeeps_next | with_reducible apply replyKeeps_done | with_reducible apply replyKeeps_later | with_reducible apply outKeeps_fault | intro _ | (extract_lets +onlyGivenNames zx; (first | ((first | refine keeps_cut (x := zx) ?_ ?_ | refine outKeeps_cut (x := zx) ?_ ?_ | refine replyKeeps_cut (x := zx) ?_ ?_); (on_goal 2 => (intro zh; clear_value zx)); (on_goal 1 => (dsimp -zeta only [zx]))) | skip)) | with_reducible apply keeps_ite | with_reducible apply outKeeps_ite | with_reducible apply replyKeeps_ite | split)

theorem execGuardWd_keeps {s0 s : State} (p : Fin 97) (h0 : Keeps s0 s) : OutKeeps s0 (execGuardWd p s) := by
  unfold execGuardWd
  repeat' (first | assumption | (with_reducible apply takeInbox_keeps; assumption) | with_reducible apply staleAt_keeps | with_reducible apply sendNorth_keeps | with_reducible apply modColl_keeps | (with_reducible apply takeNorth_keeps; assumption) | with_reducible apply modPart_keeps | with_reducible apply outKeeps_next | split)

theorem execGuardTimeout_keeps {s0 s : State} (k : Fin 32) (h0 : Keeps s0 s) : OutKeeps s0 (execGuardTimeout k s) := by
  unfold execGuardTimeout
  repeat' (first | assumption | with_reducible apply recordFault_keeps | with_reducible apply outKeeps_next | split)

theorem setBar_keeps {s0 s : State} (i : Nat) (b : Option BarObj) (h0 : Keeps s0 s) : Keeps s0 (setBar s i b) := by
  unfold setBar
  repeat' (first | assumption | split | with_reducible refine keeps_plain ?_ | with_reducible refine keeps_mk ?_)

theorem execBarArr_keeps {s0 s : State} (p : Fin 96) (h0 : Keeps s0 s) : OutKeeps s0 (execBarArr p s) := by
  unfold execBarArr
  refine outKeeps_next ?_
  split
  · exact h0
  rename_i m s1 he
  have h1 : Keeps s0 s1 := takeInbox_keeps he h0
  clear he
  split
  · exact staleAt_keeps _ h1
  split
  · split
    · exact syncFault_keeps _ _ _ _ _ h1
    · extract_lets ok s2 a bad a' put
      have h2 : Keeps s0 s2 := keeps_ite (syncFault_keeps _ _ _ _ _ h1) h1
      have hput : ∀ x, Keeps s0 (put x) := fun x => modColl_keeps _ _ h2
      clear_value put bad s2
      split
      · exact syncFault_keeps _ _ _ _ _ h2
      · split
        · exact sendNorth_keeps _ _ (hput _)
        · exact hput _
  · exact h1

theorem stopReads_keeps {s0 s : State} (k : Nat) (h0 : Keeps s0 s) : Keeps s0 (stopReads k s) := by
  unfold stopReads
  repeat' (first | assumption | split | with_reducible refine keeps_plain ?_ | with_reducible refine keeps_mk ?_)

theorem startDrain_keeps {s0 s : State} (k : Nat) (h0 : Keeps s0 s) : Keeps s0 (startDrain k s) := by
  unfold startDrain
  repeat' (first | assumption | with_reducible apply modPart_keeps)

theorem beginEnd_keeps {s0 s : State} (k : Nat) (h0 : Keeps s0 s) : Keeps s0 (beginEnd k s) := by
  unfold beginEnd
  repeat' (first | assumption | with_reducible apply startDrain_keeps | with_reducible apply stopReads_keeps | with_reducible apply modPart_keeps | with_reducible apply keeps_foldl | with_reducible apply keeps_foldr | with_reducible apply outKeeps_next | with_reducible apply replyKeeps_done | with_reducible apply replyKeeps_later | with_reducible apply outKeeps_fault | intro _ | (extract_lets +onlyGivenNames zx; (first | ((first | refine keeps_cut (x := zx) ?_ ?_ | refine outKeeps_cut (x := zx) ?_ ?_ | refine replyKeeps_cut (x := zx) ?_ ?_); (on_goal 2 => (intro zh; clear_value zx)); (on_goal 1 => (dsimp -zeta only [zx]))) | skip)) | with_reducible apply keeps_ite | with_reducible apply outKeeps_ite | with_reducible apply replyKeeps_ite | split)

theorem releaseBar_keeps {s0 s : State} (i : Nat) (b : BarObj) (h0 : Keeps s0 s) : Keeps s0 (releaseBar i b s) := by
  unfold releaseBar
  repeat' (first | assumption | with_reducible apply setBar_keeps | with_reducible apply broadcast_keeps | with_reducible apply beginEnd_keeps | split | with_reducible refine keeps_plain ?_)

theorem homeDone_keeps {s0 s : State} (i : Nat) (b : BarObj) (h0 : Keeps s0 s) : Keeps s0 (homeDone i b s) := by
  unfold homeDone
  repeat' (first | assumption | with_reducible apply sendCtrl_keeps | with_reducible apply releaseBar_keeps | with_reducible apply setBar_keeps | split)

theorem execBarPanReceive_keeps {s0 s : State}  (h0 : Keeps s0 s) : OutKeeps s0 (execBarPanReceive s) := by
  unfold execBarPanReceive
  repeat' (first | assumption | (with_reducible apply takeNorth_keeps; assumption) | with_reducible apply staleAt_keeps | with_reducible apply syncFault_keeps | with_reducible apply setBar_keeps | with_reducible apply releaseBar_keeps | with_reducible apply homeDone_keeps | with_reducible apply sendCtrl_keeps | with_reducible apply keeps_foldl | with_reducible apply keeps_foldr | with_reducible apply outKeeps_next | with_reducible apply replyKeeps_done | with_reducible apply replyKeeps_later | with_reducible apply outKeeps_fault | intro _ | (extract_lets +onlyGivenNames zx; (first | ((first | refine keeps_cut (x := zx) ?_ ?_ | refine outKeeps_cut (x := zx) ?_ ?_ | refine replyKeeps_cut (x := zx) ?_ ?_); (on_goal 2 => (intro zh; clear_value zx)); (on_goal 1 => (dsimp -zeta only [zx]))) | skip)) | with_reducible apply keeps_ite | with_reducible apply outKeeps_ite | with_reducible apply replyKeeps_ite | split)

theorem execGuardBit_keeps {s0 s : State}  (h0 : Keeps s0 s) : OutKeeps s0 (execGuardBit s) := by
  unfold execGuardBit
  repeat' (first | assumption | (with_reducible apply takeStore_keeps; assumption) | with_reducible apply modPart_keeps | with_reducible apply emptyOwn_keeps | with_reducible apply decideGuard_keeps | with_reducible apply keeps_foldl | with_reducible apply keeps_foldr | with_reducible apply outKeeps_next | with_reducible apply replyKeeps_done | with_reducible apply replyKeeps_later | with_reducible apply outKeeps_fault | intro _ | (extract_lets +onlyGivenNames zx; (first | ((first | refine keeps_cut (x := zx) ?_ ?_ | refine outKeeps_cut (x := zx) ?_ ?_ | refine replyKeeps_cut (x := zx) ?_ ?_); (on_goal 2 => (intro zh; clear_value zx)); (on_goal 1 => (dsimp -zeta only [zx]))) | skip)) | with_reducible apply keeps_ite | with_reducible apply outKeeps_ite | with_reducible apply replyKeeps_ite | split)

theorem execBarDone_keeps {s0 s : State}  (h0 : Keeps s0 s) : OutKeeps s0 (execBarDone s) := by
  unfold execBarDone
  repeat' (first | assumption | (with_reducible apply takeStore_keeps; assumption) | with_reducible apply homeDone_keeps | with_reducible apply outKeeps_next | split)

theorem execBarRelCtrl_keeps {s0 s : State}  (h0 : Keeps s0 s) : OutKeeps s0 (execBarRelCtrl s) := by
  unfold execBarRelCtrl
  repeat' (first | assumption | (with_reducible apply takeStore_keeps; assumption) | with_reducible apply releaseBar_keeps | with_reducible apply outKeeps_next | split)

theorem execJobEndCtrl_keeps {s0 s : State}  (h0 : Keeps s0 s) : OutKeeps s0 (execJobEndCtrl s) := by
  unfold execJobEndCtrl
  repeat' (first | assumption | (with_reducible apply takeStore_keeps; assumption) | with_reducible apply recordWith_keeps | with_reducible apply outKeeps_next | split)

theorem hostHold_keeps {s0 s : State} (k : Nat) (h0 : Keeps s0 s) : Keeps s0 (hostHold k s) := by
  unfold hostHold
  repeat' (first | assumption | with_reducible apply freeze_keeps | with_reducible apply modPart_keeps | split)

theorem expelHold_keeps {s0 s : State} (k mask n : Nat) (h0 : Keeps s0 s) : Keeps s0 (expelHold k mask n s) := by
  unfold expelHold
  repeat' (first | assumption | with_reducible apply hostHold_keeps | with_reducible apply postJob_keeps | split)

theorem decideDigest_keeps {s0 s : State} (k n : Nat) (d : DigestDecl) (h0 : Keeps s0 s) : Keeps s0 (decideDigest k n d s) := by
  unfold decideDigest
  repeat' (first | assumption | with_reducible apply modPart_keeps | with_reducible apply recordWith_keeps | with_reducible apply suspect_keeps | with_reducible apply expelHold_keeps | with_reducible apply sendCtrl_keeps | split | with_reducible refine keeps_plain ?_)

theorem execStreamDigestForm_keeps {s0 s : State} (k : Fin 32) (h0 : Keeps s0 s) : OutKeeps s0 (execStreamDigestForm k s) := by
  unfold execStreamDigestForm
  repeat' (first | assumption | with_reducible apply modPart_keeps | with_reducible apply recordFault_keeps | with_reducible apply decideDigest_keeps | with_reducible apply sendCtrl_keeps | (extract_lets +onlyGivenNames zx; (first | ((first | refine keeps_cut (x := zx) ?_ ?_ | refine outKeeps_cut (x := zx) ?_ ?_ | refine replyKeeps_cut (x := zx) ?_ ?_); (on_goal 2 => (intro zh; clear_value zx)); (on_goal 1 => (dsimp -zeta only [zx]))) | skip)) | split)

theorem execDigestCtrl_keeps {s0 s : State}  (h0 : Keeps s0 s) : OutKeeps s0 (execDigestCtrl s) := by
  unfold execDigestCtrl
  repeat' (first | assumption | (with_reducible apply takeStore_keeps; assumption) | with_reducible apply expelHold_keeps | with_reducible apply decideDigest_keeps | with_reducible apply modPart_keeps | with_reducible apply outKeeps_next | split | with_reducible refine keeps_plain ?_)

theorem startCores_keeps {s0 s : State} (k : Nat) (h0 : Keeps s0 s) : Keeps s0 (startCores k s) := by
  unfold startCores
  repeat' (first | assumption | with_reducible apply mapCores_keeps)

theorem execCoreStartRun_keeps {s0 s : State} (k : Fin 32) (h0 : Keeps s0 s) : OutKeeps s0 (execCoreStartRun k s) := by
  unfold execCoreStartRun
  repeat' (first | assumption | with_reducible apply startCores_keeps | with_reducible apply completeLong_keeps | with_reducible apply modPart_keeps | (extract_lets +onlyGivenNames zx; (first | ((first | refine keeps_cut (x := zx) ?_ ?_); (on_goal 2 => (intro zh; clear_value zx)); (on_goal 1 => (dsimp -zeta only [zx]))))) | split)

theorem setPort_keeps {s0 s : State} (p : Nat) (x : Port) (h0 : Keeps s0 s) : Keeps s0 (setPort s p x) := by
  unfold setPort
  repeat' (first | assumption | with_reducible apply keeps_foldl | with_reducible apply replyKeeps_done | with_reducible apply replyKeeps_later | with_reducible apply keeps_ite | split | with_reducible refine keeps_plain ?_ | with_reducible refine keeps_mk ?_)

theorem setChan_keeps {s0 s : State} (i : Nat) (c : Option Chan) (h0 : Keeps s0 s) : Keeps s0 (setChan s i c) := by
  unfold setChan
  repeat' (first | assumption | with_reducible apply keeps_foldl | with_reducible apply replyKeeps_done | with_reducible apply replyKeeps_later | with_reducible apply keeps_ite | split | with_reducible refine keeps_plain ?_ | with_reducible refine keeps_mk ?_)

theorem setEp_keeps {s0 s : State} (e : Nat) (x : Endpoint) (h0 : Keeps s0 s) : Keeps s0 (setEp s e x) := by
  unfold setEp
  repeat' (first | assumption | with_reducible apply keeps_foldl | with_reducible apply replyKeeps_done | with_reducible apply replyKeeps_later | with_reducible apply keeps_ite | split | with_reducible refine keeps_plain ?_ | with_reducible refine keeps_mk ?_)

theorem bump_keeps {s0 s : State} (i : Fin 9) (h0 : Keeps s0 s) : Keeps s0 (bump i s) := by
  unfold bump
  repeat' (first | assumption | with_reducible apply keeps_foldl | with_reducible apply replyKeeps_done | with_reducible apply replyKeeps_later | with_reducible apply keeps_ite | split | with_reducible refine keeps_plain ?_ | with_reducible refine keeps_mk ?_)

theorem sendPkt_keeps {s0 s : State} (ep : Nat) (p : Packet) (h0 : Keeps s0 s) : Keeps s0 (sendPkt ep p s) := by
  unfold sendPkt
  repeat' (first | assumption | with_reducible apply setEp_keeps | with_reducible apply keeps_foldl | with_reducible apply replyKeeps_done | with_reducible apply replyKeeps_later | with_reducible apply keeps_ite)

theorem notice_keeps {s0 s : State} (kind port : Nat) (p : Packet) (h0 : Keeps s0 s) : Keeps s0 (notice kind port p s) := by
  unfold notice
  repeat' (first | assumption | with_reducible apply sendPkt_keeps)

theorem noticeAll_keeps {s0 s : State} (kind p : Nat) (ps : List Packet) (h0 : Keeps s0 s) : Keeps s0 (noticeAll kind p ps s) := by
  unfold noticeAll
  refine keeps_foldl1 (fun b x hb => ?_) (a := (s, [])) h0
  split
  · exact hb
  · exact notice_keeps _ _ _ hb

theorem naked_keeps {s0 s : State} (p : Nat) (h0 : Keeps s0 s) : Keeps s0 (naked p s) := by
  unfold naked
  repeat' (first | assumption | with_reducible apply watch_keeps | with_reducible apply noticeAll_keeps | with_reducible apply setPort_keeps | with_reducible apply keeps_foldl | with_reducible apply replyKeeps_done | with_reducible apply replyKeeps_later | with_reducible apply keeps_ite)

theorem recovered_keeps {s0 s : State} (p : Nat) (h0 : Keeps s0 s) : Keeps s0 (recovered p s) := by
  unfold recovered
  repeat' (first | assumption | with_reducible apply setPort_keeps | with_reducible apply notice_keeps | with_reducible apply keeps_foldl | with_reducible apply replyKeeps_done | with_reducible apply replyKeeps_later | intro _ | with_reducible apply keeps_ite | split | with_reducible refine keeps_plain ?_)

theorem execLinkBlockReceive_keeps {s0 s : State} (p : Fin 48) (block : LinkBlock) (h0 : Keeps s0 s) : OutKeeps s0 (execLinkBlockReceive p block s) := by
  unfold execLinkBlockReceive
  repeat' (first | assumption | with_reducible apply setPort_keeps | with_reducible apply recovered_keeps | with_reducible apply naked_keeps | with_reducible apply keeps_foldl | with_reducible apply keeps_foldr | with_reducible apply outKeeps_next | with_reducible apply replyKeeps_done | with_reducible apply replyKeeps_later | with_reducible apply outKeeps_fault | intro _ | (extract_lets +onlyGivenNames zx; (first | ((first | refine keeps_cut (x := zx) ?_ ?_ | refine outKeeps_cut (x := zx) ?_ ?_ | refine replyKeeps_cut (x := zx) ?_ ?_); (on_goal 2 => (intro zh; clear_value zx)); (on_goal 1 => (dsimp -zeta only [zx]))) | skip)) | with_reducible apply keeps_ite)

theorem execPortTrained_keeps {s0 s : State} (p : Fin 48) (link : Training) (h0 : Keeps s0 s) : OutKeeps s0 (execPortTrained p link s) := by
  unfold execPortTrained
  repeat' (first | assumption | with_reducible apply fixRefDown_keeps | with_reducible apply setPort_keeps | with_reducible apply keeps_foldl | with_reducible apply keeps_foldr | with_reducible apply outKeeps_next | with_reducible apply replyKeeps_done | with_reducible apply replyKeeps_later | with_reducible apply outKeeps_fault | intro _ | (extract_lets +onlyGivenNames zx; (first | ((first | refine keeps_cut (x := zx) ?_ ?_ | refine outKeeps_cut (x := zx) ?_ ?_ | refine replyKeeps_cut (x := zx) ?_ ?_); (on_goal 2 => (intro zh; clear_value zx)); (on_goal 1 => (dsimp -zeta only [zx]))) | skip)) | with_reducible apply keeps_ite)

theorem losePort_keeps {s0 s : State} (p : Nat) (h0 : Keeps s0 s) : Keeps s0 (losePort p s) := by
  unfold losePort
  repeat' (first | assumption | with_reducible apply notice_keeps | with_reducible apply keeps_foldl | with_reducible apply replyKeeps_done | with_reducible apply replyKeeps_later | intro _ | with_reducible apply keeps_ite | split | with_reducible refine keeps_plain ?_ | with_reducible refine keeps_mk ?_)

theorem execRetryExhausted_keeps {s0 s : State} (p : Fin 48) (h0 : Keeps s0 s) : OutKeeps s0 (execRetryExhausted p s) := by
  unfold execRetryExhausted
  repeat' (first | assumption | with_reducible apply losePort_keeps | with_reducible apply setPort_keeps | with_reducible apply watch_keeps | with_reducible apply keeps_foldl | with_reducible apply replyKeeps_done | with_reducible apply replyKeeps_later | (extract_lets +onlyGivenNames zx; (first | ((first | refine keeps_cut (x := zx) ?_ ?_ | refine outKeeps_cut (x := zx) ?_ ?_ | refine replyKeeps_cut (x := zx) ?_ ?_); (on_goal 2 => (intro zh; clear_value zx)); (on_goal 1 => (dsimp -zeta only [zx]))) | skip)) | with_reducible apply keeps_ite | split)

theorem execPortRetrainDone_keeps {s0 s : State} (p : Fin 48) (rtt : Option (BitVec 16)) (h0 : Keeps s0 s) :
    OutKeeps s0 (execPortRetrainDone p rtt s) := by
  unfold execPortRetrainDone
  refine outKeeps_next (keeps_ite ?_ h0)
  cases rtt with
  | some n => exact setPort_keeps _ _ h0
  | none => exact watch_keeps _ (setPort_keeps _ _ h0)

theorem execPortCtrlRetrain_keeps {s0 s : State} (p : Fin 48) (h0 : Keeps s0 s) : OutKeeps s0 (execPortCtrlRetrain p s) := by
  unfold execPortCtrlRetrain
  repeat' (first | assumption | with_reducible apply setPort_keeps | with_reducible apply keeps_foldl | with_reducible apply outKeeps_next | with_reducible apply replyKeeps_done | with_reducible apply replyKeeps_later | with_reducible apply keeps_ite)

theorem execPortCtrlDisable_keeps {s0 s : State} (p : Fin 48) (on : Bool) (h0 : Keeps s0 s) : OutKeeps s0 (execPortCtrlDisable p on s) := by
  unfold execPortCtrlDisable
  repeat' (first | assumption | with_reducible apply losePort_keeps | with_reducible apply setPort_keeps | with_reducible apply keeps_foldl | with_reducible apply replyKeeps_done | with_reducible apply replyKeeps_later | (extract_lets +onlyGivenNames zx; (first | ((first | refine keeps_cut (x := zx) ?_ ?_ | refine outKeeps_cut (x := zx) ?_ ?_ | refine replyKeeps_cut (x := zx) ?_ ?_); (on_goal 2 => (intro zh; clear_value zx)); (on_goal 1 => (dsimp -zeta only [zx]))) | skip)) | with_reducible apply keeps_ite)

theorem execPacketHeaderArrival_keeps {s0 s : State} (p : Fin 48) (h0 : Keeps s0 s) : OutKeeps s0 (execPacketHeaderArrival p s) := by
  unfold execPacketHeaderArrival
  extract_lets x busy rx h0' h put dropIt
  have hp : ∀ o u, Keeps s0 u → Keeps s0 (put o u) := fun o u hu => setPort_keeps _ _ hu
  have hd : ∀ i, Keeps s0 (dropIt i) := fun i => hp _ _ (bump_keeps _ h0)
  clear_value dropIt put h h0' rx busy x
  refine outKeeps_next (keeps_ite h0 (keeps_ite (hd _) (keeps_ite (notice_keeps _ _ _ (hd _)) (keeps_ite (hp _ _ h0) ?_))))
  split
  · exact hd _
  · exact notice_keeps _ _ _ (hp _ _ h0)
  · exact hp _ _ h0
  · exact hp _ _ h0

theorem drain_keeps {s0 s : State} (q : Nat) (b : InPkt) (h0 : Keeps s0 s) : Keeps s0 (drain q b s) := by
  unfold drain
  repeat' (first | assumption | with_reducible apply setPort_keeps)

theorem sink_keeps {s0 s : State}  (h0 : Keeps s0 s) : Keeps s0 (sink s) := by
  unfold sink
  repeat' (first | assumption | with_reducible apply drain_keeps | with_reducible apply setEp_keeps | with_reducible apply notice_keeps | with_reducible apply bump_keeps | with_reducible apply keeps_foldl | with_reducible apply keeps_foldr | with_reducible apply outKeeps_next | with_reducible apply replyKeeps_done | with_reducible apply replyKeeps_later | with_reducible apply outKeeps_fault | intro _ | (extract_lets +onlyGivenNames zx; (first | ((first | refine keeps_cut (x := zx) ?_ ?_ | refine outKeeps_cut (x := zx) ?_ ?_ | refine replyKeeps_cut (x := zx) ?_ ?_); (on_goal 2 => (intro zh; clear_value zx)); (on_goal 1 => (dsimp -zeta only [zx]))) | skip)) | with_reducible apply keeps_ite | with_reducible apply outKeeps_ite | with_reducible apply replyKeeps_ite | split)

theorem flushCtrl_keeps {s0 s : State}  (h0 : Keeps s0 s) : Keeps s0 (flushCtrl s) := by
  unfold flushCtrl
  repeat' (first | assumption | with_reducible apply sendPkt_keeps | with_reducible apply keeps_foldl | with_reducible apply replyKeeps_done | with_reducible apply replyKeeps_later | intro _ | with_reducible apply keeps_ite | split | with_reducible refine keeps_plain ?_ | with_reducible refine keeps_mk ?_)

theorem settleEp_keeps {s0 : State} (e : Nat) : ∀ (n : Nat) {s : State}, Keeps s0 s → Keeps s0 (settleEp e n s) := by
  intro n
  induction n with
  | zero => exact fun h => h
  | succ n ih =>
    intro s h
    unfold settleEp
    split
    · split
      · exact ih (bump_keeps _ (setEp_keeps _ _ h))
      · exact ih (notice_keeps _ _ _ (setEp_keeps _ _ h))
      · exact h
    · exact h

theorem settleEps_keeps {s0 s : State} (h0 : Keeps s0 s) : Keeps s0 (settleEps s) :=
  keeps_foldl (fun u x hu => settleEp_keeps _ _ hu) h0

theorem execPacketDeparture_keeps {s0 s : State} (p : Fin 48) (h0 : Keeps s0 s) : OutKeeps s0 (execPacketDeparture p s) := by
  unfold execPacketDeparture
  repeat' (first | assumption | with_reducible apply settleEps_keeps | with_reducible apply sink_keeps | with_reducible apply flushCtrl_keeps | with_reducible apply drain_keeps | with_reducible apply setEp_keeps | with_reducible apply bump_keeps | with_reducible apply setPort_keeps | with_reducible apply keeps_foldl | with_reducible apply replyKeeps_done | with_reducible apply replyKeeps_later | (extract_lets +onlyGivenNames zx; (first | ((first | refine keeps_cut (x := zx) ?_ ?_ | refine outKeeps_cut (x := zx) ?_ ?_ | refine replyKeeps_cut (x := zx) ?_ ?_); (on_goal 2 => (intro zh; clear_value zx)); (on_goal 1 => (dsimp -zeta only [zx]))) | skip)) | with_reducible apply keeps_ite | split)

theorem creditFault_keeps {s0 s : State} (above : Bool) (i : Nat) (c : Chan) (h0 : Keeps s0 s) : Keeps s0 (creditFault above i c s) := by
  unfold creditFault
  repeat' (first | assumption | with_reducible apply syncFault_keeps | with_reducible apply setChan_keeps)

theorem takeInq_keeps {s0 s t : State} {e : Nat} {f : Packet → Bool} {p : Packet} (he : takeInq e f s = some (p, t))
    (h : Keeps s0 s) : Keeps s0 t := by
  unfold takeInq at he
  dsimp only at he
  split at he
  · cases he
  split at he
  · obtain ⟨rfl, rfl⟩ := he
    exact setEp_keeps _ _ (sink_keeps h)
  · cases he

theorem sendXport_keeps {s0 s : State} (ep dst chn next crn : Nat) (h0 : Keeps s0 s) : Keeps s0 (sendXport ep dst chn next crn s) :=
  sendPkt_keeps _ _ h0

theorem authFail_keeps {s0 s : State} (k ep i : Nat) (h0 : Keeps s0 s) : Keeps s0 (authFail k ep i s) := by
  unfold authFail
  repeat' (first | assumption | with_reducible apply recordFault_keeps | with_reducible apply bump_keeps)

theorem ctrlArrive_keeps {s0 s : State} (p : Packet) (h0 : Keeps s0 s) : Keeps s0 (ctrlArrive p s) := by
  unfold ctrlArrive
  extract_lets job
  clear_value job
  split
  · exact bump_keeps _ h0
  extract_lets q n
  split
  · exact bump_keeps _ h0
  split
  · exact sendXport_keeps _ _ _ _ _ (bump_keeps _ h0)
  split
  · exact authFail_keeps _ _ _ h0
  split
  · exact authFail_keeps _ _ _ h0
  split
  · exact h0
  · exact sendXport_keeps _ _ _ _ _ (keeps_mk h0)

theorem ingress_keeps {s0 s : State} (x : Nat) (h0 : Keeps s0 s) : Keeps s0 (ingress x s) := by
  unfold ingress
  repeat' (first | assumption | with_reducible apply setEp_keeps | with_reducible apply setEdge_keeps | with_reducible apply setChan_keeps | with_reducible apply creditFault_keeps | with_reducible apply sendXport_keeps | with_reducible apply keeps_foldl | with_reducible apply keeps_foldr | with_reducible apply outKeeps_next | with_reducible apply replyKeeps_done | with_reducible apply replyKeeps_later | with_reducible apply outKeeps_fault | intro _ | (extract_lets +onlyGivenNames zx; (first | ((first | refine keeps_cut (x := zx) ?_ ?_ | refine outKeeps_cut (x := zx) ?_ ?_ | refine replyKeeps_cut (x := zx) ?_ ?_); (on_goal 2 => (intro zh; clear_value zx)); (on_goal 1 => (dsimp -zeta only [zx]))) | skip)) | with_reducible apply keeps_ite | with_reducible apply outKeeps_ite | with_reducible apply replyKeeps_ite | split)

theorem releaseFirst_keeps {s0 s : State} (i : Nat) (h0 : Keeps s0 s) : Keeps s0 (releaseFirst i s) := by
  unfold releaseFirst
  repeat' (first | assumption | with_reducible apply ingress_keeps | with_reducible apply keeps_foldl | with_reducible apply keeps_foldr | with_reducible apply outKeeps_next | with_reducible apply replyKeeps_done | with_reducible apply replyKeeps_later | with_reducible apply outKeeps_fault | intro _ | (extract_lets +onlyGivenNames zx; (first | ((first | refine keeps_cut (x := zx) ?_ ?_ | refine outKeeps_cut (x := zx) ?_ ?_ | refine replyKeeps_cut (x := zx) ?_ ?_); (on_goal 2 => (intro zh; clear_value zx)); (on_goal 1 => (dsimp -zeta only [zx]))) | skip)) | with_reducible apply keeps_ite | with_reducible apply outKeeps_ite | with_reducible apply replyKeeps_ite | split)

theorem accept_keeps {s0 s : State} (i n : Nat) (p : Packet) (bs : List Byte) (h0 : Keeps s0 s) : Keeps s0 (accept i n p bs s) := by
  unfold accept
  repeat' (first | assumption | with_reducible apply creditFault_keeps | with_reducible apply modMeter_keeps | with_reducible apply sendXport_keeps | with_reducible apply setChan_keeps | with_reducible apply keeps_foldl | with_reducible apply keeps_foldr | with_reducible apply outKeeps_next | with_reducible apply replyKeeps_done | with_reducible apply replyKeeps_later | with_reducible apply outKeeps_fault | intro _ | (extract_lets +onlyGivenNames zx; (first | ((first | refine keeps_cut (x := zx) ?_ ?_ | refine outKeeps_cut (x := zx) ?_ ?_ | refine replyKeeps_cut (x := zx) ?_ ?_); (on_goal 2 => (intro zh; clear_value zx)); (on_goal 1 => (dsimp -zeta only [zx]))) | skip)) | with_reducible apply keeps_ite | with_reducible apply outKeeps_ite | with_reducible apply replyKeeps_ite | split)

theorem execDataPacketArrival_keeps {s0 s : State} (ep : Byte) (h0 : Keeps s0 s) : OutKeeps s0 (execDataPacketArrival ep s) := by
  unfold execDataPacketArrival
  extract_lets e
  clear_value e
  refine outKeeps_next ?_
  split
  · exact h0
  rename_i p s1 he
  have h1 : Keeps s0 s1 := takeInq_keeps he h0
  clear he
  split
  · exact bump_keeps _ h1
  split
  · exact keeps_ite (ctrlArrive_keeps _ h1) (bump_keeps _ h1)
  split
  · exact bump_keeps _ h1
  extract_lets n
  clear_value n
  split
  · exact sendXport_keeps _ _ _ _ _ (bump_keeps _ h1)
  split
  · exact authFail_keeps _ _ _ h1
  split
  · exact authFail_keeps _ _ _ h1
  · exact accept_keeps _ _ _ _ (releaseFirst_keeps _ h1)

theorem execIngressDelivery_keeps {s0 s : State} (x : Fin 4096) (h0 : Keeps s0 s) : OutKeeps s0 (execIngressDelivery x s) := by
  unfold execIngressDelivery
  repeat' (first | assumption | with_reducible apply ingress_keeps | with_reducible apply keeps_foldl | with_reducible apply keeps_foldr | with_reducible apply outKeeps_next)

theorem execEgressTokenSend_keeps {s0 s : State} (x : Fin 4096) (h0 : Keeps s0 s) : OutKeeps s0 (execEgressTokenSend x s) := by
  unfold execEgressTokenSend
  repeat' (first | assumption | with_reducible apply setEp_keeps | with_reducible apply crossIn_keeps | with_reducible apply setEdge_keeps | with_reducible apply setChan_keeps | with_reducible apply recordFault_keeps | with_reducible apply bump_keeps | with_reducible apply resent_keeps | with_reducible apply modMeter_keeps | with_reducible apply sendPkt_keeps | with_reducible apply keeps_foldl | with_reducible apply keeps_foldr | with_reducible apply outKeeps_next | with_reducible apply replyKeeps_done | with_reducible apply replyKeeps_later | with_reducible apply outKeeps_fault | intro _ | (extract_lets +onlyGivenNames zx; (first | ((first | refine keeps_cut (x := zx) ?_ ?_ | refine outKeeps_cut (x := zx) ?_ ?_ | refine replyKeeps_cut (x := zx) ?_ ?_); (on_goal 2 => (intro zh; clear_value zx)); (on_goal 1 => (dsimp -zeta only [zx]))) | skip)) | with_reducible apply keeps_ite | with_reducible apply outKeeps_ite | with_reducible apply replyKeeps_ite | split)

theorem execXport_keeps {s0 s : State} (ep : Byte) (h0 : Keeps s0 s) : OutKeeps s0 (execXport ep s) := by
  unfold execXport
  extract_lets e
  clear_value e
  refine outKeeps_next ?_
  split
  · exact h0
  rename_i p s1 he
  have h1 : Keeps s0 s1 := takeInq_keeps he h0
  clear he
  split
  · exact bump_keeps _ h1
  split
  · exact keeps_mk h1
  split
  · exact bump_keeps _ h1
  extract_lets c1 n
  clear_value n c1
  exact keeps_ite (creditFault_keeps _ _ _ h1) (setChan_keeps _ _ h1)

theorem mapTx_keeps {s0 s : State} (e : Nat) (f : List TxCopy → List TxCopy) (h0 : Keeps s0 s) : Keeps s0 (mapTx e f s) := by
  unfold mapTx
  repeat' (first | assumption | with_reducible apply keeps_foldl | with_reducible apply keeps_foldr | with_reducible apply outKeeps_next | with_reducible apply replyKeeps_done | with_reducible apply replyKeeps_later | with_reducible apply outKeeps_fault | intro _ | (extract_lets +onlyGivenNames zx; (first | ((first | refine keeps_cut (x := zx) ?_ ?_ | refine outKeeps_cut (x := zx) ?_ ?_ | refine replyKeeps_cut (x := zx) ?_ ?_); (on_goal 2 => (intro zh; clear_value zx)); (on_goal 1 => (dsimp -zeta only [zx]))) | skip)) | with_reducible apply keeps_ite | with_reducible apply outKeeps_ite | with_reducible apply replyKeeps_ite | split | dsimp -zeta only | with_reducible refine keeps_plain ?_ | with_reducible refine keeps_mk ?_)

theorem closeRetry_keeps {s0 s : State} (e : Nat) (t : Nat × Nat × Nat → Bool) (h0 : Keeps s0 s) : Keeps s0 (closeRetry e t s) := by
  unfold closeRetry
  repeat' (first | assumption | with_reducible apply setEp_keeps | with_reducible apply mapTx_keeps | with_reducible apply keeps_foldl | with_reducible apply keeps_foldr | with_reducible apply outKeeps_next | with_reducible apply replyKeeps_done | with_reducible apply replyKeeps_later | with_reducible apply outKeeps_fault | intro _ | (extract_lets +onlyGivenNames zx; (first | ((first | refine keeps_cut (x := zx) ?_ ?_ | refine outKeeps_cut (x := zx) ?_ ?_ | refine replyKeeps_cut (x := zx) ?_ ?_); (on_goal 2 => (intro zh; clear_value zx)); (on_goal 1 => (dsimp -zeta only [zx]))) | skip)) | with_reducible apply keeps_ite)

theorem execRetryStart_keeps {s0 s : State} (ep : Byte) (h0 : Keeps s0 s) : OutKeeps s0 (execRetryStart ep s) := by
  unfold execRetryStart
  refine outKeeps_next ?_
  split
  · rename_i p s1 he
    exact setEp_keeps _ _ (takeInq_keeps he h0)
  · exact h0

theorem execRetryEnd_keeps {s0 s : State} (ep : Byte) (h0 : Keeps s0 s) : OutKeeps s0 (execRetryEnd ep s) := by
  unfold execRetryEnd
  refine outKeeps_next ?_
  split
  · rename_i p s1 he
    exact closeRetry_keeps _ _ (takeInq_keeps he h0)
  · exact h0

theorem execRetryStartExpiry_keeps {s0 s : State} (ep : Byte) (h0 : Keeps s0 s) : OutKeeps s0 (execRetryStartExpiry ep s) := by
  unfold execRetryStartExpiry
  repeat' (first | assumption | with_reducible apply closeRetry_keeps | with_reducible apply keeps_foldl | with_reducible apply outKeeps_next)

theorem lostCopy_keeps {s0 s : State} (code : Nat) (i : Nat) (c : Chan) (t : TxCopy) (h0 : Keeps s0 s) : Keeps s0 (lostCopy code i c t s) := by
  unfold lostCopy
  repeat' (first | assumption | with_reducible apply recordFault_keeps | with_reducible apply setChan_keeps | with_reducible apply sendPkt_keeps | with_reducible apply keeps_foldl | with_reducible apply replyKeeps_done | with_reducible apply replyKeeps_later | with_reducible apply keeps_ite | split | with_reducible refine keeps_plain ?_ | with_reducible refine keeps_mk ?_)

theorem lostCtrl_keeps {s0 s : State} (code : Nat) (q : CtlSeq) (t : TxCopy) (h0 : Keeps s0 s) : Keeps s0 (lostCtrl code q t s) := by
  unfold lostCtrl
  repeat' (first | assumption | with_reducible apply recordFault_keeps | with_reducible apply sendPkt_keeps | with_reducible apply keeps_foldl | with_reducible apply replyKeeps_done | with_reducible apply replyKeeps_later | with_reducible apply keeps_ite | split | with_reducible refine keeps_plain ?_ | with_reducible refine keeps_mk ?_)

theorem execPathLost_keeps {s0 s : State} (ep : Byte) (h0 : Keeps s0 s) : OutKeeps s0 (execPathLost ep s) := by
  unfold execPathLost
  extract_lets e
  clear_value e
  refine outKeeps_next ?_
  split
  · exact h0
  split
  · exact h0
  rename_i p s1 he
  have h1 : Keeps s0 s1 := takeInq_keeps he h0
  clear he
  extract_lets u resent hit
  have hu : Keeps s0 u := closeRetry_keeps _ _ h1
  clear_value hit resent u
  split
  · exact lostCopy_keeps _ _ _ _ hu
  · exact hu

theorem execLength_keeps {s0 s : State} (ep : Byte) (h0 : Keeps s0 s) : OutKeeps s0 (execLength ep s) := by
  unfold execLength
  refine outKeeps_next ?_
  split
  · exact h0
  · rename_i p s1 he
    have h1 := takeInq_keeps he h0
    split
    · exact recordFault_keeps _ _ _ _ _ _ (bump_keeps _ h1)
    · exact bump_keeps _ h1

theorem execTransportTimeout_keeps {s0 s : State} (ep : Byte) (i : Nat) (h0 : Keeps s0 s) : OutKeeps s0 (execTransportTimeout ep i s) := by
  unfold execTransportTimeout
  repeat' (first | assumption | with_reducible apply lostCtrl_keeps | with_reducible apply lostCopy_keeps | with_reducible apply keeps_foldl | with_reducible apply outKeeps_next | with_reducible apply replyKeeps_done | with_reducible apply replyKeeps_later | with_reducible apply keeps_ite | split)

theorem writeTable_keeps {s0 s : State} (v : Word) (h0 : Keeps s0 s) : Keeps s0 (writeTable v s).2 := by
  unfold writeTable
  dsimp only
  split
  · exact h0
  · split
    · exact h0
    · exact keeps_mk h0

theorem execCxTblData_keeps {s0 s : State} (wr : Option Word) (h0 : Keeps s0 s) : OutKeeps s0 (execCxTblData wr s) := by
  unfold execCxTblData
  repeat' (first | assumption | with_reducible apply writeTable_keeps | with_reducible apply keeps_foldl | with_reducible apply outKeeps_next | with_reducible apply replyKeeps_done | with_reducible apply replyKeeps_later | with_reducible apply keeps_ite | split | with_reducible refine keeps_plain ?_ | with_reducible refine keeps_mk ?_)

theorem writeEpoch_keeps {s0 s : State} (v : Word) (h0 : Keeps s0 s) : Keeps s0 (writeEpoch v s).2 := by
  unfold writeEpoch
  exact keeps_ite2 h0 (keeps_mk h0)

theorem execCxEpoch_keeps {s0 s : State} (v : Word) (h0 : Keeps s0 s) : OutKeeps s0 (execCxEpoch v s) := by
  unfold execCxEpoch
  repeat' (first | assumption | with_reducible apply writeEpoch_keeps | with_reducible apply keeps_foldl | with_reducible apply outKeeps_next)

theorem writeCxCfg_keeps {s0 s : State} (v : Word) (h0 : Keeps s0 s) : Keeps s0 (writeCxCfg v s).2 := by
  unfold writeCxCfg
  split
  · exact h0
  · exact keeps_mk h0

theorem execCxCfg_keeps {s0 s : State} (v : Word) (h0 : Keeps s0 s) : OutKeeps s0 (execCxCfg v s) := writeCxCfg_keeps v h0

theorem freeFabric_keeps {s0 s : State} (k : Nat) (h0 : Keeps s0 s) : Keeps s0 (freeFabric k s) := by
  unfold freeFabric
  repeat' (first | assumption | with_reducible apply keeps_foldl | with_reducible apply replyKeeps_done | with_reducible apply replyKeeps_later | with_reducible apply keeps_ite | split | with_reducible refine keeps_plain ?_ | with_reducible refine keeps_mk ?_)

end Sys2Proof.Machine
end

