-- ==== Sys2Proof/Laws/KeepsParts.lean ====
section
/-! SUPPORT. What no command touches, for the stacks, partitions, contexts, admission, vectors and jobs: the queue, the fuse counters and the
canonical form of every table. -/

namespace Sys2Proof.Machine

set_option Elab.async false

theorem setIdx_length {α : Type} (k : Nat) (v : α) (l : List α) : (setIdx k v l).length = l.length := by
  induction l generalizing k with
  | nil => cases k <;> rfl
  | cons a t ih => cases k <;> simp [setIdx, ih]

theorem mem_setIdx {α : Type} {k : Nat} {v x : α} {l : List α} (h : x ∈ setIdx k v l) : x = v ∨ x ∈ l := by
  induction l generalizing k with
  | nil => cases k <;> simp [setIdx] at h
  | cons a t ih =>
    cases k with
    | zero => rcases List.mem_cons.mp h with h | h
              · exact .inl h
              · exact .inr (List.mem_cons_of_mem _ h)
    | succ k => rcases List.mem_cons.mp h with h | h
                · exact .inr (h ▸ List.mem_cons_self)
                · exact (ih h).imp id (List.mem_cons_of_mem _)

/-- Bytes written to a stack one after another keep its canonical form. -/
theorem twf_cellsWritten (key : Nat) (bs : List Byte) (p : Tbl Cell × Nat) (h : twf ⟨0, 0⟩ p.1 = true) :
    twf ⟨0, 0⟩ (bs.foldl (fun (t : Tbl Cell × Nat) b => (tset ⟨0, 0⟩ t.1 t.2 ⟨b, key⟩, t.2 + 1)) p).1 = true := by
  induction bs generalizing p with
  | nil => exact h
  | cons b bs ih => exact ih _ (twf_tset _ _ _ _ h)

theorem twf_stackMem {s : State} (q : Canon s) (e : Nat) : twf ⟨0, 0⟩ (stackMem s e) = true := by
  unfold stackMem
  rw [List.getD_eq_getElem?_getD]
  cases h : s.pmem[e]? with
  | none => rfl
  | some m => exact q.pmem m (List.mem_of_getElem? h)

theorem memWrite_keeps {s0 s : State} (e key a : Nat) (bs : List Byte) (h0 : Keeps s0 s) : Keeps s0 (memWrite s e key a bs) := by
  unfold memWrite
  refine keeps_mk h0 (hpmem := fun q => ⟨(setIdx_length _ _ _).trans q.count, fun m hm => ?_⟩)
  rcases mem_setIdx hm with rfl | hm
  · exact twf_cellsWritten _ _ _ (twf_stackMem q e)
  · exact q.pmem m hm

theorem countLines_keeps {s0 s : State} (e k n : Nat) (wr : Bool) (h0 : Keeps s0 s) : Keeps s0 (countLines e k n wr s) := by
  unfold countLines
  repeat' (first | assumption | with_reducible apply modMeter_keeps | with_reducible apply setEng_keeps)

theorem setCtx_keeps {s0 s : State} (e c : Nat) (x : Ctx) (h0 : Keeps s0 s) : Keeps s0 (setCtx s e c x) := by
  unfold setCtx
  repeat' (first | assumption | with_reducible apply setEng_keeps)

theorem advance_keeps {s0 s : State} (e c : Nat) (tile : Bool) (h0 : Keeps s0 s) : Keeps s0 (advance e c tile s) := by
  unfold advance
  repeat' (first | assumption | with_reducible apply setCtx_keeps | with_reducible apply modPart_keeps | with_reducible apply keeps_ite)

theorem foldTile_keeps {s0 s : State} (e c : Nat) (h : Row) (wr : Bool) (h0 : Keeps s0 s) : Keeps s0 (foldTile s e c h wr) := by
  unfold foldTile
  repeat' (first | assumption | with_reducible apply setCtx_keeps)

theorem recordSe_keeps {s0 s : State} (e c code : Nat) (h0 : Keeps s0 s) : Keeps s0 (recordSe e c code s) := by
  unfold recordSe
  repeat' (first | assumption | with_reducible apply setEng_keeps)

theorem reportSe_keeps {s0 s : State} (det : List Nat) (e c code : Nat) (h0 : Keeps s0 s) : Keeps s0 (reportSe det e c code s) := by
  unfold reportSe
  repeat' (first | assumption | with_reducible apply recordDet_keeps)

theorem ctxFault_keeps {s0 s : State} (e c code : Nat) (h0 : Keeps s0 s) : Keeps s0 (ctxFault e c code s) := by
  unfold ctxFault
  repeat' (first | assumption | with_reducible apply recordSe_keeps | with_reducible apply setEng_keeps | with_reducible apply reportSe_keeps | with_reducible apply setCtx_keeps)

theorem inject_keeps {s0 s : State} (k : Nat) (d : BitVec 256) (rows : List Row) (h0 : Keeps s0 s) : Keeps s0 (inject k d rows s) := by
  unfold inject
  repeat' (first | assumption | with_reducible apply setEdge_keeps | split)

theorem stackWatch_keeps {s0 s : State} (f : Engine48 → List Nat) (e : Nat) (h0 : Keeps s0 s) : Keeps s0 (stackWatch f e s) := by
  unfold stackWatch
  repeat' (first | assumption | with_reducible apply watch_keeps | with_reducible apply keeps_foldl | with_reducible apply keeps_foldr | with_reducible apply outKeeps_next | with_reducible apply replyKeeps_done | with_reducible apply replyKeeps_later | with_reducible apply outKeeps_fault | intro _ | (extract_lets +onlyGivenNames zx; (first | ((first | refine keeps_cut (x := zx) ?_ ?_ | refine outKeeps_cut (x := zx) ?_ ?_ | refine replyKeeps_cut (x := zx) ?_ ?_); (on_goal 2 => (intro zh; clear_value zx)); (on_goal 1 => (dsimp -zeta only [zx]))) | skip)) | with_reducible apply keeps_ite)

theorem countRefetch_keeps {s0 s : State} (e : Nat) (h0 : Keeps s0 s) : Keeps s0 (countRefetch e s) := by
  unfold countRefetch
  repeat' (first | assumption | with_reducible apply stackWatch_keeps | with_reducible apply setEng_keeps)

theorem countEcc_keeps {s0 s : State} (e ce ue : Nat) (h0 : Keeps s0 s) : Keeps s0 (countEcc e ce ue s) := by
  unfold countEcc
  repeat' (first | assumption | with_reducible apply setEng_keeps | with_reducible apply countUe_keeps | with_reducible apply stackWatch_keeps | with_reducible apply keeps_foldl | with_reducible apply keeps_foldr | with_reducible apply outKeeps_next | with_reducible apply replyKeeps_done | with_reducible apply replyKeeps_later | with_reducible apply outKeeps_fault | intro _ | (extract_lets +onlyGivenNames zx; (first | ((first | refine keeps_cut (x := zx) ?_ ?_ | refine outKeeps_cut (x := zx) ?_ ?_ | refine replyKeeps_cut (x := zx) ?_ ?_); (on_goal 2 => (intro zh; clear_value zx)); (on_goal 1 => (dsimp -zeta only [zx]))) | skip)) | with_reducible apply keeps_ite)

theorem execStreamReadTile_keeps {s0 s : State} (e : Fin 48) (c : Fin 64) (one two : TileRead) (h0 : Keeps s0 s) :
    OutKeeps s0 (execStreamReadTile e c one two s) := by
  unfold execStreamReadTile
  extract_lets x d k
  refine outKeeps_next (keeps_ite h0 (keeps_ite (advance_keeps _ _ _ h0) (keeps_ite h0 ?_)))
  split
  · exact h0
  · rename_i a _
    extract_lets h n pay lines good again s1 s2 sub emit
    have h1 : Keeps s0 s1 := countEcc_keeps _ _ _ (countLines_keeps _ _ _ _ h0)
    have h2 : Keeps s0 s2 := keeps_ite (countRefetch_keeps _ h1) h1
    have hsub : ∀ z, Keeps s0 (sub z) := fun z => ctxFault_keeps _ _ _ (inject_keeps _ _ _ h2)
    have hemit : ∀ y z, Keeps s0 (emit y z) := fun y z =>
      keeps_ite (hsub _) (advance_keeps _ _ _ (keeps_ite (foldTile_keeps _ _ _ _ (inject_keeps _ _ _ h2)) (inject_keeps _ _ _ h2)))
    clear_value emit sub s2
    refine keeps_ite (hsub _) (keeps_ite (hsub _) (keeps_ite ?_ (hemit _ _)))
    split
    · exact hemit _ _
    · exact reportSe_keeps _ _ _ _ (advance_keeps _ _ _ (recordSe_keeps _ _ _ (inject_keeps _ _ _ h2)))
    · exact hsub _

theorem writeSlot_keeps {s0 s : State} (e c : Nat) (h : Row) (pay : List Byte) (h0 : Keeps s0 s) : Keeps s0 (writeSlot e c h pay s) := by
  unfold writeSlot
  repeat' (first | assumption | with_reducible apply countLines_keeps | with_reducible apply memWrite_keeps | with_reducible apply setCtx_keeps | split | with_reducible refine keeps_plain ?_)

theorem takeSpill_keeps {s0 s : State} (g : Nat) (side : Fin 4) (f : Flit) (h0 : Keeps s0 s) : Keeps s0 (takeSpill g side f s) := by
  unfold takeSpill
  repeat' (first | assumption | with_reducible apply crossIn_keeps | with_reducible apply setEdge_keeps)

theorem setSpill_keeps {s0 s : State} (k r : Nat) (l : List QEntry) (h0 : Keeps s0 s) : Keeps s0 (setSpill k r l s) := by
  unfold setSpill
  repeat' (first | assumption | with_reducible apply modPart_keeps)

theorem spillFail_keeps {s0 s : State} (e c code : Nat) (h0 : Keeps s0 s) : Keeps s0 (spillFail e c code s) := by
  unfold spillFail
  repeat' (first | assumption | with_reducible apply ctxFault_keeps | with_reducible apply writeSlot_keeps | with_reducible apply setCtx_keeps)

theorem storeTile_keeps {s0 s : State} (e c : Nat) (buf : List QEntry) (h0 : Keeps s0 s) : Keeps s0 (storeTile e c buf s) := by
  unfold storeTile
  extract_lets h pay s1 s2 x
  have h1 : Keeps s0 s1 := writeSlot_keeps _ _ _ _ h0
  have h2 : Keeps s0 s2 := advance_keeps _ _ _ (keeps_ite (foldTile_keeps _ _ _ _ h1) h1)
  clear_value x s2
  exact keeps_ite (setCtx_keeps _ _ _ h2) h2

theorem execStreamWriteTile_keeps {s0 s : State} (e : Fin 48) (c : Fin 64) (h0 : Keeps s0 s) : OutKeeps s0 (execStreamWriteTile e c s) := by
  unfold execStreamWriteTile
  repeat' (first | assumption | with_reducible apply setCtx_keeps | with_reducible apply takeSpill_keeps | with_reducible apply spillFail_keeps | with_reducible apply setSpill_keeps | with_reducible apply storeTile_keeps | with_reducible apply keeps_foldl | with_reducible apply keeps_foldr | with_reducible apply outKeeps_next | with_reducible apply replyKeeps_done | with_reducible apply replyKeeps_later | with_reducible apply outKeeps_fault | intro _ | (extract_lets +onlyGivenNames zx; (first | ((first | refine keeps_cut (x := zx) ?_ ?_ | refine outKeeps_cut (x := zx) ?_ ?_ | refine replyKeeps_cut (x := zx) ?_ ?_); (on_goal 2 => (intro zh; clear_value zx)); (on_goal 1 => (dsimp -zeta only [zx]))) | skip)) | with_reducible apply keeps_ite | with_reducible apply outKeeps_ite | with_reducible apply replyKeeps_ite | split)

theorem deny_keeps {s0 s : State} (a : Nat) (h0 : Keeps s0 s) : Keeps s0 (deny a s) := by
  unfold deny
  repeat' (first | assumption | with_reducible apply setEng_keeps | split)

theorem touch_keeps {s0 s : State} (e : Nat) (h0 : Keeps s0 s) : Keeps s0 (touch e s) := by
  unfold touch
  repeat' (first | assumption | with_reducible apply setEng_keeps)

theorem execCxlMemRead_keeps {s0 s : State} (a : Nat) (src : BitVec 12) (line : LineRead) (h0 : Keeps s0 s) : OutKeeps s0 (execCxlMemRead a src line s) := by
  unfold execCxlMemRead
  repeat' (first | assumption | with_reducible apply say_keeps | with_reducible apply deny_keeps | with_reducible apply countEcc_keeps | with_reducible apply touch_keeps | with_reducible apply keeps_foldl | with_reducible apply keeps_foldr | with_reducible apply outKeeps_next | with_reducible apply replyKeeps_done | with_reducible apply replyKeeps_later | with_reducible apply outKeeps_fault | intro _ | (extract_lets +onlyGivenNames zx; (first | ((first | refine keeps_cut (x := zx) ?_ ?_ | refine outKeeps_cut (x := zx) ?_ ?_ | refine replyKeeps_cut (x := zx) ?_ ?_); (on_goal 2 => (intro zh; clear_value zx)); (on_goal 1 => (dsimp -zeta only [zx]))) | skip)) | with_reducible apply keeps_ite | with_reducible apply outKeeps_ite | with_reducible apply replyKeeps_ite | split)

theorem execCxlMemWrite_keeps {s0 s : State} (a : Nat) (src : BitVec 12) (mask : BitVec 64) (line : List Byte) (h0 : Keeps s0 s) : OutKeeps s0 (execCxlMemWrite a src mask line s) := by
  unfold execCxlMemWrite
  repeat' (first | assumption | with_reducible apply deny_keeps | with_reducible apply memWrite_keeps | with_reducible apply touch_keeps | with_reducible apply keeps_foldl | with_reducible apply outKeeps_next | intro _ | with_reducible apply keeps_ite | split)

theorem execSelfRefreshEntry_keeps {s0 s : State} (e : Fin 48) (h0 : Keeps s0 s) : OutKeeps s0 (execSelfRefreshEntry e s) := by
  unfold execSelfRefreshEntry
  repeat' (first | assumption | with_reducible apply setEng_keeps | with_reducible apply outKeeps_next | split)

theorem execStackTemperaturePoll_keeps {s0 s : State} (e : Fin 48) (temp : Byte) (h0 : Keeps s0 s) : OutKeeps s0 (execStackTemperaturePoll e temp s) := by
  unfold execStackTemperaturePoll
  repeat' (first | assumption | with_reducible apply setEng_keeps | with_reducible apply outKeeps_next | split)

theorem execSeCtxData_keeps {s0 s : State} (e : Fin 48) (h0 : Keeps s0 s) : OutKeeps s0 (execSeCtxData e s) := by
  unfold execSeCtxData
  repeat' (first | assumption | with_reducible apply setEng_keeps | with_reducible apply outKeeps_next)

theorem startCtx_keeps {s0 s : State} (e c : Nat) (h0 : Keeps s0 s) : Keeps s0 (startCtx e c s) := by
  unfold startCtx
  repeat' (first | assumption | with_reducible apply setCtx_keeps)

theorem execStreamStart_keeps {s0 s : State} (c : Cmd) (h0 : Keeps s0 s) : OutKeeps s0 (execStreamStart c s) := by
  unfold execStreamStart
  repeat' (first | assumption | with_reducible apply runCmd_keeps | with_reducible apply startCtx_keeps | with_reducible apply replyKeeps_done | intro _)

theorem execStreamRelease_keeps {s0 s : State} (c : Cmd) (h0 : Keeps s0 s) : OutKeeps s0 (execStreamRelease c s) := by
  unfold execStreamRelease
  repeat' (first | assumption | with_reducible apply runCmd_keeps | with_reducible apply setCtx_keeps | with_reducible apply replyKeeps_done | intro _)

theorem execStreamStop_keeps {s0 s : State} (c : Cmd) (h0 : Keeps s0 s) : OutKeeps s0 (execStreamStop c s) := by
  unfold execStreamStop
  repeat' (first | assumption | with_reducible apply runCmd_keeps | with_reducible apply setCtx_keeps | with_reducible apply replyKeeps_done | intro _)

theorem execStreamDrain_keeps {s0 s : State} (c : Cmd) (h0 : Keeps s0 s) : OutKeeps s0 (execStreamDrain c s) := by
  unfold execStreamDrain
  repeat' (first | assumption | with_reducible apply runCmd_keeps | with_reducible apply drain_keeps | with_reducible apply modPart_keeps | with_reducible apply startDrain_keeps | with_reducible apply stopReads_keeps | with_reducible apply keeps_foldl | with_reducible apply keeps_foldr | with_reducible apply outKeeps_next | with_reducible apply replyKeeps_done | with_reducible apply replyKeeps_later | with_reducible apply outKeeps_fault | intro _)

theorem execStreamDrainComplete_keeps {s0 s : State} (k : Fin 32) (h0 : Keeps s0 s) : OutKeeps s0 (execStreamDrainComplete k s) := by
  unfold execStreamDrainComplete
  repeat' (first | assumption | with_reducible apply drain_keeps | with_reducible apply completeLong_keeps | with_reducible apply outKeeps_next | split)

theorem execStreamDrainTimeout_keeps {s0 s : State} (k : Fin 32) (h0 : Keeps s0 s) : OutKeeps s0 (execStreamDrainTimeout k s) := by
  unfold execStreamDrainTimeout
  repeat' (first | assumption | with_reducible apply drain_keeps | with_reducible apply completeLong_keeps | with_reducible apply outKeeps_next | split)

theorem logDebug_keeps {s0 s : State} (opc status k : Nat) (g : Option Grant) (a0 a1 a2 wcrc : Nat) (h0 : Keeps s0 s) :
    Keeps s0 (logDebug opc status k g a0 a1 a2 wcrc s) := by
  unfold logDebug
  with_reducible exact keeps_mk h0

theorem dropHalts_keeps {s0 s : State} (p : Nat → Bool) (h0 : Keeps s0 s) : Keeps s0 (dropHalts p s) := by
  unfold dropHalts
  repeat' (first | assumption | with_reducible apply mapCores_keeps | with_reducible apply keeps_foldl | with_reducible refine keeps_plain ?_)

theorem resumeCore_keeps {s0 s : State} (g : Nat) (h0 : Keeps s0 s) : Keeps s0 (resumeCore s g) := by
  unfold resumeCore
  repeat' (first | assumption | with_reducible apply setCore_keeps | with_reducible apply keeps_foldl | with_reducible apply keeps_ite)

theorem finishDbg_keeps {s0 s : State} (k : Nat) (g : Grant) (d : DbgCmd) (status : Nat) (res : List Nat) (h0 : Keeps s0 s) :
    Keeps s0 (finishDbg k g d status res s) := complete_keeps _ _ _ _ _ _ _ (logDebug_keeps _ _ _ _ _ _ _ _ h0)

theorem stopDbg_keeps {s0 s : State} (k : Nat) (h0 : Keeps s0 s) : Keeps s0 (stopDbg k s) := by
  unfold stopDbg
  repeat' (first | assumption | with_reducible apply finishDbg_keeps | with_reducible apply modPart_keeps | with_reducible apply keeps_foldl | intro _ | split)

theorem detach_keeps {s0 s : State} (k : Nat) (resume : Bool) (h0 : Keeps s0 s) : Keeps s0 (detach k resume s) := by
  unfold detach
  repeat' (first | assumption | with_reducible apply stopDbg_keeps | with_reducible apply dropHalts_keeps | with_reducible apply resumeCore_keeps | with_reducible apply modPart_keeps | with_reducible apply keeps_foldl | split | with_reducible refine keeps_plain ?_ | with_reducible refine keeps_mk ?_)

theorem endPair_keeps {s0 s : State} (q : Nat) (h0 : Keeps s0 s) : Keeps s0 (endPair q s) := by
  unfold endPair
  repeat' (first | assumption | with_reducible apply logDebug_keeps | with_reducible apply detach_keeps | with_reducible apply setQp_keeps | with_reducible apply keeps_foldl | split)

theorem endBindings_keeps {s0 s : State} (k : Nat) (t : Grant → Bool) (h0 : Keeps s0 s) : Keeps s0 (endBindings k t s) := by
  unfold endBindings
  repeat' (first | assumption | with_reducible apply endPair_keeps | with_reducible apply keeps_foldl)

theorem purgeEdge_keeps {s0 s : State} (b : Bound) (h0 : Keeps s0 s) : Keeps s0 (purgeEdge b s) := by
  unfold purgeEdge
  repeat' (first | assumption | with_reducible apply setSluice_keeps | with_reducible apply setRouter_keeps | with_reducible apply setEdge_keeps | with_reducible apply keeps_foldl | split)

theorem tearDown_keeps {s0 s : State} (k : Nat) (h0 : Keeps s0 s) : Keeps s0 (tearDown k s) := by
  unfold tearDown
  repeat' (first | assumption | with_reducible apply stopDbg_keeps | with_reducible apply mapCores_keeps | with_reducible apply purgeEdge_keeps | with_reducible apply stopChans_keeps | with_reducible apply mapCtxs_keeps | with_reducible apply modRouter_keeps | with_reducible apply modPart_keeps | with_reducible apply keeps_foldl | intro _ | with_reducible refine keeps_plain ?_)

theorem releaseAll_keeps {s0 s : State} (k : Nat) (h0 : Keeps s0 s) : Keeps s0 (releaseAll k s) := by
  have h1 : ∀ (l : List (Nat × Fin 4)) u, Keeps s0 u → Keeps s0 (l.foldl (fun s gk =>
      modRouter s gk.1 (fun r => { r with absorb := setBit r.absorb (gk.2 : Nat) false })) u) :=
    fun l u hu => keeps_foldl (fun v x hv => modRouter_keeps _ _ hv) hu
  have h2 : ∀ (l : List Nat) u, Keeps s0 u → Keeps s0 (l.foldl (fun s x => modColl s x (fun _ => Collector.zero)) u) :=
    fun l u hu => keeps_foldl (fun v x hv => modColl_keeps _ _ hv) hu
  unfold releaseAll
  exact modPart_keeps _ _ (endBindings_keeps _ _ (h2 _ _ (freeFabric_keeps _ (keeps_mk (h1 _ _ (keeps_mk h0))))))

theorem closeWindow_keeps {s0 s : State} (k : Nat) (h0 : Keeps s0 s) : Keeps s0 (closeWindow k s) := by
  unfold closeWindow
  repeat' (first | assumption | with_reducible apply modPart_keeps)

theorem execAbsorbQuiet_keeps {s0 s : State} (k : Fin 32) (h0 : Keeps s0 s) : OutKeeps s0 (execAbsorbQuiet k s) := by
  unfold execAbsorbQuiet
  repeat' (first | assumption | with_reducible apply readback_keeps | with_reducible apply releaseAll_keeps | with_reducible apply modPart_keeps | with_reducible apply keeps_foldl | with_reducible apply keeps_foldr | with_reducible apply outKeeps_next | with_reducible apply replyKeeps_done | with_reducible apply replyKeeps_later | with_reducible apply outKeeps_fault | intro _ | (extract_lets +onlyGivenNames zx; (first | ((first | refine keeps_cut (x := zx) ?_ ?_ | refine outKeeps_cut (x := zx) ?_ ?_ | refine replyKeeps_cut (x := zx) ?_ ?_); (on_goal 2 => (intro zh; clear_value zx)); (on_goal 1 => (dsimp -zeta only [zx]))) | skip)) | with_reducible apply keeps_ite | with_reducible apply outKeeps_ite | with_reducible apply replyKeeps_ite | split)

theorem beginReset_keeps {s0 s : State} (k : Nat) (l : Long) (h0 : Keeps s0 s) : Keeps s0 (beginReset k l s) := by
  unfold beginReset
  repeat' (first | assumption | with_reducible apply newJobRate_keeps | with_reducible apply tearDown_keeps | with_reducible apply modPart_keeps)

theorem finishDestroy_keeps {s0 s : State} (k : Nat) (h0 : Keeps s0 s) : Keeps s0 (finishDestroy k s) := by
  have h1 : ∀ (l : List Nat) u, Keeps s0 u → Keeps s0 (l.foldl (fun s x => setPan s x { getPan s x with part := none }) u) :=
    fun l u hu => keeps_foldl (fun v x hv => setPan_keeps _ _ hv) hu
  unfold finishDestroy
  exact setPart_keeps _ _ (modMeter_keeps _ _ (keeps_mk (endBindings_keeps _ _ (h1 _ _ h0))))

theorem applyReset_keeps {s0 s : State} (k : Nat) (l : Long) (h0 : Keeps s0 s) : Keeps s0 (applyReset k l s) := by
  unfold applyReset
  dsimp only
  have hb := beginReset_keeps k l h0
  have hr : ∀ a, Keeps s0 (complete l.qp l.epoch l.cid stState k a [] s) := fun a => complete_keeps _ _ _ _ _ _ _ h0
  have hd : ∀ a, Keeps s0 (complete l.qp l.epoch l.cid stOK k a [] (finishDestroy k s)) :=
    fun a => complete_keeps _ _ _ _ _ _ _ (finishDestroy_keeps k h0)
  split
  · exact keeps_ite (hd _) (keeps_ite hb (hr _))
  · exact keeps_ite hb (hr _)

theorem execPartResetComplete_keeps {s0 s : State} (k : Fin 32) (h0 : Keeps s0 s) : OutKeeps s0 (execPartResetComplete k s) := by
  unfold execPartResetComplete
  repeat' (first | assumption | with_reducible apply modPart_keeps | with_reducible apply completeLong_keeps | with_reducible apply finishDestroy_keeps | with_reducible apply newJobRate_keeps | with_reducible apply applyReset_keeps | with_reducible apply keeps_foldl | (extract_lets +onlyGivenNames zx; (first | ((first | refine keeps_cut (x := zx) ?_ ?_ | refine outKeeps_cut (x := zx) ?_ ?_ | refine replyKeeps_cut (x := zx) ?_ ?_); (on_goal 2 => (intro zh; clear_value zx)); (on_goal 1 => (dsimp -zeta only [zx]))) | skip)) | split)

theorem execPartCreate_keeps {s0 s : State} (c : Cmd) (h0 : Keeps s0 s) : OutKeeps s0 (execPartCreate c s) := by
  have h1 : ∀ (k : Nat) (l : List Nat) u, Keeps s0 u → Keeps s0 (l.foldl (fun s p => setPan s p { getPan s p with part := some k }) u) :=
    fun k l u hu => keeps_foldl (fun v x hv => setPan_keeps _ _ hv) hu
  unfold execPartCreate
  refine outKeeps_ite (outKeeps_next h0) (runCmd_keeps _ _ _ _ _ h0 (fun t ht => ?_))
  exact modMeter_keeps _ _ (setPart_keeps _ _ (h1 _ _ _ ⟨ht.fuse, ht.pending, fun q => { ht.canon q with }⟩))

theorem takeReset_keeps {s0 s : State} (l : Long) (k : Nat) (h0 : Keeps s0 s) : ReplyKeeps s0 (takeReset l k s) := by
  unfold takeReset
  repeat' (first | assumption | with_reducible apply modPart_keeps | with_reducible apply applyReset_keeps | with_reducible apply keeps_foldl | with_reducible apply replyKeeps_later | (extract_lets +onlyGivenNames zx; (first | ((first | refine keeps_cut (x := zx) ?_ ?_ | refine outKeeps_cut (x := zx) ?_ ?_ | refine replyKeeps_cut (x := zx) ?_ ?_); (on_goal 2 => (intro zh; clear_value zx)); (on_goal 1 => (dsimp -zeta only [zx]))) | skip)) | split)

theorem execPartDestroy_keeps {s0 s : State} (c : Cmd) (h0 : Keeps s0 s) : OutKeeps s0 (execPartDestroy c s) := by
  unfold execPartDestroy
  repeat' (first | assumption | with_reducible apply runCmd_keeps | with_reducible apply takeReset_keeps | with_reducible apply keeps_foldl | intro _ | split)

theorem execPartReset_keeps {s0 s : State} (c : Cmd) (h0 : Keeps s0 s) : OutKeeps s0 (execPartReset c s) := by
  unfold execPartReset
  repeat' (first | assumption | with_reducible apply runCmd_keeps | with_reducible apply takeReset_keeps | with_reducible apply keeps_foldl | intro _)

theorem execPartQuery_keeps {s0 s : State} (c : Cmd) (h0 : Keeps s0 s) : OutKeeps s0 (execPartQuery c s) := by
  unfold execPartQuery
  repeat' (first | assumption | with_reducible apply runCmd_keeps | with_reducible apply keeps_foldl | intro _)

theorem execWindowOpen_keeps {s0 s : State} (c : Cmd) (h0 : Keeps s0 s) : OutKeeps s0 (execWindowOpen c s) := by
  unfold execWindowOpen
  repeat' (first | assumption | with_reducible apply runCmd_keeps | with_reducible apply modPart_keeps | with_reducible apply keeps_foldl | with_reducible apply replyKeeps_done | intro _)

theorem execWindowClose_keeps {s0 s : State} (c : Cmd) (h0 : Keeps s0 s) : OutKeeps s0 (execWindowClose c s) := by
  unfold execWindowClose
  repeat' (first | assumption | with_reducible apply runCmd_keeps | with_reducible apply closeWindow_keeps | with_reducible apply keeps_foldl | with_reducible apply replyKeeps_done | intro _)

theorem execVadd_keeps {s0 s : State} (g : Nat) (d a b : Reg) (vf : LaneFmt) (rm : Rounding) (h0 : Keeps s0 s) : OutKeeps s0 (execVadd g d a b vf rm s) := by
  unfold execVadd
  repeat' (first | assumption | with_reducible apply onCore_keeps)

theorem execVsub_keeps {s0 s : State} (g : Nat) (d a b : Reg) (vf : LaneFmt) (rm : Rounding) (h0 : Keeps s0 s) : OutKeeps s0 (execVsub g d a b vf rm s) := by
  unfold execVsub
  repeat' (first | assumption | with_reducible apply onCore_keeps)

theorem execVmul_keeps {s0 s : State} (g : Nat) (d a b : Reg) (vf : LaneFmt) (rm : Rounding) (h0 : Keeps s0 s) : OutKeeps s0 (execVmul g d a b vf rm s) := by
  unfold execVmul
  repeat' (first | assumption | with_reducible apply onCore_keeps)

theorem execVfma_keeps {s0 s : State} (g : Nat) (d a b : Reg) (vf : LaneFmt) (rm : Rounding) (h0 : Keeps s0 s) : OutKeeps s0 (execVfma g d a b vf rm s) := by
  unfold execVfma
  repeat' (first | assumption | with_reducible apply onCore_keeps)

theorem execVmin_keeps {s0 s : State} (g : Nat) (d a b : Reg) (vf : LaneFmt) (h0 : Keeps s0 s) : OutKeeps s0 (execVmin g d a b vf s) := by
  unfold execVmin
  repeat' (first | assumption | with_reducible apply onCore_keeps)

theorem execVmax_keeps {s0 s : State} (g : Nat) (d a b : Reg) (vf : LaneFmt) (h0 : Keeps s0 s) : OutKeeps s0 (execVmax g d a b vf s) := by
  unfold execVmax
  repeat' (first | assumption | with_reducible apply onCore_keeps)

theorem execVcmp_keeps {s0 s : State} (g : Nat) (d a b : Reg) (vf : LaneFmt) (k : VCond) (h0 : Keeps s0 s) : OutKeeps s0 (execVcmp g d a b vf k s) := by
  unfold execVcmp
  repeat' (first | assumption | with_reducible apply onCore_keeps)

theorem execVsel_keeps {s0 s : State} (g : Nat) (d a b : Reg) (vf : LaneFmt) (h0 : Keeps s0 s) : OutKeeps s0 (execVsel g d a b vf s) := by
  unfold execVsel
  repeat' (first | assumption | with_reducible apply onCore_keeps)

theorem execVand_keeps {s0 s : State} (g : Nat) (d a b : Reg) (vf : LaneFmt) (h0 : Keeps s0 s) : OutKeeps s0 (execVand g d a b vf s) := by
  unfold execVand
  repeat' (first | assumption | with_reducible apply onCore_keeps)

theorem execVor_keeps {s0 s : State} (g : Nat) (d a b : Reg) (vf : LaneFmt) (h0 : Keeps s0 s) : OutKeeps s0 (execVor g d a b vf s) := by
  unfold execVor
  repeat' (first | assumption | with_reducible apply onCore_keeps)

theorem execVxor_keeps {s0 s : State} (g : Nat) (d a b : Reg) (vf : LaneFmt) (h0 : Keeps s0 s) : OutKeeps s0 (execVxor g d a b vf s) := by
  unfold execVxor
  repeat' (first | assumption | with_reducible apply onCore_keeps)

theorem execVsh_keeps {s0 s : State} (g : Nat) (d a b : Reg) (h0 : Keeps s0 s) : OutKeeps s0 (execVsh g d a b s) := by
  unfold execVsh
  repeat' (first | assumption | with_reducible apply onCore_keeps)

theorem execVabs_keeps {s0 s : State} (g : Nat) (d a : Reg) (vf : LaneFmt) (h0 : Keeps s0 s) : OutKeeps s0 (execVabs g d a vf s) := by
  unfold execVabs
  repeat' (first | assumption | with_reducible apply onCore_keeps)

theorem execVneg_keeps {s0 s : State} (g : Nat) (d a : Reg) (vf : LaneFmt) (h0 : Keeps s0 s) : OutKeeps s0 (execVneg g d a vf s) := by
  unfold execVneg
  repeat' (first | assumption | with_reducible apply onCore_keeps)

theorem execVexp2_keeps {s0 s : State} (g : Nat) (d a : Reg) (vf : LaneFmt) (h0 : Keeps s0 s) : OutKeeps s0 (execVexp2 g d a vf s) := by
  unfold execVexp2
  repeat' (first | assumption | with_reducible apply onCore_keeps)

theorem execVexp_keeps {s0 s : State} (g : Nat) (d a : Reg) (vf : LaneFmt) (h0 : Keeps s0 s) : OutKeeps s0 (execVexp g d a vf s) := by
  unfold execVexp
  repeat' (first | assumption | with_reducible apply onCore_keeps)

theorem execVlog2_keeps {s0 s : State} (g : Nat) (d a : Reg) (vf : LaneFmt) (h0 : Keeps s0 s) : OutKeeps s0 (execVlog2 g d a vf s) := by
  unfold execVlog2
  repeat' (first | assumption | with_reducible apply onCore_keeps)

theorem execVrcp_keeps {s0 s : State} (g : Nat) (d a : Reg) (vf : LaneFmt) (h0 : Keeps s0 s) : OutKeeps s0 (execVrcp g d a vf s) := by
  unfold execVrcp
  repeat' (first | assumption | with_reducible apply onCore_keeps)

theorem execVsqrt_keeps {s0 s : State} (g : Nat) (d a : Reg) (vf : LaneFmt) (h0 : Keeps s0 s) : OutKeeps s0 (execVsqrt g d a vf s) := by
  unfold execVsqrt
  repeat' (first | assumption | with_reducible apply onCore_keeps)

theorem execVrsqrt_keeps {s0 s : State} (g : Nat) (d a : Reg) (vf : LaneFmt) (h0 : Keeps s0 s) : OutKeeps s0 (execVrsqrt g d a vf s) := by
  unfold execVrsqrt
  repeat' (first | assumption | with_reducible apply onCore_keeps)

theorem execVtanh_keeps {s0 s : State} (g : Nat) (d a : Reg) (vf : LaneFmt) (h0 : Keeps s0 s) : OutKeeps s0 (execVtanh g d a vf s) := by
  unfold execVtanh
  repeat' (first | assumption | with_reducible apply onCore_keeps)

theorem execVsigm_keeps {s0 s : State} (g : Nat) (d a : Reg) (vf : LaneFmt) (h0 : Keeps s0 s) : OutKeeps s0 (execVsigm g d a vf s) := by
  unfold execVsigm
  repeat' (first | assumption | with_reducible apply onCore_keeps)

theorem execVrsum_keeps {s0 s : State} (g : Nat) (d a : Reg) (vf : LaneFmt) (rm : Rounding) (h0 : Keeps s0 s) : OutKeeps s0 (execVrsum g d a vf rm s) := by
  unfold execVrsum
  repeat' (first | assumption | with_reducible apply onCore_keeps)

theorem execVrmax_keeps {s0 s : State} (g : Nat) (d a : Reg) (vf : LaneFmt) (h0 : Keeps s0 s) : OutKeeps s0 (execVrmax g d a vf s) := by
  unfold execVrmax
  repeat' (first | assumption | with_reducible apply onCore_keeps)

theorem execVrmin_keeps {s0 s : State} (g : Nat) (d a : Reg) (vf : LaneFmt) (h0 : Keeps s0 s) : OutKeeps s0 (execVrmin g d a vf s) := by
  unfold execVrmin
  repeat' (first | assumption | with_reducible apply onCore_keeps)

theorem execVcvt_keeps {s0 s : State} (g : Nat) (d a : Reg) (src vf : LaneFmt) (rm : Rounding) (h0 : Keeps s0 s) : OutKeeps s0 (execVcvt g d a src vf rm s) := by
  unfold execVcvt
  repeat' (first | assumption | with_reducible apply onCore_keeps)

theorem execVunpk_keeps {s0 s : State} (g : Nat) (d a b : Reg) (fmt : TileFmt) (part : Fin 4) (h0 : Keeps s0 s) : OutKeeps s0 (execVunpk g d a b fmt part s) := by
  unfold execVunpk
  repeat' (first | assumption | with_reducible apply onCore_keeps)

theorem execVld_keeps {s0 s : State} (g : Nat) (d a : Reg) (imm : Word) (h0 : Keeps s0 s) : OutKeeps s0 (execVld g d a imm s) := by
  unfold execVld
  repeat' (first | assumption | with_reducible apply onCore_keeps)

theorem execVst_keeps {s0 s : State} (g : Nat) (d a : Reg) (imm : Word) (h0 : Keeps s0 s) : OutKeeps s0 (execVst g d a imm s) := by
  unfold execVst
  repeat' (first | assumption | with_reducible apply onCore_keeps)

theorem execVldb_keeps {s0 s : State} (g : Nat) (d : Reg) (bank : Fin 16) (slot : Fin 8) (h0 : Keeps s0 s) : OutKeeps s0 (execVldb g d bank slot s) := by
  unfold execVldb
  repeat' (first | assumption | with_reducible apply onCore_keeps)

theorem execVstb_keeps {s0 s : State} (g : Nat) (d : Reg) (bank : Fin 16) (slot : Fin 8) (h0 : Keeps s0 s) : OutKeeps s0 (execVstb g d bank slot s) := by
  unfold execVstb
  repeat' (first | assumption | with_reducible apply onCore_keeps)

theorem execVqrd_keeps {s0 s : State} (g : Nat) (d : Reg) (q : Fin 8) (h0 : Keeps s0 s) : OutKeeps s0 (execVqrd g d q s) := by
  unfold execVqrd
  repeat' (first | assumption | with_reducible apply onCore_keeps)

theorem execVqwr_keeps {s0 s : State} (g : Nat) (a : Reg) (q : Fin 4) (first last : Bool) (h0 : Keeps s0 s) : OutKeeps s0 (execVqwr g a q first last s) := by
  unfold execVqwr
  repeat' (first | assumption | with_reducible apply onCore_keeps)

theorem execVbcs_keeps {s0 s : State} (g : Nat) (d a : Reg) (h0 : Keeps s0 s) : OutKeeps s0 (execVbcs g d a s) := by
  unfold execVbcs
  repeat' (first | assumption | with_reducible apply onCore_keeps)

theorem execVext_keeps {s0 s : State} (g : Nat) (d a : Reg) (lane : Fin 32) (h0 : Keeps s0 s) : OutKeeps s0 (execVext g d a lane s) := by
  unfold execVext
  repeat' (first | assumption | with_reducible apply onCore_keeps)

theorem execVins_keeps {s0 s : State} (g : Nat) (d a : Reg) (lane : Fin 32) (h0 : Keeps s0 s) : OutKeeps s0 (execVins g d a lane s) := by
  unfold execVins
  repeat' (first | assumption | with_reducible apply onCore_keeps)

theorem execVmov_keeps {s0 s : State} (g : Nat) (d a : Reg) (h0 : Keeps s0 s) : OutKeeps s0 (execVmov g d a s) := by
  unfold execVmov
  repeat' (first | assumption | with_reducible apply onCore_keeps)

theorem execViota_keeps {s0 s : State} (g : Nat) (d a : Reg) (h0 : Keeps s0 s) : OutKeeps s0 (execViota g d a s) := by
  unfold execViota
  repeat' (first | assumption | with_reducible apply onCore_keeps)

theorem bindSlot_keeps {s0 : State} (r : Req) (tag L : Nat) : ∀ (l : List TreeNode) (ts : List (Nat × Nat)) {s t : State},
    bindSlot r tag L l ts s = .ok t → Keeps s0 s → Keeps s0 t := by
  intro l
  induction l with
  | nil =>
    intro ts s t he h
    unfold bindSlot at he
    cases he
    exact h
  | cons n rest ih =>
    intro ts s t he h
    unfold bindSlot at he
    dsimp only at he
    split at he
    · cases he
    · exact ih _ he (modRouter_keeps _ _ h)

theorem bindSlots_keeps {s0 : State} (r : Req) (tag L m : Nat) (tr : List TreeNode) : ∀ (l : List Nat) {s t : State},
    bindSlots r tag L m tr l s = .ok t → Keeps s0 s → Keeps s0 t := by
  intro l
  induction l with
  | nil =>
    intro s t he h
    unfold bindSlots at he
    cases he
    exact h
  | cons i rest ih =>
    intro s t he h
    unfold bindSlots at he
    split at he
    · cases he
    · rename_i s1 h1
      exact ih he (bindSlot_keeps _ _ _ _ _ h1 h)

theorem bindRoute_keeps {s0 s t : State} {k policy limg tag : Nat} {l : List Nat} {r : Req}
    (he : bindRoute k policy limg r s = .ok (tag, l, t)) (h : Keeps s0 s) : Keeps s0 t := by
  unfold bindRoute at he
  dsimp only at he
  split at he
  · cases he
  · split at he
    · cases he
    · split at he
      · cases he
      · rename_i s1 h1
        cases he
        exact keeps_foldl (fun u n hu => keeps_foldl (fun v o hv => modRouter_keeps _ _ hv) hu) (bindSlots_keeps _ _ _ _ _ _ h1 h)

theorem bindList_keeps {s0 : State} (k policy limg : Nat) : ∀ (l : List (Option (Req × Option (Nat × Fin 4)))) (i : Nat) (acc : List Bound)
    {s t : State} {bs : List Bound}, bindList k policy limg l i acc s = .ok (bs, t) → Keeps s0 s → Keeps s0 t := by
  intro l
  induction l with
  | nil =>
    intro i acc s t bs he h
    unfold bindList at he
    cases he
    exact h
  | cons x rest ih =>
    intro i acc s t bs he h
    cases x with
    | none =>
      unfold bindList at he
      cases he
    | some x =>
      unfold bindList at he
      split at he
      · cases he
      · rename_i h1
        exact ih _ _ he (bindRoute_keeps h1 h)

theorem bindImage_keeps {s0 s t : State} {k : Nat} {im : Image} (he : bindImage k im s = .ok t) (h : Keeps s0 s) : Keeps s0 t := by
  unfold bindImage at he
  dsimp only at he
  split at he
  · cases he
  · rename_i h1
    split at he
    · cases he
    · rename_i h2
      split at he
      · cases he
      · rename_i h3
        cases he
        exact modPart_keeps _ _ (bindList_keeps _ _ _ _ _ _ h3 (bindList_keeps _ _ _ _ _ _ h2 (bindList_keeps _ _ _ _ _ _ h1 h)))

theorem allotChan_keeps {s0 s : State} (c : Chan) (h : Keeps s0 s) : Keeps s0 (allotChan s c) := by
  unfold allotChan
  generalize freeChan s = o
  cases o with
  | some i => exact setChan_keeps _ _ h
  | none => exact h

theorem allotChans_keeps {s0 s : State} (l : List Chan) (h : Keeps s0 s) : Keeps s0 (allotChans l s) :=
  keeps_foldl (fun _ _ hu => allotChan_keeps _ hu) h

theorem takeEps_keeps {s0 s : State} (k : Nat) (im : Image) (h0 : Keeps s0 s) : Keeps s0 (takeEps k im s) := by
  unfold takeEps
  repeat' (first | assumption | with_reducible apply setEp_keeps | with_reducible apply keeps_foldl | intro _)

theorem allotBar_keeps {s0 s : State} (c : BarObj) (h : Keeps s0 s) : Keeps s0 (allotBar s c) := by
  unfold allotBar
  split
  · exact setBar_keeps _ _ h
  · exact h

theorem allotBars_keeps {s0 s : State} (l : List BarObj) (h : Keeps s0 s) : Keeps s0 (allotBars l s) :=
  keeps_foldl (fun _ _ hu => allotBar_keeps _ hu) h

theorem putDescs_keeps {s0 s : State} (k : Nat) (im : Image) (h0 : Keeps s0 s) : Keeps s0 (putDescs k im s) := by
  unfold putDescs
  repeat' (first | assumption | with_reducible apply setEng_keeps | with_reducible apply keeps_foldl | intro _)

theorem putCtxs_keeps {s0 s : State} (k : Nat) (im : Image) (h0 : Keeps s0 s) : Keeps s0 (putCtxs k im s) := by
  unfold putCtxs
  repeat' (first | assumption | with_reducible apply setCtx_keeps | with_reducible apply keeps_foldl | intro _)

theorem allotGranules_keeps {s0 s : State} (k : Nat) (im : Image) (h0 : Keeps s0 s) : Keeps s0 (allotGranules k im s) :=
  closeWindow_keeps _ (keeps_foldl (fun u e hu => modPart_keeps _ _ (setEng_keeps _ _ hu)) h0)

theorem setMembers_keeps {s0 s : State} (k : Nat) (im : Image) (h0 : Keeps s0 s) : Keeps s0 (setMembers k im s) := by
  unfold setMembers
  repeat' (first | assumption | with_reducible apply modColl_keeps | with_reducible apply modPart_keeps | with_reducible apply keeps_foldl | intro _)

theorem admitImage_keeps {s0 s : State} (k : Nat) (im : Image) (h0 : Keeps s0 s) : Keeps s0 (admitImage k im s) :=
  setMembers_keeps _ _ (allotBars_keeps _ (allotChans_keeps _ (takeEps_keeps _ _ (putCtxs_keeps _ _ (putDescs_keeps _ _ h0)))))

theorem leaveEmpty_keeps {s0 s : State} (k : Nat) (h0 : Keeps s0 s) : Keeps s0 (leaveEmpty k s) := by
  unfold leaveEmpty
  repeat' (first | assumption | with_reducible apply endBindings_keeps | with_reducible apply keeps_foldl | split)

theorem beginLoad_keeps {s0 s : State} (c : Cmd) (im : Image) (key : Option JobKey) (h0 : Keeps s0 s) :
    Keeps s0 (beginLoad c im key s) := by
  unfold beginLoad
  have h1 := leaveEmpty_keeps c.part h0
  exact modPart_keeps _ _ (keeps_mk (admitImage_keeps _ _ (keeps_ite h1 (allotGranules_keeps _ _ h1))))

theorem execJobLoad_keeps {s0 s : State} (c : Cmd) (h0 : Keeps s0 s) : OutKeeps s0 (execJobLoad c s) := by
  unfold execJobLoad
  refine outKeeps_ite h0 (runCmd_keeps _ _ _ _ _ h0 ?_)
  intro t ht
  split
  · exact ht
  · split
    · exact ht
    · split
      · exact ht
      · rename_i s1 h1
        exact replyKeeps_ite ht (beginLoad_keeps _ _ _ (bindImage_keeps h1 ht))

theorem loadFailed_keeps {s0 s : State} (k : Nat) (h0 : Keeps s0 s) : Keeps s0 (loadFailed k s) := by
  unfold loadFailed
  repeat' (first | assumption | with_reducible apply releaseAll_keeps | with_reducible apply mapCores_keeps | with_reducible apply modPart_keeps | with_reducible apply readback_keeps | with_reducible apply newJobRate_keeps | with_reducible apply completeLong_keeps)

theorem execLoaderTile_keeps {s0 s : State} (g : Nat) (ok : Bool) (h0 : Keeps s0 s) : OutKeeps s0 (execLoaderTile g ok s) := by
  unfold execLoaderTile
  refine outKeeps_ite outKeeps_fault (outKeeps_next ?_)
  split
  · exact h0
  · exact keeps_ite h0 (keeps_ite (modPart_keeps _ _ (setCore_keeps _ _ h0)) (keeps_ite (loadFailed_keeps _ h0) (modPart_keeps _ _ h0)))

theorem loadedCore_keeps {s0 s1 : State} (s : State) (k : Nat) (im : Image) (r : CoreRec) (h0 : Keeps s0 s1) :
    Keeps s0 (loadedCore s k im s1 r) := setCore_keeps _ _ h0

theorem armCtxs_keeps {s0 s : State} (k : Nat) (h0 : Keeps s0 s) : Keeps s0 (armCtxs k s) := by
  unfold armCtxs
  repeat' (first | assumption | with_reducible apply mapCtxs_keeps)

theorem execJobLoadComplete_keeps {s0 s : State} (k : Fin 32) (h0 : Keeps s0 s) : OutKeeps s0 (execJobLoadComplete k s) := by
  unfold execJobLoadComplete
  refine outKeeps_next ?_
  split
  · refine keeps_ite ?_ h0
    exact newJobRate_keeps (completeLong_keeps _ _ _ (modPart_keeps _ _ (armCtxs_keeps _ (keeps_foldl (fun u r hu => loadedCore_keeps _ _ _ _ hu) h0))))
  · exact h0

theorem orderStart_keeps {s0 s : State} (k T : Nat) (h0 : Keeps s0 s) : Keeps s0 (orderStart k T s) := by
  unfold orderStart
  repeat' (first | assumption | with_reducible apply mapCores_keeps)

theorem execJobStart_keeps {s0 s : State} (c : Cmd) (h0 : Keeps s0 s) : OutKeeps s0 (execJobStart c s) := by
  unfold execJobStart
  repeat' (first | assumption | with_reducible apply runCmd_keeps | with_reducible apply modPart_keeps | with_reducible apply orderStart_keeps | with_reducible apply startCores_keeps | with_reducible apply broadcast_keeps | with_reducible apply replyKeeps_done | with_reducible apply replyKeeps_later | intro _ | split)

theorem execJobHold_keeps {s0 s : State} (c : Cmd) (h0 : Keeps s0 s) : OutKeeps s0 (execJobHold c s) := by
  unfold execJobHold
  repeat' (first | assumption | with_reducible apply runCmd_keeps | with_reducible apply hostHold_keeps | with_reducible apply replyKeeps_done | intro _)

theorem execJobResume_keeps {s0 s : State} (c : Cmd) (h0 : Keeps s0 s) : OutKeeps s0 (execJobResume c s) := by
  unfold execJobResume
  repeat' (first | assumption | with_reducible apply runCmd_keeps | with_reducible apply thaw_keeps | with_reducible apply modPart_keeps | with_reducible apply replyKeeps_done | intro _)

theorem execJobAbort_keeps {s0 s : State} (c : Cmd) (h0 : Keeps s0 s) : OutKeeps s0 (execJobAbort c s) := by
  unfold execJobAbort
  repeat' (first | assumption | with_reducible apply runCmd_keeps | with_reducible apply beginReset_keeps | with_reducible apply completeLong_keeps | with_reducible apply replyKeeps_later | intro _)

theorem execJobStatus_keeps {s0 s : State} (c : Cmd) (h0 : Keeps s0 s) : OutKeeps s0 (execJobStatus c s) := by
  unfold execJobStatus
  repeat' (first | assumption | with_reducible apply runCmd_keeps | intro _)

theorem execFlagSetCommand_keeps {s0 s : State} (c : Cmd) (h0 : Keeps s0 s) : OutKeeps s0 (execFlagSetCommand c s) := by
  unfold execFlagSetCommand
  repeat' (first | assumption | with_reducible apply runCmd_keeps | with_reducible apply sendCore_keeps | with_reducible apply replyKeeps_done | intro _)

theorem execJobEndOkComplete_keeps {s0 s : State} (k : Fin 32) (h0 : Keeps s0 s) : OutKeeps s0 (execJobEndOkComplete k s) := by
  unfold execJobEndOkComplete
  repeat' (first | assumption | with_reducible apply tearDown_keeps | with_reducible apply completeLong_keeps | with_reducible apply modPart_keeps | with_reducible apply newJobRate_keeps | with_reducible apply postJob_keeps | (extract_lets +onlyGivenNames zx; (first | ((first | refine keeps_cut (x := zx) ?_ ?_ | refine outKeeps_cut (x := zx) ?_ ?_ | refine replyKeeps_cut (x := zx) ?_ ?_); (on_goal 2 => (intro zh; clear_value zx)); (on_goal 1 => (dsimp -zeta only [zx]))) | skip)) | split)

theorem execJobSave_keeps {s0 s : State} (c : Cmd) (h0 : Keeps s0 s) : OutKeeps s0 (execJobSave c s) := by
  unfold execJobSave
  repeat' (first | assumption | with_reducible apply runCmd_keeps | with_reducible apply stopDbg_keeps | with_reducible apply modPart_keeps | with_reducible apply keeps_foldl | with_reducible apply replyKeeps_later | intro _ | split)

theorem giveUpSave_keeps {s0 s : State} (k : Nat) (l : Long) (h0 : Keeps s0 s) : Keeps s0 (giveUpSave k l s) := by
  unfold giveUpSave
  repeat' (first | assumption | with_reducible apply completeLong_keeps | with_reducible apply modPart_keeps)

theorem resumeSave_keeps {s0 s : State} (k : Nat) (l : Long) (h0 : Keeps s0 s) : Keeps s0 (resumeSave k l s) := by
  unfold resumeSave
  repeat' (first | assumption | with_reducible apply giveUpSave_keeps | with_reducible apply dropHalts_keeps | with_reducible apply resumeCore_keeps | with_reducible apply freeze_keeps | with_reducible apply keeps_foldl | with_reducible apply keeps_foldr | with_reducible apply outKeeps_next | with_reducible apply replyKeeps_done | with_reducible apply replyKeeps_later | with_reducible apply outKeeps_fault | intro _ | (extract_lets +onlyGivenNames zx; (first | ((first | refine keeps_cut (x := zx) ?_ ?_); (on_goal 2 => (intro zh; clear_value zx)); (on_goal 1 => (dsimp -zeta only [zx]))))) | with_reducible apply keeps_ite)

theorem execSaveSettleTimeout_keeps {s0 s : State} (k : Fin 32) (h0 : Keeps s0 s) : OutKeeps s0 (execSaveSettleTimeout k s) := by
  unfold execSaveSettleTimeout
  repeat' (first | assumption | with_reducible apply giveUpSave_keeps | with_reducible apply resumeSave_keeps | with_reducible apply keeps_foldl | with_reducible apply keeps_foldr | with_reducible apply outKeeps_next | with_reducible apply replyKeeps_done | with_reducible apply replyKeeps_later | with_reducible apply outKeeps_fault | intro _ | (extract_lets +onlyGivenNames zx; (first | ((first | refine keeps_cut (x := zx) ?_ ?_ | refine outKeeps_cut (x := zx) ?_ ?_ | refine replyKeeps_cut (x := zx) ?_ ?_); (on_goal 2 => (intro zh; clear_value zx)); (on_goal 1 => (dsimp -zeta only [zx]))) | skip)) | with_reducible apply keeps_ite | with_reducible apply outKeeps_ite | with_reducible apply replyKeeps_ite | split)

theorem execSaveHaltTimeout_keeps {s0 s : State} (k : Fin 32) (h0 : Keeps s0 s) : OutKeeps s0 (execSaveHaltTimeout k s) := by
  unfold execSaveHaltTimeout
  repeat' (first | assumption | with_reducible apply resumeSave_keeps | with_reducible apply keeps_foldl | with_reducible apply keeps_foldr | with_reducible apply outKeeps_next | with_reducible apply replyKeeps_done | with_reducible apply replyKeeps_later | with_reducible apply outKeeps_fault | intro _ | (extract_lets +onlyGivenNames zx; (first | ((first | refine keeps_cut (x := zx) ?_ ?_ | refine outKeeps_cut (x := zx) ?_ ?_ | refine replyKeeps_cut (x := zx) ?_ ?_); (on_goal 2 => (intro zh; clear_value zx)); (on_goal 1 => (dsimp -zeta only [zx]))) | skip)) | with_reducible apply keeps_ite | with_reducible apply outKeeps_ite | with_reducible apply replyKeeps_ite | split)

theorem saveCore_keeps {s0 s : State} (k : Nat) (im : Image) (icn : Nat) (h0 : Keeps s0 s) : Keeps s0 (saveCore k im s icn) := by
  unfold saveCore
  split
  · exact h0
  · extract_lets g c bs
    clear_value bs c
    refine keeps_foldl (fun u pi hu => ?_) (setCore_keeps _ _ h0)
    split
    · exact countLines_keeps _ _ _ _ (memWrite_keeps _ _ _ _ hu)
    · exact hu

theorem saveAll_keeps {s0 s : State} (k : Nat) (l : Long) (im : Image) (h0 : Keeps s0 s) : Keeps s0 (saveAll k l im s) := by
  unfold saveAll
  repeat' (first | assumption | with_reducible apply saveCore_keeps | with_reducible apply tearDown_keeps | with_reducible apply modPart_keeps | with_reducible apply keeps_foldl | with_reducible apply keeps_foldr | with_reducible apply outKeeps_next | with_reducible apply replyKeeps_done | with_reducible apply replyKeeps_later | with_reducible apply outKeeps_fault | intro _)

theorem execJobSaveComplete_keeps {s0 s : State} (k : Fin 32) (h0 : Keeps s0 s) : OutKeeps s0 (execJobSaveComplete k s) := by
  unfold execJobSaveComplete
  repeat' (first | assumption | with_reducible apply mapCores_keeps | with_reducible apply thaw_keeps | with_reducible apply sendHalts_keeps | with_reducible apply modPart_keeps | with_reducible apply saveAll_keeps | with_reducible apply newJobRate_keeps | with_reducible apply completeLong_keeps | with_reducible apply keeps_foldl | with_reducible apply keeps_foldr | with_reducible apply outKeeps_next | with_reducible apply replyKeeps_done | with_reducible apply replyKeeps_later | with_reducible apply outKeeps_fault | intro _ | (extract_lets +onlyGivenNames zx; (first | ((first | refine keeps_cut (x := zx) ?_ ?_ | refine outKeeps_cut (x := zx) ?_ ?_ | refine replyKeeps_cut (x := zx) ?_ ?_); (on_goal 2 => (intro zh; clear_value zx)); (on_goal 1 => (dsimp -zeta only [zx]))) | skip)) | with_reducible apply keeps_ite | with_reducible apply outKeeps_ite | with_reducible apply replyKeeps_ite | split)

theorem backColls_keeps {s0 s : State} (k : Nat) (r : SaveRec) (h0 : Keeps s0 s) : Keeps s0 (backColls k r s) := by
  unfold backColls
  repeat' (first | assumption | with_reducible apply modColl_keeps | with_reducible apply keeps_foldl | with_reducible apply keeps_foldr | with_reducible apply outKeeps_next | with_reducible apply replyKeeps_done | with_reducible apply replyKeeps_later | with_reducible apply outKeeps_fault | intro _)

theorem readmit_keeps {s0 s : State} (k : Nat) (im : Image) (r : SaveRec) (h0 : Keeps s0 s) : Keeps s0 (readmit k im r s) := by
  unfold readmit
  repeat' (first | assumption | with_reducible apply takeEps_keeps | with_reducible apply putCtxs_keeps | with_reducible apply putDescs_keeps | with_reducible apply backColls_keeps | with_reducible apply setMembers_keeps | with_reducible apply allotBars_keeps | with_reducible apply allotChans_keeps | with_reducible apply modPart_keeps)

theorem execJobRestore_keeps {s0 s : State} (c : Cmd) (h0 : Keeps s0 s) : OutKeeps s0 (execJobRestore c s) := by
  unfold execJobRestore
  refine outKeeps_ite h0 (runCmd_keeps _ _ _ _ _ h0 ?_)
  intro t ht
  split
  · exact ht
  · split
    · exact ht
    · split
      · exact ht
      · rename_i s1 h1
        exact replyKeeps_ite ht (modPart_keeps _ _ (readmit_keeps _ _ _ (bindImage_keeps h1 ht)))

theorem backCtx_keeps {s0 s : State} (k : Nat) (x : Nat × Nat × Ctx) (h0 : Keeps s0 s) : Keeps s0 (backCtx k s x) := by
  unfold backCtx
  repeat' (first | assumption | with_reducible apply setCtx_keeps)

theorem execJobRestoreComplete_keeps {s0 s : State} (k : Fin 32) (h0 : Keeps s0 s) : OutKeeps s0 (execJobRestoreComplete k s) := by
  unfold execJobRestoreComplete
  repeat' (first | assumption | with_reducible apply setCore_keeps | with_reducible apply backCtx_keeps | with_reducible apply newJobRate_keeps | with_reducible apply completeLong_keeps | with_reducible apply modPart_keeps | with_reducible apply keeps_foldl | intro _ | (extract_lets +onlyGivenNames zx; (first | ((first | refine keeps_cut (x := zx) ?_ ?_ | refine outKeeps_cut (x := zx) ?_ ?_ | refine replyKeeps_cut (x := zx) ?_ ?_); (on_goal 2 => (intro zh; clear_value zx)); (on_goal 1 => (dsimp -zeta only [zx]))) | skip)) | split)

theorem execJobExport_keeps {s0 s : State} (c : Cmd) (h0 : Keeps s0 s) : OutKeeps s0 (execJobExport c s) :=
  by
  unfold execJobExport
  refine runCmd_keeps _ _ _ _ _ h0 ?_
  intro t ht
  have h1 : Keeps s0 (freshKey t).2 := keeps_mk ht
  exact modPart_keeps _ _ h1

theorem execJobExportComplete_keeps {s0 s : State} (k : Fin 32) (h0 : Keeps s0 s) : OutKeeps s0 (execJobExportComplete k s) := by
  unfold execJobExportComplete
  repeat' (first | assumption | with_reducible apply completeLong_keeps | with_reducible apply keeps_foldl | with_reducible apply outKeeps_next | split | with_reducible refine keeps_plain ?_ | with_reducible refine keeps_mk ?_)

theorem execJobImport_keeps {s0 s : State} (c : Cmd) (h0 : Keeps s0 s) : OutKeeps s0 (execJobImport c s) := by
  unfold execJobImport
  refine outKeeps_ite h0 (runCmd_keeps _ _ _ _ _ h0 ?_)
  intro t ht
  split
  · split
    · exact ht
    · exact modPart_keeps _ _ (allotGranules_keeps _ _ (leaveEmpty_keeps _ ht))
  · exact ht

theorem execJobImportComplete_keeps {s0 s : State} (k : Fin 32) (h0 : Keeps s0 s) : OutKeeps s0 (execJobImportComplete k s) := by
  unfold execJobImportComplete
  repeat' (first | assumption | with_reducible apply completeLong_keeps | with_reducible apply modPart_keeps | with_reducible apply keeps_foldl | with_reducible apply outKeeps_next | split)

end Sys2Proof.Machine
end

