-- ==== Sys2Proof/Laws/KeepsService.lean ====
section
/-! SUPPORT. What no command touches, for security, registers, bring-up, debugging, matrices, the engines and the reload: the queue, the fuse counters and the
canonical form of every table. -/

namespace Sys2Proof.Machine

set_option Elab.async false

theorem spdmError_keeps {s0 s : State} (code : Byte) (h0 : Keeps s0 s) : Keeps s0 (spdmError code s) := by
  unfold spdmError
  repeat' (first | assumption | with_reducible apply say_keeps)

theorem vendorAnswer_keeps {s0 s : State} (code status : Nat) (h0 : Keeps s0 s) : Keeps s0 (vendorAnswer code status s) := by
  unfold vendorAnswer
  repeat' (first | assumption | with_reducible apply say_keeps)

theorem vendor_keeps {s0 s : State} (n : Fin 49) (code : Nat) (checks : Session → List (Bool × Nat)) (f : State → State)
    (h0 : Keeps s0 s) (hf : Keeps s0 (f s)) : OutKeeps s0 (vendor n code checks f s) := by
  unfold vendor
  refine outKeeps_next (keeps_ite h0 ?_)
  split
  · exact spdmError_keeps _ h0
  · split
    · exact vendorAnswer_keeps _ _ h0
    · exact vendorAnswer_keeps _ _ hf

theorem unbind_keeps {s0 s : State} (q : Nat) (h0 : Keeps s0 s) : Keeps s0 (unbind q s) := by
  unfold unbind
  exact setQp_keeps _ _ (endPair_keeps _ (keeps_foldl (fun u k hu => keeps_ite (closeWindow_keeps _ hu) hu) h0))

theorem execBindQp_keeps {s0 s : State} (n : Fin 49) (pair role prin : Byte) (resv : Bool) (grant : List Byte) (h0 : Keeps s0 s) : OutKeeps s0 (execBindQp n pair role prin resv grant s) := by
  unfold execBindQp
  exact vendor_keeps _ _ _ _ h0 (setQp_keeps _ _ (endPair_keeps _ h0))

theorem execUnbindQp_keeps {s0 s : State} (n : Fin 49) (pair : Byte) (h0 : Keeps s0 s) : OutKeeps s0 (execUnbindQp n pair s) :=
  vendor_keeps _ _ _ _ h0 (unbind_keeps _ h0)

theorem closeSession_keeps {s0 s : State} (n : Nat) (h0 : Keeps s0 s) : Keeps s0 (closeSession n s) := by
  unfold closeSession
  repeat' (first | assumption | with_reducible apply unbind_keeps | with_reducible apply keeps_foldl | split | with_reducible refine keeps_plain ?_)

theorem execEndSession_keeps {s0 s : State} (n : Fin 48) (h0 : Keeps s0 s) : OutKeeps s0 (execEndSession n s) := by
  unfold execEndSession
  repeat' (first | assumption | with_reducible apply spdmError_keeps | with_reducible apply say_keeps | with_reducible apply closeSession_keeps | with_reducible apply outKeeps_next | split)

theorem execHeartbeatMissed_keeps {s0 s : State} (n : Fin 48) (h0 : Keeps s0 s) : OutKeeps s0 (execHeartbeatMissed n s) := by
  unfold execHeartbeatMissed
  repeat' (first | assumption | with_reducible apply closeSession_keeps | with_reducible apply outKeeps_next | split)

theorem setEnrol_keeps {s0 s : State} (prin : Nat) (h : Option (BitVec 512)) (h0 : Keeps s0 s) : Keeps s0 (setEnrol prin h s) := by
  unfold setEnrol
  repeat' (first | assumption | split | with_reducible refine keeps_plain ?_)

theorem execTenantEnrol_keeps {s0 s : State} (n : Fin 49) (prin : Byte) (h : BitVec 512) (h0 : Keeps s0 s) : OutKeeps s0 (execTenantEnrol n prin h s) :=
  vendor_keeps _ _ _ _ h0 (setEnrol_keeps _ _ h0)

theorem execTenantRevoke_keeps {s0 s : State} (n : Fin 49) (prin : Byte) (h0 : Keeps s0 s) : OutKeeps s0 (execTenantRevoke n prin s) :=
  vendor_keeps _ _ _ _ h0 (setEnrol_keeps _ _ h0)

theorem execKeyStage_keeps {s0 s : State} (n : Fin 49) (part : Byte) (jk : List Byte) (h0 : Keeps s0 s) : OutKeeps s0 (execKeyStage n part jk s) := by
  unfold execKeyStage
  exact vendor_keeps _ _ _ _ h0 (modPart_keeps _ _ h0)

theorem execKeyExchange_keeps {s0 s : State} (mauth : Bool) (key root : BitVec 512) (h0 : Keeps s0 s) : OutKeeps s0 (execKeyExchange mauth key root s) := by
  unfold execKeyExchange
  repeat' (first | assumption | with_reducible apply spdmError_keeps | with_reducible apply say_keeps | with_reducible apply outKeeps_next | split | with_reducible refine keeps_plain ?_)

theorem inSession_keeps {s0 s : State} (n : Nat) (code : Byte) (f : Session → Session) (h0 : Keeps s0 s) : OutKeeps s0 (inSession n code f s) := by
  unfold inSession
  repeat' (first | assumption | with_reducible apply spdmError_keeps | with_reducible apply say_keeps | with_reducible apply outKeeps_next | split | with_reducible refine keeps_plain ?_)

theorem execHeartbeat_keeps {s0 s : State} (n : Fin 48) (h0 : Keeps s0 s) : OutKeeps s0 (execHeartbeat n s) := by
  unfold execHeartbeat
  repeat' (first | assumption | with_reducible apply inSession_keeps)

theorem execKeyUpdate_keeps {s0 s : State} (n : Fin 48) (h0 : Keeps s0 s) : OutKeeps s0 (execKeyUpdate n s) := by
  unfold execKeyUpdate
  repeat' (first | assumption | with_reducible apply inSession_keeps)

theorem execGetCertificate_keeps {s0 s : State} (slot : Byte) (h0 : Keeps s0 s) : OutKeeps s0 (execGetCertificate slot s) := by
  unfold execGetCertificate
  repeat' (first | assumption | with_reducible apply say_keeps | with_reducible apply spdmError_keeps | with_reducible apply outKeeps_next | split)

theorem execChallenge_keeps {s0 s : State} (slot : Byte) (h0 : Keeps s0 s) : OutKeeps s0 (execChallenge slot s) := by
  unfold execChallenge
  repeat' (first | assumption | with_reducible apply say_keeps | with_reducible apply spdmError_keeps | with_reducible apply outKeeps_next | split)

theorem execGetMeasurements_keeps {s0 s : State} (n : Fin 49) (index : Byte) (h0 : Keeps s0 s) : OutKeeps s0 (execGetMeasurements n index s) := by
  unfold execGetMeasurements
  repeat' (first | assumption | with_reducible apply spdmError_keeps | with_reducible apply say_keeps | with_reducible apply outKeeps_next | split)

theorem execCxlIdeKm_keeps {s0 s : State} (n : Fin 49) (io mem : Bool) (h0 : Keeps s0 s) : OutKeeps s0 (execCxlIdeKm n io mem s) := by
  unfold execCxlIdeKm
  repeat' (first | assumption | with_reducible apply say_keeps | with_reducible apply spdmError_keeps | with_reducible apply outKeeps_next | split | with_reducible refine keeps_plain ?_)

theorem mailbox_keeps {s0 s : State} (op a : Nat) (h0 : Keeps s0 s) : OutKeeps s0 (mailbox op a s) := by
  unfold mailbox
  repeat' (first | assumption | with_reducible apply say_keeps | with_reducible apply outKeeps_next | split | with_reducible refine keeps_plain ?_)

theorem execIdentifyMemoryDevice_keeps {s0 s : State}  (h0 : Keeps s0 s) : OutKeeps s0 (execIdentifyMemoryDevice s) := by
  unfold execIdentifyMemoryDevice
  repeat' (first | assumption | with_reducible apply mailbox_keeps)

theorem execGetHealthInfo_keeps {s0 s : State}  (h0 : Keeps s0 s) : OutKeeps s0 (execGetHealthInfo s) := by
  unfold execGetHealthInfo
  repeat' (first | assumption | with_reducible apply mailbox_keeps)

theorem execGetSupportedLogs_keeps {s0 s : State}  (h0 : Keeps s0 s) : OutKeeps s0 (execGetSupportedLogs s) := by
  unfold execGetSupportedLogs
  repeat' (first | assumption | with_reducible apply mailbox_keeps)

theorem execGetLog_keeps {s0 s : State} (log : Nat) (h0 : Keeps s0 s) : OutKeeps s0 (execGetLog log s) := by
  unfold execGetLog
  repeat' (first | assumption | with_reducible apply say_keeps | with_reducible apply mailbox_keeps | with_reducible apply keeps_foldl | with_reducible apply keeps_foldr | with_reducible apply outKeeps_next | with_reducible apply replyKeeps_done | with_reducible apply replyKeeps_later | with_reducible apply outKeeps_fault | intro _ | (extract_lets +onlyGivenNames zx; (first | ((first | refine keeps_cut (x := zx) ?_ ?_ | refine outKeeps_cut (x := zx) ?_ ?_ | refine replyKeeps_cut (x := zx) ?_ ?_); (on_goal 2 => (intro zh; clear_value zx)); (on_goal 1 => (dsimp -zeta only [zx]))) | skip)) | with_reducible apply keeps_ite | with_reducible apply outKeeps_ite)

theorem licencePorts_keeps {s0 s : State} (old new : Nat) (h0 : Keeps s0 s) : Keeps s0 (licencePorts old new s) := by
  unfold licencePorts
  repeat' (first | assumption | with_reducible apply setPort_keeps | with_reducible apply keeps_foldl | intro _ | with_reducible apply keeps_ite)

theorem calibrateRim_keeps {s0 s : State}  (h0 : Keeps s0 s) : Keeps s0 (calibrateRim s) := by
  unfold calibrateRim
  repeat' (first | assumption | split | with_reducible refine keeps_plain ?_ | with_reducible refine keeps_mk ?_)

theorem installLicence_keeps {s0 s : State} (floor : Nat) (l : Licence) (h0 : Keeps s0 s) : Keeps s0 (installLicence floor l s) := by
  unfold installLicence
  have h1 : Keeps s0 (if l.ports = licPorts s then s else calibrateRim s) := keeps_ite h0 (calibrateRim_keeps h0)
  have h2 := Fuses.le_lic floor h0.fuse
  exact licencePorts_keeps _ _ ⟨h2, h1.pending, fun q => { h1.canon q with }⟩

theorem execLicenceInstall_keeps {s0 s : State} (c : Cmd) (h0 : Keeps s0 s) : OutKeeps s0 (execLicenceInstall c s) := by
  unfold execLicenceInstall
  repeat' (first | assumption | with_reducible apply runCmd_keeps | with_reducible apply installLicence_keeps | with_reducible apply replyKeeps_done | intro _ | split)

theorem execTestpackLoad_keeps {s0 s : State} (c : Cmd) (h0 : Keeps s0 s) : OutKeeps s0 (execTestpackLoad c s) := by
  unfold execTestpackLoad
  refine runCmd_keeps _ _ _ _ _ h0 ?_
  intro t ht
  refine replyKeeps_done ?_
  split
  · exact ⟨Fuses.le_tp _ ht.fuse, ht.pending, fun q => { ht.canon q with }⟩
  · exact ht

theorem execModQuery_keeps {s0 s : State} (c : Cmd) (h0 : Keeps s0 s) : OutKeeps s0 (execModQuery c s) := by
  unfold execModQuery
  repeat' (first | assumption | with_reducible apply runCmd_keeps | intro _)

theorem execPowerCap_keeps {s0 s : State} (c : Cmd) (h0 : Keeps s0 s) : OutKeeps s0 (execPowerCap c s) := by
  unfold execPowerCap
  repeat' (first | assumption | with_reducible apply runCmd_keeps | with_reducible apply applyCap_keeps | with_reducible apply logCap_keeps | with_reducible apply replyKeeps_done | intro _ | split | with_reducible refine keeps_plain ?_ | with_reducible refine keeps_mk ?_)

theorem execModPark_keeps {s0 s : State} (c : Cmd) (h0 : Keeps s0 s) : OutKeeps s0 (execModPark c s) := by
  unfold execModPark
  repeat' (first | assumption | with_reducible apply runCmd_keeps | with_reducible apply park_keeps | with_reducible apply replyKeeps_done | intro _ | split)

theorem execModUnpark_keeps {s0 s : State} (c : Cmd) (h0 : Keeps s0 s) : OutKeeps s0 (execModUnpark c s) := by
  unfold execModUnpark
  repeat' (first | assumption | with_reducible apply runCmd_keeps | with_reducible apply wakeIfClear_keeps | with_reducible apply replyKeeps_done | intro _ | split | with_reducible refine keeps_plain ?_ | with_reducible refine keeps_mk ?_)

theorem execEnergyReadWindow_keeps {s0 s : State} (c : Cmd) (h0 : Keeps s0 s) : OutKeeps s0 (execEnergyReadWindow c s) := by
  unfold execEnergyReadWindow
  repeat' (first | assumption | with_reducible apply runCmd_keeps | with_reducible apply replyKeeps_done | intro _ | (extract_lets +onlyGivenNames zx; (first | ((first | refine keeps_cut (x := zx) ?_ ?_ | refine outKeeps_cut (x := zx) ?_ ?_ | refine replyKeeps_cut (x := zx) ?_ ?_); (on_goal 2 => (intro zh; clear_value zx)); (on_goal 1 => (dsimp -zeta only [zx]))) | skip)) | split | dsimp -zeta only | with_reducible refine keeps_plain ?_)

theorem execEnergySetWindow_keeps {s0 s : State} (c : Cmd) (h0 : Keeps s0 s) : OutKeeps s0 (execEnergySetWindow c s) := by
  unfold execEnergySetWindow
  repeat' (first | assumption | with_reducible apply runCmd_keeps | with_reducible apply modMeter_keeps | with_reducible apply replyKeeps_done | intro _ | split)

theorem execEnergyReadModule_keeps {s0 s : State} (c : Cmd) (h0 : Keeps s0 s) : OutKeeps s0 (execEnergyReadModule c s) := by
  unfold execEnergyReadModule
  repeat' (first | assumption | with_reducible apply runCmd_keeps | intro _ | split)

theorem nextRt_keeps {s0 s : State}  (h0 : Keeps s0 s) : Keeps s0 (nextRt s) := by
  unfold nextRt
  repeat' (first | assumption | with_reducible apply keeps_foldl | split | with_reducible refine keeps_plain ?_)

theorem readEffect_keeps {s0 s : State} (block off : Nat) (h0 : Keeps s0 s) : Keeps s0 (readEffect block off s) := by
  unfold readEffect
  repeat' (first | assumption | with_reducible apply nextRt_keeps | with_reducible apply setEng_keeps | with_reducible apply keeps_foldl | split | with_reducible refine keeps_plain ?_ | with_reducible refine keeps_mk ?_)

theorem meshError_keeps {s0 s : State} (bit g : Nat) (h0 : Keeps s0 s) : Keeps s0 (meshError bit g s) := by
  unfold meshError
  repeat' (first | assumption | with_reducible apply keeps_foldl | split | with_reducible refine keeps_plain ?_)

theorem writeSlotHalf_keeps {s0 s : State} (g i : Nat) (high : Bool) (v : Word) (h0 : Keeps s0 s) : Keeps s0 (writeSlotHalf g i high v s) := by
  unfold writeSlotHalf
  repeat' (first | assumption | with_reducible apply meshError_keeps | with_reducible apply setRouter_keeps | with_reducible apply keeps_foldl | split | with_reducible refine keeps_plain ?_)

theorem rtWrite_keeps {s0 s : State} (g a : Nat) (v : Word) (h0 : Keeps s0 s) : Keeps s0 (rtWrite g a v s) := by
  unfold rtWrite
  repeat' (first | assumption | with_reducible apply setRouter_keeps | with_reducible apply writeSlotHalf_keeps | with_reducible apply keeps_foldl | split)

theorem execRtData_keeps {s0 s : State} (wr : Option Word) (h0 : Keeps s0 s) : OutKeeps s0 (execRtData wr s) := by
  unfold execRtData
  repeat' (first | assumption | with_reducible apply nextRt_keeps | with_reducible apply rtWrite_keeps | with_reducible apply keeps_foldl | with_reducible apply outKeeps_next | split)

theorem beginPeriod_keeps {s0 s : State} (lcode : Nat) (h0 : Keeps s0 s) : Keeps s0 (beginPeriod lcode s) := by
  unfold beginPeriod
  repeat' (first | assumption | with_reducible apply keeps_foldl | split | with_reducible refine keeps_plain ?_ | with_reducible refine keeps_mk ?_)

theorem execMeshCfg_keeps {s0 s : State} (v : Word) (h0 : Keeps s0 s) : OutKeeps s0 (execMeshCfg v s) := by
  unfold execMeshCfg
  repeat' (first | assumption | with_reducible apply beginPeriod_keeps | with_reducible apply keeps_foldl | with_reducible apply outKeeps_next | split)

theorem endMeshCmd_keeps {s0 s : State}  (h0 : Keeps s0 s) : Keeps s0 (endMeshCmd s) := by
  unfold endMeshCmd
  repeat' (first | assumption | with_reducible apply complete_keeps | with_reducible apply keeps_foldl | with_reducible apply keeps_foldr | with_reducible apply outKeeps_next | with_reducible apply replyKeeps_done | with_reducible apply replyKeeps_later | with_reducible apply outKeeps_fault | intro _ | (extract_lets +onlyGivenNames zx; (first | ((first | refine keeps_cut (x := zx) ?_ ?_ | refine outKeeps_cut (x := zx) ?_ ?_ | refine replyKeeps_cut (x := zx) ?_ ?_); (on_goal 2 => (intro zh; clear_value zx)); (on_goal 1 => (dsimp -zeta only [zx]))) | skip)) | with_reducible apply keeps_ite | with_reducible apply outKeeps_ite | with_reducible apply replyKeeps_ite | split | dsimp -zeta only | with_reducible refine keeps_plain ?_ | with_reducible refine keeps_mk ?_)

theorem execLcodeChangeApply_keeps {s0 s : State} (h0 : Keeps s0 s) : OutKeeps s0 (execLcodeChangeApply s) := by
  unfold execLcodeChangeApply
  refine outKeeps_next ?_
  generalize (computeLanes s).mesh.cwMax = w
  split
  · refine keeps_ite h0 ?_
    extract_lets m s1
    have h1 : Keeps s0 s1 := endMeshCmd_keeps (keeps_ite (keeps_plain h0) h0)
    clear_value s1
    exact keeps_ite (keeps_mk h1) h1
  · exact h0

theorem after_keeps {s0 s : State} (o : Out) (h0 : Keeps s0 s) (ho : OutKeeps s0 o) : Keeps s0 (after s o) := by
  unfold after
  cases o with
  | next t => exact ho
  | fault f => exact h0
  | refused r => exact h0

theorem tideWrite_keeps {s0 s : State} (off : Nat) (v : Word) (h0 : Keeps s0 s) : Keeps s0 (tideWrite off v s) := by
  unfold tideWrite
  repeat' (first | assumption | with_reducible apply after_keeps | with_reducible apply execTideArmGo_keeps | with_reducible apply raiseHold_keeps | with_reducible apply releaseHold_keeps | with_reducible apply clearCauses_keeps | with_reducible apply leaveTide_keeps | with_reducible apply setSluice_keeps | with_reducible apply keeps_foldl | intro _ | split | with_reducible refine keeps_plain ?_)

theorem meshWrite_keeps {s0 s : State} (off : Nat) (v : Word) (h0 : Keeps s0 s) : Keeps s0 (meshWrite off v s) := by
  unfold meshWrite
  repeat' (first | assumption | with_reducible apply after_keeps | with_reducible apply execMeshCfg_keeps | with_reducible apply execRtData_keeps | with_reducible apply keeps_foldl | split | with_reducible refine keeps_plain ?_)

theorem streamWrite_keeps {s0 s : State} (off : Nat) (v : Word) (h0 : Keeps s0 s) : Keeps s0 (streamWrite off v s) := by
  unfold streamWrite
  repeat' (first | assumption | with_reducible apply setEng_keeps | with_reducible apply keeps_foldl | split)

theorem portCtrl_keeps {s0 s : State} (p : Nat) (v : Word) (h0 : Keeps s0 s) : Keeps s0 (portCtrl p v s) := by
  unfold portCtrl
  repeat' (first | assumption | with_reducible apply after_keeps | with_reducible apply execPortCtrlDisable_keeps | with_reducible apply execPortCtrlRetrain_keeps | with_reducible apply keeps_foldl | split)

theorem capWrite_keeps {s0 s : State} (off : Nat) (v : Word) (h0 : Keeps s0 s) : Keeps s0 (capWrite off v s) := by
  unfold capWrite
  repeat' (first | assumption | with_reducible apply modPwr_keeps | with_reducible apply keeps_foldl | split | with_reducible refine keeps_plain ?_ | with_reducible refine keeps_mk ?_)

theorem qpWrite_keeps {s0 s : State} (off : Nat) (v : Word) (h0 : Keeps s0 s) : Keeps s0 (qpWrite off v s) := by
  unfold qpWrite
  repeat' (first | assumption | with_reducible apply setQp_keeps | with_reducible apply after_keeps | with_reducible apply execQpEnable_keeps | with_reducible apply keeps_foldl | split | with_reducible refine keeps_plain ?_)

theorem chidexWrite_keeps {s0 s : State} (off : Nat) (v : Word) (h0 : Keeps s0 s) : Keeps s0 (chidexWrite off v s).2 := by
  unfold chidexWrite
  dsimp only
  split
  · exact writeCxCfg_keeps _ h0
  · exact writeEpoch_keeps _ h0
  · exact keeps_ite2 h0 (keeps_mk h0)
  · exact keeps_mk h0
  · exact writeTable_keeps _ h0
  · exact keeps_ite (portCtrl_keeps _ _ h0) h0

theorem fwWrite_keeps {s0 s : State} (block off : Nat) (v : Word) (h0 : Keeps s0 s) : Keeps s0 (fwWrite block off v s) := by
  unfold fwWrite
  split
  · exact tideWrite_keeps _ _ h0
  · exact meshWrite_keeps _ _ h0
  · exact streamWrite_keeps _ _ h0
  · exact chidexWrite_keeps _ _ h0
  · exact keeps_ite (after_keeps _ h0 (execPanCtrlOff_keeps _ h0)) h0
  · exact capWrite_keeps _ _ h0
  · exact qpWrite_keeps _ _ h0
  · exact h0

theorem execFirmwareRegisterWrite_keeps {s0 s : State} (block : Fin 8) (off : BitVec 16) (v : Word) (h0 : Keeps s0 s) : OutKeeps s0 (execFirmwareRegisterWrite block off v s) := by
  unfold execFirmwareRegisterWrite
  repeat' (first | assumption | with_reducible apply fwWrite_keeps | with_reducible apply keeps_foldl | with_reducible apply outKeeps_next | split)

theorem regRead_keeps {s0 : State} (block : Nat) : ∀ (n off : Nat) {s : State}, Keeps s0 s → Keeps s0 (regRead block n off s).2 := by
  intro n
  induction n with
  | zero => exact fun _ _ h => h
  | succ n ih =>
    intro off s h
    exact ih _ (readEffect_keeps _ _ h)

theorem execRegRead_keeps {s0 s : State} (c : Cmd) (h0 : Keeps s0 s) : OutKeeps s0 (execRegRead c s) := by
  unfold execRegRead
  refine runCmd_keeps _ _ _ _ _ h0 ?_
  intro t ht
  have h1 := regRead_keeps (argFld c 0 0 2) (argFld c 1 0 3 + 1) (argFld c 0 16 16) ht
  exact h1

theorem execRegWrite_keeps {s0 s : State} (c : Cmd) (h0 : Keeps s0 s) : OutKeeps s0 (execRegWrite c s) := by
  unfold execRegWrite
  refine runCmd_keeps _ _ _ _ _ h0 ?_
  intro t ht
  have h1 := keeps_foldl (f := fun s (w : Nat × Word) => fwWrite (regArgs c).1 w.1 w.2 s) (l := regWords c) (fun u w hu => fwWrite_keeps _ _ _ hu) ht
  exact replyKeeps_ite (replyKeeps_later (keeps_mk h1)) (replyKeeps_done h1)

theorem execPowerGood_keeps {s0 s : State}  (h0 : Keeps s0 s) : OutKeeps s0 (execPowerGood s) := by
  unfold execPowerGood
  repeat' (first | assumption | with_reducible apply keeps_foldl | with_reducible apply keeps_foldr | with_reducible apply outKeeps_next | with_reducible apply replyKeeps_done | with_reducible apply replyKeeps_later | with_reducible apply outKeeps_fault | intro _ | (extract_lets +onlyGivenNames zx; (first | ((first | refine keeps_cut (x := zx) ?_ ?_ | refine outKeeps_cut (x := zx) ?_ ?_ | refine replyKeeps_cut (x := zx) ?_ ?_); (on_goal 2 => (intro zh; clear_value zx)); (on_goal 1 => (dsimp -zeta only [zx]))) | skip)) | with_reducible apply keeps_ite | with_reducible apply outKeeps_ite | with_reducible apply replyKeeps_ite | split | dsimp -zeta only | with_reducible refine keeps_plain ?_ | with_reducible refine keeps_mk ?_)

theorem execFundamentalReset_keeps {s0 s : State}  (h0 : Keeps s0 s) : OutKeeps s0 (execFundamentalReset s) := by
  unfold execFundamentalReset
  repeat' (first | assumption | with_reducible apply moduleReset_keeps | (extract_lets +onlyGivenNames zx; (first | ((first | refine keeps_cut (x := zx) ?_ ?_ | refine outKeeps_cut (x := zx) ?_ ?_ | refine replyKeeps_cut (x := zx) ?_ ?_); (on_goal 2 => (intro zh; clear_value zx)); (on_goal 1 => (dsimp -zeta only [zx]))) | skip)) | split | dsimp -zeta only | with_reducible refine keeps_plain ?_ | with_reducible refine keeps_mk ?_)

theorem bringDark_keeps {s0 s : State} (p : Nat) (h0 : Keeps s0 s) : Keeps s0 (bringDark p s) := by
  unfold bringDark
  repeat' (first | assumption | with_reducible apply suspect_keeps | with_reducible apply leaveTide_keeps | with_reducible apply modPwr_keeps)

theorem bringShort_keeps {s0 s : State} (p : Nat) (h0 : Keeps s0 s) : Keeps s0 (bringShort p s) := by
  unfold bringShort
  repeat' (first | assumption | with_reducible apply pldm_keeps | with_reducible apply suspect_keeps | with_reducible apply leaveTide_keeps | with_reducible apply modPwr_keeps)

theorem execPanGroupSwitchOn_keeps {s0 s : State} (g : Fin 12) (stages : Stages) (h0 : Keeps s0 s) : OutKeeps s0 (execPanGroupSwitchOn g stages s) := by
  unfold execPanGroupSwitchOn
  repeat' (first | assumption | with_reducible apply bringShort_keeps | with_reducible apply bringDark_keeps | with_reducible apply modPwr_keeps | with_reducible apply keeps_foldl | with_reducible apply keeps_foldr | with_reducible apply outKeeps_next | with_reducible apply replyKeeps_done | with_reducible apply replyKeeps_later | with_reducible apply outKeeps_fault | intro _ | (extract_lets +onlyGivenNames zx; (first | ((first | refine keeps_cut (x := zx) ?_ ?_ | refine outKeeps_cut (x := zx) ?_ ?_ | refine replyKeeps_cut (x := zx) ?_ ?_); (on_goal 2 => (intro zh; clear_value zx)); (on_goal 1 => (dsimp -zeta only [zx]))) | skip)) | with_reducible apply keeps_ite | with_reducible apply outKeeps_ite | with_reducible apply replyKeeps_ite | split | dsimp -zeta only | with_reducible refine keeps_plain ?_)

theorem execCxlLinkUp_keeps {s0 s : State} (width : Fin 3) (h0 : Keeps s0 s) : OutKeeps s0 (execCxlLinkUp width s) := by
  unfold execCxlLinkUp
  repeat' (first | assumption | with_reducible apply postAlarm_keeps | with_reducible apply outKeeps_next | split | with_reducible refine keeps_plain ?_ | with_reducible refine keeps_mk ?_)

theorem startFirmware_keeps {s0 s : State} (image : List Byte) (h0 : Keeps s0 s) : Keeps s0 (startFirmware image s) := by
  unfold startFirmware
  exact licencePorts_keeps _ _ ⟨Fuses.le_fw _ h0.fuse, h0.pending, fun q => { h0.canon q with }⟩

theorem execBootOffer_keeps {s0 s : State} (resv : Bool) (addr : BitVec 64) (len : Word) (image : List Byte) (h0 : Keeps s0 s) :
    OutKeeps s0 (execBootOffer resv addr len image s) :=
  outKeeps_next (keeps_ite h0 (say_keeps _ _ (keeps_ite (startFirmware_keeps _ h0) h0)))

theorem calibrate_keeps {s0 s : State} (n : Nat) (lat : Nat × Nat) (h0 : Keeps s0 s) : Keeps s0 (calibrate n lat s) := by
  unfold calibrate
  repeat' (first | assumption | with_reducible apply setSluice_keeps)

theorem execP2Mesh_keeps {s0 s : State} (lats : List (Nat × Nat)) (bad : List (Fin 96)) (h0 : Keeps s0 s) :
    OutKeeps s0 (execP2Mesh lats bad s) := by
  unfold execP2Mesh
  refine outKeeps_next (keeps_ite h0 ?_)
  refine computeLanes_keeps (readback_keeps _ (keeps_foldl (fun u p hu => keeps_ite (bringDark_keeps _ hu) hu)
    (keeps_foldl (fun u n hu => calibrate_keeps _ _ hu) (mapCores_keeps _ _ (keeps_plain h0)))))

theorem earlyNow_keeps {s0 s : State}  (h0 : Keeps s0 s) : Keeps s0 (earlyNow s) := by
  unfold earlyNow
  repeat' (first | assumption | split | with_reducible refine keeps_plain ?_ | with_reducible refine keeps_mk ?_)

theorem execStackTraining_keeps {s0 s : State} (e : Fin 48) (ok : Bool) (h0 : Keeps s0 s) : OutKeeps s0 (execStackTraining e ok s) := by
  unfold execStackTraining
  repeat' (first | assumption | with_reducible apply setEng_keeps | with_reducible apply earlyNow_keeps | with_reducible apply suspect_keeps | with_reducible apply pldm_keeps | (extract_lets +onlyGivenNames zx; (first | ((first | refine keeps_cut (x := zx) ?_ ?_ | refine outKeeps_cut (x := zx) ?_ ?_ | refine replyKeeps_cut (x := zx) ?_ ?_); (on_goal 2 => (intro zh; clear_value zx)); (on_goal 1 => (dsimp -zeta only [zx]))) | skip)) | split)

theorem setTest_keeps {s0 s : State} (p : Nat) (x : TestPan) (h0 : Keeps s0 s) : Keeps s0 (setTest s p x) := by
  unfold setTest
  repeat' (first | assumption | split | with_reducible refine keeps_plain ?_)

theorem numberPan_keeps {s0 s : State} (p : Nat) (ds : List Nat) (h0 : Keeps s0 s) : Keeps s0 (numberPan p ds s) := by
  unfold numberPan
  repeat' (first | assumption | with_reducible apply modRouter_keeps | with_reducible apply setCore_keeps | with_reducible apply mapCores_keeps | with_reducible apply setTest_keeps | with_reducible apply setPan_keeps | with_reducible apply keeps_foldl | intro _)

theorem execP3Kernels_keeps {s0 s : State} (p : Fin 96) (bad : List Nat) (h0 : Keeps s0 s) : OutKeeps s0 (execP3Kernels p bad s) := by
  unfold execP3Kernels
  refine outKeeps_next (keeps_ite h0 (keeps_ite (bringDark_keeps _ h0) ?_))
  extract_lets ds s1 s2
  have h1 : Keeps s0 s1 := numberPan_keeps _ _ h0
  have h2 : Keeps s0 s2 := say_keeps _ _ (keeps_ite (suspect_keeps _ h1) h1)
  clear_value s2
  exact earlyNow_keeps (readback_keeps _ h2)

theorem execP4Kernels_keeps {s0 s : State} (p : Fin 96) (ok : Bool) (h0 : Keeps s0 s) : OutKeeps s0 (execP4Kernels p ok s) := by
  unfold execP4Kernels
  repeat' (first | assumption | with_reducible apply setPan_keeps | with_reducible apply suspect_keeps | (extract_lets +onlyGivenNames zx; (first | ((first | refine keeps_cut (x := zx) ?_ ?_ | refine outKeeps_cut (x := zx) ?_ ?_ | refine replyKeeps_cut (x := zx) ?_ ?_); (on_goal 2 => (intro zh; clear_value zx)); (on_goal 1 => (dsimp -zeta only [zx]))) | skip)) | split | dsimp -zeta only | with_reducible refine keeps_plain ?_)

theorem remeasure_keeps {s0 s : State} (lats : List (Nat × Nat)) (n : Nat) (h0 : Keeps s0 s) : Keeps s0 (remeasure lats s n) := by
  unfold remeasure
  repeat' (first | assumption | with_reducible apply setSluice_keeps | with_reducible apply keeps_foldl | with_reducible apply keeps_foldr | with_reducible apply outKeeps_next | with_reducible apply replyKeeps_done | with_reducible apply replyKeeps_later | with_reducible apply outKeeps_fault | intro _ | (extract_lets +onlyGivenNames zx; (first | ((first | refine keeps_cut (x := zx) ?_ ?_ | refine outKeeps_cut (x := zx) ?_ ?_ | refine replyKeeps_cut (x := zx) ?_ ?_); (on_goal 2 => (intro zh; clear_value zx)); (on_goal 1 => (dsimp -zeta only [zx]))) | skip)) | with_reducible apply keeps_ite)

theorem setCal_keeps {s0 s : State} (k : Option Nat) (h0 : Keeps s0 s) : Keeps s0 (setCal k s) := by
  unfold setCal
  repeat' (first | assumption | with_reducible apply suspect_keeps | with_reducible apply deliverRate_keeps | split | with_reducible refine keeps_plain ?_ | with_reducible refine keeps_mk ?_)

theorem calibratePan_keeps {s0 s : State} (p : Nat) (h0 : Keeps s0 s) : Keeps s0 (calibratePan s p) := by
  unfold calibratePan
  repeat' (first | assumption | with_reducible apply modPwr_keeps | split | with_reducible refine keeps_plain ?_)

theorem loadTherm_keeps {s0 s : State}  (h0 : Keeps s0 s) : Keeps s0 (loadTherm s) := by
  unfold loadTherm
  repeat' (first | assumption | split | with_reducible refine keeps_plain ?_ | with_reducible refine keeps_mk ?_)

theorem execP5FullService_keeps {s0 s : State} (lats : List (Nat × Nat)) (h0 : Keeps s0 s) : OutKeeps s0 (execP5FullService lats s) := by
  unfold execP5FullService
  refine outKeeps_next (keeps_ite h0 ?_)
  extract_lets b s1 s2
  have h1 : Keeps s0 s1 := keeps_ite h0 (calibrateRim_keeps (setRails_keeps _ (setCal_keeps _
    (keeps_foldl (fun u n hu => remeasure_keeps _ _ hu) (loadTherm_keeps (keeps_plain h0))))))
  have h2 : Keeps s0 s2 := keeps_foldl (fun u p hu => calibratePan_keeps _ hu) h1
  clear_value s1 s2
  exact keeps_ite (keeps_mk h2) h2

theorem execTestpackRun_keeps {s0 s : State} (p : Fin 96) (h0 : Keeps s0 s) : OutKeeps s0 (execTestpackRun p s) := by
  unfold execTestpackRun
  repeat' (first | assumption | with_reducible apply setTest_keeps | with_reducible apply outKeeps_next | split)

theorem execTestpackRunEnd_keeps {s0 s : State} (p : Fin 96) (fail : Option (Nat × Nat × Nat)) (h0 : Keeps s0 s) :
    OutKeeps s0 (execTestpackRunEnd p fail s) := by
  unfold execTestpackRunEnd
  refine outKeeps_next (keeps_ite h0 ?_)
  extract_lets src s1
  have h1 : Keeps s0 s1 := mapCores_keeps _ _ (keeps_plain h0)
  clear_value s1
  refine readback_keeps _ ?_
  cases fail with
  | none => exact setTest_keeps _ _ h1
  | some f => exact suspect_keeps _ (keeps_plain (setTest_keeps _ _ h1))

theorem execPanOverdue_keeps {s0 s : State} (p : Fin 96) (h0 : Keeps s0 s) : OutKeeps s0 (execPanOverdue p s) := by
  unfold execPanOverdue
  repeat' (first | assumption | with_reducible apply watch_keeps | with_reducible apply setTest_keeps | with_reducible apply outKeeps_next | split)

theorem execWatchClear_keeps {s0 s : State} (b : Fin 6) (h0 : Keeps s0 s) : OutKeeps s0 (execWatchClear b s) := by
  unfold execWatchClear
  repeat' (first | assumption | with_reducible apply watch_keeps | with_reducible apply outKeeps_next | split | with_reducible refine keeps_plain ?_)

theorem resumeAll_keeps {s0 s : State} (gs : List Nat) (h0 : Keeps s0 s) : Keeps s0 (resumeAll gs s).2 :=
  keeps_foldl (f := fun s g => setStation (resumeCore s g) (stationOf g) (pastRun (getNode s (panOf g)).steps (getStation s (stationOf g))))
    (fun u g hu => setStation_keeps _ _ (resumeCore_keeps _ hu)) h0

theorem runDbg_keeps {s0 s : State} (opc : Nat) (modCmd : Bool) (c : Cmd) (wcrc : Nat) (checks : State → List (Bool × Nat))
    (f : State → Reply) (h0 : Keeps s0 s) (hf : ∀ t, Keeps s0 t → ReplyKeeps s0 (f t)) : OutKeeps s0 (runDbg opc modCmd c wcrc checks f s) := by
  unfold runDbg
  split
  · exact h0
  · rename_i s1 he
    have h1 := takeEntry_keeps he h0
    extract_lets ep g fin no
    have hno : ∀ n t, Keeps s0 t → Keeps s0 (no n t) := fun n t ht => keeps_mk ht
    have hfin : ∀ st res t, Keeps s0 t → Keeps s0 (fin st res t) :=
      fun st res t ht => complete_keeps _ _ _ _ _ _ _ (logDebug_keeps _ _ _ _ _ _ _ _ ht)
    clear_value fin no
    split
    · exact hfin _ _ _ (hno _ _ h1)
    · have h2 := hf s1 h1
      revert h2
      cases f s1 with
      | done st res s2 => exact fun h2 => hfin _ _ _ (keeps_ite h2 (hno _ _ h2))
      | later s2 => exact fun h2 => h2

theorem modDbg_keeps {s0 s : State} (k : Nat) (f : Dbg → Dbg) (h0 : Keeps s0 s) : Keeps s0 (modDbg k f s) := by
  unfold modDbg
  repeat' (first | assumption | with_reducible apply modPart_keeps)

theorem execDebugAttach_keeps {s0 s : State} (c : Cmd) (h0 : Keeps s0 s) : OutKeeps s0 (execDebugAttach c s) := by
  unfold execDebugAttach
  refine runDbg_keeps _ _ _ _ _ _ h0 ?_
  intro t ht
  split
  · exact ht
  · exact replyKeeps_done (keeps_ite (sendHalts_keeps _ (modPart_keeps _ _ ht)) (modPart_keeps _ _ ht))

theorem execDebugDetach_keeps {s0 s : State} (c : Cmd) (h0 : Keeps s0 s) : OutKeeps s0 (execDebugDetach c s) := by
  unfold execDebugDetach
  exact runDbg_keeps _ _ _ _ _ _ h0 (fun t ht => replyKeeps_done (detach_keeps _ _ ht))

theorem execDebugGrantExpiry_keeps {s0 s : State} (q : Fin 33) (h0 : Keeps s0 s) : OutKeeps s0 (execDebugGrantExpiry q s) := by
  unfold execDebugGrantExpiry
  repeat' (first | assumption | with_reducible apply endPair_keeps | with_reducible apply keeps_foldl | with_reducible apply outKeeps_next | split)

theorem execDbgHalt_keeps {s0 s : State} (c : Cmd) (h0 : Keeps s0 s) : OutKeeps s0 (execDbgHalt c s) := by
  unfold execDbgHalt
  refine runDbg_keeps _ _ _ _ _ _ h0 ?_
  intro t ht
  exact replyKeeps_ite ht (replyKeeps_later (modDbg_keeps _ _ (sendHalts_keeps _ ht)))

theorem settleDbg_keeps {s0 s : State} (k : Nat) (h0 : Keeps s0 s) : Keeps s0 (settleDbg k s) := by
  unfold settleDbg
  repeat' (first | assumption | with_reducible apply finishDbg_keeps | with_reducible apply modDbg_keeps | with_reducible apply keeps_foldl | intro _ | split)

theorem execNodeStep_keeps {s0 s : State} (n : Fin 100) (ups : List Upset) (h0 : Keeps s0 s) : OutKeeps s0 (execNodeStep n ups s) := by
  unfold execNodeStep
  repeat' (first | assumption | with_reducible apply settleDbg_keeps | with_reducible apply nodeStep_keeps | with_reducible apply keeps_foldl | with_reducible apply keeps_foldr | with_reducible apply outKeeps_next | with_reducible apply replyKeeps_done | with_reducible apply replyKeeps_later | with_reducible apply outKeeps_fault | intro _ | (extract_lets +onlyGivenNames zx; (first | ((first | refine keeps_cut (x := zx) ?_ ?_ | refine outKeeps_cut (x := zx) ?_ ?_ | refine replyKeeps_cut (x := zx) ?_ ?_); (on_goal 2 => (intro zh; clear_value zx)); (on_goal 1 => (dsimp -zeta only [zx]))) | skip)) | with_reducible apply keeps_ite)

theorem execDbgHaltTimeout_keeps {s0 s : State} (k : Fin 32) (h0 : Keeps s0 s) : OutKeeps s0 (execDbgHaltTimeout k s) := by
  unfold execDbgHaltTimeout
  repeat' (first | assumption | with_reducible apply finishDbg_keeps | with_reducible apply modDbg_keeps | with_reducible apply keeps_foldl | with_reducible apply outKeeps_next | intro _ | split)

theorem execDbgRun_keeps {s0 s : State} (c : Cmd) (h0 : Keeps s0 s) : OutKeeps s0 (execDbgRun c s) := by
  unfold execDbgRun
  refine runDbg_keeps _ _ _ _ _ _ h0 ?_
  intro t ht
  have h1 := resumeAll_keeps (((selCores t c).getD []).filter (fun g => decide ((getCore t g).r.st = .halt))) ht
  refine replyKeeps_ite (replyKeeps_done (keeps_ite h1 (modPart_keeps _ _ h1))) ?_
  exact replyKeeps_later (modDbg_keeps _ _ (modPart_keeps _ _ (keeps_foldl (fun u g hu => setStation_keeps _ _ hu) ht)))

theorem runDue_keeps {s0 s : State} (k : Nat) (a : RunArm) (h0 : Keeps s0 s) : Keeps s0 (runDue k a s) := by
  unfold runDue
  exact modPart_keeps _ _ (resumeAll_keeps _ h0)

theorem runEnd_keeps {s0 s : State} (k : Nat) (d : Dbg) (x : DbgCmd) (h0 : Keeps s0 s) : Keeps s0 (runEnd k d s x) := by
  unfold runEnd
  repeat' (first | assumption | with_reducible apply finishDbg_keeps | with_reducible apply modDbg_keeps | with_reducible apply modPart_keeps | with_reducible apply keeps_foldl | split)

theorem execDbgResumeCount_keeps {s0 s : State} (k : Fin 32) (h0 : Keeps s0 s) : OutKeeps s0 (execDbgResumeCount k s) := by
  unfold execDbgResumeCount
  refine outKeeps_next (keeps_ite h0 ?_)
  have h1 : Keeps s0 ((getPart s k).runs.foldl (fun s a => if a.cores.isEmpty then s else runDue k a s) s) :=
    keeps_foldl (fun u a hu => keeps_ite hu (runDue_keeps _ _ hu)) h0
  dsimp only
  split
  · exact keeps_foldl (fun u x hu => runEnd_keeps _ _ _ hu) h1
  · exact h1

theorem execHaltCountReached_keeps {s0 s : State} (g : Nat) (h0 : Keeps s0 s) : OutKeeps s0 (execHaltCountReached g s) := by
  unfold execHaltCountReached
  exact outKeeps_ite outKeeps_fault (outKeeps_next (keeps_ite h0 (modPart_keeps _ _ (setCore_keeps _ _ h0))))

theorem atStations_keeps {s0 s : State} (c : Cmd) (f : Station → BitVec 64 → Station) (h0 : Keeps s0 s) : Keeps s0 (atStations c f s) := by
  unfold atStations
  repeat' (first | assumption | with_reducible apply setStation_keeps | with_reducible apply keeps_foldl | intro _)

theorem dbgBreak_keeps {s0 s : State} (op : Nat) (c : Cmd) (useTc : Bool) (mask2 mask3 : Nat) (bad : Bool) (beyond : State → Bool)
    (f : Station → BitVec 64 → Station) (h0 : Keeps s0 s) : OutKeeps s0 (dbgBreak op c useTc mask2 mask3 bad beyond f s) :=
  outKeeps_ite h0 (runDbg_keeps _ _ _ _ _ _ h0 (fun t ht => atStations_keeps _ _ ht))

theorem execDbgBreakSet_keeps {s0 s : State} (c : Cmd) (h0 : Keeps s0 s) : OutKeeps s0 (execDbgBreakSet c s) := by
  unfold execDbgBreakSet
  exact dbgBreak_keeps _ _ _ _ _ _ _ _ h0

theorem execDbgBreakClear_keeps {s0 s : State} (c : Cmd) (h0 : Keeps s0 s) : OutKeeps s0 (execDbgBreakClear c s) := by
  unfold execDbgBreakClear
  exact dbgBreak_keeps _ _ _ _ _ _ _ _ h0

theorem execDbgHaltCountSet_keeps {s0 s : State} (c : Cmd) (h0 : Keeps s0 s) : OutKeeps s0 (execDbgHaltCountSet c s) := by
  unfold execDbgHaltCountSet
  exact dbgBreak_keeps _ _ _ _ _ _ _ _ h0

theorem execDbgHaltCountClear_keeps {s0 s : State} (c : Cmd) (h0 : Keeps s0 s) : OutKeeps s0 (execDbgHaltCountClear c s) := by
  unfold execDbgHaltCountClear
  exact dbgBreak_keeps _ _ _ _ _ _ _ _ h0

theorem execDbgRakeRead_keeps {s0 s : State} (c : Cmd) (h0 : Keeps s0 s) : OutKeeps s0 (execDbgRakeRead c s) := by
  unfold execDbgRakeRead
  refine outKeeps_ite h0 (runDbg_keeps _ _ _ _ _ _ h0 ?_)
  intro t ht
  extract_lets g off bs s1
  have h1 : Keeps s0 s1 := setCore_keeps _ _ ht
  clear_value s1
  exact replyKeeps_done (keeps_mk h1)

theorem execDbgRakeWrite_keeps {s0 s : State} (c : Cmd) (h0 : Keeps s0 s) : OutKeeps s0 (execDbgRakeWrite c s) := by
  unfold execDbgRakeWrite
  refine outKeeps_ite h0 (runDbg_keeps _ _ _ _ _ _ h0 ?_)
  intro t ht
  exact replyKeeps_done (setCore_keeps _ _ ht)

theorem dbgSync_keeps {s0 s : State} (kind : Nat) (c : Cmd) (mask1 mask2 : Nat) (legal : List PSt) (need undeclared : State → Bool)
    (f : State → Reply) (h0 : Keeps s0 s) (hf : ∀ t, Keeps s0 t → ReplyKeeps s0 (f t)) :
    OutKeeps s0 (dbgSync kind c mask1 mask2 legal need undeclared f s) :=
  outKeeps_ite h0 (runDbg_keeps _ _ _ _ _ _ h0 hf)

theorem syncSend_keeps {s0 s : State} (c : Cmd) (b : MsgBody) (h0 : Keeps s0 s) : ReplyKeeps s0 (syncSend c b s) := by
  unfold syncSend
  split
  · exact replyKeeps_later (modDbg_keeps _ _ (sendCore_keeps _ _ _ h0))
  · exact h0

theorem syncFlag_keeps {s0 s : State} (c : Cmd) (v : Bool) (h0 : Keeps s0 s) : ReplyKeeps s0 (syncFlag c v s) := by
  unfold syncFlag
  exact replyKeeps_ite (replyKeeps_done (setCore_keeps _ _ h0)) (syncSend_keeps _ _ h0)

theorem execDbgSyncSetFlag_keeps {s0 s : State} (c : Cmd) (h0 : Keeps s0 s) : OutKeeps s0 (execDbgSyncSetFlag c s) := by
  unfold execDbgSyncSetFlag
  exact dbgSync_keeps _ _ _ _ _ _ _ _ h0 (fun t ht => syncFlag_keeps _ _ ht)

theorem execDbgSyncClearFlag_keeps {s0 s : State} (c : Cmd) (h0 : Keeps s0 s) : OutKeeps s0 (execDbgSyncClearFlag c s) := by
  unfold execDbgSyncClearFlag
  exact dbgSync_keeps _ _ _ _ _ _ _ _ h0 (fun t ht => syncFlag_keeps _ _ ht)

theorem syncWrite_keeps {s0 s : State} (c : Cmd) (v : Bool) (h0 : Keeps s0 s) : ReplyKeeps s0 (syncWrite c v s) :=
  replyKeeps_done (setCore_keeps _ _ h0)

theorem execDbgSyncWriteProducer_keeps {s0 s : State} (c : Cmd) (h0 : Keeps s0 s) : OutKeeps s0 (execDbgSyncWriteProducer c s) := by
  unfold execDbgSyncWriteProducer
  exact dbgSync_keeps _ _ _ _ _ _ _ _ h0 (fun t ht => syncWrite_keeps _ _ ht)

theorem execDbgSyncWriteConsumer_keeps {s0 s : State} (c : Cmd) (h0 : Keeps s0 s) : OutKeeps s0 (execDbgSyncWriteConsumer c s) := by
  unfold execDbgSyncWriteConsumer
  exact dbgSync_keeps _ _ _ _ _ _ _ _ h0 (fun t ht => syncWrite_keeps _ _ ht)

theorem execDbgSyncAdvanceProducer_keeps {s0 s : State} (c : Cmd) (h0 : Keeps s0 s) : OutKeeps s0 (execDbgSyncAdvanceProducer c s) := by
  unfold execDbgSyncAdvanceProducer
  exact dbgSync_keeps _ _ _ _ _ _ _ _ h0 (fun t ht => syncSend_keeps _ _ ht)

theorem execDbgSyncAdvanceConsumer_keeps {s0 s : State} (c : Cmd) (h0 : Keeps s0 s) : OutKeeps s0 (execDbgSyncAdvanceConsumer c s) := by
  unfold execDbgSyncAdvanceConsumer
  exact dbgSync_keeps _ _ _ _ _ _ _ _ h0 (fun t ht => syncSend_keeps _ _ ht)

theorem execDbgSyncWriteCr_keeps {s0 s : State} (c : Cmd) (h0 : Keeps s0 s) : OutKeeps s0 (execDbgSyncWriteCr c s) := by
  unfold execDbgSyncWriteCr
  refine dbgSync_keeps _ _ _ _ _ _ _ _ h0 ?_
  intro t ht
  split
  · exact replyKeeps_done (setChan_keeps _ _ ht)
  · exact ht

theorem execDbgSyncCompleteBarrier_keeps {s0 s : State} (c : Cmd) (h0 : Keeps s0 s) : OutKeeps s0 (execDbgSyncCompleteBarrier c s) := by
  unfold execDbgSyncCompleteBarrier
  refine dbgSync_keeps _ _ _ _ _ _ _ _ h0 ?_
  intro t ht
  split
  · exact replyKeeps_done (sendCtrl_keeps _ _ _ _ (releaseBar_keeps _ _ ht))
  · exact ht

theorem resetCores_keeps {s0 s : State} (gs : List Nat) (h0 : Keeps s0 s) : Keeps s0 (resetCores gs s) := by
  unfold resetCores
  repeat' (first | assumption | with_reducible apply readback_keeps | with_reducible apply mapCores_keeps | with_reducible apply keeps_foldl | with_reducible apply keeps_foldr | with_reducible apply outKeeps_next | with_reducible apply replyKeeps_done | with_reducible apply replyKeeps_later | with_reducible apply outKeeps_fault | intro _ | (extract_lets +onlyGivenNames zx; (first | ((first | refine keeps_cut (x := zx) ?_ ?_ | refine outKeeps_cut (x := zx) ?_ ?_ | refine replyKeeps_cut (x := zx) ?_ ?_); (on_goal 2 => (intro zh; clear_value zx)); (on_goal 1 => (dsimp -zeta only [zx]))) | skip)) | with_reducible apply keeps_ite | with_reducible apply outKeeps_ite | with_reducible apply replyKeeps_ite | split | dsimp -zeta only | with_reducible refine keeps_plain ?_)

theorem execDbgReset_keeps {s0 s : State} (c : Cmd) (h0 : Keeps s0 s) : OutKeeps s0 (execDbgReset c s) := by
  unfold execDbgReset
  exact runDbg_keeps _ _ _ _ _ _ h0 (fun t ht => replyKeeps_done (resetCores_keeps _ ht))

theorem execCoreReset_keeps {s0 s : State} (g : Nat) (h0 : Keeps s0 s) : OutKeeps s0 (execCoreReset g s) := by
  unfold execCoreReset
  repeat' (first | assumption | with_reducible apply resetCores_keeps | with_reducible apply keeps_foldl | with_reducible apply outKeeps_next | with_reducible apply outKeeps_fault | split)

theorem execClusterReset_keeps {s0 s : State} (p : Fin 96) (cl : Fin 150) (h0 : Keeps s0 s) : OutKeeps s0 (execClusterReset p cl s) := by
  unfold execClusterReset
  repeat' (first | assumption | with_reducible apply resetCores_keeps | with_reducible apply keeps_foldl | with_reducible apply outKeeps_next | split)

theorem execDbgLogRead_keeps {s0 s : State} (c : Cmd) (h0 : Keeps s0 s) : OutKeeps s0 (execDbgLogRead c s) := by
  unfold execDbgLogRead
  refine runDbg_keeps _ _ _ _ _ _ h0 ?_
  intro t ht
  exact replyKeeps_done (keeps_mk ht)

theorem execMma_keeps {s0 s : State} (g : Nat) (d a b : Reg) (mf : TileFmt) (rm : Rounding) (h0 : Keeps s0 s) : OutKeeps s0 (execMma g d a b mf rm s) := by
  unfold execMma
  repeat' (first | assumption | with_reducible apply onCore_keeps)

theorem execMmas_keeps {s0 s : State} (g : Nat) (d a b : Reg) (mf : TileFmt) (rm : Rounding) (h0 : Keeps s0 s) : OutKeeps s0 (execMmas g d a b mf rm s) := by
  unfold execMmas
  repeat' (first | assumption | with_reducible apply onCore_keeps)

theorem execMstg_keeps {s0 s : State} (g : Nat) (a b : Reg) (h0 : Keeps s0 s) : OutKeeps s0 (execMstg g a b s) := by
  unfold execMstg
  repeat' (first | assumption | with_reducible apply onCore_keeps)

theorem execMstgq_keeps {s0 s : State} (g : Nat) (q : Fin 8) (b : Reg) (h0 : Keeps s0 s) : OutKeeps s0 (execMstgq g q b s) := by
  unfold execMstgq
  repeat' (first | assumption | with_reducible apply onCore_keeps)

theorem execMzero_keeps {s0 s : State} (g : Nat) (d fn : Reg) (h0 : Keeps s0 s) : OutKeeps s0 (execMzero g d fn s) := by
  unfold execMzero
  repeat' (first | assumption | with_reducible apply onCore_keeps)

theorem execMbst_keeps {s0 s : State} (g : Nat) (d a fn : Reg) (h0 : Keeps s0 s) : OutKeeps s0 (execMbst g d a fn s) := by
  unfold execMbst
  repeat' (first | assumption | with_reducible apply onCore_keeps)

theorem execMbld_keeps {s0 s : State} (g : Nat) (d a fn : Reg) (h0 : Keeps s0 s) : OutKeeps s0 (execMbld g d a fn s) := by
  unfold execMbld
  repeat' (first | assumption | with_reducible apply onCore_keeps)

theorem execMmask_keeps {s0 s : State} (g : Nat) (d a b : Reg) (mode : MaskMode) (h0 : Keeps s0 s) : OutKeeps s0 (execMmask g d a b mode s) := by
  unfold execMmask
  repeat' (first | assumption | with_reducible apply onCore_keeps)

theorem execMsmx_keeps {s0 s : State} (g : Nat) (d a b : Reg) (h0 : Keeps s0 s) : OutKeeps s0 (execMsmx g d a b s) := by
  unfold execMsmx
  repeat' (first | assumption | with_reducible apply onCore_keeps)

theorem execMscl_keeps {s0 s : State} (g : Nat) (d a b : Reg) (h0 : Keeps s0 s) : OutKeeps s0 (execMscl g d a b s) := by
  unfold execMscl
  repeat' (first | assumption | with_reducible apply onCore_keeps)

theorem execDmov_keeps {s0 s : State} (g : Nat) (slot : Fin 4) (a : Reg) (imm : Word) (h0 : Keeps s0 s) : OutKeeps s0 (execDmov g slot a imm s) := by
  unfold execDmov
  repeat' (first | assumption | with_reducible apply onCore_keeps)

theorem execDwait_keeps {s0 s : State} (g : Nat) (mask : BitVec 4) (h0 : Keeps s0 s) : OutKeeps s0 (execDwait g mask s) := by
  unfold execDwait
  repeat' (first | assumption | with_reducible apply onCore_keeps)

theorem execCopyRow_keeps {s0 s : State} (g : Nat) (slot : Fin 4) (h0 : Keeps s0 s) : OutKeeps s0 (execCopyRow g slot s) := by
  unfold execCopyRow
  repeat' (first | assumption | with_reducible apply onCore_keeps)

theorem execQinEntry_keeps {s0 s : State} (g : Nat) (slot : Fin 4) (h0 : Keeps s0 s) : OutKeeps s0 (execQinEntry g slot s) := by
  unfold execQinEntry
  repeat' (first | assumption | with_reducible apply onCore_keeps)

theorem execQoutEntry_keeps {s0 s : State} (g : Nat) (slot : Fin 4) (h0 : Keeps s0 s) : OutKeeps s0 (execQoutEntry g slot s) := by
  unfold execQoutEntry
  repeat' (first | assumption | with_reducible apply onCore_keeps)

theorem execTinEntry_keeps {s0 s : State} (g : Nat) (slot : Fin 4) (h0 : Keeps s0 s) : OutKeeps s0 (execTinEntry g slot s) := by
  unfold execTinEntry
  repeat' (first | assumption | with_reducible apply onCore_keeps)

theorem execTstgEntry_keeps {s0 s : State} (g : Nat) (slot : Fin 4) (h0 : Keeps s0 s) : OutKeeps s0 (execTstgEntry g slot s) := by
  unfold execTstgEntry
  repeat' (first | assumption | with_reducible apply onCore_keeps)

theorem execStgRow_keeps {s0 s : State} (g : Nat) (slot : Fin 4) (h0 : Keeps s0 s) : OutKeeps s0 (execStgRow g slot s) := by
  unfold execStgRow
  repeat' (first | assumption | with_reducible apply onCore_keeps)

theorem execFwdEntry_keeps {s0 s : State} (g : Nat) (slot : Fin 4) (h0 : Keeps s0 s) : OutKeeps s0 (execFwdEntry g slot s) := by
  unfold execFwdEntry
  repeat' (first | assumption | with_reducible apply onCore_keeps)

theorem execToutSourceRead_keeps {s0 s : State} (g : Nat) (slot : Fin 4) (h0 : Keeps s0 s) : OutKeeps s0 (execToutSourceRead g slot s) := by
  unfold execToutSourceRead
  repeat' (first | assumption | with_reducible apply onCore_keeps)

theorem execTileForm_keeps {s0 s : State} (g : Nat) (slot : Fin 4) (h0 : Keeps s0 s) : OutKeeps s0 (execTileForm g slot s) := by
  unfold execTileForm
  repeat' (first | assumption | with_reducible apply onCore_keeps)

theorem execToutEntry_keeps {s0 s : State} (g : Nat) (slot : Fin 4) (h0 : Keeps s0 s) : OutKeeps s0 (execToutEntry g slot s) := by
  unfold execToutEntry
  repeat' (first | assumption | with_reducible apply onCore_keeps)

theorem execDmaSlotComplete_keeps {s0 s : State} (g : Nat) (slot : Fin 4) (h0 : Keeps s0 s) : OutKeeps s0 (execDmaSlotComplete g slot s) := by
  unfold execDmaSlotComplete
  repeat' (first | assumption | with_reducible apply onCore_keeps)

theorem letGo_keeps {s0 s : State} (gr : Nat × CoreRec) (h0 : Keeps s0 s) : Keeps s0 (letGo s gr) := by
  unfold letGo
  repeat' (first | assumption | with_reducible apply setCore_keeps)

theorem endReload_keeps {s0 s : State} (k code : Nat) (h0 : Keeps s0 s) : Keeps s0 (endReload k code s) := by
  unfold endReload
  repeat' (first | assumption | with_reducible apply dropHalts_keeps | with_reducible apply letGo_keeps | with_reducible apply resumeCore_keeps | with_reducible apply completeLong_keeps | with_reducible apply modPart_keeps | with_reducible apply keeps_foldl | split)

theorem holdSlots_keeps {s0 s : State} (gr : Nat × CoreRec) (h0 : Keeps s0 s) : Keeps s0 (holdSlots s gr) := by
  unfold holdSlots
  repeat' (first | assumption | with_reducible apply setCore_keeps)

theorem execJobReload_keeps {s0 s : State} (c : Cmd) (h0 : Keeps s0 s) : OutKeeps s0 (execJobReload c s) := by
  unfold execJobReload
  repeat' (first | assumption | with_reducible apply runCmd_keeps | with_reducible apply modPart_keeps | with_reducible apply holdSlots_keeps | with_reducible apply keeps_foldl | with_reducible apply replyKeeps_later | intro _ | split)

theorem afterConfirm_keeps {s0 s : State} (k : Nat) (l : Long) (r : Reload) (h0 : Keeps s0 s) : Keeps s0 (afterConfirm k l r s) := by
  unfold afterConfirm
  repeat' (first | assumption | with_reducible apply setCore_keeps | with_reducible apply resumeCore_keeps | with_reducible apply modPart_keeps | with_reducible apply sendHalts_keeps | with_reducible apply keeps_foldl | intro _ | with_reducible apply keeps_ite)

theorem execQuiescenceCheck_keeps {s0 s : State} (k : Fin 32) (h0 : Keeps s0 s) : OutKeeps s0 (execQuiescenceCheck k s) := by
  unfold execQuiescenceCheck
  repeat' (first | assumption | with_reducible apply endReload_keeps | with_reducible apply afterConfirm_keeps | with_reducible apply modPart_keeps | with_reducible apply keeps_foldl | with_reducible apply outKeeps_next | with_reducible apply keeps_ite | split)

theorem execReloadTimeout_keeps {s0 s : State} (k : Fin 32) (h0 : Keeps s0 s) : OutKeeps s0 (execReloadTimeout k s) := by
  unfold execReloadTimeout
  repeat' (first | assumption | with_reducible apply endReload_keeps | with_reducible apply keeps_foldl | with_reducible apply outKeeps_next | split)

theorem forceReady_keeps {s0 s : State} (k : Nat) (h0 : Keeps s0 s) : Keeps s0 (forceReady k s) := by
  unfold forceReady
  repeat' (first | assumption | with_reducible apply setCore_keeps | with_reducible apply resumeCore_keeps | with_reducible apply completeLong_keeps | with_reducible apply modPart_keeps | with_reducible apply sendHalts_keeps | with_reducible apply keeps_foldl | with_reducible apply keeps_foldr | with_reducible apply outKeeps_next | with_reducible apply replyKeeps_done | with_reducible apply replyKeeps_later | with_reducible apply outKeeps_fault | intro _ | (extract_lets +onlyGivenNames zx; (first | ((first | refine keeps_cut (x := zx) ?_ ?_ | refine outKeeps_cut (x := zx) ?_ ?_ | refine replyKeeps_cut (x := zx) ?_ ?_); (on_goal 2 => (intro zh; clear_value zx)); (on_goal 1 => (dsimp -zeta only [zx]))) | skip)) | with_reducible apply keeps_ite | with_reducible apply outKeeps_ite | with_reducible apply replyKeeps_ite | split)

theorem execJobReloadForced_keeps {s0 s : State} (c : Cmd) (h0 : Keeps s0 s) : OutKeeps s0 (execJobReloadForced c s) := by
  unfold execJobReloadForced
  repeat' (first | assumption | with_reducible apply runCmd_keeps | with_reducible apply modPart_keeps | with_reducible apply sendHalts_keeps | with_reducible apply forceReady_keeps | with_reducible apply keeps_foldl | with_reducible apply replyKeeps_later | intro _ | split)

theorem execReloadCommit_keeps {s0 s : State} (k : Fin 32) (h0 : Keeps s0 s) : OutKeeps s0 (execReloadCommit k s) := by
  unfold execReloadCommit
  repeat' (first | assumption | with_reducible apply endReload_keeps | with_reducible apply forceReady_keeps | with_reducible apply setCore_keeps | with_reducible apply completeLong_keeps | with_reducible apply modPart_keeps | with_reducible apply keeps_foldl | with_reducible apply outKeeps_next | intro _ | with_reducible apply keeps_ite | split)

end Sys2Proof.Machine
end

