-- ==== Sys2Proof/Laws/State.lean ====
section
/-! SUPPORT. What each named update leaves in every field: of the module, of a core, and of a core's execution state. A proof
rewrites with these and unfolds no record update. -/

namespace Sys2Proof.Machine

set_option Elab.async false

-- setCore
@[simp] theorem setCore_time (s : State) (g : Nat) (c : Core) : (setCore s g c).time = s.time := rfl
@[simp] theorem setCore_cores (s : State) (g : Nat) (c : Core) : (setCore s g c).cores = tset Core.zero s.cores g c := rfl
@[simp] theorem setCore_nodes (s : State) (g : Nat) (c : Core) : (setCore s g c).nodes = s.nodes := rfl
@[simp] theorem setCore_tide (s : State) (g : Nat) (c : Core) : (setCore s g c).tide = s.tide := rfl
@[simp] theorem setCore_sluices (s : State) (g : Nat) (c : Core) : (setCore s g c).sluices = s.sluices := rfl
@[simp] theorem setCore_routers (s : State) (g : Nat) (c : Core) : (setCore s g c).routers = s.routers := rfl
@[simp] theorem setCore_mesh (s : State) (g : Nat) (c : Core) : (setCore s g c).mesh = s.mesh := rfl
@[simp] theorem setCore_edges (s : State) (g : Nat) (c : Core) : (setCore s g c).edges = s.edges := rfl
@[simp] theorem setCore_ctlIn (s : State) (g : Nat) (c : Core) : (setCore s g c).ctlIn = s.ctlIn := rfl
@[simp] theorem setCore_pans (s : State) (g : Nat) (c : Core) : (setCore s g c).pans = s.pans := rfl
@[simp] theorem setCore_stations (s : State) (g : Nat) (c : Core) : (setCore s g c).stations = s.stations := rfl
@[simp] theorem setCore_haltSent (s : State) (g : Nat) (c : Core) : (setCore s g c).haltSent = s.haltSent := rfl
@[simp] theorem setCore_parts (s : State) (g : Nat) (c : Core) : (setCore s g c).parts = s.parts := rfl
@[simp] theorem setCore_host (s : State) (g : Nat) (c : Core) : (setCore s g c).host = s.host := rfl
@[simp] theorem setCore_bars (s : State) (g : Nat) (c : Core) : (setCore s g c).bars = s.bars := rfl
@[simp] theorem setCore_engs (s : State) (g : Nat) (c : Core) : (setCore s g c).engs = s.engs := rfl
@[simp] theorem setCore_pmem (s : State) (g : Nat) (c : Core) : (setCore s g c).pmem = s.pmem := rfl
@[simp] theorem setCore_sec (s : State) (g : Nat) (c : Core) : (setCore s g c).sec = s.sec := rfl
@[simp] theorem setCore_fuse (s : State) (g : Nat) (c : Core) : (setCore s g c).fuse = s.fuse := rfl
@[simp] theorem setCore_ctrlOut (s : State) (g : Nat) (c : Core) : (setCore s g c).ctrlOut = s.ctrlOut := rfl
@[simp] theorem setCore_modnum (s : State) (g : Nat) (c : Core) : (setCore s g c).modnum = s.modnum := rfl
@[simp] theorem setCore_fab (s : State) (g : Nat) (c : Core) : (setCore s g c).fab = s.fab := rfl
@[simp] theorem setCore_power (s : State) (g : Nat) (c : Core) : (setCore s g c).power = s.power := rfl
@[simp] theorem setCore_rel (s : State) (g : Nat) (c : Core) : (setCore s g c).rel = s.rel := rfl
@[simp] theorem setCore_boot (s : State) (g : Nat) (c : Core) : (setCore s g c).boot = s.boot := rfl
@[simp] theorem setCore_log (s : State) (g : Nat) (c : Core) : (setCore s g c).log = s.log := rfl
@[simp] theorem setCore_logSeq (s : State) (g : Nat) (c : Core) : (setCore s g c).logSeq = s.logSeq := rfl
@[simp] theorem setCore_said (s : State) (g : Nat) (c : Core) : (setCore s g c).said = s.said := rfl
@[simp] theorem setCore_stuck (s : State) (g : Nat) (c : Core) : (setCore s g c).stuck = s.stuck := rfl
@[simp] theorem setCore_free (s : State) (g : Nat) (c : Core) : (setCore s g c).free = s.free := rfl
@[simp] theorem setCore_pending (s : State) (g : Nat) (c : Core) : (setCore s g c).pending = s.pending := rfl

-- setNode
@[simp] theorem setNode_time (s : State) (k : Nat) (n : Node) : (setNode s k n).time = s.time := rfl
@[simp] theorem setNode_cores (s : State) (k : Nat) (n : Node) : (setNode s k n).cores = s.cores := rfl
@[simp] theorem setNode_nodes (s : State) (k : Nat) (n : Node) : (setNode s k n).nodes = tset Node.zero s.nodes k n := rfl
@[simp] theorem setNode_tide (s : State) (k : Nat) (n : Node) : (setNode s k n).tide = s.tide := rfl
@[simp] theorem setNode_sluices (s : State) (k : Nat) (n : Node) : (setNode s k n).sluices = s.sluices := rfl
@[simp] theorem setNode_routers (s : State) (k : Nat) (n : Node) : (setNode s k n).routers = s.routers := rfl
@[simp] theorem setNode_mesh (s : State) (k : Nat) (n : Node) : (setNode s k n).mesh = s.mesh := rfl
@[simp] theorem setNode_edges (s : State) (k : Nat) (n : Node) : (setNode s k n).edges = s.edges := rfl
@[simp] theorem setNode_ctlIn (s : State) (k : Nat) (n : Node) : (setNode s k n).ctlIn = s.ctlIn := rfl
@[simp] theorem setNode_pans (s : State) (k : Nat) (n : Node) : (setNode s k n).pans = s.pans := rfl
@[simp] theorem setNode_stations (s : State) (k : Nat) (n : Node) : (setNode s k n).stations = s.stations := rfl
@[simp] theorem setNode_haltSent (s : State) (k : Nat) (n : Node) : (setNode s k n).haltSent = s.haltSent := rfl
@[simp] theorem setNode_parts (s : State) (k : Nat) (n : Node) : (setNode s k n).parts = s.parts := rfl
@[simp] theorem setNode_host (s : State) (k : Nat) (n : Node) : (setNode s k n).host = s.host := rfl
@[simp] theorem setNode_bars (s : State) (k : Nat) (n : Node) : (setNode s k n).bars = s.bars := rfl
@[simp] theorem setNode_engs (s : State) (k : Nat) (n : Node) : (setNode s k n).engs = s.engs := rfl
@[simp] theorem setNode_pmem (s : State) (k : Nat) (n : Node) : (setNode s k n).pmem = s.pmem := rfl
@[simp] theorem setNode_sec (s : State) (k : Nat) (n : Node) : (setNode s k n).sec = s.sec := rfl
@[simp] theorem setNode_fuse (s : State) (k : Nat) (n : Node) : (setNode s k n).fuse = s.fuse := rfl
@[simp] theorem setNode_ctrlOut (s : State) (k : Nat) (n : Node) : (setNode s k n).ctrlOut = s.ctrlOut := rfl
@[simp] theorem setNode_modnum (s : State) (k : Nat) (n : Node) : (setNode s k n).modnum = s.modnum := rfl
@[simp] theorem setNode_fab (s : State) (k : Nat) (n : Node) : (setNode s k n).fab = s.fab := rfl
@[simp] theorem setNode_power (s : State) (k : Nat) (n : Node) : (setNode s k n).power = s.power := rfl
@[simp] theorem setNode_rel (s : State) (k : Nat) (n : Node) : (setNode s k n).rel = s.rel := rfl
@[simp] theorem setNode_boot (s : State) (k : Nat) (n : Node) : (setNode s k n).boot = s.boot := rfl
@[simp] theorem setNode_log (s : State) (k : Nat) (n : Node) : (setNode s k n).log = s.log := rfl
@[simp] theorem setNode_logSeq (s : State) (k : Nat) (n : Node) : (setNode s k n).logSeq = s.logSeq := rfl
@[simp] theorem setNode_said (s : State) (k : Nat) (n : Node) : (setNode s k n).said = s.said := rfl
@[simp] theorem setNode_stuck (s : State) (k : Nat) (n : Node) : (setNode s k n).stuck = s.stuck := rfl
@[simp] theorem setNode_free (s : State) (k : Nat) (n : Node) : (setNode s k n).free = s.free := rfl
@[simp] theorem setNode_pending (s : State) (k : Nat) (n : Node) : (setNode s k n).pending = s.pending := rfl

-- setPan
@[simp] theorem setPan_time (s : State) (k : Nat) (p : Pan) : (setPan s k p).time = s.time := rfl
@[simp] theorem setPan_cores (s : State) (k : Nat) (p : Pan) : (setPan s k p).cores = s.cores := rfl
@[simp] theorem setPan_nodes (s : State) (k : Nat) (p : Pan) : (setPan s k p).nodes = s.nodes := rfl
@[simp] theorem setPan_tide (s : State) (k : Nat) (p : Pan) : (setPan s k p).tide = s.tide := rfl
@[simp] theorem setPan_sluices (s : State) (k : Nat) (p : Pan) : (setPan s k p).sluices = s.sluices := rfl
@[simp] theorem setPan_routers (s : State) (k : Nat) (p : Pan) : (setPan s k p).routers = s.routers := rfl
@[simp] theorem setPan_mesh (s : State) (k : Nat) (p : Pan) : (setPan s k p).mesh = s.mesh := rfl
@[simp] theorem setPan_edges (s : State) (k : Nat) (p : Pan) : (setPan s k p).edges = s.edges := rfl
@[simp] theorem setPan_ctlIn (s : State) (k : Nat) (p : Pan) : (setPan s k p).ctlIn = s.ctlIn := rfl
@[simp] theorem setPan_pans (s : State) (k : Nat) (p : Pan) : (setPan s k p).pans = tset Pan.zero s.pans k p := rfl
@[simp] theorem setPan_stations (s : State) (k : Nat) (p : Pan) : (setPan s k p).stations = s.stations := rfl
@[simp] theorem setPan_haltSent (s : State) (k : Nat) (p : Pan) : (setPan s k p).haltSent = s.haltSent := rfl
@[simp] theorem setPan_parts (s : State) (k : Nat) (p : Pan) : (setPan s k p).parts = s.parts := rfl
@[simp] theorem setPan_host (s : State) (k : Nat) (p : Pan) : (setPan s k p).host = s.host := rfl
@[simp] theorem setPan_bars (s : State) (k : Nat) (p : Pan) : (setPan s k p).bars = s.bars := rfl
@[simp] theorem setPan_engs (s : State) (k : Nat) (p : Pan) : (setPan s k p).engs = s.engs := rfl
@[simp] theorem setPan_pmem (s : State) (k : Nat) (p : Pan) : (setPan s k p).pmem = s.pmem := rfl
@[simp] theorem setPan_sec (s : State) (k : Nat) (p : Pan) : (setPan s k p).sec = s.sec := rfl
@[simp] theorem setPan_fuse (s : State) (k : Nat) (p : Pan) : (setPan s k p).fuse = s.fuse := rfl
@[simp] theorem setPan_ctrlOut (s : State) (k : Nat) (p : Pan) : (setPan s k p).ctrlOut = s.ctrlOut := rfl
@[simp] theorem setPan_modnum (s : State) (k : Nat) (p : Pan) : (setPan s k p).modnum = s.modnum := rfl
@[simp] theorem setPan_fab (s : State) (k : Nat) (p : Pan) : (setPan s k p).fab = s.fab := rfl
@[simp] theorem setPan_power (s : State) (k : Nat) (p : Pan) : (setPan s k p).power = s.power := rfl
@[simp] theorem setPan_rel (s : State) (k : Nat) (p : Pan) : (setPan s k p).rel = s.rel := rfl
@[simp] theorem setPan_boot (s : State) (k : Nat) (p : Pan) : (setPan s k p).boot = s.boot := rfl
@[simp] theorem setPan_log (s : State) (k : Nat) (p : Pan) : (setPan s k p).log = s.log := rfl
@[simp] theorem setPan_logSeq (s : State) (k : Nat) (p : Pan) : (setPan s k p).logSeq = s.logSeq := rfl
@[simp] theorem setPan_said (s : State) (k : Nat) (p : Pan) : (setPan s k p).said = s.said := rfl
@[simp] theorem setPan_stuck (s : State) (k : Nat) (p : Pan) : (setPan s k p).stuck = s.stuck := rfl
@[simp] theorem setPan_free (s : State) (k : Nat) (p : Pan) : (setPan s k p).free = s.free := rfl
@[simp] theorem setPan_pending (s : State) (k : Nat) (p : Pan) : (setPan s k p).pending = s.pending := rfl

-- setPart
@[simp] theorem setPart_time (s : State) (k : Nat) (p : Part) : (setPart s k p).time = s.time := rfl
@[simp] theorem setPart_cores (s : State) (k : Nat) (p : Part) : (setPart s k p).cores = s.cores := rfl
@[simp] theorem setPart_nodes (s : State) (k : Nat) (p : Part) : (setPart s k p).nodes = s.nodes := rfl
@[simp] theorem setPart_tide (s : State) (k : Nat) (p : Part) : (setPart s k p).tide = s.tide := rfl
@[simp] theorem setPart_sluices (s : State) (k : Nat) (p : Part) : (setPart s k p).sluices = s.sluices := rfl
@[simp] theorem setPart_routers (s : State) (k : Nat) (p : Part) : (setPart s k p).routers = s.routers := rfl
@[simp] theorem setPart_mesh (s : State) (k : Nat) (p : Part) : (setPart s k p).mesh = s.mesh := rfl
@[simp] theorem setPart_edges (s : State) (k : Nat) (p : Part) : (setPart s k p).edges = s.edges := rfl
@[simp] theorem setPart_ctlIn (s : State) (k : Nat) (p : Part) : (setPart s k p).ctlIn = s.ctlIn := rfl
@[simp] theorem setPart_pans (s : State) (k : Nat) (p : Part) : (setPart s k p).pans = s.pans := rfl
@[simp] theorem setPart_stations (s : State) (k : Nat) (p : Part) : (setPart s k p).stations = s.stations := rfl
@[simp] theorem setPart_haltSent (s : State) (k : Nat) (p : Part) : (setPart s k p).haltSent = s.haltSent := rfl
@[simp] theorem setPart_parts (s : State) (k : Nat) (p : Part) : (setPart s k p).parts = tset Part.zero s.parts k p := rfl
@[simp] theorem setPart_host (s : State) (k : Nat) (p : Part) : (setPart s k p).host = s.host := rfl
@[simp] theorem setPart_bars (s : State) (k : Nat) (p : Part) : (setPart s k p).bars = s.bars := rfl
@[simp] theorem setPart_engs (s : State) (k : Nat) (p : Part) : (setPart s k p).engs = s.engs := rfl
@[simp] theorem setPart_pmem (s : State) (k : Nat) (p : Part) : (setPart s k p).pmem = s.pmem := rfl
@[simp] theorem setPart_sec (s : State) (k : Nat) (p : Part) : (setPart s k p).sec = s.sec := rfl
@[simp] theorem setPart_fuse (s : State) (k : Nat) (p : Part) : (setPart s k p).fuse = s.fuse := rfl
@[simp] theorem setPart_ctrlOut (s : State) (k : Nat) (p : Part) : (setPart s k p).ctrlOut = s.ctrlOut := rfl
@[simp] theorem setPart_modnum (s : State) (k : Nat) (p : Part) : (setPart s k p).modnum = s.modnum := rfl
@[simp] theorem setPart_fab (s : State) (k : Nat) (p : Part) : (setPart s k p).fab = s.fab := rfl
@[simp] theorem setPart_power (s : State) (k : Nat) (p : Part) : (setPart s k p).power = s.power := rfl
@[simp] theorem setPart_rel (s : State) (k : Nat) (p : Part) : (setPart s k p).rel = s.rel := rfl
@[simp] theorem setPart_boot (s : State) (k : Nat) (p : Part) : (setPart s k p).boot = s.boot := rfl
@[simp] theorem setPart_log (s : State) (k : Nat) (p : Part) : (setPart s k p).log = s.log := rfl
@[simp] theorem setPart_logSeq (s : State) (k : Nat) (p : Part) : (setPart s k p).logSeq = s.logSeq := rfl
@[simp] theorem setPart_said (s : State) (k : Nat) (p : Part) : (setPart s k p).said = s.said := rfl
@[simp] theorem setPart_stuck (s : State) (k : Nat) (p : Part) : (setPart s k p).stuck = s.stuck := rfl
@[simp] theorem setPart_free (s : State) (k : Nat) (p : Part) : (setPart s k p).free = s.free := rfl
@[simp] theorem setPart_pending (s : State) (k : Nat) (p : Part) : (setPart s k p).pending = s.pending := rfl

-- setStation
@[simp] theorem setStation_time (s : State) (k : Nat) (t : Station) : (setStation s k t).time = s.time := rfl
@[simp] theorem setStation_cores (s : State) (k : Nat) (t : Station) : (setStation s k t).cores = s.cores := rfl
@[simp] theorem setStation_nodes (s : State) (k : Nat) (t : Station) : (setStation s k t).nodes = s.nodes := rfl
@[simp] theorem setStation_tide (s : State) (k : Nat) (t : Station) : (setStation s k t).tide = s.tide := rfl
@[simp] theorem setStation_sluices (s : State) (k : Nat) (t : Station) : (setStation s k t).sluices = s.sluices := rfl
@[simp] theorem setStation_routers (s : State) (k : Nat) (t : Station) : (setStation s k t).routers = s.routers := rfl
@[simp] theorem setStation_mesh (s : State) (k : Nat) (t : Station) : (setStation s k t).mesh = s.mesh := rfl
@[simp] theorem setStation_edges (s : State) (k : Nat) (t : Station) : (setStation s k t).edges = s.edges := rfl
@[simp] theorem setStation_ctlIn (s : State) (k : Nat) (t : Station) : (setStation s k t).ctlIn = s.ctlIn := rfl
@[simp] theorem setStation_pans (s : State) (k : Nat) (t : Station) : (setStation s k t).pans = s.pans := rfl
@[simp] theorem setStation_stations (s : State) (k : Nat) (t : Station) : (setStation s k t).stations = tset Station.zero s.stations k t := rfl
@[simp] theorem setStation_haltSent (s : State) (k : Nat) (t : Station) : (setStation s k t).haltSent = s.haltSent := rfl
@[simp] theorem setStation_parts (s : State) (k : Nat) (t : Station) : (setStation s k t).parts = s.parts := rfl
@[simp] theorem setStation_host (s : State) (k : Nat) (t : Station) : (setStation s k t).host = s.host := rfl
@[simp] theorem setStation_bars (s : State) (k : Nat) (t : Station) : (setStation s k t).bars = s.bars := rfl
@[simp] theorem setStation_engs (s : State) (k : Nat) (t : Station) : (setStation s k t).engs = s.engs := rfl
@[simp] theorem setStation_pmem (s : State) (k : Nat) (t : Station) : (setStation s k t).pmem = s.pmem := rfl
@[simp] theorem setStation_sec (s : State) (k : Nat) (t : Station) : (setStation s k t).sec = s.sec := rfl
@[simp] theorem setStation_fuse (s : State) (k : Nat) (t : Station) : (setStation s k t).fuse = s.fuse := rfl
@[simp] theorem setStation_ctrlOut (s : State) (k : Nat) (t : Station) : (setStation s k t).ctrlOut = s.ctrlOut := rfl
@[simp] theorem setStation_modnum (s : State) (k : Nat) (t : Station) : (setStation s k t).modnum = s.modnum := rfl
@[simp] theorem setStation_fab (s : State) (k : Nat) (t : Station) : (setStation s k t).fab = s.fab := rfl
@[simp] theorem setStation_power (s : State) (k : Nat) (t : Station) : (setStation s k t).power = s.power := rfl
@[simp] theorem setStation_rel (s : State) (k : Nat) (t : Station) : (setStation s k t).rel = s.rel := rfl
@[simp] theorem setStation_boot (s : State) (k : Nat) (t : Station) : (setStation s k t).boot = s.boot := rfl
@[simp] theorem setStation_log (s : State) (k : Nat) (t : Station) : (setStation s k t).log = s.log := rfl
@[simp] theorem setStation_logSeq (s : State) (k : Nat) (t : Station) : (setStation s k t).logSeq = s.logSeq := rfl
@[simp] theorem setStation_said (s : State) (k : Nat) (t : Station) : (setStation s k t).said = s.said := rfl
@[simp] theorem setStation_stuck (s : State) (k : Nat) (t : Station) : (setStation s k t).stuck = s.stuck := rfl
@[simp] theorem setStation_free (s : State) (k : Nat) (t : Station) : (setStation s k t).free = s.free := rfl
@[simp] theorem setStation_pending (s : State) (k : Nat) (t : Station) : (setStation s k t).pending = s.pending := rfl

-- setEng
@[simp] theorem setEng_time (s : State) (e : Nat) (x : Engine48) : (setEng s e x).time = s.time := rfl
@[simp] theorem setEng_cores (s : State) (e : Nat) (x : Engine48) : (setEng s e x).cores = s.cores := rfl
@[simp] theorem setEng_nodes (s : State) (e : Nat) (x : Engine48) : (setEng s e x).nodes = s.nodes := rfl
@[simp] theorem setEng_tide (s : State) (e : Nat) (x : Engine48) : (setEng s e x).tide = s.tide := rfl
@[simp] theorem setEng_sluices (s : State) (e : Nat) (x : Engine48) : (setEng s e x).sluices = s.sluices := rfl
@[simp] theorem setEng_routers (s : State) (e : Nat) (x : Engine48) : (setEng s e x).routers = s.routers := rfl
@[simp] theorem setEng_mesh (s : State) (e : Nat) (x : Engine48) : (setEng s e x).mesh = s.mesh := rfl
@[simp] theorem setEng_edges (s : State) (e : Nat) (x : Engine48) : (setEng s e x).edges = s.edges := rfl
@[simp] theorem setEng_ctlIn (s : State) (e : Nat) (x : Engine48) : (setEng s e x).ctlIn = s.ctlIn := rfl
@[simp] theorem setEng_pans (s : State) (e : Nat) (x : Engine48) : (setEng s e x).pans = s.pans := rfl
@[simp] theorem setEng_stations (s : State) (e : Nat) (x : Engine48) : (setEng s e x).stations = s.stations := rfl
@[simp] theorem setEng_haltSent (s : State) (e : Nat) (x : Engine48) : (setEng s e x).haltSent = s.haltSent := rfl
@[simp] theorem setEng_parts (s : State) (e : Nat) (x : Engine48) : (setEng s e x).parts = s.parts := rfl
@[simp] theorem setEng_host (s : State) (e : Nat) (x : Engine48) : (setEng s e x).host = s.host := rfl
@[simp] theorem setEng_bars (s : State) (e : Nat) (x : Engine48) : (setEng s e x).bars = s.bars := rfl
@[simp] theorem setEng_engs (s : State) (e : Nat) (x : Engine48) : (setEng s e x).engs = tset Engine48.zero s.engs e x := rfl
@[simp] theorem setEng_pmem (s : State) (e : Nat) (x : Engine48) : (setEng s e x).pmem = s.pmem := rfl
@[simp] theorem setEng_sec (s : State) (e : Nat) (x : Engine48) : (setEng s e x).sec = s.sec := rfl
@[simp] theorem setEng_fuse (s : State) (e : Nat) (x : Engine48) : (setEng s e x).fuse = s.fuse := rfl
@[simp] theorem setEng_ctrlOut (s : State) (e : Nat) (x : Engine48) : (setEng s e x).ctrlOut = s.ctrlOut := rfl
@[simp] theorem setEng_modnum (s : State) (e : Nat) (x : Engine48) : (setEng s e x).modnum = s.modnum := rfl
@[simp] theorem setEng_fab (s : State) (e : Nat) (x : Engine48) : (setEng s e x).fab = s.fab := rfl
@[simp] theorem setEng_power (s : State) (e : Nat) (x : Engine48) : (setEng s e x).power = s.power := rfl
@[simp] theorem setEng_rel (s : State) (e : Nat) (x : Engine48) : (setEng s e x).rel = s.rel := rfl
@[simp] theorem setEng_boot (s : State) (e : Nat) (x : Engine48) : (setEng s e x).boot = s.boot := rfl
@[simp] theorem setEng_log (s : State) (e : Nat) (x : Engine48) : (setEng s e x).log = s.log := rfl
@[simp] theorem setEng_logSeq (s : State) (e : Nat) (x : Engine48) : (setEng s e x).logSeq = s.logSeq := rfl
@[simp] theorem setEng_said (s : State) (e : Nat) (x : Engine48) : (setEng s e x).said = s.said := rfl
@[simp] theorem setEng_stuck (s : State) (e : Nat) (x : Engine48) : (setEng s e x).stuck = s.stuck := rfl
@[simp] theorem setEng_free (s : State) (e : Nat) (x : Engine48) : (setEng s e x).free = s.free := rfl
@[simp] theorem setEng_pending (s : State) (e : Nat) (x : Engine48) : (setEng s e x).pending = s.pending := rfl

-- setQp
@[simp] theorem setQp_time (s : State) (q : Nat) (p : Qp) : (setQp s q p).time = s.time := rfl
@[simp] theorem setQp_cores (s : State) (q : Nat) (p : Qp) : (setQp s q p).cores = s.cores := rfl
@[simp] theorem setQp_nodes (s : State) (q : Nat) (p : Qp) : (setQp s q p).nodes = s.nodes := rfl
@[simp] theorem setQp_tide (s : State) (q : Nat) (p : Qp) : (setQp s q p).tide = s.tide := rfl
@[simp] theorem setQp_sluices (s : State) (q : Nat) (p : Qp) : (setQp s q p).sluices = s.sluices := rfl
@[simp] theorem setQp_routers (s : State) (q : Nat) (p : Qp) : (setQp s q p).routers = s.routers := rfl
@[simp] theorem setQp_mesh (s : State) (q : Nat) (p : Qp) : (setQp s q p).mesh = s.mesh := rfl
@[simp] theorem setQp_edges (s : State) (q : Nat) (p : Qp) : (setQp s q p).edges = s.edges := rfl
@[simp] theorem setQp_ctlIn (s : State) (q : Nat) (p : Qp) : (setQp s q p).ctlIn = s.ctlIn := rfl
@[simp] theorem setQp_pans (s : State) (q : Nat) (p : Qp) : (setQp s q p).pans = s.pans := rfl
@[simp] theorem setQp_stations (s : State) (q : Nat) (p : Qp) : (setQp s q p).stations = s.stations := rfl
@[simp] theorem setQp_haltSent (s : State) (q : Nat) (p : Qp) : (setQp s q p).haltSent = s.haltSent := rfl
@[simp] theorem setQp_parts (s : State) (q : Nat) (p : Qp) : (setQp s q p).parts = s.parts := rfl
@[simp] theorem setQp_host (s : State) (q : Nat) (p : Qp) : (setQp s q p).host = { s.host with qps := tset Qp.zero s.host.qps q p } := rfl
@[simp] theorem setQp_bars (s : State) (q : Nat) (p : Qp) : (setQp s q p).bars = s.bars := rfl
@[simp] theorem setQp_engs (s : State) (q : Nat) (p : Qp) : (setQp s q p).engs = s.engs := rfl
@[simp] theorem setQp_pmem (s : State) (q : Nat) (p : Qp) : (setQp s q p).pmem = s.pmem := rfl
@[simp] theorem setQp_sec (s : State) (q : Nat) (p : Qp) : (setQp s q p).sec = s.sec := rfl
@[simp] theorem setQp_fuse (s : State) (q : Nat) (p : Qp) : (setQp s q p).fuse = s.fuse := rfl
@[simp] theorem setQp_ctrlOut (s : State) (q : Nat) (p : Qp) : (setQp s q p).ctrlOut = s.ctrlOut := rfl
@[simp] theorem setQp_modnum (s : State) (q : Nat) (p : Qp) : (setQp s q p).modnum = s.modnum := rfl
@[simp] theorem setQp_fab (s : State) (q : Nat) (p : Qp) : (setQp s q p).fab = s.fab := rfl
@[simp] theorem setQp_power (s : State) (q : Nat) (p : Qp) : (setQp s q p).power = s.power := rfl
@[simp] theorem setQp_rel (s : State) (q : Nat) (p : Qp) : (setQp s q p).rel = s.rel := rfl
@[simp] theorem setQp_boot (s : State) (q : Nat) (p : Qp) : (setQp s q p).boot = s.boot := rfl
@[simp] theorem setQp_log (s : State) (q : Nat) (p : Qp) : (setQp s q p).log = s.log := rfl
@[simp] theorem setQp_logSeq (s : State) (q : Nat) (p : Qp) : (setQp s q p).logSeq = s.logSeq := rfl
@[simp] theorem setQp_said (s : State) (q : Nat) (p : Qp) : (setQp s q p).said = s.said := rfl
@[simp] theorem setQp_stuck (s : State) (q : Nat) (p : Qp) : (setQp s q p).stuck = s.stuck := rfl
@[simp] theorem setQp_free (s : State) (q : Nat) (p : Qp) : (setQp s q p).free = s.free := rfl
@[simp] theorem setQp_pending (s : State) (q : Nat) (p : Qp) : (setQp s q p).pending = s.pending := rfl

-- setVec
@[simp] theorem setVec_time (s : State) (v : Nat) (x : Vec) : (setVec s v x).time = s.time := rfl
@[simp] theorem setVec_cores (s : State) (v : Nat) (x : Vec) : (setVec s v x).cores = s.cores := rfl
@[simp] theorem setVec_nodes (s : State) (v : Nat) (x : Vec) : (setVec s v x).nodes = s.nodes := rfl
@[simp] theorem setVec_tide (s : State) (v : Nat) (x : Vec) : (setVec s v x).tide = s.tide := rfl
@[simp] theorem setVec_sluices (s : State) (v : Nat) (x : Vec) : (setVec s v x).sluices = s.sluices := rfl
@[simp] theorem setVec_routers (s : State) (v : Nat) (x : Vec) : (setVec s v x).routers = s.routers := rfl
@[simp] theorem setVec_mesh (s : State) (v : Nat) (x : Vec) : (setVec s v x).mesh = s.mesh := rfl
@[simp] theorem setVec_edges (s : State) (v : Nat) (x : Vec) : (setVec s v x).edges = s.edges := rfl
@[simp] theorem setVec_ctlIn (s : State) (v : Nat) (x : Vec) : (setVec s v x).ctlIn = s.ctlIn := rfl
@[simp] theorem setVec_pans (s : State) (v : Nat) (x : Vec) : (setVec s v x).pans = s.pans := rfl
@[simp] theorem setVec_stations (s : State) (v : Nat) (x : Vec) : (setVec s v x).stations = s.stations := rfl
@[simp] theorem setVec_haltSent (s : State) (v : Nat) (x : Vec) : (setVec s v x).haltSent = s.haltSent := rfl
@[simp] theorem setVec_parts (s : State) (v : Nat) (x : Vec) : (setVec s v x).parts = s.parts := rfl
@[simp] theorem setVec_host (s : State) (v : Nat) (x : Vec) : (setVec s v x).host = { s.host with vecs := tset Vec.zero s.host.vecs v x } := rfl
@[simp] theorem setVec_bars (s : State) (v : Nat) (x : Vec) : (setVec s v x).bars = s.bars := rfl
@[simp] theorem setVec_engs (s : State) (v : Nat) (x : Vec) : (setVec s v x).engs = s.engs := rfl
@[simp] theorem setVec_pmem (s : State) (v : Nat) (x : Vec) : (setVec s v x).pmem = s.pmem := rfl
@[simp] theorem setVec_sec (s : State) (v : Nat) (x : Vec) : (setVec s v x).sec = s.sec := rfl
@[simp] theorem setVec_fuse (s : State) (v : Nat) (x : Vec) : (setVec s v x).fuse = s.fuse := rfl
@[simp] theorem setVec_ctrlOut (s : State) (v : Nat) (x : Vec) : (setVec s v x).ctrlOut = s.ctrlOut := rfl
@[simp] theorem setVec_modnum (s : State) (v : Nat) (x : Vec) : (setVec s v x).modnum = s.modnum := rfl
@[simp] theorem setVec_fab (s : State) (v : Nat) (x : Vec) : (setVec s v x).fab = s.fab := rfl
@[simp] theorem setVec_power (s : State) (v : Nat) (x : Vec) : (setVec s v x).power = s.power := rfl
@[simp] theorem setVec_rel (s : State) (v : Nat) (x : Vec) : (setVec s v x).rel = s.rel := rfl
@[simp] theorem setVec_boot (s : State) (v : Nat) (x : Vec) : (setVec s v x).boot = s.boot := rfl
@[simp] theorem setVec_log (s : State) (v : Nat) (x : Vec) : (setVec s v x).log = s.log := rfl
@[simp] theorem setVec_logSeq (s : State) (v : Nat) (x : Vec) : (setVec s v x).logSeq = s.logSeq := rfl
@[simp] theorem setVec_said (s : State) (v : Nat) (x : Vec) : (setVec s v x).said = s.said := rfl
@[simp] theorem setVec_stuck (s : State) (v : Nat) (x : Vec) : (setVec s v x).stuck = s.stuck := rfl
@[simp] theorem setVec_free (s : State) (v : Nat) (x : Vec) : (setVec s v x).free = s.free := rfl
@[simp] theorem setVec_pending (s : State) (v : Nat) (x : Vec) : (setVec s v x).pending = s.pending := rfl

-- withPending
@[simp] theorem State.withPending_time (s : State) (l : List Instr) : (s.withPending l).time = s.time := rfl
@[simp] theorem State.withPending_cores (s : State) (l : List Instr) : (s.withPending l).cores = s.cores := rfl
@[simp] theorem State.withPending_nodes (s : State) (l : List Instr) : (s.withPending l).nodes = s.nodes := rfl
@[simp] theorem State.withPending_tide (s : State) (l : List Instr) : (s.withPending l).tide = s.tide := rfl
@[simp] theorem State.withPending_sluices (s : State) (l : List Instr) : (s.withPending l).sluices = s.sluices := rfl
@[simp] theorem State.withPending_routers (s : State) (l : List Instr) : (s.withPending l).routers = s.routers := rfl
@[simp] theorem State.withPending_mesh (s : State) (l : List Instr) : (s.withPending l).mesh = s.mesh := rfl
@[simp] theorem State.withPending_edges (s : State) (l : List Instr) : (s.withPending l).edges = s.edges := rfl
@[simp] theorem State.withPending_ctlIn (s : State) (l : List Instr) : (s.withPending l).ctlIn = s.ctlIn := rfl
@[simp] theorem State.withPending_pans (s : State) (l : List Instr) : (s.withPending l).pans = s.pans := rfl
@[simp] theorem State.withPending_stations (s : State) (l : List Instr) : (s.withPending l).stations = s.stations := rfl
@[simp] theorem State.withPending_haltSent (s : State) (l : List Instr) : (s.withPending l).haltSent = s.haltSent := rfl
@[simp] theorem State.withPending_parts (s : State) (l : List Instr) : (s.withPending l).parts = s.parts := rfl
@[simp] theorem State.withPending_host (s : State) (l : List Instr) : (s.withPending l).host = s.host := rfl
@[simp] theorem State.withPending_bars (s : State) (l : List Instr) : (s.withPending l).bars = s.bars := rfl
@[simp] theorem State.withPending_engs (s : State) (l : List Instr) : (s.withPending l).engs = s.engs := rfl
@[simp] theorem State.withPending_pmem (s : State) (l : List Instr) : (s.withPending l).pmem = s.pmem := rfl
@[simp] theorem State.withPending_sec (s : State) (l : List Instr) : (s.withPending l).sec = s.sec := rfl
@[simp] theorem State.withPending_fuse (s : State) (l : List Instr) : (s.withPending l).fuse = s.fuse := rfl
@[simp] theorem State.withPending_ctrlOut (s : State) (l : List Instr) : (s.withPending l).ctrlOut = s.ctrlOut := rfl
@[simp] theorem State.withPending_modnum (s : State) (l : List Instr) : (s.withPending l).modnum = s.modnum := rfl
@[simp] theorem State.withPending_fab (s : State) (l : List Instr) : (s.withPending l).fab = s.fab := rfl
@[simp] theorem State.withPending_power (s : State) (l : List Instr) : (s.withPending l).power = s.power := rfl
@[simp] theorem State.withPending_rel (s : State) (l : List Instr) : (s.withPending l).rel = s.rel := rfl
@[simp] theorem State.withPending_boot (s : State) (l : List Instr) : (s.withPending l).boot = s.boot := rfl
@[simp] theorem State.withPending_log (s : State) (l : List Instr) : (s.withPending l).log = s.log := rfl
@[simp] theorem State.withPending_logSeq (s : State) (l : List Instr) : (s.withPending l).logSeq = s.logSeq := rfl
@[simp] theorem State.withPending_said (s : State) (l : List Instr) : (s.withPending l).said = s.said := rfl
@[simp] theorem State.withPending_stuck (s : State) (l : List Instr) : (s.withPending l).stuck = s.stuck := rfl
@[simp] theorem State.withPending_free (s : State) (l : List Instr) : (s.withPending l).free = s.free := rfl
@[simp] theorem State.withPending_pending (s : State) (l : List Instr) : (s.withPending l).pending = l := rfl

-- putS
@[simp] theorem putS_r (c : Core) (d : Reg) (v : Word) : (putS d v c).r = c.r := rfl
@[simp] theorem putS_stallW (c : Core) (d : Reg) (v : Word) : (putS d v c).stallW = c.stallW := rfl
@[simp] theorem putS_seed (c : Core) (d : Reg) (v : Word) : (putS d v c).seed = c.seed := rfl
@[simp] theorem putS_guard (c : Core) (d : Reg) (v : Word) : (putS d v c).guard = c.guard := rfl
@[simp] theorem putS_pc (c : Core) (d : Reg) (v : Word) : (putS d v c).pc = c.pc := rfl
@[simp] theorem putS_wcount (c : Core) (d : Reg) (v : Word) : (putS d v c).wcount = c.wcount := rfl
@[simp] theorem putS_flags (c : Core) (d : Reg) (v : Word) : (putS d v c).flags = c.flags := rfl
@[simp] theorem putS_ch (c : Core) (d : Reg) (v : Word) : (putS d v c).ch = c.ch := rfl
@[simp] theorem putS_s (c : Core) (d : Reg) (v : Word) : (putS d v c).s = c.s.set d v := rfl
@[simp] theorem putS_p (c : Core) (d : Reg) (v : Word) : (putS d v c).p = c.p := rfl
@[simp] theorem putS_v (c : Core) (d : Reg) (v : Word) : (putS d v c).v = c.v := rfl
@[simp] theorem putS_sram (c : Core) (d : Reg) (v : Word) : (putS d v c).sram = c.sram := rfl
@[simp] theorem putS_ecc (c : Core) (d : Reg) (v : Word) : (putS d v c).ecc = c.ecc := rfl
@[simp] theorem putS_banks (c : Core) (d : Reg) (v : Word) : (putS d v c).banks = c.banks := rfl
@[simp] theorem putS_stg (c : Core) (d : Reg) (v : Word) : (putS d v c).stg = c.stg := rfl
@[simp] theorem putS_iq (c : Core) (d : Reg) (v : Word) : (putS d v c).iq = c.iq := rfl
@[simp] theorem putS_oq (c : Core) (d : Reg) (v : Word) : (putS d v c).oq = c.oq := rfl
@[simp] theorem putS_folds (c : Core) (d : Reg) (v : Word) : (putS d v c).folds = c.folds := rfl
@[simp] theorem putS_su (c : Core) (d : Reg) (v : Word) : (putS d v c).su = c.su := rfl
@[simp] theorem putS_dma (c : Core) (d : Reg) (v : Word) : (putS d v c).dma = c.dma := rfl
@[simp] theorem putS_x (c : Core) (d : Reg) (v : Word) : (putS d v c).x = c.x := rfl

-- putP
@[simp] theorem putP_r (c : Core) (r : Pred) (b : Bool) : (putP r b c).r = c.r := rfl
@[simp] theorem putP_stallW (c : Core) (r : Pred) (b : Bool) : (putP r b c).stallW = c.stallW := rfl
@[simp] theorem putP_seed (c : Core) (r : Pred) (b : Bool) : (putP r b c).seed = c.seed := rfl
@[simp] theorem putP_guard (c : Core) (r : Pred) (b : Bool) : (putP r b c).guard = c.guard := rfl
@[simp] theorem putP_pc (c : Core) (r : Pred) (b : Bool) : (putP r b c).pc = c.pc := rfl
@[simp] theorem putP_wcount (c : Core) (r : Pred) (b : Bool) : (putP r b c).wcount = c.wcount := rfl
@[simp] theorem putP_flags (c : Core) (r : Pred) (b : Bool) : (putP r b c).flags = c.flags := rfl
@[simp] theorem putP_ch (c : Core) (r : Pred) (b : Bool) : (putP r b c).ch = c.ch := rfl
@[simp] theorem putP_s (c : Core) (r : Pred) (b : Bool) : (putP r b c).s = c.s := rfl
@[simp] theorem putP_p (c : Core) (r : Pred) (b : Bool) : (putP r b c).p = predSet c.p r b := rfl
@[simp] theorem putP_v (c : Core) (r : Pred) (b : Bool) : (putP r b c).v = c.v := rfl
@[simp] theorem putP_sram (c : Core) (r : Pred) (b : Bool) : (putP r b c).sram = c.sram := rfl
@[simp] theorem putP_ecc (c : Core) (r : Pred) (b : Bool) : (putP r b c).ecc = c.ecc := rfl
@[simp] theorem putP_banks (c : Core) (r : Pred) (b : Bool) : (putP r b c).banks = c.banks := rfl
@[simp] theorem putP_stg (c : Core) (r : Pred) (b : Bool) : (putP r b c).stg = c.stg := rfl
@[simp] theorem putP_iq (c : Core) (r : Pred) (b : Bool) : (putP r b c).iq = c.iq := rfl
@[simp] theorem putP_oq (c : Core) (r : Pred) (b : Bool) : (putP r b c).oq = c.oq := rfl
@[simp] theorem putP_folds (c : Core) (r : Pred) (b : Bool) : (putP r b c).folds = c.folds := rfl
@[simp] theorem putP_su (c : Core) (r : Pred) (b : Bool) : (putP r b c).su = c.su := rfl
@[simp] theorem putP_dma (c : Core) (r : Pred) (b : Bool) : (putP r b c).dma = c.dma := rfl
@[simp] theorem putP_x (c : Core) (r : Pred) (b : Bool) : (putP r b c).x = c.x := rfl

-- putV
@[simp] theorem putV_r (c : Core) (d : Reg) (v : Vector Lane 32) : (putV d v c).r = c.r := rfl
@[simp] theorem putV_stallW (c : Core) (d : Reg) (v : Vector Lane 32) : (putV d v c).stallW = c.stallW := rfl
@[simp] theorem putV_seed (c : Core) (d : Reg) (v : Vector Lane 32) : (putV d v c).seed = c.seed := rfl
@[simp] theorem putV_guard (c : Core) (d : Reg) (v : Vector Lane 32) : (putV d v c).guard = c.guard := rfl
@[simp] theorem putV_pc (c : Core) (d : Reg) (v : Vector Lane 32) : (putV d v c).pc = c.pc := rfl
@[simp] theorem putV_wcount (c : Core) (d : Reg) (v : Vector Lane 32) : (putV d v c).wcount = c.wcount := rfl
@[simp] theorem putV_flags (c : Core) (d : Reg) (v : Vector Lane 32) : (putV d v c).flags = c.flags := rfl
@[simp] theorem putV_ch (c : Core) (d : Reg) (v : Vector Lane 32) : (putV d v c).ch = c.ch := rfl
@[simp] theorem putV_s (c : Core) (d : Reg) (v : Vector Lane 32) : (putV d v c).s = c.s := rfl
@[simp] theorem putV_p (c : Core) (d : Reg) (v : Vector Lane 32) : (putV d v c).p = c.p := rfl
@[simp] theorem putV_v (c : Core) (d : Reg) (v : Vector Lane 32) : (putV d v c).v = c.v.set d v := rfl
@[simp] theorem putV_sram (c : Core) (d : Reg) (v : Vector Lane 32) : (putV d v c).sram = c.sram := rfl
@[simp] theorem putV_ecc (c : Core) (d : Reg) (v : Vector Lane 32) : (putV d v c).ecc = c.ecc := rfl
@[simp] theorem putV_banks (c : Core) (d : Reg) (v : Vector Lane 32) : (putV d v c).banks = c.banks := rfl
@[simp] theorem putV_stg (c : Core) (d : Reg) (v : Vector Lane 32) : (putV d v c).stg = c.stg := rfl
@[simp] theorem putV_iq (c : Core) (d : Reg) (v : Vector Lane 32) : (putV d v c).iq = c.iq := rfl
@[simp] theorem putV_oq (c : Core) (d : Reg) (v : Vector Lane 32) : (putV d v c).oq = c.oq := rfl
@[simp] theorem putV_folds (c : Core) (d : Reg) (v : Vector Lane 32) : (putV d v c).folds = c.folds := rfl
@[simp] theorem putV_su (c : Core) (d : Reg) (v : Vector Lane 32) : (putV d v c).su = c.su := rfl
@[simp] theorem putV_dma (c : Core) (d : Reg) (v : Vector Lane 32) : (putV d v c).dma = c.dma := rfl
@[simp] theorem putV_x (c : Core) (d : Reg) (v : Vector Lane 32) : (putV d v c).x = c.x := rfl

-- beginIns
@[simp] theorem beginIns_r (e : Env) (eng : Engine) (d : Disp) (occ lat : Nat) (c : Core) : (beginIns e eng d occ lat c).r = c.r := rfl
@[simp] theorem beginIns_stallW (e : Env) (eng : Engine) (d : Disp) (occ lat : Nat) (c : Core) : (beginIns e eng d occ lat c).stallW = c.stallW := rfl
@[simp] theorem beginIns_seed (e : Env) (eng : Engine) (d : Disp) (occ lat : Nat) (c : Core) : (beginIns e eng d occ lat c).seed = c.seed := rfl
@[simp] theorem beginIns_guard (e : Env) (eng : Engine) (d : Disp) (occ lat : Nat) (c : Core) : (beginIns e eng d occ lat c).guard = c.guard := rfl
@[simp] theorem beginIns_pc (e : Env) (eng : Engine) (d : Disp) (occ lat : Nat) (c : Core) : (beginIns e eng d occ lat c).pc = c.pc := rfl
@[simp] theorem beginIns_wcount (e : Env) (eng : Engine) (d : Disp) (occ lat : Nat) (c : Core) : (beginIns e eng d occ lat c).wcount = c.wcount := rfl
@[simp] theorem beginIns_flags (e : Env) (eng : Engine) (d : Disp) (occ lat : Nat) (c : Core) : (beginIns e eng d occ lat c).flags = c.flags := rfl
@[simp] theorem beginIns_ch (e : Env) (eng : Engine) (d : Disp) (occ lat : Nat) (c : Core) : (beginIns e eng d occ lat c).ch = c.ch := rfl
@[simp] theorem beginIns_s (e : Env) (eng : Engine) (d : Disp) (occ lat : Nat) (c : Core) : (beginIns e eng d occ lat c).s = c.s := rfl
@[simp] theorem beginIns_p (e : Env) (eng : Engine) (d : Disp) (occ lat : Nat) (c : Core) : (beginIns e eng d occ lat c).p = c.p := rfl
@[simp] theorem beginIns_v (e : Env) (eng : Engine) (d : Disp) (occ lat : Nat) (c : Core) : (beginIns e eng d occ lat c).v = c.v := rfl
@[simp] theorem beginIns_sram (e : Env) (eng : Engine) (d : Disp) (occ lat : Nat) (c : Core) : (beginIns e eng d occ lat c).sram = c.sram := rfl
@[simp] theorem beginIns_ecc (e : Env) (eng : Engine) (d : Disp) (occ lat : Nat) (c : Core) : (beginIns e eng d occ lat c).ecc = c.ecc := rfl
@[simp] theorem beginIns_banks (e : Env) (eng : Engine) (d : Disp) (occ lat : Nat) (c : Core) : (beginIns e eng d occ lat c).banks = c.banks := rfl
@[simp] theorem beginIns_stg (e : Env) (eng : Engine) (d : Disp) (occ lat : Nat) (c : Core) : (beginIns e eng d occ lat c).stg = c.stg := rfl
@[simp] theorem beginIns_iq (e : Env) (eng : Engine) (d : Disp) (occ lat : Nat) (c : Core) : (beginIns e eng d occ lat c).iq = c.iq := rfl
@[simp] theorem beginIns_oq (e : Env) (eng : Engine) (d : Disp) (occ lat : Nat) (c : Core) : (beginIns e eng d occ lat c).oq = c.oq := rfl
@[simp] theorem beginIns_folds (e : Env) (eng : Engine) (d : Disp) (occ lat : Nat) (c : Core) : (beginIns e eng d occ lat c).folds = c.folds := rfl
@[simp] theorem beginIns_su (e : Env) (eng : Engine) (d : Disp) (occ lat : Nat) (c : Core) : (beginIns e eng d occ lat c).su = c.su := rfl
@[simp] theorem beginIns_dma (e : Env) (eng : Engine) (d : Disp) (occ lat : Nat) (c : Core) : (beginIns e eng d occ lat c).dma = c.dma := rfl
@[simp] theorem beginIns_lag (e : Env) (eng : Engine) (d : Disp) (occ lat : Nat) (c : Core) :
    (beginIns e eng d occ lat c).x.lag = c.x.lag := rfl
@[simp] theorem beginIns_fetch (e : Env) (eng : Engine) (d : Disp) (occ lat : Nat) (c : Core) :
    (beginIns e eng d occ lat c).x.fetch = c.x.fetch := rfl
@[simp] theorem beginIns_fetchAt (e : Env) (eng : Engine) (d : Disp) (occ lat : Nat) (c : Core) :
    (beginIns e eng d occ lat c).x.fetchAt = c.x.fetchAt := rfl
@[simp] theorem beginIns_far (e : Env) (eng : Engine) (d : Disp) (occ lat : Nat) (c : Core) :
    (beginIns e eng d occ lat c).x.far = c.x.far := rfl
@[simp] theorem beginIns_lastPc (e : Env) (eng : Engine) (d : Disp) (occ lat : Nat) (c : Core) :
    (beginIns e eng d occ lat c).x.lastPc = c.x.lastPc := rfl
@[simp] theorem beginIns_fbuf (e : Env) (eng : Engine) (d : Disp) (occ lat : Nat) (c : Core) :
    (beginIns e eng d occ lat c).x.fbuf = c.x.fbuf := rfl
@[simp] theorem beginIns_fw1 (e : Env) (eng : Engine) (d : Disp) (occ lat : Nat) (c : Core) :
    (beginIns e eng d occ lat c).x.fw1 = c.x.fw1 := rfl
@[simp] theorem beginIns_iss (e : Env) (eng : Engine) (d : Disp) (occ lat : Nat) (c : Core) :
    (beginIns e eng d occ lat c).x.iss = c.x.iss.set (engNum eng) ((issueOf eng c).drop 1) := rfl
@[simp] theorem beginIns_seq (e : Env) (eng : Engine) (d : Disp) (occ lat : Nat) (c : Core) :
    (beginIns e eng d occ lat c).x.seq = c.x.seq := rfl
@[simp] theorem beginIns_busy (e : Env) (eng : Engine) (d : Disp) (occ lat : Nat) (c : Core) :
    (beginIns e eng d occ lat c).x.busy = c.x.busy.set (engNum eng) (e.now + occ) := rfl
@[simp] theorem beginIns_begun (e : Env) (eng : Engine) (d : Disp) (occ lat : Nat) (c : Core) :
    (beginIns e eng d occ lat c).x.begun =
      ⟨d.ins, d.seq, eng, e.now, e.now + lat, writesOf d.ins d.sc, stagingUse d.ins d.sc,
        if writesAsGoes d.ins then [] else (writesOf d.ins d.sc).map (undoOf c)⟩ ::
        c.x.begun.filter (fun b => decide (e.now < b.due)) := rfl
@[simp] theorem beginIns_runs (e : Env) (eng : Engine) (d : Disp) (occ lat : Nat) (c : Core) :
    (beginIns e eng d occ lat c).x.runs = c.x.runs := rfl
@[simp] theorem beginIns_wRow (e : Env) (eng : Engine) (d : Disp) (occ lat : Nat) (c : Core) :
    (beginIns e eng d occ lat c).x.wRow = c.x.wRow := rfl
@[simp] theorem beginIns_dRow (e : Env) (eng : Engine) (d : Disp) (occ lat : Nat) (c : Core) :
    (beginIns e eng d occ lat c).x.dRow = c.x.dRow := rfl
@[simp] theorem beginIns_chosen (e : Env) (eng : Engine) (d : Disp) (occ lat : Nat) (c : Core) :
    (beginIns e eng d occ lat c).x.chosen = c.x.chosen := rfl
@[simp] theorem beginIns_held (e : Env) (eng : Engine) (d : Disp) (occ lat : Nat) (c : Core) :
    (beginIns e eng d occ lat c).x.held = c.x.held := rfl
@[simp] theorem beginIns_drop (e : Env) (eng : Engine) (d : Disp) (occ lat : Nat) (c : Core) :
    (beginIns e eng d occ lat c).x.drop = c.x.drop := rfl
@[simp] theorem beginIns_ctl (e : Env) (eng : Engine) (d : Disp) (occ lat : Nat) (c : Core) :
    (beginIns e eng d occ lat c).x.ctl = c.x.ctl := rfl
@[simp] theorem beginIns_urgent (e : Env) (eng : Engine) (d : Disp) (occ lat : Nat) (c : Core) :
    (beginIns e eng d occ lat c).x.urgent = c.x.urgent := rfl
@[simp] theorem beginIns_phase3 (e : Env) (eng : Engine) (d : Disp) (occ lat : Nat) (c : Core) :
    (beginIns e eng d occ lat c).x.phase3 = c.x.phase3 := rfl
@[simp] theorem beginIns_gres (e : Env) (eng : Engine) (d : Disp) (occ lat : Nat) (c : Core) :
    (beginIns e eng d occ lat c).x.gres = c.x.gres := rfl
@[simp] theorem beginIns_rakeAt (e : Env) (eng : Engine) (d : Disp) (occ lat : Nat) (c : Core) :
    (beginIns e eng d occ lat c).x.rakeAt = c.x.rakeAt := rfl
@[simp] theorem beginIns_commit (e : Env) (eng : Engine) (d : Disp) (occ lat : Nat) (c : Core) :
    (beginIns e eng d occ lat c).x.commit = c.x.commit := rfl
@[simp] theorem beginIns_haltReq (e : Env) (eng : Engine) (d : Disp) (occ lat : Nat) (c : Core) :
    (beginIns e eng d occ lat c).x.haltReq = c.x.haltReq := rfl
@[simp] theorem beginIns_bpSkip (e : Env) (eng : Engine) (d : Disp) (occ lat : Nat) (c : Core) :
    (beginIns e eng d occ lat c).x.bpSkip = c.x.bpSkip := rfl
@[simp] theorem beginIns_stalled (e : Env) (eng : Engine) (d : Disp) (occ lat : Nat) (c : Core) :
    (beginIns e eng d occ lat c).x.stalled = c.x.stalled := rfl
@[simp] theorem beginIns_prefire (e : Env) (eng : Engine) (d : Disp) (occ lat : Nat) (c : Core) :
    (beginIns e eng d occ lat c).x.prefire = c.x.prefire := rfl
@[simp] theorem beginIns_faultAt (e : Env) (eng : Engine) (d : Disp) (occ lat : Nat) (c : Core) :
    (beginIns e eng d occ lat c).x.faultAt = c.x.faultAt := rfl
@[simp] theorem beginIns_frank (e : Env) (eng : Engine) (d : Disp) (occ lat : Nat) (c : Core) :
    (beginIns e eng d occ lat c).x.frank = c.x.frank := rfl
@[simp] theorem beginIns_served (e : Env) (eng : Engine) (d : Disp) (occ lat : Nat) (c : Core) :
    (beginIns e eng d occ lat c).x.served = c.x.served := rfl
@[simp] theorem beginIns_accUsed (e : Env) (eng : Engine) (d : Disp) (occ lat : Nat) (c : Core) :
    (beginIns e eng d occ lat c).x.accUsed = c.x.accUsed := rfl
@[simp] theorem beginIns_refused (e : Env) (eng : Engine) (d : Disp) (occ lat : Nat) (c : Core) :
    (beginIns e eng d occ lat c).x.refused = c.x.refused := rfl
@[simp] theorem beginIns_iqTook (e : Env) (eng : Engine) (d : Disp) (occ lat : Nat) (c : Core) :
    (beginIns e eng d occ lat c).x.iqTook = c.x.iqTook := rfl
@[simp] theorem beginIns_oqPut (e : Env) (eng : Engine) (d : Disp) (occ lat : Nat) (c : Core) :
    (beginIns e eng d occ lat c).x.oqPut = c.x.oqPut := rfl
@[simp] theorem beginIns_slotAt (e : Env) (eng : Engine) (d : Disp) (occ lat : Nat) (c : Core) :
    (beginIns e eng d occ lat c).x.slotAt = c.x.slotAt := rfl
@[simp] theorem beginIns_slotSeq (e : Env) (eng : Engine) (d : Disp) (occ lat : Nat) (c : Core) :
    (beginIns e eng d occ lat c).x.slotSeq = c.x.slotSeq := rfl
@[simp] theorem beginIns_slotN (e : Env) (eng : Engine) (d : Disp) (occ lat : Nat) (c : Core) :
    (beginIns e eng d occ lat c).x.slotN = c.x.slotN := rfl
@[simp] theorem beginIns_slotFin (e : Env) (eng : Engine) (d : Disp) (occ lat : Nat) (c : Core) :
    (beginIns e eng d occ lat c).x.slotFin = c.x.slotFin := rfl
@[simp] theorem beginIns_copied (e : Env) (eng : Engine) (d : Disp) (occ lat : Nat) (c : Core) :
    (beginIns e eng d occ lat c).x.copied = c.x.copied := rfl
@[simp] theorem beginIns_stgLeft (e : Env) (eng : Engine) (d : Disp) (occ lat : Nat) (c : Core) :
    (beginIns e eng d occ lat c).x.stgLeft = c.x.stgLeft := rfl
@[simp] theorem beginIns_tout (e : Env) (eng : Engine) (d : Disp) (occ lat : Nat) (c : Core) :
    (beginIns e eng d occ lat c).x.tout = c.x.tout := rfl
@[simp] theorem beginIns_start (e : Env) (eng : Engine) (d : Disp) (occ lat : Nat) (c : Core) :
    (beginIns e eng d occ lat c).x.start = c.x.start := rfl

-- What is read of a unit after it, or another, is replaced
theorem getCore_setCore (s : State) (k : Nat) (v : Core) (h : twf Core.zero s.cores = true) : getCore (setCore s k v) k = v :=
  tget_tset_same Core.zero s.cores k v h
theorem getCore_setCore_of_ne (s : State) (k j : Nat) (v : Core) (h : j ≠ k) : getCore (setCore s k v) j = getCore s j :=
  tget_tset_ne Core.zero s.cores k j v h
theorem getNode_setNode (s : State) (k : Nat) (v : Node) (h : twf Node.zero s.nodes = true) : getNode (setNode s k v) k = v :=
  tget_tset_same Node.zero s.nodes k v h
theorem getNode_setNode_of_ne (s : State) (k j : Nat) (v : Node) (h : j ≠ k) : getNode (setNode s k v) j = getNode s j :=
  tget_tset_ne Node.zero s.nodes k j v h
theorem getPan_setPan (s : State) (k : Nat) (v : Pan) (h : twf Pan.zero s.pans = true) : getPan (setPan s k v) k = v :=
  tget_tset_same Pan.zero s.pans k v h
theorem getPan_setPan_of_ne (s : State) (k j : Nat) (v : Pan) (h : j ≠ k) : getPan (setPan s k v) j = getPan s j :=
  tget_tset_ne Pan.zero s.pans k j v h
theorem getPart_setPart (s : State) (k : Nat) (v : Part) (h : twf Part.zero s.parts = true) : getPart (setPart s k v) k = v :=
  tget_tset_same Part.zero s.parts k v h
theorem getPart_setPart_of_ne (s : State) (k j : Nat) (v : Part) (h : j ≠ k) : getPart (setPart s k v) j = getPart s j :=
  tget_tset_ne Part.zero s.parts k j v h
theorem getStation_setStation (s : State) (k : Nat) (v : Station) (h : twf Station.zero s.stations = true) : getStation (setStation s k v) k = v :=
  tget_tset_same Station.zero s.stations k v h
theorem getStation_setStation_of_ne (s : State) (k j : Nat) (v : Station) (h : j ≠ k) : getStation (setStation s k v) j = getStation s j :=
  tget_tset_ne Station.zero s.stations k j v h
theorem getEng_setEng (s : State) (k : Nat) (v : Engine48) (h : twf Engine48.zero s.engs = true) : getEng (setEng s k v) k = v :=
  tget_tset_same Engine48.zero s.engs k v h
theorem getEng_setEng_of_ne (s : State) (k j : Nat) (v : Engine48) (h : j ≠ k) : getEng (setEng s k v) j = getEng s j :=
  tget_tset_ne Engine48.zero s.engs k j v h
theorem getQp_setQp (s : State) (k : Nat) (v : Qp) (h : twf Qp.zero s.host.qps = true) : getQp (setQp s k v) k = v :=
  tget_tset_same Qp.zero s.host.qps k v h
theorem getQp_setQp_of_ne (s : State) (k j : Nat) (v : Qp) (h : j ≠ k) : getQp (setQp s k v) j = getQp s j :=
  tget_tset_ne Qp.zero s.host.qps k j v h
theorem getVec_setVec (s : State) (k : Nat) (v : Vec) (h : twf Vec.zero s.host.vecs = true) : getVec (setVec s k v) k = v :=
  tget_tset_same Vec.zero s.host.vecs k v h
theorem getVec_setVec_of_ne (s : State) (k j : Nat) (v : Vec) (h : j ≠ k) : getVec (setVec s k v) j = getVec s j :=
  tget_tset_ne Vec.zero s.host.vecs k j v h

-- What is read of a unit after a unit of another kind is replaced
@[simp] theorem getCore_setNode (s : State) (k j : Nat) (v : Node) : getCore (setNode s k v) j = getCore s j := rfl
@[simp] theorem getCore_setPan (s : State) (k j : Nat) (v : Pan) : getCore (setPan s k v) j = getCore s j := rfl
@[simp] theorem getCore_setPart (s : State) (k j : Nat) (v : Part) : getCore (setPart s k v) j = getCore s j := rfl
@[simp] theorem getCore_setStation (s : State) (k j : Nat) (v : Station) : getCore (setStation s k v) j = getCore s j := rfl
@[simp] theorem getCore_setEng (s : State) (k j : Nat) (v : Engine48) : getCore (setEng s k v) j = getCore s j := rfl
@[simp] theorem getCore_setQp (s : State) (k j : Nat) (v : Qp) : getCore (setQp s k v) j = getCore s j := rfl
@[simp] theorem getCore_setVec (s : State) (k j : Nat) (v : Vec) : getCore (setVec s k v) j = getCore s j := rfl
@[simp] theorem getNode_setCore (s : State) (k j : Nat) (v : Core) : getNode (setCore s k v) j = getNode s j := rfl
@[simp] theorem getNode_setPan (s : State) (k j : Nat) (v : Pan) : getNode (setPan s k v) j = getNode s j := rfl
@[simp] theorem getNode_setPart (s : State) (k j : Nat) (v : Part) : getNode (setPart s k v) j = getNode s j := rfl
@[simp] theorem getNode_setStation (s : State) (k j : Nat) (v : Station) : getNode (setStation s k v) j = getNode s j := rfl
@[simp] theorem getNode_setEng (s : State) (k j : Nat) (v : Engine48) : getNode (setEng s k v) j = getNode s j := rfl
@[simp] theorem getNode_setQp (s : State) (k j : Nat) (v : Qp) : getNode (setQp s k v) j = getNode s j := rfl
@[simp] theorem getNode_setVec (s : State) (k j : Nat) (v : Vec) : getNode (setVec s k v) j = getNode s j := rfl
@[simp] theorem getPan_setCore (s : State) (k j : Nat) (v : Core) : getPan (setCore s k v) j = getPan s j := rfl
@[simp] theorem getPan_setNode (s : State) (k j : Nat) (v : Node) : getPan (setNode s k v) j = getPan s j := rfl
@[simp] theorem getPan_setPart (s : State) (k j : Nat) (v : Part) : getPan (setPart s k v) j = getPan s j := rfl
@[simp] theorem getPan_setStation (s : State) (k j : Nat) (v : Station) : getPan (setStation s k v) j = getPan s j := rfl
@[simp] theorem getPan_setEng (s : State) (k j : Nat) (v : Engine48) : getPan (setEng s k v) j = getPan s j := rfl
@[simp] theorem getPan_setQp (s : State) (k j : Nat) (v : Qp) : getPan (setQp s k v) j = getPan s j := rfl
@[simp] theorem getPan_setVec (s : State) (k j : Nat) (v : Vec) : getPan (setVec s k v) j = getPan s j := rfl
@[simp] theorem getPart_setCore (s : State) (k j : Nat) (v : Core) : getPart (setCore s k v) j = getPart s j := rfl
@[simp] theorem getPart_setNode (s : State) (k j : Nat) (v : Node) : getPart (setNode s k v) j = getPart s j := rfl
@[simp] theorem getPart_setPan (s : State) (k j : Nat) (v : Pan) : getPart (setPan s k v) j = getPart s j := rfl
@[simp] theorem getPart_setStation (s : State) (k j : Nat) (v : Station) : getPart (setStation s k v) j = getPart s j := rfl
@[simp] theorem getPart_setEng (s : State) (k j : Nat) (v : Engine48) : getPart (setEng s k v) j = getPart s j := rfl
@[simp] theorem getPart_setQp (s : State) (k j : Nat) (v : Qp) : getPart (setQp s k v) j = getPart s j := rfl
@[simp] theorem getPart_setVec (s : State) (k j : Nat) (v : Vec) : getPart (setVec s k v) j = getPart s j := rfl
@[simp] theorem getStation_setCore (s : State) (k j : Nat) (v : Core) : getStation (setCore s k v) j = getStation s j := rfl
@[simp] theorem getStation_setNode (s : State) (k j : Nat) (v : Node) : getStation (setNode s k v) j = getStation s j := rfl
@[simp] theorem getStation_setPan (s : State) (k j : Nat) (v : Pan) : getStation (setPan s k v) j = getStation s j := rfl
@[simp] theorem getStation_setPart (s : State) (k j : Nat) (v : Part) : getStation (setPart s k v) j = getStation s j := rfl
@[simp] theorem getStation_setEng (s : State) (k j : Nat) (v : Engine48) : getStation (setEng s k v) j = getStation s j := rfl
@[simp] theorem getStation_setQp (s : State) (k j : Nat) (v : Qp) : getStation (setQp s k v) j = getStation s j := rfl
@[simp] theorem getStation_setVec (s : State) (k j : Nat) (v : Vec) : getStation (setVec s k v) j = getStation s j := rfl
@[simp] theorem getEng_setCore (s : State) (k j : Nat) (v : Core) : getEng (setCore s k v) j = getEng s j := rfl
@[simp] theorem getEng_setNode (s : State) (k j : Nat) (v : Node) : getEng (setNode s k v) j = getEng s j := rfl
@[simp] theorem getEng_setPan (s : State) (k j : Nat) (v : Pan) : getEng (setPan s k v) j = getEng s j := rfl
@[simp] theorem getEng_setPart (s : State) (k j : Nat) (v : Part) : getEng (setPart s k v) j = getEng s j := rfl
@[simp] theorem getEng_setStation (s : State) (k j : Nat) (v : Station) : getEng (setStation s k v) j = getEng s j := rfl
@[simp] theorem getEng_setQp (s : State) (k j : Nat) (v : Qp) : getEng (setQp s k v) j = getEng s j := rfl
@[simp] theorem getEng_setVec (s : State) (k j : Nat) (v : Vec) : getEng (setVec s k v) j = getEng s j := rfl
@[simp] theorem getQp_setCore (s : State) (k j : Nat) (v : Core) : getQp (setCore s k v) j = getQp s j := rfl
@[simp] theorem getQp_setNode (s : State) (k j : Nat) (v : Node) : getQp (setNode s k v) j = getQp s j := rfl
@[simp] theorem getQp_setPan (s : State) (k j : Nat) (v : Pan) : getQp (setPan s k v) j = getQp s j := rfl
@[simp] theorem getQp_setPart (s : State) (k j : Nat) (v : Part) : getQp (setPart s k v) j = getQp s j := rfl
@[simp] theorem getQp_setStation (s : State) (k j : Nat) (v : Station) : getQp (setStation s k v) j = getQp s j := rfl
@[simp] theorem getQp_setEng (s : State) (k j : Nat) (v : Engine48) : getQp (setEng s k v) j = getQp s j := rfl
@[simp] theorem getQp_setVec (s : State) (k j : Nat) (v : Vec) : getQp (setVec s k v) j = getQp s j := rfl
@[simp] theorem getVec_setCore (s : State) (k j : Nat) (v : Core) : getVec (setCore s k v) j = getVec s j := rfl
@[simp] theorem getVec_setNode (s : State) (k j : Nat) (v : Node) : getVec (setNode s k v) j = getVec s j := rfl
@[simp] theorem getVec_setPan (s : State) (k j : Nat) (v : Pan) : getVec (setPan s k v) j = getVec s j := rfl
@[simp] theorem getVec_setPart (s : State) (k j : Nat) (v : Part) : getVec (setPart s k v) j = getVec s j := rfl
@[simp] theorem getVec_setStation (s : State) (k j : Nat) (v : Station) : getVec (setStation s k v) j = getVec s j := rfl
@[simp] theorem getVec_setEng (s : State) (k j : Nat) (v : Engine48) : getVec (setEng s k v) j = getVec s j := rfl
@[simp] theorem getVec_setQp (s : State) (k j : Nat) (v : Qp) : getVec (setQp s k v) j = getVec s j := rfl

end Sys2Proof.Machine
end

