-- ==== Sys2Proof/Laws/Ops.lean ====
section
/-! SUPPORT. What the shared operations can do, said once each: a command on one core, the beginning of an instruction, a request
for a bank, taking a fault, and the taking and completing of a host command. -/

namespace Sys2Proof.Machine

set_option Elab.async false

/-- A command on a core of the wafer replaces that core. -/
theorem onCore_of_lt {g : Nat} (s : State) (f : Env → Core → Core) (h : g < numCores) :
    onCore g s f = .next (setCore s g (f (envOf s g) (getCore s g))) := by
  simp [onCore, h]

/-- A command on a core past the wafer stops. -/
theorem onCore_of_ge {g : Nat} (s : State) (f : Env → Core → Core) (h : numCores ≤ g) : onCore g s f = .fault .noSuchUnit := by
  simp [onCore, Nat.not_lt.mpr h]

/-- What a command on one core can answer. -/
theorem onCore_next_iff {g : Nat} {s t : State} {f : Env → Core → Core} :
    onCore g s f = .next t ↔ g < numCores ∧ t = setCore s g (f (envOf s g) (getCore s g)) := by
  unfold onCore
  split <;> simp_all [eq_comm]

/-- When the head of an issue queue is free to begin: the core runs, it was dispatched before, and the engine, the interlocks and
SYNC.ALL allow it. -/
theorem headFree_some_iff {e : Env} {eng : Engine} {c : Core} {d : Disp} :
    headFree e eng c = some d ↔
      (issueOf eng c).head? = some d ∧ live e c = true ∧ d.at_ < e.now ∧ c.x.busy[engNum eng] ≤ e.now ∧
        interlocked e.now d c = true ∧ syncAhead e.now d.seq c = false := by
  unfold headFree
  cases h : issueOf eng c with
  | nil => simp
  | cons a l =>
    simp only [List.head?_cons, Option.ite_none_right_eq_some, Bool.and_eq_true, decide_eq_true_eq, Option.some.injEq,
      Bool.not_eq_true']
    constructor
    · rintro ⟨⟨⟨⟨⟨h1, h3⟩, h4⟩, h5⟩, h6⟩, rfl⟩; exact ⟨rfl, h1, h3, h4, h5, h6⟩
    · rintro ⟨rfl, h1, h3, h4, h5, h6⟩; exact ⟨⟨⟨⟨⟨h1, h3⟩, h4⟩, h5⟩, h6⟩, rfl⟩

/-- When the head of an issue queue may begin, taken by itself: it is free to, and what it waits for is there. -/
theorem headMay_some_iff {e : Env} {eng : Engine} {c : Core} {d : Disp} :
    headMay e eng c = some d ↔ headFree e eng c = some d ∧ waitsDone e d c = true := by
  unfold headMay
  cases h : headFree e eng c with
  | none => simp
  | some a =>
    simp only [Option.ite_none_right_eq_some, Option.some.injEq]
    constructor
    · rintro ⟨hw, rfl⟩; exact ⟨rfl, hw⟩
    · rintro ⟨rfl, hw⟩; exact ⟨hw, rfl⟩

/-- When an engine takes an instruction: it is the head that may begin, and none issued before it may begin in this step. -/
theorem ready_some_iff {e : Env} {eng : Engine} {i : Instr} {c : Core} {d : Disp} :
    ready e eng i c = some d ↔ headMay e eng c = some d ∧ d.ins = i ∧ firstIssued e eng d.seq c = true := by
  unfold ready
  cases h : headMay e eng c with
  | none => simp
  | some a =>
    simp only [Option.ite_none_right_eq_some, Option.some.injEq, Bool.and_eq_true, decide_eq_true_eq]
    constructor
    · rintro ⟨⟨h1, h2⟩, rfl⟩; exact ⟨rfl, h1, h2⟩
    · rintro ⟨rfl, h1, h2⟩; exact ⟨⟨h1, h2⟩, rfl⟩

/-- An instruction whose turn it is begins exactly when what it waits for is there. -/
theorem mayGo_begins {s : State} {g : Nat} {eng : Engine} {i : Instr} {k : Disp} (h : mayGo s g eng i k) :
    ready (envOf s g) eng i (getCore s g) = if waitsDone (envOf s g) k (getCore s g) then some k else none := by
  obtain ⟨⟨-, h1, h2⟩, h3⟩ := h
  rcases hw : waitsDone (envOf s g) k (getCore s g) with _ | _ <;> simp [ready, headMay, h1, hw, h2, h3]

/-- An engine that is busy takes nothing. -/
theorem ready_of_busy {e : Env} {eng : Engine} (i : Instr) {c : Core} (h : e.now < c.x.busy[engNum eng]) : ready e eng i c = none := by
  cases r : ready e eng i c with
  | none => rfl
  | some d => have := (headFree_some_iff.mp (headMay_some_iff.mp (ready_some_iff.mp r).1).1).2.2.2.1; omega

/-- A request for a bank changes only the records of the arbitration and ACT_SRAM. -/
theorem askBank_frame (e : Env) (u : BankUser) (tag row : Nat) (c : Core) :
    ∃ served refused act, (askBank e u tag row c).2 =
      { c with r := { c.r with actSram := act }, x := { c.x with served := served, refused := refused } } := by
  simp only [askBank]
  split
  · exact ⟨_, _, _, rfl⟩
  · split <;> exact ⟨_, _, _, rfl⟩

/-- A request is served exactly when its bank serves it among the requests of the step. -/
theorem askBank_served (e : Env) (u : BankUser) (tag row : Nat) (c : Core) :
    (askBank e u tag row c).1 = bankServes (asksNow e c) c ⟨u, tag, row, 0, e.now⟩ := by
  simp only [askBank]
  split
  · simp_all
  · split <;> simp_all

/-- A bank that has served one request in a step serves no other. -/
theorem bankServes_once (l : List Ask) (u : BankUser) (row : Nat) (c : Core) (a : Ask) (h : bankOf a.row = bankOf row) :
    bankServes l (markServed u row c) a = false := by
  simp [bankServes, markServed, h]

/-- An instruction none of whose rows is served keeps them all. -/
theorem serveRows_none (e : Env) (l : List Ask) (qs : List RowReq) (r : Run) (c : Core)
    (h : ∀ q ∈ qs, bankServes l c ⟨userOf r.eng, r.d.seq, q.row, q.n, r.next⟩ = false) :
    serveRows e l qs r c = ({ r with rows := qs ++ r.rows }, c, true) := by
  induction qs with
  | nil => rfl
  | cons q t ih =>
    rw [serveRows, h q List.mem_cons_self, ih (fun x hx => h x (List.mem_cons_of_mem _ hx))]
    rfl

/-- Counting corrected words changes only SRAM_CE. -/
theorem eccCount_frame (a n : Nat) (c : Core) : { eccCount a n c with r := { (eccCount a n c).r with sramCe := c.r.sramCe } } = c := by
  unfold eccCount
  dsimp only
  split <;> rfl

/-- A write of SRAM bytes changes the bytes and the check bits alone. -/
theorem sramPut_frame (a : Nat) (bs : List Byte) (c : Core) : { sramPut a bs c with sram := c.sram, ecc := c.ecc } = c := rfl

/-- A write of SRAM bytes keeps the canonical form of the memory. -/
theorem sramPut_wf (a : Nat) (bs : List Byte) (c : Core) (h : Memory.wf c.sram = true) : Memory.wf (sramPut a bs c).sram = true :=
  memory_wf_mwrite c.sram a bs h

/-- No firing of this step: nothing to take back. -/
theorem undoFire_of_none {c : Core} (h : c.x.prefire = none) : undoFire c = c := by
  unfold undoFire
  rw [h]

/-- Taking back a firing touches folds, the program counter, FOLD and EPOCH, and the records of the step. -/
theorem undoFire_frame (c : Core) :
    { undoFire c with
      folds := c.folds
      pc := c.pc
      r := { (undoFire c).r with fold := c.r.fold, epoch := c.r.epoch }
      x := { (undoFire c).x with prefire := c.x.prefire, start := { (undoFire c).x.start with fired := c.x.start.fired } } } = c := by
  unfold undoFire
  split
  · rfl
  · rfl

/-- A fault of a running core that fired nothing in this step: the record is filled, the core enters FAULT, fetch stops, and the
FAULT message leaves first. -/
theorem coreFault_of_run (e : Env) (eng : Engine) (code sub detail op : Nat) (long : Bool) (pc : Nat) (c : Core)
    (hr : c.r.st = .run) (hp : c.x.prefire = none) :
    coreFault e eng code sub detail op long pc c =
      { c with
        r := { c.r with
          st := .fault
          fstat := faultStat code eng false
          fpc := BitVec.ofNat 32 (pc % 16384)
          finfo := faultInfo long op sub detail
          ftc := e.tc }
        x := { c.x with
          fetch := .stopped
          faultAt := e.now + 1
          frank := faultRank eng sub 0
          urgent := ⟨e.part.getD 0, e.pgen, false, none, e.g, e.now, .fault e.g (BitVec.ofNat 8 code) (BitVec.ofNat 8 sub)⟩ :: c.x.urgent
          haltReq := false } } := by
  simp [coreFault, faultAs, enterFault, hr, undoFire_of_none hp]

/-- A further fault of a core in FAULT that does not come before the recorded one of the same step sets MORE alone. -/
theorem coreFault_of_fault (e : Env) (eng : Engine) (code sub detail op : Nat) (long : Bool) (pc : Nat) (c : Core)
    (hf : c.r.st = .fault) (ho : c.x.faultAt ≠ e.now + 1 ∨ c.x.frank ≤ faultRank eng sub 0) :
    coreFault e eng code sub detail op long pc c = { c with r := { c.r with fstat := setBit c.r.fstat 10 true } } := by
  unfold coreFault faultAs
  rcases ho with h | h
  · simp [hf, h]
  · simp [hf, Nat.not_lt.mpr h]

/-- A completion goes to its pair if the pair is still enabled in the same epoch, and else nowhere. -/
theorem complete_eq (q epoch : Nat) (cid : BitVec 16) (status part state : Nat) (res : List Nat) (s : State) :
    complete q epoch cid status part state res s =
      if (getQp s q).en = true ∧ (getQp s q).epoch = epoch then
        raiseVec (setQp s q (pushCq { getQp s q with taken := (getQp s q).taken - 1 } ⟨cid, status, false, 0, 0, part, state, res⟩))
          (vecOf q (getQp s q))
      else s := by
  simp only [complete, Bool.and_eq_true, decide_eq_true_eq]

/-- Raising a vector changes that vector alone. -/
theorem raiseVec_eq (s : State) (v : Nat) : ∃ x, raiseVec s v = setVec s v x := by
  unfold raiseVec
  dsimp only
  split
  · exact ⟨_, rfl⟩
  · exact ⟨_, rfl⟩

/-- An entry is taken exactly from the pair whose turn it is; its head moves, one more completion is owed, and the turn goes on. -/
theorem takeEntry_some_iff {q : Nat} {s t : State} :
    takeEntry q s = some t ↔ turnOf s = some q ∧
      t = { setQp s q { getQp s q with sqHead := ((getQp s q).sqHead + 1) % ringSize (getQp s q).sqsz, taken := (getQp s q).taken + 1 } with
            host := { (setQp s q { getQp s q with sqHead := ((getQp s q).sqHead + 1) % ringSize (getQp s q).sqsz,
                                                  taken := (getQp s q).taken + 1 }).host with turn := (q + 1) % 33 } } := by
  unfold takeEntry
  split
  · next h => simp [h, eq_comm]
  · next h => simp [h]

/-- A command whose pair has no turn changes nothing. -/
theorem runCmd_of_none {opc : Nat} {modCmd : Bool} {c : Cmd} {checks : State → List (Bool × Nat)} {f : State → Reply} {s : State}
    (h : takeEntry c.qp s = none) : runCmd opc modCmd c checks f s = .next s := by
  simp [runCmd, h]

/-- A taken command that a check refuses completes with the first code, is logged, and has no other effect. -/
theorem runCmd_of_refused {opc : Nat} {modCmd : Bool} {c : Cmd} {checks : State → List (Bool × Nat)} {f : State → Reply} {s s1 : State}
    {code : Nat} (h : takeEntry c.qp s = some s1) (hc : firstCode (checks s1) = some code) :
    runCmd opc modCmd c checks f s =
      .next (answered c modCmd s1 code [] { s1 with host := { s1.host with refused := (opc, (c.part : Nat), code) :: s1.host.refused } }) := by
  simp [runCmd, h, hc, answered]

/-- A taken command that passes its checks and completes with OK. -/
theorem runCmd_of_ok {opc : Nat} {modCmd : Bool} {c : Cmd} {checks : State → List (Bool × Nat)} {f : State → Reply} {s s1 s2 : State}
    {res : List Nat} (h : takeEntry c.qp s = some s1) (hc : firstCode (checks s1) = none) (hf : f s1 = .done stOK res s2) :
    runCmd opc modCmd c checks f s = .next (answered c modCmd s1 stOK res s2) := by
  simp [runCmd, h, hc, hf, answered]

/-- A taken command that passes its checks and completes later. -/
theorem runCmd_of_later {opc : Nat} {modCmd : Bool} {c : Cmd} {checks : State → List (Bool × Nat)} {f : State → Reply} {s s1 s2 : State}
    (h : takeEntry c.qp s = some s1) (hc : firstCode (checks s1) = none) (hf : f s1 = .later s2) :
    runCmd opc modCmd c checks f s = .next s2 := by
  simp [runCmd, h, hc, hf]

/-- A taken command whose effect answers another status. -/
theorem runCmd_of_status {opc : Nat} {modCmd : Bool} {c : Cmd} {checks : State → List (Bool × Nat)} {f : State → Reply} {s s1 s2 : State}
    {st : Nat} {res : List Nat} (h : takeEntry c.qp s = some s1) (hc : firstCode (checks s1) = none) (hf : f s1 = .done st res s2)
    (hs : st ≠ stOK) :
    runCmd opc modCmd c checks f s =
      .next (answered c modCmd s1 st res { s2 with host := { s2.host with refused := (opc, (c.part : Nat), st) :: s2.host.refused } }) := by
  simp [runCmd, h, hc, hf, hs, answered]

/-- Every host command answers a next state. -/
theorem runCmd_next (opc : Nat) (modCmd : Bool) (c : Cmd) (checks : State → List (Bool × Nat)) (f : State → Reply) (s : State) :
    ∃ t, runCmd opc modCmd c checks f s = .next t := by
  unfold runCmd
  cases takeEntry c.qp s with
  | none => exact ⟨_, rfl⟩
  | some s1 =>
    dsimp only
    cases firstCode (checks s1) with
    | some code => exact ⟨_, rfl⟩
    | none => cases f s1 <;> exact ⟨_, rfl⟩

/-- A predicate that is written reads as written, but for P0, which keeps its value. -/
theorem predGet_predSet (p : Byte) (r q : Pred) (b : Bool) :
    predGet (predSet p r b) q = if q = r ∧ r ≠ 0 then b else predGet p q := by
  revert p r q b; decide +kernel

end Sys2Proof.Machine
end

