-- ==== Sys2Proof/Tests/Slice0.lean ====
section
/-! SUPPORT. Tests: for every statement with hypotheses, concrete states and operands that meet them; an ill-formed command for each
check of WellFormed; the manual's worked examples; and single steps. -/

namespace Sys2Proof.Tests

open Sys2Proof Sys2Proof.Machine Sys2Proof.Claims

set_option Elab.async false

/-- An instruction dispatched in step 4, with the scalar operands read then. -/
def tk (i : Instr) (sc : List Word) : Disp := ⟨i, 64, 1, false, 0, 4, sc⟩

/-- A running core with one instruction in the issue queue of an engine. -/
def tCore (eng : Engine) (i : Instr) (sc : List Word) : Core :=
  { Core.zero with
    r := { CoreRegs.zero with st := .run }
    x := { CoreExec.zero with iss := (Vector.replicate 4 []).set (engNum eng) [tk i sc] } }

/-- A tide node in step 5. -/
def tNode : Node := { Node.zero with steps := 5 }
/-- A module m in step 5 of pan 0, with core 0 as given. -/
def tIn (m : State) (c : Core) : State := setCore (setNode m 0 tNode) 0 c
/-- The module after reset, in step 5 of pan 0, with core 0 as given. -/
def tAt (c : Core) : State := tIn State.reset c

theorem getCore_tIn (m : State) (c : Core) (h : m.cores = []) : getCore (tIn m c) 0 = c :=
  tget_tset_same Core.zero m.cores 0 c (by rw [h]; rfl)
theorem getCore_tAt (c : Core) : getCore (tAt c) 0 = c := getCore_tIn _ c rfl

theorem now_tIn (m : State) (c : Core) (hm : m.cores = []) (hn : m.nodes = []) (hl : c.x.lag = 0 := by rfl) : (envOf (tIn m c) 0).now = 5 := by
  have e : getNode (tIn m c) 0 = tNode := tget_tset_same Node.zero m.nodes 0 tNode (by rw [hn]; rfl)
  have e' : (getNode (tIn m c) 0).steps - (getCore (tIn m c) 0).x.lag = 5 := by rw [e, getCore_tIn m c hm, hl]; rfl
  exact e'

/-- In that module the instruction heads its queue. -/
theorem headIn (m : State) (eng : Engine) (i : Instr) (sc : List Word) (c : Core) (hm : m.cores = []) (hn : m.nodes = [])
    (hr : c.r.st = .run) (hi : c.x.iss = (tCore eng i sc).x.iss) (hb : c.x.busy = Vector.replicate 4 0) (hg : c.x.begun = []) (hl : c.x.lag = 0 := by rfl) :
    headsQueue (tIn m c) 0 eng i (tk i sc) := by
  refine ⟨by decide, ?_, rfl⟩
  rw [getCore_tIn m c hm, headFree_some_iff]
  have hw : (waiting c) = [tk i sc] := by
    unfold waiting; rw [hi]; cases eng <;> rfl
  refine ⟨?_, ?_, by simp [now_tIn m c hm hn hl, tk], ?_, ?_, ?_⟩
  · unfold issueOf; rw [hi]; cases eng <;> rfl
  · simp [live, hr]
  · rw [hb, now_tIn m c hm hn hl]; cases eng <;> decide
  · simp [interlocked, pendingWrites, hw, hg]
  · simp [syncAhead, hw, hg, tk]

/-- No other engine has an instruction there. -/
theorem firstIn (e : Env) (eng : Engine) (i : Instr) (sc : List Word) (c : Core) (n : Nat) (hi : c.x.iss = (tCore eng i sc).x.iss) :
    firstIssued e eng n c = true := by
  have h : ∀ o : Engine, o ≠ eng → issueOf o c = [] := by
    intro o h
    unfold issueOf; rw [hi]; cases eng <;> cases o <;> first | exact absurd rfl h | rfl
  simp only [firstIssued, List.all_eq_true, Bool.or_eq_true, decide_eq_true_eq]
  intro o _
  by_cases he : o = eng
  · exact .inl he
  · right; simp [headMay, headFree, h o he]

/-- In that module the instruction may go. -/
theorem goIn (m : State) (eng : Engine) (i : Instr) (sc : List Word) (c : Core) (hm : m.cores = []) (hn : m.nodes = [])
    (hr : c.r.st = .run) (hi : c.x.iss = (tCore eng i sc).x.iss) (hb : c.x.busy = Vector.replicate 4 0) (hg : c.x.begun = []) (hl : c.x.lag = 0 := by rfl) :
    mayGo (tIn m c) 0 eng i (tk i sc) := ⟨headIn m eng i sc c hm hn hr hi hb hg hl, firstIn _ eng i sc _ _ (by rw [getCore_tIn m c hm]; exact hi)⟩

theorem go (eng : Engine) (i : Instr) (sc : List Word) (c : Core) (hr : c.r.st = .run)
    (hi : c.x.iss = (tCore eng i sc).x.iss) (hb : c.x.busy = Vector.replicate 4 0) (hg : c.x.begun = []) (hl : c.x.lag = 0 := by rfl) :
    mayGo (tAt c) 0 eng i (tk i sc) := goIn _ _ _ _ _ rfl rfl hr hi hb hg hl

/-- There it may begin where what it waits for is there. -/
theorem mayIn (m : State) (eng : Engine) (i : Instr) (sc : List Word) (c : Core) (hm : m.cores = []) (hn : m.nodes = [])
    (hr : c.r.st = .run) (hi : c.x.iss = (tCore eng i sc).x.iss) (hb : c.x.busy = Vector.replicate 4 0) (hg : c.x.begun = [])
    (hw : waitsDone (envOf (tIn m c) 0) (tk i sc) c = true) (hl : c.x.lag = 0 := by rfl) :
    mayBegin (tIn m c) 0 eng i (tk i sc) := by
  refine ⟨by decide, ?_⟩
  rw [mayGo_begins (goIn m eng i sc c hm hn hr hi hb hg hl), getCore_tIn m c hm, if_pos hw]

theorem may (eng : Engine) (i : Instr) (sc : List Word) (c : Core) (hr : c.r.st = .run)
    (hi : c.x.iss = (tCore eng i sc).x.iss) (hb : c.x.busy = Vector.replicate 4 0) (hg : c.x.begun = [])
    (hw : waitsDone (envOf (tAt c) 0) (tk i sc) c = true) (hl : c.x.lag = 0 := by rfl) :
    mayBegin (tAt c) 0 eng i (tk i sc) := mayIn _ _ _ _ _ rfl rfl hr hi hb hg hw hl

/-- Whether an instruction waits for nothing beyond the interlocks. -/
def noWait (i : Instr) : Bool := match i with
  | .qrd _ _ _ _ _ | .vqrd _ _ _ | .vqwr _ _ _ _ _ | .mstgq _ _ _ | .dmov _ _ _ _ | .dwait _ _ | .acq _ _ | .syncAll _ | .endFold _
  | .stepCommit _ | .flagWait _ _ | .flagWaitc _ _ | .chWait _ _ _ | .flagSet _ _ _ _ | .flagClr _ _ _ _ | .chPut _ _ _ _ _
  | .chGet _ _ _ _ _ | .barArrive _ _ _ => false
  | _ => true

theorem waitsDone_of {i : Instr} (h : noWait i = true) (e : Env) (sc : List Word) (c : Core) : waitsDone e (tk i sc) c = true := by
  cases i <;> first | rfl | exact absurd h (by simp [noWait])

/-- Nothing earlier is on its way there. -/
theorem done (eng : Engine) (i : Instr) (sc : List Word) (kind : Instr → Bool) (c : Core)
    (hi : c.x.iss = (tCore eng i sc).x.iss) (hg : c.x.begun = []) : allDone 5 0 kind c = true := by
  have hw : (waiting c) = [tk i sc] := by
    unfold waiting; rw [hi]; cases eng <;> rfl
  simp [allDone, hw, hg, tk]

/-- A job's image with nothing in it. -/
def tImage : Image := ⟨1, 0, 0, 0, 1, 0xFFFF, [], [], [], [], [], [], [], [], none, [], [], 0, [], []⟩
/-- A module whose pan 0, the first in the numbering, is partition 0's, which runs a job with the step guard on or off. -/
def tJob (gen : Bool) : State :=
  setPart (setPan State.reset 0 { Pan.zero with part := some 0, num := some 0 }) 0
    { Part.zero with st := .running, pans := [0], image := some { tImage with guard := setBit 0 27 gen } }

-- The scalar engine ----------------------------------------------------------------------------------------------

theorem witness_ScalarTwoRegisterResults : ∀ p ∈ scalarOps 0 1 2 3 0 0,
    p ∈ scalarOps 0 1 2 3 (getCore (tAt (tCore .scalar p.1 [])) 0).s[2] (getCore (tAt (tCore .scalar p.1 [])) 0).s[3] ∧
      mayBegin (tAt (tCore .scalar p.1 [])) 0 .scalar p.1 (tk p.1 []) :=
  fun p h => ⟨by rw [getCore_tAt]; exact h, may _ _ _ _ rfl rfl rfl rfl
    (waitsDone_of ((by decide +kernel : ∀ p ∈ scalarOps 0 1 2 3 0 0, noWait p.1 = true) p h) _ _ _)⟩

theorem witness_ScalarImmediateResults : ∀ p ∈ immediateOps 0 31 2 0xFFFFFFFF 31 0,
    p ∈ immediateOps 0 31 2 0xFFFFFFFF 31 (getCore (tAt (tCore .scalar p.1 [])) 0).s[2] ∧
      mayBegin (tAt (tCore .scalar p.1 [])) 0 .scalar p.1 (tk p.1 []) :=
  fun p h => ⟨by rw [getCore_tAt]; exact h, may _ _ _ _ rfl rfl rfl rfl
    (waitsDone_of ((by decide +kernel : ∀ p ∈ immediateOps 0 31 2 0xFFFFFFFF 31 0, noWait p.1 = true) p h) _ _ _)⟩

theorem witness_ComparisonsWriteOnePredicate : ∀ r ∈ [(0 : Pred), 7], ∀ p ∈ predicateOps 0 r Core.zero 2 3 .geu 1 0 7,
    p ∈ predicateOps 0 r (getCore (tAt (tCore .scalar p.1 [])) 0) 2 3 .geu 1 0 7 ∧
      mayBegin (tAt (tCore .scalar p.1 [])) 0 .scalar p.1 (tk p.1 []) :=
  fun r hr p h => ⟨by rw [getCore_tAt]; exact h, may _ _ _ _ rfl rfl rfl rfl
    (waitsDone_of ((by decide +kernel : ∀ r ∈ [(0 : Pred), 7], ∀ p ∈ predicateOps 0 r Core.zero 2 3 .geu 1 0 7, noWait p.1 = true) r hr p h) _ _ _)⟩

/-- A core in which fetch has taken the banks of some rows in this step. -/
def tRefuse (rows : List Nat) (c : Core) : Core := { c with x := { c.x with served := rows.map (fun r => (.fetch, bankOf r)) } }
/-- A core whose S[2] holds an address and whose memory holds some bytes. -/
def tMem (i : Instr) (a : Word) : Core := { tCore .scalar i [] with s := (Vector.replicate 32 0).set 2 a, sram := [(0x4000, 0xFE), (0xFFFF, 0x80)] }

theorem witness_LoadsReadMemory : ∀ p ∈ [(Instr.ldw 0 1 2 0, (0x4000 : Word), 4), (.ldh 0 1 2 0, 0x4000, 2), (.ldhu 0 1 2 0, 0xFFFE, 2), (.ldb 0 1 2 0, 0xFFFF, 1), (.ldbu 0 1 2 0, 0xFFFF, 1)], ∀ rows ∈ [[], [p.2.1.toNat / 32]], ∀ ue ∈ [([] : List (Nat × Nat)), [(p.2.1.toNat / 8, 2)]],
    let c := tRefuse rows { tMem p.1 p.2.1 with ecc := ue }
    mayBegin (tAt c) 0 .scalar p.1 (tk p.1 []) ∧ getCore (tAt c) 0 = c ∧ (c.s[2] + 0).toNat = p.2.1.toNat ∧
      (∃ v, (p.1, p.2.2, v) ∈ loadOps 0 1 2 0 (natOfBytes (mread c.sram p.2.1.toNat p.2.2))) ∧
      (0x4000 ≤ p.2.1.toNat ∧ p.2.1.toNat + p.2.2 ≤ 0x10000 ∧ p.2.1.toNat % p.2.2 = 0) ∧ (eccBad c p.2.1.toNat p.2.2).isNone = ue.isEmpty ∧
      bankFree (tAt c) 0 .scalar (tk p.1 []) (p.2.1.toNat / 32) (taken (tAt c) 0 .scalar (tk p.1 []) 1 2) = rows.isEmpty := by
  intro p h rows hr ue hu
  simp only [List.mem_cons, List.not_mem_nil, or_false] at h hr hu
  rcases h with rfl | rfl | rfl | rfl | rfl <;> rcases hr with rfl | rfl <;> rcases hu with rfl | rfl
  all_goals exact ⟨may _ _ _ _ rfl rfl rfl rfl rfl, getCore_tAt _, by decide, ⟨_, by simp [loadOps]; rfl⟩, by decide, by decide +kernel, by decide +kernel⟩

theorem witness_StoresWriteOnlyTheirBytes : ∀ p ∈ storeOps 0 1 2 0, ∀ rows ∈ [[], [0xFFFC / 32]],
    let c := tRefuse rows (tMem p.1 0xFFFC)
    mayBegin (tAt c) 0 .scalar p.1 (tk p.1 []) ∧ getCore (tAt c) 0 = c ∧ accessOk 0xFFFC p.2 ∧ (c.s[2] + 0).toNat = 0xFFFC ∧ Memory.wf c.sram = true ∧
      bankFree (tAt c) 0 .scalar (tk p.1 []) (0xFFFC / 32) (taken (tAt c) 0 .scalar (tk p.1 []) 1 1) = rows.isEmpty := by
  intro p h rows hr
  simp only [storeOps, List.mem_cons, List.not_mem_nil, or_false] at h hr
  rcases h with rfl | rfl | rfl <;> rcases hr with rfl | rfl
  all_goals exact ⟨may _ _ _ _ rfl rfl rfl rfl rfl, getCore_tAt _, ⟨by decide, by decide, by decide⟩, by decide, by decide +kernel, by decide +kernel⟩

theorem witness_BadAccessesFault : ∀ p ∈ [(Instr.ldw 0 1 2 0, (0x3FFC : Word), 4), (.stw 0 1 2 0, 0xFFFE, 4), (.ldhu 0 1 2 0, 0x4001, 2), (.sth 0 1 2 0, 0xFFFD, 2)],
    let c := tMem p.1 p.2.1
    mayBegin (tAt c) 0 .scalar p.1 (tk p.1 []) ∧ (c.s[2] + 0).toNat = p.2.1.toNat ∧
      ((∃ v w, (p.1, p.2.2, w) ∈ loadOps 0 1 2 0 v) ∨ (p.1, p.2.2) ∈ storeOps 0 1 2 0) ∧ ¬accessOk p.2.1.toNat p.2.2 := by
  intro p h
  simp only [List.mem_cons, List.not_mem_nil, or_false] at h
  rcases h with rfl | rfl | rfl | rfl
  · exact ⟨may _ _ _ _ rfl rfl rfl rfl rfl, by decide, .inl ⟨0, _, by simp [loadOps]; rfl⟩, by simp [accessOk]⟩
  · exact ⟨may _ _ _ _ rfl rfl rfl rfl rfl, by decide, .inr (by simp [storeOps]), by simp [accessOk]⟩
  · exact ⟨may _ _ _ _ rfl rfl rfl rfl rfl, by decide, .inl ⟨0, _, by simp [loadOps]; rfl⟩, by simp [accessOk]⟩
  · exact ⟨may _ _ _ _ rfl rfl rfl rfl rfl, by decide, .inr (by simp [storeOps]), by simp [accessOk]⟩

theorem witness_JumpsRedirectFetch : ∀ x ∈ [(0x3FFC : Word), 0x4000, 2], ∀ p ∈ jumpOps 0 1 2 0x7FFF 64 x,
    let c := tMem p.1 x
    mayBegin (tAt c) 0 .scalar p.1 (tk p.1 []) ∧ p ∈ jumpOps 0 1 2 0x7FFF (tk p.1 []).pc (getCore (tAt c) 0).s[2] :=
  fun x _ p h => by
    have hw : noWait p.1 = true := by
      simp only [jumpOps, List.mem_cons, List.not_mem_nil, or_false] at h
      rcases h with rfl | rfl | rfl | rfl <;> rfl
    refine ⟨may .scalar p.1 [] (tMem p.1 x) rfl rfl rfl rfl (waitsDone_of hw _ _ _), ?_⟩
    have hx : (tMem p.1 x).s[2] = x := rfl
    rw [getCore_tAt]
    show p ∈ jumpOps 0 1 2 0x7FFF 64 (tMem p.1 x).s[2]
    rw [hx]
    exact h

theorem witness_JumpTargets : (∃ p ∈ jumpOps 0 1 2 0x7FFF 64 0x3FFC, p.2.1.toNat < 0x4000 ∧ p.2.1.toNat % 4 = 0) ∧
    (∃ p ∈ jumpOps 0 1 2 0x7FFF 64 0x4000, ¬(p.2.1.toNat < 0x4000 ∧ p.2.1.toNat % 4 = 0)) := by decide +kernel

/-- A core whose input queue 7 held an entry when the step began and holds it still. -/
def tQueue (i : Instr) (e : Engine) (n : Nat) : Core :=
  let q : Queue := (List.replicate n ⟨5, mkSb 0 false true true⟩).foldl Queue.push Queue.zero
  let c := tCore e i []
  { c with iq := (Vector.replicate 8 Queue.zero).set 7 q, x := { c.x with start := { c.x.start with iq := (Vector.replicate 8 Queue.zero).set 7 q } } }

theorem witness_QueueAndControlRegisterReads :
    (∀ rem, mayBegin (tAt (tQueue (.qrd 0 1 7 7 rem) .scalar 1)) 0 .scalar (.qrd 0 1 7 7 rem) (tk (.qrd 0 1 7 7 rem) [])) ∧
    (∀ off ∈ [(0x24 : Byte), 0x2C, 0xFF], mayBegin (tAt (tCore .scalar (.crr 0 1 off) [])) 0 .scalar (.crr 0 1 off) (tk (.crr 0 1 off) []) ∧
      mayBegin (tAt (tCore .scalar (.crw 0 1 off) [])) 0 .scalar (.crw 0 1 off) (tk (.crw 0 1 off) [])) :=
  ⟨fun rem => may _ _ _ _ rfl rfl rfl rfl (by revert rem; decide +kernel), fun _ _ => ⟨may _ _ _ _ rfl rfl rfl rfl rfl, may _ _ _ _ rfl rfl rfl rfl rfl⟩⟩

/-- An engine's instruction behind a REL.V that began in step 4 and is due in step 9. -/
def tBehind (eng : Engine) (i : Instr) : Core :=
  { tCore eng i [] with x := { (tCore eng i []).x with
      iss := (Vector.replicate 4 []).set (engNum eng) [{ tk i [] with seq := 1 }]
      begun := [⟨.rel 0 .vector, 0, .vector, 4, 9, [], [], []⟩] } }

theorem witness_OrderingInstructionsComplete : ∀ eng : Engine,
    mayGo (tAt (tCore eng (.rel 0 eng) [])) 0 eng (.rel 0 eng) (tk (.rel 0 eng) []) ∧
    (mayGo (tAt (tCore eng (.acq 0 eng) [])) 0 eng (.acq 0 eng) (tk (.acq 0 eng) []) ∧ allDone 5 0 isOrdering (tCore eng (.acq 0 eng) []) = true) ∧
    (mayGo (tAt (tCore .scalar (.syncAll 0) [])) 0 .scalar (.syncAll 0) (tk (.syncAll 0) []) ∧
      allDone 5 0 (fun _ => true) (tCore .scalar (.syncAll 0) []) = true) :=
  fun eng => ⟨go _ _ _ _ rfl rfl rfl rfl, ⟨go _ _ _ _ rfl rfl rfl rfl, done _ _ _ _ _ rfl rfl⟩,
    go _ _ _ _ rfl rfl rfl rfl, done _ _ _ _ _ rfl rfl⟩

theorem witness_OrderingInstructionsWait : ∀ eng : Engine,
    (mayGo (tAt (tBehind eng (.acq 0 eng))) 0 eng (.acq 0 eng) { tk (.acq 0 eng) [] with seq := 1 } ∧ allDone 5 1 isOrdering (tBehind eng (.acq 0 eng)) = false) ∧
    (mayGo (tAt (tBehind .scalar (.syncAll 0))) 0 .scalar (.syncAll 0) { tk (.syncAll 0) [] with seq := 1 } ∧
      allDone 5 1 (fun _ => true) (tBehind .scalar (.syncAll 0)) = false) := by
  intro eng; unfold mayGo headsQueue; cases eng <;> decide +kernel

/-- A core with a REL.D, or a SYNC.ALL, in progress since step 4, a row of slot 0 refused since some step, and an earlier instruction of
the DMA engine that is due in some step. -/
def tRel (i : Instr) (since due : Nat) : Core :=
  { tCore .dma i [] with x := { (tCore .dma i []).x with
      begun := [⟨.acq 0 .dma, 0, .dma, 3, due, [], [], []⟩, ⟨i, 1, .dma, 4, 6, [], [], []⟩]
      refused := [⟨.dma, 0, 512, 0, since⟩] } }

theorem witness_ReleasesWaitForTheirRows : ∀ i ∈ [Instr.rel 0 .dma, .syncAll 0], ∀ p ∈ [(4, 6), (5, 6), (5, 7)],
    let c := tRel i p.1 p.2
    let b : Begun := ⟨i, 1, .dma, 4, 6, [], [], []⟩
    b ∈ c.x.begun ∧ 5 < b.due ∧ decide (∃ a ∈ c.x.refused, a.user = .dma ∧ a.since ≤ b.at_) = decide (p.1 = 4) ∧
      decide (∃ a ∈ c.x.begun, a.eng = .dma ∧ a.seq < b.seq ∧ 5 + 1 < a.due) = decide (p.2 = 7) := by decide +kernel

theorem witness_StepCommitRunsThroughItsPhases :
    let c := tCore .scalar (.stepCommit 0) []
    let halts := { c with x := { c.x with haltReq := true } }
    let waits := { c with x := { c.x with phase3 := some true, gres := some (false, 9) } }
    let rdone := { c with guard := (0xFFFFFFFF : Word) }
    let i := Instr.stepCommit 0
    (∀ d ∈ [c, halts], mayGo (tIn (tJob true) d) 0 .scalar i (tk i []) ∧ (envOf (tIn (tJob true) d) 0).guardOn = true ∧
      allDone 5 0 (fun _ => true) d = true ∧ d.x.phase3 = none ∧ gRdone d.guard = false ∧ d.x.gres = none) ∧ c.x.haltReq = false ∧ halts.x.haltReq = true ∧
    (mayGo (tIn (tJob false) c) 0 .scalar i (tk i []) ∧ (envOf (tIn (tJob false) c) 0).guardOn = false) ∧
    (mayGo (tIn (tJob true) rdone) 0 .scalar i (tk i []) ∧ (envOf (tIn (tJob true) rdone) 0).guardOn = true ∧
      allDone 5 0 (fun _ => true) rdone = true ∧ gRdone rdone.guard = true) ∧
    (mayGo (tIn (tJob true) waits) 0 .scalar i (tk i []) ∧ (envOf (tIn (tJob true) waits) 0).guardOn = true ∧
      allDone 5 0 (fun _ => true) waits = true ∧ gRdone waits.guard = false ∧ waits.x.phase3 = some true ∧ waits.x.gres = some (false, 9)) := by
  unfold mayGo headsQueue; decide +kernel

theorem witness_FoldControlInstructions :
    let c := tCore .scalar (.suCnd 0 3 7) []
    let su := { c with folds := c.folds.set 7 (BitVec.ofNat 512 (2 ^ 14 + 2 ^ 47)), su := c.su.set 3 (BitVec.ofNat 256 (1 + 15 * 2 ^ 144)) }
    (mayGo (tAt (tCore .scalar (.endFold 0) [])) 0 .scalar (.endFold 0) (tk (.endFold 0) []) ∧
      allDone 5 0 (fun _ => true) (tCore .scalar (.endFold 0) []) = true) ∧
    (mayBegin (tAt su) 0 .scalar (.suCnd 0 3 7) (tk (.suCnd 0 3 7) []) ∧
      unitOwned su 3 = true ∧ uMode su.su[3] = 1 ∧ uSrc su.su[3] = 0 ∧ uCfcnt su.su[3] = 15) ∧
    (mayBegin (tAt (tCore .scalar (.brk 0) [])) 0 .scalar (.brk 0) (tk (.brk 0) [])) :=
  ⟨⟨go _ _ _ _ rfl rfl rfl rfl, done _ _ _ _ _ rfl rfl⟩, ⟨may _ _ _ _ rfl rfl rfl rfl rfl, by decide +kernel⟩, may _ _ _ _ rfl rfl rfl rfl rfl⟩

/-- A core with flag 63 set and 127 tokens outstanding on channel 15, as the step began too. -/
def tSync (i : Instr) : Core :=
  let c := tCore .scalar i []
  let ch := (Vector.replicate 16 ((0 : BitVec 16), (0 : BitVec 16))).set 15 (126, 0xFFFF)
  { c with flags := 0x8000000000000000, ch := ch, x := { c.x with start := { c.x.start with flags := 0x8000000000000000, ch := ch } } }

theorem witness_LocalFlagsAndChannels : ∀ i ∈ [Instr.flagSet 0 63 false 0, .flagClr 0 63 false 0, .flagWait 0 63, .flagWaitc 0 63,
      .chPut 0 15 0 false 0, .chGet 0 15 7 false 0, .chWait 0 15 7],
    mayGo (tAt (tSync i)) 0 .scalar i (tk i []) ∧ allDone 5 0 isRelease (tSync i) = true ∧ (tSync i).x.start.flags.getLsbD 63 = true ∧
      fill (tSync i).ch[15] = 127 ∧ fill (tSync i).x.start.ch[15] = 127 :=
  fun i _ => ⟨go _ _ _ _ rfl rfl rfl rfl, done .scalar i [] _ _ rfl rfl, (by decide : (0x8000000000000000#64).getLsbD 63 = true), rfl, rfl⟩

theorem witness_ChannelBoundsFault : ∀ i ∈ [Instr.chPut 0 15 1 false 0, .chGet 0 0 0 false 0],
    mayGo (tAt (tSync i)) 0 .scalar i (tk i []) ∧ allDone 5 0 isRelease (tSync i) = true ∧
      128 < fill (tSync i).ch[15] + 2 ∧ fill (tSync i).ch[0] < 1 :=
  fun i _ => ⟨go _ _ _ _ rfl rfl rfl rfl, done .scalar i [] _ _ rfl rfl, (by decide : 128 < 127 + 2), (by decide : fill ((0 : BitVec 16), (0 : BitVec 16)) < 1)⟩

theorem memberOf_tIn (m : State) (c : Core) (k : Option Nat) (l : Nat) : memberOf (tIn m c) k l = memberOf m k l := rfl

/-- A core that names a target or an object in S[1]. -/
def tRem (i : Instr) (t : Word) : Core := { tCore .scalar i [] with s := (Vector.replicate 32 0).set 1 t }

theorem witness_RemoteSignalsEnterTheSlotQueue :
    (∀ p ∈ remoteOps 0 63 15 7 1, ∀ t ∈ [(9599 : Word), 9600],
      mayGo (tIn (tJob false) (tRem p.1 t)) 0 .scalar p.1 (tk p.1 []) ∧ allDone 5 0 isRelease (tRem p.1 t) = true ∧ (tRem p.1 t).x.ctl.length < 8) ∧
    (∀ c, memberOf (tIn (tJob false) c) (some 0) 9599 = some (coreAt 0 9599)) ∧ (∀ c, memberOf (tIn (tJob false) c) (some 0) 9600 = none) ∧
    (∀ t ∈ [(255 : Word), 256], mayGo (tIn (tJob false) (tRem (.barArrive 0 63 1) t)) 0 .scalar (.barArrive 0 63 1) (tk (.barArrive 0 63 1) [])) :=
  ⟨fun p _ _ _ => ⟨goIn _ _ _ _ _ rfl rfl rfl rfl rfl rfl, done .scalar p.1 [] _ _ rfl rfl, (by decide : 0 < 8)⟩,
    fun _ => by rw [memberOf_tIn]; decide +kernel, fun _ => by rw [memberOf_tIn]; decide +kernel, fun _ _ => goIn _ _ _ _ _ rfl rfl rfl rfl rfl rfl⟩

-- The vector engine ----------------------------------------------------------------------------------------------

theorem witness_VectorLaneResults : ∀ vf : LaneFmt, ∀ p ∈ laneOps 0 1 2 3 vf .i16 (.sr 255 30) .un 0 [7, 9] (Vector.replicate 32 0) 0 0 0 31,
    (∀ j : Fin 32, ∃ r, (p.1, p.2.1, p.2.2.1, r) ∈ laneOps 0 1 2 3 vf .i16 (.sr 255 30) .un 0 [7, 9] (Vector.replicate 32 0) 0 0 0 j) ∧
      mayBegin (tAt (tCore .vector p.1 [7, 9])) 0 .vector p.1 (tk p.1 [7, 9]) := by
  intro vf p h
  simp only [laneOps, List.mem_cons, List.not_mem_nil, or_false] at h ⊢
  rcases h with h | h | h | h | h | h | h | h | h | h | h | h | h | h | h | h | h | h | h | h | h | h | h | h | h | h
  all_goals subst h; exact ⟨fun j => by simp, may _ _ _ _ rfl rfl rfl rfl (waitsDone_of rfl _ _ _)⟩

theorem witness_VectorMoves : ∀ i ∈ [Instr.vbcs 0 31 1, .vext 0 31 1 31, .vins 0 31 1 31, .vmov 0 31 1, .viota 0 31 1],
    mayBegin (tAt (tCore .vector i [0xFFFF])) 0 .vector i (tk i [0xFFFF]) := by
  intro i h
  simp only [List.mem_cons, List.not_mem_nil, or_false] at h
  rcases h with rfl | rfl | rfl | rfl | rfl <;> exact may _ _ _ _ rfl rfl rfl rfl (waitsDone_of rfl _ _ _)

theorem witness_VectorUnpack : ∀ f ∈ [TileFmt.w16, .i4, .e4],
    let i := Instr.vunpk 0 31 1 2 f 3
    let c := tCore .vector i [127]
    mayBegin (tAt c) 0 .vector i (tk i [127]) ∧ decide (shortFault (envOf (tAt c) 0) f = none) = decide (f = .w16) ∧
      decide (f.short = true ∧ f.width = 4 ∧ licensed4 (tAt c) = false) = decide (f = .i4) ∧
      decide (f.short = true ∧ ¬(f.width = 4 ∧ licensed4 (tAt c) = false) ∧ (getPan (tAt c) 0).shortOn = false) = decide (f = .e4) := by
  intro f h
  refine ⟨may _ _ _ _ rfl rfl rfl rfl (waitsDone_of rfl _ _ _), ?_⟩
  simp only [List.mem_cons, List.not_mem_nil, or_false] at h
  rcases h with rfl | rfl | rfl <;> decide +kernel

theorem witness_VectorLoadsAndStores : ∀ i ∈ [Instr.vld 0 31 1 0, .vst 0 31 1 0], ∀ rows ∈ [[], [0x7FE], [0x7FF], [0x7FE, 0x7FF]],
    let c := tRefuse rows (tCore .vector i [0xFFC0])
    let t := vtaken (tAt c) 0 (tk i [0xFFC0]) 1 2
    mayBegin (tAt c) 0 .vector i (tk i [0xFFC0]) ∧ accessOk (scAt [0xFFC0] 0 + 0).toNat 64 ∧ eccBad c 0xFFC0 64 = none ∧
      bankFree (tAt c) 0 .vector (tk i [0xFFC0]) 0x7FE t = !rows.contains 0x7FE ∧ bankFree (tAt c) 0 .vector (tk i [0xFFC0]) 0x7FF t = !rows.contains 0x7FF := by
  intro i h rows hr
  simp only [List.mem_cons, List.not_mem_nil, or_false] at h hr
  rcases h with rfl | rfl <;> rcases hr with rfl | rfl | rfl | rfl
  all_goals exact ⟨may _ _ _ _ rfl rfl rfl rfl (waitsDone_of rfl _ _ _), ⟨by decide, by decide, by decide⟩, by decide +kernel, by decide +kernel, by decide +kernel⟩

theorem witness_VectorLoadsAndStoresThatFault :
    (∀ i ∈ [Instr.vld 0 31 1 0, .vst 0 31 1 0], ∀ a ∈ [(0x3FC0 : Word), 0xFFE0, 0x10000, 0x4020, 0xFFA0],
      let c := tCore .vector i [a]
      mayBegin (tAt c) 0 .vector i (tk i [a]) ∧ ¬accessOk (scAt [a] 0 + 0).toNat 64) ∧
    (∀ w ∈ [0x800, 0x804], let i := Instr.vld 0 31 1 0
      let c := { tCore .vector i [0x4000] with ecc := [(w, 2)] }
      let t := vtaken (tAt c) 0 (tk i [0x4000]) 1 2
      mayBegin (tAt c) 0 .vector i (tk i [0x4000]) ∧ accessOk (scAt [0x4000] 0 + 0).toNat 64 ∧ bankFree (tAt c) 0 .vector (tk i [0x4000]) 0x200 t = true ∧
        bankFree (tAt c) 0 .vector (tk i [0x4000]) 0x201 t = true ∧ eccBad c 0x4000 32 = (if w = 0x800 then some 0x4000 else none) ∧
        eccBad c 0x4020 32 = if w = 0x800 then none else some 0x4020) := by
  refine ⟨fun i h a ha => ?_, fun w hw => ?_⟩
  · simp only [List.mem_cons, List.not_mem_nil, or_false] at h ha
    rcases h with rfl | rfl <;> rcases ha with rfl | rfl | rfl | rfl | rfl
    all_goals exact ⟨may _ _ _ _ rfl rfl rfl rfl (waitsDone_of rfl _ _ _), by unfold accessOk; decide⟩
  · simp only [List.mem_cons, List.not_mem_nil, or_false] at hw
    rcases hw with rfl | rfl
    all_goals exact ⟨may _ _ _ _ rfl rfl rfl rfl (waitsDone_of rfl _ _ _), ⟨by decide, by decide, by decide⟩, by decide +kernel, by decide +kernel, by decide +kernel, by decide +kernel⟩

theorem witness_VectorBankMoves : ∀ i ∈ [Instr.vldb 0 31 15 7, .vstb 0 31 15 7], ∀ used ∈ [[], [15]],
    let c := { tCore .vector i [] with x := { (tCore .vector i []).x with accUsed := used } }
    let t := vtaken (tAt c) 0 (tk i []) 1 2
    mayBegin (tAt c) 0 .vector i (tk i []) ∧ accFree (accAsks (envOf (tAt c) 0) t) t 15 = used.isEmpty := by
  intro i h used hu
  simp only [List.mem_cons, List.not_mem_nil, or_false] at h hu
  rcases h with rfl | rfl <;> rcases hu with rfl | rfl
  all_goals exact ⟨may _ _ _ _ rfl rfl rfl rfl (waitsDone_of rfl _ _ _), by decide +kernel⟩

/-- A core whose output queue 3 holds 15 entries, as it did when the step began. -/
def tFull (i : Instr) : Core :=
  let q : Queue := (List.replicate 15 ⟨5, 0⟩).foldl Queue.push Queue.zero
  let c := tCore .vector i []
  { c with oq := (Vector.replicate 4 Queue.zero).set 3 q, x := { c.x with start := { c.x.start with oq := (Vector.replicate 4 Queue.zero).set 3 q } } }

theorem witness_VectorQueueAccessBegins :
    (∀ n ∈ [1, 2], let i := Instr.vqrd 0 31 7
      let c := tQueue i .vector n
      mayGo (tAt c) 0 .vector i (tk i []) ∧ iqReady 5 c 7 = true ∧ c.iq[7].count = n) ∧
    (let i := Instr.vqwr 0 31 3 true true
     (mayGo (tAt (tCore .vector i [])) 0 .vector i (tk i []) ∧ oqReady 5 (tCore .vector i []) 3 2 = true) ∧
     mayGo (tAt (tFull i)) 0 .vector i (tk i []) ∧ oqReady 5 (tFull i) 3 2 = false) := by
  refine ⟨fun n h => ?_, ⟨go _ _ _ _ rfl rfl rfl rfl, by decide +kernel⟩, go _ _ _ _ rfl rfl rfl rfl, by decide +kernel⟩
  simp only [List.mem_cons, List.not_mem_nil, or_false] at h
  rcases h with rfl | rfl <;> exact ⟨go _ _ _ _ rfl rfl rfl rfl, by decide +kernel⟩

theorem witness_VectorQueueAccessEnds :
    (∀ n ∈ [0, 1], let i := Instr.vqrd 0 31 7
      let c := tQueue i .vector n
      let e := envOf (tAt c) 0
      let r := { newRun e .vector (tk i []) c with k := 1, rows := [], later := [] }
      r.k = 1 ∧ r.rows = [] ∧ r.later = [] ∧ r.d.ins = i ∧ (iqFree e.now 7 c && headReady c 7) = decide (n = 1)) ∧
    (∀ t ∈ [5, 6], let i := Instr.vqwr 0 31 3 true true
      let c := { tCore .vector i [] with x := { (tCore .vector i []).x with oqPut := Vector.replicate 4 t } }
      let e := envOf (tAt c) 0
      let r := { newRun e .vector (tk i []) c with k := 1, rows := [], later := [] }
      r.k = 1 ∧ r.rows = [] ∧ r.later = [] ∧ r.d.ins = i ∧ oqFree e.now 3 c = decide (t = 5)) := by decide +kernel

/-- A module of which pan 0's short formats are on, under a licence for all of them. -/
def tShort : State :=
  setPan { State.reset with sec := { Security.zero with licence := some ⟨1, 12, 32, true, true, 0, 0⟩ } } 0 { Pan.zero with shortOn := true }

theorem witness_shortFormats : ∀ (c : Core) (f : TileFmt), shortFault (envOf (tIn tShort c) 0) f = none := by
  intro c f
  have h : shortFault (envOf tShort 0) f = none := by cases f <;> decide +kernel
  exact h

-- The matrix engine ----------------------------------------------------------------------------------------------

theorem witness_MatrixMovesBegin :
    (mayBegin (tAt (tCore .matrix (.mzero 0 31 0) [])) 0 .matrix (.mzero 0 31 0) (tk (.mzero 0 31 0) [])) ∧
    (∀ i ∈ [Instr.mbst 0 0 1 31, .mbld 0 0 1 31], let c := tCore .matrix i [0x4000]
      mayBegin (tAt c) 0 .matrix i (tk i [0x4000]) ∧ (scAt [0x4000] 0).toNat % 256 = 0 ∧ inData (scAt [0x4000] 0).toNat 8192 = true) ∧
    (let w : Word := BitVec.ofNat 32 (127 * 2 ^ 8)
     let c := tCore .matrix (.mstg 0 1 2) [0xF000, w]
     mayBegin (tAt c) 0 .matrix (.mstg 0 1 2) (tk (.mstg 0 1 2) [0xF000, w]) ∧ w.getLsbD 7 = false ∧ fld w 15 17 = 0 ∧ fld w 0 7 + (fld w 8 7 + 1) = 128 ∧
      inData 0xF000 4096 = true) ∧
    (∀ n ∈ [1, 2], let w : Word := BitVec.ofNat 32 (126 + 1 * 2 ^ 8)
     let c := { tQueue (.mstgq 0 7 2) .matrix n with x := { (tQueue (.mstgq 0 7 2) .matrix n).x with iss := (tCore .matrix (.mstgq 0 7 2) [w]).x.iss } }
     mayGo (tAt c) 0 .matrix (.mstgq 0 7 2) (tk (.mstgq 0 7 2) [w]) ∧ w.getLsbD 7 = false ∧ fld w 12 20 = 0 ∧ fld w 0 7 + (fld w 8 4 + 1) = 128 ∧
      iqReady 5 c 7 = true ∧ c.iq[7].count = n) := by
  refine ⟨may _ _ _ _ rfl rfl rfl rfl (waitsDone_of rfl _ _ _), fun i h => ?_,
    ⟨may _ _ _ _ rfl rfl rfl rfl (waitsDone_of rfl _ _ _), by decide, by decide, by decide, by decide⟩, fun n h => ?_⟩
  · simp only [List.mem_cons, List.not_mem_nil, or_false] at h
    rcases h with rfl | rfl <;> exact ⟨may _ _ _ _ rfl rfl rfl rfl (waitsDone_of rfl _ _ _), by decide, by decide⟩
  · simp only [List.mem_cons, List.not_mem_nil, or_false] at h
    rcases h with rfl | rfl <;> exact ⟨go _ _ _ _ rfl rfl rfl rfl, by decide +kernel⟩

/-- The first group of an instruction of the matrix engine. -/
def tRun1 (i : Instr) (sc : List Word) (c : Core) : Run := newRun (envOf (tAt c) 0) .matrix (tk i sc) c

theorem witness_MatrixMovesMoveTheirRows :
    ∀ p ∈ [(Instr.mstg 0 1 2, [(0xF000 : Word), BitVec.ofNat 32 (127 * 2 ^ 8)]), (.mbld 0 0 1 31, [0x4000]), (.mbst 0 0 1 31, [0xE000])],
    let c := tCore .matrix p.1 p.2
    let r := tRun1 p.1 p.2 c
    r.addr % 32 = 0 ∧ r.d.ins = p.1 ∧ r.rows.length = 16 ∧ (∀ q ∈ r.rows, q.scale = false ∧ r.addr / 32 ≤ q.row ∧ q.row - r.addr / 32 < 8 * 32) ∧
      (∀ q ∈ r.rows, eccBad c (32 * q.row) 32 = none) ∧ groupServed (asksNow (envOf (tAt c) 0) c) r c := by
  unfold groupServed; decide +kernel

theorem witness_ZeroingAndQueueStagingStep :
    (∀ k ∈ [0, 15], let i := Instr.mzero 0 0 31
      let r := { tRun1 i [] (tCore .matrix i []) with k := k, rows := [] }
      r.rows = [] ∧ r.d.ins = i ∧ 2 * r.k ≤ 31) ∧
    (∀ n ∈ [0, 1], let i := Instr.mstgq 0 7 2
      let c := tQueue i .matrix n
      let r := { tRun1 i [0] c with rows := [] }
      r.rows = [] ∧ r.d.ins = i ∧ (iqFree 5 7 c && headReady c 7) = decide (n = 1)) := by decide +kernel

theorem witness_MatrixProductsBegin : ∀ f ∈ [TileFmt.w16, .e4, .i4],
    let w0 : Word := BitVec.ofNat 32 15
    let w1 : Word := BitVec.ofNat 32 0x8000
    let sh := shapeOf w0 w1
    let sc : List Word := [0x4000, w0, w1]
    (let i := Instr.mma 0 0 1 2 f .rne
     mayBegin (tIn tShort (tCore .matrix i sc)) 0 .matrix i (tk i sc) ∧ firstBroken (mmaLimits f .rne 0 1 2 sh 0x4000) = none) ∧
    (∀ n ∈ [16, 15], let i := Instr.mmas 0 0 1 2 f .rne
     let c := { tCore .matrix i sc with stg := [(0, 1), (2, BitVec.ofNat 8 n)] }
     mayBegin (tIn tShort c) 0 .matrix i (tk i sc) ∧
      firstBroken (mmasLimits f .rne 0 1 2 sh 0x4000 ++ [(decide (1000 < mmasWorst 16), [2])]) = none ∧ (mmasBad sh c).isNone = decide (n = 16)) := by
  intro f h
  refine ⟨⟨mayIn _ _ _ _ _ rfl rfl rfl rfl rfl rfl (waitsDone_of rfl _ _ _), ?_⟩, fun n hn => ⟨mayIn _ _ _ _ _ rfl rfl rfl rfl rfl rfl (waitsDone_of rfl _ _ _), ?_⟩⟩
  · simp only [List.mem_cons, List.not_mem_nil, or_false] at h; rcases h with rfl | rfl | rfl <;> decide +kernel
  · simp only [List.mem_cons, List.not_mem_nil, or_false] at h hn; rcases h with rfl | rfl | rfl <;> rcases hn with rfl | rfl <;> decide +kernel

theorem witness_MatrixProductsReadTheirRows :
    ∀ n ∈ [0x00802002, 0x00801001], let i := Instr.mma 0 0 1 2 .h16 .rne
    let sc : List Word := [0x4000, BitVec.ofNat 32 n, 0]
    let c := tCore .matrix i sc
    let r := tRun1 i sc c
    r.d.ins = i ∧ r.rows ≠ [] ∧ (∀ q ∈ r.rows, eccBad c (32 * q.row) 32 = none) ∧ groupServed (asksNow (envOf (tAt c) 0) c) r c ∧
      decide (r.later = []) = decide (n = 0x00801001) := by
  unfold groupServed; decide +kernel

theorem witness_AttentionInstructions :
    let b : Word := BitVec.ofNat 32 (63 + 2 * 2 ^ 12 + 1 * 2 ^ 14)
    let sh := attnShape b
    (∀ m : MaskMode, let sc : List Word := [0xFFFFFC, 0xFFFFC0, b, 0]
      mayBegin (tAt (tCore .matrix (.mmask 0 30 1 2 m) sc)) 0 .matrix (.mmask 0 30 1 2 m) (tk (.mmask 0 30 1 2 m) sc) ∧
        fld (0xFFFFFC : Word) 0 24 + sh.m - 1 ≤ 16777215 ∧ fld (0xFFFFC0 : Word) 0 24 + sh.n - 1 ≤ 16777215 ∧
        fld (0xFFFFFC : Word) 24 8 = 0 ∧ fld (0xFFFFC0 : Word) 24 8 = 0) ∧
    (mayBegin (tAt (tCore .matrix (.msmx 0 30 1 2) [b])) 0 .matrix (.msmx 0 30 1 2) (tk (.msmx 0 30 1 2) [b])) ∧
    (mayBegin (tAt (tCore .matrix (.mscl 0 30 1 2) [b, 0])) 0 .matrix (.mscl 0 30 1 2) (tk (.mscl 0 30 1 2) [b, 0])) ∧
    sh.rsv = false ∧ sh.fmt = 1 ∧ sh.m * sh.n = 256 ∧ 256 * 30 + 2 * (sh.m * sh.n) = 8192 ∧ sh.xoff + 2 * sh.m * sh.n ≤ 4096 :=
  ⟨fun _ => ⟨may _ _ _ _ rfl rfl rfl rfl (waitsDone_of rfl _ _ _), by decide, by decide, by decide, by decide⟩,
    may _ _ _ _ rfl rfl rfl rfl (waitsDone_of rfl _ _ _), may _ _ _ _ rfl rfl rfl rfl (waitsDone_of rfl _ _ _), by decide⟩

-- The DMA engine -------------------------------------------------------------------------------------------------

/-- A descriptor: kind, SRC, DST, LENM1, and further bits. -/
def tDesc (kind src dst len more : Nat) : BitVec 256 := BitVec.ofNat 256 (kind + src * 2 ^ 32 + dst * 2 ^ 64 + len * 2 ^ 96 + more)

/-- A core with a DMOV to slot 3 at its head and a descriptor in memory. -/
def tDmov (i : Instr) (a : Word) (w : BitVec 256) : Core := { tCore .dma i [a] with sram := mwrite [] a.toNat (bytesOf w 32) }

theorem witness_DmovLoadsItsSlot :
    let i := Instr.dmov 0 3 1 0
    (∀ n ∈ [0x3FE0, 0xFFE0, 0x10000, 0x4004], mayGo (tAt (tCore .dma i [BitVec.ofNat 32 n])) 0 .dma i (tk i [BitVec.ofNat 32 n]) ∧
      slotFree (tCore .dma i []) 3 = true ∧ (scAt [BitVec.ofNat 32 n] 0 + 0).toNat = n ∧ (n % 32 = 0 ∧ inData n 32 = true ↔ n = 0xFFE0)) ∧
    (let c := { tCore .dma i [0x4000] with dma := (Vector.replicate 4 0).set 3 1 }
     mayGo (tAt c) 0 .dma i (tk i [0x4000]) ∧ slotFree c 3 = false) ∧
    (∀ p ∈ [(tDesc 1 0x4000 0xFFE0 31 0, true, true), (tDesc 5 0xFF00 0 0 0, true, true), (tDesc 9 0 0 0 0, false, true), (tDesc 1 0x4000 0xFFE0 63 0, true, false)],
      ∀ rows ∈ [[], [0x4000 / 32]],
      let c := tRefuse rows (tDmov i 0x4000 p.1)
      mayGo (tAt c) 0 .dma i (tk i [0x4000]) ∧ slotFree c 3 = true ∧ c.x.dRow = none ∧ inData 0x4000 32 = true ∧ ofBytes 256 (mread c.sram 0x4000 32) = p.1 ∧
        (descBad p.1).isNone = p.2.1 ∧ (descRange p.1).isNone = p.2.2 ∧ eccBad c 0x4000 32 = none ∧
        bankFree (tAt c) 0 .dma (tk i [0x4000]) (0x4000 / 32) (taken (tAt c) 0 .dma (tk i [0x4000]) 1 2) = rows.isEmpty) ∧
    (let w := tDesc 1 0x4000 0xFFE0 31 0
     let c := { tDmov i 0x4000 w with ecc := [(0x803, 2)] }
     let st := { c with x := { c.x with dRow := some (0x4000, w) } }
     mayGo (tAt c) 0 .dma i (tk i [0x4000]) ∧ eccBad c 0x4000 32 = some 0x4018 ∧ mayGo (tAt st) 0 .dma i (tk i [0x4000]) ∧ st.x.dRow = some (0x4000, w)) := by
  refine ⟨fun n h => ?_, ⟨go _ _ _ _ rfl rfl rfl rfl, by decide⟩, fun p h rows hr => ?_, ⟨go _ _ _ _ rfl rfl rfl rfl, by decide +kernel, go _ _ _ _ rfl rfl rfl rfl, rfl⟩⟩
  · simp only [List.mem_cons, List.not_mem_nil, or_false] at h
    rcases h with rfl | rfl | rfl | rfl <;> exact ⟨go _ _ _ _ rfl rfl rfl rfl, by decide +kernel⟩
  · simp only [List.mem_cons, List.not_mem_nil, or_false] at h hr
    rcases h with rfl | rfl | rfl | rfl <;> rcases hr with rfl | rfl <;> exact ⟨go _ _ _ _ rfl rfl rfl rfl, by decide +kernel⟩

theorem witness_DmovChecksItsTemplate :
    let i := Instr.dmov 0 3 1 0
    ∀ p ∈ [(0xFFC0, (0 : Nat), true, true, true, true), (0xFFE0, 0, true, false, true, true), (0xFFC0, 2, false, true, true, true),
        (0xFFC0, 0, true, true, false, true), (0xFFC0, 0, true, true, true, false)],
    let w := tDesc 5 p.1 0 0 0
    let c0 := { tDmov i 0x4000 w with sram := mwrite [] p.1 (bytesOf (BitVec.ofNat 256 p.2.1) 32), ecc := if p.2.2.2.2.1 then [] else [(p.1 / 8 + 3, 2)] }
    let c := tRefuse (if p.2.2.2.2.2 then [] else [p.1 / 32]) c0
    let r := { newRun (envOf (tAt c) 0) .dma (tk i [0x4000]) c with k := 1, data := bytesOf w 32, rows := [⟨false, p.1 / 32, 0⟩], later := [] }
    let tpl : Row := ofBytes 256 (mread c.sram p.1 32)
    ofBytes 256 r.data = w ∧ r.d.ins = i ∧ dKind w = 5 ∧ dSrc w = p.1 ∧ p.1 % 32 = 0 ∧ templateValid tpl = p.2.2.1 ∧ hN tpl = 1 ∧
      inData p.1 (32 + 2 * hN tpl) = p.2.2.2.1 ∧ (eccBad c p.1 32).isNone = p.2.2.2.2.1 ∧
      bankServes [] c ⟨userOf r.eng, r.d.seq, p.1 / 32, 0, r.next⟩ = p.2.2.2.2.2 := by decide +kernel

/-- A running core with a DMA slot 3, an entry with a sideband in IQ0, now and at the start of the step, and an SRAM. -/
def tSlot (w : BitVec 256) (data : Row) (sb : Byte) (m : Mem) : Core :=
  let c := { Core.zero with
    r := { CoreRegs.zero with st := .run }
    dma := (Vector.replicate 4 0).set 3 w
    iq := (Vector.replicate 8 Queue.zero).set 0 (Queue.zero.push ⟨data, sb⟩)
    sram := m }
  { c with x := { c.x with start := { c.x.start with iq := c.iq } } }

theorem witness_RefusedSlotsWait :
    (slotAsk (tAt (tRefuse [0x4000 / 32] (tSlot (tDesc 1 0x4000 0xFFC0 63 0) 0 0 []))) 0 3 0x4000).1 = false := by decide +kernel

theorem witness_RawSlotsMoveOneRow :
    (∀ p ∈ [0, 32], ∀ d ∈ [false, true], ∀ rows ∈ [([] : List Nat), [0x4000 / 32, 0x4020 / 32, 0xFFC0 / 32, 0xFFE0 / 32]],
     let w := tDesc 1 0x4000 0xFFC0 63 (p * 2 ^ 192)
     let c0 := tSlot w 0 0 []
     let c := tRefuse rows { c0 with x := { c0.x with copied := if d then (Vector.replicate 4 none).set 3 (some (7, 15)) else Vector.replicate 4 none } }
     slotReady (envOf (tAt c) 0) 1 3 c = some w ∧ c.x.copied[3] = (if d then some (7, 15) else none) ∧ dDst w % 8 = 0 ∧
       (slotAsk (tAt c) 0 3 (dSrc w + p)).1 = rows.isEmpty ∧ (slotAsk (tAt c) 0 3 (dDst w + p)).1 = rows.isEmpty) ∧
    (∀ rows ∈ [([] : List Nat), [0xFFE0 / 32]],
     let w := tDesc 2 0 0xFFE0 31 0
     let c := tRefuse rows (tSlot w 5 (mkSb 0 false true true) [])
     slotReady (envOf (tAt c) 0) 2 3 c = some w ∧ headFor 5 c 0 = true ∧ (slotAsk (tAt c) 0 3 (dDst w)).1 = rows.isEmpty) ∧
    (∀ rows ∈ [([] : List Nat), [0x4000 / 32]], ∀ f ∈ [0, 1],
     let w := tDesc 3 0x4000 0 31 (f * 2 ^ 24)
     let c := tRefuse rows { tSlot w 0 0 [] with ecc := [(0x800, 2)] }
     slotReady (envOf (tAt c) 0) 3 3 c = some w ∧ roomFor 5 c 0 = true ∧ dFl w = decide (f = 1) ∧ (slotAsk (tAt c) 0 3 (dSrc w)).1 = rows.isEmpty ∧
       (eccBad c (dSrc w) 32).isSome = true) ∧
    (∀ rows ∈ [([] : List Nat), [0x4000 / 32]], ∀ ue ∈ [([] : List (Nat × Nat)), [(0x803, 2)]],
     let w := tDesc 7 0x4000 0xFE0 31 0
     let c := tRefuse rows { tSlot w 0 0 [] with ecc := ue }
     slotReady (envOf (tAt c) 0) 7 3 c = some w ∧ rowInUse 5 c (dDst w / 32) = false ∧ (slotAsk (tAt c) 0 3 (dSrc w)).1 = rows.isEmpty ∧
       (eccBad c (dSrc w) 32).isNone = ue.isEmpty) ∧
    (let w := tDesc 8 0 0 0 0
     let c := tSlot w 5 (mkSb 0 false true true) []
     slotReady (envOf (tAt c) 0) 8 3 c = some w ∧ headFor 5 c 0 = true ∧ roomFor 5 c 0 = true) := by decide +kernel

/-- The header of a tile of n elements with a payload of one unit, and its CRC. -/
def tHeader (crc : Nat) : Row := BitVec.ofNat 256 (2 ^ 12 + crc * 2 ^ 224)

/-- A TIN slot waits for room in its ring. -/
theorem witness_TinWaitsForItsRing :
    ∀ d ∈ [63, 64], let w := tDesc 4 0 0x8000 31 (2 ^ 9 + 64 * 2 ^ 160)
     let c := { tSlot w (tHeader 0) (mkSb 0 false true false) [] with ch := (Vector.replicate 16 (0, 0)).set 0 (BitVec.ofNat 16 (if d = 64 then 1 else 0), 0) }
     slotReady (envOf (tAt c) 0) 4 3 c = some w ∧ headFor 5 c 0 = true ∧ dProg w = 0 ∧ dChe w = true ∧
       decide (dRing w * dAmt w ≤ fill c.ch[dCh w]) = decide (d = 64) := by decide +kernel

theorem witness_TinTakesHeaders :
    ∀ sb ∈ [mkSb 0 false true false, mkSb 0 false true true, mkSb 0 false false false], ∀ rows ∈ [([] : List Nat), [0x8000 / 32]],
     let w := tDesc 4 0 0x8000 31 (64 * 2 ^ 160)
     let c := tRefuse rows (tSlot w (tHeader 0) sb [])
     slotReady (envOf (tAt c) 0) 4 3 c = some w ∧ headFor 5 c 0 = true ∧ dProg w = 0 ∧ dChe w = false ∧
       (headerFault w (c.iq[0].ent 0) none).isNone = decide (sb = mkSb 0 false true false) ∧ (slotAsk (tAt c) 0 3 (dDst w)).1 = rows.isEmpty := by decide +kernel

theorem witness_TinTakesTilesEntryByEntry :
    ∀ last ∈ [true, false], ∀ good ∈ [true, false], ∀ ue ∈ [([] : List (Nat × Nat)), [(0x1000, 2)]], ∀ rows ∈ [([] : List Nat), [0x8020 / 32]],
     let w := tDesc 4 0 0x8000 31 (64 * 2 ^ 160 + 32 * 2 ^ 192)
     let crc := crcGo (dCrcp w) (bytesOf (0 : Row) 32) ^^^ 0xFFFFFFFF#32
     let c := tRefuse rows { tSlot w 0 (mkSb 0 false false last) (mwrite [] 0x8000 (bytesOf (tHeader (if good then crc.toNat else 1)) 32)) with ecc := ue }
     let h : Row := ofBytes 256 (mread c.sram 0x8000 32)
     slotReady (envOf (tAt c) 0) 4 3 c = some w ∧ headFor 5 c 0 = true ∧ dProg w = 32 ∧ decide (sbLast (c.iq[0].ent 0).sb = decide (32 * hUnits h ≤ dProg w)) = last ∧
       decide (crc = hCrc h) = good ∧ (eccBad c 0x8000 32).isNone = ue.isEmpty ∧ (slotAsk (tAt c) 0 3 0x8020).1 = rows.isEmpty := by decide +kernel

/-- A TSTG slot 3 at PROG p, its entry, the header in its prefix, its bitmap, and what refuses it. -/
def tTstg (p : Nat) (data : Row) (sb : Byte) (h : Row) (bm : List Byte) (rows : List Nat) : Core :=
  tRefuse rows (tSlot (tDesc 6 0 0xFE0 31 (0x8000 * 2 ^ 160 + p * 2 ^ 192)) data sb (mwrite (mwrite [] 0x8000 (bytesOf h 32)) 0x8040 bm))

/-- The CRC that ends there with a tile's last entry, by a slot whose CRCP is 0. -/
def tCrc (data : Row) : Nat := (crcGo 0 (bytesOf data 32) ^^^ 0xFFFFFFFF#32).toNat

theorem witness_TstgTakesHeaders :
    ∀ sb ∈ [mkSb 0 false true false, mkSb 0 false true true], ∀ rows ∈ [([] : List Nat), [0x8000 / 32]],
    let w := tDesc 6 0 0xFE0 31 (0x8000 * 2 ^ 160)
    let c := tTstg 0 (tHeader 0) sb 0 [] rows
    c.x.stgLeft[3] = [] ∧ slotReady (envOf (tAt c) 0) 6 3 c = some w ∧ headFor 5 c 0 = true ∧ dProg w = 0 ∧
      (tstgFault w (c.iq[0].ent 0)).isNone = decide (sb = mkSb 0 false true false) ∧ (slotAsk (tAt c) 0 3 (dStride w)).1 = rows.isEmpty := by decide +kernel

theorem witness_TstgWritesItsRows : ∀ rest ∈ [([] : List StgWrite), [rowWrite 0xFE0 []]],
    let c0 := tTstg 128 0 0 0 [] []
    let c := { c0 with x := { c0.x with stgLeft := (Vector.replicate 4 []).set 3 (rowWrite 0xFC0 [7] :: rest) } }
    c.x.stgLeft[3] = rowWrite 0xFC0 [7] :: rest ∧ dmaRuns (envOf (tAt c) 0) c = true ∧ slotTurn (envOf (tAt c) 0) 3 c = true ∧ dKind c.dma[3] = 6 ∧
      rowInUse 5 c (stgRow (rowWrite 0xFC0 [7])) = false := by decide +kernel

theorem witness_TstgTakesDenseEntries : ∀ use ∈ [[], [0x7F]],
    let h := tHeader (tCrc 0)
    let c0 := tTstg 32 0 (mkSb 0 false false true) h [] []
    let c := { c0 with x := { c0.x with begun := [⟨.mzero 0 0 0, 0, .matrix, 4, 9, [], use, []⟩] } }
    let w := c.dma[3]
    c.x.stgLeft[3] = [] ∧ slotReady (envOf (tAt c) 0) 6 3 c = some w ∧ headFor 5 c 0 = true ∧ dProg w = 32 ∧ eccBad c (dStride w) 32 = none ∧
      headerAt (dStride w) c = h ∧ hC h = false ∧ sbLast (c.iq[0].ent 0).sb = decide (32 * hUnits h ≤ dProg w) ∧
      rowInUse 5 c ((dDst w + dProg w - 32) / 32) = !use.isEmpty ∧
      crcGo (dCrcp w) (bytesOf (c.iq[0].ent 0).data 32) ^^^ 0xFFFFFFFF#32 = hCrc h := by decide +kernel

/-- The header of a compressed H16 tile of one element, with one value. -/
def tComp (crc : Nat) : Row := BitVec.ofNat 256 (2 ^ 8 + 2 * 2 ^ 16 + 2 ^ 64 + crc * 2 ^ 224)

/-- The form unit of that tile, VCNT v. -/
def tForm (v : Nat) : Row := BitVec.ofNat 256 (1 + 2 ^ 16 + v * 2 ^ 32)

theorem witness_TstgExpandsTiles :
    ∀ x ∈ [(32, tForm 1, true), (32, tForm 0, false), (64, (1 : Row), true), (64, 3, false), (96, 9, true)],
    let h := tComp (tCrc x.2.1)
    let c := tTstg x.1 x.2.1 (mkSb 0 false false (decide (x.1 = 96))) h [1] []
    let w := c.dma[3]
    c.x.stgLeft[3] = [] ∧ slotReady (envOf (tAt c) 0) 6 3 c = some w ∧ headFor 5 c 0 = true ∧ dProg w = x.1 ∧ eccBad c (dStride w) (64 + 32) = none ∧
      headerAt (dStride w) c = h ∧ hC h = true ∧ hTile h = some .h16 ∧ bitmapUnits (hN h) = 1 ∧
      sbLast (c.iq[0].ent 0).sb = decide (32 * hUnits h ≤ dProg w) ∧
      (x.1 ≤ 64 → prefixOk w h .h16 (x.1 / 32 - 1) (c.iq[0].ent 0).data c = x.2.2) ∧ (slotAsk (tAt c) 0 3 (dStride w + x.1)).1 = true ∧
      (sbLast (c.iq[0].ent 0).sb = true → crcGo (dCrcp w) (bytesOf (c.iq[0].ent 0).data 32) ^^^ 0xFFFFFFFF#32 = hCrc h) := by decide +kernel

/-- A TOUT slot 3 in a stage of its tile. -/
def tTout (p : Nat) (x : ToutX) (tpl : Row) : Core :=
  let c := tSlot (tDesc 5 0xFF80 0 0 (p * 2 ^ 192)) 0 0 (mwrite [] 0xFF80 (bytesOf tpl 32))
  { c with x := { c.x with tout := (Vector.replicate 4 .none).set 3 x } }

theorem witness_ToutReadsFormsAndEmits :
    (∀ x ∈ [(ToutX.none, (0 : Row), false), (.none, 2, true), (.reading [0] false, 0, false)], ∀ rows ∈ [([] : List Nat), [0xFF80 / 32, 0xFFA0 / 32]],
     let c := tRefuse rows (tTout 0 x.1 x.2.1)
     let n := (toutRows x.1).getD 0
     slotReady (envOf (tAt c) 0) 5 3 c = some c.dma[3] ∧ c.x.tout[3] = x.1 ∧ (n = 0 ∨ n = 1) ∧ (n = 0 → templateValid (headerAt 0xFF80 c) = !x.2.2) ∧
       c.x.slotN[3] = 0 ∧ inData 0xFF80 34 = true ∧ (slotAsk (tAt c) 0 3 (0xFF80 + 32 * n)).1 = rows.isEmpty) ∧
    (∀ t ∈ [5, 6], let c := tTout 0 (.source 0 [7] false t) 0
     slotReady (envOf (tAt c) 0) 5 3 c = some c.dma[3] ∧ c.x.tout[3] = .source 0 [7] false t ∧ decide (t ≤ (envOf (tAt c) 0).now) = decide (t = 5)) ∧
    (∀ p ∈ [0, 32], let c := tTout p (.formed [1, 2]) 0
     slotReady (envOf (tAt c) 0) 5 3 c = some c.dma[3] ∧ c.x.tout[3] = .formed [1, 2] ∧ roomFor 5 c 0 = true) := by decide +kernel

theorem witness_TheCompressorTakesLowerSlotsFirst :
    let c := tTout 0 (.read 0 [7] false) 0
    let two := { c with x := { c.x with tout := c.x.tout.set 1 (.read 2 [1, 2] true) } }
    (∀ i : Fin 4, i ≠ 1 → i ≠ 3 → c.x.tout[i] = .none) ∧ c.x.tout[3] = .read 0 [7] false ∧ c.x.tout[1] = .none ∧
    (∀ i : Fin 4, i ≠ 1 → i ≠ 3 → two.x.tout[i] = .none) ∧ two.x.tout[3] = .read 0 [7] false ∧ two.x.tout[1] = .read 2 [1, 2] true := by decide +kernel

/-- A core whose slot 3, with a channel and a flag, has finished, with a fill on channel 15. -/
def tFin (w : BitVec 256) (f : BitVec 16) : Core :=
  let c := tSlot w 0 0 []
  { c with ch := c.ch.set 15 (f, 0), x := { c.x with slotFin := (Vector.replicate 4 false).set 3 true } }

theorem witness_FinishedSlotsSignal :
    (∀ f ∈ [(127 : Nat), 128], let w := tDesc 1 0x4000 0x8000 31 (2 ^ 9 + 15 * 2 ^ 10 + 2 ^ 17 + 63 * 2 ^ 18)
     let c := tFin w (BitVec.ofNat 16 f)
     let e := envOf (tAt c) 0
     live e c = true ∧ c.x.slotFin[3] = true ∧ dKind c.dma[3] = 1 ∧ dChe w = true ∧ dFle w = true ∧ signalAhead e c = false ∧
       (∀ j : Fin 4, j < 3 → slotEnds e j c = false) ∧ fill c.ch[dCh w] + dAmt w = f + 1) ∧
    (let c0 := tFin (tDesc 1 0x4000 0x8000 31 0) 0
     let c := { c0 with x := { c0.x with iss := (tCore .scalar (.flagWaitc 0 0) []).x.iss }, flags := 1 }
     let l := { c0 with dma := c0.dma.set 0 (tDesc 2 0x4000 0x8000 31 0), x := { c0.x with slotFin := c0.x.slotFin.set 0 true } }
     signalAhead (envOf (tAt c) 0) { c with x := { c.x with start := { c.x.start with flags := 1 } } } = true ∧ slotEnds (envOf (tAt l) 0) 0 l = true) ∧
    (∀ n ∈ [0, 1], let w := tDesc 4 0 0x8000 31 (n * 2 ^ 128 + 64 * 2 ^ 160)
     let c := tFin w 0
     live (envOf (tAt c) 0) c = true ∧ dKind w = 4 ∧ dChe w = false ∧ decide (dDone w + 1 < dTiles w) = decide (n = 1) ∧
       signalAhead (envOf (tAt c) 0) c = false ∧ (∀ j : Fin 4, j < 3 → slotEnds (envOf (tAt c) 0) j c = false)) := by decide +kernel

-- Folds and tokens -----------------------------------------------------------------------------------------------

/-- A fold of a tag that binds IQ7, with ENTRY 0x100, and further bits. -/
def tFold (tag more : Nat) : BitVec 512 := BitVec.ofNat 512 (0x100 + 2 ^ 14 + tag * 2 ^ 16 + 2 ^ 39 + more)
/-- A running core with fold 7, unit 3, and one entry in IQ7, now and at the start of the step. -/
def tFlow (f : BitVec 512) (u : BitVec 256) (sb : Byte) : Core :=
  let iq := (Vector.replicate 8 Queue.zero).set 7 (Queue.zero.push ⟨5, sb⟩)
  let su := (Vector.replicate 4 0).set 3 u
  { Core.zero with
    r := { CoreRegs.zero with st := .run }
    folds := (Vector.replicate 8 0).set 7 f
    su := su
    iq := iq
    x := { CoreExec.zero with start := { StepStart.zero with iq := iq, su := su } } }

/-- A steering unit on IQ7 and tag 2, by its token counter, with the drop bits given. -/
def tUnit (more : Nat) : BitVec 256 := BitVec.ofNat 256 (1 + 2 ^ 2 + 7 * 2 ^ 4 + 2 * 2 ^ 7 + 4 * 2 ^ 10 + 2 ^ 32 + more)

theorem witness_FoldChoiceTakesTheLowestMatch :
    let ok := tFlow (tFold 2 (2 ^ 384)) 0 (mkSb 2 false true true)
    let off := tFlow (tFold 2 (2 ^ 384)) 0 (mkSb 3 false true true)
    let ended := { ok with x := { ok.x with start := { ok.x.start with ended := true } } }
    let unsettled := tFlow (tFold 2 (2 ^ 384 + 2 ^ 47)) (tUnit 0) (mkSb 2 false true true)
    (∀ c ∈ [ok, off], c.r.st = .run ∧ c.x.haltReq = false ∧ foldActive c = false ∧ c.x.chosen = none ∧ c.x.start.ended = false ∧
      fValid c.folds[7] = true ∧ fCand c.folds[7] = true ∧
      ∀ (q j : Fin 8), fValid c.folds[j] = true → fCand c.folds[j] = true → fBinds c.folds[j] q = true → settled (atStart c) q = true) ∧
    matchesHeads (atStart ok) 7 = true ∧ ok.x.held.getLsbD 7 = false ∧ foldOk ok.folds[7] = true ∧
    (∀ j : Fin 8, j < 7 → fValid ok.folds[j] = false) ∧
    (∀ j : Fin 8, fValid off.folds[j] = true → fCand off.folds[j] = true → matchesHeads (atStart off) j = false) ∧ off.x.held = 0 ∧
    ended.x.start.ended = true ∧
    (fValid unsettled.folds[7] = true ∧ fCand unsettled.folds[7] = true ∧ fBinds unsettled.folds[7] 7 = true ∧ settled (atStart unsettled) 7 = false) := by
  decide +kernel

theorem witness_FoldFireActivatesTheChosenFold :
    let c := tFlow (tFold 2 (2 ^ 384)) 0 (mkSb 2 false true true)
    let c' := { c with x := { c.x with chosen := some (7 : Fin 8) } }
    c'.r.st = .run ∧ c'.x.haltReq = false ∧ c'.x.chosen = some 7 ∧ c'.x.start.ended = false ∧ fires c' 7 = true := by decide +kernel

theorem witness_SteeringDecidesTheHead : ∀ more ∈ [0, 2 ^ 16], let c := tFlow (tFold 2 (2 ^ 47)) (tUnit more) (mkSb 2 true true true)
    let u := c.su[3]
    c.r.st = .run ∧ 0 < c.iq[7].count ∧ 0 < (atStart c).iq[7].count ∧ wouldDecide c 3 7 (c.iq[7].ent 0) = true ∧ uQ u = 7 ∧ iqFree (envOf (tAt c) 0).now 7 c = true ∧
      wouldDecide (atStart c) 3 7 ((atStart c).iq[7].ent 0) = true ∧ unitOk u = true ∧ unitCond u (uCfcnt (atStart c).su[3]) (c.iq[7].ent 0) = some true ∧
      uDrop u true = decide (more ≠ 0) := by decide +kernel

theorem witness_DropsAndDiscardsRemoveOneEntry :
    (let c0 := tFlow (tFold 2 (2 ^ 47)) (tUnit (2 ^ 16 + 2 ^ 150)) (mkSb 2 true true true)
     let c := { c0 with x := { c0.x with drop := (0x80 : Byte), start := { c0.x.start with drop := (0x80 : Byte) } } }
     c.r.st = .run ∧ 0 < c.iq[7].count ∧ iqFree 5 7 c = true ∧ uQ c.su[3] = 7 ∧ dropsHead c 3 7 = true ∧ c.x.drop.getLsbD 7 = true ∧ c.x.start.drop.getLsbD 7 = true) ∧
    (let c0 := tFlow (tFold 2 0) 0 (mkSb 2 true false false)
     let c := { c0 with iq := c0.iq.set 7 (c0.iq[7].setHdisc true) }
     c.x.drop.getLsbD 7 = false ∧ c.iq[7].hdisc = true ∧ 0 < c.iq[7].count ∧ iqFree 5 7 c = true) ∧
    (∀ disc ∈ [0, 2 ^ 20], let c := tFlow (tFold 2 disc) 0 (mkSb 2 true true true)
     c.x.drop.getLsbD 7 = false ∧ c.iq[7].hdisc = false ∧ staleFold c 7 (c.iq[7].ent 0) = some 7 ∧ fDisc c.folds[7] = decide (disc ≠ 0) ∧ iqFree 5 7 c = true) := by
  decide +kernel

/-- A module whose router 0 has a flit at its east input, and a slot entry that sends it to IQ7. -/
def tFlit (sb : Byte) : State :=
  { tAt { Core.zero with r := { CoreRegs.zero with st := .run } } with
    routers := [(0, { Router.zero with slots := [(5, BitVec.ofNat 64 (2 * 2 ^ 12 + 7 * 2 ^ 15))], inp := (Vector.replicate 4 []).set 1 [⟨0, ⟨9, sb⟩⟩] })] }

theorem witness_ArrivalsEnterTheQueue : ∀ sb ∈ [mkSb 1 true true false, mkSb 1 true false true],
    let s := tFlit sb
    let c := getCore s 0
    (s.tide.frozen = false ∧ (getRouter s 0).localDone ≠ 6 ∧ (getNode s 0).steps = 5 ∧ lselOf (tget 0 (getRouter s 0).slots (5 % periodOf s (panOf 0))) = 2 ∧
      c.r.st = .run ∧ c.iq[7].count < 16 ∧ (sbFirst sb && c.iq[7].topen) = false) ∧
      moveOf s 0 5 2 = some ⟨2, ⟨0, ⟨9, sb⟩⟩, [], some 7⟩ := by
  intro sb h
  simp only [List.mem_cons, List.not_mem_nil, or_false] at h
  rcases h with rfl | rfl
  · exact ⟨by decide +kernel, by rfl⟩
  · exact ⟨by decide +kernel, by rfl⟩

/-- A running core that fetches one word from its buffer at 0x3FFC. -/
def tFetch (w : Nat) : Core :=
  { Core.zero with
    r := { CoreRegs.zero with st := .run }
    pc := 0x3FFC
    x := { CoreExec.zero with fetch := .going, fbuf := some (511, BitVec.ofNat 256 (w * 2 ^ 224)) } }

theorem witness_FetchDispatchesInOrder : ∀ p ∈ [(0x131400, true), (0x8131400, false)], ∀ busy ∈ [false, true],
    let c0 := tFetch p.1
    let c := { c0 with x := { c0.x with seq := 1, begun := if busy then [⟨.mzero 0 0 0, 0, .scalar, 4, 9, [.s 5], [], []⟩] else [] } }
    let w : Word := BitVec.ofNat 32 p.1
    let pw := pendingWrites (envOf (tAt c) 0).now c.x.seq c
    live (envOf (tAt c) 0) c = true ∧ c.x.fetch = .going ∧ c.x.fetchAt ≤ 5 ∧ c.x.haltReq = false ∧ c.x.fw1 = none ∧ c.pc < 0x4000 ∧ bufWord c c.pc = some w ∧
      eccBad c c.pc 4 = none ∧ (getStation (tAt c) (stationOf 0)).mask = 0 ∧ w.getLsbD 31 = false ∧ decodeCore 0 w 0 = .ok (.add 0 6 5 0) ∧ predHolds c.p w = p.2 ∧
      pw.contains (.p (Fin.ofNat 8 (fld w 27 3))) = false ∧ (issueOf .scalar c).length < 4 ∧ engineOf (.add 0 6 5 0) (fld w 20 7) = .scalar ∧
      isEnd (.add 0 6 5 0) = false ∧ pauses (.add 0 6 5 0) = false := by
  decide +kernel

/-- There a branch on a register is dispatched with its operand, which an instruction in progress may still write. -/
theorem witness_FetchWaitsForOperands : ∀ busy ∈ [false, true],
    let c0 := tFetch 0
    let c := { c0 with x := { c0.x with seq := 1, begun := if busy then [⟨.mzero 0 0 0, 0, .matrix, 4, 9, [.s 5], [], []⟩] else [] } }
    (∃ r ∈ dispatchRegs (.mbld 0 0 5 31), (pendingWrites (envOf (tAt c) 0).now c.x.seq c).contains (.s r) = true) ↔ busy = true := by decide +kernel

theorem witness_FetchReadsItsRow : ∀ pc ∈ [0x3FFC, 0x4000], ∀ far ∈ [false, true], ∀ rows ∈ [([] : List Nat), [511]],
    let c0 := { Core.zero with r := { CoreRegs.zero with st := .run }, pc := pc, x := { CoreExec.zero with fetch := .going, far := far } }
    let c := { c0 with x := { c0.x with served := rows.map (fun r => (.dmov, bankOf r)) } }
    let e := envOf (tAt c) 0
    live e c = true ∧ c.x.fetch = .going ∧ c.x.fetchAt ≤ e.now ∧ c.x.haltReq = false ∧ c.x.fw1 = none ∧ bufWord c c.pc = none ∧ c.x.far = far ∧
      (pc < 0x4000 → (askBank e .fetch 0 (c.pc / 32) c).1 = rows.isEmpty) := by decide +kernel

theorem witness_HaltRequestsDrainIntoHalt :
    let c := { Core.zero with r := { CoreRegs.zero with st := .run } }
    let asked := { c with x := { c.x with haltReq := true } }
    let past := { asked with pc := 0x4000, folds := (Vector.replicate 8 0).set 7 (tFold 2 (2 ^ 385)) }
    let busy := { tCore .scalar (.add 0 6 5 0) [] with x := { (tCore .scalar (.add 0 6 5 0) []).x with haltReq := true } }
    let i := Instr.stepCommit 0
    let commit := { tCore .scalar i [] with x := { (tCore .scalar i []).x with phase3 := some true } }
    ({ tAt c with haltSent := [0] }.haltSent.contains 0 = true ∧ c.r.st = .run ∧ c.x.phase3 = none) ∧
    (commit.r.st = .run ∧ commit.x.phase3 = some true ∧ commit.x.gres = none ∧ issueOf .scalar commit = tk i [] :: []) ∧
    (asked.x.haltReq = true ∧ drained (envOf (tAt asked) 0) asked = true ∧ asked.pc < 0x4000) ∧
    (drained (envOf (tAt past) 0) past = true ∧ 0x4000 ≤ past.pc ∧ foldActive past = true ∧ past.x.fetch ≠ .ended) ∧
    (busy.x.haltReq = true ∧ drained (envOf (tAt busy) 0) busy = false) := by decide +kernel

/-- A running core whose IQ7 is full and whose watchdog is about to reach its limit. -/
def tStall : Core :=
  let q : Queue := (List.replicate 16 ⟨5, mkSb 0 false true true⟩).foldl Queue.push Queue.zero
  { Core.zero with
    r := { CoreRegs.zero with st := .run }
    iq := (Vector.replicate 8 Queue.zero).set 7 q
    wcount := 0xFFFF
    x := { CoreExec.zero with start := { StepStart.zero with iq := (Vector.replicate 8 Queue.zero).set 7 q } } }
/-- A debugger on pair 3. -/
def tDbg : Dbg := ⟨3, ⟨0, 7, 3, 5, 0, 0, 0⟩, [], []⟩

theorem witness_StallWatchdogRaises :
    let e := envOf (tAt tStall) 0
    (tStall.r.st = .run ∧ tStall.x.stalled = false ∧ tStall.x.start.fired = false ∧ tStall.x.start.drained = false ∧ tStall.x.start.iq[7].count = 16 ∧
      tStall.stallW ≠ 0 ∧ tStall.stallW.toNat = (tStall.wcount + 1).toNat ∧ mayFire e tStall = false ∧ mayDrain e tStall = false ∧ e.attached = false) ∧
    ({ tStall with wcount := tStall.wcount - 1 }.wcount + 1).toNat < tStall.stallW.toNat ∧
    (let s := tIn (setPart (tJob false) 0 { getPart (tJob false) 0 with dbg := some tDbg }) tStall
     (envOf s 0).part = some 0 ∧ (getPart s 0).dbg = some tDbg ∧ tStall.x.phase3 = none ∧ mayFire (envOf s 0) tStall = false ∧ mayDrain (envOf s 0) tStall = false) := by
  decide +kernel

/-- An instruction in progress whose register write is to be taken back until it is done. -/
def tBegun (due : Nat) : Begun := ⟨.add 0 6 5 0, 0, .scalar, 4, due, [.s 6], [], [.s 6 9]⟩

theorem witness_TakingAFaultFillsTheRecord : ∀ st ∈ [CoreSt.run, .hold],
    let c := { Core.zero with r := { CoreRegs.zero with st := st }, x := { CoreExec.zero with begun := [tBegun 9] } }
    (c.r.st = .run ∨ c.r.st = .hold) ∧ c.x.prefire = none := by decide +kernel

/-- A core that has faulted in this step, with a rank. -/
def tFaulted (rank : Nat) (due : Nat) : Core :=
  { Core.zero with r := { CoreRegs.zero with st := .fault }, x := { CoreExec.zero with faultAt := 6, frank := rank, begun := [tBegun due] } }

theorem witness_SecondFaultsSetMore : ∀ p ∈ [(3, true), (2, false)],
    let c := tFaulted p.1 9
    c.r.st = .fault ∧ c.x.faultAt = (envOf (tAt c) 0).now + 1 ∧ c.x.prefire = none ∧ decide (2 < c.x.frank) = p.2 := by decide +kernel

theorem witness_FaultedCoresAreAbandoned :
    ((tFaulted 3 9).r.st = .fault ∧ (tFaulted 3 9).x.faultAt = 5 + 1 ∧ (tFaulted 3 9).x.begun = [tBegun 9] ∧ 5 + 1 < (tBegun 9).due ∧ (tBegun 9).undo = [.s 6 9]) ∧
    ((tFaulted 3 6).x.faultAt = 5 + 1 ∧ ∀ b ∈ (tFaulted 3 6).x.begun, b.due ≤ 5 + 1) := by decide +kernel

theorem witness_CoresStartAtTheirCount :
    let c := { Core.zero with r := { CoreRegs.zero with st := .loaded }, x := { CoreExec.zero with commit := some 5 } }
    let s := tIn (tJob false) c
    s.tide.frozen = false ∧ twf Core.zero s.cores = true ∧ inPart s 0 0 = true ∧ inPart s 0 120 = false ∧ (getCore s 0).r.st = .loaded ∧
      (getCore s 0).x.commit = some 5 ∧ 5 ≤ (getNode s (panOf 0)).steps ∧ badPointer (getCore s 0) = none := by decide +kernel

-- Control messages -----------------------------------------------------------------------------------------------

/-- A message of partition 0 from router 7, born in step 1. -/
def tMsg (b : MsgBody) (gen : Nat) : Msg := ⟨0, gen, false, some 0, 7, 1, b⟩
/-- A module whose partition 0 runs a job, core 0 a member of it where asked. -/
def tMember (yes : Bool) : State :=
  setPart (tJob true) 0 { getPart (tJob true) 0 with
    image := some { tImage with guard := setBit 0 27 true, cores := [⟨0, 0, 0, [], [], [], [(0, yes, [])]⟩] } }
/-- A module with a message due at the control port of core 0. -/
def tPort (b : MsgBody) (gen : Nat) (yes : Bool) (c : Core) : State :=
  { tIn (tMember yes) c with routers := [(0, { Router.zero with port := [(5, ⟨tMsg b gen, 0, [], .to 0, 4, 4, false⟩)] })] }
/-- The message due there. -/
def tDue (b : MsgBody) (gen : Nat) : Nat × LaneMsg := (5, ⟨tMsg b gen, 0, [], .to 0, 4, 4, false⟩)

theorem witness_ControlMessagesApplyAtTheirCore :
    let c0 := { Core.zero with r := { CoreRegs.zero with st := .run }, ch := (Vector.replicate 16 (0, 0)).set 15 (120, 0), x := { CoreExec.zero with phase3 := some true } }
    ∀ p ∈ messageOps 0 63 15 8 true 0x80 255 3 [0, 1] c0, let s := tPort p.2.1 0 true c0
      (p.1, (tDue p.2.1 0).2.msg.body, p.2.2) ∈ messageOps 0 63 15 8 true 0x80 255 3 [0, 1] (getCore s 0) ∧
        portDue (getRouter s 0) (getNode s (panOf 0)).steps = [tDue p.2.1 0] ∧
        fresh s 0 (tMsg p.2.1 0) = true ∧ (getCore s 0).r.st ≠ .defect ∧ localOver (envOf s 0) (getCore s 0) = true ∧ memberCore s 0 = true := by
  decide +kernel

theorem witness_ControlMessagesWaitOrFault :
    (let i := Instr.flagClr 0 63 false 0
     let s := tPort (.flagSet 63) 0 true (tCore .scalar i [])
     portDue (getRouter s 0) (getNode s (panOf 0)).steps = [tDue (.flagSet 63) 0] ∧ fresh s 0 (tMsg (.flagSet 63) 0) = true ∧
       localOver (envOf s 0) (getCore s 0) = false) ∧
    (∀ p ∈ [(MsgBody.chPut 15 9, (120 : BitVec 16)), (.chGet 15 1, 0)],
     let c0 := { Core.zero with r := { CoreRegs.zero with st := .run }, ch := (Vector.replicate 16 (0, 0)).set 15 (p.2, 0) }
     let s := tPort p.1 0 true c0
     portDue (getRouter s 0) (getNode s (panOf 0)).steps = [tDue p.1 0] ∧ fresh s 0 (tMsg p.1 0) = true ∧ localOver (envOf s 0) (getCore s 0) = true ∧
       (getCore s 0).r.st = .run ∧ (getCore s 0).x.prefire = none ∧ (128 < fill (getCore s 0).ch[15] + 9 ∨ fill (getCore s 0).ch[15] < 1)) := by
  decide +kernel

theorem witness_LateGuardResultSetsRdone : ∀ yes : Bool,
    let s := tPort (.guardRes true 0x80) 0 yes { Core.zero with r := { CoreRegs.zero with st := .run } }
    portDue (getRouter s 0) (getNode s (panOf 0)).steps = [tDue (.guardRes true 0x80) 0] ∧ fresh s 0 (tMsg (.guardRes true 0x80) 0) = true ∧
      (getCore s 0).r.st ≠ .defect ∧ (getCore s 0).x.phase3 = none ∧ localOver (envOf s 0) (getCore s 0) = true ∧ memberCore s 0 = yes := by decide +kernel

theorem witness_StaleMessagesOnlyCount : ∀ set : Bool,
    let b := if set then MsgBody.flagSet 63 else .flagClr 63
    let s := tPort b 1 true { Core.zero with r := { CoreRegs.zero with st := .run } }
    twf Router.zero s.routers = true ∧ portDue (getRouter s 0) (getNode s (panOf 0)).steps = [tDue b 1] ∧ fresh s 0 (tMsg b 1) = false ∧
      localOver (envOf s 0) (getCore s 0) = true := by
  decide +kernel

-- The tide -------------------------------------------------------------------------------------------------------

theorem witness_NodesStepWhenReady :
    (∀ n ∈ [(0 : Fin 100), 95, 96, 99],
      let s := setNode State.reset n { Node.zero with steps := 3, release := true }
      nodeReady s n = true ∧ awaited s n = [] ∧ nodeReady (setNode State.reset n { Node.zero with steps := 4, release := true }) n = false) ∧
    (let s := setSluice (setNode State.reset 9 { Node.zero with steps := 3, release := true }) 37 { Sluice.zero with d := 3, waitAt := 3 }
     nodeReady s 9 = true ∧ awaited s 9 = [37] ∧ (getSluice s 37).waitAt ≠ (getNode s 9).steps + 1) := by decide +kernel

theorem witness_PaceAndRate : (∀ n ∈ [(0 : Fin 100), 96], ∀ others ∈ [false, true],
    let s0 := setNode State.reset n { Node.zero with steps := 3, rate := 44, sched := some (4, 44) }
    let s := if others then setNode s0 97 { Node.zero with sched := some (4, 44) } else s0
    nodeLive s n = true ∧ (getNode s n).sched = some (4, 44) ∧ 4 ≤ (getNode s n).steps + 1 ∧
      (decide (∃ m : Fin 100, nodeLive s m = true ∧ m ≠ n ∧ (getNode s m).sched.isSome = true) = others)) ∧
    (∀ r ∈ [44, 45], let s := { State.reset with tide := { State.reset.tide with paceRate := r } }
     let s' := setNode s 96 { Node.zero with rate := 44 }
     decide (s'.tide.paceRate = (getNode s' 96).rate) = decide (r = 44)) := by decide +kernel

-- The controller -------------------------------------------------------------------------------------------------

/-- A module with a message that the north rim has brought. -/
def tNorth (b : MsgBody) (gen : Nat) : State := { tJob true with ctlIn := [(0, tMsg b gen)] }

theorem witness_FaultMessagesAreRecorded :
    (tNorth (.fault 0 6 0x0B) 0).ctlIn = [(0, tMsg (.fault 0 6 0x0B) 0)] ∧ freshMsg (tNorth (.fault 0 6 0x0B) 0) (tMsg (.fault 0 6 0x0B) 0) = true ∧
      ¬((6 : Byte).toNat = stPoison ∧ (0x0B : Byte) = 0x0A) ∧ freshMsg (tNorth (.fault 0 6 0x0A) 1) (tMsg (.fault 0 6 0x0A) 1) = false := by
  decide +kernel

theorem witness_TheFirstFaultIsKept : ∀ st ∈ [PSt.ready, .running, .held, .faulted],
    let p := getPart (setPart (tJob true) 0 { getPart (tJob true) 0 with st := st }) 0
    ((p.st = .ready ∨ p.st = .running ∨ p.st = .held) ∨ p.st = .faulted) ∧ p.ends = none := by decide +kernel

theorem witness_FaultsInAHoldWait : ∀ e ∈ [none, some 25],
    let s := { setPart (tJob true) 0 { getPart (tJob true) 0 with st := .running, ends := e } with tide := { Tide.zero with frozen := true } }
    (getPart s 0).st = .running ∧ (getPart s 0).ends = e ∧ s.tide.frozen = true ∧ s.power.modTrip = false ∧ (tJob true).tide.frozen = false ∧
      s.tablesWf = true := by decide +kernel

/-- A module whose pan 0 has a collector of some members with one message waiting. -/
def tColl (b : MsgBody) (members count : Nat) : State :=
  setPan (tJob true) 0 { getPan (tJob true) 0 with coll := ⟨true, count, false, members, [], [tMsg b 0]⟩ }

theorem witness_CollectorsGatherGuardSteps : ∀ b ∈ [MsgBody.guardC true 1 true, .guardC false 1 false, .guardWd 1 true, .guardWd 1 false], ∀ n ∈ [2, 3],
    let s := tColl b n 1
    (getPan s 0).coll.inbox = [tMsg b 0] ∧ freshPan s 0 (tMsg b 0) = true ∧ (getPan s 0).coll.par = true ∧
      (decide ((getPan s 0).coll.count + 1 = (getPan s 0).coll.members)) = decide (n = 2) := by decide +kernel

/-- A module with a message for the guard unit, one of some members short. -/
def tUnitOf (b : MsgBody) (members : Nat) : State :=
  setPart (tNorth b 0) 0 { getPart (tNorth b 0) 0 with guard := { GuardUnit.zero with par := true, count := 9600, members := members } }

theorem witness_GuardUnitCountsAndDecides : ∀ b ∈ [MsgBody.guardC true 1 true, .guardC false 1 false, .guardWd 1 true, .guardWd 1 false], ∀ n ∈ [9601, 9602],
    ∀ own ∈ [none, some true],
    let s0 := tUnitOf b n
    let s := setPart s0 0 { getPart s0 0 with guard := { (getPart s0 0).guard with own := own } }
    s.ctlIn = [(0, tMsg b 0)] ∧ freshMsg s (tMsg b 0) = true ∧ (getPart s 0).guard.own = own ∧ (getPart s 0).guard.par = true ∧
      (decide ((getPart s 0).guard.count + 1 = (getPart s 0).guard.members)) = decide (n = 9601) := by decide +kernel

theorem witness_ModulesWithABitToCome :
    let s := setPart (tJob true) 0 { getPart (tJob true) 0 with image := some { tImage with ranks := [0x700] }, guard := { GuardUnit.zero with own := some true } }
    (getPart s 0).guard.own = some true ∧ otherModules s 0 = [7] ∧ ∀ o ∈ (getPart s 0).guard.others, o.1 ≠ 7 := by decide +kernel

theorem witness_GuardStepsDecideTheScale : ∀ b : Bool,
    let s := setPart (tJob true) 0 { getPart (tJob true) 0 with image := some { tImage with guard := setFld (setBit 0 27 true) 32 32 1, ranks := [0x700] }
                                                                guard := { GuardUnit.zero with own := some b, others := [(7, 0, false)] } }
    (getPart s 0).guard.own = some b ∧ otherModules s 0 = [7] ∧
      (∀ m ∈ otherModules s 0, ∃ o ∈ (getPart s 0).guard.others.filter (fun o => decide (o.2.1 = (getPart s 0).guard.steps)), o.1 = m) ∧
      fld (guardBlock s 0) 32 32 = 1 ∧ ((getPart s 0).guard.window + 1) % 2 ^ 32 = 1 := by decide +kernel

theorem witness_GuardStepsTimeOut : ∀ t ∈ [16777215, 16777216],
    let s := setPart (tJob true) 0 { getPart (tJob true) 0 with guard := { GuardUnit.zero with timer := some t } }
    (getPart s 0).guard.timer = some t ∧ decide (gtmoOf s 0 ≤ t) = decide (t = 16777216) := by decide +kernel

/-- A barrier object of partition 0 with two participants, cores 0 and 1. -/
def tBar : BarObj := ⟨0, 255, true, 1, 0, 63, false, 5, 0, 0, 0, [0, 1], []⟩
/-- A module with that object, the pan's accumulator, and a message at the collector and at the controller. -/
def tBars (b : BarObj) (n : Byte) (cores : List Nat) : State :=
  { setPan (tNorth (.barArr n 63 cores none) 0) 0 { getPan (tJob true) 0 with
      coll := { Collector.zero with bars := [⟨255, 0, 0, [], [0, 1]⟩], inbox := [tMsg (.barArr n 63 cores none) 0] } } with
    bars := [(3, some b)] }

theorem witness_CollectorsGatherBarrierArrivals :
    (let s := tBars tBar 254 [0]
     (getPan s 0).coll.inbox = [tMsg (.barArr 254 63 [0] none) 0] ∧ freshPan s 0 (tMsg (.barArr 254 63 [0] none) 0) = true ∧ barOf s 0 254 = none) ∧
    (∀ cores ∈ [[1], [0, 1]], let s := tBars tBar 255 cores
     (getPan s 0).coll.inbox = [tMsg (.barArr 255 63 cores none) 0] ∧ freshPan s 0 (tMsg (.barArr 255 63 cores none) 0) = true ∧
       barOf s 0 255 = some (3, tBar) ∧ (∀ g ∈ cores, tBar.members.contains g = true) ∧
       (accOf (getPan s 0).coll 255).getD ⟨255, 0, 63, [], []⟩ = ⟨255, 0, 0, [], [0, 1]⟩ ∧ (barMembers tBar 0).length = 2) ∧
    (∀ f ∈ [62, 63], ∀ g ∈ [1, 2],
     let s0 := tBars tBar 255 [g]
     let s := modColl s0 0 (fun c => { c with bars := [⟨255, 1, f, [0], [0, 1]⟩] })
     (getPan s 0).coll.inbox = [tMsg (.barArr 255 63 [g] none) 0] ∧ freshPan s 0 (tMsg (.barArr 255 63 [g] none) 0) = true ∧ barOf s 0 255 = some (3, tBar) ∧
       (accOf (getPan s 0).coll 255).getD ⟨255, 0, 63, [], []⟩ = ⟨255, 1, f, [0], [0, 1]⟩ ∧ tBar.members.contains g = decide (g = 1) ∧
       1 ≠ (barMembers tBar 0).length) := by
  decide +kernel

theorem witness_BarrierUnitsRecordArrivals : ∀ b ∈ [{ tBar with fset := true, flag := 62 }, tBar, { tBar with arrived := 1, fset := true },
      { tBar with arrived := 1, modm1 := 1, home := false }, { tBar with arrived := 1, modm1 := 1 }],
    let s := tBars b 255 [1]
    s.ctlIn = [(0, tMsg (.barArr 255 63 [1] none) 0)] ∧ freshMsg s (tMsg (.barArr 255 63 [1] none) 0) = true ∧ barOf s 0 255 = some (3, b) := by
  decide +kernel

theorem witness_BarrierReleaseOpensTheNextGeneration :
    (getPart (tJob true) tBar.part).image = some { tImage with guard := setBit 0 27 true } ∧ tImage.endbar ≠ tBar.bnum := by decide +kernel

/-- A module with a CTRL message of module 7. -/
def tCtrl (sub : Nat) (body : List Nat) (b : BarObj) : State :=
  { tBars b 255 [1] with fab := { Fabric.zero with store := [⟨sub, 0, 7, body⟩] } }

theorem witness_MessagesOfOtherModules :
    (∀ n ∈ [0, 1], ∀ members ∈ [0, 9],
     let s := setPart (tCtrl 1 [n, 1] tBar) 0 { getPart (tJob true) 0 with image := some { tImage with ranks := [0x700] }, guard := { GuardUnit.zero with members := members } }
     s.fab.store = [⟨1, 0, 7, [n, 1]⟩] ∧ (getPart s 0).guard.steps = 0 ∧ (getPart s 0).guard.members = members ∧ (getPart s 0).guard.own = none ∧
       otherModules s 0 = [7]) ∧
    (let s := setPart (tCtrl 1 [0, 1] tBar) 0 { getPart (tJob true) 0 with guard := { GuardUnit.zero with steps := 1 } }
     s.fab.store = [⟨1, 0, 7, [0, 1]⟩] ∧ 0 < (getPart s 0).guard.steps) ∧
    (let s := tCtrl 2 [255, 5] tBar
     s.fab.store = [⟨2, 0, 7, [255, 5]⟩] ∧ barOf s 0 255 = some (3, tBar) ∧ tBar.home = true ∧ tBar.gen = 5) ∧
    (let s := tCtrl 3 [255, 5] { tBar with home := false }
     s.fab.store = [⟨3, 0, 7, [255, 5]⟩] ∧ barOf s 0 255 = some (3, { tBar with home := false })) ∧
    (tCtrl 4 [6] tBar).fab.store = [⟨4, 0, 7, [6]⟩] := by decide +kernel

theorem witness_DigestsFoldAndAreExchanged :
    (let p := { getPart (tJob true) 0 with closed := [(1, 2, 0, (9 : BitVec 128))] }
     let s := { setPart (tJob true) 0 p with engs := [(1, { Engine48.zero with descs := [(0, 1, (32 : BitVec 256))], ctxs := [(2, { Ctx.zero with part := some 0 })] })] }
     closers s 0 = [(1, 2)] ∧ p.closed.find? (fun x => decide (x.1 = 1) && decide (x.2.1 = 2) && decide (x.2.2.1 = 0)) = some (1, 2, 0, (9 : BitVec 128)) ∧
       p.image.bind (fun im => im.digest) = none) ∧
    (∀ notice ∈ [0, 1], let d : DigestDecl := ⟨0, [0x700]⟩
     let s := setPart (tCtrl 5 [1, 2, 0, 3, notice, 99] tBar) 0 { getPart (tJob true) 0 with image := some { tImage with digest := some d } }
     s.fab.store = [⟨5, 0, 7, [1, 2, 0, 3, notice, 99]⟩] ∧ (getPart s 0).image.bind (fun im => im.digest) = some d ∧
       ∀ x ∈ (getPart s 0).chains, ¬(1 ≤ x.1 ∧ x.2.1 = 99)) := by
  decide +kernel

theorem witness_DigestPeriodsEnd : ∀ n ∈ [0, 1], let d : DigestDecl := ⟨BitVec.ofNat _ (1 * 2 ^ 8), [0x700]⟩
    decide ((n + 1) % (fld d.head 8 6 + 1) ≠ 0) = decide (n = 0) := by decide +kernel

-- The host attachment --------------------------------------------------------------------------------------------

/-- Pair 0, enabled and bound to a role, with one entry available. -/
def tPair (role : Nat) : Qp := { Qp.zero with en := true, role := role, prin := 5, sqTail := 1, epoch := 1, grant := some ⟨0, 15, 1, 5, 0, 0, 1000000⟩ }
/-- A module in full service with that pair, pan 0 in partition 0, and the partition as given. -/
def tOp (role : Nat) (p : Part) : State :=
  setPart (setPan { State.reset with host := { HostIf.zero with early := true, full := true, qps := [(0, tPair role)] } } 0
    { Pan.zero with part := some 0, num := some 0 }) 0 p
/-- An entry of pair 0 for partition 0, with its first arguments and its buffer. -/
def tCmd (a : List Word) (tc : Count) (data : List Byte) : Cmd :=
  ⟨0, 7, 0, tc, 0, BitVec.ofNat 32 data.length, Vector.ofFn (fun i : Fin 8 => a.getD i 0), false, data⟩
/-- A partition of one pan in a state. -/
def tPart (st : PSt) : Part := { Part.zero with st := st, prin := 5, pans := [0], image := some tImage }
/-- The module once the entry is taken. -/
def tTaken (q : Nat) (s : State) : State := (takeEntry q s).getD s

theorem goes_of {s : State} {c : Cmd} (h : (takeEntry c.qp s).isSome = true ∧ tooEarly (tTaken c.qp s) = false) : goes c s (tTaken c.qp s) := by
  obtain ⟨h1, h2⟩ := h
  obtain ⟨t, e⟩ := Option.isSome_iff_exists.mp h1
  refine ⟨?_, h2⟩
  rw [tTaken, e]; rfl

theorem witness_DoorbellsMoveTheirIndex : ∀ n ∈ [15, 16],
    let i : BitVec 12 := BitVec.ofNat 12 n
    let s := setQp State.reset 32 { Qp.zero with en := true, cqHead := 15, cq := [⟨7, 0, true, 0, 0, 0, 0, []⟩] }
    let p := getQp s 32
    (getQp s 31).en = false ∧ p.en = true ∧ decide (i.toNat < ringSize p.sqsz) = decide (i = 15) ∧ decide (i.toNat < ringSize p.cqsz) = decide (i = 15) ∧
      p.events = [] ∧ p.lost = false ∧ (15 + (ringSize p.cqsz - p.cqHead)) % ringSize p.cqsz ≤ p.cq.length := by decide +kernel

theorem witness_QueuePairsEnableAndStop : ∀ en : Bool, let s := setQp State.reset 32 { Qp.zero with en := en }
    let v : Word := if en then 0 else 0x100
    (getQp s 32).en = en ∧ v.getLsbD 8 = !en := by decide +kernel

theorem witness_VectorsAndTheCountRegister : ∀ w : Bool, let s := setVec State.reset 33 ⟨1, true, w⟩
    (getVec s 33).off = true ∧ (getVec s 33).wait = w := by decide +kernel

theorem witness_EntriesAreTakenInTurn : (takeEntry 0 (tOp 1 (tPart .empty))).isSome = true := by decide +kernel

theorem witness_CompletionsAreWritten : let p := getQp (tOp 1 (tPart .empty)) 0
    p.en = true ∧ p.epoch = 1 ∧ (getQp (tOp 1 (tPart .empty)) 32).en = false := by decide +kernel

theorem witness_CommandsOutOfTurnOrFormChangeNothing : let c := { tCmd [] 0 [] with cid := 0xFFFF }
    (hostOps c).length = 21 ∧ takeEntry c.qp State.reset = none ∧ (takeEntry c.qp (tOp 1 (tPart .empty))).isSome = true := by
  refine ⟨rfl, by rfl, by decide +kernel⟩

theorem witness_PartCreateMakesAnEmptyPartition :
    let s := setPan (tOp 1 Part.zero) 95 { Pan.zero with num := some 95 }
    let c := tCmd [0, 0, 0x80000000] 0 []
    let s1 := tTaken 0 s
    goes c s s1 ∧ maskPans c = [95] ∧ underTest s 95 = false ∧ badForm c false false false [all32, all32, all32, 0xFF] = false ∧ isO s1 c = true ∧
      ((List.range 32).filter (fun j => decide ((getPart s1 j).st ≠ .none))).length < licParts s1 ∧ (getPart s1 0).st = .none ∧ argFld c 3 0 8 = 0 ∧
      ∀ p ∈ maskPans c, panLive s1 p = true ∧ (getPan s1 p).num.isSome = true ∧ (getPan s1 p).part = none ∧ (tget TestPan.zero s1.rel.pans p).quar = false := by
  exact ⟨goes_of (c := tCmd [0, 0, 0x80000000] 0 []) (by decide +kernel), by decide +kernel⟩

/-- A long command of partition 0. -/
def tLong (k : LongKind) (nums : List Nat) : Long := ⟨k, 0, 1, 7, 0, nums, [], .running⟩

theorem witness_PartitionsResetAndDestroy :
    (let s := tOp 1 (tPart .empty)
     let c := tCmd [] 0 []
     let s1 := tTaken 0 s
     goes c s s1 ∧ (getPart s1 0).long = none ∧ (getPart s1 0).st = .empty ∧ (∀ x ∈ (getPart s 0).pans, underTest s x = false) ∧
       badForm c false false false [] = false ∧ isO s1 c = true ∧ twf Pan.zero s1.pans = true) ∧
    (∀ st ∈ [PSt.ready, .running, .held, .saved, .faulted], let s := tOp 2 (tPart st)
     let c := tCmd [] 0 []
     let s1 := tTaken 0 s
     goes c s s1 ∧ (getPart s1 0).long = none ∧ [PSt.ready, .running, .held, .saved, .faulted].contains (getPart s1 0).st = true ∧
       (isO s1 c || isT s1 c) = true ∧ twf Core.zero s1.cores = true) ∧
    (let s := tOp 1 { tPart .loading with long := some (tLong .load []) }
     let c := tCmd [] 0 []
     goes c s (tTaken 0 s) ∧ (getPart (tTaken 0 s) 0).long.isSome = true) ∧
    (let s := tOp 1 { tPart .draining with long := some (tLong .reset []), phase := 2 }
     (getPart s 0).long = some (tLong .reset []) ∧ (getPart s 0).phase = 2) := by
  refine ⟨⟨goes_of (c := tCmd [] 0 []) (by decide +kernel), by decide +kernel⟩, fun st h => ?_, ⟨goes_of (c := tCmd [] 0 []) (by decide +kernel), by decide +kernel⟩,
    by decide +kernel⟩
  simp only [List.mem_cons, List.not_mem_nil, or_false] at h
  rcases h with rfl | rfl | rfl | rfl | rfl <;> exact ⟨goes_of (c := tCmd [] 0 []) (by decide +kernel), by decide +kernel⟩

theorem witness_PartitionQueriesAndWindows :
    (let s := tOp 1 (tPart .empty)
     goes (tCmd [] 0 []) s (tTaken 0 s) ∧ badForm (tCmd [] 0 []) false false false [] = false ∧ isO (tTaken 0 s) (tCmd [] 0 []) = true) ∧
    (∀ raw ∈ [(2 : Word), 3], let s := { tOp 2 (tPart .saved) with sec := { Security.zero with ideMem := true } }
     let c := tCmd [raw, 0x1FFF] 0 []
     goes c s (tTaken 0 s) ∧ isT (tTaken 0 s) c = true ∧ windowSt (tTaken 0 s) c = true ∧ badForm c false false false [3, 0x1FFF] = false ∧
       (tTaken 0 s).sec.ideMem = true) ∧
    (let s := tOp 2 (tPart .saved)
     goes (tCmd [] 0 []) s (tTaken 0 s) ∧ isT (tTaken 0 s) (tCmd [] 0 []) = true ∧ windowSt (tTaken 0 s) (tCmd [] 0 []) = true) := by
  refine ⟨⟨goes_of (c := tCmd [] 0 []) (by decide +kernel), by decide +kernel⟩, fun raw h => ?_, ⟨goes_of (c := tCmd [] 0 []) (by decide +kernel), by decide +kernel⟩⟩
  simp only [List.mem_cons, List.not_mem_nil, or_false] at h
  rcases h with rfl | rfl
  · exact ⟨goes_of (c := tCmd [2, 0x1FFF] 0 []) (by decide +kernel), by decide +kernel⟩
  · exact ⟨goes_of (c := tCmd [3, 0x1FFF] 0 []) (by decide +kernel), by decide +kernel⟩

theorem witness_AbsorbQuietReleasesTheMesh : ∀ n ∈ [12287, 12288],
    let s := setNode (tOp 1 { tPart .draining with phase := 1, long := some (tLong .reset []) }) 96 { Node.zero with steps := n }
    absorbQuiet s 0 = decide (n = 12288) ∧ s.stuck = [] ∧ (getPart s 0).st = .draining ∧ (getPart s 0).long = some (tLong .reset []) ∧
      (tLong .reset []).kind ≠ .save := by
  decide +kernel

theorem witness_EventsWaitForRoom : ∀ n ∈ [(0 : Nat), 63, 64], ∀ full ∈ [false, true],
    let p0 := { tPair 1 with events := List.replicate n ⟨7, 0, 0, 0, []⟩, cq := List.replicate (if full then 15 else 14) ⟨7, 0, true, 0, 0, 0, 0, []⟩ }
    let p := getQp (setQp State.reset 32 p0) 32
    p.en = true ∧ (getQp State.reset 31).en = false ∧ p.events.length = n ∧ p.taken = 0 ∧ p.lost = false ∧
      decide (p.taken + p.cq.length + 1 < ringSize p.cqsz) = !full ∧ (getVec (setQp State.reset 32 p0) (vecOf 32 p)).off = false := by decide +kernel

theorem witness_ReadbackTakesAPanDark : ∀ live ∈ [false, true],
    let s0 := { tOp 1 (tPart .running) with stuck := [3] }
    let s := { s0 with tide := { s0.tide with live := if live then 1 else 0 } }
    s.stuck.filter (inPart s 0) = [3] ∧ panLive s (panOf 3) = live ∧ (0 : Nat) ∈ involved s (panOf 3) ∧ (getPart s 0).st = .running ∧
      s.stuck.filter (inPart s 1) = [] := by decide +kernel

-- Jobs -----------------------------------------------------------------------------------------------------------

/-- A module whose core 0 is in a state, in a partition of a state, with pair 0 bound to its tenant. -/
def tRun (st : PSt) (c : CoreSt) (hold : Bool) : State :=
  setCore (tOp 2 { tPart st with holdPark := hold }) 0 { Core.zero with r := { CoreRegs.zero with st := c } }

theorem witness_JobStartRunsTheCores : ∀ tc ∈ [(0 : Count), 8192, 0x100000000],
    let s := tRun .ready .loaded false
    let c := tCmd [] tc []
    let s1 := tTaken 0 s
    goes c s s1 ∧ badForm c false true false [] = false ∧ isT s1 c = true ∧ (getPart s1 0).st = .ready ∧ (getPart s1 0).long = none ∧
      s1.tide.frozen = false ∧ twf Core.zero s1.cores = true ∧ inPart s1 0 0 = true ∧ (getCore s1 0).r.st = .loaded ∧ badPointer (getCore s1 0) = none ∧
      (tc = 0 ∨ (isAhead s1 tc = true ∧ 8192 ≤ aheadBy s1 tc ∧ aheadBy s1 tc ≤ 2 ^ 32)) := by
  intro tc h
  simp only [List.mem_cons, List.not_mem_nil, or_false] at h
  rcases h with rfl | rfl | rfl
  · exact ⟨goes_of (c := tCmd [] 0 []) (by decide +kernel), by decide +kernel⟩
  · exact ⟨goes_of (c := tCmd [] 8192 []) (by decide +kernel), by decide +kernel⟩
  · exact ⟨goes_of (c := tCmd [] 0x100000000 []) (by decide +kernel), by decide +kernel⟩

theorem witness_JobsHoldAndResume : ∀ p ∈ [(PSt.running, CoreSt.run, false), (.running, .halt, false), (.held, .hold, false), (.held, .hold, true)],
    let s := tRun p.1 p.2.1 p.2.2
    let s1 := tTaken 0 s
    goes (tCmd [] 0 []) s s1 ∧ isT s1 (tCmd [] 0 []) = true ∧ twf Core.zero s1.cores = true ∧ (getPart s1 0).st = p.1 ∧ (getPart s1 0).holdPark = p.2.2 ∧
      inPart s1 0 0 = true ∧ (getCore s1 0).r.st = p.2.1 ∧ (getCore s1 0).x.haltReq = false ∧ s1.tide.frozen = false := by
  intro p h
  simp only [List.mem_cons, List.not_mem_nil, or_false] at h
  rcases h with rfl | rfl | rfl | rfl <;> exact ⟨goes_of (c := tCmd [] 0 []) (by decide +kernel), by decide +kernel⟩

theorem witness_JobsAbortReportAndSignal : ∀ a ∈ [([] : List Word), [9599, 63]],
    let s := tRun .held .hold false
    let c := tCmd a 0 []
    let s1 := tTaken 0 s
    goes c s s1 ∧ isT s1 c = true ∧ (getPart s1 0).st = .held ∧ (if a = [] then badForm c false false false [] = false else
      badForm c false false false [0xFFFFF, 0x3F] = false ∧ imageCore s1 0 (argFld c 0 0 20) = some (coreAt 0 9599)) := by
  intro a h
  simp only [List.mem_cons, List.not_mem_nil, or_false] at h
  rcases h with rfl | rfl
  · exact ⟨goes_of (c := tCmd [] 0 []) (by decide +kernel), by decide +kernel⟩
  · exact ⟨goes_of (c := tCmd [9599, 63] 0 []) (by decide +kernel), by decide +kernel⟩

theorem witness_JobsEndWithOk :
    (∀ ph ∈ [0, 2], let s := tOp 1 { tPart .draining with ending := true, phase := ph }
     (getPart s 0).ending = true ∧ (getPart s 0).st = .draining ∧ (getPart s 0).phase = ph ∧ endReady s 0 = true ∧ s.tide.frozen = false ∧
       (getPart s 0).long = none) ∧
    (let s := { tOp 1 { tPart .draining with ending := true } with ctrlOut := [⟨1, 0, 7, []⟩] }
     (getPart s 0).phase = 0 ∧ endReady s 0 = false) ∧
    (getPart (tOp 1 (tPart .draining)) 0).ending = false := by decide +kernel

/-- A number as little-endian bytes. -/
def tLe (v n : Nat) : List Byte := bytesOf (BitVec.ofNat 64 v) n
/-- An entry of a bundle's directory. -/
def tDir (kind at_ len : Nat) : List Byte := tLe kind 4 ++ tLe len 4 ++ tLe at_ 8
/-- A bundle for one pan with one core record that is empty; the CRC is that of 05 R143 over its bytes from 0x40. -/
def tBundle : List Byte :=
  tLe 0x4D49505A 4 ++ tLe (1 + 256 + 10 * 2 ^ 18) 4 ++ tLe 0xFFFF0001 4 ++ tLe 6 4 ++ tLe 480 8 ++ tLe 0xCCCED1AF 4 ++ List.replicate 36 0 ++
    tDir 1 160 104 ++ tDir 2 288 16 ++ tDir 3 320 68 ++ tDir 4 416 16 ++ tDir 8 448 16 ++ tDir 9 480 0 ++
    tLe 1 8 ++ List.replicate 216 0 ++ tLe 0xFFFFFFFF 4 ++ List.replicate 92 0

/-- Whether a binding of routes succeeds. -/
def tBound (x : Except (List Nat) State) : Bool := match x with | .ok _ => true | .error _ => false

set_option maxRecDepth 100000 in
theorem witness_JobLoadBeginsTheLoader :
    let s := tOp 2 (tPart .empty)
    let c := tCmd [1, 2] 0 tBundle
    let s1 := tTaken 0 s
    goes c s s1 ∧ (∀ x ∈ (getPart s 0).pans, underTest s x = false) ∧ firstCode (loadChecks c s1) = none ∧
      (match bundleOf s1 c with | some b => decide (fitBad s1 0 (keepMem c) b = none) && tBound (bindImage 0 b.image s1) | none => false) = true ∧
      (getPart s1 0).long = none :=
  ⟨goes_of (c := tCmd [1, 2] 0 tBundle) (by decide +kernel), by decide +kernel⟩

theorem witness_LoaderTilesFillTheCores :
    (∀ n ∈ [0, 2, 3], ∀ bs ∈ [[], [1]], let s := setCore (tOp 2 { tPart .loading with loads := [(0, 0x4000, bs, n)] }) 0 Core.zero
     (getPan s (panOf 0)).part = some 0 ∧ (getPart s 0).loads = [(0, 0x4000, bs, n)] ∧ takesTiles (getCore s 0) = true ∧ s.tide.frozen = false) ∧
    (let s := tOp 2 { tPart .loading with long := some (tLong .load []) }
     (getPart s 0).long = some (tLong .load []) ∧ (getPart s 0).image = some tImage ∧ (getPart s 0).loads = [] ∧ s.tide.frozen = false) := by
  decide +kernel

/-- An image of one core whose pan has a save entry. -/
def tSaves : Image := { tImage with saves := [some (0, 0)], cores := [⟨0, 0, 0, List.replicate 16 0, [], [], []⟩] }

theorem witness_SavesDrainHaltAndFinish :
    (let s := tOp 2 { tPart .running with image := some tSaves }
     let s1 := tTaken 0 s
     goes (tCmd [] 0 []) s s1 ∧ isT s1 (tCmd [] 0 []) = true ∧ (getPart s1 0).st = .running ∧ noSaveEntry s1 0 = none ∧ (getPart s1 0).long = none) ∧
    (let s := tOp 2 { tPart .draining with image := some tSaves, long := some (tLong .save [0, 0]) }
     (getPart s 0).long = some (tLong .save [0, 0]) ∧ s.tide.frozen = false ∧ messagesDone s 0 = true ∧ settledChans s 0 = true ∧ (getPart s 0).image = some tSaves) ∧
    (let s := tOp 2 { tPart .draining with image := some tSaves, long := some (tLong .save [1]) }
     (getPart s 0).long = some (tLong .save [1]) ∧ (getPart s 0).image = some tSaves ∧
       ∀ gc ∈ s.cores, inPart s 0 gc.1 = true → [CoreSt.run, .hold, .loaded].contains gc.2.r.st = false) ∧
    (let s := tOp 2 { tPart .draining with image := none, phase := 2, long := some (tLong .save [2]) }
     (getPart s 0).long = some (tLong .save [2]) ∧ (getPart s 0).image = none ∧ (getPart s 0).phase = 2) := by
  exact ⟨⟨goes_of (c := tCmd [] 0 []) (by decide +kernel), by decide +kernel⟩, by decide +kernel⟩

theorem witness_SavesTimeOut :
    (∀ n ∈ [0, 3], let s := { tOp 2 { tPart .draining with long := some (tLong .save [n, 0]) } with time := 100000000, ctrlOut := [⟨1, 0, 7, []⟩] }
     (getPart s 0).long = some (tLong .save [n, 0]) ∧ 0 + 100000000 ≤ s.time ∧ settledChans s 0 = false) ∧
    (let s := setNode (tOp 2 { tPart .draining with long := some (tLong .save [1]) }) 96 { Node.zero with steps := 16777216 }
     (getPart s 0).long = some (tLong .save [1]) ∧ (tLong .save [1]).at_ + 16777216 ≤ north s ∧ (tLong .save [1]).prev = .running) := by decide +kernel

/-- A saved job's record. -/
def tRec : SaveRec := ⟨tSaves, .zero, [], [], [], [], 9, 0, 0, [], [], 0⟩

theorem witness_RestoresBringTheRecordBack :
    let rec0 := { tRec with image := tImage }
    (let s := tOp 2 { tPart .saved with saved := some rec0 }
     let s1 := tTaken 0 s
     goes (tCmd [] 0 []) s s1 ∧ isT s1 (tCmd [] 0 []) = true ∧ (getPart s1 0).st = .saved ∧ (getPart s1 0).saved = some rec0 ∧ image4Bad s1 rec0.image = false ∧ boundsBad s1 0 rec0.image = false ∧
       (∀ x ∈ (getPart s1 0).pans, panUnfit s1 x = false) ∧ fitBad s1 0 true ⟨rec0.image, none⟩ = none ∧ tBound (bindImage 0 rec0.image s1) = true ∧
       (getPart s1 0).long = none) ∧
    (let s := tOp 2 { tPart .loading with saved := some tRec, long := some (tLong .restore []) }
     (getPart s 0).long = some (tLong .restore []) ∧ (getPart s 0).saved = some tRec ∧ (getPart s 0).loads = [] ∧ s.tide.frozen = false ∧
       tRec.image.cores.map CoreRec.icn = [0]) := by
  exact ⟨⟨goes_of (c := tCmd [] 0 []) (by decide +kernel), by decide +kernel⟩, by decide +kernel⟩

theorem witness_ExportsAndImportsMoveTheRecord :
    (let s := tOp 2 { tPart .saved with saved := some tRec }
     let c := tCmd [] 0 [1, 2, 3]
     let s1 := tTaken 0 s
     goes c s s1 ∧ badForm c false false true [] = false ∧ isT s1 c = true ∧ (getPart s1 0).st = .saved ∧ (getPart s1 0).long = none) ∧
    (let s := tOp 2 { tPart .saved with saved := some tRec, long := some (tLong .exp [0, 64, 1]) }
     (getPart s 0).long = some (tLong .exp [0, 64, 1]) ∧ (getPart s 0).saved = some tRec) ∧
    (let s := tOp 2 (tPart .empty)
     let c := tCmd [] 0 [1, 2, 3]
     let s1 := tTaken 0 s
     goes c s s1 ∧ (∀ x ∈ (getPart s 0).pans, underTest s x = false) ∧ badForm c false false true [] = false ∧ isT s1 c = true ∧ (getPart s1 0).st = .empty) ∧
    (let s := tOp 2 { tPart .loading with long := some (tLong .imp [3]) }
     (getPart s 0).long = some (tLong .imp [3])) := by
  exact ⟨⟨goes_of (c := tCmd [] 0 [1, 2, 3]) (by decide +kernel), by decide +kernel⟩, by decide +kernel,
    ⟨goes_of (c := tCmd [] 0 [1, 2, 3]) (by decide +kernel), by decide +kernel⟩, by decide +kernel⟩

/-- A reload set of one core record that is empty. -/
def tReload : List Byte := tLe 1 8 ++ List.replicate 96 0
/-- A core record that reloads slot 7. -/
def tSlotRec : CoreRec := ⟨0, 0, 0, List.replicate 16 0, [(7, BitVec.ofNat 512 (2 ^ 14))], [], []⟩

theorem witness_ReloadsBegin : ∀ f ∈ [(0 : Word), 1],
    let s := tOp 2 (tPart .running)
    let c := tCmd [f, 5] 0 tReload
    let s1 := tTaken 0 s
    goes c s s1 ∧ isT s1 c = true ∧ (getPart s1 0).st = .running ∧ (getPart s1 0).long = none ∧ argFld c 0 0 1 = f.toNat ∧
      badForm c false false true [f.toNat, all32] = false ∧
      (match reloadSet c with | some rs => rs.all (fun r => (imageCore s1 0 r.icn).isSome) && decide (reloadFit s1 0 rs = none) | none => false) = true := by
  intro f h
  simp only [List.mem_cons, List.not_mem_nil, or_false] at h
  rcases h with rfl | rfl
  · exact ⟨goes_of (c := tCmd [0, 5] 0 tReload) (by decide +kernel), by decide +kernel⟩
  · exact ⟨goes_of (c := tCmd [1, 5] 0 tReload) (by decide +kernel), by decide +kernel⟩

theorem witness_ReloadsAreConfirmedAndCommitted : ∀ goal ∈ [none, some 4096],
    let r : Reload := ⟨[(0, tSlotRec)], 100, 0, [], [], goal⟩
    let s := setNode (setNode (tOp 2 { tPart .running with long := some (tLong .reload [0, 0, 0]), reload := some r }) 96 { Node.zero with steps := 4096 }) 0
      { Node.zero with steps := 4096 }
    (getPart s 0).long = some (tLong .reload [0, 0, 0]) ∧ (getPart s 0).reload = some r ∧ s.tide.frozen = false ∧ reloadFaulted s r = false ∧
      r.last + 256 ≤ north s ∧ decide (north s + 4096 ≤ north s) = false ∧ (∃ x ∈ r.recs, r.ok.contains x.1 = false) ∧ (tLong .reload [0, 0, 0]).at_ + r.qtmo ≤ north s ∧ r.recs ≠ [] ∧
      ∀ x ∈ r.recs, 4096 ≤ (getNode s (panOf x.1)).steps := by decide +kernel

theorem witness_ReloadsOfFaultedCoresEnd :
    let r : Reload := ⟨[(0, tSlotRec)], 100, 0, [], [], none⟩
    let s := setCore (setNode (tOp 2 { tPart .running with long := some (tLong .reload [0, 0, 0]), reload := some r }) 96 { Node.zero with steps := 256 }) 0
      { Core.zero with r := { CoreRegs.zero with st := .fault } }
    (getPart s 0).long = some (tLong .reload [0, 0, 0]) ∧ (getPart s 0).reload = some r ∧ s.tide.frozen = false ∧ r.last + 256 ≤ north s ∧
      reloadFaulted s r = true := by decide +kernel

theorem witness_ReloadWritesTurnTheEpoch : foldFresh (newFold tSlotRec 7) = true ∧ (7 : Fin 8) ∈ reloadSlots tSlotRec ∧ foldFresh (newFold tSlotRec 6) = true ∧
    (6 : Fin 8) ∉ reloadSlots tSlotRec := by decide +kernel

-- Debug ----------------------------------------------------------------------------------------------------------

/-- A credit object of partition 0. -/
def tChan (recv : Bool) (chn : Nat) : Chan := ⟨recv, 0, 0, 0, 0, chn, 0, 0, 0, 0, 0, [], [], [], none, false⟩
/-- The grant of pair 0. -/
def tGrant : Grant := ⟨0, 15, 1, 5, 0, 0, 1000000⟩
/-- A debugger attached through pair 0. -/
def tHeld : Dbg := ⟨0, tGrant, [], []⟩
/-- A module whose core 0 is in a state, in a partition of a state, with pair 0 bound to the debugger attached to it. -/
def tDebug (st : PSt) (c : CoreSt) : State :=
  setCore (tOp 3 { tPart st with dbg := some tHeld }) 0 { Core.zero with r := { CoreRegs.zero with st := c } }

theorem may_of {s : State} {c : Cmd} {r : Right} {l : List PSt} (h : ((takeEntry c.qp s).isSome = true ∧ tooEarly (tTaken c.qp s) = false) ∧
    isD (tTaken c.qp s) c = true ∧ hasRight (tTaken c.qp s) c r = true ∧ attachedAs (tTaken c.qp s) c = true ∧ inSt (tTaken c.qp s) c l = true) :
    mayDebug c s (tTaken c.qp s) r l := ⟨goes_of h.1, h.2⟩

theorem witness_DebuggersAttachAndDetach :
    (let s := tOp 3 (tPart .running)
     let s1 := tTaken 0 s
     goes (tCmd [1] 0 []) s s1 ∧ badForm (tCmd [1] 0 []) false false false [1] = false ∧ isD s1 (tCmd [1] 0 []) = true ∧
       inSt s1 (tCmd [1] 0 []) [.empty, .ready, .running, .held, .faulted] = true ∧ (getPart s1 0).dbg = none ∧ (getQp s1 0).grant = some tGrant) ∧
    (let s := tDebug .running .halt
     let s1 := tTaken 0 s
     goes (tCmd [1] 0 []) s s1 ∧ isD s1 (tCmd [1] 0 []) = true ∧ attachedAs s1 (tCmd [1] 0 []) = true ∧ (getPart s1 0).st ≠ .none) ∧
    (getQp (tDebug .running .halt) 0).grant = some tGrant ∧ isAhead (tDebug .running .halt) tGrant.after = true ∧
      isAhead (setNode (tDebug .running .halt) 96 { Node.zero with steps := 1000000 }) tGrant.after = false := by
  exact ⟨⟨goes_of (c := tCmd [1] 0 []) (by decide +kernel), by decide +kernel⟩, ⟨goes_of (c := tCmd [1] 0 []) (by decide +kernel), by decide +kernel⟩,
    by decide +kernel⟩

theorem witness_DebugHalts :
    (∀ st ∈ [CoreSt.halt, .run], let s := tDebug .running st
     let c := tCmd [0, 0, 9] 0 []
     let s1 := tTaken 0 s
     mayDebug c s s1 .read [.running, .held] ∧ badForm c false false false [3, 0xFFFFF, all32] = false ∧ badScope c = false ∧ selCores s1 c = some [0] ∧
       decide ([0].filter (fun g => [CoreSt.run, .hold].contains (getCore s1 g).r.st) = []) = decide (st = .halt)) ∧
    (let x : DbgCmd := ⟨0x3A, 0, 1, 7, 0, [0], [0, 0, 0]⟩
     let s := setPart (tDebug .running .run) 0 { tPart .running with dbg := some { tHeld with cmds := [x] } }
     (getPart s 0).dbg = some { tHeld with cmds := [x] } ∧ x.at_ ≤ north s ∧ haltsDone s x = false) := by
  refine ⟨fun st h => ?_, by decide +kernel⟩
  simp only [List.mem_cons, List.not_mem_nil, or_false] at h
  rcases h with rfl | rfl <;> exact ⟨may_of (c := tCmd [0, 0, 9] 0 []) (by decide +kernel), by decide +kernel⟩

theorem witness_DebugRuns :
    (∀ x ∈ [((0 : Count), (0 : Word)), (0, 0xFFFFFFFF), (8192, 0), (0x100000000, 1)], let s := tDebug .running .halt
     let tc := x.1
     let c := tCmd [0, 0, x.2] tc []
     let s1 := tTaken 0 s
     mayDebug c s s1 .read [.running, .held] ∧ badForm c false true false [3, 0xFFFFF, all32] = false ∧ badScope c = false ∧ selCores s1 c = some [0] ∧
       [0].filter (fun g => decide ((getCore s1 g).r.st = .halt)) = [0] ∧
       (tc = 0 ∨ (isAhead s1 tc = true ∧ 8192 ≤ aheadBy s1 tc ∧ aheadBy s1 tc ≤ 2 ^ 32))) ∧
    (let a : RunArm := ⟨0, [0], 1, []⟩
     let s := setPart (tDebug .running .halt) 0 { tPart .running with dbg := some tHeld, runs := [a] }
     (getPart s 0).runs = [a] ∧ (getPart s 0).dbg = some tHeld ∧ s.tide.frozen = false ∧ twf Station.zero s.stations = true ∧ partHeld s 0 = false ∧
       a.at_ ≤ (getNode s (panOf 0)).steps ∧ (getCore s 0).r.st = .halt ∧ badPointer (getCore s 0) = none) ∧
    (let s := setStation (tDebug .running .run) (stationOf 0) { Station.zero with haltTc := some 0, mask := 1 }
     s.tide.frozen = false ∧ (getPan s (panOf 0)).part = some 0 ∧ (getPart s 0).dbg.isSome = true ∧ (getPart s 0).runs = [] ∧
       (getStation s (stationOf 0)).mask.getLsbD (posOf 0) = true ∧ (getStation s (stationOf 0)).haltTc = some 0 ∧
       atOrBefore 0 (getNode s (panOf 0)).steps = true ∧ (getCore s 0).r.st = .run ∧ (getCore s 0).x.phase3 = none) := by
  refine ⟨fun x h => ?_, by decide +kernel⟩
  simp only [List.mem_cons, List.not_mem_nil, or_false] at h
  rcases h with rfl | rfl | rfl | rfl
  · exact ⟨may_of (c := tCmd [0, 0, 0] 0 []) (by decide +kernel), by decide +kernel⟩
  · exact ⟨may_of (c := tCmd [0, 0, 0xFFFFFFFF] 0 []) (by decide +kernel), by decide +kernel⟩
  · exact ⟨may_of (c := tCmd [0, 0, 0] 8192 []) (by decide +kernel), by decide +kernel⟩
  · exact ⟨may_of (c := tCmd [0, 0, 1] 0x100000000 []) (by decide +kernel), by decide +kernel⟩

theorem witness_BreakpointsAreSetAtTheStations : ∀ x ∈ [(0, false, 7, 0x3FFF, (0 : Count)), (1, false, 7, 0, 0), (2, true, 3, 0, 1), (3, false, 3, 0, 0)],
    let s := tDebug .running .run
    let c := tCmd [0, 0, BitVec.ofNat 32 x.1, 0] x.2.2.2.2 []
    let s1 := tTaken 0 s
    argFld c 2 0 2 = x.1 ∧ mayDebug c s s1 .read [.ready, .running, .held] ∧
      badForm c false x.2.1 false [3, 0xFFFFF, x.2.2.1, x.2.2.2.1] = false ∧ badScope c = false ∧ selCores s1 c = some [0] ∧ argFld c 3 0 2 = 0 ∧
      (x.1 = 2 → isAhead s1 c.tc = true) := by
  intro x h
  simp only [List.mem_cons, List.not_mem_nil, or_false] at h
  rcases h with rfl | rfl | rfl | rfl
  · exact ⟨by decide +kernel, may_of (c := tCmd [0, 0, 0, 0] 0 []) (by decide +kernel), by decide +kernel⟩
  · exact ⟨by decide +kernel, may_of (c := tCmd [0, 0, 1, 0] 0 []) (by decide +kernel), by decide +kernel⟩
  · exact ⟨by decide +kernel, may_of (c := tCmd [0, 0, 2, 0] 1 []) (by decide +kernel), by decide +kernel⟩
  · exact ⟨by decide +kernel, may_of (c := tCmd [0, 0, 3, 0] 0 []) (by decide +kernel), by decide +kernel⟩

theorem witness_TheRakeAndTheLog :
    (∀ x ∈ [((0 : Word), CoreSt.halt), (0, .fault), (0, .clear), (1, .halt), (1, .fault)],
     let s := tDebug .running x.2
     let c := tCmd [0, 32, 32, x.1] 0 (List.replicate 32 1)
     let s1 := tTaken 0 s
     mayDebug c s s1 (if x.1 = 0 then .read else .write) attachedSt ∧ argFld c 1 0 17 = 32 ∧ argFld c 2 0 17 = 32 ∧ argFld c 3 0 1 = x.1.toNat ∧
       imageCore s1 0 (argFld c 0 0 20) = some 0 ∧ 32 ≤ c.bufLen.toNat ∧ badForm c false false true [0xFFFFF, 0x1FFFF, 0x1FFFF, x.1.toNat] = false ∧
       (getCore s1 0).r.st = x.2 ∧ panLive s1 (panOf 0) = true) ∧
    (∀ x ∈ [(0 : Word), 1],
     let s := { tDebug .running .clear with tide := { (tDebug .running .clear).tide with live := 0 } }
     let c := tCmd [0, 32, 32, x] 0 (List.replicate 32 1)
     let s1 := tTaken 0 s
     mayDebug c s s1 (if x = 0 then .read else .write) attachedSt ∧ argFld c 1 0 17 = 32 ∧ argFld c 2 0 17 = 32 ∧ argFld c 3 0 1 = x.toNat ∧
       imageCore s1 0 (argFld c 0 0 20) = some 0 ∧ 32 ≤ c.bufLen.toNat ∧ badForm c false false true [0xFFFFF, 0x1FFFF, 0x1FFFF, x.toNat] = false ∧
       panLive s1 (panOf 0) = false) ∧
    (∀ r ∈ [1, 2], let s := { tOp r (tPart .running) with log := [⟨3, 0, 0x3A, 0, 1, 5, 0, 5, 0, 0, 0, 0, 0, 0⟩], logSeq := 4 }
     let c := tCmd [0, 0, 1] 0 (List.replicate 64 0)
     let s1 := tTaken 0 s
     goes c s s1 ∧ badForm c true false true [all32, all32, 0xFFF] = false ∧ (getQp s1 c.qp).role = r ∧ argFld c 2 0 12 = 1 ∧ 64 ≤ c.bufLen.toNat ∧
       (s1.log.filter (fun e => decide (0 ≤ e.seq) && (decide (r = 1) || decide (e.tprin = (getQp s1 c.qp).prin)))).length = 1) := by
  refine ⟨fun x h => ?_, fun x h => ?_, fun r h => ?_⟩ <;> simp only [List.mem_cons, List.not_mem_nil, or_false] at h
  · rcases h with rfl | rfl | rfl | rfl | rfl
    · exact ⟨may_of (c := tCmd [0, 32, 32, 0] 0 (List.replicate 32 1)) (by decide +kernel), by decide +kernel⟩
    · exact ⟨may_of (c := tCmd [0, 32, 32, 0] 0 (List.replicate 32 1)) (by decide +kernel), by decide +kernel⟩
    · exact ⟨may_of (c := tCmd [0, 32, 32, 0] 0 (List.replicate 32 1)) (by decide +kernel), by decide +kernel⟩
    · exact ⟨may_of (c := tCmd [0, 32, 32, 1] 0 (List.replicate 32 1)) (by decide +kernel), by decide +kernel⟩
    · exact ⟨may_of (c := tCmd [0, 32, 32, 1] 0 (List.replicate 32 1)) (by decide +kernel), by decide +kernel⟩
  · rcases h with rfl | rfl
    · exact ⟨may_of (c := tCmd [0, 32, 32, 0] 0 (List.replicate 32 1)) (by decide +kernel), by decide +kernel⟩
    · exact ⟨may_of (c := tCmd [0, 32, 32, 1] 0 (List.replicate 32 1)) (by decide +kernel), by decide +kernel⟩
  · rcases h with rfl | rfl <;> exact ⟨goes_of (c := tCmd [0, 0, 1] 0 (List.replicate 64 0)) (by decide +kernel), by decide +kernel⟩

theorem witness_ManualReleaseOfCores :
    ∀ x ∈ [((1 : Word), CoreSt.run, (0x3F : Word), PSt.running), (1, .halt, 0, .held), (2, .run, 0, .running), (2, .fault, 0, .held), (3, .halt, 0xFFFF000F, .faulted),
        (4, .fault, 0, .running), (5, .run, 0x7F, .running), (6, .hold, 0, .held)],
    let s := tDebug x.2.2.2 x.2.1
    let c := tCmd [x.1, 0, x.2.2.1] 0 []
    let s1 := tTaken 0 s
    imageCore s1 0 (argFld c 1 0 20) = some 0 ∧ mayDebug c s s1 .sync [.running, .held, .faulted] ∧ argFld c 0 0 4 = x.1.toNat ∧ (getCore s1 0).r.st = x.2.1 ∧
      (getPart s1 0).st = x.2.2.2 ∧ badForm c false false false [15, 0xFFFFF, if x.1 = 1 then 0x3F else if x.1 = 3 then 0xFFFF000F else 0x7F] = false := by
  intro x h
  simp only [List.mem_cons, List.not_mem_nil, or_false] at h
  rcases h with rfl | rfl | rfl | rfl | rfl | rfl | rfl | rfl
  · exact ⟨by decide +kernel, may_of (c := tCmd [1, 0, 0x3F] 0 []) (by decide +kernel), by decide +kernel⟩
  · exact ⟨by decide +kernel, may_of (c := tCmd [1, 0, 0] 0 []) (by decide +kernel), by decide +kernel⟩
  · exact ⟨by decide +kernel, may_of (c := tCmd [2, 0, 0] 0 []) (by decide +kernel), by decide +kernel⟩
  · exact ⟨by decide +kernel, may_of (c := tCmd [2, 0, 0] 0 []) (by decide +kernel), by decide +kernel⟩
  · exact ⟨by decide +kernel, may_of (c := tCmd [3, 0, 0xFFFF000F] 0 []) (by decide +kernel), by decide +kernel⟩
  · exact ⟨by decide +kernel, may_of (c := tCmd [4, 0, 0] 0 []) (by decide +kernel), by decide +kernel⟩
  · exact ⟨by decide +kernel, may_of (c := tCmd [5, 0, 0x7F] 0 []) (by decide +kernel), by decide +kernel⟩
  · exact ⟨by decide +kernel, may_of (c := tCmd [6, 0, 0] 0 []) (by decide +kernel), by decide +kernel⟩

theorem witness_ManualReleaseOfObjects :
    (let x : Chan := tChan true 0xFFFF
     let s := { tDebug .running .run with fab := { (tDebug .running .run).fab with chans := [(1, some x)] } }
     let c := tCmd [7, 0x1FFFF, 9] 0 []
     let s1 := tTaken 0 s
     mayDebug c s s1 .sync [.running, .held] ∧ argFld c 0 0 4 = 7 ∧ badForm c false false false [15, 0x1FFFF, all32] = false ∧ syncChan s1 c = some (1, x)) ∧
    (let b : BarObj := ⟨0, 0xFF, true, 0, 0, 0, false, 0, 0, 0, 0, [], []⟩
     let s := { tDebug .running .run with bars := [(1, some b)] }
     let c := tCmd [8, 0xFF, 0] 0 []
     let s1 := tTaken 0 s
     mayDebug c s s1 .sync [.running, .held] ∧ argFld c 0 0 4 = 8 ∧ badForm c false false false [15, 0xFF, 0] = false ∧ barOf s1 0 (argFld c 1 0 8) = some (1, b)) := by
  exact ⟨⟨may_of (c := tCmd [7, 0x1FFFF, 9] 0 []) (by decide +kernel), by decide +kernel⟩,
    ⟨may_of (c := tCmd [8, 0xFF, 0] 0 []) (by decide +kernel), by decide +kernel⟩⟩

theorem witness_ResetsClearTheirCores :
    (let s := tDebug .faulted .fault
     let c := tCmd [0, 0] 0 []
     let s1 := tTaken 0 s
     mayDebug c s s1 .reset attachedSt ∧ badForm c false false false [3, 0xFFFFF] = false ∧ badScope c = false ∧ argFld c 0 0 2 ≠ 2 ∧ selCores s1 c = some [0] ∧
       mayReset s 0 = true ∧ mayReset (tDebug .running .run) 0 = false ∧ s.stuck = [] ∧ twf Core.zero s.cores = true) ∧
    mayReset State.reset 95 = true := by
  exact ⟨⟨may_of (c := tCmd [0, 0] 0 []) (by decide +kernel), by decide +kernel⟩, by decide +kernel⟩

-- Perimeter memory -----------------------------------------------------------------------------------------------

/-- A module whose partition 0 runs with XTS key 1 over granule 62 of stack 47, and has route 0 bound as given. -/
def tStack (p : Part) : State :=
  setPart State.reset 0 { p with st := .running, xts := 1, granules := List.replicate 47 [] ++ [[62]], bound := [⟨9, some (95, 3)⟩], spills := [⟨9, some (95, 3)⟩] }
/-- Context 63 of engine 47 in a state, of partition 0, at a descriptor of a KIND and an ENTM1 of window slot 262143, with a digest. -/
def tCtxOf (kind ent : Nat) (st : CtxSt) (s : State) : State :=
  setEng s 47 { getEng s 47 with ctxs := [(63, { Ctx.zero with st := st, part := some 0 })]
                                 descs := [(0, (1, BitVec.ofNat 256 (kind + 2 ^ 4 + 262143 * 2 ^ 32 + ent * 2 ^ 128)))] }
def tCtx (kind : Nat) (st : CtxSt) (s : State) : State := tCtxOf kind 1 st s
/-- The stack byte of that slot. -/
def tSlotAt : Nat := 62 * granuleBytes + 262143 * 4160

/-- A module whose READ context 63 is about to read a tile that lies in that slot. -/
def tRead (ent : Nat) (h : Row) (pay : List Byte) : State := tCtxOf 1 ent .run (memWrite (tStack Part.zero) 47 1 tSlotAt (bytesOf h 32 ++ pay))
/-- A header with its CRC over a payload. -/
def tSealed (h : Row) (pay : List Byte) : Row := setFld h 224 32 (tileCrc h pay).toNat
/-- The header of an H16 tile of n elements, N:M packed in 3 units, with one nonzero element. -/
def tPacked (n : Nat) : Row := BitVec.ofNat 256 (2 ^ 8 + 2 ^ 12 + 2 * 2 ^ 16 + (n - 1) * 2 ^ 32 + 2 ^ 64)
/-- Its payload of 1:4, VCNT v, with the mask and the values. -/
def tPackedData (n v mask : Nat) : List Byte :=
  bytesOf (BitVec.ofNat 256 (2 + 1 * 2 ^ 8 + n * 2 ^ 16 + v * 2 ^ 32)) 32 ++ bytesOf (BitVec.ofNat 256 mask) 32 ++ bytesOf (BitVec.ofNat 256 (5 + 5 * 2 ^ 176)) 32

set_option maxRecDepth 100000 in
theorem witness_StreamReadsEmitTheTile :
    ∀ x ∈ [(1, (BitVec.ofNat 256 (2 ^ 12) : Row), List.replicate 32 (0 : Byte), false), (3, tPacked 48, tPackedData 48 12 1, true)],
    let h := tSealed x.2.1 x.2.2.1
    let s := tRead x.1 h x.2.2.1
    let d := getDesc s 47 (getCtx s 47 63).idx
    readsAt s 47 63 tSlotAt ∧ slotWritten s 47 (getPart s 0).xts tSlotAt = true ∧ ofBytes 256 (memRead s 47 (getPart s 0).xts tSlotAt 32) = h ∧
      memRead s 47 (getPart s 0).xts (tSlotAt + 32) (32 * hUnits h) = x.2.2.1 ∧ tileCrc h x.2.2.1 = hCrc h ∧ headerValid h = true ∧
      (hC h && decide (leAt x.2.2.1 0 1 % 16 = 2)) = x.2.2.2 ∧ hUnits h = sdEntm1 d ∧
      (x.2.2.2 = true → (match nmDecode h x.2.2.1 with
        | .ok (codes, scs) => decide (hUnits (nmEmit h .h16 codes scs).1 ≤ sdEntm1 d) && decide (hTile h = some .h16)
        | _ => false) = true) := by unfold readsAt; decide +kernel

set_option maxRecDepth 100000 in
theorem witness_StreamReadsThatFail :
    (∀ x ∈ [(1, tSealed (BitVec.ofNat 256 (2 ^ 12)) (List.replicate 32 (0 : Byte)), true, true), (1, (BitVec.ofNat 256 (2 ^ 12) : Row), false, true),
       (1, tSealed 0 (List.replicate 32 (0 : Byte)), true, false), (0, tSealed (BitVec.ofNat 256 (2 ^ 12)) (List.replicate 32 (0 : Byte)), true, true)],
     let pay := List.replicate 32 (0 : Byte)
     let s := tRead x.1 x.2.1 pay
     let h : Row := ofBytes 256 (memRead s 47 (getPart s 0).xts tSlotAt 32)
     readsAt s 47 63 tSlotAt ∧ slotWritten s 47 (getPart s 0).xts tSlotAt = true ∧ memRead s 47 (getPart s 0).xts (tSlotAt + 32) (32 * hUnits h) = pay ∧
       decide (tileCrc h pay = hCrc h) = x.2.2.1 ∧ headerValid h = x.2.2.2 ∧ hC h = false ∧
       decide (hUnits h ≤ sdEntm1 (getDesc s 47 (getCtx s 47 63).idx)) = decide (x.1 = 1)) ∧
    (let s := tCtxOf 1 1 .run (tStack Part.zero)
     readsAt s 47 63 tSlotAt ∧ slotWritten s 47 (getPart s 0).xts tSlotAt = false) ∧
    (∀ x ∈ [(48, 13, 1, NmError.format), (47, 12, 2 ^ 47, .bounds)],
     let pay := tPackedData x.1 x.2.1 x.2.2.1
     let h := tSealed (tPacked x.1) pay
     let s := tRead 3 h pay
     readsAt s 47 63 tSlotAt ∧ ofBytes 256 (memRead s 47 (getPart s 0).xts tSlotAt 32) = h ∧ memRead s 47 (getPart s 0).xts (tSlotAt + 32) (32 * hUnits h) = pay ∧
       tileCrc h pay = hCrc h ∧ headerValid h = true ∧ (hC h && decide (leAt pay 0 1 % 16 = 2)) = true ∧
       (match nmDecode h pay with | .error e => decide (e = x.2.2.2) | _ => false) = true) := by unfold readsAt; decide +kernel

/-- A WRITE context 63 with entries of its tile and the next at its edge link. -/
def tSpill (st : CtxSt) (skip : Bool) (buf : List QEntry) (en : QEntry) : State :=
  let s := setEdge (tCtx 2 st (tStack { Part.zero with spillBuf := [buf] })) (4 * 95 + 3) { Edge.zero with inp := [⟨9, en⟩] }
  setCtx s 47 63 { getCtx s 47 63 with skip := skip }

theorem witness_StreamWritesStoreTheTile :
    let q0 : QEntry := ⟨BitVec.ofNat 256 (2 ^ 12), mkSb 0 false true false⟩
    let last : QEntry := ⟨0, mkSb 0 false false true⟩
    ∀ x ∈ [(CtxSt.run, false, ([] : List QEntry), q0), (.run, false, [q0], last), (.run, false, [], last), (.run, false, [q0], ⟨0, 0⟩), (.run, false, [q0], q0),
        (.fault, true, [], last)],
    let s := tSpill x.1 x.2.1 x.2.2.1 x.2.2.2
    let c := getCtx s 47 63
    let d := getDesc s 47 c.idx
    spillsAt s 47 63 95 3 ⟨9, x.2.2.2⟩ ∧ c.st = x.1 ∧ c.skip = x.2.1 ∧ (getPart s 0).spillBuf.getD (sdRoute d) [] = x.2.2.1 ∧
      (spillFault d x.2.2.1 x.2.2.2).isNone = decide (x.2.2.2 = q0 ∧ x.2.2.1 = [] ∨ x.2.2.2 = last ∧ x.2.2.1 = [q0]) := by unfold spillsAt; decide +kernel

theorem witness_SpilledTilesAreCheckedAndStored :
    let d := getDesc (tCtxOf 2 0 .run State.reset) 47 0
    let q0 : QEntry := ⟨BitVec.ofNat 256 (2 ^ 12), mkSb 0 false true false⟩
    sbFirst q0.sb = true ∧ headerValid q0.data = true ∧ sdEntm1 d < hUnits q0.data := by decide +kernel

/-- A module whose stack 47 has its granule 62 with partition 0, whose window is open as given. -/
def tWindow (w : Window) : State := setEng (tStack { Part.zero with window := w }) 47 { Engine48.zero with trained := true, owner := [(62, 1)] }
/-- The host address of the last line of that granule. -/
def tLine : Nat := 47 * 2 ^ 36 + 62 * granuleBytes + 262143 * 4160

theorem witness_HostReadsAnswerALine :
    hostWindow (tWindow Window.zero) (tLine / 64 * 64) 5 = none ∧ (hostWindow (tWindow ⟨true, false, true, false, 5, 0⟩) (tLine / 64 * 64) 5).isSome = true ∧
      (hostWindow (tWindow ⟨true, true, true, true, 5, 0⟩) (tLine / 64 * 64) 0xFFF).isSome = true ∧
      hostWindow (tWindow ⟨true, true, true, true, 5, 0⟩) (48 * 2 ^ 36) 5 = none := by decide +kernel

theorem witness_HostWritesStoreTheMaskedBytes : ∀ wr ∈ [true, false], ∀ raw ∈ [true, false], let s := tWindow ⟨true, raw, wr, false, 5, 0⟩
    s.tablesWf = true ∧ (hostWindow s (tLine / 64 * 64) 5).isSome = true ∧ (getPart s 0).window.wr = wr ∧ (getPart s 0).window.raw = raw ∧
      hostWindow s (tLine / 64 * 64) 6 = none ∧ (∃ j, j < 4 ∧ fld (0x8000000000000000 : BitVec 64) (16 * j) 16 ≠ 0 ∧
        fld (0x8000000000000000 : BitVec 64) (16 * j) 16 ≠ 0xFFFF) ∧
      ¬∃ j, j < 4 ∧ fld (0xFFFF000000000000 : BitVec 64) (16 * j) 16 ≠ 0 ∧ fld (0xFFFF000000000000 : BitVec 64) (16 * j) 16 ≠ 0xFFFF := by decide +kernel

theorem witness_StacksRefreshAndReport :
    let s := tWindow Window.zero
    let s1 := { s with power := { s.power with parked := true } }
    (getEng s1 47).trained = true ∧ s1.power.parked = true ∧ s1.power.waking = false := by decide +kernel

theorem witness_StreamCommandsMoveTheContext : ∀ x ∈ [(CtxSt.armed, 1, ([] : List (List QEntry))), (.done, 1, []), (.wait, 1, []), (.run, 1, []), (.run, 2, [[⟨0, 0⟩]])],
    let s := tCtx x.2.1 x.1 (tOp 2 { tPart .held with spillBuf := x.2.2 })
    let c := tCmd [47 + 63 * 256] 0 []
    let s1 := tTaken 0 s
    goes c s s1 ∧ badForm c false false false [0x3F3F] = false ∧ isT s1 c = true ∧ inSt s1 c [.ready, .running, .held] = true ∧ argEng c = 47 ∧
      argCtx c = 63 ∧ (getCtx s1 47 63).part = some 0 ∧ (getCtx s1 47 63).st = x.1 ∧ midTile s1 47 (getCtx s1 47 63) = decide (x.2.1 = 2) := by
  intro x h
  simp only [List.mem_cons, List.not_mem_nil, or_false] at h
  rcases h with rfl | rfl | rfl | rfl | rfl <;> exact ⟨goes_of (c := tCmd [47 + 63 * 256] 0 []) (by decide +kernel), by decide +kernel⟩

theorem witness_DrainsWaitForTheSpills :
    (∀ st ∈ [PSt.running, .held], let s := tOp 2 { tPart st with spillBuf := [[], [⟨0, 0⟩]] }
     let c := tCmd [0, 0] 0 []
     let s1 := tTaken 0 s
     goes c s s1 ∧ badForm c false false false [0, all32] = false ∧ isT s1 c = true ∧ inSt s1 c [.running, .held] = true ∧ longBusy s1 c = false) ∧
    (∀ of_ ∈ [[], [3]], let s := tOp 2 { tPart .running with long := some (tLong .drain [0]), drainOf := of_ }
     (getPart s 0).long = some (tLong .drain [0]) ∧ (tLong .drain [0]).kind = .drain ∧ (getPart s 0).drainOf = of_ ∧
       (tLong .drain [0]).at_ + (tLong .drain [0]).nums.getD 0 0 ≤ north s) := by
  refine ⟨fun st h => ?_, by decide +kernel⟩
  simp only [List.mem_cons, List.not_mem_nil, or_false] at h
  rcases h with rfl | rfl <;> exact ⟨goes_of (c := tCmd [0, 0] 0 []) (by decide +kernel), by decide +kernel⟩

-- The fabric -----------------------------------------------------------------------------------------------------

/-- A module whose router is on, with port 47 as given and module 3 routed through port 47 on both ways. -/
def tPort47 (x : Port) (f : Fabric) : State :=
  { State.reset with fab := { f with en := true, ports := [(47, x)], table := [(3, BitVec.ofNat 32 (47 + 2 ^ 7 + 47 * 2 ^ 8 + 2 ^ 15))] } }
/-- A packet of a type to an endpoint of a module. -/
def tPacket (typ len dst : Nat) : Packet := ⟨1, typ, if typ = 1 then 3 else 0, 0, false, false, true, false, len, dst, 0x300, 7, 0, false, 0, 0, 0, 0, []⟩

set_option maxRecDepth 100000 in
theorem witness_LinkBlocksAreTakenInOrder : ∀ x ∈ [(2, false), (3, true)],
    let p := { Port.zero with st := x.1, nak := x.2 }
    let b0 := blockOf Port.zero x.2 0 0 7 1 [1, 2, 3]
    let b1 := blockOf Port.zero x.2 1 0 7 1 []
    let c : BitVec 64 := BitVec.ofNat 64 (leAt b0 0 8)
    (p.st = 2 ∨ p.st = 3) ∧ b0.length = 512 ∧ (crc32c (b0.take 508)).toNat = leAt b0 508 4 ∧ fld c 0 12 = 0 ∧ (p.nak = false ∨ c.getLsbD 25 = true) ∧
      c.getLsbD 24 = false ∧ p.episode = none ∧ b1.length = 512 ∧ (crc32c (b1.take 508)).toNat = leAt b1 508 4 ∧
      fld (BitVec.ofNat 64 (leAt b1 0 8)) 0 12 = 1 ∧ (decide (([] : List Byte).length = 512)) = false := by decide +kernel

theorem witness_PortsAnswerAndReplay : (∀ n ∈ [511, 512], let x := { Port.zero with st := 2, replay := List.replicate n (0, 511, []) }
     decide (x.replay.length < 512) = decide (n = 511)) ∧
    (∀ e ∈ [none, some (0, 1, 0)], let x := { Port.zero with st := 2, episode := e }
     let s := tPort47 x Fabric.zero
     x.st ≠ 0 ∧ getPort s 47 = x ∧ x.episode = e) := by decide +kernel

theorem witness_PortsTrainFailAndRetrain :
    (let s := { tPort47 { Port.zero with st := 1 } Fabric.zero with tide := { State.reset.tide with locked := true } }
     (getPort s 47).st = 1 ∧ s.tide.locked = true) ∧
    (∀ st ∈ [4, 5], let s := tPort47 { Port.zero with st := st } Fabric.zero
     (getPort s 47).st = st ∧ (getPort s 47).refDown = false) ∧
    (let s := { tPort47 { Port.zero with st := 0 } Fabric.zero with boot := { State.reset.boot with p1 := true } }
     (getPort s 15).st = 0 ∧ portOn (licPorts s) 15 = true ∧ portOn (licPorts s) 16 = false ∧ s.boot.p1 = true) ∧
    (∀ e ∈ [(0, 8, 1), (0, 7, 1)], let s := { tPort47 { Port.zero with st := 3, episode := some e, lost := [1, 2] } Fabric.zero with time := 10000000 }
     (getPort s 47).episode = some e ∧ (8 ≤ e.2.1 ∨ e.1 + 10000000 ≤ s.time) ∧ s.tablesWf = true) := by decide +kernel

theorem witness_HeadersAreRoutedOrDropped :
    ∀ h ∈ [{ tPacket 1 1 0x300 with ver := 2 }, tPacket 0 1 0x300, tPacket 5 1 0x300, tPacket 1 259 0x300, tPacket 1 0 0x300, tPacket 4 0 0x300, tPacket 1 258 0x300,
        tPacket 2 0 5],
    let s := tPort47 { Port.zero with st := 2, rx := headerBytes h } Fabric.zero
    let x := getPort s 47
    let rx := skipIdle (x.rx.length + 1) x.rx
    (x.buf.getLast?.all (fun b => decide (b.need = 0))) = true ∧ rx.length = 32 ∧ parseHeader (rx.take 32) = h ∧ s.fab.en = true ∧
      decide (h.ver = 1 ∧ 1 ≤ h.typ ∧ h.typ ≤ 4 ∧ h.resv = false ∧ h.len ≤ 258 ∧ (h.len = 0 → h.typ ≠ 1 ∧ h.typ ≠ 4)) =
        decide (h = tPacket 1 258 0x300 ∨ h = tPacket 2 0 5) := by decide +kernel

theorem witness_PacketsDepartInTurn : ∀ rtt ∈ [0, 1],
    let s := tPort47 { Port.zero with st := 2, rtt := rtt } { Fabric.zero with eps := [(5, { Endpoint.zero with outq := [{ tPacket 2 0 0x300 with age := 1000 }] })] }
    let s1 := settleEps (sink (flushCtrl s))
    let x := getPort s1 47
    s1.fab.en = true ∧ x.st = 2 ∧
      (match pickCand x.turns x.vcTurn (cands s1 47) with
      | some c => decide (x.replay.length + ceilDiv (32 + bodyLen c.p) 500 ≤ 512) && c.b.isNone && (decide (c.p.age + ceilDiv (ceilDiv x.rtt 2) 100 ≤ 1000) == decide (rtt = 0))
      | none => false) = true := by decide +kernel

/-- A module with one credit object of partition 0 at the edge link it is bound to, and what that link holds. -/
def tChans (c : Chan) (e : Edge) (eps : Tbl Endpoint) : State := setEdge (tPort47 Port.zero { Fabric.zero with chans := [(4095, some c)], eps := eps }) c.edge e

theorem witness_ChannelsCarryTokens :
    (∀ at_ ∈ [none, some 0], let f : Flit := ⟨9, ⟨1, mkSb 0 false true true⟩⟩
     let c := { tChan false 7 with tag := 9, peer := 0x300 }
     let s := tChans c { Edge.zero with inp := [f] } [(0, { Endpoint.zero with outAt := at_ })]
     getChan s 4095 = some c ∧ c.stop = false ∧ s.tide.frozen = false ∧ c.recv = false ∧ s.fab.en = true ∧ c.tok = [] ∧
       (getEdge s c.edge).inp.find? (fun f => decide (f.rt = c.tag)) = some f ∧ (getEp s c.ep).outAt = at_ ∧ edgeSteps s c.edge = 0) ∧
    (∀ x ∈ [(1, 1), (1, 0), (258, 1), (259, 1)], let last : QEntry := ⟨1, mkSb 0 false false true⟩
     let c := { tChan false 7 with tag := 9, peer := 0x300, cr := BitVec.ofNat 32 x.2, tok := List.replicate (x.1 - 1) ⟨1, mkSb 0 false true false⟩ ++ [last] }
     let s := tChans c Edge.zero []
     getChan s 4095 = some c ∧ c.stop = false ∧ s.tide.frozen = false ∧ c.recv = false ∧ s.fab.en = true ∧ c.tok.getLast? = some last ∧ sbLast last.sb = true ∧
       c.tok.isEmpty = false ∧ decide (258 < c.tok.length) = decide (x.1 = 259) ∧ decide (1 ≤ c.cr.toInt) = decide (x.2 = 1) ∧ c.peer / 256 ≠ s.modnum) ∧
    (∀ x ∈ [(0, 0, none), (1, 0, none), (1, 1, none), (0, 0, some 0)], let r : RxBuf := ⟨0, 0, false, [1, 2], x.1⟩
     let c := { tChan true 7 with rx := [r], cr := BitVec.ofNat 32 x.2.1 }
     let s := tChans c Edge.zero [(0, { Endpoint.zero with inAt := x.2.2 })]
     getChan s 4095 = some c ∧ c.stop = false ∧ s.tide.frozen = false ∧ c.recv = true ∧ c.rx.find? (fun r => decide (r.eseq = c.out)) = some r ∧
       (getEp s c.ep).inAt = x.2.2 ∧ edgeSteps s c.edge = 0 ∧ decide (r.sent + 1 < r.ents.length) = decide (x.1 = 0) ∧
       decide (c.cr.toInt + 1 ≤ (c.bufm1 : Int) + 1) = decide (x.2.1 = 0)) := by decide +kernel

/-- The module once endpoint e has taken a packet that meets a test. -/
def tGot (e : Nat) (t : Packet → Bool) (s : State) : State := ((takeInq e t s).map Prod.snd).getD s
theorem got_of {e : Nat} {t : Packet → Bool} {s : State} {p : Packet} (h : (takeInq e t s).map Prod.fst = some p) : takeInq e t s = some (p, tGot e t s) := by
  unfold tGot
  cases hx : takeInq e t s with
  | none => rw [hx] at h; cases h
  | some x => rw [hx] at h; cases h; rfl

/-- A DATA packet of channel 7 of endpoint 255, of a sequence. -/
def tData (seq : Nat) (enc : Bool) : Packet := { tPacket 1 1 255 with seq := seq, enc := enc }

theorem witness_DataPacketsTakeABuffer : ∀ x ∈ [(0, true), (1, true), (1, false)],
    let c := { tChan true 7 with ep := 255, peer := 0x300, next := 1, cr := 1 }
    let s := tChans c Edge.zero [(255, { Endpoint.zero with inq := [tData x.1 x.2] })]
    let s1 := tGot 255 (fun p => decide (p.typ = 1) || decide (p.typ = 4)) s
    takeInq 255 (fun p => decide (p.typ = 1) || decide (p.typ = 4)) s = some (tData x.1 x.2, s1) ∧ (tData x.1 x.2).age ≤ 1000 ∧ (tData x.1 x.2).typ = 1 ∧
      chanOf s1 true 255 (tData x.1 x.2).src (tData x.1 x.2).chn = some (4095, c) ∧
      (decide (nearest c.next (tData x.1 x.2).seq < c.next) || c.rx.any (fun r => decide (r.eseq = nearest c.next (tData x.1 x.2).seq))) = decide (x.1 = 0) := by
  intro x h
  simp only [List.mem_cons, List.not_mem_nil, or_false] at h
  rcases h with rfl | rfl | rfl <;> exact ⟨got_of (by decide +kernel), by decide +kernel⟩

theorem witness_PacketsThatNoChannelTakes : ∀ age ∈ [1000, 1001],
    let p := { tData 1 true with age := age }
    let s := tPort47 Port.zero { Fabric.zero with eps := [(255, { Endpoint.zero with inq := [p] })] }
    let s1 := tGot 255 (fun p => decide (p.typ = 1) || decide (p.typ = 4)) s
    takeInq 255 (fun p => decide (p.typ = 1) || decide (p.typ = 4)) s = some (p, s1) ∧ decide (1000 < p.age) = decide (age = 1001) ∧ p.typ = 1 ∧
      chanOf s1 true 255 p.src p.chn = none := by
  intro age h
  simp only [List.mem_cons, List.not_mem_nil, or_false] at h
  rcases h with rfl | rfl <;> exact ⟨got_of (by decide +kernel), by decide +kernel⟩

/-- An acknowledgement that returns n credits on a channel. -/
def tXport (ep chn n : Nat) : Packet := { tPacket 2 0 ep with chn := chn, arg0 := 1, arg1 := n + 2 ^ 16 + 2 ^ 17 }

theorem witness_AcknowledgementsReturnCredits :
    (let s := tPort47 Port.zero { Fabric.zero with eps := [(0, { Endpoint.zero with inq := [tXport 0 0xFFFF 0] })] }
     takeInq 0 (fun p => decide (p.typ = 2)) s = some (tXport 0 0xFFFF 0, tGot 0 (fun p => decide (p.typ = 2)) s) ∧ (tXport 0 0xFFFF 0).age ≤ 1000) ∧
    (∀ n ∈ [1, 2], let c := { tChan false 7 with ep := 255, peer := 0x300, next := 1 }
     let s := tChans c Edge.zero [(255, { Endpoint.zero with inq := [tXport 255 7 n] })]
     let s1 := tGot 255 (fun p => decide (p.typ = 2)) s
     takeInq 255 (fun p => decide (p.typ = 2)) s = some (tXport 255 7 n, s1) ∧ (tXport 255 7 n).age ≤ 1000 ∧
       chanOf s1 false 255 (tXport 255 7 n).src (tXport 255 7 n).chn = some (4095, c) ∧
       decide (c.cr.toInt + ((tXport 255 7 n).arg1 % 65536 : Nat) ≤ (c.bufm1 : Int) + 1) = decide (n = 1)) := by
  refine ⟨⟨got_of (by decide +kernel), by decide +kernel⟩, fun n h => ?_⟩
  simp only [List.mem_cons, List.not_mem_nil, or_false] at h
  rcases h with rfl | rfl <;> exact ⟨got_of (by decide +kernel), by decide +kernel⟩

/-- A NOTICE of a kind at endpoint 255. -/
def tNotice (kind : Nat) : Packet := { tPacket 3 0 255 with chn := 7, arg0 := 1, arg1 := kind }
/-- A module with that notice at an endpoint of partition 0, and a channel with a copy kept since time 0. -/
def tNoticed (kind : Nat) (resent : Bool) : State :=
  { tChans { tChan false 7 with ep := 255, next := 2, tx := [⟨1, tPacket 1 1 0x300, resent, 0, 0⟩] } Edge.zero
      [(255, { Endpoint.zero with part := some 0, inq := [tNotice kind] })] with time := 200000000 }

theorem witness_NoticesAndTimersResendOnce :
    (∀ kind ∈ [1, 2, 3, 4], let t := fun (p : Packet) => decide (p.typ = 3) && decide (p.arg1 % 16 = kind)
     takeInq 255 t (tNoticed kind false) = some (tNotice kind, tGot 255 t (tNoticed kind false)) ∧ (getEp (tGot 255 t (tNoticed kind false)) 255).part = some 0) ∧
    (let t := fun (p : Packet) => decide (p.typ = 3) && decide (p.arg1 % 16 = 3)
     let from_ := fun (r : Nat × Nat × Nat) => decide (r.1 = (tNotice 3).arg1 / 65536) && decide (r.2.1 = (tNotice 3).arg1 / 32 % 64)
     ((closeRetry 255 from_ (tGot 255 t (tNoticed 3 false))).fab.chans.findSome? (fun ic => match ic.2 with
        | some c => if c.ep = 255 ∧ c.chn = (tNotice 3).chn ∧ c.recv = false then (c.tx.find? (fun t => decide (t.eseq % 2 ^ 32 = (tNotice 3).arg0) &&
            (t.resent == decide ((tNotice 3).arg1 / 16 % 2 = 1)))).map (fun t => (ic.1, c, t)) else none
        | none => none)).isSome = true) ∧
    (∀ resent : Bool, let s := tNoticed 1 resent
     s.fab.refDown = false ∧ (getEp s 255).retry = [] ∧
       (match getChan s 4095 with
       | some c => decide (c.ep = 255) && !c.recv && !c.stop && (match c.tx.find? (fun t => decide (t.at_ + t.paused + s.fab.tmo * 1000000 ≤ s.time)) with
         | some t => t.resent == resent | none => false)
       | none => false) = true) ∧
    (let q : CtlSeq := ⟨0, 3, 2, [⟨1, tPacket 4 1 0x300, false, 0, 0⟩]⟩
     let s := { tPort47 Port.zero { Fabric.zero with sends := [q] } with time := 200000000 }
     s.fab.refDown = false ∧ (getEp s 0).retry = [] ∧ s.fab.sends[0]? = some q ∧
       q.tx.find? (fun t => decide (t.at_ + t.paused + s.fab.tmo * 1000000 ≤ s.time)) = some ⟨1, tPacket 4 1 0x300, false, 0, 0⟩) := by
  refine ⟨fun kind h => ?_, by decide +kernel⟩
  simp only [List.mem_cons, List.not_mem_nil, or_false] at h
  rcases h with rfl | rfl | rfl | rfl <;> exact ⟨got_of (by decide +kernel), by decide +kernel⟩

theorem witness_NothingIsResentWithoutTheReference :
    ({ State.reset with fab := { State.reset.fab with refDown := true } } : State).fab.refDown = true := rfl

theorem witness_FabricRegistersAreWritten : licPorts State.reset = 16 ∧ State.reset.fab.en = false ∧
    (∀ n ∈ [0x808F, 0x8FA7], let v : Word := BitVec.ofNat 32 n
     fld v 17 15 = 0 ∧ v.getLsbD 7 = true ∧ portOn 16 (fld v 0 6) = true ∧ v.getLsbD 15 = true ∧ portOn 16 (fld v 8 6) = true) ∧
    fld (0x20000 : Word) 17 15 ≠ 0 ∧ ((0x84 : Word).getLsbD 7 = true ∧ portOn 16 (fld (0x84 : Word) 0 6) = false) ∧
    (∀ n : Fin 2, (BitVec.ofNat 32 (2 ^ ((n : Nat) + 1)) : Word).getLsbD ((n : Nat) + 1) = true ∧ State.reset.fab.wr[n] = false) ∧
    ((1 : Word).getLsbD 1 = false ∧ (1 : Word).getLsbD 2 = false) := by decide +kernel

theorem witness_ModuleNumbersStayWhileEnabled : let s := tPort47 Port.zero Fabric.zero
    s.fab.en = true ∧ fld (0x1FFFF : Word) 0 16 ≠ s.modnum ∧ fld (0x10000 : Word) 0 16 = s.modnum := by decide +kernel

-- The pace and the power -----------------------------------------------------------------------------------------

/-- The module after reset with another tide block. -/
def tTide (t : Tide) : State := { State.reset with tide := t }
/-- The module after reset with another power block. -/
def tPower (w : Power) : State := { State.reset with power := w }

theorem witness_RateChangesAreScheduled :
    (∀ x ∈ [(4096, 8, true), (4096, 50, true), (4095, 8, false), (4096, 51, false), (4096, 7, false)], let s := tTide { Tide.zero with armT := BitVec.ofNat 48 x.1, armRate := x.2.1 }
     ((!isAhead s s.tide.armT || decide (aheadBy s s.tide.armT < 4096)) || (decide (s.tide.armRate < 8) || decide (50 < s.tide.armRate))) = !x.2.2) ∧
    (tTide Tide.zero).tide.pend = none ∧ (tTide { Tide.zero with pend := some (5, 8) }).tide.pend.isSome = true ∧ (tTide Tide.zero).tablesWf = true ∧
    (let s := tPower { Power.zero with raising := some 20, pans := [(0, PanPwr.zero)] }
     s.power.raising = some 20 ∧ railsSettled s = true ∧ s.tide.pend = none) ∧
    (let s := setNode (tPower { Power.zero with lowering := some (5, 8) }) 96 { Node.zero with steps := 261 }
     s.power.lowering = some (5, 8) ∧ 5 + 256 ≤ north s) := by decide +kernel

theorem witness_TheReferenceIsLostAndBack : ∀ fb : Bool, let s := tTide { Tide.zero with fallback := fb, pend := some (5, 8) }
    s.tide.fallback = fb ∧ s.tablesWf = true := by decide +kernel

theorem witness_HoldStopsTheWafer :
    (∀ x ∈ [(true, false), (false, true)], let s := { tTide { Tide.zero with hold := x.1, frozen := x.2 } with cores := [(921599, { Core.zero with r := { CoreRegs.zero with st := .run } })] }
     s.tide.hold = x.1 ∧ s.tide.frozen = x.2 ∧ s.tablesWf = true ∧ (getCore s 921599).x.haltReq = false) ∧
    (∀ x ∈ [(0, 0), (5, 0), (383, 0), (382, 4)], ∀ rel ∈ [none, some 0],
     let p : Nat := x.1 / 4
     let s0 := setNode (setNode (tTide { Tide.zero with relAt := rel }) p { Node.zero with steps := if x.2 = 0 then 4 else 0 }) (sluiceSender p (x.1 % 4)) { Node.zero with steps := x.2 }
     let s := { s0 with time := 2000000 }
     let m := sluiceSender p (x.1 % 4)
     s.tide.hold = false ∧ s.tide.frozen = false ∧ (getSluice s x.1).dead = false ∧ (∀ r, s.tide.relAt = some r → r + 2000000 ≤ s.time) ∧
       waitsFor s x.1 p m = decide (x.2 = 0) ∧ decide (m < 96) = decide (x.1 = 5 ∨ x.1 = 383) ∧ (x.2 = 4 → waitsFor s x.1 m p = true)) ∧
    (getSluice (setSluice State.reset 0 { Sluice.zero with dead := true }) 0).dead = true := by
  refine ⟨by decide +kernel, fun x h rel hr => ?_, by decide +kernel⟩
  simp only [List.mem_cons, List.not_mem_nil, or_false] at h hr
  rcases hr with rfl | rfl
  · refine ⟨rfl, rfl, ?_, fun r hr => absurd hr (by simp [tTide, setNode]), ?_⟩ <;>
      rcases h with rfl | rfl | rfl | rfl <;> decide +kernel
  · refine ⟨rfl, rfl, ?_, fun r hr => ?_, ?_⟩
    · rcases h with rfl | rfl | rfl | rfl <;> decide +kernel
    · have : some 0 = some r := hr
      cases this; exact Nat.le_refl _
    · rcases h with rfl | rfl | rfl | rfl <;> decide +kernel

theorem witness_PansAreSwitchedOff :
    (let s := tPower { Power.zero with trips := 2 }
     (getPwr s 95).st < 2 ∧ (getPwr s 95).why = 0 ∧ (getPwr s 95).trip = false ∧ s.power.trips < 3) ∧
    (∀ st ∈ [1, 2], ∀ tr : Bool, let s := tPower { Power.zero with trips := 3, pans := [(95, { PanPwr.zero with st := st, trip := tr })] }
     decide ((getPwr s 95).st < 2) = decide (st = 1) ∧ (getPwr s 95).trip = tr ∧ 3 ≤ s.power.trips) ∧
    (let s := tPower { Power.zero with pans := [(95, { PanPwr.zero with why := 2 })] }
     (getPwr s 95).why ≠ 0 ∧ (getPwr s 95).brk = false) ∧
    (let s := setPan (tPower { Power.zero with pans := [(95, { PanPwr.zero with hot := true, st := 1 })] }) 95 { Pan.zero with part := some 0 }
     (getPwr s 95).hot = true ∧ (getPwr s 95).why = 0 ∧ (getPwr s 95).st < 2 ∧ involved s 95 = [0] ∧ ∀ k ∈ involved s 95, (getPan s 95).part = some k) ∧
    panLive State.reset 95 = true ∧ State.reset.tablesWf = true := by decide +kernel

theorem witness_DarkPansLeaveTheWafer : let s := tPower { Power.zero with pans := [(95, { PanPwr.zero with why := 2, st := 1 })] }
    (getPwr s 95).why ≠ 0 ∧ (getPwr s 95).st < 2 ∧ s.tablesWf = true ∧ s.power.modTrip = false := by decide +kernel

theorem witness_TemperaturesMoveTheLimit :
    (∀ th : Bool, ∀ lh : Bool, ∀ n ∈ [9, 10], ∀ c ∈ [0, 99, 100],
     let s := tPower { Power.zero with pans := [(95, { PanPwr.zero with throt := th, mv := 1 })], hotFor := n, coolFor := c, lastHot := lh }
     s.tablesWf = true ∧ throttled s = th ∧ s.power.lastHot = lh ∧ s.power.hotFor = n ∧ s.power.coolFor = c ∧ panLive s 95 = true) ∧
    panLive (tTide { Tide.zero with live := 0 }) 95 = false := by decide +kernel

theorem witness_TheTickMovesTheCap : let s := setPart (tPower { Power.zero with parked := true, waking := true }) 31 { Part.zero with st := .held, holdPark := true }
    s.power.parked = true ∧ s.power.waking = true ∧ railsSettled s = true ∧ s.power.oper = false ∧ s.power.capPark = false ∧ s.tablesWf = true ∧
      (getPart s 31).holdPark = true ∧ (getPart s 31).holdHost = false ∧ (getPart s 31).st = .held := by decide +kernel

theorem witness_EnergyIsMetered : let s := setPart (tPower { Power.zero with ticks := 1000, meters := [(31, { Meter.zero with acc := 1500000 })] }) 31 (tPart .running)
    s.tablesWf = true ∧ (getPart s 31).st ≠ .none ∧ (getMeter s 31).ticks + (getMeter s 31).window * 1000 ≤ s.power.ticks ∧ (0 : Nat) ∈ livePans s := by decide +kernel

theorem witness_TheEntryKeepsOrDarkensTheModule : let s := { State.reset with host := { HostIf.zero with full := true } }
    (∀ v ∈ [5000, 6000], 5000 ≤ v ∧ v ≤ 6000) ∧ s.host.full = true ∧ (∀ v ∈ [4500, 4999, 6001, 6300], ¬(5000 ≤ v ∧ v ≤ 6000) ∧ 4500 ≤ v ∧ v ≤ 6300) ∧
      (∀ v ∈ [4499, 6301], ¬(5000 ≤ v ∧ v ≤ 6000) ∧ (v < 4500 ∨ 6300 < v)) ∧ State.reset.host.full = false := by decide +kernel

/-- The module with the firmware in force and a session, the operator's, in the last place. -/
def tSecure (s : State) : State :=
  { s with boot := { s.boot with p1 := true }
           sec := { s.sec with sess := [(47, some ⟨9, s.fuse.owner, true, 0, 0⟩)], enrol := [(5, some 9)] } }

theorem witness_CapsAndParkByPldm :
    (let s := tPower { Power.zero with start := some (0, 4000, 1, 0) }
     s.power.start = some (0, 4000, 1, 0) ∧ 0 ≤ north s) ∧
    operatorSession (tSecure State.reset) 47 = true ∧ operatorSession (tSecure State.reset) 48 = false ∧
    (∀ v ∈ [4000, 40000], 4000 ≤ v ∧ v ≤ 40000) ∧ (∀ v ∈ [3999, 40001], v < 4000 ∨ 40000 < v) ∧ (∀ v ∈ [1, 400], 1 ≤ v ∧ v ≤ 400) := by decide +kernel

-- Registers ------------------------------------------------------------------------------------------------------

theorem witness_RegisterCommandsReadAndWrite : ∀ x ∈ [(0, 0x1C, 0), (1, 0, 0), (2, 0x2F24, 0), (3, 0x1BC4, 0), (1, 4, 0), (0, 0xFFE8, 5)],
    let s := tOp 1 Part.zero
    let c := tCmd [BitVec.ofNat 32 (x.1 + x.2.1 * 2 ^ 16), BitVec.ofNat 32 x.2.2, 8] 0 []
    let s1 := tTaken 0 s
    let w := regWords c
    goes c s s1 ∧ isO s1 c = true ∧ argFld c 0 0 2 = x.1 ∧ argFld c 0 16 16 = x.2.1 ∧ argFld c 1 0 3 + 1 = x.2.2 + 1 ∧ x.2.1 % 4 = 0 ∧ x.2.2 + 1 ≤ 6 ∧
      x.2.1 + 4 * (x.2.2 + 1) ≤ 65536 ∧
      badForm c true false false ([0xFFFF0003, 7] ++ List.replicate (x.2.2 + 1) all32) = false ∧
      (w.all (fun w => decide (wordStatus s1 x.1 w.1 w.2 = stOK))) = true ∧ w.all (fun v => regWritable x.1 v.1) = decide (x ≠ (1, 4, 0) ∧ x.2.2 ≠ 5) := by
  intro x h
  simp only [List.mem_cons, List.not_mem_nil, or_false] at h
  rcases h with rfl | rfl | rfl | rfl | rfl | rfl
  · exact ⟨goes_of (c := tCmd [BitVec.ofNat 32 (0 + 0x1C * 2 ^ 16), BitVec.ofNat 32 0, 8] 0 []) (by decide +kernel), by decide +kernel⟩
  · exact ⟨goes_of (c := tCmd [BitVec.ofNat 32 (1 + 0 * 2 ^ 16), BitVec.ofNat 32 0, 8] 0 []) (by decide +kernel), by decide +kernel⟩
  · exact ⟨goes_of (c := tCmd [BitVec.ofNat 32 (2 + 0x2F24 * 2 ^ 16), BitVec.ofNat 32 0, 8] 0 []) (by decide +kernel), by decide +kernel⟩
  · exact ⟨goes_of (c := tCmd [BitVec.ofNat 32 (3 + 0x1BC4 * 2 ^ 16), BitVec.ofNat 32 0, 8] 0 []) (by decide +kernel), by decide +kernel⟩
  · exact ⟨goes_of (c := tCmd [BitVec.ofNat 32 (1 + 4 * 2 ^ 16), BitVec.ofNat 32 0, 8] 0 []) (by decide +kernel), by decide +kernel⟩
  · exact ⟨goes_of (c := tCmd [BitVec.ofNat 32 (0 + 0xFFE8 * 2 ^ 16), BitVec.ofNat 32 5, 8] 0 []) (by decide +kernel), by decide +kernel⟩

theorem witness_RegistersAreRead : let s := tOp 1 Part.zero
    let c := tCmd [3, 5] 0 []
    let s1 := tTaken 0 s
    goes c s s1 ∧ isO s1 c = true ∧ badForm c true false false [0xFFFF0003, 7] = false ∧ argFld c 1 0 3 + 1 = 6 :=
  ⟨goes_of (c := tCmd [3, 5] 0 []) (by decide +kernel), by decide +kernel⟩

/-- The module with a router selected and an address in it, and the lanes' entries out of the way. -/
def tSelect (sel : Word) (addr : Nat) (laneAt : Word) : State :=
  { State.reset with mesh := { State.reset.mesh with sel := sel, addr := addr }, routers := [(921599, { Router.zero with laneSet := some (laneAt, laneAt) })] }

theorem witness_TheMeshIsConfigured :
    (∀ a ∈ [0x00, 0x0C, 0x10, 0x1000, 0x2FFC], let s := tSelect 0xEFFBF a 0x00010001
     let e : BitVec 64 := setFld (tget 0 (getRouter s 921599).slots ((a - 0x1000) / 8)) (if a % 8 = 4 then 32 else 0) 32 2
     rtSelected s = some 921599 ∧ s.mesh.addr = a ∧ fld (2 : Word) 0 2 ≠ 3 ∧
       (0x1000 ≤ a → a % 4 = 0 ∧ (a - 0x1000) / 8 < periodOf s (panOf 921599) ∧ entryOk (modeOf s 921599) e = true ∧
         ∀ o : Fin 4, selOf e o ≠ 0 → laneOwned s 921599 o ((a - 0x1000) / 8) = false)) ∧
    (allEmpty State.reset = true ∧ testing State.reset = false ∧ State.reset.mesh.pend = none ∧ (∀ n ∈ [6, 10], fld (BitVec.ofNat 32 n : Word) 0 4 = n) ∧
      State.reset.tablesWf = true) ∧
    (∀ l ∈ [none, some (tLong .load [])], ∀ T ∈ [0, 1], ∀ lanes : Bool,
     let s := setNode { State.reset with mesh := { State.reset.mesh with pend := some (T, 6), lanes := lanes }, host := { HostIf.zero with meshCmd := l } } 96
       { Node.zero with steps := 1 }
     s.mesh.pend = some (T, 6) ∧ T ≤ north s ∧ s.host.meshCmd = l ∧ s.tablesWf = true ∧
       (∃ n ∈ livePans s, (getNode s n).steps = 0) ∧ ∀ n ∈ livePans s, (getNode s n).steps = 0) := by decide +kernel

theorem witness_FirmwareWritesRegisters : (0x0002 : BitVec 16).toNat % 4 ≠ 0 ∧ 100 ≤ fld (100 : Word) 0 16 ∧ fld (99 : Word) 0 16 < 100 ∧
    fld (4000 : Word) 0 13 ≤ 4000 ∧ (getQp State.reset 1).en = false := by decide +kernel

-- The security block ---------------------------------------------------------------------------------------------

/-- A grant of the tenant 5 for partition 31. -/
def tGrantBytes : List Byte := tLe 0x4742445A 4 ++ [2, 5, 31] ++ List.replicate 33 0 ++ tLe 15 4 ++ List.replicate 336 0
/-- A job key for a partition, without an XTS key. -/
def tKey : List Byte := [1, 0, 0, 0, 0, 0, 0, 0] ++ tLe 7 8 ++ List.replicate 184 0

theorem witness_PairsAreBoundBySessions :
    (let s := setPart (tSecure State.reset) 31 { tPart .empty with prin := 5 }
     ∃ x, secUp s = true ∧ sessionOf s 48 = none ∧ sessionOf s 47 = some x ∧ (getQp s 32).en = false ∧ (getQp s 32).sess = none ∧ provesOperator s x = true ∧
       provesTenant s x 5 = true ∧ grantForm tGrantBytes = true ∧ grantScope s tGrantBytes = true ∧ (tget none s.sec.sess 47).isSome = true ∧ s.tablesWf = true) ∧
    (let s := setQp (tSecure State.reset) 32 { Qp.zero with sess := some 47 }
     (getQp s 32).sess = some 47 ∧ (sessionOf s 47).isSome = true) ∧
    provesOperator State.reset ⟨9, 1, true, 0, 0⟩ = false := by
  exact ⟨⟨⟨9, State.reset.fuse.owner, true, 0, 0⟩, by decide +kernel⟩, by decide +kernel⟩

theorem witness_TheSecurityBlockAnswers :
    let s := setPart (tSecure State.reset) 31 { tPart .empty with prin := 5 }
    ∃ x, secUp s = true ∧ sessionOf s 47 = some x ∧ provesOperator s x = true ∧ named s 255 = false ∧ keyForm tKey = true ∧ tenantOf s x 31 = true ∧
      (getPart s 31).st = .empty ∧ tget none s.sec.sess 0 = none ∧ tget none s.sec.sess 47 = some x ∧
      (∀ j ∈ List.range 48, (tget none ((List.range 48).map (fun i => (i, some x))) j).isSome = true) := by
  exact ⟨⟨9, State.reset.fuse.owner, true, 0, 0⟩, by decide +kernel⟩

theorem witness_MailboxCommandsAnswer : (Instr.getLog 3, 3, 3) ∈ [(Instr.identifyMemoryDevice, 0, 0), (.getHealthInfo, 1, 0), (.getSupportedLogs, 2, 0), (.getLog 3, 3, 3)] := by
  decide +kernel

/-- A test pack of one kernel with no code and no data, for one module. -/
def tPack (crc : Nat) : List Byte :=
  tLe 0x4B50545A 4 ++ tLe 2 4 ++ tLe 1 4 ++ tLe 1440 2 ++ tLe 1 2 ++ tLe 65536 4 ++ tLe 1 4 ++ tLe 104 8 ++ tLe crc 4 ++ List.replicate 28 0 ++
    tLe 0 8 ++ List.replicate 32 0

theorem witness_LicencesAndPacksAreInstalled :
    let s := { tOp 1 Part.zero with boot := { Boot.zero with p1 := true } }
    let c := tCmd [] 0 (tPack 1499445213)
    let s1 := tTaken 0 s
    goes c s s1 ∧ isO s1 c = true ∧ badForm c true false true [] = false ∧ s1.boot.p1 = true ∧
      (match readPack c.bufLen.toNat (bufOf c) with | .ok _ => true | .error _ => false) = true :=
  ⟨goes_of (c := tCmd [] 0 (tPack 1499445213)) (by decide +kernel), by decide +kernel⟩

theorem witness_LicencesMovePorts : portOn (licPorts State.reset) 39 = true ∧ portOn (licPorts State.reset) 40 = false ∧ portOn 32 43 = true ∧
    portOn (licPorts { State.reset with sec := { State.reset.sec with licence := some ⟨1, 32, 1, true, true, 50, 0⟩ } }) 43 = true ∧ portOn 16 43 = false ∧
    (getPort State.reset 40).st = 0 ∧ (getPort State.reset 40).disable = false := by decide +kernel

theorem witness_ModuleCommandsAct :
    (∀ x ∈ [((0 : Count), 4000 + 2 ^ 16, 4000), (8192, 40000 + 400 * 2 ^ 16, 0x10000), (0x100000000, 4000 + 2 ^ 16, 0)],
     let s := tOp 1 Part.zero
     let c := tCmd [BitVec.ofNat 32 x.2.1, BitVec.ofNat 32 x.2.2] x.1 []
     let s1 := tTaken 0 s
     let t := argFld c 0 0 16
     let r := argFld c 0 16 9
     goes c s s1 ∧ isO s1 c = true ∧ badForm c true true false [0x01FFFFFF, 0x11FFF] = false ∧ 4000 ≤ t ∧ t ≤ 40000 ∧ 1 ≤ r ∧ r ≤ 400 ∧
       (argFld c 1 0 13 ≤ 4000 ∨ argFld c 1 16 1 = 1) ∧ (c.tc = 0 ∨ (8192 ≤ aheadBy s1 c.tc ∧ aheadBy s1 c.tc ≤ 2 ^ 32))) ∧
    (∀ p : Bool, let s := { tOp 1 Part.zero with power := { Power.zero with parked := p } }
     let c := tCmd [] 0 []
     let s1 := tTaken 0 s
     goes c s s1 ∧ isO s1 c = true ∧ badForm c true false false [] = false ∧ s1.power.parked = p) := by
  refine ⟨fun x h => ?_, fun p => ?_⟩
  · simp only [List.mem_cons, List.not_mem_nil, or_false] at h
    rcases h with rfl | rfl | rfl
    · exact ⟨goes_of (c := tCmd [BitVec.ofNat 32 (4000 + 2 ^ 16), BitVec.ofNat 32 4000] 0 []) (by decide +kernel), by decide +kernel⟩
    · exact ⟨goes_of (c := tCmd [BitVec.ofNat 32 (40000 + 400 * 2 ^ 16), BitVec.ofNat 32 0x10000] 8192 []) (by decide +kernel), by decide +kernel⟩
    · exact ⟨goes_of (c := tCmd [BitVec.ofNat 32 (4000 + 2 ^ 16), BitVec.ofNat 32 0] 0x100000000 []) (by decide +kernel), by decide +kernel⟩
  · cases p <;> exact ⟨goes_of (c := tCmd [] 0 []) (by decide +kernel), by decide +kernel⟩

theorem witness_EnergyIsRead :
    (∀ x ∈ [(2, 0, some (1, 2, 3)), (1, 0x10001, none), (1, 0x10E10, none), (1, 0x20000, none), (1, 0, none)],
     let s := setPart { tOp x.1 Part.zero with power := { Power.zero with meters := [(0, { Meter.zero with last := x.2.2, acc := 1 })] } } 0 { tPart .running with prin := if x.1 = 1 then 0 else 5 }
     let c := tCmd [BitVec.ofNat 32 x.2.1] 0 []
     let s1 := tTaken 0 s
     goes c s s1 ∧ badForm c (decide (energyMode c = 2)) false false [0x30FFF] = false ∧ ((getQp s1 c.qp).role = 1 ∨ (getQp s1 c.qp).role = 2) ∧
       (isT s1 c || decide (energyMode c = 2)) = true ∧ (getPart s1 c.part).st ≠ .none ∧ (getMeter s1 c.part).last = x.2.2 ∧ energyMode c = x.2.1 / 65536 ∧
       (energyMode c = 1 → 1 ≤ argFld c 0 0 12 ∧ argFld c 0 0 12 ≤ 3600)) := by
  intro x h
  simp only [List.mem_cons, List.not_mem_nil, or_false] at h
  rcases h with rfl | rfl | rfl | rfl | rfl
  · exact ⟨goes_of (c := tCmd [BitVec.ofNat 32 0] 0 []) (by decide +kernel), by decide +kernel⟩
  · exact ⟨goes_of (c := tCmd [BitVec.ofNat 32 0x10001] 0 []) (by decide +kernel), by decide +kernel⟩
  · exact ⟨goes_of (c := tCmd [BitVec.ofNat 32 0x10E10] 0 []) (by decide +kernel), by decide +kernel⟩
  · exact ⟨goes_of (c := tCmd [BitVec.ofNat 32 0x20000] 0 []) (by decide +kernel), by decide +kernel⟩
  · exact ⟨goes_of (c := tCmd [BitVec.ofNat 32 0] 0 []) (by decide +kernel), by decide +kernel⟩

-- Bring-up and test ----------------------------------------------------------------------------------------------

theorem witness_BringUpStartsTheFirmware :
    State.reset.boot.good = false ∧ State.reset.boot.entry = true ∧ State.reset.boot.signal = true ∧
    (∀ g : Fin 12, let s := { State.reset with boot := { Boot.zero with good := true, linkUp := true, groups := BitVec.ofNat 12 (2 ^ (g : Nat) - 1) } }
     s.boot.good = true ∧ s.boot.groups.getLsbD g = false ∧ (∀ i ∈ List.range g, s.boot.groups.getLsbD i = true) ∧ s.boot.linkUp = true ∧ s.boot.p1 = false) ∧
    (∀ n ∈ [4096, 67108864], 4096 ≤ (BitVec.ofNat 32 n : Word).toNat ∧ (BitVec.ofNat 32 n : Word).toNat ≤ 67108864) ∧
    (4096 : BitVec 64).toNat % 4096 = 0 ∧ (1 : BitVec 64).toNat % 4096 ≠ 0 := by decide +kernel

theorem witness_BringUpPreparesTheMesh : let s := { State.reset with boot := { Boot.zero with p1 := true, groups := BitVec.allOnes 12 } }
    s.boot.p1 = true ∧ s.boot.p2 = false ∧ s.boot.groups = BitVec.allOnes 12 ∧ s.tablesWf = true ∧ s.stuck = [] ∧ (getEng s 47).trained = false ∧ (getEng s 47).failed = false := by
  decide +kernel

theorem witness_BringUpNumbersThePans :
    (let s := { State.reset with boot := { Boot.zero with p1 := true, p2 := true } }
     s.boot.p2 = true ∧ panLive s 95 = true ∧ (getPan s 95).num = none ∧ 9600 ∈ [9600] ∧ 9600 ∉ [9599] ∧ s.tablesWf = true ∧ s.stuck = []) ∧
    (let s := setPan { State.reset with boot := { Boot.zero with p1 := true, p2 := true } } 95 { Pan.zero with num := some 95 }
     panLive s 95 = true ∧ (getPan s 95).num.isSome = true ∧ s.boot.p4.contains 95 = false ∧ idlePan s 95 = true) ∧
    (let s := { tTide { Tide.zero with locked := true, live := 1 } with boot := { Boot.zero with p1 := true, p2 := true, p4 := [0] } }
     s.boot.p2 = true ∧ s.host.full = false ∧ s.tide.locked = true ∧ (∀ q ∈ livePans s, s.boot.p4.contains q = true) ∧ s.boot.p5 = false ∧
       ∀ q ∈ livePans s, idlePan s q = true) := by decide +kernel

theorem witness_PansAreTestedAndWatched :
    (let s := setPan { State.reset with time := 24 * 10 * minute } 95 { Pan.zero with num := some 95 }
     panLive s 95 = true ∧ (getPan s 95).num.isSome = true ∧ (getTest s 95).run = false ∧ freePan s 95 = true ∧
       (getTest s 95).passAt + s.rel.interval * minute ≤ s.time ∧ (getTest s 95).overdue = false ∧ (getTest s 95).passAt + 24 * s.rel.interval * minute ≤ s.time) ∧
    (let s := setTest State.reset 95 { TestPan.zero with run := true }
     (getTest s 95).run = true ∧ s.tablesWf = true ∧ s.stuck = []) ∧
    (∀ b : Fin 6, let s := { State.reset with time := 24 * hour }
     s.rel.seen[b] + 24 * hour ≤ s.time ∧ standing s b = false) := by decide +kernel

-- The obligations that stand by themselves -----------------------------------------------------------------------

theorem witness_StepsKeepTheTablesCanonical : let s := { State.reset with pending := [.powerGood, .fundamentalReset] }
    s.tablesWf = true ∧ step s = .next { State.reset with pending := [.fundamentalReset], boot := { Boot.zero with good := true }, power := { Power.zero with entryOk := true } } := by
  exact ⟨by decide +kernel, rfl⟩

theorem witness_StepsKeepTheQueueAndTheFuses : step { State.reset with pending := [.fundamentalReset, .powerGood] } = .next { State.reset with pending := [.powerGood] } := rfl

theorem witness_EveryWellFormedCommandCompletes : (Instr.add 921599 0 0 0).wf = true ∧ (Instr.add 921600 0 0 0).wf = false ∧
    exec (.add 921600 0 0 0) State.reset = .fault .noSuchUnit := ⟨by decide +kernel, by decide +kernel, rfl⟩

theorem witness_CoreWordsDecode : (0x39, 0, Instr.vins 0 31 31 31) ∈ wordsR 0 31 31 31 ∧ (∀ fn ∈ [19, 31], 18 < fn ∧ fn < 32) := by decide +kernel

theorem witness_ZeroWordsFaultAtFetch : ∀ w ∈ [0, 0x06000000], let c := tFetch w
    let s := tAt c
    fld (BitVec.ofNat 32 w : Word) 20 5 = 0 ∧ 0 < numCores ∧ live (envOf s 0) c = true ∧ c.x.fetch = .going ∧ c.x.fetchAt ≤ (envOf s 0).now ∧ c.x.haltReq = false ∧
      c.x.fw1 = none ∧ c.pc < 0x4000 ∧ bufWord c c.pc = some (BitVec.ofNat 32 w) ∧ eccBad c c.pc 4 = none ∧ (getStation s (stationOf 0)).mask = 0 ∧
      (BitVec.ofNat 32 w : Word).getLsbD 31 = false := by decide +kernel

theorem witness_ZeroLongWordsFaultAtFetch : let c := tFetch 0x80000000
    bufWord c c.pc = some 0x80000000 ∧ (0x80000000 : Word).getLsbD 31 = true ∧ 0x4000 ≤ c.pc + 4 := by decide +kernel

theorem witness_LongZeroWordsWithBothWords :
    let c0 := tFetch 0
    let c := { c0 with pc := 0x3FF8, x := { c0.x with fbuf := some (511, BitVec.ofNat 256 (0x80000000 * 2 ^ 192 + 7 * 2 ^ 224)) } }
    bufWord c c.pc = some 0x80000000 ∧ c.pc + 4 < 0x4000 ∧ bufWord c (c.pc + 4) = some 7 ∧ eccBad c (c.pc + 4) 4 = none := by decide +kernel

theorem witness_DwaitFollowsItsRule : ∀ w ∈ [(0 : Nat), 4],
    let c := { tCore .dma (.dwait 0 8) [] with dma := (Vector.replicate 4 0).set 3 (BitVec.ofNat 256 w) }
    mayGo (tAt c) 0 .dma (.dwait 0 8) (tk (.dwait 0 8) []) ∧ slotFree c 3 = decide (w = 0) ∧ ∀ j : Fin 4, (8 : BitVec 4).getLsbD j = true → j = 3 := by
  intro w h
  simp only [List.mem_cons, List.not_mem_nil, or_false] at h
  rcases h with rfl | rfl <;> exact ⟨go _ _ _ _ rfl rfl rfl rfl, by decide +kernel⟩

theorem witness_DivisionNeverFaults : ∀ i ∈ [Instr.divu 0 1 2 3, .divs 0 1 2 3, .remu 0 1 2 3, .rems 0 1 2 3],
    (mayBegin (tAt (tCore .scalar i [])) 0 .scalar i (tk i []) ∧ (tCore .scalar i []).s[3] = 0) ∧
    (let c := { tCore .scalar i [] with s := ((Vector.replicate 32 0).set 2 0x80000000).set 3 0xFFFFFFFF }
     mayBegin (tAt c) 0 .scalar i (tk i []) ∧ c.s[2] = 0x80000000 ∧ c.s[3] = 0xFFFFFFFF) := by
  intro i h
  simp only [List.mem_cons, List.not_mem_nil, or_false] at h
  rcases h with rfl | rfl | rfl | rfl <;>
    exact ⟨⟨may _ _ _ _ rfl rfl rfl rfl (waitsDone_of rfl _ _ _), rfl⟩, may _ _ _ _ rfl rfl rfl rfl (waitsDone_of rfl _ _ _), rfl, rfl⟩

-- Well-formed commands -------------------------------------------------------------------------------------------

theorem test_wf_refuses_cores_past_the_wafer : (Instr.coreReset 921600).wf = false ∧ (Instr.coreReset 921599).wf = true := by decide +kernel
theorem test_wf_refuses_data_past_the_buffer : (Instr.jobLoad { tCmd [] 0 [1] with bufLen := 0 }).wf = false ∧ (Instr.jobLoad (tCmd [] 0 [1])).wf = true := by decide +kernel
theorem test_wf_refuses_kernels_that_no_pack_has : (Instr.testpackRunEnd 0 (some (64, 0, 0))).wf = false ∧ (Instr.testpackRunEnd 0 (some (63, 120, 0))).wf = false ∧
    (Instr.testpackRunEnd 0 (some (63, 119, 80))).wf = false ∧ (Instr.testpackRunEnd 0 (some (63, 119, 79))).wf = true := by decide +kernel
theorem test_wf_refuses_short_measurements : (Instr.thermalSample [] 0 0 0 0).wf = false ∧ (Instr.powerTick 0 0 0 []).wf = false ∧ (Instr.energyInterval 0 []).wf = false ∧
    (Instr.p2Mesh [] []).wf = false ∧ (Instr.p5FullService []).wf = false ∧ (Instr.p3Kernels 0 [9601]).wf = false := by decide +kernel
theorem test_wf_refuses_bad_lines : (Instr.cxlMemRead (3 * 2 ^ 40) 0 ⟨false, false⟩).wf = false ∧ (Instr.cxlMemWrite 0 0 0 []).wf = false ∧
    (Instr.linkBlockReceive 0 ⟨[], 0, 0⟩).wf = false ∧ (Instr.transportTimeout 0 (2 ^ 20)).wf = false := by decide +kernel
theorem test_wf_refuses_errors_past_the_wafer : (Instr.nodeStep 0 [.link ⟨921600, 0, true, true, false, 0⟩]).wf = false ∧
    (Instr.nodeStep 0 [.sram ⟨921600, 0, true, 0⟩]).wf = false ∧ (Instr.nodeStep 0 [.sram ⟨921599, 0, true, 0⟩, .stuck 0]).wf = true := by decide +kernel

-- The manual's worked examples -----------------------------------------------------------------------------------

/-- 00, after R3: global (437, 905) is in pan (3, 11), local (77, 25), cluster 54. -/
theorem test_core_coordinates : panOf (905 * 960 + 437) = 11 * 8 + 3 ∧ localOf (905 * 960 + 437) = 25 * 120 + 77 ∧ clusterOf (905 * 960 + 437) = 54 := by decide +kernel

/-- 15, after R382: with 14 defects in rows 0 to 24 and 2 in row 25 west of x = 77, the logical ID of that core is 0xE43F5. -/
theorem test_logical_id : lidOf (setPan State.reset 91 { Pan.zero with num := some 91, defects := List.range 14 ++ [3000, 3001] }) (905 * 960 + 437) = some 0xE43F5 := by
  decide +kernel

/-- 03, after R93: the words of the softmax fragment. -/
theorem test_softmax_words :
    decodeCore 0 0x03508040 0 = .ok (.vqrd 0 1 2) ∧ decodeCore 0 0x02E10424 0 = .ok (.vrmax 0 2 1 .w16) ∧
      decodeCore 0 0x02218444 0 = .ok (.vsub 0 3 1 2 .w16 .rne) ∧ decodeCore 0 0x02D20C44 0 = .ok (.vexp2 0 4 3 .w16) ∧
      decodeCore 0 0x02E29004 0 = .ok (.vrsum 0 5 4 .w16 .rne) ∧ decodeCore 0 0x00221001 0 = .ok (.addi 0 4 4 1) := ⟨rfl, rfl, rfl, rfl, rfl, rfl⟩

/-- 04, the key block of attention: MMA.H16 with D 0, A S6, B S8. -/
theorem test_attention_word : decodeCore 0 0x04101900 0 = .ok (.mma 0 0 6 8 .h16 .rne) := rfl

/-- 05 R143: the CRC-32C of "123456789". -/
theorem test_crc : crc32c [0x31, 0x32, 0x33, 0x34, 0x35, 0x36, 0x37, 0x38, 0x39] = 0xE3069283 := by decide +kernel

/-- 05 Table 5-6: the scales of two E4 blocks and the codes of their elements. -/
theorem test_e4_blocks : chooseScale .e4 [0x4060, 0x3E9A] = 0x78 ∧ chooseScale .e4 [0x4066, 0x3E9A] = 0x79 ∧ encodeElem .e4 .rne 0x4060 0x78 = 0x7E ∧
    encodeElem .e4 .rne 0x3E9A 0x78 = 0x62 ∧ encodeElem .e4 .rne 0xBF80 0x78 = 0xF0 ∧ encodeElem .e4 .rne 0x3580 0x78 = 0 ∧
    encodeElem .e4 .rne 0x4066 0x79 = 0x76 ∧ encodeElem .e4 .rne 0x3E9A 0x79 = 0x5A := by decide +kernel

/-- 05, after R137: under SR the element 38.5 rounds to 40 when U is below 40,960. -/
theorem test_e4_stochastic : encodeElem .e4 (.sr 40959) 0x3E9A 0x78 = 0x62 ∧ encodeElem .e4 (.sr 40960) 0x3E9A 0x78 = 0x61 ∧
    encodeElem .e4 (.sr 4095) 0x3580 0x78 = 1 ∧ encodeElem .e4 (.sr 4096) 0x3580 0x78 = 0 := by decide +kernel

/-- 05 Table 5-8: the header of a dense weight tile. -/
theorem test_weight_tile_header : let h : Row := BitVec.ofNat 256 (0x007F1013 + 0x007F001E * 2 ^ 32 + 0x00000F3D * 2 ^ 64 + 0x00412C07 * 2 ^ 96 + 0x00100005 * 2 ^ 128)
    headerValid h = true ∧ hUnits h = 128 ∧ hDense h = 128 ∧ hNnz h = 3901 ∧ hSrcId h = 5 ∧ scaleOff .e4 3968 = 3968 := by decide +kernel

/-- 06 Table 6-2: guard steps 413, 414 and 1,413. -/
theorem test_loss_scale : let b : BitVec 128 := BitVec.ofNat 128 (0x0818F80F + 1000 * 2 ^ 32)
    nextScale b true 15 412 = (14, 0) ∧ nextScale b false 14 0 = (14, 1) ∧ nextScale b false 14 999 = (15, 0) := by decide +kernel

/-- 08 Table 8-4: the bitmap form of 128 of 256 E4 elements takes 7 units where the dense tile takes 9. -/
theorem test_bitmap_units : compUnits .e4 256 32 128 = 7 ∧ denseUnits .e4 256 32 = 9 := by decide +kernel

-- Single steps ---------------------------------------------------------------------------------------------------

/-- 03 R65: ADD wraps. -/
theorem test_add_wraps : (scalarOps 0 1 2 3 0xFFFFFFFF 2).head? = some (.add 0 1 2 3, 1) := by decide +kernel

/-- 15 R369: POWER_GOOD in front of the queue is carried out, and the next command stays. -/
theorem test_power_good_steps : (match step { State.reset with pending := [.powerGood, .powerGood] } with
    | .next t => decide (t.boot.good = true) && decide (t.pending = [.powerGood]) | _ => false) = true := by decide +kernel

/-- The block idles on an empty queue. -/
theorem test_idle : step State.reset = .next State.reset := rfl

/-- No row of the opcode table gives bits. -/
theorem test_no_table_words : decodeTableWord 32 0 = none ∧ State.withFetchWord State.reset 32 0 = State.reset := ⟨rfl, rfl⟩

end Sys2Proof.Tests
end

section
/-! What a command can answer, and O56: a next state, or the stop of a core number past the wafer. -/

namespace Sys2Proof.Machine

/-- What a command may answer: a next state, or the stop for a unit that the module does not have, which only a command that is
not well-formed (ok is false) meets. -/
def Answers (ok : Bool) (o : Out) : Prop := (∃ t, o = .next t) ∨ (ok = false ∧ o = .fault .noSuchUnit)

theorem answers_of_next {ok : Bool} {o : Out} (h : ∃ t, o = .next t) : Answers ok o := .inl h

theorem answers_next {ok : Bool} (t : State) : Answers ok (.next t) := .inl ⟨t, rfl⟩

/-- A command that is left to another row, or else answers a next state, answers a next state. -/
theorem leftOr_next {p : Prop} [Decidable p] {s : State} {o : Out} (h : ∃ t, o = .next t) : ∃ t, (if p then .next s else o) = .next t := by
  split
  · exact ⟨s, rfl⟩
  · exact h

-- Commands on one core -------------------------------------------------------------------------------------------

theorem coreOk_eq_false_of_ge {g : Nat} (h : numCores ≤ g) : coreOk g = false := decide_eq_false (Nat.not_lt.mpr h)

/-- A command on one core stops for a number past the wafer only. -/
theorem onCore_answers (g : Nat) (s : State) (f : Env → Core → Core) : Answers (coreOk g) (onCore g s f) := by
  rcases Nat.lt_or_ge g numCores with h | h
  · exact .inl ⟨_, onCore_of_lt s f h⟩
  · exact .inr ⟨coreOk_eq_false_of_ge h, onCore_of_ge s f h⟩

/-- A meaning that first excludes the numbers past the wafer stops for those only. -/
theorem guarded_answers {g : Nat} {o : Out} (h : ∃ t, o = .next t) : Answers (coreOk g) (if numCores ≤ g then .fault .noSuchUnit else o) := by
  split
  · next hg => exact .inr ⟨coreOk_eq_false_of_ge hg, rfl⟩
  · exact .inl h

theorem portEvent_answers (g : Nat) (kind : MsgBody → Bool) (s : State) : Answers (coreOk g) (portEvent g kind s) :=
  guarded_answers ⟨_, rfl⟩

theorem execHaltRequest_answers (g : Nat) (s : State) : Answers (coreOk g) (execHaltRequest g s) := by
  unfold execHaltRequest
  split
  · exact onCore_answers g _ _
  · exact answers_next s

theorem execStallWatchdog_answers (g : Nat) (s : State) : Answers (coreOk g) (execStallWatchdog g s) := by
  refine guarded_answers (leftOr_next ?_)
  dsimp only
  split
  · exact ⟨_, rfl⟩
  · exact ⟨_, rfl⟩

-- Host commands --------------------------------------------------------------------------------------------------

/-- Every debug command answers a next state. -/
theorem runDbg_next (opc : Nat) (modCmd : Bool) (c : Cmd) (wcrc : Nat) (checks : State → List (Bool × Nat)) (f : State → Reply) (s : State) :
    ∃ t, runDbg opc modCmd c wcrc checks f s = .next t := by
  unfold runDbg
  cases takeEntry c.qp s with
  | none => exact ⟨_, rfl⟩
  | some s1 =>
    dsimp only
    cases firstCode (checks s1) with
    | some code => exact ⟨_, rfl⟩
    | none => cases f s1 <;> exact ⟨_, rfl⟩

theorem dbgBreak_next (op : Nat) (c : Cmd) (useTc : Bool) (mask2 mask3 : Nat) (bad : Bool) (beyond : State → Bool)
    (f : Station → BitVec 64 → Station) (s : State) : ∃ t, dbgBreak op c useTc mask2 mask3 bad beyond f s = .next t :=
  leftOr_next (runDbg_next ..)

theorem dbgSync_next (kind : Nat) (c : Cmd) (mask1 mask2 : Nat) (legal : List PSt) (need undeclared : State → Bool) (f : State → Reply)
    (s : State) : ∃ t, dbgSync kind c mask1 mask2 legal need undeclared f s = .next t :=
  leftOr_next (runDbg_next ..)

theorem execGetLog_next (log : Nat) (s : State) : ∃ t, execGetLog log s = .next t := by
  unfold execGetLog
  split
  · exact ⟨_, rfl⟩
  · exact ⟨_, rfl⟩

-- Every command --------------------------------------------------------------------------------------------------

/-- What a command can answer, by the shared operation that its meaning calls; a meaning that calls none of them is written as
the next state. -/
theorem exec_answers (s : State) (i : Instr) : Answers i.wf (exec i s) := by
  unfold exec Instr.wf
  cases i with
  | add | sub | and | or | xor | shl | shr | sra | mul | mulhu | mulhs | min | max | minu | maxu | divu | remu | divs | rems | addi | andi
  | ori | xori | shli | shri | srai | li | cmp | cmpi | plog | ldw | ldh | ldhu | ldb | ldbu | stw | sth | stb | br | brl | jr | jrl | qrd
  | crr | crw | rel | acq | syncAll | stepCommitContribute | stepCommit | endFold | suCnd | brk | flagSet | flagClr | flagWait | flagWaitc
  | barArrive | chPut | chGet | chWait | vadd | vsub | vmul | vfma | vmin | vmax | vcmp | vsel | vand | vor | vxor | vsh | vabs | vneg
  | vexp2 | vexp | vlog2 | vrcp | vsqrt | vrsqrt | vtanh | vsigm | vrsum | vrmax | vrmin | vcvt | vunpk | vld | vst | vldb | vstb | vqrd
  | vqwr | vbcs | vext | vins | vmov | viota | mma | mmas | mstg | mstgq | mzero | mbst | mbld | mmask | msmx | mscl | dmov | dwait
  | copyRow | qinEntry | qoutEntry | tinEntry | tstgEntry | stgRow | fwdEntry | toutSourceRead | tileForm | toutEntry | dmaSlotComplete
  | foldChoice | foldFire | steerDecide | tokenDrop | staleTokenDiscard | haltEntry => exact onCore_answers _ _ _
  | instructionFetch | entryArrival | loaderTile | haltCountReached | coreReset => exact guarded_answers ⟨_, rfl⟩
  | flagSetMessage | flagClrMessage | chPutMessage | chGetMessage | guardRes | barRel => exact portEvent_answers _ _ _
  | haltRequest g => exact execHaltRequest_answers g s
  | stallWatchdog g => exact execStallWatchdog_answers g s
  | modQuery | regWrite | modPark | modUnpark | partReset | partQuery | windowOpen | windowClose | jobStart | jobHold | jobAbort | jobSave
  | jobStatus | streamStart | streamRelease | streamStop | streamDrain => exact answers_of_next (runCmd_next ..)
  | regRead | licenceInstall | testpackLoad | powerCap | jobResume | jobExport | flagSetCommand =>
    -- These give names to parts of the entry before they run it.
    refine answers_of_next ?_
    simp only [execRegRead, regArgs, execLicenceInstall, execTestpackLoad, execPowerCap, execJobResume, execJobExport, execFlagSetCommand,
      runCmd_next]
  | energyReadWindow | energySetWindow | energyReadModule | partCreate | partDestroy | jobLoad | jobRestore | jobImport | jobReload
  | jobReloadForced => exact answers_of_next (leftOr_next (runCmd_next ..))
  | debugAttach | debugDetach | dbgHalt | dbgRun | dbgReset => exact answers_of_next (runDbg_next ..)
  | dbgLogRead =>
    refine answers_of_next ?_
    simp only [execDbgLogRead, runDbg_next]
  | dbgRakeRead | dbgRakeWrite => exact answers_of_next (leftOr_next (runDbg_next ..))
  | dbgBreakSet | dbgBreakClear | dbgHaltCountSet | dbgHaltCountClear => exact answers_of_next (dbgBreak_next ..)
  | dbgSyncSetFlag | dbgSyncClearFlag | dbgSyncWriteProducer | dbgSyncWriteConsumer | dbgSyncAdvanceProducer | dbgSyncAdvanceConsumer
  | dbgSyncWriteCr | dbgSyncCompleteBarrier => exact answers_of_next (dbgSync_next ..)
  | getLog log => exact answers_of_next (execGetLog_next log s)
  | _ => exact answers_next _

end Sys2Proof.Machine

open Sys2Proof Sys2Proof.Machine

/-- Settles O56: a command answers a next state, but for the stop of one that is not well-formed (02 R2; assumption log 91). -/
theorem everyWellFormedCommandCompletes : Obligations.EveryWellFormedCommandCompletes := by
  intro s i
  obtain ⟨t, ht⟩ | ⟨hwf, hstop⟩ := exec_answers s i
  · simp [ht]
  · simp [hwf, hstop]
end

section
/-! Bit fields: what a field or a bit reads of a word that is spelled by a number, and after a field or a bit is written. -/

namespace Sys2Proof.Machine

/-- A field of the word that a number spells. -/
theorem fld_ofNat {n lo len : Nat} (v : Nat) (h : lo + len ≤ n) : fld (BitVec.ofNat n v) lo len = v / 2 ^ lo % 2 ^ len := by
  have hd : 2 ^ len ∣ 2 ^ (n - lo) := Nat.pow_dvd_pow 2 (by omega)
  have hs : 2 ^ n = 2 ^ lo * 2 ^ (n - lo) := by rw [← Nat.pow_add]; congr 1; omega
  rw [fld, BitVec.extractLsb'_toNat, BitVec.toNat_ofNat, Nat.shiftRight_eq_div_pow, hs, Nat.mod_mul_right_div_self,
    Nat.mod_mod_of_dvd _ hd]

/-- A bit of the word that a number spells. -/
theorem getLsbD_ofNat_eq {n i : Nat} (v : Nat) (h : i < n) : (BitVec.ofNat n v).getLsbD i = decide (v / 2 ^ i % 2 = 1) := by
  rw [BitVec.getLsbD_ofNat, decide_eq_true h, Bool.true_and, Nat.testBit_eq_decide_div_mod_eq]

/-- What bit j reads once a field is written. -/
theorem getLsbD_setFld {n : Nat} (w : BitVec n) (lo len v j : Nat) :
    (setFld w lo len v).getLsbD j = if lo ≤ j ∧ j < lo + len ∧ j < n then v.testBit (j - lo) else w.getLsbD j := by
  have hmask : j < n → (setFld w lo len v).getLsbD j =
      (w.getLsbD j && !(decide (lo ≤ j) && decide (j - lo < len)) || (decide (lo ≤ j) && (decide (j - lo < len) && v.testBit (j - lo)))) := by
    intro hn
    simp only [setFld, fldMask, BitVec.getLsbD_or, BitVec.getLsbD_and, BitVec.getLsbD_not, BitVec.getLsbD_ofNat, Nat.testBit_shiftLeft,
      Nat.testBit_two_pow_sub_one, Nat.testBit_mod_two_pow, hn, decide_true, Bool.true_and, ge_iff_le]
  by_cases hn : j < n
  · rw [hmask hn]
    by_cases hlo : lo ≤ j
    · by_cases hlen : j - lo < len
      · simp [hn, hlo, hlen, show j < lo + len by omega]
      · simp [hlo, hlen, show ¬ j < lo + len by omega]
    · simp [hlo]
  · simp [hn, BitVec.getLsbD_of_ge _ _ (Nat.not_lt.mp hn)]

/-- What bit j reads once bit i is written. -/
theorem getLsbD_setBit {n : Nat} (w : BitVec n) (i : Nat) (b : Bool) (j : Nat) :
    (setBit w i b).getLsbD j = if j = i ∧ j < n then b else w.getLsbD j := by
  rw [setBit, getLsbD_setFld]
  by_cases h : j = i
  · subst h; cases b <;> simp
  · rw [if_neg (by omega), if_neg (by simp [h])]

/-- A bit of a word set. -/
theorem setBit_true {n : Nat} (w : BitVec n) (i : Nat) : setBit w i true = w ||| BitVec.twoPow n i := by
  apply BitVec.eq_of_getLsbD_eq
  intro j hj
  rw [getLsbD_setBit, BitVec.getLsbD_or, BitVec.getLsbD_twoPow]
  by_cases h : j = i
  · subst h; simp [hj]
  · simp [h, Ne.symm h]

/-- A bit of a word cleared. -/
theorem setBit_false {n : Nat} (w : BitVec n) (i : Nat) : setBit w i false = w &&& ~~~ BitVec.twoPow n i := by
  apply BitVec.eq_of_getLsbD_eq
  intro j hj
  rw [getLsbD_setBit, BitVec.getLsbD_and, BitVec.getLsbD_not, BitVec.getLsbD_twoPow]
  by_cases h : j = i
  · subst h; simp [hj]
  · simp [hj, h, Ne.symm h]

end Sys2Proof.Machine
end

section
/-! O17: taking a fault, a second fault, and the end of the step of a fault (02 R44, R45). -/

namespace Sys2Proof.Machine

/-- Putting back what was not yet written touches the register files, the accumulator and staging alone. -/
theorem undoAll_frame (us : List Undo) (c : Core) :
    ∃ s p v banks stg, undoAll us c = { c with s := s, p := p, v := v, banks := banks, stg := stg } := by
  induction us generalizing c with
  | nil => exact ⟨_, _, _, _, _, rfl⟩
  | cons u us ih =>
    cases u <;>
      · rw [undoAll]
        obtain ⟨s, p, v, banks, stg, h⟩ := ih _
        exact ⟨s, p, v, banks, stg, h⟩

/-- An abandoned core: nothing is in progress, and beside what is put back only the records of what was in progress change. -/
theorem abandon_frame (t : Nat) (c : Core) :
    ∃ s p v banks stg, abandon t c = { c with
      s := s, p := p, v := v, banks := banks, stg := stg
      x := { c.x with
        iss := Vector.replicate 4 [], begun := [], runs := [], fw1 := none, wRow := none, dRow := none, chosen := none, phase3 := none,
        gres := none, served := [], accUsed := [], refused := [], copied := Vector.replicate 4 none, stgLeft := Vector.replicate 4 [],
        faultAt := 0 } } := by
  unfold abandon
  obtain ⟨s, p, v, banks, stg, h⟩ := undoAll_frame ((c.x.begun.filter (fun b => decide (t < b.due))).flatMap Begun.undo) c
  exact ⟨s, p, v, banks, stg, by simp only [h]⟩

/-- An abandoned core whose results are all there keeps its registers, its accumulator and its staging. -/
theorem abandon_nothing_late {t : Nat} {c : Core} (h : ∀ b ∈ c.x.begun, b.due ≤ t) :
    (abandon t c).s = c.s ∧ (abandon t c).p = c.p ∧ (abandon t c).v = c.v ∧ (abandon t c).banks = c.banks ∧ (abandon t c).stg = c.stg := by
  have hl : c.x.begun.filter (fun b => decide (t < b.due)) = [] :=
    List.filter_eq_nil_iff.mpr (fun b hb => by simpa using h b hb)
  simp [abandon, hl, undoAll]

/-- An abandoned core with one result still to come, a scalar register, has the register as it was. -/
theorem abandon_one_register {t : Nat} {c : Core} {b : Begun} {r : Reg} {v : Word} (hb : c.x.begun = [b]) (hd : t < b.due)
    (hu : b.undo = [.s r v]) : (abandon t c).s = c.s.set r v := by
  simp [abandon, hb, hd, hu, undoAll, putS]

/-- What FAULT_STATUS reads: VALID, the code, the engine and MORE (02 Table 2-5). -/
theorem faultStat_fields (code : Nat) (eng : Engine) (more : Bool) (hc : code < 256) :
    (faultStat code eng more).getLsbD 31 = true ∧ fld (faultStat code eng more) 0 8 = code ∧
      fld (faultStat code eng more) 8 2 = (engNum eng : Nat) ∧ (faultStat code eng more).getLsbD 10 = more := by
  have he := (engNum eng).isLt
  unfold faultStat
  rw [fld_ofNat _ (by decide), fld_ofNat _ (by decide), getLsbD_ofNat_eq _ (by decide), getLsbD_ofNat_eq _ (by decide)]
  simp only [Nat.shiftLeft_eq]
  refine ⟨?_, ?_, ?_, ?_⟩
  · cases more <;> simp <;> omega
  · cases more <;> simp <;> omega
  · cases more <;> simp <;> omega
  · cases more <;> simp <;> omega

/-- What FAULT_INFO reads: DETAIL, SUB, the opcode and the length (03 R91). -/
theorem faultInfo_fields (long : Bool) (op sub detail : Nat) (hd : detail < 65536) (hs : sub < 256) :
    fld (faultInfo long op sub detail) 0 16 = detail ∧ fld (faultInfo long op sub detail) 16 8 = sub ∧
      fld (faultInfo long op sub detail) 24 7 = op % 128 ∧ (faultInfo long op sub detail).getLsbD 31 = long := by
  unfold faultInfo
  rw [fld_ofNat _ (by decide), fld_ofNat _ (by decide), fld_ofNat _ (by decide), getLsbD_ofNat_eq _ (by decide)]
  simp only [Nat.shiftLeft_eq]
  refine ⟨?_, ?_, ?_, ?_⟩
  · cases long <;> simp <;> omega
  · cases long <;> simp <;> omega
  · cases long <;> simp <;> omega
  · cases long <;> simp <;> omega

/-- A fault of a core in HOLD that fired nothing: what it had begun is abandoned at once, and the record is filled. -/
theorem coreFault_of_hold (e : Env) (eng : Engine) (code sub detail op : Nat) (long : Bool) (pc : Nat) (c : Core)
    (hr : c.r.st = .hold) (hp : c.x.prefire = none) :
    coreFault e eng code sub detail op long pc c =
      let a := abandon e.now c
      { a with
        r := { a.r with
          st := .fault
          fstat := faultStat code eng false
          fpc := BitVec.ofNat 32 (pc % 16384)
          finfo := faultInfo long op sub detail
          ftc := e.tc }
        x := { a.x with
          fetch := .stopped
          frank := faultRank eng sub 0
          urgent := coreMsg e none (.fault e.g (BitVec.ofNat 8 code) (BitVec.ofNat 8 sub)) :: c.x.urgent
          haltReq := false } } := by
  simp [coreFault, faultAs, enterFault, hr, undoFire_of_none hp, coreMsg]

theorem fault_fills_record : Claims.TakingAFaultFillsTheRecord := by
  intro e eng code sub detail op long pc c c' hst hp hcode hsub hdet hop hpc
  obtain ⟨f1, f2, f3, f4⟩ := faultStat_fields code eng false hcode
  obtain ⟨i1, i2, i3, i4⟩ := faultInfo_fields long op sub detail hdet hsub
  have hpcw : (BitVec.ofNat 32 (pc % 16384)).toNat = pc := by rw [BitVec.toNat_ofNat]; omega
  rw [Nat.mod_eq_of_lt hop] at i3
  rcases hst with h | h
  · have hc' : c' = _ := coreFault_of_run e eng code sub detail op long pc c h hp
    rw [hc']
    exact ⟨rfl, f1, f2, f3, f4, hpcw, i1, i2, i3, i4, rfl, rfl, rfl, rfl, fun _ => ⟨rfl, rfl⟩, fun hh => by simp [h] at hh⟩
  · have hc' : c' = _ := coreFault_of_hold e eng code sub detail op long pc c h hp
    obtain ⟨s, p, v, banks, stg, ha⟩ := abandon_frame e.now c
    rw [hc', ha]
    exact ⟨rfl, f1, f2, f3, f4, hpcw, i1, i2, i3, i4, rfl, rfl, rfl, rfl, fun hh => by simp [h] at hh,
      fun _ => ⟨rfl, rfl, rfl, rfl, rfl, rfl⟩⟩

theorem second_fault_sets_more : Claims.SecondFaultsSetMore := by
  intro e rank eng code sub detail op long pc c c' hf hcode hsub hdet
  constructor
  · intro hlate
    rw [show c' = _ from if_pos hf, if_neg (by simpa using hlate), setBit_true]
    rfl
  · intro ht hr hp
    obtain ⟨-, f2, -, f4⟩ := faultStat_fields code eng true hcode
    obtain ⟨i1, i2, -, -⟩ := faultInfo_fields long op sub detail hdet hsub
    have hc' : c' = enterFault e rank eng code sub detail op long pc true c := by simp [c', faultAs, hf, ht, hr]
    simp only [enterFault, undoFire_of_none hp, Bool.or_true, if_true, hf, reduceCtorEq, decide_false, Bool.false_eq_true, if_false] at hc'
    rw [hc']
    exact ⟨rfl, f4, f2, i2, i1, rfl, ht, rfl, rfl⟩

theorem faulted_core_abandoned : Claims.FaultedCoresAreAbandoned := by
  intro now c hf ht c'
  have hc' : c' = abandon (now + 1) c := by simp [c', settleFault, hf, ht]
  obtain ⟨s, p, v, banks, stg, ha⟩ := abandon_frame (now + 1) c
  rw [hc']
  refine ⟨?_, ?_, ?_, ?_, ?_, ?_, ?_, ?_, ?_, ?_, ?_, ?_, ?_, ?_, ?_, ?_, abandon_nothing_late, fun b r v => abandon_one_register⟩ <;> rw [ha]

end Sys2Proof.Machine

open Sys2Proof Sys2Proof.Machine

/-- Settles O17: a fault taken in RUN or HOLD by its record, a second one by its place in the step, the end of the step by what
abandon leaves. A fault in HOLD that abandons at once and the slot images that stay are the model's readings, logs 12, 11 and 23. -/
theorem takingAFaultFillsTheRecord : Obligations.TakingAFaultFillsTheRecord :=
  ⟨fault_fills_record, second_fault_sets_more, faulted_core_abandoned⟩
end

section
/-! O18: a control message due at a core's port (02 R38; 09 R223, R226, R233, R238; 06 R146, R152; 11 R273). -/

namespace Sys2Proof.Machine

open Sys2Proof.Claims

/-- Of two writes to one key the later holds. -/
theorem tset_tset {α : Type} [DecidableEq α] (d : α) (t : Tbl α) (k : Nat) (v w : α) (h : twf d t = true) :
    tset d (tset d t k v) k w = tset d t k w := by
  have h1 := twf_tset d t k v h
  refine tbl_ext (twf_tset d _ k w h1) (twf_tset d t k w h) (fun j => ?_)
  by_cases hj : j = k
  · subst hj; rw [tget_tset_same _ _ _ _ h1, tget_tset_same _ _ _ _ h]
  · rw [tget_tset_ne _ _ _ _ _ hj, tget_tset_ne _ _ _ _ _ hj, tget_tset_ne _ _ _ _ _ hj]

/-- A message of the row's kind, due first at the port of a core whose own operations are over, leaves the port and is applied. -/
theorem portEvent_of_due {s : State} {g : Nat} {kind : MsgBody → Bool} {p : Nat × LaneMsg} {rest : List (Nat × LaneMsg)}
    (hg : g < numCores) (hd : portDue (getRouter s g) (getNode s (panOf g)).steps = p :: rest) (hk : kind p.2.msg.body = true)
    (ho : localOver (envOf s g) (getCore s g) = true) :
    portEvent g kind s = .next (applyPort (setRouter s g { getRouter s g with port := (getRouter s g).port.erase p }) g p.2.msg) := by
  simp [portEvent, Nat.not_le.mpr hg, hd, hk, ho]

/-- Until the core's own operations are over every message waits. -/
theorem portEvent_of_local {s : State} {g : Nat} (kind : MsgBody → Bool) (hg : g < numCores)
    (ho : localOver (envOf s g) (getCore s g) = false) : portEvent g kind s = .next s := by
  unfold portEvent
  rw [if_neg (Nat.not_le.mpr hg)]
  dsimp only
  split <;> simp [ho]

/-- A message of the current generation at a core that works is applied to the core alone; its port does not enter into it. -/
theorem applyPort_of_fresh {s : State} {g : Nat} {m : Msg} (r : Router) (hf : fresh s g m = true) (hr : m.body.reserved = false)
    (hst : (getCore s g).r.st ≠ .defect) :
    applyPort (setRouter s g r) g m =
      setCore (setRouter s g r) g (applyBody (envOf (setRouter s g r) g) m.body (getCore s g)) := by
  have hf' : fresh (setRouter s g r) g m = true := hf
  have hst' : (getCore (setRouter s g r) g).r.st ≠ .defect := hst
  rw [applyPort, hf', hr]
  simp only [Bool.not_false, Bool.and_self, if_true, if_neg hst']
  rfl

/-- A stale message is counted, and nothing else. -/
theorem applyPort_of_stale {s : State} {g : Nat} {m : Msg} (r : Router) (h : twf Router.zero s.routers = true)
    (hf : fresh s g m = false) : applyPort (setRouter s g r) g m = setRouter s g { r with stale := r.stale + 1 } := by
  have hf' : fresh (setRouter s g r) g m = false := hf
  have hget : getRouter (setRouter s g r) g = r := tget_tset_same _ _ _ _ h
  rw [applyPort, hf', Bool.false_and, if_neg Bool.false_ne_true, modRouter, hget]
  simp only [setRouter, tset_tset _ _ _ _ _ h]

/-- What each control message does to its core, where it is within its bounds (09 R223, R226, R233; 06 R152). -/
theorem applyBody_of_messageOps {g : Nat} {f : Fin 64} {ch : Fin 16} {a gen : Nat} {ovf : Bool} {ls n : Byte}
    {cores : List Nat} {i : Instr} {b : MsgBody} {c c' : Core} {e : Env} (he : e.g = g) (hm : memberCore e.s g = true)
    (h : (i, b, c') ∈ messageOps g f ch a ovf ls n gen cores c) : applyBody e b c = c' := by
  subst he
  simp only [messageOps, List.mem_append, List.mem_cons, List.not_mem_nil, or_false, List.mem_ite_nil_right, Prod.mk.injEq] at h
  rcases h with (((⟨-, rfl, rfl⟩ | ⟨-, rfl, rfl⟩ | ⟨-, rfl, rfl⟩) | ⟨hb, -, rfl, rfl⟩) | ⟨hb, -, rfl, rfl⟩) | ⟨hb, -, rfl, rfl⟩
  · simp [applyBody, setBit_true]
  · simp [applyBody, setBit_false]
  · simp [applyBody, setBit_true]
  · rw [applyBody, show chPutOn c.ch[ch] a = some _ from if_pos hb]
  · rw [applyBody, show chGetOn c.ch[ch] a = some _ from if_pos hb]
  · simp [applyBody, hm, hb]

/-- The rows that apply a control message at a core's port. -/
def portRows (g : Nat) : List Instr :=
  [.flagSetMessage g, .flagClrMessage g, .chPutMessage g, .chGetMessage g, .guardRes g, .barRel g]

/-- The kind of message that a row at a core's port applies. -/
def portKind : Instr → MsgBody → Bool
  | .flagSetMessage _, .flagSet _ => true
  | .flagClrMessage _, .flagClr _ => true
  | .chPutMessage _, .chPut _ _ => true
  | .chGetMessage _, .chGet _ _ => true
  | .guardRes _, .guardRes _ _ => true
  | .barRel _, .barRel _ _ _ _ => true
  | _, _ => false

/-- Each of the rows works at the port, for the messages of its kind. -/
theorem exec_portRow {g : Nat} {i : Instr} (s : State) (h : i ∈ portRows g) : exec i s = portEvent g (portKind i) s := by
  simp only [portRows, List.mem_cons, List.not_mem_nil, or_false] at h
  rcases h with rfl | rfl | rfl | rfl | rfl | rfl <;>
    · unfold exec
      exact congrArg (fun kind => portEvent g kind s) (funext fun b => by cases b <;> rfl)

/-- The messages of the rows at a core's port: each is of its row's kind and of no reserved TYPE. -/
theorem messageOps_row {g : Nat} {f : Fin 64} {ch : Fin 16} {a gen : Nat} {ovf : Bool} {ls n : Byte} {cores : List Nat} {i : Instr}
    {b : MsgBody} {c c' : Core} (h : (i, b, c') ∈ messageOps g f ch a ovf ls n gen cores c) :
    i ∈ portRows g ∧ portKind i b = true ∧ b.reserved = false := by
  simp only [messageOps, List.mem_append, List.mem_cons, List.not_mem_nil, or_false, List.mem_ite_nil_right, Prod.mk.injEq] at h
  rcases h with (((⟨rfl, rfl, -⟩ | ⟨rfl, rfl, -⟩ | ⟨rfl, rfl, -⟩) | ⟨-, rfl, rfl, -⟩) | ⟨-, rfl, rfl, -⟩) | ⟨-, rfl, rfl, -⟩ <;>
    exact ⟨by simp [portRows], rfl, rfl⟩

/-- An advance that breaks its bound, at a core that has taken no fault and fired nothing in this step. -/
theorem remoteFault_of_ne_fault {c : Core} (e : Env) (ch det : Nat) (hst : c.r.st ≠ .fault) (hp : c.x.prefire = none) :
    remoteFault e ch det c = faultAs (faultRank .scalar 0x20 1) e .scalar stSync 0x20 det 0 false c.pc c := by
  simp [remoteFault, undoFire_of_none hp, hst]

/-- A put that breaks its bound faults with the channel as DETAIL (09 R238). -/
theorem applyBody_chPut_over {e : Env} {c : Core} {ch : Fin 16} {a : Nat} (hb : 128 < fill c.ch[ch] + a) (hst : c.r.st ≠ .fault)
    (hp : c.x.prefire = none) :
    applyBody e (.chPut ch a) c = faultAs (faultRank .scalar 0x20 1) e .scalar stSync 0x20 ch 0 false c.pc c := by
  rw [applyBody, show chPutOn c.ch[ch] a = none from if_neg (by omega)]
  exact remoteFault_of_ne_fault e ch ch hst hp

/-- A get that breaks its bound faults with the channel and 16 as DETAIL (09 R238). -/
theorem applyBody_chGet_over {e : Env} {c : Core} {ch : Fin 16} {a : Nat} (hb : fill c.ch[ch] < a) (hst : c.r.st ≠ .fault)
    (hp : c.x.prefire = none) :
    applyBody e (.chGet ch a) c = faultAs (faultRank .scalar 0x20 1) e .scalar stSync 0x20 (ch + 16) 0 false c.pc c := by
  rw [applyBody, show chGetOn c.ch[ch] a = none from if_neg (by omega)]
  exact remoteFault_of_ne_fault e ch (ch + 16) hst hp

/-- A row of the port applies a message of its kind that is due and of the current generation. -/
theorem exec_portRow_fresh {s : State} {g : Nat} {i : Instr} {p : Nat × LaneMsg} {rest : List (Nat × LaneMsg)} (hg : g < numCores)
    (hi : i ∈ portRows g) (hd : portDue (getRouter s g) (getNode s (panOf g)).steps = p :: rest) (hk : portKind i p.2.msg.body = true)
    (ho : localOver (envOf s g) (getCore s g) = true) (hf : fresh s g p.2.msg = true) (hr : p.2.msg.body.reserved = false)
    (hst : (getCore s g).r.st ≠ .defect) :
    exec i s =
      let s1 := setRouter s g { getRouter s g with port := (getRouter s g).port.erase p }
      .next (setCore s1 g (applyBody (envOf s1 g) p.2.msg.body (getCore s g))) := by
  rw [exec_portRow s hi, portEvent_of_due hg hd hk ho, applyPort_of_fresh _ hf hr hst]

theorem control_messages_apply : Claims.ControlMessagesApplyAtTheirCore := by
  intro s g f ch a ovf ls n gen cores i c' p rest r c e s1 bad hg hd hf hst
  have becomes : ∀ {i : Instr} {c2 : Core}, i ∈ portRows g → portKind i p.2.msg.body = true → p.2.msg.body.reserved = false →
      localOver e c = true → applyBody (envOf s1 g) p.2.msg.body c = c2 → exec i s = .next (setCore s1 g c2) := fun hi hk hr ho h =>
    (exec_portRow_fresh hg hi hd hk ho hf hr hst).trans (congrArg (fun c2 => Host.Outcome.next (setCore s1 g c2)) h)
  refine ⟨fun ho hm hi => ?_, fun ho hi => ?_, fun ho hnf hp => ⟨fun hb hbound => ?_, fun hb hbound => ?_⟩⟩
  · obtain ⟨hrow, hk, hr⟩ := messageOps_row hi
    exact becomes hrow hk hr ho (applyBody_of_messageOps rfl hm hi)
  · rw [exec_portRow s hi]
    exact portEvent_of_local _ hg ho
  · exact becomes (by simp [portRows]) (by rw [hb]; rfl) (by rw [hb]; rfl) ho (by rw [hb]; exact applyBody_chPut_over hbound hnf hp)
  · exact becomes (by simp [portRows]) (by rw [hb]; rfl) (by rw [hb]; rfl) ho (by rw [hb]; exact applyBody_chGet_over hbound hnf hp)

/-- What STEP_GUARD reads once a late result is written: OVF_JOB and LS_EXP are the result's, RDONE is set, the others stay
(06 R152, R154). -/
theorem lateGuard_fields (w : Word) (ovf : Bool) (ls : Byte) :
    let w' := setBit (setFld (setBit w 1 ovf) 8 8 ls.toNat) 3 true
    gRdone w' = true ∧ gJob w' = ovf ∧ gLs w' = ls ∧ gOvf w' = gOvf w ∧ gPar w' = gPar w := by
  refine ⟨?_, ?_, ?_, ?_, ?_⟩
  · simp [gRdone, getLsbD_setBit]
  · simp only [gJob, getLsbD_setBit, getLsbD_setFld]
    simp
  · apply BitVec.eq_of_getLsbD_eq
    intro j hj
    simp only [gLs, BitVec.getLsbD_extractLsb', getLsbD_setBit, getLsbD_setFld]
    rw [if_neg (by omega), if_pos (by omega), Nat.add_sub_cancel_left, BitVec.testBit_toNat]
    simp [hj]
  · simp only [gOvf, getLsbD_setBit, getLsbD_setFld]
    simp
  · simp only [gPar, getLsbD_setBit, getLsbD_setFld]
    simp

theorem late_guard_result_sets_rdone : Claims.LateGuardResultSetsRdone := by
  intro s g ovf ls p rest r c hg hd hb hf hst hph ho
  have becomes : ∀ {c2 : Core}, applyBody (envOf (setRouter s g { r with port := r.port.erase p }) g) p.2.msg.body c = c2 →
      exec (.guardRes g) s = .next (setCore (setRouter s g { r with port := r.port.erase p }) g c2) := fun h =>
    (exec_portRow_fresh hg (by simp [portRows]) hd (by rw [hb]; rfl) ho hf (by rw [hb]; rfl) hst).trans
      (congrArg (fun c2 => Host.Outcome.next (setCore _ g c2)) h)
  constructor
  · intro hm
    refine becomes ?_
    have hm' : memberCore (setRouter s g { r with port := r.port.erase p }) g = false := hm
    simp [hb, applyBody, envOf, hm']
  · intro hm
    have hm' : memberCore (setRouter s g { r with port := r.port.erase p }) g = true := hm
    obtain ⟨h1, h2, h3, h4, h5⟩ := lateGuard_fields c.guard ovf ls
    refine ⟨_, becomes rfl, ?_⟩
    simp only [hb, applyBody, envOf, hm', hph]
    refine ⟨h1, h2, h3, h4, h5, ?_, fun j hj => ?_, rfl⟩
    · simp [applyGuard, putP, predGet_predSet]
    · simp [applyGuard, putP, predGet_predSet, hj]

theorem stale_messages_only_count : Claims.StaleMessagesOnlyCount := by
  intro s g f set p rest r hwf hg hd hb hf ho
  rw [exec_portRow (g := g) s (by cases set <;> simp [portRows]),
    portEvent_of_due hg hd (by rw [hb]; cases set <;> rfl) ho, applyPort_of_stale _ hwf hf]

end Sys2Proof.Machine

open Sys2Proof Sys2Proof.Machine

/-- Settles O18: a row of the port applies the message that is due there, by what each message does to its core; a stale one leaves
the port and is counted. -/
theorem controlMessagesAtACore : Obligations.ControlMessagesAtACore :=
  ⟨control_messages_apply, late_guard_result_sets_rdone, stale_messages_only_count⟩
end

section
/-! O16: halt requests and HALT, the stall watchdog, and the start of cores (02 R40, R41; 07 R169, R181, R182; 14 R355). -/

namespace Sys2Proof.Machine

/-- A STEP.COMMIT that is not in phase 3 is not withdrawn. -/
theorem withdraw_of_none {e : Env} {c : Core} (h : c.x.phase3 = none) : withdraw e c = c := by
  unfold withdraw
  rw [h]

/-- The withdrawal of a STEP.COMMIT in phase 3 without its result: its bit returns, and its address is the program counter (06 R154). -/
theorem withdraw_of_phase3 {e : Env} {c : Core} {b : Bool} {d : Disp} {l : List Disp} (hb : c.x.phase3 = some b)
    (hg : c.x.gres = none) (hd : issueOf .scalar c = d :: l) :
    withdraw e c = { c with
      guard := gOrOvf c.guard b
      pc := d.pc
      x := { c.x with
        iss := c.x.iss.set 0 []
        phase3 := none
        urgent := c.x.urgent ++ [coreMsg e none (.guardWd 1 (gPar c.guard))] } } := by
  unfold withdraw
  rw [hb, hg, hd]

/-- A withdrawal leaves the halt request, fetch and the watchdog's mark. -/
theorem withdraw_halt (e : Env) (c : Core) :
    (withdraw e c).x.haltReq = c.x.haltReq ∧ (withdraw e c).x.fetch = c.x.fetch ∧ (withdraw e c).x.stalled = c.x.stalled := by
  unfold withdraw
  split <;> exact ⟨rfl, rfl, rfl⟩

/-- The overflow bit put back, and the other bits of STEP_GUARD. -/
theorem gOvf_gOrOvf (w : Word) (b : Bool) : gOvf (gOrOvf w b) = (gOvf w || b) := by
  unfold gOrOvf gOvf
  cases b
  · simp
  · rw [if_pos rfl, getLsbD_setBit]; simp

theorem getLsbD_gOrOvf (w : Word) (b : Bool) {j : Nat} (h : j ≠ 0) : (gOrOvf w b).getLsbD j = w.getLsbD j := by
  unfold gOrOvf
  cases b
  · rfl
  · rw [if_pos rfl, getLsbD_setBit]; simp [h]

/-- A halt request at a core that runs. -/
theorem requestHalt_of_run {e : Env} {c : Core} (h : c.r.st = .run) :
    requestHalt e c = withdraw e { c with x := { c.x with haltReq := true, fetch := .stopped } } := if_pos h

/-- A halt request at a core that runs with no STEP.COMMIT in phase 3 stops fetch and stands. -/
theorem requestHalt_of_idle {e : Env} {c : Core} (h : c.r.st = .run) (hp : c.x.phase3 = none) :
    requestHalt e c = { c with x := { c.x with haltReq := true, fetch := .stopped } } :=
  (requestHalt_of_run h).trans (withdraw_of_none hp)

/-- A halt request on its way reaches its core and is on its way no longer. -/
theorem exec_haltRequest {s : State} {g : Nat} (hg : g < numCores) (h : s.haltSent.contains g = true) :
    exec (.haltRequest g) s = .next (setCore { s with haltSent := s.haltSent.filter (· ≠ g) } g
      (requestHalt (envOf { s with haltSent := s.haltSent.filter (· ≠ g) } g) (getCore s g))) := by
  rw [show exec (.haltRequest g) s = execHaltRequest g s from rfl, execHaltRequest, if_pos h, onCore_of_lt _ _ hg]
  rfl

theorem exec_haltEntry {s : State} {g : Nat} (hg : g < numCores) :
    exec (.haltEntry g) s = .next (setCore s g (enterHalt (envOf s g) (getCore s g))) :=
  onCore_of_lt s enterHalt hg

theorem halt_requests_drain : Claims.HaltRequestsDrainIntoHalt := by
  intro s g c e hg hr
  refine ⟨fun hs hp => ?_, fun b d l hs hb hgr hd => ?_, fun hq hdr => ?_, fun hq hdr => ?_⟩
  · rw [exec_haltRequest hg hs, requestHalt_of_idle hr hp]
  · refine ⟨gOrOvf c.guard b, ?_, gOvf_gOrOvf _ _, fun j hj => getLsbD_gOrOvf _ _ hj⟩
    rw [exec_haltRequest hg hs]
    exact congrArg (fun c' => Host.Outcome.next (setCore _ g c')) ((requestHalt_of_run hr).trans (withdraw_of_phase3 hb hgr hd))
  · intro past
    have hrun : (decide (c.r.st = .run) && c.x.haltReq && drained e c) = true := by simp [hr, hq, hdr]
    have hpast : (0x4000 ≤ c.pc && foldActive c && decide (c.x.fetch ≠ .ended)) = true ↔ past := by
      simp [past, and_assoc]
    constructor
    · intro hp
      rw [exec_haltEntry hg, enterHalt, if_pos hrun, if_neg (mt hpast.mp hp)]
    · intro hp
      rw [exec_haltEntry hg, enterHalt, if_pos hrun, if_pos (hpast.mpr hp)]
  · rw [exec_haltEntry hg, enterHalt, if_neg (by simp [e, c] at hdr ⊢; simp [hdr])]

/-- Whether a step counts for the watchdog, by what stood at its start (07 R181). -/
theorem stallStep_iff (c : Core) :
    stallStep c = true ↔ c.x.start.fired = false ∧ c.x.start.drained = false ∧ ∃ q : Fin 8, c.x.start.iq[q].count = 16 := by
  have hany : c.x.start.iq.toList.any (fun q => decide (q.count = 16)) = true ↔ ∃ q : Fin 8, c.x.start.iq[q].count = 16 := by
    simp only [List.any_eq_true, decide_eq_true_eq, Vector.mem_toList_iff, Vector.mem_iff_getElem]
    constructor
    · rintro ⟨_, ⟨i, hi, rfl⟩, h⟩; exact ⟨⟨i, hi⟩, h⟩
    · rintro ⟨q, h⟩; exact ⟨_, ⟨q, q.isLt, rfl⟩, h⟩
  simp only [stallStep, Bool.and_eq_true, Bool.not_eq_true', hany, and_assoc]

/-- Below STALL_W, with STALL_W 0, or in a step that does not count, STALL is not raised (07 R181). -/
theorem stallRaised_eq_false {e : Env} {c : Core}
    (h : stallStep c = false ∨ c.stallW = 0 ∨ (c.wcount + 1).toNat < c.stallW.toNat) : stallRaised e c = false := by
  cases hs : stallStep c with
  | false => simp [stallRaised, hs]
  | true =>
    rcases h with h | h | h
    · simp [hs] at h
    · simp [stallRaised, h]
    · have hule : c.stallW.ule (nextWcount c) = false := by
        rw [nextWcount, if_pos hs, BitVec.ule_eq_decide]
        exact decide_eq_false (Nat.not_le.mpr h)
      simp [stallRaised, hule]

/-- At STALL_W, in a step that counts and in which nothing can still move, STALL is raised (07 R181). -/
theorem stallRaised_eq_true {e : Env} {c : Core} (hr : c.r.st = .run) (hs : stallStep c = true) (hw : c.stallW ≠ 0)
    (hle : c.stallW.toNat ≤ (c.wcount + 1).toNat) (hf : mayFire e c = false) (hd : mayDrain e c = false) : stallRaised e c = true := by
  have hule : c.stallW.ule (nextWcount c) = true := by
    rw [nextWcount, if_pos hs, BitVec.ule_eq_decide]
    exact decide_eq_true hle
  simpa [stallRaised, hr, hs, hule, hf, hd] using hw

theorem stall_watchdog_raises : Claims.StallWatchdogRaises := by
  intro s g c e full counts hg hr hst
  have hexec : exec (.stallWatchdog g) s = execStallWatchdog g s := rfl
  rw [hexec, execStallWatchdog, if_neg (Nat.not_le.mpr hg)]
  constructor
  · intro h
    have hno : stallRaised e c = false := stallRaised_eq_false (h.imp_left fun h => by
      simpa using mt (stallStep_iff c).mp h)
    simp only [show stallRaised (envOf s g) (getCore s g) = false from hno, Bool.not_false, Bool.true_or, if_true]
  · intro hc hw hle hf hd
    have hyes : stallRaised (envOf s g) (getCore s g) = true := stallRaised_eq_true hr ((stallStep_iff c).mpr hc) hw hle hf hd
    have hst' : (getCore s g).x.stalled = false := hst
    simp only [hyes, hst', Bool.not_true, Bool.or_self, Bool.false_eq_true, if_false]
    constructor
    · intro ha
      have hdbg : (if (envOf s g).part.isSome then (getPart s ((envOf s g).part.getD 0)).dbg else none) = none := by
        have ha' : (envOf s g).attached = false := ha
        cases hp : (envOf s g).part with
        | none => rfl
        | some k =>
          simp only [Env.attached, hp] at ha'
          exact Option.not_isSome_iff_eq_none.mp (Bool.not_eq_true _ ▸ ha')
      rw [hdbg]
    · intro k d hk hdb
      have hk' : (envOf s g).part = some k := hk
      simp only [hk', Option.isSome_some, if_true, Option.getD_some, hdb]
      obtain ⟨h1, h2, h3⟩ := withdraw_halt e { c with x := { c.x with stalled := true, haltReq := true, fetch := .stopped } }
      refine ⟨_, rfl, ?_⟩
      rw [requestHalt_of_run (c := { c with x := { c.x with stalled := true } }) hr]
      exact ⟨h1, h2, h3, fun hp => withdraw_of_none (e := e) hp⟩

/-- A core that differs in its queues, its units and the marks of drops alone. -/
def SteeredOnly (c c' : Core) : Prop := ∃ iq su drop, c' = { c with iq := iq, su := su, x := { c.x with drop := drop } }

theorem SteeredOnly.refl (c : Core) : SteeredOnly c c := ⟨c.iq, c.su, c.x.drop, rfl⟩

theorem SteeredOnly.trans {a b c : Core} (h : SteeredOnly a b) (h' : SteeredOnly b c) : SteeredOnly a c := by
  obtain ⟨_, _, _, rfl⟩ := h
  obtain ⟨iq, su, drop, rfl⟩ := h'
  exact ⟨iq, su, drop, rfl⟩

/-- The head of a queue that meets an open token's decision. -/
theorem steerHead_frame (q : Fin 8) (c : Core) : SteeredOnly c (steerHead q c) := by
  unfold steerHead
  split
  · exact .refl c
  · dsimp only
    split
    · exact .refl c
    · split
      · exact .refl c
      · split
        · exact ⟨_, c.su, _, rfl⟩
        · exact ⟨_, _, c.x.drop, rfl⟩

/-- Marking the heads of dropped tokens again. -/
theorem redrop_frame (c : Core) : SteeredOnly c (redrop c) :=
  List.foldlRecOn (motive := SteeredOnly c) _ _ (.refl c) fun c' h q _ =>
    iteInduction (fun _ => h.trans ⟨c'.iq, c'.su, _, rfl⟩) (fun _ => h.trans (steerHead_frame q c'))

/-- A core with valid pointer words enters RUN; after a load CAND takes START (02 R511; 07 R169). -/
theorem enterRun_of_valid (e : Env) (loaded : Bool) {c : Core} (h : badPointer c = none) :
    (enterRun e loaded c).r.st = .run ∧ (enterRun e loaded c).x.commit = c.x.commit ∧
      (enterRun e loaded c).folds = if loaded then c.folds.map (fun w => setCand w (fStart w)) else c.folds := by
  obtain ⟨iq, su, drop, hd⟩ := redrop_frame (if loaded then { c with folds := c.folds.map (fun w => setCand w (fStart w)) } else c)
  unfold enterRun
  rw [h]
  dsimp only
  rw [hd]
  cases loaded <;> exact ⟨rfl, rfl, rfl⟩

/-- CAND of a slot in which it was written. -/
theorem fCand_setCand (w : BitVec 512) (b : Bool) : fCand (setCand w b) = b := by
  rw [fCand, setCand, getLsbD_setBit, if_pos ⟨rfl, by decide⟩]

/-- What raising a vector leaves. -/
theorem raiseVec_cores (s : State) (v : Nat) : (raiseVec s v).cores = s.cores := by
  obtain ⟨x, h⟩ := raiseVec_eq s v
  rw [h]
  rfl

/-- What completing a long command leaves. -/
theorem completeLong_cores (k st : Nat) (res : List Nat) (s : State) : (completeLong k st res s).cores = s.cores := by
  unfold completeLong
  split
  · rfl
  · rw [complete_eq]
    split
    · exact raiseVec_cores _ _
    · rfl

/-- Whether CORE_START_RUN starts a core: it lies in the partition and waits in LOADED for a count that its pan has reached. -/
def startsNow (s : State) (k g : Nat) (c : Core) : Bool :=
  inPart s k g && decide (c.r.st = .loaded) &&
    (match c.x.commit with | some T => decide (T ≤ (getNode s (panOf g)).steps) | none => false)

/-- A core of partition k as CORE_START_RUN starts it (14 R355). -/
def startedCore (s : State) (k g : Nat) (c : Core) : Core :=
  let c1 := enterRun (envOf s g) (!(getPart s k).restored) { c with x := { c.x with commit := none } }
  let c2 := { c1 with x := { c1.x with bpSkip := false } }
  if decide ((getPart s k).st = .held) && decide (c2.r.st = .run) then { c2 with r := { c2.r with st := .hold } } else c2

/-- The cores after CORE_START_RUN: the result of a JOB_START does not touch them. -/
theorem exec_coreStartRun {s : State} (k : Fin 32) (hf : s.tide.frozen = false) (hwf : twf Core.zero s.cores = true) :
    ∃ t, exec (.coreStartRun k) s = .next t ∧
      ∀ g, getCore t g = if startsNow s k g (getCore s g) then startedCore s k g (getCore s g) else getCore s g := by
  have hget : ∀ (t : State) (g : Nat), t.cores = (startCores k s).cores →
      getCore t g = if startsNow s k g (getCore s g) then startedCore s k g (getCore s g) else getCore s g := by
    intro t g ht
    have hz : startsNow s k g Core.zero = false := by
      simp [startsNow, show Core.zero.r.st = .clear from rfl]
    rw [getCore, ht]
    exact tget_tmapv Core.zero (fun g c => if startsNow s k g c then startedCore s k g c else c) s.cores g hwf (by simp [hz])
  rw [show exec (.coreStartRun k) s = execCoreStartRun k s from rfl, execCoreStartRun, hf]
  refine ⟨_, rfl, fun g => hget _ g ?_⟩
  simp only [Bool.false_eq_true, if_false]
  split
  · split
    · exact completeLong_cores _ _ _ _
    · rfl
  · rfl

theorem cores_start_at_their_count : Claims.CoresStartAtTheirCount := by
  intro s k hf hwf
  obtain ⟨t, ht, hcore⟩ := exec_coreStartRun k hf hwf
  refine ⟨t, ht, fun g hg => ?_, fun g T hg hst hT hle hbp => ?_⟩
  · rw [hcore, if_neg (by simp [startsNow, hg])]
  · rw [hcore, if_pos (by simp [startsNow, hg, hst, hT, hle])]
    obtain ⟨h1, h2, h3⟩ := enterRun_of_valid (envOf s g) (!(getPart s k).restored)
      (c := { getCore s g with x := { (getCore s g).x with commit := none } }) hbp
    have hfolds : (startedCore s k g (getCore s g)).folds =
        if !(getPart s k).restored then (getCore s g).folds.map (fun w => setCand w (fStart w)) else (getCore s g).folds := by
      rw [← h3, startedCore]
      split <;> rfl
    refine ⟨?_, ?_, fun hr j => ?_⟩
    · by_cases hh : (getPart s k).st = .held
      · simp [startedCore, hh, h1]
      · simp [startedCore, hh, h1]
    · rw [startedCore]
      split <;> exact h2
    · rw [hfolds, hr]
      simp [fCand_setCand]

end Sys2Proof.Machine

open Sys2Proof Sys2Proof.Machine

/-- Settles O16: a halt request and the entry into HALT by their branches, STALL by when it is raised, CORE_START_RUN core by core. -/
theorem haltsStallsAndStarts : Obligations.HaltsStallsAndStarts :=
  ⟨halt_requests_drain, stall_watchdog_raises, cores_start_at_their_count⟩
end

section
/-! O8 and O12, refuted: neither statement asks that the tables it reads are in their canonical form. In a table whose keys do not rise,
a write of the default at a key behind a greater one finds no entry to remove, and the key reads as before. -/

namespace Sys2Proof.Machine

open Sys2Proof.Claims

/-- Removing a key that is below the first key of a table leaves the table, whatever stands behind. -/
theorem terase_of_lt_head {α : Type} (j k : Nat) (a : α) (t : Tbl α) (h : k < j) : terase ((j, a) :: t) k = (j, a) :: t := by
  rw [terase, if_neg (by omega), if_pos h]

/-- A core whose accumulator lists byte 256 ahead of byte 0. -/
def unsortedBanks : Core := { Core.zero with banks := [(256, 5), (0, 7)] }

/-- MZERO of block 0, in its only step. -/
def zeroBlock0 : Run :=
  { d := ⟨.mzero 0 0 0, 0, 0, false, 0, 0, []⟩, eng := .matrix, addr := 0, data := [], k := 0, next := 0, grp := [], rows := [],
    later := [], got := [], units := [] }

/-- Zeros written below the first key of a table, up to it, remove nothing. -/
theorem mwrite_zeros_of_lt_head (j : Nat) (b : Byte) (m : Mem) (a n : Nat) (h : a + n ≤ j) :
    mwrite ((j, b) :: m) a (List.replicate n 0) = (j, b) :: m := by
  induction n generalizing a with
  | zero => rfl
  | succ n ih =>
    rw [List.replicate_succ, mwrite, tset, if_pos rfl, terase_of_lt_head _ _ _ _ (by omega)]
    exact ih _ (by omega)

/-- MZERO leaves the accumulator of that core as it is. -/
theorem zeroBlock0_banks (e : Env) : (stepRun e [] [] zeroBlock0 unsortedBanks).banks = [(256, 5), (0, 7)] := by
  simp only [stepRun, serveRows, groupDone, runDone, zeroBlock0, List.isEmpty_nil, if_true]
  exact mwrite_zeros_of_lt_head 256 5 [(0, 7)] 0 256 (by decide)

theorem zeroing_fails_unsorted : ¬ Claims.ZeroingAndQueueStagingStep := by
  intro h
  obtain ⟨c', hstep, -, -, -, hzero⟩ := (h (envOf State.reset 0) [] [] zeroBlock0 unsortedBanks 0 0 0 0 0 rfl).1 rfl (by decide)
  have hbanks : c'.banks = [(256, 5), (0, 7)] := (congrArg Core.banks hstep).symm.trans (zeroBlock0_banks _)
  have hbyte := hzero 0
  rw [hbanks] at hbyte
  exact absurd hbyte (by decide)

/-- The image of a COPY slot: one row, from 0x4000 to 0x8000. -/
def copyOneRow : BitVec 256 := BitVec.ofNat 256 (1 + 0x4000 * 2 ^ 32 + 0x8000 * 2 ^ 64 + 31 * 2 ^ 96)

/-- A running core whose slot 0 has read its row, free of errors, and whose table of check bits lists word 0x2000 ahead of word 0x1000. -/
def unsortedEcc : Core :=
  { Core.zero with
    r := { CoreRegs.zero with st := .run }
    dma := (Vector.replicate 4 0).set 0 copyOneRow
    ecc := [(0x2000, 1), (0x1000, 2)]
    x := { CoreExec.zero with copied := (Vector.replicate 4 none).set 0 (some (0, 0)) } }

/-- The module after reset but for that core. -/
def unsortedModule : State := setCore State.reset 0 unsortedEcc

theorem getCore_unsortedModule : getCore unsortedModule 0 = unsortedEcc := getCore_setCore State.reset 0 unsortedEcc rfl

/-- The slot may write its row, and the bank of the destination serves it. -/
theorem unsorted_copy_ready :
    slotReady (envOf unsortedModule 0) 1 0 (getCore unsortedModule 0) = some copyOneRow ∧
      (slotAsk unsortedModule 0 0 (dDst copyOneRow + dProg copyOneRow)).1 = true := by
  decide +kernel

/-- COPY_ROW writes the row, and word 0x1000 stays uncorrectable. -/
theorem unsorted_copy_keeps_mark {c' : Core} (h : exec (.copyRow 0 0) unsortedModule = .next (setCore unsortedModule 0 c')) :
    tget 0 c'.ecc 0x1000 = 2 := by
  have hrun : execCopyRow 0 0 unsortedModule = .next (setCore unsortedModule 0 c') := h
  unfold execCopyRow at hrun
  have hcore := congrArg (fun t => getCore t 0) (onCore_next_iff.mp hrun).2
  simp only [getCore_setCore unsortedModule 0 _ (by decide +kernel)] at hcore
  rw [hcore]
  decide +kernel

theorem raw_slots_fail_unsorted : ¬ Claims.RawSlotsMoveOneRow := by
  intro h
  obtain ⟨hready, hserved⟩ := unsorted_copy_ready
  have hcopied : (getCore unsortedModule 0).x.copied[(0 : Fin 4)] = some (0, 0) := by rw [getCore_unsortedModule]; rfl
  obtain ⟨-, hwrite, -⟩ := h unsortedModule 0 0 copyOneRow (by decide)
  obtain ⟨c', hexec, -, -, -, -, hmarks, -⟩ := (hwrite 0 0 hready hcopied).2 hserved
  have hclean : tget 0 c'.ecc 0x1000 = 0 := hmarks (by decide +kernel) 0
  rw [unsorted_copy_keeps_mark hexec] at hclean
  exact absurd hclean (by decide)

end Sys2Proof.Machine

open Sys2Proof Sys2Proof.Machine

/-- Refutes O8: where the accumulator's table lists byte 256 ahead of byte 0, MZERO of block 0 leaves byte 0 at 7. The statement lacks
the canonical form of the memories that are written (Memory.wf). -/
theorem not_matrixMoves : ¬ Obligations.MatrixMoves := fun ⟨_, _, hzero⟩ => zeroing_fails_unsorted hzero

/-- Refutes O12: where the table of check bits lists word 0x2000 ahead of word 0x1000, the row that COPY writes without marks leaves word
0x1000 uncorrectable. The statement lacks the canonical form of that table. -/
theorem not_dmaSlotsMoveRowsAndEntries : ¬ Obligations.DmaSlotsMoveRowsAndEntries := fun ⟨_, hraw, _⟩ => raw_slots_fail_unsorted hraw
end

section
/-! What a core does when an engine takes an instruction, said once for each shared operation of the scalar and the vector engine
(02 R28; 03 R62). -/

namespace Sys2Proof.Machine

open Sys2Proof.Claims

variable {s : State} {g : Nat} {eng : Engine} {i : Instr} {k : Disp} {occ lat : Nat}

/-- The instruction that begins is the one that was dispatched. -/
theorem mayBegin_ins (h : mayBegin s g eng i k) : k.ins = i := (ready_some_iff.mp h.2).2.1

/-- An instruction whose turn it is and that waits for nothing else may begin. -/
theorem mayGo_mayBegin (h : mayGo s g eng i k) (hw : waitsDone (envOf s g) k (getCore s g) = true) : mayBegin s g eng i k :=
  ⟨h.1.1, by rw [mayGo_begins h, if_pos hw]⟩

/-- A scalar instruction that may begin applies its effect to the core that has taken it. -/
theorem onCore_scalarDo (h : mayBegin s g .scalar i k) (f : Disp → Core → Core) :
    onCore g s (scalarDo i occ lat f) = .next (setCore s g (f k (taken s g .scalar k occ lat))) := by
  rw [onCore_of_lt s _ h.1, scalarDo, h.2, taken]

/-- A vector instruction that may begin applies its effect to the core that has taken and counted it. -/
theorem onCore_vecDo (h : mayBegin s g .vector i k) (f : Disp → Core → Core) :
    onCore g s (vecDo i occ lat f) = .next (setCore s g (f k (vtaken s g k occ lat))) := by
  rw [onCore_of_lt s _ h.1, vecDo, h.2]
  rfl

/-- What the interlocks would put back does not depend on ACT_VEC. -/
theorem undoOf_actVec1 (c : Core) : undoOf (actVec1 c) = undoOf c := by
  funext r
  cases r <;> rfl

/-- The core that has counted and taken a vector instruction. -/
theorem beginIns_actVec1 (s : State) (g : Nat) (k : Disp) (occ lat : Nat) :
    beginIns (envOf s g) .vector k occ lat (actVec1 (getCore s g)) = vtaken s g k occ lat := by
  simp only [beginIns, undoOf_actVec1, vtaken, taken]
  rfl

/-- An instruction that works with SRAM, a queue or a bank and breaks no rule does its first step on the core that has taken it. -/
theorem onCore_runDo (h : mayBegin s g eng i k) (hf : beginFault (envOf s g) k (getCore s g) = none) :
    onCore g s (runDo eng i occ lat) = .next (setCore s g (stepRun (envOf s g) (asksNow (envOf s g) (taken s g eng k occ lat))
      (accAsks (envOf s g) (taken s g eng k occ lat)) (newRun (envOf s g) eng k (getCore s g)) (taken s g eng k occ lat))) := by
  rw [onCore_of_lt s _ h.1, runDo, h.2]
  simp only [runIns, hf]
  rfl

/-- Such an instruction that breaks a rule faults, and the core has not taken it. -/
theorem onCore_runDo_fault {code sub det : Nat} (h : mayBegin s g eng i k)
    (hf : beginFault (envOf s g) k (getCore s g) = some (code, sub, det)) :
    onCore g s (runDo eng i occ lat) = .next (setCore s g (insFault (envOf s g) k code sub det (getCore s g))) := by
  rw [onCore_of_lt s _ h.1, runDo, h.2]
  simp only [runIns, hf]

/-- A vector instruction that works with SRAM, a queue or a bank and breaks no rule does its first step on the core that has taken
and counted it. -/
theorem onCore_vecRun (h : mayBegin s g .vector i k) (hf : beginFault (envOf s g) k (getCore s g) = none) :
    onCore g s (vecRun i lat) = .next (setCore s g (stepRun (envOf s g) (asksNow (envOf s g) (vtaken s g k 1 lat))
      (accAsks (envOf s g) (vtaken s g k 1 lat)) (newRun (envOf s g) .vector k (getCore s g)) (vtaken s g k 1 lat))) := by
  have hf' : beginFault (envOf s g) k (actVec1 (getCore s g)) = none := hf
  rw [onCore_of_lt s _ h.1, vecRun, h.2]
  simp only [hf, Option.isNone_none, if_true, runIns, hf', beginIns_actVec1]
  rfl

/-- Such a vector instruction that breaks a rule faults, and the core has neither taken nor counted it. -/
theorem onCore_vecRun_fault {code sub det : Nat} (h : mayBegin s g .vector i k)
    (hf : beginFault (envOf s g) k (getCore s g) = some (code, sub, det)) :
    onCore g s (vecRun i lat) = .next (setCore s g (insFault (envOf s g) k code sub det (getCore s g))) := by
  rw [onCore_of_lt s _ h.1, vecRun, h.2]
  simp only [hf, Option.isNone_some, Bool.false_eq_true, if_false, runIns]

end Sys2Proof.Machine
end

section
/-! O1 and O60: the scalar operations and the comparisons (03 R65 to R68). -/

namespace Sys2Proof.Machine

open Sys2Proof.Claims

theorem fld_low (w : Word) (len : Nat) : fld w 0 len = w.toNat % 2 ^ len := by
  simp [fld, BitVec.extractLsb'_toNat]

theorem ite_slt {α : Type} (x y : Word) (u v : α) : (if x.slt y then u else v) = if x.toInt < y.toInt then u else v := by
  simp [BitVec.slt_iff_toInt_lt]

theorem ite_ult {α : Type} (x y : Word) (u v : α) : (if x.ult y then u else v) = if x.toNat < y.toNat then u else v := by
  simp [BitVec.ult_iff_toNat_lt]

theorem divU_eq (x y : Word) : divU x y = if y = 0 then BitVec.allOnes 32 else BitVec.ofNat 32 (x.toNat / y.toNat) := by
  unfold divU
  split
  · decide
  · rw [BitVec.udiv_def]

theorem remU_eq (x y : Word) : remU x y = if y = 0 then x else BitVec.ofNat 32 (x.toNat % y.toNat) := by
  unfold remU
  split
  · rfl
  · rw [BitVec.umod_def]

theorem divS_eq (x y : Word) : divS x y = if y = 0 then BitVec.allOnes 32 else BitVec.ofInt 32 (x.toInt.tdiv y.toInt) := by
  unfold divS
  split
  · decide
  · exact BitVec.eq_of_toInt_eq (by rw [BitVec.toInt_sdiv, BitVec.toInt_ofInt])

theorem remS_eq (x y : Word) : remS x y = if y = 0 then x else BitVec.ofInt 32 (x.toInt.tmod y.toInt) := by
  unfold remS
  split
  · rfl
  · rw [← BitVec.toInt_srem, BitVec.ofInt_toInt]

/-- Each scalar operation of two registers runs as the model's ALU operation that gives its value. -/
theorem exec_scalarOp (g : Nat) (d a b : Reg) (x y : Word) :
    ∀ p ∈ scalarOps g d a b x y, ∃ op, (∀ s, exec p.1 s = onCore g s (alu p.1 d a b p.2.1 p.2.2.1 op)) ∧ op x y = p.2.2.2 := by
  simp only [scalarOps, List.forall_mem_cons]
  exact ⟨⟨_, fun _ => rfl, rfl⟩, ⟨_, fun _ => rfl, rfl⟩, ⟨_, fun _ => rfl, rfl⟩, ⟨_, fun _ => rfl, rfl⟩, ⟨_, fun _ => rfl, rfl⟩,
    ⟨_, fun _ => rfl, by simp only [fld_low]; rfl⟩, ⟨_, fun _ => rfl, by simp only [fld_low]; rfl⟩,
    ⟨_, fun _ => rfl, by simp only [fld_low]; rfl⟩,
    ⟨_, fun _ => rfl, rfl⟩, ⟨_, fun _ => rfl, rfl⟩, ⟨_, fun _ => rfl, rfl⟩,
    ⟨_, fun _ => rfl, ite_slt x y x y⟩, ⟨_, fun _ => rfl, ite_slt x y y x⟩, ⟨_, fun _ => rfl, ite_ult x y x y⟩, ⟨_, fun _ => rfl, ite_ult x y y x⟩,
    ⟨_, fun _ => rfl, divU_eq x y⟩, ⟨_, fun _ => rfl, remU_eq x y⟩, ⟨_, fun _ => rfl, divS_eq x y⟩, ⟨_, fun _ => rfl, remS_eq x y⟩,
    by simp⟩

theorem scalar_two_register_results : Claims.ScalarTwoRegisterResults := by
  intro s g d a b k i occ lat v hmem h
  obtain ⟨op, hexec, hop⟩ := exec_scalarOp g d a b _ _ _ hmem
  rw [hexec s, alu, onCore_scalarDo h]
  exact congrArg (fun v => Host.Outcome.next (setCore s g { taken s g .scalar k occ lat with s := (getCore s g).s.set d v })) hop

/-- Each scalar operation with an immediate takes one step and writes its value on S[A]. -/
theorem exec_immediateOp (g : Nat) (d a : Reg) (imm : Word) (amt : Fin 32) (x : Word) :
    ∀ p ∈ immediateOps g d a imm amt x,
      ∃ op : Word → Word, (∀ s, exec p.1 s = onCore g s (scalarDo p.1 1 1 (fun _ c => putS d (op c.s[a]) c))) ∧ op x = p.2 := by
  simp only [immediateOps, List.forall_mem_cons]
  exact ⟨⟨(· + imm), fun _ => rfl, rfl⟩, ⟨(· &&& imm), fun _ => rfl, rfl⟩, ⟨(· ||| imm), fun _ => rfl, rfl⟩, ⟨(· ^^^ imm), fun _ => rfl, rfl⟩,
    ⟨(· <<< (amt : Nat)), fun _ => rfl, rfl⟩, ⟨(· >>> (amt : Nat)), fun _ => rfl, rfl⟩, ⟨(·.sshiftRight amt), fun _ => rfl, rfl⟩,
    ⟨fun _ => imm, fun _ => rfl, rfl⟩, by simp⟩

theorem scalar_immediate_results : Claims.ScalarImmediateResults := by
  intro s g d a imm amt k i v hmem h
  obtain ⟨op, hexec, hop⟩ := exec_immediateOp g d a imm amt _ _ hmem
  rw [hexec s, onCore_scalarDo h]
  exact congrArg (fun v => Host.Outcome.next (setCore s g { taken s g .scalar k 1 1 with s := (getCore s g).s.set d v })) hop

/-- A comparison of two words is the comparison of the numbers they spell. -/
theorem condHolds_eq (k : Cond) (x y : Word) : condHolds k x y = condAs k x y := by
  cases k with
  | eq => simp [condHolds, condAs, BitVec.toNat_inj, beq_eq_decide]
  | ne => simp [condHolds, condAs, BitVec.toNat_inj, bne, beq_eq_decide]
  | lt => rfl
  | ge => simp only [condHolds, condAs, BitVec.slt, ← decide_not, Int.not_lt]
  | ltu => rfl
  | geu => simp only [condHolds, condAs, BitVec.ult, ← decide_not, Nat.not_lt]

/-- Each instruction that writes a predicate takes one step and writes its bit. -/
theorem exec_predicateOp (g : Nat) (p : Pred) (c : Core) (a b : Reg) (k : Cond) (imm : Word) (pa pb : Pred) :
    ∀ q ∈ predicateOps g p c a b k imm pa pb, ∃ bit : Core → Bool,
      (∀ s, exec q.1 s = onCore g s (scalarDo q.1 1 1 (fun _ c => putP p (bit c) c))) ∧ (∀ x, bit { c with x := x } = q.2) := by
  simp only [predicateOps, List.forall_mem_cons]
  exact ⟨⟨_, fun _ => rfl, fun _ => condHolds_eq _ _ _⟩, ⟨_, fun _ => rfl, fun _ => condHolds_eq _ _ _⟩, ⟨_, fun _ => rfl, fun _ => rfl⟩,
    ⟨_, fun _ => rfl, fun _ => rfl⟩, ⟨_, fun _ => rfl, fun _ => rfl⟩, ⟨_, fun _ => rfl, fun _ => rfl⟩, by simp⟩

theorem comparisons_write_one_predicate : Claims.ComparisonsWriteOnePredicate := by
  intro s g p a b c imm pa pb k i v hmem h
  obtain ⟨bit, hexec, hbit⟩ := exec_predicateOp g p _ a b c imm pa pb _ hmem
  have hv : bit (taken s g .scalar k 1 1) = v := hbit _
  refine ⟨predSet (getCore s g).p p v, ?_, ?_, fun r hr => ?_, fun hp => ?_⟩
  · rw [hexec s, onCore_scalarDo h, hv]
    rfl
  · rw [predGet_predSet]
    by_cases hp : p = 0
    · simp [hp, predGet]
    · simp [hp]
  · rw [predGet_predSet, if_neg (fun hc => hr hc.1)]
  · rw [predSet, if_pos hp]

/-- A division gives its value in the scalar register alone and holds the engine for its 18 steps. -/
theorem division_gives {s : State} {g : Nat} {d a b : Reg} {k : Disp} {i : Instr} {v : Word}
    (hmem : (i, 18, 18, v) ∈ scalarOps g d a b (getCore s g).s[a] (getCore s g).s[b]) (h : mayBegin s g .scalar i k) :
    ∃ c', exec i s = .next (setCore s g c') ∧ c'.s = (getCore s g).s.set d v ∧ c'.r = (getCore s g).r ∧
      ∀ (e : Env) (j : Instr), e.now < (envOf s g).now + 18 → ready e .scalar j c' = none := by
  refine ⟨_, scalar_two_register_results s g d a b k i 18 18 v hmem h, rfl, rfl, fun e j he => ready_of_busy j ?_⟩
  simpa [taken, beginIns] using he

end Sys2Proof.Machine

open Sys2Proof Sys2Proof.Machine Sys2Proof.Claims

/-- Settles O1: each operation runs as the model's ALU step on the core that has taken it, and that step writes one register or one
predicate. -/
theorem scalarArithmeticWritesItsDestination : Obligations.ScalarArithmeticWritesItsDestination :=
  ⟨scalar_two_register_results, scalar_immediate_results, comparisons_write_one_predicate⟩

/-- Settles O60: the special results are those of the division's value, and the divider is busy for 18 steps. -/
theorem divisionNeverFaults : Obligations.DivisionNeverFaults := by
  intro s g d a b k c x y gives
  have hgives : ∀ i v, (i, 18, 18, v) ∈ scalarOps g d a b x y → gives i v := fun i v hmem h => division_gives hmem h
  refine ⟨fun hy => ?_, fun hx hy => ?_, fun i hi => ?_⟩
  · refine ⟨hgives _ _ ?_, hgives _ _ ?_, hgives _ _ ?_, hgives _ _ ?_⟩ <;> simp [scalarOps, hy]
  · refine ⟨hgives _ _ ?_, hgives _ _ ?_⟩ <;> simp [scalarOps, hx, hy]
  · simp only [List.mem_cons, List.not_mem_nil, or_false] at hi
    rcases hi with rfl | rfl | rfl | rfl
    · exact ⟨_, hgives _ _ (List.mem_of_getElem? (i := 15) rfl)⟩
    · exact ⟨_, hgives _ _ (List.mem_of_getElem? (i := 17) rfl)⟩
    · exact ⟨_, hgives _ _ (List.mem_of_getElem? (i := 16) rfl)⟩
    · exact ⟨_, hgives _ _ (List.mem_of_getElem? (i := 18) rfl)⟩
end

section
/-! O3: jumps, queue reads and control registers (03 R63, R70 to R72; 02 R47, R48). -/

namespace Sys2Proof.Machine

open Sys2Proof.Claims

/-- A jump that may begin goes to its target. -/
theorem exec_jumpOp {s : State} {g : Nat} {d a : Reg} {off : BitVec 15} {k : Disp} {i : Instr} {t : Word} {link : Option Reg}
    (hmem : (i, t, link) ∈ jumpOps g d a off k.pc (getCore s g).s[a]) (h : mayBegin s g .scalar i k) :
    exec i s = .next (setCore s g (branchTo (envOf s g) k t link (getCore s g))) := by
  have rel : ∀ link, onCore g s (jumpRel i off link) =
      .next (setCore s g (branchTo (envOf s g) k (BitVec.ofNat 32 k.pc + 4 * off.signExtend 32) link (getCore s g))) := by
    intro link
    rw [onCore_of_lt s _ h.1, jumpRel, h.2]
  have reg : ∀ link, onCore g s (jumpReg i a link) = .next (setCore s g (branchTo (envOf s g) k (getCore s g).s[a] link (getCore s g))) := by
    intro link
    rw [onCore_of_lt s _ h.1, jumpReg, h.2]
  simp only [jumpOps, List.mem_cons, Prod.mk.injEq, List.not_mem_nil, or_false] at hmem
  rcases hmem with ⟨rfl, rfl, rfl⟩ | ⟨rfl, rfl, rfl⟩ | ⟨rfl, rfl, rfl⟩ | ⟨rfl, rfl, rfl⟩
  · exact rel none
  · exact rel (some d)
  · exact reg none
  · exact reg (some d)

/-- A jump that lands: fetch goes on at the target, and the link register takes the return address. -/
theorem branchTo_of_target {e : Env} {k : Disp} {t : Word} (link : Option Reg) (c : Core) (ht : t.toNat < 0x4000 ∧ t.toNat % 4 = 0) :
    branchTo e k t link c = { redirect e t.toNat (beginIns e .scalar k 1 1 c) with
      s := match link with | some r => c.s.set r (BitVec.ofNat 32 (k.pc + 4)) | none => c.s } := by
  rw [branchTo, if_neg (by omega)]
  cases link <;> rfl

/-- A jump that does not land faults. -/
theorem branchTo_of_bad {e : Env} {k : Disp} {t : Word} (link : Option Reg) (c : Core) (ht : ¬(t.toNat < 0x4000 ∧ t.toNat % 4 = 0)) :
    branchTo e k t link c = insFault e k stBounds 0x07 (t.toNat % 65536) c := by
  rw [branchTo, if_pos (by omega)]

theorem jumps_redirect_fetch : Claims.JumpsRedirectFetch := by
  intro s g d a off k i t link c hmem h
  refine ⟨fun ht => ?_, fun ht => ?_⟩
  · refine ⟨_, by rw [exec_jumpOp hmem h, branchTo_of_target link c ht], rfl, ?_, rfl, fun hq => ?_, rfl, rfl⟩
    · cases link <;> rfl
    · show (if c.x.haltReq = true then Fetch.stopped else Fetch.going) = Fetch.going
      rw [hq, if_neg Bool.false_ne_true]
  · rw [exec_jumpOp hmem h, branchTo_of_bad link c ht]

/-- A control register reads the same once the core has taken an instruction. -/
theorem crRead_beginIns (e : Env) (eng : Engine) (k : Disp) (occ lat : Nat) (c : Core) (off : Nat) :
    crRead e (beginIns e eng k occ lat c) off = crRead e c off := rfl

theorem queue_and_control_register_reads : Claims.QueueAndControlRegisterReads := by
  intro s g d a q w rem off k c t word
  refine ⟨fun h => ?_, fun h => ?_, fun h => ?_⟩
  · rw [show exec (.qrd g d q w rem) s = execQrd g d q w rem s from rfl, execQrd, onCore_of_lt s _ h.1, h.2]
    rfl
  · rw [show exec (.crr g d off) s = execCrr g d off s from rfl, execCrr, onCore_of_lt s _ h.1, scalarDo, h.2]
    by_cases hoff : off = 0x24#8
    · simp only [crRead_beginIns, hoff, if_true]
      rfl
    · simp only [crRead_beginIns, hoff, if_false]
      rfl
  · rw [show exec (.crw g a off) s = execCrw g a off s from rfl, execCrw, onCore_scalarDo h]
    by_cases hoff : off = 0x2C#8
    · simp only [hoff, if_true]
      rfl
    · simp only [hoff, if_false]
      rfl

end Sys2Proof.Machine

open Sys2Proof Sys2Proof.Machine Sys2Proof.Claims

/-- Settles O3: a jump by whether its target lies in the code window, QRD, CRR and CRW by the effect each has on the core that has
taken it. -/
theorem jumpsQueueReadsAndControlRegisters : Obligations.JumpsQueueReadsAndControlRegisters :=
  ⟨jumps_redirect_fetch, queue_and_control_register_reads⟩
end

section
/-! O57 and O58: the words that a core decodes, and a word of OP 0 at its fetch (03 R55 to R58; 02 R29). -/

namespace Sys2Proof.Machine

open Sys2Proof.Claims

/-- The short word with predicate field pr, opcode op, registers d and a, and low as its ten low bits (03 R55 to R57). -/
def coreWord (pr : Fin 16) (op : Nat) (d a : Reg) (low : Nat) : Word :=
  BitVec.ofNat 32 ((pr : Nat) * 2 ^ 27 + op * 2 ^ 20 + (d : Nat) * 2 ^ 15 + (a : Nat) * 2 ^ 10 + low)

section
variable (pr : Fin 16) {op : Nat} (d a b : Reg) {low fn : Nat}

theorem fld_coreWord_op (ho : op < 128) (hl : low < 1024) : fld (coreWord pr op d a low) 20 7 = op := by
  rw [coreWord, fld_ofNat _ (by decide)]
  omega

theorem coreWord_short (ho : op < 128) (hl : low < 1024) : (coreWord pr op d a low).getLsbD 31 = false := by
  rw [coreWord, getLsbD_ofNat_eq _ (by decide)]
  simp only [decide_eq_false_iff_not]
  omega

theorem fld5_coreWord_d (hl : low < 1024) : fld5 (coreWord pr op d a low) 15 = d := by
  rw [fld5, coreWord, fld_ofNat _ (by decide)]
  apply Fin.ext
  rw [Fin.val_ofNat]
  omega

theorem fld5_coreWord_a (hl : low < 1024) : fld5 (coreWord pr op d a low) 10 = a := by
  rw [fld5, coreWord, fld_ofNat _ (by decide)]
  apply Fin.ext
  rw [Fin.val_ofNat]
  omega

/-- A field of the ten low bits. -/
theorem fld_coreWord_low {lo len : Nat} (h : lo + len ≤ 10) : fld (coreWord pr op d a low) lo len = low / 2 ^ lo % 2 ^ len := by
  obtain ⟨n, hn⟩ : ∃ n, 10 = lo + (len + n) := ⟨10 - lo - len, by omega⟩
  have hword : (pr : Nat) * 2 ^ 27 + op * 2 ^ 20 + (d : Nat) * 2 ^ 15 + (a : Nat) * 2 ^ 10 + low =
      low + 2 ^ lo * (2 ^ len * (2 ^ n * ((pr : Nat) * 2 ^ 17 + op * 2 ^ 10 + (d : Nat) * 2 ^ 5 + a))) := by
    rw [← Nat.mul_assoc (2 ^ len), ← Nat.mul_assoc (2 ^ lo), ← Nat.pow_add, ← Nat.pow_add, ← hn]
    omega
  rw [coreWord, fld_ofNat _ (by omega), hword, Nat.add_mul_div_left _ _ (Nat.two_pow_pos lo), Nat.add_mul_mod_self_left]

/-- The register B of the R layout. -/
theorem fld5_coreWord_b (hf : fn < 32) : fld5 (coreWord pr op d a ((b : Nat) * 2 ^ 5 + fn)) 5 = b := by
  rw [fld5, fld_coreWord_low _ _ _ (by decide)]
  apply Fin.ext
  rw [Fin.val_ofNat]
  omega

/-- The immediate of the I layout. -/
theorem extract_coreWord (imm : BitVec 10) : (coreWord pr op d a imm.toNat).extractLsb' 0 10 = imm := by
  apply BitVec.eq_of_toNat_eq
  have h := fld_coreWord_low (op := op) (low := imm.toNat) pr d a (lo := 0) (len := 10) (by decide)
  have := imm.isLt
  rw [fld] at h
  omega

/-- A word of the R layout whose FN selects its operation has one of the ALU group's 19. -/
theorem decode_aluWord (g : Nat) (hf : fn < 32) (w2 : Word) :
    decodeCore g (coreWord pr 0x01 d a ((b : Nat) * 2 ^ 5 + fn)) w2 =
      if 18 < fn then .error (1, fn) else .ok (aluOf fn g d a b) := by
  have hl : (b : Nat) * 2 ^ 5 + fn < 1024 := by omega
  have hfn : fld (coreWord pr 0x01 d a ((b : Nat) * 2 ^ 5 + fn)) 0 5 = fn := by
    rw [fld_coreWord_low _ _ _ (by decide)]
    omega
  simp only [decodeCore, fld_coreWord_op pr d a (by decide : 1 < 128) hl, Nat.reduceLT, if_true, decodeScalar, fld5_coreWord_d pr d a hl,
    fld5_coreWord_a pr d a hl, fld5_coreWord_b pr d a b hf, hfn, coreWord_short pr d a (by decide : 1 < 128) hl]
  by_cases h18 : 18 < fn <;> simp [pick, when, h18]

/-- What the decoder of the vector range sees of a short word of the R layout with RM 0: its registers and its lane format. -/
theorem decode_vectorWord (g : Nat) {v : Nat} (hv : v < 3) (w2 : Word) :
    let w := fun op => coreWord pr op d a ((b : Nat) * 2 ^ 5 + 4 * v)
    decodeCore g (w 0x25) w2 = .ok (.vmin g d a b (laneOf v)) ∧ decodeCore g (w 0x26) w2 = .ok (.vmax g d a b (laneOf v)) ∧
      decodeCore g (w 0x28) w2 = .ok (.vsel g d a b (laneOf v)) := by
  have hl : (b : Nat) * 2 ^ 5 + 4 * v < 1024 := by omega
  have hvf : ∀ op, fld (coreWord pr op d a ((b : Nat) * 2 ^ 5 + 4 * v)) 2 3 = v := fun op => by
    rw [fld_coreWord_low _ _ _ (by decide)]
    omega
  have hrm : ∀ op, fld (coreWord pr op d a ((b : Nat) * 2 ^ 5 + 4 * v)) 0 2 = 0 := fun op => by
    rw [fld_coreWord_low _ _ _ (by decide)]
    omega
  have hok : ¬ 2 < v := by omega
  refine ⟨?_, ?_, ?_⟩ <;>
    simp only [decodeCore, fld_coreWord_op, coreWord_short, hl, Nat.reduceLT, if_true, if_false, decodeVector, fld5_coreWord_d, fld5_coreWord_a,
      fld5_coreWord_b pr d a b (show 4 * v < 32 by omega), hvf, hrm, vfBad, rmZero, hok, decide_false] <;>
    rfl

/-- VEXT and VINS take their lane from the field of B. -/
theorem decode_laneWord (g : Nat) (w2 : Word) :
    decodeCore g (coreWord pr 0x38 d a ((b : Nat) * 2 ^ 5 + 0)) w2 = .ok (.vext g d a b) ∧
      decodeCore g (coreWord pr 0x39 d a ((b : Nat) * 2 ^ 5 + 0)) w2 = .ok (.vins g d a b) := by
  have hl : (b : Nat) * 2 ^ 5 + 0 < 1024 := by omega
  have hfn : ∀ op, fld (coreWord pr op d a ((b : Nat) * 2 ^ 5 + 0)) 0 5 = 0 := fun op => by
    rw [fld_coreWord_low _ _ _ (by decide)]
    omega
  constructor <;>
    simp only [decodeCore, fld_coreWord_op, coreWord_short, hl, Nat.reduceLT, if_true, if_false, decodeVector, fld5_coreWord_d, fld5_coreWord_a,
      fld5_coreWord_b pr d a b (show 0 < 32 by decide), hfn] <;>
    rfl

/-- ADDI, ORI and LI in the short form take their immediate from the ten low bits. -/
theorem decode_immediateWords (g : Nat) (imm : BitVec 10) (w2 : Word) :
    decodeCore g (coreWord pr 0x02 d a imm.toNat) w2 = .ok (.addi g d a (imm.signExtend 32)) ∧
      decodeCore g (coreWord pr 0x04 d a imm.toNat) w2 = .ok (.ori g d a (imm.setWidth 32)) ∧
      decodeCore g (coreWord pr 0x09 d 0 imm.toNat) w2 = .ok (.li g d (imm.signExtend 32)) := by
  have hl : imm.toNat < 1024 := imm.isLt
  refine ⟨?_, ?_, ?_⟩ <;>
    simp only [decodeCore, fld_coreWord_op, coreWord_short, hl, Nat.reduceLT, if_true, decodeScalar, fld5_coreWord_d, fld5_coreWord_a, immOk, immS,
      immZ, Bool.false_eq_true, if_false, extract_coreWord] <;>
    rfl

end

/-- The words of the table decode to its instructions. -/
theorem decode_wordsR (g : Nat) (pr : Fin 16) (d a b : Reg) (w2 : Word) :
    ∀ p ∈ wordsR g d a b, decodeCore g (coreWord pr p.1 d a ((b : Nat) * 2 ^ 5 + p.2.1)) w2 = .ok p.2.2 := by
  have alu : ∀ fn, fn ≤ 18 → decodeCore g (coreWord pr 0x01 d a ((b : Nat) * 2 ^ 5 + fn)) w2 = .ok (aluOf fn g d a b) := fun fn hfn => by
    rw [decode_aluWord pr d a b g (by omega) w2, if_neg (by omega)]
  obtain ⟨vminH, -, vselH⟩ := decode_vectorWord pr d a b g (v := 0) (by decide) w2
  obtain ⟨vminW, vmaxW, -⟩ := decode_vectorWord pr d a b g (v := 1) (by decide) w2
  obtain ⟨vminI, -, -⟩ := decode_vectorWord pr d a b g (v := 2) (by decide) w2
  obtain ⟨vext, vins⟩ := decode_laneWord pr d a b g w2
  simp only [wordsR, List.forall_mem_cons]
  exact ⟨alu 0 (by decide), alu 1 (by decide), alu 2 (by decide), alu 3 (by decide), alu 4 (by decide), alu 5 (by decide), alu 6 (by decide),
    alu 7 (by decide), alu 8 (by decide), alu 9 (by decide), alu 10 (by decide), alu 11 (by decide), alu 12 (by decide), alu 13 (by decide),
    alu 14 (by decide), alu 15 (by decide), alu 16 (by decide), alu 17 (by decide), alu 18 (by decide), vminH, vminW, vminI, vmaxW, vselH,
    vext, vins, by simp⟩

-- OP 0 -----------------------------------------------------------------------------------------------------------

/-- A word of OP 0 of an engine's range has one of four opcodes. -/
theorem opcode_of_op0 {w : Word} (h : fld w 20 5 = 0) : ∃ n < 4, fld w 20 7 = 32 * n ∧ fld w 25 2 = n := by
  refine ⟨fld w 25 2, ?_⟩
  simp only [fld, BitVec.extractLsb'_toNat, Nat.shiftRight_eq_div_pow] at h ⊢
  have hdiv : w.toNat / 2 ^ 25 = w.toNat / 2 ^ 20 / 2 ^ 5 := by rw [Nat.div_div_eq_div_mul, ← Nat.pow_add]
  exact ⟨by omega, by omega, trivial⟩

/-- A word of OP 0 of an engine's range decodes to no instruction. -/
theorem decodeCore_of_op0 (g : Nat) {w : Word} (w2 : Word) (h : fld w 20 5 = 0) : decodeCore g w w2 = .error (1, 0) := by
  obtain ⟨n, hn, hop, -⟩ := opcode_of_op0 h
  rw [decodeCore, hop]
  match n, hn with
  | 0, _ => rfl
  | 1, _ => rfl
  | 2, _ => rfl
  | 3, _ => rfl

/-- The engine of such a word. -/
theorem engineOfOp_of_op0 {w : Word} (h : fld w 20 5 = 0) : engineOfOp (fld w 20 7) = engOf (fld w 25 2) := by
  obtain ⟨n, hn, hop, heng⟩ := opcode_of_op0 h
  rw [engineOfOp, hop, heng, Nat.mul_div_cancel_left _ (by decide)]

/-- Dispatching such a word faults with FORMAT. -/
theorem dispatch_of_op0 (e : Env) {w : Word} (w2 : Word) (c : Core) (h : fld w 20 5 = 0) :
    dispatch e w w2 c = coreFault e (engOf (fld w 25 2)) stFormat 0x01 0 (fld w 20 7) (w.getLsbD 31) c.pc c := by
  simp only [dispatch, decodeCore_of_op0 e.g w2 h, engineOfOp_of_op0 h]

/-- A short word is dispatched at once. -/
theorem fetchSecond_of_short (e : Env) {w : Word} (asked : Bool) (c : Core) (h : w.getLsbD 31 = false) :
    fetchSecond e w asked c = dispatch e w 0 c := by
  rw [fetchSecond, h]
  rfl

/-- A 64-bit word whose second word is in the buffer, free of errors, is dispatched with it. -/
theorem fetchSecond_of_word (e : Env) {w w2 : Word} (asked : Bool) {c : Core} (h : w.getLsbD 31 = true) (hin : c.pc + 4 < 0x4000)
    (hw2 : bufWord c (c.pc + 4) = some w2) (hecc : eccBad c (c.pc + 4) 4 = none) : fetchSecond e w asked c = dispatch e w w2 c := by
  rw [fetchSecond, h]
  simp only [Bool.not_true, Bool.false_eq_true, if_false, if_neg (Nat.not_le.mpr hin), hw2, hecc]

/-- A 64-bit word whose second word would lie past the code window faults before it is decoded. -/
theorem fetchSecond_of_end (e : Env) {w : Word} (asked : Bool) (c : Core) (h : w.getLsbD 31 = true) (hend : 0x4000 ≤ c.pc + 4) :
    fetchSecond e w asked c = coreFault e (engineOfOp (fld w 20 7)) stBounds 0x08 0 (fld w 20 7) true c.pc c := by
  rw [fetchSecond, h, if_neg (by decide), if_pos hend]

/-- A fetch that meets no comparator and finds its first word in the buffer, free of errors, goes on with it. -/
theorem exec_fetch_of_word {s : State} {g : Nat} {w : Word} (hg : g < numCores) (hon : fetchOn (envOf s g) (getCore s g) = true)
    (hfw : (getCore s g).x.fw1 = none) (hpc : (getCore s g).pc < 0x4000) (hw : bufWord (getCore s g) (getCore s g).pc = some w)
    (hecc : eccBad (getCore s g) (getCore s g).pc 4 = none) (hmask : (getStation s (stationOf g)).mask = 0) :
    exec (.instructionFetch g) s = .next (setCore s g (fetchSecond (envOf s g) w false (getCore s g))) := by
  rw [show exec (.instructionFetch g) s = execInstructionFetch g s from rfl, execInstructionFetch, if_neg (Nat.not_le.mpr hg)]
  simp only [hmask, show ∀ i, (0 : BitVec 64).getLsbD i = false from fun i => BitVec.getLsbD_zero, Bool.false_and, fetchStep, hon, Bool.not_true,
    Bool.false_eq_true, if_false, hfw, if_neg (Nat.not_le.mpr hpc), hw, hecc]

end Sys2Proof.Machine

open Sys2Proof Sys2Proof.Machine Sys2Proof.Claims

/-- Settles O57: the fields that the decoder reads are those that the word is spelled from, at every value; each word of the table then
decodes by its opcode and FN. -/
theorem coreWordsDecode : Obligations.CoreWordsDecode := by
  intro g d a b pr op fn i imm w2 word wordI
  have hword : ∀ op fn, word op fn = coreWord pr op d a ((b : Nat) * 2 ^ 5 + fn) := fun op fn => by
    simp only [word, coreWord, Nat.add_assoc]
  obtain ⟨haddi, hori, hli⟩ := decode_immediateWords pr d a g imm w2
  refine ⟨fun hmem => ?_, fun h18 h32 => ?_, haddi, hori, ?_⟩
  · rw [hword]
    exact decode_wordsR g pr d a b w2 (op, fn, i) hmem
  · rw [hword, decode_aluWord pr d a b g h32 w2, if_pos h18]
  · exact hli

/-- Settles O58: such a word decodes to no instruction, so its dispatch faults; a 64-bit one at 0x3FFC faults before it is decoded. That
BOUNDS comes ahead of FORMAT there is the model's reading, log 18. -/
theorem zeroWordsFaultAtFetch : Obligations.ZeroWordsFaultAtFetch := by
  intro s g w w2 hop c e
  refine ⟨decodeCore_of_op0 g w2 hop, by decide, fun hg hlive hgo hat hhalt hfw hpc hw hecc hmask => ?_⟩
  have hon : fetchOn (envOf s g) (getCore s g) = true := by
    rw [fetchOn, hlive, decide_eq_true hgo, decide_eq_true hat, hhalt]
    rfl
  rw [exec_fetch_of_word hg hon hfw hpc hw hecc hmask]
  refine ⟨fun h => ?_, fun hlong hend => ?_⟩
  · rcases h with hshort | ⟨hin, hw2, hecc2⟩
    · rw [fetchSecond_of_short _ _ _ hshort, dispatch_of_op0 _ _ _ hop]
    · rcases Bool.eq_false_or_eq_true (w.getLsbD 31) with hlong | hshort
      · rw [fetchSecond_of_word _ _ hlong hin hw2 hecc2, dispatch_of_op0 _ _ _ hop]
      · rw [fetchSecond_of_short _ _ _ hshort, dispatch_of_op0 _ _ _ hop]
  · rw [fetchSecond_of_end _ _ _ hlong hend, engineOfOp_of_op0 hop]
end

section
/-! The instructions that read or write the bytes of SRAM at an address, and their rows at the banks (02 R29 to R31, R46; 03 R69, R88, R89). -/

namespace Sys2Proof.Machine

-- Bytes and words ------------------------------------------------------------------------------------------------

/-- A byte of the number that bytes spell. -/
theorem natOfBytes_byte (bs : List Byte) (j : Nat) : natOfBytes bs / 256 ^ j % 256 = (bs.getD j 0).toNat := by
  induction bs generalizing j with
  | nil => simp [natOfBytes]
  | cons b bs ih =>
    have hb := b.isLt
    cases j with
    | zero =>
      rw [natOfBytes, List.getD_cons_zero]
      omega
    | succ j =>
      rw [natOfBytes, List.getD_cons_succ, ← ih j, Nat.pow_succ', ← Nat.div_div_eq_div_mul]
      congr 2
      omega

/-- A byte of the word that bytes spell. -/
theorem byteAt_ofBytes {n : Nat} (bs : List Byte) {j : Nat} (h : 8 * j + 8 ≤ n) : byteAt (ofBytes n bs) j = bs.getD j 0 := by
  apply BitVec.eq_of_toNat_eq
  have hf := fld_ofNat (n := n) (lo := 8 * j) (len := 8) (natOfBytes bs) h
  rw [fld] at hf
  rw [byteAt, ofBytes, hf, Nat.pow_mul, ← natOfBytes_byte]
  rfl

theorem getD_mread (m : Mem) (a : Nat) {n i : Nat} (h : i < n) : (mread m a n).getD i 0 = tget 0 m (a + i) := by
  simp [mread, List.getD_eq_getElem?_getD, h]

/-- A byte of a row of memory, as an instruction holds it. -/
theorem byteAt_row (m : Mem) (a : Nat) : byteAt (ofBytes 256 (mread m (32 * (a / 32)) 32)) (a % 32) = tget 0 m a := by
  have h : a % 32 < 32 := Nat.mod_lt a (by decide)
  rw [byteAt_ofBytes _ (by omega), getD_mread m _ h, Nat.div_add_mod]

theorem length_bytesOf {w : Nat} (v : BitVec w) (n : Nat) : (bytesOf v n).length = n := by simp [bytesOf]

theorem getD_bytesOf {w : Nat} (v : BitVec w) {n i : Nat} (h : i < n) : (bytesOf v n).getD i 0 = byteAt v i := by
  simp [bytesOf, List.getD_eq_getElem?_getD, h]

-- Corrected words ------------------------------------------------------------------------------------------------

/-- Counting corrected words leaves everything but SRAM_CE. -/
theorem eccCount_eq (a n : Nat) (c : Core) : ∃ x, eccCount a n c = { c with r := { c.r with sramCe := x } } := by
  unfold eccCount
  dsimp only
  split
  · exact ⟨c.r.sramCe, rfl⟩
  · exact ⟨_, rfl⟩

@[simp] theorem eccCount_sram (a n : Nat) (c : Core) : (eccCount a n c).sram = c.sram := by
  obtain ⟨x, h⟩ := eccCount_eq a n c
  rw [h]

@[simp] theorem eccCount_ecc (a n : Nat) (c : Core) : (eccCount a n c).ecc = c.ecc := by
  obtain ⟨x, h⟩ := eccCount_eq a n c
  rw [h]

@[simp] theorem eccCount_s (a n : Nat) (c : Core) : (eccCount a n c).s = c.s := by
  obtain ⟨x, h⟩ := eccCount_eq a n c
  rw [h]

@[simp] theorem eccCount_v (a n : Nat) (c : Core) : (eccCount a n c).v = c.v := by
  obtain ⟨x, h⟩ := eccCount_eq a n c
  rw [h]

@[simp] theorem eccCount_x (a n : Nat) (c : Core) : (eccCount a n c).x = c.x := by
  obtain ⟨x, h⟩ := eccCount_eq a n c
  rw [h]

theorem eccBad_congr {c c' : Core} (h : c'.ecc = c.ecc) (a n : Nat) : eccBad c' a n = eccBad c a n := by
  rw [eccBad, eccBad, h]

-- Loads and stores -----------------------------------------------------------------------------------------------

/-- The instructions that read SRAM bytes at an address into a register. -/
inductive LoadsBytes : Instr → Prop
  | ldw (g : Nat) (d a : Reg) (imm : Word) : LoadsBytes (.ldw g d a imm)
  | ldh (g : Nat) (d a : Reg) (imm : Word) : LoadsBytes (.ldh g d a imm)
  | ldhu (g : Nat) (d a : Reg) (imm : Word) : LoadsBytes (.ldhu g d a imm)
  | ldb (g : Nat) (d a : Reg) (imm : Word) : LoadsBytes (.ldb g d a imm)
  | ldbu (g : Nat) (d a : Reg) (imm : Word) : LoadsBytes (.ldbu g d a imm)
  | vld (g : Nat) (d a : Reg) (imm : Word) : LoadsBytes (.vld g d a imm)

/-- The instructions that write bytes of a register to SRAM at an address. -/
inductive StoresBytes : Instr → Prop
  | stw (g : Nat) (d a : Reg) (imm : Word) : StoresBytes (.stw g d a imm)
  | sth (g : Nat) (d a : Reg) (imm : Word) : StoresBytes (.sth g d a imm)
  | stb (g : Nat) (d a : Reg) (imm : Word) : StoresBytes (.stb g d a imm)
  | vst (g : Nat) (d a : Reg) (imm : Word) : StoresBytes (.vst g d a imm)

/-- What loads and stores have in common: an access of some bytes at an address, checked as it begins, in one group of rows, with no work
but that of its rows. -/
structure MovesBytes (i : Instr) : Prop where
  len : 0 < accessLen i
  fault : ∀ (e : Env) (k : Disp) (c : Core), k.ins = i → beginFault e k c =
    (accessFault (memAddr c k) (accessLen i) (accessLen i)).map (fun p => (stBounds, p.1, p.2))
  groups : ∀ (c : Core) (k : Disp), k.ins = i → groupsOf c k = [dataRows (memAddr c k) (accessLen i)]
  span : ∀ (r : Run) (q : RowReq), r.d.ins = i →
    rowSpan r q = (max r.addr (32 * q.row), min (r.addr + accessLen i) (32 * q.row + 32) - max r.addr (32 * q.row))
  group : ∀ (e : Env) (acc : List Nat) (r : Run) (c : Core), r.d.ins = i → groupDone e acc r c = .go r c
  banks : ∀ (k : Disp) (n : Nat), k.ins = i → accBanks k n = []

theorem LoadsBytes.moves {i : Instr} (h : LoadsBytes i) : MovesBytes i := by
  cases h <;>
    exact ⟨Nat.succ_pos _, fun e k c hk => by simp [beginFault, hk, accessLen], fun c k hk => by simp [groupsOf, hk],
      fun r q hr => by simp [rowSpan, hr, accessLen], fun e acc r c hr => by simp [groupDone, hr], fun k n hk => by simp [accBanks, hk]⟩

theorem StoresBytes.moves {i : Instr} (h : StoresBytes i) : MovesBytes i := by
  cases h <;>
    exact ⟨Nat.succ_pos _, fun e k c hk => by simp [beginFault, hk, accessLen], fun c k hk => by simp [groupsOf, hk],
      fun r q hr => by simp [rowSpan, hr, accessLen], fun e acc r c hr => by simp [groupDone, hr], fun k n hk => by simp [accBanks, hk]⟩

/-- What a load does with a row once its bank serves it: an uncorrectable word faults, and else it takes the row. -/
theorem LoadsBytes.row {i : Instr} (h : LoadsBytes i) {r : Run} {q : RowReq} {lo n : Nat} (hr : r.d.ins = i) (hs : rowSpan r q = (lo, n))
    (e : Env) (c : Core) :
    (∀ u, eccBad c lo n = some u → rowDone e q r c = (r, insFault e r.d stPoison 0x0A u c, false)) ∧
      (eccBad c lo n = none → rowDone e q r c =
        ({ r with got := (q.scale, q.row, ofBytes 256 (mread c.sram (32 * q.row) 32)) :: r.got }, eccCount lo n c, true)) := by
  have hst : storeBytes c r = none := by cases h <;> simp [storeBytes, hr]
  have hf : faultsLater r.d.ins = false := by cases h <;> simp [faultsLater, hr]
  refine ⟨fun u hu => ?_, fun hu => ?_⟩
  · simp only [rowDone, hs, hst, hu, hf]
  · cases h <;> simp only [rowDone, hs, hst, hu, hr, eccCount_sram]

/-- What a store does with a row once its bank serves it: it writes those of its bytes that lie in the row. -/
theorem StoresBytes.row {i : Instr} (h : StoresBytes i) {r : Run} {q : RowReq} {lo n : Nat} (hr : r.d.ins = i) (hs : rowSpan r q = (lo, n))
    (e : Env) (c : Core) : rowDone e q r c = (r, sramPut lo ((r.data.drop (lo - r.addr)).take n) c, true) := by
  have hst : storeBytes c r = some r.data := by cases h <;> simp [storeBytes, hr]
  simp only [rowDone, hs, hst]

/-- A store leaves nothing to do once its rows are written. -/
theorem StoresBytes.done {i : Instr} (h : StoresBytes i) {r : Run} (hr : r.d.ins = i) (e : Env) (c : Core) : runDone e r c = c := by
  cases h <;> simp [runDone, hr]

-- A row that was read --------------------------------------------------------------------------------------------

theorem gotRow_cons_same (sc : Bool) (row : Nat) (w : Row) (got : List (Bool × Nat × Row)) : gotRow ((sc, row, w) :: got) sc row = w := by
  simp [gotRow]

theorem gotRow_cons_ne {sc : Bool} {row row' : Nat} (w : Row) (got : List (Bool × Nat × Row)) (h : row' ≠ row) :
    gotRow ((sc, row', w) :: got) sc row = gotRow got sc row := by
  simp [gotRow, h]

/-- The bytes of a load whose rows were all read are those of memory. -/
theorem loadBytes_eq {r : Run} {m : Mem}
    (h : ∀ i < accessLen r.d.ins, gotRow r.got false ((r.addr + i) / 32) = ofBytes 256 (mread m (32 * ((r.addr + i) / 32)) 32)) :
    loadBytes r = mread m r.addr (accessLen r.d.ins) := by
  refine List.map_congr_left fun i hi => ?_
  rw [h i (List.mem_range.mp hi), byteAt_row]

-- The banks ------------------------------------------------------------------------------------------------------

/-- A request at a bank that has served no one since is served as before. -/
theorem bankServes_congr {l : List Ask} {c c' : Core} {a : Ask} (h : c'.x.served = c.x.served) : bankServes l c' a = bankServes l c a := by
  rw [bankServes, bankServes, h]

/-- Serving one row does not keep a request at another bank from being served. -/
theorem bankServes_markServed (l : List Ask) (u : BankUser) {row : Nat} (c : Core) {a : Ask} (h : bankOf row ≠ bankOf a.row) :
    bankServes l (markServed u row c) a = bankServes l c a := by
  simp [bankServes, markServed, h]

section
variable {e : Env} {l : List Ask} {q : RowReq} {t : List RowReq} {r r1 : Run} {c c1 : Core}

theorem serveRows_cons_served (hb : bankServes l c ⟨userOf r.eng, r.d.seq, q.row, q.n, r.next⟩ = true)
    (hd : rowDone e q r (markServed (userOf r.eng) q.row c) = (r1, c1, true)) : serveRows e l (q :: t) r c = serveRows e l t r1 c1 := by
  rw [serveRows, if_pos hb, hd]
  rfl

theorem serveRows_cons_bad (hb : bankServes l c ⟨userOf r.eng, r.d.seq, q.row, q.n, r.next⟩ = true)
    (hd : rowDone e q r (markServed (userOf r.eng) q.row c) = (r1, c1, false)) : serveRows e l (q :: t) r c = (r1, c1, false) := by
  rw [serveRows, if_pos hb, hd]
  rfl

theorem serveRows_cons_refused {ok : Bool} (hb : bankServes l c ⟨userOf r.eng, r.d.seq, q.row, q.n, r.next⟩ = false)
    (hd : serveRows e l t r c = (r1, c1, ok)) : serveRows e l (q :: t) r c = ({ r1 with rows := q :: r1.rows }, c1, ok) := by
  rw [serveRows, if_neg (by simp [hb]), hd]

end

-- One step -------------------------------------------------------------------------------------------------------

section
variable {e : Env} {l : List Ask} {acc : List Nat} {r0 r : Run} {c0 c : Core}

/-- A step in which a row faults. -/
theorem stepRun_of_bad (h : serveRows e l r0.rows { r0 with rows := [] } c0 = (r, c, false)) : stepRun e l acc r0 c0 = c := by
  rw [stepRun, h]

/-- A step that leaves rows of the group to be served. -/
theorem stepRun_of_rows (h : serveRows e l r0.rows { r0 with rows := [] } c0 = (r, c, true)) (hr : r.rows ≠ []) :
    stepRun e l acc r0 c0 = holdRun r c := by
  rw [stepRun, h]
  simp [hr]

/-- A load or store ends in the step in which its last row is served. -/
theorem stepRun_of_moved {i : Instr} (hi : MovesBytes i) (h : serveRows e l r0.rows { r0 with rows := [] } c0 = (r, c, true))
    (hr : r.rows = []) (hins : r.d.ins = i) (hl : r.later = []) : stepRun e l acc r0 c0 = runDone e r c := by
  rw [stepRun, h]
  simp only [hr, List.isEmpty_nil, if_true, hi.group e acc r c hins, hi.banks r.d r.k hins, List.nil_append, hl]

/-- A step in which the banks refuse every row of the group. -/
theorem stepRun_of_refused (hr : r0.rows ≠ [])
    (hb : ∀ q ∈ r0.rows, bankServes l c0 ⟨userOf r0.eng, r0.d.seq, q.row, q.n, r0.next⟩ = false) : stepRun e l acc r0 c0 = holdRun r0 c0 := by
  refine stepRun_of_rows ?_ hr
  rw [serveRows_none e l r0.rows { r0 with rows := [] } c0 hb]
  simp

end

/-- The rows of a load or store as it begins. -/
theorem MovesBytes.newRun_rows {i : Instr} (hi : MovesBytes i) {k : Disp} (hk : k.ins = i) (e : Env) (eng : Engine) (c : Core) :
    (newRun e eng k c).rows = askRows (dataRows (memAddr c k) (accessLen i)) ∧ (newRun e eng k c).later = [] := by
  simp only [newRun, hi.groups c k hk, List.headD_cons, List.drop_succ_cons, List.drop_nil, and_self]

/-- An aligned access of at most a row lies in one row. -/
theorem dataRows_one {a n : Nat} (hn : n = 1 ∨ n = 2 ∨ n = 4) (ha : a % n = 0) : dataRows a n = [(false, a / 32)] := by
  have h : (a + n - 1) / 32 - a / 32 + 1 = 1 := by
    rcases hn with rfl | rfl | rfl <;> omega
  rw [dataRows, rowsIn, if_neg (by omega), h]
  simp

/-- An aligned access of 64 bytes takes two rows. -/
theorem dataRows_two {a : Nat} (ha : a % 64 = 0) : dataRows a 64 = [(false, a / 32), (false, a / 32 + 1)] := by
  have h : (a + 64 - 1) / 32 - a / 32 + 1 = 2 := by omega
  rw [dataRows, rowsIn, if_neg (by decide), h]
  simp [List.range_succ, Nat.add_comm]

theorem accessFault_of_outside {a n al : Nat} (h : ¬(0x4000 ≤ a ∧ a + n ≤ 0x10000)) : accessFault a n al = some (0x05, a % 65536) := by
  rw [accessFault, if_pos]
  simp only [inData, Bool.not_eq_true', Bool.and_eq_false_iff, decide_eq_false_iff_not]
  omega

theorem accessFault_of_misaligned {a n al : Nat} (h : 0x4000 ≤ a ∧ a + n ≤ 0x10000 ∧ a % al ≠ 0) :
    accessFault a n al = some (0x06, a % 65536) := by
  obtain ⟨hlo, hhi, hal⟩ := h
  rw [accessFault, if_neg (by simp [inData, hlo, hhi]), if_pos hal]

theorem accessFault_of_ok {a n al : Nat} (h : 0x4000 ≤ a ∧ a + n ≤ 0x10000 ∧ a % al = 0) : accessFault a n al = none := by
  obtain ⟨hlo, hhi, hal⟩ := h
  rw [accessFault, if_neg (by simp [inData, hlo, hhi]), if_neg (by simp [hal])]

end Sys2Proof.Machine
end

section
/-! O2: scalar loads and stores (03 R62, R69, R93; 02 R29, R31, R46). -/

namespace Sys2Proof.Machine

open Sys2Proof.Claims

/-- A scalar load or store of n bytes at S[A] + immediate. -/
structure ScalarAccess (g : Nat) (a : Reg) (imm : Word) (i : Instr) (n lat : Nat) : Prop where
  moves : MovesBytes i
  len : accessLen i = n
  small : n = 1 ∨ n = 2 ∨ n = 4
  runs : ∀ s, exec i s = onCore g s (runDo .scalar i 1 lat)
  addr : ∀ (c : Core) (k : Disp), k.ins = i → memAddr c k = (c.s[a] + imm).toNat

theorem loadOp_facts {g : Nat} {d a : Reg} {imm : Word} {x : Nat} {i : Instr} {n : Nat} {v : Word} (h : (i, n, v) ∈ loadOps g d a imm x) :
    LoadsBytes i ∧ ScalarAccess g a imm i n 2 ∧ loadExt i x = v ∧ ∀ (e : Env) (r : Run) (c : Core), r.d.ins = i → runDone e r c = putLoad d r c := by
  simp only [loadOps, List.mem_cons, Prod.mk.injEq, List.not_mem_nil, or_false] at h
  have hload : LoadsBytes i := by
    rcases h with ⟨rfl, -⟩ | ⟨rfl, -⟩ | ⟨rfl, -⟩ | ⟨rfl, -⟩ | ⟨rfl, -⟩
    exacts [.ldw .., .ldh .., .ldhu .., .ldb .., .ldbu ..]
  rcases h with ⟨rfl, rfl, rfl⟩ | ⟨rfl, rfl, rfl⟩ | ⟨rfl, rfl, rfl⟩ | ⟨rfl, rfl, rfl⟩ | ⟨rfl, rfl, rfl⟩ <;>
    exact ⟨hload, ⟨hload.moves, rfl, by decide, fun _ => rfl, fun c k hk => by simp [memAddr, hk, addrOf]⟩, rfl,
      fun e r c hr => by simp [runDone, hr]⟩

theorem storeOp_facts {g : Nat} {d a : Reg} {imm : Word} {i : Instr} {n : Nat} (h : (i, n) ∈ storeOps g d a imm) :
    StoresBytes i ∧ ScalarAccess g a imm i n 1 ∧ ∀ c : Core, takenBytes c i = bytesOf c.s[d] n := by
  simp only [storeOps, List.mem_cons, Prod.mk.injEq, List.not_mem_nil, or_false] at h
  have hstore : StoresBytes i := by
    rcases h with ⟨rfl, -⟩ | ⟨rfl, -⟩ | ⟨rfl, -⟩
    exacts [.stw .., .sth .., .stb ..]
  rcases h with ⟨rfl, rfl⟩ | ⟨rfl, rfl⟩ | ⟨rfl, rfl⟩ <;>
    exact ⟨hstore, ⟨hstore.moves, rfl, by decide, fun _ => rfl, fun c k hk => by simp [memAddr, hk, addrOf]⟩, fun _ => rfl⟩

section
variable {s : State} {g : Nat} {a : Reg} {imm : Word} {i : Instr} {n lat : Nat} {k : Disp}

/-- What a scalar access checks as it begins. -/
theorem ScalarAccess.beginFault_eq (h : ScalarAccess g a imm i n lat) (hk : k.ins = i) (e : Env) (c : Core) :
    beginFault e k c = (accessFault (c.s[a] + imm).toNat n n).map (fun p => (stBounds, p.1, p.2)) := by
  rw [h.moves.fault e k c hk, h.addr c k hk, h.len]

/-- A scalar access in the data region and aligned asks for its one row as it begins. -/
theorem ScalarAccess.newRun_rows (h : ScalarAccess g a imm i n lat) (hk : k.ins = i) (e : Env) (c : Core) (hal : (c.s[a] + imm).toNat % n = 0) :
    (newRun e .scalar k c).rows = [⟨false, (c.s[a] + imm).toNat / 32, 0⟩] ∧ (newRun e .scalar k c).later = [] := by
  obtain ⟨hrows, hlater⟩ := h.moves.newRun_rows hk e .scalar c
  rw [hrows, h.addr c k hk, h.len, dataRows_one h.small hal]
  exact ⟨rfl, hlater⟩

/-- All bytes of a scalar access lie in its row. -/
theorem ScalarAccess.newRun_span (h : ScalarAccess g a imm i n lat) (hk : k.ins = i) (e : Env) (c : Core) (hal : (c.s[a] + imm).toNat % n = 0) :
    rowSpan (newRun e .scalar k c) ⟨false, (c.s[a] + imm).toNat / 32, 0⟩ = ((c.s[a] + imm).toNat, n) := by
  have haddr : (newRun e .scalar k c).addr = (c.s[a] + imm).toNat := h.addr c k hk
  rw [h.moves.span _ _ hk, h.len, haddr, Prod.mk.injEq]
  dsimp only
  rcases h.small with rfl | rfl | rfl <;> omega

/-- A scalar access that breaks no rule does its first step on the core that has taken it. -/
theorem ScalarAccess.exec_ok (h : ScalarAccess g a imm i n lat) (hb : mayBegin s g .scalar i k)
    (hok : accessOk ((getCore s g).s[a] + imm).toNat n) :
    exec i s = .next (setCore s g (stepRun (envOf s g) (asksNow (envOf s g) (taken s g .scalar k 1 lat))
      (accAsks (envOf s g) (taken s g .scalar k 1 lat)) (newRun (envOf s g) .scalar k (getCore s g)) (taken s g .scalar k 1 lat))) := by
  rw [h.runs s, onCore_runDo hb (by rw [h.beginFault_eq (mayBegin_ins hb), accessFault_of_ok hok]; rfl)]

/-- A scalar access that its bank refuses stays in progress. -/
theorem ScalarAccess.exec_refused (h : ScalarAccess g a imm i n lat) (hb : mayBegin s g .scalar i k)
    (hok : accessOk ((getCore s g).s[a] + imm).toNat n)
    (hf : bankFree s g .scalar k (((getCore s g).s[a] + imm).toNat / 32) (taken s g .scalar k 1 lat) = false) :
    exec i s = .next (setCore s g (holdRun (newRun (envOf s g) .scalar k (getCore s g)) (taken s g .scalar k 1 lat))) := by
  obtain ⟨hrows, -⟩ := h.newRun_rows (mayBegin_ins hb) (envOf s g) (getCore s g) hok.2.2
  rw [h.exec_ok hb hok, stepRun_of_refused]
  · simp [hrows]
  · intro q hq
    rw [hrows] at hq
    rw [List.mem_singleton.mp hq]
    exact hf

end

/-- One step of a load of one row that its bank serves: an uncorrectable word faults, and else the load ends with the row. -/
theorem LoadsBytes.stepRun_one {i : Instr} (h : LoadsBytes i) {r : Run} {q : RowReq} {lo n : Nat} {e : Env} {l : List Ask} {acc : List Nat}
    {t : Core} (hr : r.d.ins = i) (hrows : r.rows = [q]) (hlater : r.later = []) (hs : rowSpan r q = (lo, n))
    (hb : bankServes l t ⟨userOf r.eng, r.d.seq, q.row, q.n, r.next⟩ = true) :
    (∀ u, eccBad t lo n = some u → stepRun e l acc r t = insFault e r.d stPoison 0x0A u (markServed (userOf r.eng) q.row t)) ∧
      (eccBad t lo n = none → stepRun e l acc r t = runDone e
        { r with rows := [], got := (q.scale, q.row, ofBytes 256 (mread t.sram (32 * q.row) 32)) :: r.got }
        (eccCount lo n (markServed (userOf r.eng) q.row t))) := by
  obtain ⟨hbad, hgood⟩ := h.row (r := { r with rows := [] }) hr hs e (markServed (userOf r.eng) q.row t)
  refine ⟨fun u hu => ?_, fun hu => ?_⟩
  · have hserve := serveRows_cons_bad (t := []) (r := { r with rows := [] }) hb (hbad u hu)
    rw [← hrows] at hserve
    exact stepRun_of_bad hserve
  · have hserve := serveRows_cons_served (t := []) (r := { r with rows := [] }) hb (hgood hu)
    rw [← hrows] at hserve
    exact stepRun_of_moved h.moves hserve rfl hr hlater

/-- One step of a store of one row that its bank serves: the bytes are written. -/
theorem StoresBytes.stepRun_one {i : Instr} (h : StoresBytes i) {r : Run} {q : RowReq} {lo n : Nat} {e : Env} {l : List Ask} {acc : List Nat}
    {t : Core} (hr : r.d.ins = i) (hrows : r.rows = [q]) (hlater : r.later = []) (hs : rowSpan r q = (lo, n))
    (hb : bankServes l t ⟨userOf r.eng, r.d.seq, q.row, q.n, r.next⟩ = true) :
    stepRun e l acc r t = sramPut lo ((r.data.drop (lo - r.addr)).take n) (markServed (userOf r.eng) q.row t) := by
  have hserve : serveRows e l r.rows { r with rows := [] } t =
      ({ r with rows := [] }, sramPut lo ((r.data.drop (lo - r.addr)).take n) (markServed (userOf r.eng) q.row t), true) := by
    rw [hrows, serveRows_cons_served (r := { r with rows := [] }) hb (h.row (r := { r with rows := [] }) hr hs e _)]
    rfl
  exact (stepRun_of_moved h.moves hserve rfl hr hlater).trans (h.done hr e _)

/-- The bytes of a load that lie in one row, which was read. -/
theorem loadBytes_one {r : Run} {m : Mem} {a n row : Nat} (hn : accessLen r.d.ins = n) (ha : r.addr = a) (hrow : ∀ j < n, (a + j) / 32 = row)
    (hgot : gotRow r.got false row = ofBytes 256 (mread m (32 * row) 32)) : loadBytes r = mread m a n := by
  rw [loadBytes_eq (m := m), hn, ha]
  intro j hj
  rw [ha, hrow j (by omega), hgot]

theorem loads_read_memory : Claims.LoadsReadMemory := by
  intro s g d a imm k i n v c t adr hmem hb hok
  obtain ⟨hload, hacc, hext, hdone⟩ := loadOp_facts hmem
  have hk := mayBegin_ins hb
  have haddr : (newRun (envOf s g) .scalar k c).addr = adr := hacc.addr c k hk
  obtain ⟨hrows, hlater⟩ := hacc.newRun_rows hk (envOf s g) c hok.2.2
  have hspan := hacc.newRun_span hk (envOf s g) c hok.2.2
  refine ⟨fun u hu hfree => ?_, fun hu hfree => ?_, hacc.exec_refused hb hok⟩
  · rw [hacc.exec_ok hb hok, (hload.stepRun_one hk hrows hlater hspan hfree).1 u hu]
    rfl
  · have hrow : ∀ j < n, (adr + j) / 32 = adr / 32 := by
      intro j hj
      have hal := hok.2.2
      rcases hacc.small with rfl | rfl | rfl <;> omega
    have hbytes : loadBytes { newRun (envOf s g) .scalar k c with
        rows := [], got := (false, adr / 32, ofBytes 256 (mread c.sram (32 * (adr / 32)) 32)) :: (newRun (envOf s g) .scalar k c).got } =
        mread c.sram adr n :=
      loadBytes_one (by rw [← hacc.len, ← hk]; rfl) haddr hrow (gotRow_cons_same ..)
    rw [hacc.exec_ok hb hok, (hload.stepRun_one hk hrows hlater hspan hfree).2 hu, hdone _ _ _ hk, putLoad, ← hext, ← hbytes, ← hk, putS,
      eccCount_s]
    rfl

/-- A scalar store writes whole 64-bit words nowhere, so it gives no fresh check bits. -/
theorem sramPut_ecc_of_small (a : Nat) (bs : List Byte) (c : Core) (h : bs.length < 8) : (sramPut a bs c).ecc = c.ecc := by
  have hfull : (wordsIn a bs.length).filter (fun w => decide (a ≤ 8 * w) && decide (8 * w + 8 ≤ a + bs.length)) = [] :=
    List.filter_eq_nil_iff.mpr fun w _ => by simp; omega
  simp only [sramPut, hfull, List.foldl_nil]

theorem stores_write_only_their_bytes : Claims.StoresWriteOnlyTheirBytes := by
  intro s g d a imm k i n c t adr hmem hb hok
  obtain ⟨hstore, hacc, hdata⟩ := storeOp_facts hmem
  have hk := mayBegin_ins hb
  have haddr : (newRun (envOf s g) .scalar k c).addr = adr := hacc.addr c k hk
  obtain ⟨hrows, hlater⟩ := hacc.newRun_rows hk (envOf s g) c hok.2.2
  have hspan := hacc.newRun_span hk (envOf s g) c hok.2.2
  refine ⟨fun hfree hwf => ?_, hacc.exec_refused hb hok⟩
  have hbs : ((newRun (envOf s g) .scalar k c).data.drop (adr - (newRun (envOf s g) .scalar k c).addr)).take n = bytesOf c.s[d] n := by
    have hd : (newRun (envOf s g) .scalar k c).data = bytesOf c.s[d] n := by rw [← hdata c, ← hk]; rfl
    rw [haddr, hd, Nat.sub_self, List.drop_zero, List.take_of_length_le (length_bytesOf ..).le]
  have hlen : (bytesOf c.s[d] n).length = n := length_bytesOf ..
  have hexec := hacc.exec_ok hb hok
  rw [hstore.stepRun_one hk hrows hlater hspan hfree, hbs] at hexec
  refine ⟨mwrite c.sram adr (bytesOf c.s[d] n), ?_, fun j hj => ?_, fun x hx => ?_, memory_wf_mwrite _ _ _ hwf⟩
  · rw [hexec]
    have hecc := sramPut_ecc_of_small adr (bytesOf c.s[d] n) (markServed .scalar (adr / 32) t) (by
      rcases hacc.small with rfl | rfl | rfl <;> omega)
    exact congrArg (fun ecc => Host.Outcome.next (setCore s g
      { markServed .scalar (adr / 32) t with sram := mwrite c.sram adr (bytesOf c.s[d] n), ecc := ecc })) hecc
  · rw [tget_mwrite _ _ _ _ hwf (by omega), getD_bytesOf _ hj]
  · exact tget_mwrite_ne _ _ _ _ (by omega)

theorem bad_accesses_fault : Claims.BadAccessesFault := by
  intro s g d a imm k i n v w c adr hmem hb
  obtain ⟨lat, hacc⟩ : ∃ lat, ScalarAccess g a imm i n lat := by
    rcases hmem with h | h
    · exact ⟨2, (loadOp_facts h).2.1⟩
    · exact ⟨1, (storeOp_facts h).2.1⟩
  have hbegin := hacc.beginFault_eq (mayBegin_ins hb) (envOf s g) c
  refine ⟨fun hout => ?_, fun hmis => ?_⟩
  · rw [hacc.runs s, onCore_runDo_fault hb (by rw [hbegin, accessFault_of_outside hout]; rfl)]
  · rw [hacc.runs s, onCore_runDo_fault hb (by rw [hbegin, accessFault_of_misaligned hmis]; rfl)]

end Sys2Proof.Machine

open Sys2Proof Sys2Proof.Machine Sys2Proof.Claims

/-- Settles O2: an aligned scalar access lies in one row, so its first step is that row's; what a load takes of the row and what a store
writes of it are the access's bytes. -/
theorem loadsAndStoresMoveTheirBytes : Obligations.LoadsAndStoresMoveTheirBytes :=
  ⟨loads_read_memory, stores_write_only_their_bytes, bad_accesses_fault⟩
end

section
/-! O6: the lane-wise, reducing and converting vector instructions (03 R80 to R86; 02 R49). -/

namespace Sys2Proof.Machine

open Sys2Proof.Claims

/-- The core that has taken and counted a vector instruction, with the lanes f written to V[D]. -/
def withLanes (s : State) (g : Nat) (d : Reg) (k : Disp) (occ lat : Nat) (f : Fin 32 → Lane × Bool) : Core :=
  { vtaken s g k occ lat with
    v := (getCore s g).v.set d (Vector.ofFn (fun j => (f j).1))
    guard := gOrOvf (getCore s g).guard ((List.finRange 32).any (fun j => (f j).2)) }

/-- Lanes none of which sets OVF_LOCAL. -/
theorem putV_eq_putLanes (d : Reg) (f : Fin 32 → Lane) (c : Core) : putV d (Vector.ofFn f) c = putLanes d (fun j => (f j, false)) c := by
  rw [putLanes, orOvf, List.any_eq_false.mpr fun _ _ => Bool.false_ne_true]
  rfl

theorem replicate_eq_ofFn {α : Type} (n : Nat) (x : α) : Vector.replicate n x = Vector.ofFn (fun _ => x) := by
  ext i hi
  simp

section
variable {s : State} {g : Nat} {i : Instr} {k : Disp} {occ lat : Nat} (d a b : Reg) (vf : LaneFmt)

/-- A vector instruction that writes lanes and may begin. -/
theorem onCore_lanes (h : mayBegin s g .vector i k) (f : Disp → Core → Fin 32 → Lane × Bool) :
    onCore g s (vecDo i occ lat (fun k c => putLanes d (f k c) c)) =
      .next (setCore s g (withLanes s g d k occ lat (f k (vtaken s g k occ lat)))) :=
  onCore_vecDo h _

/-- The arithmetic on lanes, with its rounding. -/
theorem onCore_arith (h : mayBegin s g .vector i k) (rm : Rounding) (fop : FVal → FVal → FVal → FVal) (ops : FVal → FVal → FVal → List FVal)
    (iop : Lane → Lane → Lane → Lane) :
    onCore g s (arith i d a b vf rm fop ops iop) =
      let c := getCore s g
      .next (setCore s g (withLanes s g d k 1 3 fun j =>
        Claims.laneOf vf (roundMode rm c.seed k.sc 32 j vf.code) (ops (vf.value c.v[a][j]) (vf.value c.v[b][j]) (vf.value c.v[d][j]))
          (fop (vf.value c.v[a][j]) (vf.value c.v[b][j]) (vf.value c.v[d][j])) (iop c.v[a][j] c.v[b][j] c.v[d][j]))) :=
  onCore_lanes d h _

/-- The operations on lanes that do not round. -/
theorem onCore_lanewise (h : mayBegin s g .vector i k) (f : Lane → Lane → Lane → Lane) :
    onCore g s (lanewise i lat d a b f) =
      let c := getCore s g
      .next (setCore s g (withLanes s g d k 1 lat fun j => (f c.v[a][j] c.v[b][j] c.v[d][j], false))) := by
  simp only [lanewise, putV_eq_putLanes]
  exact onCore_lanes d h _

/-- The special functions. -/
theorem onCore_special (h : mayBegin s g .vector i k) (f : FVal → FVal) :
    onCore g s (special i d a vf f) =
      let c := getCore s g
      .next (setCore s g (withLanes s g d k 2 6 fun j =>
        Claims.laneOf vf .rne [vf.value c.v[a][j]] (f (vf.value c.v[a][j])) c.v[a][j])) :=
  onCore_lanes d h _

/-- The reductions that do not round. -/
theorem onCore_reduce (h : mayBegin s g .vector i k) (mx : Bool) :
    onCore g s (vecDo i 1 4 (fun _ c => putV d (Vector.replicate 32 (reduceLanes vf mx c.v[a])) c)) =
      let c := getCore s g
      .next (setCore s g (withLanes s g d k 1 4 fun _ => (c.v[a].toList.foldl (minMax vf mx) c.v[a][0], false))) := by
  simp only [replicate_eq_ofFn, putV_eq_putLanes]
  exact onCore_lanes d h _

end

/-- A right shift by 16 or more leaves the sign in every bit. -/
theorem sshiftRight_of_ge (x : Lane) {n : Nat} (h : 16 ≤ n) : x.sshiftRight n = x.sshiftRight 16 := by
  apply BitVec.eq_of_getLsbD_eq
  intro j hj
  rw [BitVec.getLsbD_sshiftRight, BitVec.getLsbD_sshiftRight, if_neg (by omega), if_neg (by omega)]

/-- A shift by a lane, by the number it spells: 16 or more gives 0, or the sign in every bit. -/
theorem shLane_eq (x y : Lane) : shLane x y = if 0 ≤ y.toInt then x <<< y.toNat else x.sshiftRight (-y.toInt).toNat := by
  rw [shLane, BitVec.msb_eq_toInt]
  by_cases hy : 0 ≤ y.toInt
  · rw [if_neg (by simpa using hy), if_pos hy]
    split
    · next h => exact (BitVec.shiftLeft_eq_zero h).symm
    · rfl
  · rw [if_pos (by simpa using hy), if_neg hy]
    rcases Nat.le_total 16 (-y.toInt).toNat with h | h
    · rw [Nat.min_eq_left h, sshiftRight_of_ge x h]
    · rw [Nat.min_eq_right h]

theorem vector_lane_results : Claims.VectorLaneResults := by
  intro s g d a b vf src rm cond k i occ lat f c h hb
  have h0 := h 0
  simp only [laneOps, List.mem_cons, Prod.mk.injEq, List.not_mem_nil, or_false] at h0
  rcases h0 with ⟨rfl, rfl, rfl, -⟩ | ⟨rfl, rfl, rfl, -⟩ | ⟨rfl, rfl, rfl, -⟩ | ⟨rfl, rfl, rfl, -⟩ | ⟨rfl, rfl, rfl, -⟩ | ⟨rfl, rfl, rfl, -⟩ |
    ⟨rfl, rfl, rfl, -⟩ | ⟨rfl, rfl, rfl, -⟩ | ⟨rfl, rfl, rfl, -⟩ | ⟨rfl, rfl, rfl, -⟩ | ⟨rfl, rfl, rfl, -⟩ | ⟨rfl, rfl, rfl, -⟩ |
    ⟨rfl, rfl, rfl, -⟩ | ⟨rfl, rfl, rfl, -⟩ | ⟨rfl, rfl, rfl, -⟩ | ⟨rfl, rfl, rfl, -⟩ | ⟨rfl, rfl, rfl, -⟩ | ⟨rfl, rfl, rfl, -⟩ |
    ⟨rfl, rfl, rfl, -⟩ | ⟨rfl, rfl, rfl, -⟩ | ⟨rfl, rfl, rfl, -⟩ | ⟨rfl, rfl, rfl, -⟩ | ⟨rfl, rfl, rfl, -⟩ | ⟨rfl, rfl, rfl, -⟩ |
    ⟨rfl, rfl, rfl, -⟩ | ⟨rfl, rfl, rfl, -⟩ <;>
    simp only [laneOps, List.mem_cons, Prod.mk.injEq, List.not_mem_nil, or_false, reduceCtorEq, false_and, false_or, true_and] at h <;>
    obtain rfl := funext h
  · exact onCore_arith d a b vf hb rm _ _ _
  · exact onCore_arith d a b vf hb rm _ _ _
  · exact onCore_arith d a b vf hb rm _ _ _
  · exact onCore_arith d a b vf hb rm _ _ _
  · exact onCore_lanewise d a b hb _
  · exact onCore_lanewise d a b hb _
  · exact onCore_lanewise d a b hb _
  · refine (onCore_lanewise d a b hb _).trans ?_
    simp only [ne_eq, ite_not]
    rfl
  · exact onCore_lanewise d a b hb _
  · exact onCore_lanewise d a b hb _
  · exact onCore_lanewise d a b hb _
  · refine (onCore_lanewise d a b hb _).trans ?_
    simp only [shLane_eq]
    rfl
  · refine (onCore_lanewise d a a hb _).trans ?_
    cases vf <;> simp [BitVec.msb_eq_toInt] <;> rfl
  · refine (onCore_lanewise d a a hb _).trans ?_
    cases vf <;> rfl
  · exact onCore_special d a vf hb _
  · exact onCore_special d a vf hb _
  · exact onCore_special d a vf hb _
  · exact onCore_special d a vf hb _
  · exact onCore_special d a vf hb _
  · exact onCore_special d a vf hb _
  · exact onCore_special d a vf hb _
  · exact onCore_special d a vf hb _
  · exact onCore_lanes d hb _
  · exact onCore_reduce d a vf hb true
  · exact onCore_reduce d a vf hb false
  · exact onCore_lanes d hb _

end Sys2Proof.Machine

open Sys2Proof Sys2Proof.Machine

/-- Settles O6: each lane-wise instruction writes the lanes that its shape gives (arithmetic, without rounding, special function, reduction
or conversion), and those are the lanes of the statement. -/
theorem vectorLaneOperations : Obligations.VectorLaneOperations := vector_lane_results
end

section
/-! O7: vector moves, VUNPK, and the vector accesses to SRAM, the accumulator banks and the queues (03 R79, R87 to R90, R92, R93; 02 R27 to
R34; 07 R165; 09 R209). -/

namespace Sys2Proof.Machine

open Sys2Proof.Claims

theorem vector_moves : Claims.VectorMoves := by
  intro s g d a lane k c t x
  exact ⟨fun h => onCore_vecDo h _, fun h => onCore_vecDo h _, fun h => onCore_vecDo h _, fun h => onCore_vecDo h _, fun h => onCore_vecDo h _⟩

/-- VUNPK of a format that it may not use faults, and else it writes its lanes. -/
theorem exec_vunpk {s : State} {g : Nat} {d a b : Reg} {fmt : TileFmt} {part : Fin 4} {k : Disp}
    (h : mayBegin s g .vector (.vunpk g d a b fmt part) k) :
    (∀ code sub det, shortFault (envOf s g) fmt = some (code, sub, det) →
      exec (.vunpk g d a b fmt part) s = .next (setCore s g (insFault (envOf s g) k code sub det (getCore s g)))) ∧
    (shortFault (envOf s g) fmt = none → exec (.vunpk g d a b fmt part) s = .next (setCore s g (withLanes s g d k 1 2 fun j =>
      let x := withScale ((scAt k.sc 0).toNat % 256) (fmt.value (elemAt fmt (vBytes (getCore s g).v[a]) (32 * (part : Nat) + j)))
      Claims.laneOf .w16 .rne [x] x 0))) := by
  have hb : beginFault (envOf s g) k (getCore s g) = shortFault (envOf s g) fmt := by
    rw [beginFault, mayBegin_ins h]
  rw [show exec (.vunpk g d a b fmt part) s = execVunpk g d a b fmt part s from rfl, execVunpk, onCore_of_lt s _ h.1, h.2]
  simp only [hb]
  refine ⟨fun code sub det hf => ?_, fun hf => ?_⟩
  · rw [hf]
  · rw [hf, ← onCore_of_lt s _ h.1]
    exact onCore_lanes d h _

theorem vector_unpack : Claims.VectorUnpack := by
  intro s g d a b fmt part k c e x f h
  obtain ⟨hbad, hgood⟩ := exec_vunpk h
  refine ⟨fun hf => hgood hf, fun hs hw hl => hbad _ _ _ ?_, fun hs hw hp => hbad _ _ _ ?_⟩
  · have hl' : licensed4 (envOf s g).s = false := hl
    simp [shortFault, hs, hw, hl']
  · have hp' : (getPan (envOf s g).s (panOf (envOf s g).g)).shortOn = false := hp
    have hw' : (decide (fmt.width = 4) && !licensed4 (envOf s g).s) = false := by simpa [envOf] using hw
    simp [shortFault, hs, hw', hp']

-- Two rows -------------------------------------------------------------------------------------------------------

theorem mem_wordsIn {a n w : Nat} (hn : 0 < n) : w ∈ wordsIn a n ↔ a / 8 ≤ w ∧ w ≤ (a + n - 1) / 8 := by
  rw [wordsIn, if_neg (by omega)]
  simp only [List.mem_map, List.mem_range]
  constructor
  · rintro ⟨x, hx, rfl⟩
    omega
  · rintro ⟨h1, h2⟩
    exact ⟨w - a / 8, by omega, by omega⟩

/-- A range within one that is free of uncorrectable words is free of them. -/
theorem eccBad_none_sub {c : Core} {a n b m : Nat} (h : eccBad c a n = none) (hm : 0 < m) (hlo : a ≤ b) (hhi : b + m ≤ a + n) :
    eccBad c b m = none := by
  simp only [eccBad, Option.map_eq_none_iff, List.find?_eq_none] at h ⊢
  intro w hw
  obtain ⟨h1, h2⟩ := (mem_wordsIn hm).mp hw
  exact h w ((mem_wordsIn (by omega)).mpr ⟨by omega, by omega⟩)

/-- An instruction that has taken row row of memory m. -/
def Run.took (r : Run) (m : Mem) (row : Nat) : Run := { r with got := (false, row, ofBytes 256 (mread m (32 * row) 32)) :: r.got }

/-- The core that has read n bytes at a in a row for a part. -/
def readsRow (u : BankUser) (row a n : Nat) (c : Core) : Core := eccCount a n (markServed u row c)

theorem readsRow_v (u : BankUser) (row a n : Nat) (c : Core) : (readsRow u row a n c).v = c.v := by
  rw [readsRow, eccCount_v]
  rfl

theorem runDone_vld {r : Run} {g : Nat} {d a : Reg} {imm : Word} (hr : r.d.ins = .vld g d a imm) (e : Env) (c : Core) :
    runDone e r c = putV d (vOfBytes (loadBytes r)) c := by
  simp only [runDone, hr]

theorem bankServes_readsRow (l : List Ask) (u : BankUser) {row : Nat} (a n : Nat) (c : Core) {x : Ask} (h : bankOf row ≠ bankOf x.row) :
    bankServes l (readsRow u row a n c) x = bankServes l c x := by
  rw [readsRow, bankServes_congr (c := markServed u row c) (by rw [eccCount_x]), bankServes_markServed l u c h]

section
variable {i : Instr} {r : Run} {row lo n : Nat} {rest : List RowReq} {e : Env} {l : List Ask} {t : Core}

/-- A load takes a row that its bank serves, free of errors. -/
theorem LoadsBytes.serve (h : LoadsBytes i) (hr : r.d.ins = i) (hs : rowSpan r ⟨false, row, 0⟩ = (lo, n)) (hecc : eccBad t lo n = none)
    (hb : bankServes l t ⟨userOf r.eng, r.d.seq, row, 0, r.next⟩ = true) :
    serveRows e l (⟨false, row, 0⟩ :: rest) r t = serveRows e l rest (r.took t.sram row) (readsRow (userOf r.eng) row lo n t) :=
  serveRows_cons_served hb ((h.row hr hs e (markServed (userOf r.eng) row t)).2 hecc)

/-- A load faults at a row with an uncorrectable word. -/
theorem LoadsBytes.serve_bad (h : LoadsBytes i) (hr : r.d.ins = i) (hs : rowSpan r ⟨false, row, 0⟩ = (lo, n)) {u : Nat}
    (hecc : eccBad t lo n = some u) (hb : bankServes l t ⟨userOf r.eng, r.d.seq, row, 0, r.next⟩ = true) :
    serveRows e l (⟨false, row, 0⟩ :: rest) r t = (r, insFault e r.d stPoison 0x0A u (markServed (userOf r.eng) row t), false) :=
  serveRows_cons_bad hb ((h.row hr hs e (markServed (userOf r.eng) row t)).1 u hecc)

/-- A store writes a row that its bank serves. -/
theorem StoresBytes.serve (h : StoresBytes i) (hr : r.d.ins = i) (hs : rowSpan r ⟨false, row, 0⟩ = (lo, n))
    (hb : bankServes l t ⟨userOf r.eng, r.d.seq, row, 0, r.next⟩ = true) :
    serveRows e l (⟨false, row, 0⟩ :: rest) r t =
      serveRows e l rest r (sramPut lo ((r.data.drop (lo - r.addr)).take n) (markServed (userOf r.eng) row t)) :=
  serveRows_cons_served hb (h.row hr hs e (markServed (userOf r.eng) row t))

end

-- VLD and VST ----------------------------------------------------------------------------------------------------

/-- An access of a vector register's 64 bytes at the address read at dispatch. -/
structure VectorAccess (g : Nat) (imm : Word) (i : Instr) (lat : Nat) : Prop where
  moves : MovesBytes i
  len : accessLen i = 64
  addr : ∀ (c : Core) (k : Disp), k.ins = i → memAddr c k = (scAt k.sc 0 + imm).toNat
  runs : ∀ s, exec i s = onCore g s (vecRun i lat)

theorem vectorAccess_vld (g : Nat) (d a : Reg) (imm : Word) : VectorAccess g imm (.vld g d a imm) 2 :=
  ⟨(LoadsBytes.vld ..).moves, rfl, fun c k hk => by simp [memAddr, hk, addrOf], fun _ => rfl⟩

theorem vectorAccess_vst (g : Nat) (d a : Reg) (imm : Word) : VectorAccess g imm (.vst g d a imm) 1 :=
  ⟨(StoresBytes.vst ..).moves, rfl, fun c k hk => by simp [memAddr, hk, addrOf], fun _ => rfl⟩

/-- Neighbouring rows lie in two banks. -/
theorem bankOf_ne_succ (row : Nat) : bankOf row ≠ bankOf (row + 1) := by
  unfold bankOf
  omega

section
variable {s : State} {g : Nat} {imm : Word} {i : Instr} {lat : Nat} {k : Disp}

/-- What such an access checks as it begins. -/
theorem VectorAccess.beginFault_eq (h : VectorAccess g imm i lat) (hk : k.ins = i) (e : Env) (c : Core) :
    beginFault e k c = (accessFault (scAt k.sc 0 + imm).toNat 64 64).map (fun p => (stBounds, p.1, p.2)) := by
  rw [h.moves.fault e k c hk, h.addr c k hk, h.len]

/-- Its two rows as it begins. -/
theorem VectorAccess.newRun_rows (h : VectorAccess g imm i lat) (hk : k.ins = i) (e : Env) (c : Core) (hal : (scAt k.sc 0 + imm).toNat % 64 = 0) :
    (newRun e .vector k c).rows = [⟨false, (scAt k.sc 0 + imm).toNat / 32, 0⟩, ⟨false, (scAt k.sc 0 + imm).toNat / 32 + 1, 0⟩] ∧
      (newRun e .vector k c).later = [] := by
  obtain ⟨hrows, hlater⟩ := h.moves.newRun_rows hk e .vector c
  rw [hrows, h.addr c k hk, h.len, dataRows_two hal]
  exact ⟨rfl, hlater⟩

/-- Its bytes in each of the two rows. -/
theorem VectorAccess.spans (h : VectorAccess g imm i lat) {r : Run} {adr : Nat} (hr : r.d.ins = i) (ha : r.addr = adr) (hal : adr % 64 = 0) :
    rowSpan r ⟨false, adr / 32, 0⟩ = (adr, 32) ∧ rowSpan r ⟨false, adr / 32 + 1, 0⟩ = (adr + 32, 32) := by
  rw [h.moves.span _ _ hr, h.moves.span _ _ hr, h.len, ha, Prod.mk.injEq, Prod.mk.injEq]
  dsimp only
  omega

/-- Such an access that breaks no rule does its first step on the core that has taken it. -/
theorem VectorAccess.exec_ok (h : VectorAccess g imm i lat) (hb : mayBegin s g .vector i k) (hok : accessOk (scAt k.sc 0 + imm).toNat 64) :
    exec i s = .next (setCore s g (stepRun (envOf s g) (asksNow (envOf s g) (vtaken s g k 1 lat))
      (accAsks (envOf s g) (vtaken s g k 1 lat)) (newRun (envOf s g) .vector k (getCore s g)) (vtaken s g k 1 lat))) := by
  rw [h.runs s, onCore_vecRun hb (by rw [h.beginFault_eq (mayBegin_ins hb), accessFault_of_ok hok]; rfl)]

/-- Such an access that breaks a rule faults. -/
theorem VectorAccess.exec_bad (h : VectorAccess g imm i lat) (hb : mayBegin s g .vector i k) {sub det : Nat}
    (hbad : accessFault (scAt k.sc 0 + imm).toNat 64 64 = some (sub, det)) :
    exec i s = .next (setCore s g (insFault (envOf s g) k stBounds sub det (getCore s g))) := by
  rw [h.runs s, onCore_vecRun_fault hb (by rw [h.beginFault_eq (mayBegin_ins hb), hbad]; rfl)]

/-- Such an access both of whose rows are refused stays in progress. -/
theorem VectorAccess.exec_refused (h : VectorAccess g imm i lat) (hb : mayBegin s g .vector i k) (hok : accessOk (scAt k.sc 0 + imm).toNat 64)
    (h1 : bankFree s g .vector k ((scAt k.sc 0 + imm).toNat / 32) (vtaken s g k 1 lat) = false)
    (h2 : bankFree s g .vector k ((scAt k.sc 0 + imm).toNat / 32 + 1) (vtaken s g k 1 lat) = false) :
    exec i s = .next (setCore s g (holdRun (newRun (envOf s g) .vector k (getCore s g)) (vtaken s g k 1 lat))) := by
  obtain ⟨hrows, -⟩ := h.newRun_rows (mayBegin_ins hb) (envOf s g) (getCore s g) hok.2.2
  rw [h.exec_ok hb hok, stepRun_of_refused]
  · simp [hrows]
  · rw [hrows]
    exact List.forall_mem_cons.mpr ⟨h1, List.forall_mem_cons.mpr ⟨h2, by simp⟩⟩

end

/-- The bytes of a load of two rows that were both read. -/
theorem loadBytes_two {r : Run} {m : Mem} {a : Nat} (hn : accessLen r.d.ins = 64) (ha : r.addr = a) (hal : a % 64 = 0) :
    loadBytes ((r.took m (a / 32)).took m (a / 32 + 1)) = mread m a 64 := by
  rw [loadBytes_eq (m := m)]
  · exact congrArg₂ (mread m) ha hn
  · intro j hj
    have hj : j < 64 := hn ▸ hj
    have ha' : ((r.took m (a / 32)).took m (a / 32 + 1)).addr = a := ha
    rw [ha']
    rcases Nat.lt_or_ge j 32 with h | h
    · rw [show (a + j) / 32 = a / 32 by omega]
      exact (gotRow_cons_ne _ _ (Nat.succ_ne_self _)).trans (gotRow_cons_same ..)
    · rw [show (a + j) / 32 = a / 32 + 1 by omega]
      exact gotRow_cons_same ..

/-- The instruction in progress with these rows still to be served. -/
def Run.asked (r : Run) (rows : List RowReq) : Run := { r with rows := rows }

/-- A load or store in progress whose 64 bytes at adr lie in two rows, both still to be served. -/
structure TwoRows (i : Instr) (adr : Nat) (r : Run) : Prop where
  ins : r.d.ins = i
  rows : r.rows = [⟨false, adr / 32, 0⟩, ⟨false, adr / 32 + 1, 0⟩]
  later : r.later = []
  first : rowSpan r ⟨false, adr / 32, 0⟩ = (adr, 32)
  second : rowSpan r ⟨false, adr / 32 + 1, 0⟩ = (adr + 32, 32)

/-- Whether the bank of a row serves an instruction in progress. -/
def Run.served (r : Run) (l : List Ask) (row : Nat) (c : Core) : Bool := bankServes l c ⟨userOf r.eng, r.d.seq, row, 0, r.next⟩

section
variable {i : Instr} {adr : Nat} {r : Run} {e : Env} {l : List Ask} {acc : List Nat} {t : Core}

theorem LoadsBytes.two_bad_first (h : LoadsBytes i) (hr : TwoRows i adr r) {u : Nat} (hb : r.served l (adr / 32) t = true)
    (hu : eccBad t adr 32 = some u) : stepRun e l acc r t = insFault e r.d stPoison 0x0A u (markServed (userOf r.eng) (adr / 32) t) := by
  refine stepRun_of_bad (r := r.asked []) ?_
  rw [hr.rows]
  exact h.serve_bad (r := r.asked []) hr.ins hr.first hu hb

theorem LoadsBytes.two_bad_second (h : LoadsBytes i) (hr : TwoRows i adr r) {u : Nat} (hb1 : r.served l (adr / 32) t = true)
    (hb2 : r.served l (adr / 32 + 1) t = true) (hg : eccBad t adr 32 = none) (hu : eccBad t (adr + 32) 32 = some u) :
    stepRun e l acc r t = insFault e r.d stPoison 0x0A u
      (markServed (userOf r.eng) (adr / 32 + 1) (readsRow (userOf r.eng) (adr / 32) adr 32 t)) := by
  refine stepRun_of_bad (r := (r.asked []).took t.sram (adr / 32)) ?_
  rw [hr.rows]
  refine (h.serve (r := r.asked []) hr.ins hr.first hg hb1).trans (h.serve_bad (r := (r.asked []).took t.sram (adr / 32)) hr.ins hr.second ?_ ?_)
  · exact (eccBad_congr (eccCount_ecc ..) _ _).trans hu
  · exact (bankServes_readsRow _ _ _ _ _ (bankOf_ne_succ _)).trans hb2

theorem LoadsBytes.two_served (h : LoadsBytes i) (hr : TwoRows i adr r) (hb1 : r.served l (adr / 32) t = true)
    (hb2 : r.served l (adr / 32 + 1) t = true) (hg1 : eccBad t adr 32 = none) (hg2 : eccBad t (adr + 32) 32 = none) :
    stepRun e l acc r t = runDone e (((r.asked []).took t.sram (adr / 32)).took t.sram (adr / 32 + 1))
      (readsRow (userOf r.eng) (adr / 32 + 1) (adr + 32) 32 (readsRow (userOf r.eng) (adr / 32) adr 32 t)) := by
  refine stepRun_of_moved h.moves ?_ rfl hr.ins hr.later
  rw [hr.rows]
  refine (h.serve (r := r.asked []) hr.ins hr.first hg1 hb1).trans
    ((h.serve (r := (r.asked []).took t.sram (adr / 32)) hr.ins hr.second ?_ ?_).trans ?_)
  · exact (eccBad_congr (eccCount_ecc ..) _ _).trans hg2
  · exact (bankServes_readsRow _ _ _ _ _ (bankOf_ne_succ _)).trans hb2
  · rw [readsRow, eccCount_sram]
    rfl

theorem LoadsBytes.two_first (h : LoadsBytes i) (hr : TwoRows i adr r) (hb1 : r.served l (adr / 32) t = true)
    (hb2 : r.served l (adr / 32 + 1) t = false) (hg : eccBad t adr 32 = none) :
    stepRun e l acc r t = holdRun ((r.asked [⟨false, adr / 32 + 1, 0⟩]).took t.sram (adr / 32)) (readsRow (userOf r.eng) (adr / 32) adr 32 t) := by
  refine stepRun_of_rows ?_ (List.cons_ne_nil _ _)
  rw [hr.rows]
  refine (h.serve (r := r.asked []) hr.ins hr.first hg hb1).trans
    (serveRows_cons_refused (r := (r.asked []).took t.sram (adr / 32)) ?_ rfl)
  exact (bankServes_readsRow _ _ _ _ _ (bankOf_ne_succ _)).trans hb2

theorem LoadsBytes.two_second (h : LoadsBytes i) (hr : TwoRows i adr r) (hb1 : r.served l (adr / 32) t = false)
    (hb2 : r.served l (adr / 32 + 1) t = true) (hg : eccBad t (adr + 32) 32 = none) :
    stepRun e l acc r t = holdRun ((r.asked [⟨false, adr / 32, 0⟩]).took t.sram (adr / 32 + 1))
      (readsRow (userOf r.eng) (adr / 32 + 1) (adr + 32) 32 t) := by
  refine stepRun_of_rows ?_ (List.cons_ne_nil _ _)
  rw [hr.rows]
  exact serveRows_cons_refused (q := ⟨false, adr / 32, 0⟩) (r := r.asked []) hb1 (h.serve (r := r.asked []) hr.ins hr.second hg hb2)

/-- The core that a store's row has written bytes to. -/
def writesRow (u : BankUser) (row a : Nat) (bs : List Byte) (c : Core) : Core := sramPut a bs (markServed u row c)

/-- The bytes of the two rows of a store of 64. -/
theorem StoresBytes.serve_two (h : StoresBytes i) (hr : TwoRows i adr r) (ha : r.addr = adr) (hd : r.data.length = 64) (rest : List RowReq)
    (c : Core) :
    (r.served l (adr / 32) c = true → serveRows e l (⟨false, adr / 32, 0⟩ :: rest) (r.asked []) c =
      serveRows e l rest (r.asked []) (writesRow (userOf r.eng) (adr / 32) adr (r.data.take 32) c)) ∧
    (r.served l (adr / 32 + 1) c = true → serveRows e l (⟨false, adr / 32 + 1, 0⟩ :: rest) (r.asked []) c =
      serveRows e l rest (r.asked []) (writesRow (userOf r.eng) (adr / 32 + 1) (adr + 32) (r.data.drop 32) c)) := by
  refine ⟨fun hb => (h.serve (r := r.asked []) hr.ins hr.first hb).trans ?_, fun hb => (h.serve (r := r.asked []) hr.ins hr.second hb).trans ?_⟩
  · simp only [Run.asked, ha, Nat.sub_self, List.drop_zero]
    rfl
  · simp only [Run.asked, ha, Nat.add_sub_cancel_left]
    rw [List.take_of_length_le (by rw [List.length_drop]; omega)]
    rfl

theorem StoresBytes.two_served (h : StoresBytes i) (hr : TwoRows i adr r) (ha : r.addr = adr) (hd : r.data.length = 64)
    (hb1 : r.served l (adr / 32) t = true) (hb2 : r.served l (adr / 32 + 1) t = true) :
    stepRun e l acc r t = writesRow (userOf r.eng) (adr / 32 + 1) (adr + 32) (r.data.drop 32)
      (writesRow (userOf r.eng) (adr / 32) adr (r.data.take 32) t) := by
  have hb2' := (bankServes_markServed l (userOf r.eng) t (bankOf_ne_succ (adr / 32))).trans hb2
  refine (stepRun_of_moved (r := r.asked []) h.moves ?_ rfl hr.ins hr.later).trans (h.done (r := r.asked []) hr.ins _ _)
  rw [hr.rows]
  exact ((h.serve_two hr ha hd _ t).1 hb1).trans ((h.serve_two hr ha hd [] _).2 hb2')

theorem StoresBytes.two_first (h : StoresBytes i) (hr : TwoRows i adr r) (ha : r.addr = adr) (hd : r.data.length = 64)
    (hb1 : r.served l (adr / 32) t = true) (hb2 : r.served l (adr / 32 + 1) t = false) :
    stepRun e l acc r t = holdRun (r.asked [⟨false, adr / 32 + 1, 0⟩]) (writesRow (userOf r.eng) (adr / 32) adr (r.data.take 32) t) := by
  have hb2' := (bankServes_markServed l (userOf r.eng) t (bankOf_ne_succ (adr / 32))).trans hb2
  refine stepRun_of_rows ?_ (List.cons_ne_nil _ _)
  rw [hr.rows]
  exact ((h.serve_two hr ha hd _ t).1 hb1).trans (serveRows_cons_refused (r := r.asked []) hb2' rfl)

theorem StoresBytes.two_second (h : StoresBytes i) (hr : TwoRows i adr r) (ha : r.addr = adr) (hd : r.data.length = 64)
    (hb1 : r.served l (adr / 32) t = false) (hb2 : r.served l (adr / 32 + 1) t = true) :
    stepRun e l acc r t = holdRun (r.asked [⟨false, adr / 32, 0⟩]) (writesRow (userOf r.eng) (adr / 32 + 1) (adr + 32) (r.data.drop 32) t) := by
  refine stepRun_of_rows ?_ (List.cons_ne_nil _ _)
  rw [hr.rows]
  exact serveRows_cons_refused (q := ⟨false, adr / 32, 0⟩) (r := r.asked []) hb1 ((h.serve_two hr ha hd [] t).2 hb2)

end

theorem length_vBytes (v : VReg) : (vBytes v).length = 64 := by
  rw [vBytes, List.length_flatMap]
  simp [length_bytesOf]

theorem VectorAccess.twoRows {g : Nat} {imm : Word} {i : Instr} {lat : Nat} {k : Disp} (h : VectorAccess g imm i lat) (hk : k.ins = i) (e : Env)
    (c : Core) (hal : (scAt k.sc 0 + imm).toNat % 64 = 0) : TwoRows i (scAt k.sc 0 + imm).toNat (newRun e .vector k c) := by
  obtain ⟨hrows, hlater⟩ := h.newRun_rows hk e c hal
  obtain ⟨hs1, hs2⟩ := h.spans (r := newRun e .vector k c) hk (h.addr c k hk) hal
  exact ⟨hk, hrows, hlater, hs1, hs2⟩

theorem vector_loads_and_stores : Claims.VectorLoadsAndStores := by
  intro s g d a imm k c e adr row rest
  refine ⟨fun i hi hb => ?_, ?_, ?_, ?_⟩
  · obtain ⟨lat, hacc⟩ : ∃ lat, VectorAccess g imm i lat := by
      simp only [List.mem_cons, List.not_mem_nil, or_false] at hi
      rcases hi with rfl | rfl
      · exact ⟨2, vectorAccess_vld ..⟩
      · exact ⟨1, vectorAccess_vst ..⟩
    exact ⟨fun h => hacc.exec_bad hb (accessFault_of_outside h), fun h => hacc.exec_bad hb (accessFault_of_misaligned h)⟩
  · intro t t2 hb hok hf1 hf2
    have hacc := vectorAccess_vld g d a imm
    have hload := LoadsBytes.vld g d a imm
    have hrun := hacc.twoRows (mayBegin_ins hb) e c hok.2.2
    refine ⟨fun u hu => ?_, fun u hg hu => ?_⟩
    · rw [hacc.exec_ok hb hok, hload.two_bad_first hrun hf1 hu]
      rfl
    · rw [hacc.exec_ok hb hok, hload.two_bad_second hrun hf1 hf2 hg hu]
      rfl
  · intro t got hb hok hecc
    have hk := mayBegin_ins hb
    have hacc := vectorAccess_vld g d a imm
    have hload := LoadsBytes.vld g d a imm
    have hrun := hacc.twoRows hk e c hok.2.2
    have hg1 : eccBad t adr 32 = none := eccBad_none_sub hecc (by decide) (le_refl _) (by omega)
    have hg2 : eccBad t (adr + 32) 32 = none := eccBad_none_sub hecc (by decide) (by omega) (by omega)
    refine ⟨fun hf1 hf2 => ?_, fun hf1 hf2 => ?_, fun hf1 hf2 => ?_, fun hf1 hf2 => hacc.exec_refused hb hok hf1 hf2⟩
    · have hbytes : loadBytes ((((newRun e .vector k c).asked []).took c.sram row).took c.sram (row + 1)) = mread c.sram adr 64 :=
        loadBytes_two (r := (newRun e .vector k c).asked []) (by rw [← hacc.len, ← hk]; rfl) (hacc.addr c k hk) hok.2.2
      rw [hacc.exec_ok hb hok, hload.two_served hrun hf1 hf2 hg1 hg2, ← hbytes,
        runDone_vld (r := (((newRun e .vector k c).asked []).took t.sram row).took t.sram (row + 1)) hk, putV, readsRow_v, readsRow_v]
      rfl
    · rw [hacc.exec_ok hb hok, hload.two_first hrun hf1 hf2 hg1]
      rfl
    · rw [hacc.exec_ok hb hok, hload.two_second hrun hf1 hf2 hg2]
      rfl
  · intro t hb hok
    have hk := mayBegin_ins hb
    have hacc := vectorAccess_vst g d a imm
    have hstore := StoresBytes.vst g d a imm
    have hrun := hacc.twoRows hk e c hok.2.2
    have ha : (newRun e .vector k c).addr = adr := hacc.addr c k hk
    have hd : (newRun e .vector k c).data = vBytes c.v[d] := by
      rw [newRun, hk]
      rfl
    have hlen : (newRun e .vector k c).data.length = 64 := by rw [hd, length_vBytes]
    refine ⟨fun hf1 hf2 => ?_, fun hf1 hf2 => ?_, fun hf1 hf2 => ?_, fun hf1 hf2 => hacc.exec_refused hb hok hf1 hf2⟩
    · rw [hacc.exec_ok hb hok, hstore.two_served hrun ha hlen hf1 hf2, hd]
      rfl
    · rw [hacc.exec_ok hb hok, hstore.two_first hrun ha hlen hf1 hf2, hd]
      rfl
    · rw [hacc.exec_ok hb hok, hstore.two_second hrun ha hlen hf1 hf2, hd]
      rfl

end Sys2Proof.Machine
end

section
/-! O7, continued: the vector accesses to an accumulator bank and to the queues, which ask for no row of SRAM (02 R27, R28, R34; 03 R88,
R90; 07 R165). -/

namespace Sys2Proof.Machine

open Sys2Proof.Claims

section
variable {e : Env} {l : List Ask} {acc : List Nat} {r r1 : Run} {c c1 : Core}

/-- A group without rows is served at once. -/
theorem serveRows_of_no_rows (hr : r.rows = []) : serveRows e l r.rows { r with rows := [] } c = (r, c, true) := by
  rw [hr, serveRows, ← hr]

/-- A step without rows whose group waits leaves the instruction as it stands. -/
theorem stepRun_of_wait (hr : r.rows = []) (hg : groupDone e acc r c = .wait) : stepRun e l acc r c = holdRun r c := by
  rw [stepRun, serveRows_of_no_rows hr]
  simp only [hr, List.isEmpty_nil, if_true, hg]

/-- The last step without rows ends the instruction. -/
theorem stepRun_of_last (hr : r.rows = []) (hg : groupDone e acc r c = .go r1 c1) (hb : accBanks r1.d r1.k = []) (hl : r1.later = []) :
    stepRun e l acc r c = runDone e r1 c1 := by
  rw [stepRun, serveRows_of_no_rows hr]
  simp only [hr, List.isEmpty_nil, if_true, hg, hb, hl, List.nil_append]

/-- A step without rows before another such step. -/
theorem stepRun_of_more (hr : r.rows = []) (hg : groupDone e acc r c = .go r1 c1) (hb : accBanks r1.d r1.k = []) (hl : r1.later = [[]]) :
    stepRun e l acc r c = holdRun { r1 with k := r1.k + 1, next := e.now + 1, grp := [], rows := [], later := [] } c1 := by
  rw [stepRun, serveRows_of_no_rows hr]
  simp only [hr, List.isEmpty_nil, if_true, hg, hb, hl, List.nil_append]
  rfl

end

theorem vector_bank_moves : Claims.VectorBankMoves := by
  intro s g d bank slot k c e at_ free
  refine ⟨fun hb => ?_, fun hb => ?_⟩
  · have hk := mayBegin_ins hb
    have hfault : beginFault e k c = none := by simp [beginFault, hk, accessLen]
    have hrows : (newRun e .vector k c).rows = [] := by simp [newRun, groupsOf, hk, accessLen, dataRows, rowsIn, askRows]
    have hlater : (newRun e .vector k c).later = [] := by simp [newRun, groupsOf, hk]
    have hins : (newRun e .vector k c).d.ins = .vldb g d bank slot := hk
    rw [show exec (.vldb g d bank slot) s = onCore g s (vecRun (.vldb g d bank slot) 2) from rfl, onCore_vecRun hb hfault]
    dsimp only
    split
    · next hf =>
      rw [stepRun_of_last (r1 := { newRun e .vector k c with data := mread c.banks at_ 64 }) (c1 := vtaken s g k 1 2) hrows ?_ ?_ hlater]
      · simp only [runDone, hins]
        rfl
      · simp only [groupDone, hins]
        exact if_neg (by simpa using hf)
      · simp only [accBanks, hins]
    · next hf =>
      rw [stepRun_of_wait hrows]
      simp only [groupDone, hins]
      exact if_pos (by simpa using hf)
  · have hk := mayBegin_ins hb
    have hfault : beginFault e k c = none := by simp [beginFault, hk, accessLen]
    have hrows : (newRun e .vector k c).rows = [] := by simp [newRun, groupsOf, hk, accessLen, dataRows, rowsIn, askRows]
    have hlater : (newRun e .vector k c).later = [] := by simp [newRun, groupsOf, hk]
    have hins : (newRun e .vector k c).d.ins = .vstb g d bank slot := hk
    have hdata : (newRun e .vector k c).data = vBytes c.v[d] := by rw [newRun, hk]; rfl
    rw [show exec (.vstb g d bank slot) s = onCore g s (vecRun (.vstb g d bank slot) 1) from rfl, onCore_vecRun hb hfault]
    dsimp only
    split
    · next hf =>
      rw [stepRun_of_last (r1 := newRun e .vector k c)
        (c1 := { vtaken s g k 1 1 with banks := mwrite c.banks at_ (vBytes c.v[d]) }) hrows ?_ ?_ hlater]
      · simp only [runDone, hins]
      · simp only [groupDone, hins, hdata]
        exact if_neg (by simpa using hf)
      · simp only [accBanks, hins]
    · next hf =>
      rw [stepRun_of_wait hrows]
      simp only [groupDone, hins]
      exact if_pos (by simpa using hf)

/-- An instruction whose turn it is and whose wait is not over changes nothing. -/
theorem onCore_vecRun_waits {s : State} {g : Nat} {i : Instr} {k : Disp} {lat : Nat} (h : mayGo s g .vector i k)
    (hw : waitsDone (envOf s g) k (getCore s g) = false) : onCore g s (vecRun i lat) = .next (setCore s g (getCore s g)) := by
  rw [onCore_of_lt s _ h.1.1, vecRun, mayGo_begins h, hw]
  rfl

/-- The entry that an instruction in progress takes, if the head may be taken. -/
theorem takeRow_of_ready {e : Env} {q : Fin 8} {c : Core} (h : iqFree e.now q c = true ∧ headReady c q = true) :
    takeRow e q c = some ((c.iq[q].ent 0).data, takeHead e.now q c) := by
  rw [takeRow, h.1, h.2]
  rfl

theorem takeRow_of_not_ready {e : Env} {q : Fin 8} {c : Core} (h : ¬(iqFree e.now q c = true ∧ headReady c q = true)) :
    takeRow e q c = none := by
  rw [takeRow, if_neg (by simpa using h)]

/-- A queue whose head a compute instruction may take. -/
theorem iqReady_head {now : Nat} {c : Core} {q : Fin 8} (h : iqReady now c q = true) : iqFree now q c = true ∧ headReady c q = true := by
  simp only [iqReady, headFor, Bool.and_eq_true] at h
  exact ⟨h.2.1.1, h.2.2⟩

/-- An output queue that may take entries may take one in this step. -/
theorem oqReady_free {now : Nat} {c : Core} {q : Fin 4} {n : Nat} (h : oqReady now c q n = true) : oqFree now q c = true := by
  simp only [oqReady, roomFor, Bool.and_eq_true] at h
  exact h.1.2.1.1

/-- A step of VQRD takes its entry, or waits for it. -/
theorem groupDone_vqrd {e : Env} {acc : List Nat} {r : Run} {c : Core} {g : Nat} {d : Reg} {q : Fin 8} (hins : r.d.ins = .vqrd g d q) :
    (iqFree e.now q c = true ∧ headReady c q = true →
      groupDone e acc r c = .go { r with data := r.data ++ bytesOf (c.iq[q].ent 0).data 32 } (takeHead e.now q c)) ∧
    (¬(iqFree e.now q c = true ∧ headReady c q = true) → groupDone e acc r c = .wait) := by
  refine ⟨fun hq => ?_, fun hq => ?_⟩
  · simp only [groupDone, hins, takeRow_of_ready hq]
  · simp only [groupDone, hins, takeRow_of_not_ready hq]

/-- A step of VQWR puts its entry, or waits for room. -/
theorem groupDone_vqwr {e : Env} {acc : List Nat} {r : Run} {c : Core} {g : Nat} {d : Reg} {o : Fin 4} {first last : Bool}
    (hins : r.d.ins = .vqwr g d o first last) :
    (oqFree e.now o c = true → groupDone e acc r c =
      if r.k = 0 then .go r (oqPush e.now o ⟨ofBytes 256 (r.data.take 32), outSb c o first false⟩ c)
      else .go r (oqPush e.now o ⟨ofBytes 256 (r.data.drop 32), outSb c o false last⟩ c)) ∧
    (oqFree e.now o c = false → groupDone e acc r c = .wait) := by
  refine ⟨fun ho => ?_, fun ho => ?_⟩
  · simp only [groupDone, hins, ho, Bool.not_true, Bool.false_eq_true, if_false]
  · simp only [groupDone, hins, ho, Bool.not_false, if_true]

theorem vector_queue_access_begins : Claims.VectorQueueAccessBegins := by
  intro s g d q o first last k c e t second
  refine ⟨fun h => ?_, fun h => ?_⟩
  · have hk : k.ins = .vqrd g d q := h.1.2.2
    have hwait : waitsDone e k c = (iqReady e.now c q && decide (2 ≤ c.iq[q].count)) := by simp [waitsDone, hk]
    rw [show exec (.vqrd g d q) s = onCore g s (vecRun (.vqrd g d q) 2) from rfl]
    refine ⟨fun hq hn => ?_, fun hq => onCore_vecRun_waits h (by rw [hwait]; simpa using hq)⟩
    have hfault : beginFault e k c = none := by simp [beginFault, hk, accessLen]
    have hrows : (newRun e .vector k c).rows = [] := by simp [newRun, groupsOf, hk, askRows]
    have hlater : (newRun e .vector k c).later = [[]] := by simp [newRun, groupsOf, hk]
    have hins : (newRun e .vector k c).d.ins = .vqrd g d q := hk
    have hdata : (newRun e .vector k c).data = [] := by rw [newRun, hk]; rfl
    rw [onCore_vecRun (mayGo_mayBegin h (by rw [hwait, hq, decide_eq_true hn]; rfl)) hfault,
      stepRun_of_more (r1 := { newRun e .vector k c with data := bytesOf (c.iq[q].ent 0).data 32 }) (c1 := takeHead e.now q t) hrows ?_ ?_ hlater]
    · rfl
    · have hgo := (groupDone_vqrd (acc := accAsks e t) (c := t) hins).1 (iqReady_head hq)
      rwa [hdata] at hgo
    · simp only [accBanks, hins]
  · have hk : k.ins = .vqwr g d o first last := h.1.2.2
    have hwait : waitsDone e k c = oqReady e.now c o 2 := by simp [waitsDone, hk]
    rw [show exec (.vqwr g d o first last) s = onCore g s (vecRun (.vqwr g d o first last) 2) from rfl]
    refine ⟨fun hq => ?_, fun hq => onCore_vecRun_waits h (by rw [hwait]; exact hq)⟩
    have hfault : beginFault e k c = none := by simp [beginFault, hk, accessLen]
    have hrows : (newRun e .vector k c).rows = [] := by simp [newRun, groupsOf, hk, askRows]
    have hlater : (newRun e .vector k c).later = [[]] := by simp [newRun, groupsOf, hk]
    have hins : (newRun e .vector k c).d.ins = .vqwr g d o first last := hk
    have hdata : (newRun e .vector k c).data = vBytes c.v[d] := by rw [newRun, hk]; rfl
    have hfree : oqFree e.now o t = true := oqReady_free hq
    rw [onCore_vecRun (mayGo_mayBegin h (by rw [hwait, hq])) hfault,
      stepRun_of_more (r1 := newRun e .vector k c)
        (c1 := oqPush e.now o ⟨ofBytes 256 ((vBytes c.v[d]).take 32), outSb c o first false⟩ t) hrows ?_ ?_ hlater]
    · simp only [second, hdata]
      rfl
    · have hgo := (groupDone_vqwr (acc := accAsks e t) (c := t) hins).1 hfree
      rw [if_pos (show (newRun e .vector k c).k = 0 from rfl), hdata] at hgo
      exact hgo
    · simp only [accBanks, hins]

/-- Taking the head of a queue leaves the vector registers. -/
theorem takeHead_v (now : Nat) (q : Fin 8) (c : Core) : (takeHead now q c).v = c.v := by
  obtain ⟨iq, su, drop, h⟩ := steerHead_frame q (iqPop now q c)
  rw [takeHead, h]
  rfl

theorem vector_queue_access_ends : Claims.VectorQueueAccessEnds := by
  intro e l acc r c g d q o first last hk hrows hlater
  refine ⟨fun hins => ⟨fun hfree hhead => ?_, fun hq => ?_⟩, fun hins => ⟨fun hq => ?_, fun hq => ?_⟩⟩
  · rw [stepRun_of_last hrows ((groupDone_vqrd hins).1 ⟨hfree, hhead⟩) (by simp only [accBanks, hins]) hlater]
    simp only [runDone, hins, putV, takeHead_v]
  · exact stepRun_of_wait hrows ((groupDone_vqrd hins).2 hq)
  · have hgo := (groupDone_vqwr (acc := acc) hins).1 hq
    rw [if_neg (by omega)] at hgo
    rw [stepRun_of_last hrows hgo (by simp only [accBanks, hins]) hlater]
    simp only [runDone, hins]
  · exact stepRun_of_wait hrows ((groupDone_vqwr hins).2 hq)

end Sys2Proof.Machine

open Sys2Proof Sys2Proof.Machine

/-- Settles O7: the accesses to SRAM by their two rows, which lie in two banks; those to a bank or a queue by their groups, which ask for no
row. That VQRD's second entry waits for its head once the instruction has begun is the model's reading, log 97. -/
theorem vectorMovesAndMemory : Obligations.VectorMovesAndMemory :=
  ⟨vector_moves, vector_unpack, vector_loads_and_stores, vector_bank_moves, vector_queue_access_begins, vector_queue_access_ends⟩
end

section
/-! O59: DWAIT, from its word to its completion (04 R113). -/

namespace Sys2Proof.Machine

/-- A word of OP 0x62 with bits 4 to 19 free: its opcode, its length and those bits. -/
theorem dwaitWord_fields (mask : BitVec 4) {x : Nat} (hx : x < 65536) :
    let w : Word := BitVec.ofNat 32 (0x62 * 2 ^ 20 + x * 2 ^ 4 + mask.toNat)
    fld w 20 7 = 0x62 ∧ w.getLsbD 31 = false ∧ fld w 4 16 = x ∧ w.extractLsb' 0 4 = mask := by
  have hm := mask.isLt
  have hmask : fld (BitVec.ofNat 32 (0x62 * 2 ^ 20 + x * 2 ^ 4 + mask.toNat)) 0 4 = mask.toNat := by
    rw [fld_ofNat _ (by decide)]
    omega
  refine ⟨?_, ?_, ?_, BitVec.eq_of_toNat_eq hmask⟩
  · rw [fld_ofNat _ (by decide)]
    omega
  · rw [getLsbD_ofNat_eq _ (by decide), decide_eq_false_iff_not]
    omega
  · rw [fld_ofNat _ (by decide)]
    omega

/-- DWAIT decodes from its word exactly when the bits between OP and its mask are 0. -/
theorem decode_dwaitWord (g : Nat) (mask : BitVec 4) {x : Nat} (hx : x < 65536) (w2 : Word) :
    decodeCore g (BitVec.ofNat 32 (0x62 * 2 ^ 20 + x * 2 ^ 4 + mask.toNat)) w2 = if x = 0 then .ok (.dwait g mask) else .error (2, 0) := by
  obtain ⟨hop, hshort, hfree, hmask⟩ := dwaitWord_fields mask hx
  simp only [decodeCore, hop, Nat.reduceLT, if_false, decodeMatrix, hshort, hfree, hmask, Bool.not_false, Bool.true_and]
  by_cases h : x = 0 <;> simp [pick, h]

/-- What DWAIT waits for: every slot of its mask is idle. -/
theorem waitsDone_dwait {e : Env} {k : Disp} {g : Nat} {mask : BitVec 4} {c : Core} (hk : k.ins = .dwait g mask) :
    waitsDone e k c = true ↔ ∀ j : Fin 4, mask.getLsbD j = true → slotFree c j = true := by
  simp only [waitsDone, hk, List.all_eq_true, List.mem_finRange, true_imp_iff, Bool.or_eq_true, Bool.not_eq_true']
  refine forall_congr' fun j => ?_
  cases mask.getLsbD j <;> simp

/-- DWAIT whose turn it is completes if what it waits for is there, and else changes nothing. -/
theorem exec_dwait {s : State} {g : Nat} {mask : BitVec 4} {k : Disp} (h : mayGo s g .dma (.dwait g mask) k) :
    exec (.dwait g mask) s = .next (setCore s g
      (if waitsDone (envOf s g) k (getCore s g) then taken s g .dma k 1 1 else getCore s g)) := by
  rw [show exec (.dwait g mask) s = execDwait g mask s from rfl, execDwait, onCore_of_lt s _ h.1.1, mayGo_begins h]
  cases waitsDone (envOf s g) k (getCore s g) <;> rfl

end Sys2Proof.Machine

open Sys2Proof Sys2Proof.Machine

/-- Settles O59: the word's fields decide the decoding; at the head of its queue DWAIT completes exactly when every slot of its mask is
idle. -/
theorem dwaitFollowsItsRule : Obligations.DwaitFollowsItsRule := by
  intro s g mask k x w2 c
  refine ⟨by simpa using decode_dwaitWord g mask (x := 0) (by decide) w2, fun hpos hx => ?_, fun h => ⟨fun hidle => ?_, ?_⟩⟩
  · rw [decode_dwaitWord g mask hx, if_neg (by omega)]
  · rw [exec_dwait h, if_pos ((waitsDone_dwait h.1.2.2).mpr hidle)]
  · rintro ⟨j, hj, hbusy⟩
    rw [exec_dwait h, if_neg fun hdone => Bool.eq_false_iff.mp hbusy ((waitsDone_dwait h.1.2.2).mp hdone j hj)]
end

section
/-! O11: DMOV from its descriptor to the loaded slot, and the end of a slot's transfer (04 R112 to R117; 02 R31, R46; 09 R210, R223, R226). -/

namespace Sys2Proof.Machine

open Sys2Proof.Claims

-- The step of an instruction whose group is complete ---------------------------------------------------------------

section
variable {e : Env} {l : List Ask} {acc : List Nat} {r0 r r1 : Run} {c0 c c1 : Core}

/-- A group that is complete and finds a fault. -/
theorem stepRun_of_group_bad (h : serveRows e l r0.rows { r0 with rows := [] } c0 = (r, c, true)) (hr : r.rows = [])
    (hg : groupDone e acc r c = .bad c1) : stepRun e l acc r0 c0 = c1 := by
  rw [stepRun, h]
  simp only [hr, List.isEmpty_nil, if_true, hg]

/-- The last group, complete, of an instruction that uses no accumulator bank ends the instruction. -/
theorem stepRun_of_group_last (h : serveRows e l r0.rows { r0 with rows := [] } c0 = (r, c, true)) (hr : r.rows = [])
    (hg : groupDone e acc r c = .go r1 c1) (hb : accBanks r1.d r1.k = []) (hl : r1.later = []) : stepRun e l acc r0 c0 = runDone e r1 c1 := by
  rw [stepRun, h]
  simp only [hr, List.isEmpty_nil, if_true, hg, hb, hl, List.nil_append]

/-- Another group, complete, of such an instruction asks for the next in the next step. -/
theorem stepRun_of_group_more {p : List (Bool × Nat)} {t : List (List (Bool × Nat))}
    (h : serveRows e l r0.rows { r0 with rows := [] } c0 = (r, c, true)) (hr : r.rows = [])
    (hg : groupDone e acc r c = .go r1 c1) (hb : accBanks r1.d r1.k = []) (hl : r1.later = p :: t) :
    stepRun e l acc r0 c0 = holdRun { r1 with k := r1.k + 1, next := e.now + 1, grp := p, rows := askRows p, later := t } c1 := by
  rw [stepRun, h]
  simp only [hr, List.isEmpty_nil, if_true, hg, hb, hl, List.nil_append]

end

/-- An instruction of SRAM, a queue or a bank whose turn it is and whose wait is not over changes nothing. -/
theorem onCore_runDo_waits {s : State} {g : Nat} {eng : Engine} {i : Instr} {k : Disp} {occ lat : Nat} (h : mayGo s g eng i k)
    (hw : waitsDone (envOf s g) k (getCore s g) = false) : onCore g s (runDo eng i occ lat) = .next (setCore s g (getCore s g)) := by
  rw [onCore_of_lt s _ h.1.1, runDo, mayGo_begins h, hw]
  rfl

-- A word and its bytes -------------------------------------------------------------------------------------------

theorem getLsbD_byteAt {n : Nat} (w : BitVec n) (i j : Nat) (h : j < 8) : (byteAt w i).getLsbD j = w.getLsbD (8 * i + j) := by
  rw [byteAt, BitVec.getLsbD_extractLsb', decide_eq_true h, Bool.true_and]

/-- A row is the word that its bytes spell. -/
theorem ofBytes_bytesOf (w : Row) : ofBytes 256 (bytesOf w 32) = w := by
  apply BitVec.eq_of_getLsbD_eq
  intro i hi
  have hbyte : byteAt (ofBytes 256 (bytesOf w 32)) (i / 8) = byteAt w (i / 8) := by
    rw [byteAt_ofBytes _ (by omega), getD_bytesOf w (by omega)]
  rw [← Nat.div_add_mod i 8, ← getLsbD_byteAt _ _ _ (Nat.mod_lt i (by decide)), hbyte, getLsbD_byteAt _ _ _ (Nat.mod_lt i (by decide))]

-- The rows of a DMOV ---------------------------------------------------------------------------------------------

section
variable {g : Nat} {slot : Fin 4} {a : Reg} {imm : Word} {e : Env} {l : List Ask} {acc : List Nat} {r : Run} {c : Core}

/-- DMOV takes a row whether or not it holds an uncorrectable word. -/
theorem rowDone_dmov (hins : r.d.ins = .dmov g slot a imm) (q : RowReq) :
    rowDone e q r c = ({ r with got := (q.scale, q.row, ofBytes 256 (mread c.sram (32 * q.row) 32)) :: r.got }, eccCount (32 * q.row) 32 c, true) := by
  cases hecc : eccBad c (32 * q.row) 32 <;>
    simp [rowDone, rowSpan, hins, accessLen, storeBytes, faultsLater, hecc]

/-- DMOV with one row to read that its bank serves. -/
theorem serveRows_dmov (hins : r.d.ins = .dmov g slot a imm) {row : Nat} (hrows : r.rows = [⟨false, row, 0⟩])
    (hb : bankServes l c ⟨userOf r.eng, r.d.seq, row, 0, r.next⟩ = true) :
    serveRows e l r.rows { r with rows := [] } c = ((r.asked []).took c.sram row, readsRow (userOf r.eng) row (32 * row) 32 c, true) := by
  rw [hrows, serveRows_cons_served (r := { r with rows := [] }) hb (rowDone_dmov (r := { r with rows := [] }) hins _)]
  rfl

theorem accBanks_dmov {k : Disp} (hk : k.ins = .dmov g slot a imm) (n : Nat) : accBanks k n = [] := by
  simp only [accBanks, hk]

/-- What a DMOV does at the end of its groups: the descriptor first, then the template. -/
theorem groupDone_dmov (hins : r.d.ins = .dmov g slot a imm) :
    groupDone e acc r c = if r.k = 0 then descDone e slot r c else templateDone e slot r c := by
  simp only [groupDone, hins]

/-- The loaded slot. -/
theorem runDone_dmov (hins : r.d.ins = .dmov g slot a imm) :
    runDone e r c = { c with
      dma := c.dma.set slot (slotImage (ofBytes 256 r.data) r.d.pc r.d.long)
      x := { c.x with
        slotAt := c.x.slotAt.set slot (e.now + (if r.k = 0 then 2 else 1))
        slotSeq := c.x.slotSeq.set slot (r.d.seq + 1)
        slotN := c.x.slotN.set slot
          (if dKind (ofBytes 256 r.data) = 5 then hN (gotRow r.got false (dSrc (ofBytes 256 r.data) / 32)) else 0)
        slotFin := c.x.slotFin.set slot false
        copied := c.x.copied.set slot none
        stgLeft := c.x.stgLeft.set slot []
        tout := c.x.tout.set slot .none } } := by
  simp only [runDone, hins]

end

-- The descriptor -------------------------------------------------------------------------------------------------

/-- The staged descriptor, if it is that of an address (09 R210). -/
def heldDesc (c : Core) (adr : Nat) : Option (BitVec 256) := c.x.dRow.bind (fun p => if p.1 = adr then some p.2 else none)

theorem descStaged_eq (c : Core) (adr : Nat) : descStaged c adr = (heldDesc c adr).isSome := by
  rw [descStaged, heldDesc]
  cases c.x.dRow with
  | none => rfl
  | some p => by_cases h : p.1 = adr <;> simp [h]

theorem heldDesc_congr {c c' : Core} (h : c'.x.dRow = c.x.dRow) (adr : Nat) : heldDesc c' adr = heldDesc c adr := by
  rw [heldDesc, heldDesc, h]

/-- A staged descriptor of an address is the one noted. -/
theorem heldDesc_some_iff {c : Core} {adr : Nat} {w : BitVec 256} : heldDesc c adr = some w ↔ c.x.dRow = some (adr, w) := by
  rw [heldDesc]
  cases c.x.dRow with
  | none => simp
  | some p =>
    obtain ⟨b, v⟩ := p
    simp

section
variable {e : Env} {slot : Fin 4} {r : Run} {c : Core} {w : BitVec 256}

/-- The checks of a descriptor w, staged or just read: its fields, its ranges, and an uncorrectable word where it was just read
(04 R112, R114, R115). -/
theorem descDone_of_word (hw : (heldDesc c r.addr).getD (gotRow r.got false (r.addr / 32)) = w) :
    (∀ j, descBad w = some j → descDone e slot r c = .bad (insFault e r.d stFormat 0x12 (slotDetail slot j) c)) ∧
    (∀ b, descBad w = none → descRange w = some b → descDone e slot r c = .bad (insFault e r.d stBounds 0x14 (slotDetail slot (b / 4)) c)) ∧
    (∀ u, descBad w = none → descRange w = none → heldDesc c r.addr = none → eccBad c r.addr 32 = some u →
      descDone e slot r c = .bad (insFault e r.d stPoison 0x0A u c)) ∧
    (descBad w = none → descRange w = none → (heldDesc c r.addr = none → eccBad c r.addr 32 = none) →
      descDone e slot r c = .go { r with data := bytesOf w 32, later := if dKind w = 5 then [[(false, dSrc w / 32)]] else [] }
        { c with x := { c.x with dRow := some (r.addr, w) } }) := by
  cases hd : heldDesc c r.addr with
  | none =>
    have hstaged : descStaged c r.addr = false := by rw [descStaged_eq, hd]; rfl
    have hgot : gotRow r.got false (r.addr / 32) = w := by rw [← hw, hd]; rfl
    refine ⟨fun j hj => ?_, fun b hj hb => ?_, fun u hj hb _ hu => ?_, fun hj hb hu => ?_⟩
    · simp [descDone, hstaged, hgot, hj]
    · simp [descDone, hstaged, hgot, hj, hb]
    · simp [descDone, hstaged, hgot, hj, hb, hu]
    · simp [descDone, hstaged, hgot, hj, hb, hu]
  | some v =>
    obtain rfl : v = w := by rw [← hw, hd]; rfl
    have hstaged : descStaged c r.addr = true := by rw [descStaged_eq, hd]; rfl
    have hrow := heldDesc_some_iff.mp hd
    refine ⟨fun j hj => ?_, fun b hj hb => ?_, fun u hj hb h _ => ?_, fun hj hb hu => ?_⟩
    · simp [descDone, hstaged, hrow, hj]
    · simp [descDone, hstaged, hrow, hj, hb]
    · exact absurd h (by simp)
    · simp [descDone, hstaged, hrow, hj, hb]

end

-- DMOV -----------------------------------------------------------------------------------------------------------

section
variable {s : State} {g : Nat} {slot : Fin 4} {a : Reg} {imm : Word} {k : Disp}

theorem waitsDone_dmov (hk : k.ins = .dmov g slot a imm) (e : Env) (c : Core) : waitsDone e k c = slotFree c slot := by
  simp only [waitsDone, hk]

/-- What a DMOV checks as it begins: the address of its descriptor (04 R112). -/
theorem beginFault_dmov (hk : k.ins = .dmov g slot a imm) (e : Env) (c : Core) {adr : Nat} (ha : (scAt k.sc 0 + imm).toNat = adr) :
    (adr % 32 = 0 ∧ inData adr 32 = true → beginFault e k c = none) ∧
    (¬(adr % 32 = 0 ∧ inData adr 32 = true) →
      beginFault e k c = some (stBounds, 0x14, (slot : Nat) * 16384 + adr % 65536 / 4 % 16384)) := by
  simp only [beginFault, memAddr, hk, addrOf, ha]
  refine ⟨fun h => if_neg (by simp [h]), fun h => if_pos ?_⟩
  rwa [not_and_or, Bool.not_eq_true, ← Bool.not_eq_true'] at h

/-- A DMOV as it begins asks for the row of its descriptor, unless it is the staged one. -/
theorem newRun_dmov (hk : k.ins = .dmov g slot a imm) (e : Env) (c : Core) {adr : Nat} (ha : (scAt k.sc 0 + imm).toNat = adr) :
    (newRun e .dma k c).addr = adr ∧ (newRun e .dma k c).later = [] ∧
      (newRun e .dma k c).rows = if (heldDesc c adr).isSome then [] else [⟨false, adr / 32, 0⟩] := by
  simp only [newRun, groupsOf, memAddr, hk, addrOf, ha, descStaged_eq]
  refine ⟨trivial, rfl, ?_⟩
  cases heldDesc c adr <;> rfl

/-- A DMOV whose slot is idle and whose descriptor's address is right does its first step on the core that has taken it. -/
theorem exec_dmov (h : mayGo s g .dma (.dmov g slot a imm) k) (hs : slotFree (getCore s g) slot = true) {adr : Nat}
    (ha : (scAt k.sc 0 + imm).toNat = adr) (hadr : adr % 32 = 0 ∧ inData adr 32 = true) :
    exec (.dmov g slot a imm) s = .next (setCore s g (stepRun (envOf s g) (asksNow (envOf s g) (taken s g .dma k 1 2))
      (accAsks (envOf s g) (taken s g .dma k 1 2)) (newRun (envOf s g) .dma k (getCore s g)) (taken s g .dma k 1 2))) :=
  onCore_runDo (mayGo_mayBegin h (by rw [waitsDone_dmov h.1.2.2, hs])) ((beginFault_dmov h.1.2.2 _ _ ha).1 hadr)

/-- The core once a DMOV in core t has its descriptor at hand: t itself where it is staged, and else with its row read. -/
def descRead (adr : Nat) (t : Core) : Core := if (heldDesc t adr).isSome then t else readsRow .dmov (adr / 32) adr 32 t

theorem descRead_eq (adr : Nat) (t : Core) :
    ∃ act ce served, descRead adr t = { t with r := { t.r with actSram := act, sramCe := ce }, x := { t.x with served := served } } := by
  obtain ⟨ce, hce⟩ := eccCount_eq adr 32 (markServed .dmov (adr / 32) t)
  cases h : heldDesc t adr with
  | none => exact ⟨_, ce, _, by rw [descRead, h, readsRow, hce]; rfl⟩
  | some w => exact ⟨t.r.actSram, t.r.sramCe, t.x.served, by rw [descRead, h]; rfl⟩

theorem descRead_ecc (adr : Nat) (t : Core) : (descRead adr t).ecc = t.ecc := by
  obtain ⟨_, _, _, h⟩ := descRead_eq adr t
  rw [h]

theorem descRead_dRow (adr : Nat) (t : Core) : (descRead adr t).x.dRow = t.x.dRow := by
  obtain ⟨_, _, _, h⟩ := descRead_eq adr t
  rw [h]

/-- The first step of a DMOV whose descriptor w is staged or is served by its bank: it has the descriptor at hand. -/
theorem serveRows_newRun_dmov (hk : k.ins = .dmov g slot a imm) (e : Env) (l : List Ask) {c t : Core} (hd : t.x.dRow = c.x.dRow) {adr : Nat}
    (ha : (scAt k.sc 0 + imm).toNat = adr) (hal : adr % 32 = 0)
    (hb : (heldDesc c adr).isSome = true ∨ bankServes l t ⟨.dmov, k.seq, adr / 32, 0, e.now⟩ = true) :
    ∃ r, serveRows e l (newRun e .dma k c).rows { newRun e .dma k c with rows := [] } t = (r, descRead adr t, true) ∧
      r.rows = [] ∧ r.d = k ∧ r.k = 0 ∧ r.addr = adr ∧
      (heldDesc (descRead adr t) r.addr).getD (gotRow r.got false (r.addr / 32)) = (heldDesc c adr).getD (ofBytes 256 (mread t.sram adr 32)) := by
  obtain ⟨haddr, -, hrows⟩ := newRun_dmov hk e c ha
  have hrow : 32 * (adr / 32) = adr := by omega
  have hheld : heldDesc (descRead adr t) adr = heldDesc c adr := heldDesc_congr ((descRead_dRow adr t).trans hd) adr
  cases hh : heldDesc c adr with
  | some w =>
    rw [hh, Option.isSome_some, if_pos rfl] at hrows
    refine ⟨(newRun e .dma k c).asked [], ?_, rfl, rfl, rfl, haddr, ?_⟩
    · rw [hrows, serveRows, descRead, heldDesc_congr hd, hh, Option.isSome_some, if_pos rfl]
      rfl
    · rw [show ((newRun e .dma k c).asked []).addr = adr from haddr, hheld, hh, Option.getD_some, Option.getD_some]
  | none =>
    rw [hh, Option.isSome_none, if_neg Bool.false_ne_true] at hrows
    rw [hh, Option.isSome_none] at hb
    have hserved := serveRows_dmov (r := newRun e .dma k c) (l := l) (e := e) (c := t) hk hrows (hb.resolve_left Bool.false_ne_true)
    refine ⟨((newRun e .dma k c).asked []).took t.sram (adr / 32), ?_, rfl, rfl, rfl, haddr, ?_⟩
    · rw [hserved, descRead, heldDesc_congr hd, hh, hrow, Option.isSome_none, if_neg Bool.false_ne_true]
      rfl
    · rw [show (((newRun e .dma k c).asked []).took t.sram (adr / 32)).addr = adr from haddr, hheld, hh, Option.getD_none, Option.getD_none]
      exact (gotRow_cons_same ..).trans (by rw [hrow])

/-- The outcomes of that step, by the checks of the descriptor: a fault, the loaded slot, or for TOUT the row of the template to be read
next (04 R114, R115). -/
theorem stepRun_newRun_dmov (hk : k.ins = .dmov g slot a imm) (e : Env) (l : List Ask) (acc : List Nat) {c t : Core} (hd : t.x.dRow = c.x.dRow)
    {adr : Nat} (ha : (scAt k.sc 0 + imm).toNat = adr) (hal : adr % 32 = 0)
    (hb : (heldDesc c adr).isSome = true ∨ bankServes l t ⟨.dmov, k.seq, adr / 32, 0, e.now⟩ = true) {w : BitVec 256}
    (hw : (heldDesc c adr).getD (ofBytes 256 (mread t.sram adr 32)) = w) :
    let step := stepRun e l acc (newRun e .dma k c) t
    let t1 := descRead adr t
    let t2 := { t1 with x := { t1.x with dRow := some (adr, w) } }
    (∀ j, descBad w = some j → step = insFault e k stFormat 0x12 (slotDetail slot j) t1) ∧
    (∀ b, descBad w = none → descRange w = some b → step = insFault e k stBounds 0x14 (slotDetail slot (b / 4)) t1) ∧
    (∀ u, descBad w = none → descRange w = none → heldDesc c adr = none → eccBad t adr 32 = some u → step = insFault e k stPoison 0x0A u t1) ∧
    (descBad w = none → descRange w = none → (heldDesc c adr = none → eccBad t adr 32 = none) →
      (dKind w ≠ 5 → ∃ r, step = runDone e r t2 ∧ r.d = k ∧ r.k = 0 ∧ r.data = bytesOf w 32) ∧
      (dKind w = 5 → ∃ r, step = holdRun r t2 ∧ r.d = k ∧ r.k = 1 ∧ r.addr = adr ∧ r.data = bytesOf w 32 ∧ r.next = e.now + 1 ∧
        r.rows = [⟨false, dSrc w / 32, 0⟩] ∧ r.later = [])) := by
  intro step t1 t2
  obtain ⟨r, hserve, hrows, rfl, hrk, rfl, hword⟩ := serveRows_newRun_dmov hk e l hd ha hal hb
  have hecc : eccBad t1 r.addr 32 = eccBad t r.addr 32 := eccBad_congr (descRead_ecc ..) _ _
  have hheld : heldDesc t1 r.addr = heldDesc c r.addr := heldDesc_congr ((descRead_dRow ..).trans hd) _
  have hgroup : groupDone e acc r t1 = descDone e slot r t1 := by rw [groupDone_dmov hk, if_pos hrk]
  obtain ⟨hformat, hrange, hpoison, hgo⟩ := descDone_of_word (e := e) (slot := slot) (hword.trans hw)
  rw [hheld, hecc] at hpoison hgo
  refine ⟨fun j hj => ?_, fun b hj hr => ?_, fun u hj hr hn hu => ?_, fun hj hr hu => ⟨fun h5 => ?_, fun h5 => ?_⟩⟩
  · exact stepRun_of_group_bad hserve hrows (hgroup.trans (hformat j hj))
  · exact stepRun_of_group_bad hserve hrows (hgroup.trans (hrange b hj hr))
  · exact stepRun_of_group_bad hserve hrows (hgroup.trans (hpoison u hj hr hn hu))
  · have hstep := hgroup.trans (hgo hj hr hu)
    rw [if_neg h5] at hstep
    exact ⟨_, stepRun_of_group_last hserve hrows hstep (accBanks_dmov hk _) rfl, rfl, hrk, rfl⟩
  · have hstep := hgroup.trans (hgo hj hr hu)
    rw [if_pos h5] at hstep
    exact ⟨_, stepRun_of_group_more hserve hrows hstep (accBanks_dmov hk _) rfl, rfl, by rw [hrk], rfl, rfl, rfl, rfl, rfl⟩

end

/-- Equal cores give equal answers. -/
theorem next_setCore {s : State} {g : Nat} {c c' : Core} (h : c = c') : (.next (setCore s g c) : Out) = .next (setCore s g c') := by rw [h]

theorem dmov_loads_its_slot : Claims.DmovLoadsItsSlot := by
  intro s g slot a imm k c e i adr held w t t1 h
  have hk : k.ins = i := h.1.2.2
  have hheld : heldDesc c adr = held := by
    simp only [held, heldDesc]
    cases c.x.dRow <;> rfl
  have ht1 : descRead adr t = t1 := by
    rw [descRead, show heldDesc t adr = held from hheld]
    rfl
  have hwait := waitsDone_dmov hk e c
  refine ⟨fun hs => onCore_runDo_waits h (hwait.trans hs), fun hs => ⟨fun hbad => ?_, fun hal hin => ⟨fun hnone hfree => ?_, fun hb => ?_⟩⟩⟩
  · exact onCore_runDo_fault (mayGo_mayBegin h (hwait.trans hs)) ((beginFault_dmov hk e c rfl).2 hbad)
  · obtain ⟨-, -, hrows⟩ := newRun_dmov (adr := adr) hk e c rfl
    rw [hheld, hnone, Option.isSome_none, if_neg Bool.false_ne_true] at hrows
    rw [exec_dmov h hs rfl ⟨hal, hin⟩, stepRun_of_refused]
    · rw [hrows]
      exact List.cons_ne_nil _ _
    · rw [hrows]
      exact List.forall_mem_cons.mpr ⟨hfree, by simp⟩
  · rw [exec_dmov h hs rfl ⟨hal, hin⟩]
    obtain ⟨hformat, hrange, hpoison, hgo⟩ := stepRun_newRun_dmov (adr := adr) (c := c) (t := t) (w := w) hk e (asksNow e t) (accAsks e t)
      rfl rfl hal (by rwa [hheld]) (by rw [hheld]; rfl)
    rw [ht1] at hformat hrange hpoison hgo
    rw [hheld] at hpoison hgo
    refine ⟨fun j hj => next_setCore (hformat j hj), fun b hj hr => next_setCore (hrange b hj hr),
      fun u hj hr hn hu => next_setCore (hpoison u hj hr hn hu), fun hj hr hu => ⟨_, rfl, ?_⟩⟩
    obtain ⟨hload, hmore⟩ := hgo hj hr hu
    obtain ⟨act, ce, served, hread⟩ := descRead_eq adr t
    have hcore := ht1.symm.trans hread
    by_cases h5 : dKind w = 5
    · obtain ⟨r, hstep, hd, hrk, haddr, hdata, hnext, hrows, hlater⟩ := hmore h5
      rw [hstep, hcore]
      exact ⟨rfl, rfl, fun h => absurd h5 h, fun _ => ⟨rfl, r, rfl, hd, hrk, haddr, hdata, hnext, hrows, hlater⟩⟩
    · obtain ⟨r, hstep, hd, hrk, hdata⟩ := hload h5
      rw [hstep, runDone_dmov (by rw [hd, hk]), hcore, hdata, hd, hrk, ofBytes_bytesOf]
      refine ⟨rfl, rfl, fun _ => ⟨rfl, ?_, ?_, rfl⟩, fun h => absurd h h5⟩
      · simp
      · simp

/-- The checks of a template tpl that a DMOV has read: its form, the range that its n implies, and an uncorrectable word (04 R115;
05 R145). -/
theorem templateDone_of_row {e : Env} {slot : Fin 4} {r : Run} {c : Core} {src : Nat} {tpl : Row} (hsrc : dSrc (ofBytes 256 r.data) = src)
    (htpl : gotRow r.got false (src / 32) = tpl) :
    (templateValid tpl = false → templateDone e slot r c = .bad (insFault e r.d stFormat 0x13 (slotDetail slot 0) c)) ∧
    (templateValid tpl = true → inData src (32 + 2 * hN tpl) = false →
      templateDone e slot r c = .bad (insFault e r.d stBounds 0x14 (slotDetail slot (src / 4)) c)) ∧
    (∀ u, templateValid tpl = true → inData src (32 + 2 * hN tpl) = true → eccBad c src 32 = some u →
      templateDone e slot r c = .bad (insFault e r.d stPoison 0x0A u c)) ∧
    (templateValid tpl = true → inData src (32 + 2 * hN tpl) = true → eccBad c src 32 = none → templateDone e slot r c = .go r c) := by
  refine ⟨fun hv => ?_, fun hv hin => ?_, fun u hv hin hu => ?_, fun hv hin hu => ?_⟩
  · simp [templateDone, hsrc, htpl, hv]
  · simp [templateDone, hsrc, htpl, hv, hin]
  · simp [templateDone, hsrc, htpl, hv, hin, hu]
  · simp [templateDone, hsrc, htpl, hv, hin, hu]

theorem dmov_checks_its_template : Claims.DmovChecksItsTemplate := by
  intro e l acc r c g slot a imm w src ask tpl c1 hins hk hrows hlater h5 hal
  refine ⟨fun hno => ?_, fun hyes => ?_⟩
  · refine stepRun_of_refused (by rw [hrows]; exact List.cons_ne_nil _ _) ?_
    rw [hrows]
    exact List.forall_mem_cons.mpr ⟨hno, by simp⟩
  · have hrow : 32 * (src / 32) = src := by omega
    obtain ⟨t, hserve, hd, ht, hdata, htrows, htlater, hgot⟩ : ∃ t, serveRows e l r.rows { r with rows := [] } c = (t, c1, true) ∧
        t.d = r.d ∧ t.k = 1 ∧ t.data = r.data ∧ t.rows = [] ∧ t.later = [] ∧ gotRow t.got false (src / 32) = tpl := by
      refine ⟨(r.asked []).took c.sram (src / 32), (serveRows_dmov hins hrows hyes).trans ?_, rfl, hk, rfl, rfl, hlater,
        (gotRow_cons_same ..).trans (by rw [hrow])⟩
      rw [hrow]
      rfl
    have htins : t.d.ins = .dmov g slot a imm := by rw [hd, hins]
    have hsrc : dSrc (ofBytes 256 t.data) = src := by rw [hdata]
    have hecc : eccBad c1 src 32 = eccBad c src 32 := eccBad_congr (eccCount_ecc ..) _ _
    have hgroup : groupDone e acc t c1 = templateDone e slot t c1 := by rw [groupDone_dmov htins, if_neg (by omega)]
    obtain ⟨hform, hrange, hpoison, hgo⟩ := templateDone_of_row (e := e) (slot := slot) (c := c1) hsrc hgot
    rw [hecc] at hpoison hgo
    rw [hd] at hform hrange hpoison
    refine ⟨fun hv => ?_, fun hv hin => ?_, fun u hv hin hu => ?_, fun hv hin hu => ?_⟩
    · exact stepRun_of_group_bad hserve htrows (hgroup.trans (hform hv))
    · exact stepRun_of_group_bad hserve htrows (hgroup.trans (hrange hv hin))
    · exact stepRun_of_group_bad hserve htrows (hgroup.trans (hpoison u hv hin hu))
    · have hstep := stepRun_of_group_last hserve htrows (hgroup.trans (hgo hv hin hu)) (accBanks_dmov htins _) htlater
      obtain ⟨ce, hc1⟩ := eccCount_eq src 32 (markServed (userOf r.eng) (src / 32) c)
      have hc1 : c1 = _ := hc1
      intro c'
      have hc' : c' = _ := hstep.trans (runDone_dmov htins)
      rw [hsrc, hgot, hdata, hd, ht, if_pos (show dKind (ofBytes 256 r.data) = 5 from h5)] at hc'
      rw [hc', hc1]
      refine ⟨rfl, ?_, ?_, ?_, ?_, rfl⟩ <;> simp

-- The end of a slot ----------------------------------------------------------------------------------------------

/-- A field that was written reads as written. -/
theorem fld_setFld_same {n lo len : Nat} (w : BitVec n) (v : Nat) (h : lo + len ≤ n) : fld (setFld w lo len v) lo len = v % 2 ^ len := by
  rw [fld, show (setFld w lo len v).extractLsb' lo len = BitVec.ofNat len v from ?_, BitVec.toNat_ofNat]
  apply BitVec.eq_of_getLsbD_eq
  intro j hj
  rw [BitVec.getLsbD_extractLsb', getLsbD_setFld, if_pos (by omega), BitVec.getLsbD_ofNat, Nat.add_sub_cancel_left]

/-- A field beside the one that was written reads as before. -/
theorem fld_setFld_ne {n lo len lo' len' : Nat} (w : BitVec n) (v : Nat) (h : lo' + len' ≤ lo ∨ lo + len ≤ lo') :
    fld (setFld w lo len v) lo' len' = fld w lo' len' := by
  rw [fld, fld, show (setFld w lo len v).extractLsb' lo' len' = w.extractLsb' lo' len' from ?_]
  apply BitVec.eq_of_getLsbD_eq
  intro j hj
  rw [BitVec.getLsbD_extractLsb', BitVec.getLsbD_extractLsb', getLsbD_setFld, if_neg (by omega)]

/-- The image of a slot that goes on with tile number d. -/
def nextTile (w : BitVec 256) (d : Nat) : BitVec 256 := setFld (setFld (setFld w 208 16 d) 192 16 0) 224 32 0

theorem nextTile_fields (w : BitVec 256) {d : Nat} (hd : d < 65536) :
    dKind (nextTile w d) = dKind w ∧ dProg (nextTile w d) = 0 ∧ dDone (nextTile w d) = d := by
  simp only [nextTile, dKind, dProg, dDone]
  refine ⟨?_, ?_, ?_⟩
  · rw [fld_setFld_ne _ _ (by decide), fld_setFld_ne _ _ (by decide), fld_setFld_ne _ _ (by decide)]
  · rw [fld_setFld_ne _ _ (by decide), fld_setFld_same _ _ (by decide), Nat.zero_mod]
  · rw [fld_setFld_ne _ _ (by decide), fld_setFld_ne _ _ (by decide), fld_setFld_same _ _ (by decide)]
    exact Nat.mod_eq_of_lt hd

theorem dTiles_le (w : BitVec 256) : dTiles w ≤ 65536 := (w.extractLsb' 128 16).isLt

/-- Whether a finished slot still waits in its step: for the scalar engine's signal or for a lower slot (09 R223). -/
def slotWaits (e : Env) (slot : Fin 4) (c : Core) : Bool :=
  signalAhead e c || (List.finRange 4).any (fun j => decide (j < slot) && slotEnds e j c)

theorem slotWaits_iff {e : Env} {slot : Fin 4} {c : Core} :
    slotWaits e slot c = true ↔ signalAhead e c = true ∨ ∃ j : Fin 4, j < slot ∧ slotEnds e j c = true := by
  simp [slotWaits]

/-- The core of a finished slot that has advanced its channel to pr and set its flag. -/
def slotSignals (w : BitVec 256) (pr : BitVec 16 × BitVec 16) (c : Core) : Core :=
  { c with ch := c.ch.set (dCh w) pr, flags := if dFle w then setBit c.flags (dFlag w) true else c.flags }

/-- The channel counters that a finished slot leaves, if its channel's bound holds (09 R226). -/
def slotAdvance (w : BitVec 256) (c : Core) : Option (BitVec 16 × BitVec 16) :=
  if dChe w then chPutOn c.ch[dCh w] (dAmt w) else some c.ch[dCh w]

/-- What a finished slot of a core that runs does, by whether it waits, by its channel's bound and by the tiles left (04 R117). -/
theorem exec_dmaSlotComplete {s : State} {g : Nat} {slot : Fin 4} {c : Core} {e : Env} {w : BitVec 256} (hg : g < numCores)
    (hc : getCore s g = c) (he : envOf s g = e) (hw : c.dma[slot] = w) (hlive : live e c = true) (hfin : c.x.slotFin[slot] = true)
    (hkind : dKind w ≠ 0) :
    (slotWaits e slot c = true → exec (.dmaSlotComplete g slot) s = .next (setCore s g c)) ∧
    (slotWaits e slot c = false →
      (slotAdvance w c = none → exec (.dmaSlotComplete g slot) s = .next (setCore s g (slotFault e slot w stSync 0x0B (dCh w) c))) ∧
      ∀ pr, slotAdvance w c = some pr →
        ((dKind w = 4 ∨ dKind w = 8) ∧ dDone w + 1 < dTiles w →
          exec (.dmaSlotComplete g slot) s = .next (setCore s g { slotSignals w pr c with
            dma := c.dma.set slot (nextTile w (dDone w + 1)), x := { c.x with slotFin := c.x.slotFin.set slot false } })) ∧
        (¬((dKind w = 4 ∨ dKind w = 8) ∧ dDone w + 1 < dTiles w) →
          exec (.dmaSlotComplete g slot) s = .next (setCore s g (slotIdle slot (slotSignals w pr c))))) := by
  have hmay : (!(live e c && c.x.slotFin[slot] && decide (dKind w ≠ 0))) = false := by simp [hlive, hfin, hkind]
  rw [show exec (.dmaSlotComplete g slot) s = execDmaSlotComplete g slot s from rfl, execDmaSlotComplete, onCore_of_lt s _ hg, hc, he]
  simp only [hw, hmay, Bool.false_eq_true, if_false]
  refine ⟨fun hwait => next_setCore (if_pos hwait), fun hgo => ?_⟩
  unfold slotWaits at hgo
  simp only [hgo, Bool.false_eq_true, if_false]
  unfold slotAdvance
  refine ⟨fun ha => ?_, fun pr ha => ⟨fun ht => ?_, fun ht => ?_⟩⟩
  · simp only [ha]
  · simp only [ha]
    exact next_setCore (if_pos (by simpa using ht))
  · simp only [ha]
    exact next_setCore (if_neg (by simpa using ht))

/-- The counters of the channel of w with its producer advanced. -/
def advanced (w : BitVec 256) (c : Core) : BitVec 16 × BitVec 16 := (c.ch[dCh w].1 + BitVec.ofNat 16 (dAmt w), c.ch[dCh w].2)

theorem slotAdvance_of_bound {w : BitVec 256} {c : Core} (h : dChe w = true → fill c.ch[dCh w] + dAmt w ≤ 128) :
    slotAdvance w c = some (if dChe w then advanced w c else c.ch[dCh w]) := by
  rw [slotAdvance]
  cases hche : dChe w with
  | false => rfl
  | true => exact if_pos (h hche)

theorem slotAdvance_of_over {w : BitVec 256} {c : Core} (hche : dChe w = true) (h : 128 < fill c.ch[dCh w] + dAmt w) : slotAdvance w c = none := by
  rw [slotAdvance, hche]
  exact if_neg (Nat.not_le.mpr h)

/-- A slot that names no channel leaves the counters, and one that names one advances it alone. -/
theorem slotSignals_ch (w : BitVec 256) (c : Core) :
    (slotSignals w (if dChe w then advanced w c else c.ch[dCh w]) c).ch = if dChe w then c.ch.set (dCh w) (advanced w c) else c.ch := by
  rw [slotSignals]
  cases dChe w with
  | false => exact Vector.set_getElem_self _
  | true => rfl

theorem slotSignals_flags (w : BitVec 256) (pr : BitVec 16 × BitVec 16) (c : Core) :
    (slotSignals w pr c).flags = if dFle w then c.flags ||| BitVec.twoPow 64 (dFlag w) else c.flags := by
  rw [slotSignals, ← setBit_true]

theorem finished_slots_signal : Claims.FinishedSlotsSignal := by
  intro s g slot hg c e w adv hlive hfin hkind
  obtain ⟨hwait, hgo⟩ := exec_dmaSlotComplete (slot := slot) hg (c := c) (e := e) (w := w) rfl rfl rfl hlive hfin hkind
  refine ⟨fun h => hwait (slotWaits_iff.mpr h), fun hsig hlow => ?_⟩
  have hnow : slotWaits e slot c = false := by
    refine Bool.eq_false_iff.mpr fun h => ?_
    rcases slotWaits_iff.mp h with hs | ⟨j, hj, hends⟩
    · exact Bool.eq_false_iff.mp hsig hs
    · exact Bool.eq_false_iff.mp (hlow j hj) hends
  obtain ⟨hfault, hnext⟩ := hgo hnow
  refine ⟨fun hbound => ?_, fun hche hover => hfault (slotAdvance_of_over hche hover)⟩
  obtain ⟨hmore, hlast⟩ := hnext _ (slotAdvance_of_bound hbound)
  have hflags := slotSignals_flags w (if dChe w then advanced w c else c.ch[dCh w]) c
  by_cases ht : (dKind w = 4 ∨ dKind w = 8) ∧ dDone w + 1 < dTiles w
  · have hd : dDone w + 1 < 65536 := ht.2.trans_le (dTiles_le w)
    refine ⟨_, hmore ht, ?_, slotSignals_ch w c, hflags, fun h => ?_, fun _ => ?_, rfl⟩
    · simp
    · omega
    · simpa using nextTile_fields w hd
  · refine ⟨_, hlast ht, ?_, slotSignals_ch w c, hflags, fun _ => rfl, fun h => absurd h ht, rfl⟩
    simp [slotIdle]

end Sys2Proof.Machine

open Sys2Proof Sys2Proof.Machine

/-- Settles O11: a DMOV by its steps, each with its row at hand and the checks of what it has read; a finished slot by whether it waits, by
its channel's bound and by the tiles left. The step in which a loaded slot first moves (log 24) and the DETAIL values (log 21) are the
model's readings. -/
theorem dmaSlotsStartAndFinish : Obligations.DmaSlotsStartAndFinish :=
  ⟨dmov_loads_its_slot, dmov_checks_its_template, finished_slots_signal⟩
end

section
/-! O9 and O10, refuted as O8 is: neither statement asks that the accumulator's table is in its canonical form, and a byte 0 that is
written below the first key of a table whose keys do not rise changes nothing. -/

namespace Sys2Proof.Machine

open Sys2Proof.Claims

/-- MMA of one zero in X by a row of zeros in W writes its 16 results, 32 bytes 0, to block 0 of that core, and its accumulator stays as
it is. -/
theorem mmaFinish_zeros_banks : (mmaFinish .w16 .rne 0 [] 0 [] unsortedBanks).banks = [(256, 5), (0, 7)] := by decide +kernel

theorem matrix_product_results_fail_unsorted : ¬ Claims.MatrixProductResults := by
  intro h
  obtain ⟨⟨-, hres⟩, -⟩ := h .w16 .rne 0 [] 0 [] unsortedBanks
  have hfirst := (hres 0 (by decide)).2 (by decide)
  rw [mmaFinish_zeros_banks] at hfirst
  revert hfirst
  decide +kernel

/-- MMASK, CAUSAL, of the one score of query position 0 and key position 1. -/
def maskOneScore : Disp := ⟨.mmask 0 0 0 0 .causal, 0, 1, false, 0, 0, [0, 1, 0, 0]⟩

/-- A running core whose matrix engine has that instruction at its head, and whose accumulator lists byte 256 ahead of byte 0. -/
def unsortedScores : Core :=
  { Core.zero with
    r := { CoreRegs.zero with st := .run }
    banks := unsortedBanks.banks
    x := { CoreExec.zero with iss := (Vector.replicate 4 []).set 2 [maskOneScore] } }

/-- The module after reset, in step 1 of pan 0, but for that core. -/
def unsortedScoresModule : State := setCore (setNode State.reset 0 { Node.zero with steps := 1 }) 0 unsortedScores

theorem maskOneScore_mayBegin : mayBegin unsortedScoresModule 0 .matrix (.mmask 0 0 0 0 .causal) maskOneScore :=
  ⟨by decide, by decide +kernel⟩

/-- MMASK writes the high byte of minus infinity, and byte 0 stays 7. -/
theorem exec_maskOneScore_banks {t : State} (h : exec (.mmask 0 0 0 0 .causal) unsortedScoresModule = .next t) :
    (getCore t 0).banks = [(1, 0xFC), (256, 5), (0, 7)] := by
  have hrun : execMmask 0 0 0 0 .causal unsortedScoresModule = .next t := h
  unfold execMmask at hrun
  obtain ⟨-, rfl⟩ := onCore_next_iff.mp hrun
  rw [getCore_setCore unsortedScoresModule 0 _ (by decide +kernel)]
  decide +kernel

theorem masking_fails_unsorted : ¬ Claims.MaskingScores := by
  intro h
  obtain ⟨m, hexec, hmask, -⟩ := h unsortedScoresModule 0 0 0 0 .causal maskOneScore maskOneScore_mayBegin (by decide) (by decide) (by decide)
    (by decide) (by decide) (.inl rfl) (by decide) (by decide)
  have hbanks := exec_maskOneScore_banks hexec
  rw [getCore_setCore unsortedScoresModule 0 _ (by decide +kernel)] at hbanks
  have hscore := (hmask 0 (by decide)).1 (by decide)
  rw [show m = [(1, 0xFC), (256, 5), (0, 7)] from hbanks] at hscore
  revert hscore
  decide +kernel

end Sys2Proof.Machine

open Sys2Proof Sys2Proof.Machine

/-- Refutes O9: where the accumulator's table lists byte 256 ahead of byte 0, MMA of zeros leaves byte 0 at 7, and the result there is not
0. The statement lacks the canonical form of that table (Memory.wf). -/
theorem not_matrixProducts : ¬ Obligations.MatrixProducts := fun ⟨_, _, hres⟩ => matrix_product_results_fail_unsorted hres

/-- Refutes O10: with the same table MMASK leaves the low byte of a masked score at 7, and the score is not minus infinity. The statement
lacks the canonical form of that table (Memory.wf). -/
theorem not_attentionInstructions : ¬ Obligations.AttentionInstructions := fun ⟨hmask, _⟩ => masking_fails_unsorted hmask
end

section
/-! Guard steps and the messages of other modules: O21, O22 and O24. -/

namespace Sys2Proof.Machine

section Writing
/-! A pan or a partition that differs from the empty one reads back as written, in whatever order the table lists its keys; the writes
of a guard step all leave something that is not empty. -/

theorem getPan_setPan_of_part (s : State) (k : Nat) {v : Pan} (h : v.part.isSome = true) : getPan (setPan s k v) k = v :=
  tget_tset_of_ne Pan.zero s.pans k v (by rintro rfl; cases h)

/-- The module with the guard unit of a partition replaced. -/
def setGuard (s : State) (k : Nat) (u : GuardUnit) : State := setPart s k { getPart s k with guard := u }

theorem getPart_setGuard (s : State) (k : Nat) {u : GuardUnit} (h : u ≠ GuardUnit.zero) :
    getPart (setGuard s k u) k = { getPart s k with guard := u } :=
  tget_tset_of_ne Part.zero s.parts k _ fun hz => h (congrArg Part.guard hz)

theorem guard_ne_zero_of_timer {g : GuardUnit} (h : g.timer.isSome = true) : g ≠ GuardUnit.zero := by rintro rfl; cases h

theorem guard_ne_zero_of_own {g : GuardUnit} (h : g.own.isSome = true) : g ≠ GuardUnit.zero := by rintro rfl; cases h

theorem guard_ne_zero_of_members {g : GuardUnit} (h : g.members ≠ 0) : g ≠ GuardUnit.zero := by rintro rfl; exact h rfl

theorem guard_ne_zero_of_others {g : GuardUnit} (h : g.others ≠ []) : g ≠ GuardUnit.zero := by rintro rfl; exact h rfl

/-- The other modules of a job are read from its image, which no guard step changes. -/
theorem otherModules_setGuard (s : State) (k : Nat) {u : GuardUnit} (h : u ≠ GuardUnit.zero) :
    otherModules (setGuard s k u) k = otherModules s k := by
  unfold otherModules
  rw [getPart_setGuard s k h]
  rfl

end Writing

section Broadcasting

theorem sendRim_frame (s : State) (x : Nat) (m : LaneMsg) : { sendRim s x m with edges := s.edges } = s := rfl

/-- A broadcast leaves everything but what waits at the edge links. -/
theorem broadcast_frame (s : State) (k : Nat) (b : MsgBody) : { broadcast s k b with edges := s.edges } = s := by
  refine List.foldlRecOn (motive := fun t : State => { t with edges := s.edges } = s) _ _ rfl fun t ht px _ => ?_
  dsimp only
  split
  · exact ht
  · split
    · exact ht
    · split <;> exact ht

@[simp] theorem getPart_broadcast (s : State) (k : Nat) (b : MsgBody) (j : Nat) : getPart (broadcast s k b) j = getPart s j :=
  (congrArg (fun t => getPart t j) (broadcast_frame s k b) :)

@[simp] theorem broadcast_ctrlOut (s : State) (k : Nat) (b : MsgBody) : (broadcast s k b).ctrlOut = s.ctrlOut :=
  (congrArg State.ctrlOut (broadcast_frame s k b) :)

end Broadcasting

section Taking
/-! A row takes the first message of its kind. -/

theorem takeInbox_head {s : State} {p : Nat} {kind : MsgBody → Bool} {m : Msg} {rest : List Msg} (h : (getPan s p).coll.inbox = m :: rest)
    (hk : kind m.body = true) : takeInbox p kind s = some (m, modColl s p (fun c => { c with inbox := rest })) := by
  simp [takeInbox, modColl, h, hk]

theorem takeNorth_head {s : State} {kind : MsgBody → Bool} {t : Nat} {m : Msg} {rest : List (Nat × Msg)} (h : s.ctlIn = (t, m) :: rest)
    (hk : kind m.body = true) : takeNorth kind s = some (m, { s with ctlIn := rest }) := by
  simp [takeNorth, h, hk]

theorem takeStore_head {s : State} {sub : Nat} {c : Ctrl} {rest : List Ctrl} (h : s.fab.store = c :: rest) (hs : c.sub = sub) :
    takeStore sub s = some (c, { s with fab := { s.fab with store := rest } }) := by
  simp [takeStore, h, hs]

theorem part_of_freshPan {s : State} {p : Nat} {m : Msg} (h : freshPan s p m = true) : (getPan s p).part.isSome = true := by
  simp only [freshPan, Bool.and_eq_true, decide_eq_true_eq] at h
  simp [h.1]

theorem getPan_modColl {s : State} {p : Nat} {m : Msg} (h : freshPan s p m = true) (f : Collector → Collector) :
    getPan (modColl s p f) p = { getPan s p with coll := f (getPan s p).coll } :=
  getPan_setPan_of_part s p (part_of_freshPan (s := s) h)

theorem modColl_congr {s : State} {p : Nat} {f f' : Collector → Collector} (h : f (getPan s p).coll = f' (getPan s p).coll) :
    modColl s p f = modColl s p f' := by
  unfold modColl
  rw [h]

theorem freshPan_modColl {s : State} {p : Nat} {m : Msg} (h : freshPan s p m = true) (f : Collector → Collector) :
    freshPan (modColl s p f) p m = true := by
  unfold freshPan
  rw [getPan_modColl h]
  exact h

end Taking

section Collecting
variable {s : State} {p : Fin 96} {m : Msg} {rest : List Msg} {n : Nat} {ovf par : Bool}

/-- GUARD takes a contribution of the pan's partition: it goes on, completes the pan's step, or counts. -/
theorem exec_guard_of_contribution (hin : (getPan s p).coll.inbox = m :: rest) (hf : freshPan s p m = true) (hb : m.body = .guardC ovf n par) :
    exec (.guard p) s = .next (
      let c := (getPan s p).coll
      let s1 := modColl s p (fun c => { c with inbox := rest })
      if par != c.par then sendNorth s1 p m
      else if c.count + n = c.members then
        sendNorth (modColl s1 p (fun c => { c with par := !c.par, count := 0, ovf := false })) p
          { m with src := collectorOf p, body := .guardC (c.ovf || ovf) (c.count + n) par }
      else modColl s1 p (fun c => { c with count := c.count + n, ovf := c.ovf || ovf })) := by
  show execGuard p s = _
  unfold execGuard
  rw [takeInbox_head hin (by rw [hb])]
  simp only [freshPan_modColl hf, hb, getPan_modColl hf, Bool.not_true, Bool.false_eq_true, if_false]
  split
  · rfl
  · split
    · rfl
    · exact congrArg _ (modColl_congr (by rw [getPan_modColl hf]))

/-- GUARD_WD at a collector takes a withdrawal of the pan's partition: it goes on, or is taken off. -/
theorem exec_guardWd_of_withdrawal (hin : (getPan s p).coll.inbox = m :: rest) (hf : freshPan s p m = true) (hb : m.body = .guardWd n par) :
    exec (.guardWd ⟨p, by omega⟩) s = .next (
      let s1 := modColl s p (fun c => { c with inbox := rest })
      if par != (getPan s p).coll.par then sendNorth s1 p m else modColl s1 p (fun c => { c with count := c.count - n })) := by
  show execGuardWd ⟨p, by omega⟩ s = _
  unfold execGuardWd
  dsimp only
  rw [if_pos p.isLt, takeInbox_head hin (by rw [hb])]
  simp only [freshPan_modColl hf, hb, getPan_modColl hf, Bool.not_true, Bool.false_eq_true, if_false]

end Collecting

theorem collectors_gather_guard_steps : Claims.CollectorsGatherGuardSteps := by
  intro s p m rest n ovf c s1 hin hf
  have hopen : ¬(c.par != c.par) = true := by simp
  have hother : ((!c.par) != c.par) = true := by simp
  refine ⟨fun hb hc => ?_, fun hb hc => ?_, fun hb => ?_, fun hb => ?_, fun hb => ?_⟩
  · exact (exec_guard_of_contribution hin hf hb).trans (congrArg _ ((if_neg hopen).trans (if_neg hc)))
  · exact (exec_guard_of_contribution hin hf hb).trans (congrArg _ ((if_neg hopen).trans (if_pos hc)))
  · exact (exec_guard_of_contribution hin hf hb).trans (congrArg _ (if_pos hother))
  · exact (exec_guardWd_of_withdrawal hin hf hb).trans (congrArg _ (if_neg hopen))
  · exact (exec_guardWd_of_withdrawal hin hf hb).trans (congrArg _ (if_pos hother))

section Deciding
variable {s : State} {k : Nat} {b : Bool}

/-- The bits of other modules for the open guard step. -/
def stepBits (g : GuardUnit) : List (Nat × Nat × Bool) := g.others.filter (fun o => decide (o.2.1 = g.steps))

/-- The guard unit once its open step is decided (06 R152, R155). -/
def decidedUnit (g : GuardUnit) (ovf : Bool) (sc : Byte × Nat) : GuardUnit :=
  { g with
    par := !g.par, count := 0, ovf := false, steps := g.steps + 1, skipped := g.skipped + ovf.toNat, ls := sc.1, window := sc.2
    timer := g.next, next := none, own := none, others := g.others.filter (fun o => decide (g.steps < o.2.1)) }

theorem decideGuard_of_open (h : (getPart s k).guard.own = none) : decideGuard k s = s := by
  simp [decideGuard, h]

theorem decideGuard_of_own (h : (getPart s k).guard.own = some b) :
    decideGuard k s =
      let g := (getPart s k).guard
      let ovf := b || (stepBits g).any (fun o => o.2.2)
      let sc := nextScale (guardBlock s k) ovf g.ls g.window
      if ∀ m ∈ otherModules s k, ∃ o ∈ stepBits g, o.1 = m then
        broadcast (setGuard s k (decidedUnit g ovf sc)) k (.guardRes ovf sc.1)
      else s := by
  have hall : (otherModules s k).all (fun m => (stepBits (getPart s k).guard).any (fun o => decide (o.1 = m))) = true ↔
      ∀ m ∈ otherModules s k, ∃ o ∈ stepBits (getPart s k).guard, o.1 = m := by
    simp only [List.all_eq_true, List.any_eq_true, decide_eq_true_eq]
  unfold decideGuard
  simp only [h]
  rw [← stepBits]
  split
  · next hno => exact (if_neg fun hyes => by simp [hall.mpr hyes] at hno).symm
  · next hyes => exact (if_pos (hall.mp (Bool.not_eq_false _ ▸ fun hno => hyes (by rw [hno]; rfl)))).symm

/-- What a decision can do: nothing, or the decided unit's place taken and a broadcast. -/
theorem decideGuard_cases (k : Nat) (s : State) :
    decideGuard k s = s ∨ ∃ ovf sc, decideGuard k s =
      broadcast (setGuard s k (decidedUnit (getPart s k).guard ovf sc)) k (.guardRes ovf sc.1) := by
  cases h : (getPart s k).guard.own with
  | none => exact .inl (decideGuard_of_open h)
  | some b =>
    rw [decideGuard_of_own h]
    dsimp only
    split
    · exact .inr ⟨_, _, rfl⟩
    · exact .inl rfl

theorem decideGuard_ctrlOut (k : Nat) (s : State) : (decideGuard k s).ctrlOut = s.ctrlOut := by
  obtain h | ⟨ovf, sc, h⟩ := decideGuard_cases k s
  · rw [h]
  · rw [h, broadcast_ctrlOut]
    rfl

theorem decideGuard_members (h : (getPart s k).guard.members ≠ 0) :
    (getPart (decideGuard k s) k).guard.members = (getPart s k).guard.members := by
  obtain hs | ⟨ovf, sc, hs⟩ := decideGuard_cases k s
  · rw [hs]
  · rw [hs, getPart_broadcast, getPart_setGuard s k (guard_ne_zero_of_members (g := decidedUnit _ ovf sc) h)]
    rfl

theorem nextScale_of_overflow (w : BitVec 128) (ls : Byte) (win : Nat) :
    nextScale w true ls win = (BitVec.ofInt 8 (max (ls.toInt - (fld w 24 3 + 1 : Nat)) (sbyte (fld w 8 8))), 0) := rfl

theorem nextScale_of_full {w : BitVec 128} {win : Nat} (ls : Byte) (h0 : fld w 32 32 ≠ 0) (h : (win + 1) % 2 ^ 32 = fld w 32 32) :
    nextScale w false ls win = (BitVec.ofInt 8 (min (ls.toInt + 1) (sbyte (fld w 16 8))), 0) := by
  simp only [nextScale, Bool.false_eq_true, if_false, if_pos (And.intro h0 h)]

theorem nextScale_of_filling {w : BitVec 128} {win : Nat} (ls : Byte) (h : fld w 32 32 = 0 ∨ (win + 1) % 2 ^ 32 ≠ fld w 32 32) :
    nextScale w false ls win = (ls, (win + 1) % 2 ^ 32) := by
  have hno : ¬(fld w 32 32 ≠ 0 ∧ (win + 1) % 2 ^ 32 = fld w 32 32) := fun ⟨h0, hw⟩ => h.elim h0 (fun hne => hne hw)
  simp only [nextScale, Bool.false_eq_true, if_false, if_neg hno]

end Deciding

theorem guard_steps_decide_the_scale : Claims.GuardStepsDecideTheScale := by
  intro s k b p g bits ovf w hown
  have hdec := decideGuard_of_own hown
  refine ⟨fun m hm hno => ?_, fun hall => ?_⟩
  · rw [hdec]
    exact if_neg fun hall => let ⟨o, ho, hom⟩ := hall m hm; hno o ho hom
  · refine ⟨(nextScale w ovf g.ls g.window).1, (nextScale w ovf g.ls g.window).2, hdec.trans (if_pos hall), fun ho => ?_, fun ho h0 hw => ?_,
      fun ho hw => ?_⟩
    · rw [ho, nextScale_of_overflow]
      exact ⟨rfl, rfl⟩
    · rw [ho, nextScale_of_full _ h0 hw]
      exact ⟨rfl, rfl⟩
    · rw [ho, nextScale_of_filling _ hw]
      exact ⟨rfl, rfl⟩

theorem guard_steps_time_out : Claims.GuardStepsTimeOut := by
  intro s k t ht
  have hrun : exec (.guardTimeout k) s = .next (if gtmoOf s k ≤ t then recordFault k stTimeout 6 0 0 false s else s) := by
    show execGuardTimeout k s = _
    unfold execGuardTimeout
    rw [ht]
  exact ⟨fun h => by rw [hrun, if_pos h], fun h => by rw [hrun, if_neg (Nat.not_le.mpr h)]⟩

section Closing

/-- The module's own bit becomes final and goes to the job's other modules, with the step's number. -/
theorem closeOwn_eq (k : Nat) (ovf : Bool) (s : State) :
    closeOwn k ovf s = sendCtrl 1 k (otherModules s k) [(getPart s k).guard.steps, ovf.toNat]
      (setGuard s k { (getPart s k).guard with own := some ovf }) := by
  have hne : { (getPart s k).guard with own := some ovf } ≠ GuardUnit.zero := guard_ne_zero_of_own rfl
  have hback := getPart_setGuard s k hne
  show sendCtrl 1 k (otherModules (setGuard s k _) k) [(getPart (setGuard s k _) k).guard.steps, ovf.toNat] (setGuard s k _) = _
  rw [otherModules_setGuard s k hne, hback]

variable {s : State} {t n : Nat} {m : Msg} {rest : List (Nat × Msg)} {ovf par : Bool}

/-- GUARD_PAN_RECEIVE takes a pan message of the partition's generation: it changes nothing, counts, or makes the bit final. -/
theorem exec_guardPanReceive_of_message (hin : s.ctlIn = (t, m) :: rest) (hf : freshMsg s m = true) (hb : m.body = .guardC ovf n par) :
    exec .guardPanReceive s = .next (
      let s1 := { s with ctlIn := rest }
      let g := (getPart s m.part).guard
      let g1 := { g with count := g.count + n, ovf := g.ovf || ovf, timer := some (g.timer.getD 0) }
      let s2 := setGuard s1 m.part g1
      if par != g.par || g.own.isSome then s1
      else if g1.count = g1.members then decideGuard m.part (closeOwn m.part g1.ovf s2) else s2) := by
  show execGuardPanReceive s = _
  unfold execGuardPanReceive
  rw [takeNorth_head hin (by rw [hb])]
  simp only [show freshMsg { s with ctlIn := rest } m = true from hf, hb, Bool.not_true, Bool.false_eq_true, if_false]
  rfl

/-- GUARD_WD at the guard unit takes a withdrawal of the partition's generation: it changes nothing, or is taken off. -/
theorem exec_guardWd_unit_of_withdrawal (hin : s.ctlIn = (t, m) :: rest) (hf : freshMsg s m = true) (hb : m.body = .guardWd n par) :
    exec (.guardWd 96) s = .next (
      let p := getPart s m.part
      setPart { s with ctlIn := rest } m.part (if par != p.guard.par || p.guard.own.isSome then p
        else { p with guard := { p.guard with count := p.guard.count - n } })) := by
  show execGuardWd 96 s = _
  unfold execGuardWd
  dsimp only
  rw [if_neg (show ¬((96 : Fin 97) : Nat) < 96 by decide), takeNorth_head hin (by rw [hb])]
  simp only [show freshMsg { s with ctlIn := rest } m = true from hf, hb, Bool.not_true, Bool.false_eq_true, if_false]
  rfl

end Closing

theorem guard_unit_counts_and_decides : Claims.GuardUnitCountsAndDecides := by
  intro s t m rest n ovf s1 p u u1 s2 s3 hin hf
  have hopen : u.own = none → ¬(u.par != u.par || u.own.isSome) = true := fun ho => by simp [ho]
  have hpast : ∀ par, par = !u.par ∨ u.own.isSome = true → (par != u.par || u.own.isSome) = true := by
    rintro par (rfl | ho)
    · simp
    · simp [ho]
  have hclose : closeOwn m.part u1.ovf s2 =
      { s3 with ctrlOut := s.ctrlOut ++ (otherModules s m.part).map (fun x => ⟨1, m.part, x, [u.steps, u1.ovf.toNat]⟩) } := by
    have hne : u1 ≠ GuardUnit.zero := guard_ne_zero_of_timer rfl
    have hback : getPart s2 m.part = { p with guard := u1 } := getPart_setGuard s1 m.part hne
    rw [closeOwn_eq, show otherModules s2 m.part = otherModules s m.part from otherModules_setGuard s1 m.part hne, setGuard, hback]
    rfl
  refine ⟨fun ho hb hc => ?_, fun ho hb hc => ?_, fun hb => ?_, fun ho hb => ?_, fun hb => ?_⟩
  · exact (exec_guardPanReceive_of_message hin hf hb).trans (congrArg _ ((if_neg (hopen ho)).trans (if_neg hc)))
  · rw [exec_guardPanReceive_of_message hin hf hb, ← hclose]
    exact congrArg _ ((if_neg (hopen ho)).trans (if_pos hc))
  · obtain ⟨par, hb, hpar⟩ : ∃ par, m.body = .guardC ovf n par ∧ (par = !u.par ∨ u.own.isSome = true) :=
      hb.elim (fun hb => ⟨_, hb, .inl rfl⟩) (fun ⟨ho, hb⟩ => ⟨_, hb, .inr ho⟩)
    exact (exec_guardPanReceive_of_message hin hf hb).trans (congrArg _ (if_pos (hpast par hpar)))
  · exact (exec_guardWd_unit_of_withdrawal hin hf hb).trans (congrArg (fun q => (Host.Outcome.next (setPart s1 m.part q) : Out)) (if_neg (hopen ho)))
  · obtain ⟨par, hb, hpar⟩ : ∃ par, m.body = .guardWd n par ∧ (par = !u.par ∨ u.own.isSome = true) :=
      hb.elim (fun hb => ⟨_, hb, .inl rfl⟩) (fun ⟨ho, hb⟩ => ⟨_, hb, .inr ho⟩)
    exact (exec_guardWd_unit_of_withdrawal hin hf hb).trans (congrArg (fun q => (Host.Outcome.next (setPart s1 m.part q) : Out)) (if_pos (hpast par hpar)))

section Messaging
variable {s : State} {c : Ctrl} {rest : List Ctrl} {i k : Nat} {b : BarObj}

/-- The guard unit with another module's bit of step n, by which the timer of the open step or of the next one starts. -/
def withBit (g : GuardUnit) (peer n : Nat) (ovf : Bool) : GuardUnit :=
  { g with
    others := g.others ++ [(peer, n, ovf)]
    timer := if n = g.steps then some (g.timer.getD 0) else g.timer
    next := if n = g.steps then g.next else some (g.next.getD 0) }

theorem withBit_ne_zero (g : GuardUnit) (peer n : Nat) (ovf : Bool) : withBit g peer n ovf ≠ GuardUnit.zero :=
  guard_ne_zero_of_others (List.append_ne_nil_of_right_ne_nil _ (List.cons_ne_nil _ _))

/-- GUARD_BIT takes a message: one of a decided step changes nothing, any other joins its step. -/
theorem exec_guardBit_of_message (hin : s.fab.store = c :: rest) (hsub : c.sub = 1) :
    exec .guardBit s = .next (
      let s1 := { s with fab := { s.fab with store := rest } }
      let n := c.body.getD 0 0
      let g := (getPart s c.part).guard
      if n < g.steps then s1
      else emptyOwn c.part (emptyOwn c.part (decideGuard c.part
        (setGuard s1 c.part (withBit g c.peer n (decide (c.body.getD 1 0 ≠ 0))))))) := by
  show execGuardBit s = _
  unfold execGuardBit
  rw [takeStore_head hin hsub]
  rfl

theorem emptyOwn_of_members (h : (getPart s k).guard.members ≠ 0) : emptyOwn k s = s := if_neg fun hno => h hno.1

theorem emptyOwn_of_opened {o : Nat × Nat × Bool} (hm : (getPart s k).guard.members = 0) (hown : (getPart s k).guard.own = none)
    (ho : o ∈ (getPart s k).guard.others) (hn : o.2.1 = (getPart s k).guard.steps) : emptyOwn k s = decideGuard k (closeOwn k false s) :=
  if_pos ⟨hm, hown, List.any_eq_true.mpr ⟨o, ho, decide_eq_true hn⟩⟩

theorem closeOwn_ctrlOut (k : Nat) (ovf : Bool) (s : State) :
    (closeOwn k ovf s).ctrlOut = s.ctrlOut ++ (otherModules s k).map (fun m => ⟨1, k, m, [(getPart s k).guard.steps, ovf.toNat]⟩) := by
  rw [closeOwn_eq]
  rfl

/-- A module without members takes back no message. -/
theorem ctrlOut_subset_emptyOwn (k : Nat) (s : State) : s.ctrlOut ⊆ (emptyOwn k s).ctrlOut := by
  unfold emptyOwn
  dsimp only
  split
  · rw [decideGuard_ctrlOut, closeOwn_ctrlOut]
    exact List.subset_append_left _ _
  · exact List.Subset.refl _

/-- A module with members counts another module's bit and decides the step by it. -/
theorem exec_guardBit_of_members (hin : s.fab.store = c :: rest) (hsub : c.sub = 1) (hn : (getPart s c.part).guard.steps ≤ c.body.getD 0 0)
    (hm : (getPart s c.part).guard.members ≠ 0) :
    exec .guardBit s = .next (decideGuard c.part (setGuard { s with fab := { s.fab with store := rest } } c.part
      (withBit (getPart s c.part).guard c.peer (c.body.getD 0 0) (decide (c.body.getD 1 0 ≠ 0))))) := by
  have hput : ∀ u : GuardUnit, u.members ≠ 0 → (getPart (setGuard { s with fab := { s.fab with store := rest } } c.part u) c.part).guard.members ≠ 0 :=
    fun u hu => by rwa [getPart_setGuard _ _ (guard_ne_zero_of_members hu)]
  have hkeep := hput (withBit (getPart s c.part).guard c.peer (c.body.getD 0 0) (decide (c.body.getD 1 0 ≠ 0))) hm
  have hdec := (decideGuard_members hkeep).trans_ne hkeep
  rw [exec_guardBit_of_message hin hsub]
  dsimp only
  rw [if_neg (Nat.not_lt.mpr hn), emptyOwn_of_members hdec, emptyOwn_of_members hdec]

/-- A module without members answers the bit that opens a step with its own bit, 0, to every other module. -/
theorem exec_guardBit_of_no_members (hin : s.fab.store = c :: rest) (hsub : c.sub = 1) (hn : c.body.getD 0 0 = (getPart s c.part).guard.steps)
    (hm : (getPart s c.part).guard.members = 0) (hown : (getPart s c.part).guard.own = none) :
    ∃ u, exec .guardBit s = .next u ∧ ∀ m ∈ otherModules s c.part, ⟨1, c.part, m, [c.body.getD 0 0, 0]⟩ ∈ u.ctrlOut := by
  refine ⟨_, (exec_guardBit_of_message hin hsub).trans (congrArg _ (if_neg hn.not_lt)), fun m hmod => ctrlOut_subset_emptyOwn _ _ ?_⟩
  have hne := withBit_ne_zero (getPart s c.part).guard c.peer (c.body.getD 0 0) (decide (c.body.getD 1 0 ≠ 0))
  have hback := getPart_setGuard { s with fab := { s.fab with store := rest } } c.part hne
  rw [decideGuard_of_open (by rw [hback]; exact hown), emptyOwn_of_opened (by rw [hback]; exact hm) (by rw [hback]; exact hown)
    (by rw [hback]; exact List.mem_append_right _ (List.mem_singleton_self _)) (by rw [hback]; exact hn), decideGuard_ctrlOut, closeOwn_ctrlOut,
    otherModules_setGuard _ _ hne, hback]
  exact List.mem_append_right _ (List.mem_map.mpr ⟨m, hmod, by rw [hn]; rfl⟩)

/-- BAR_DONE at the home module counts a complete module of the generation. -/
theorem exec_barDone_of_message (hin : s.fab.store = c :: rest) (hsub : c.sub = 2) (hbar : barOf s c.part (c.body.getD 0 0) = some (i, b))
    (hb : b.home = true ∧ b.gen = c.body.getD 1 0) :
    exec .barDone s = .next (homeDone i { b with marr := b.marr + 1 } { s with fab := { s.fab with store := rest } }) := by
  show execBarDone s = _
  unfold execBarDone
  rw [takeStore_head hin hsub]
  simp only [show barOf { s with fab := { s.fab with store := rest } } c.part (c.body.getD 0 0) = some (i, b) from hbar, if_pos hb]

/-- BAR_REL_CTRL at another module releases the generation. -/
theorem exec_barRelCtrl_of_message (hin : s.fab.store = c :: rest) (hsub : c.sub = 3) (hbar : barOf s c.part (c.body.getD 0 0) = some (i, b))
    (hb : b.home = false ∧ b.gen = c.body.getD 1 0) :
    exec .barRelCtrl s = .next (releaseBar i b { s with fab := { s.fab with store := rest } }) := by
  show execBarRelCtrl s = _
  unfold execBarRelCtrl
  rw [takeStore_head hin hsub]
  simp only [show barOf { s with fab := { s.fab with store := rest } } c.part (c.body.getD 0 0) = some (i, b) from hbar]
  rw [if_pos ⟨by rw [hb.1]; rfl, hb.2⟩]

/-- JOB_END_CTRL records the end that another module reports. -/
theorem exec_jobEndCtrl_of_message (hin : s.fab.store = c :: rest) (hsub : c.sub = 4) :
    exec .jobEndCtrl s = .next (recordWith false [] c.part (c.body.getD 0 0) 9 c.peer 0 { s with fab := { s.fab with store := rest } }) := by
  show execJobEndCtrl s = _
  unfold execJobEndCtrl
  rw [takeStore_head hin hsub]

end Messaging

theorem messages_of_other_modules : Claims.MessagesOfOtherModules := by
  intro s c rest i b s1 g n hin
  refine ⟨fun hsub hn hm => exec_guardBit_of_members hin hsub hn hm, fun hsub hn hm hown => exec_guardBit_of_no_members hin hsub hn hm hown,
    fun hsub hn => ?_, fun hsub hbar hhome hgen => exec_barDone_of_message hin hsub hbar ⟨hhome, hgen⟩,
    fun hsub hbar hhome hgen => exec_barRelCtrl_of_message hin hsub hbar ⟨hhome, hgen⟩, fun hsub => exec_jobEndCtrl_of_message hin hsub⟩
  exact (exec_guardBit_of_message hin hsub).trans (congrArg _ (if_pos hn))

section Digesting
variable {s : State} {k : Fin 32}

/-- DIGEST_CTRL takes a message: a notice of an expulsion holds the job, a chain value of an exchange still open joins the others. -/
theorem exec_digestCtrl_of_message {c : Ctrl} {rest : List Ctrl} {d : DigestDecl} (hin : s.fab.store = c :: rest) (hsub : c.sub = 5)
    (hd : (getPart s c.part).image.bind (fun im => im.digest) = some d) :
    exec .digestCtrl s = .next (
      let s1 := { s with fab := { s.fab with store := rest } }
      let n := c.body.getD 0 0
      if c.body.getD 4 0 = 1 then expelHold c.part (c.body.getD 5 0) n s1
      else if (getPart s c.part).chains.any (fun x => decide (n ≤ x.1) && decide (x.2.1 = 99)) then s1
      else decideDigest c.part n d (modPart s1 c.part (fun p => { p with
        chains := p.chains ++ [(n, c.body.getD 1 0 % 16, BitVec.ofNat 128 (c.body.getD 3 0))] }))) := by
  show execDigestCtrl s = _
  unfold execDigestCtrl
  rw [takeStore_head hin hsub]
  simp only [show (getPart { s with fab := { s.fab with store := rest } } c.part).image.bind (fun im => im.digest) = some d from hd]
  rfl

/-- A partition whose open digest period ends with the stream digest sd (12 R302; 19 R469). -/
def afterPeriod (p : Part) (sd : BitVec 128) : Part :=
  { p with
    chain := foldMix p.seed p.chain (quad sd).1 (quad sd).2.1 (quad sd).2.2.1 ((quad sd).2.2.2 ^^^ BitVec.ofNat 32 p.periods)
    periods := p.periods + 1
    closed := p.closed.filter (fun x => decide (x.2.2.1 ≠ p.periods)) }

/-- The digest that a context has given for the open period. -/
def closedDigest (p : Part) (ec : Nat × Nat) : Option (Nat × Nat × Nat × BitVec 128) :=
  p.closed.find? (fun x => decide (x.1 = ec.1) && decide (x.2.1 = ec.2) && decide (x.2.2.1 = p.periods))

/-- The stream digest of a period, from the digests of its closing contexts in order (12 R302). -/
def streamDigest (p : Part) (cs : List (Nat × Nat)) (dig : Nat × Nat → BitVec 128) : BitVec 128 :=
  cs.foldl (fun (acc : BitVec 128) ec => foldMix p.seed acc (quad (dig ec)).1 (quad (dig ec)).2.1 (quad (dig ec)).2.2.1
    ((quad (dig ec)).2.2.2 ^^^ BitVec.ofNat 32 (ec.1 * 256 + ec.2))) 0

/-- STREAM_DIGEST_FORM between exchanges, with every closing context's digest there: the chain value advances by the stream digest, and
the period counts. -/
theorem exec_streamDigestForm_between {dig : Nat × Nat → BitVec 128} (hne : closers s k ≠ [])
    (hfind : ∀ ec ∈ closers s k, closedDigest (getPart s k) ec = some (ec.1, ec.2, (getPart s k).periods, dig ec))
    (hno : ∀ d, (getPart s k).image.bind (fun im => im.digest) = some d → ((getPart s k).periods + 1) % (fld d.head 8 6 + 1) ≠ 0) :
    exec (.streamDigestForm k) s = .next (setPart s k (afterPeriod (getPart s k) (streamDigest (getPart s k) (closers s k) dig))) := by
  have hall : ¬((closers s k).isEmpty || !(closers s k).all (fun ec => (closedDigest (getPart s k) ec).isSome)) = true := by
    rw [List.isEmpty_eq_false_iff.mpr hne, List.all_eq_true.mpr fun ec hec => by rw [hfind ec hec]; rfl]
    decide
  show execStreamDigestForm k s = _
  unfold execStreamDigestForm
  dsimp only
  simp only [← closedDigest.eq_def]
  rw [if_neg hall, List.foldl_ext _ _ 0 (fun acc ec hec => by rw [hfind ec hec]), ← streamDigest]
  split
  · rfl
  · next d hd =>
    rw [if_pos (hno d hd)]
    rfl

theorem digests_fold_and_are_exchanged : Claims.DigestsFoldAndAreExchanged := by
  intro s k dig p n cs sd next
  refine ⟨fun hne hfind hno => exec_streamDigestForm_between hne hfind hno, fun c rest d => ?_⟩
  intro s1 m hin hsub hpart hd
  have hrun := exec_digestCtrl_of_message hin hsub (show (getPart s c.part).image.bind (fun im => im.digest) = some d by rw [hpart]; exact hd)
  rw [hpart] at hrun
  refine ⟨fun hx => hrun.trans (congrArg _ (if_pos hx)), fun hx hopen => hrun.trans (congrArg _ ((if_neg hx).trans (if_neg fun hany => ?_)))⟩
  obtain ⟨x, hx, hno⟩ := List.any_eq_true.mp hany
  simp only [Bool.and_eq_true, decide_eq_true_eq] at hno
  exact hopen x hx hno

end Digesting

end Sys2Proof.Machine

open Sys2Proof Sys2Proof.Machine

/-- Settles O21: a collector and the guard unit by the first message of their kind, by its parity and by the members still to come. The
two words of the message to other modules (log 104), and that messages after the module's own bit change nothing (log 103), are the model's
readings. -/
theorem guardStepsAreGathered : Obligations.GuardStepsAreGathered :=
  ⟨collectors_gather_guard_steps, guard_unit_counts_and_decides⟩

/-- Settles O22: the decision by whether every other module's bit is there and by the scale's three ways; the time-out by its timer. -/
theorem guardStepsDecideTheScale : Obligations.GuardStepsDecideTheScale :=
  ⟨guard_steps_decide_the_scale, guard_steps_time_out⟩

/-- Settles O24: each message at the front of the store by its subtype, and a digest period by what of it is there. The answer of a module
without members (log 105) and the words of the guard message (log 104) are the model's readings. -/
theorem messagesAndDigestsOfOtherModules : Obligations.MessagesAndDigestsOfOtherModules :=
  ⟨messages_of_other_modules, digests_fold_and_are_exchanged⟩
end

section
/-! O5: END, SU.CND and BRK, the local flags and channels, and the signals that leave the core (07 R169, R172, R178; 03 R75 to R77; 09 R214,
R222 to R232). -/

namespace Sys2Proof.Machine

open Sys2Proof.Claims

-- What a signal does when its turn comes -------------------------------------------------------------------------

section
variable {s : State} {g : Nat} {i : Instr} {k : Disp}

/-- A local signal or wait whose turn it is takes effect once what it waits for is there, and else the core stays as it is. -/
theorem onCore_signalDo (h : mayGo s g .scalar i k) (f : Env → Disp → Core → Core) :
    onCore g s (fun e => signalDo i (f e) e) =
      .next (setCore s g (if waitsDone (envOf s g) k (getCore s g) then f (envOf s g) k (getCore s g) else getCore s g)) := by
  rw [onCore_of_lt s _ h.1.1, signalDo, mayGo_begins h]
  cases waitsDone (envOf s g) k (getCore s g) <;> rfl

/-- A signal that may begin and names a core of the partition puts its message into the control slot queue. -/
theorem onCore_remoteDo {tgt : Reg} {b : MsgBody} {t : Nat} (h : mayBegin s g .scalar i k)
    (ht : memberOf s (envOf s g).part (fld (getCore s g).s[tgt] 0 20) = some t) :
    onCore g s (remoteDo i tgt b) = .next (setCore s g (ctlPush (coreMsg (envOf s g) (some t) b) (taken s g .scalar k 1 1))) := by
  rw [onCore_of_lt s _ h.1, remoteDo, h.2]
  simp only [show (envOf s g).s = s from rfl, ht]
  rfl

/-- A signal that may begin and names no core of the partition faults. -/
theorem onCore_remoteDo_fault {tgt : Reg} {b : MsgBody} (h : mayBegin s g .scalar i k)
    (ht : memberOf s (envOf s g).part (fld (getCore s g).s[tgt] 0 20) = none) :
    onCore g s (remoteDo i tgt b) =
      .next (setCore s g (insFault (envOf s g) k stBounds 0x09 (fld (getCore s g).s[tgt] 0 16) (getCore s g))) := by
  rw [onCore_of_lt s _ h.1, remoteDo, h.2]
  simp only [show (envOf s g).s = s from rfl, ht]

end

/-- The signals of the flag group and the channel group; rem says that one is remote, to the core that register tgt names
(03 R76, R77). -/
inductive IsSignal (rem : Bool) (tgt : Reg) : Instr → Prop
  | flagSet (g : Nat) (f : Fin 64) : IsSignal rem tgt (.flagSet g f rem tgt)
  | flagClr (g : Nat) (f : Fin 64) : IsSignal rem tgt (.flagClr g f rem tgt)
  | chPut (g : Nat) (ch : Fin 16) (amt : Fin 8) : IsSignal rem tgt (.chPut g ch amt rem tgt)
  | chGet (g : Nat) (ch : Fin 16) (amt : Fin 8) : IsSignal rem tgt (.chGet g ch amt rem tgt)

/-- What a signal waits for: every earlier release, and room in the control slot queue if it leaves the core. -/
theorem IsSignal.waitsDone_eq {rem : Bool} {tgt : Reg} {k : Disp} (h : IsSignal rem tgt k.ins) (e : Env) (c : Core) :
    waitsDone e k c = (allDone e.now k.seq isRelease c && sendReady e c rem tgt) := by
  unfold waitsDone
  generalize k.ins = i at h ⊢
  cases h <;> rfl

/-- A local signal whose turn it is waits for earlier releases alone, and takes effect. -/
theorem IsSignal.exec_local {s : State} {g : Nat} {tgt : Reg} {i : Instr} {k : Disp} (hi : IsSignal false tgt i)
    (eff : Env → Disp → Core → Core) (hx : exec i s = onCore g s (fun e => signalDo i (eff e) e)) (h : mayGo s g .scalar i k)
    (hd : allDone (envOf s g).now k.seq isRelease (getCore s g) = true) :
    exec i s = .next (setCore s g (eff (envOf s g) k (getCore s g))) := by
  have hw : waitsDone (envOf s g) k (getCore s g) = true := by
    rw [IsSignal.waitsDone_eq (h.1.2.2 ▸ hi), hd, sendReady]
    rfl
  rw [hx, onCore_signalDo h, if_pos hw]

-- Fold control ---------------------------------------------------------------------------------------------------

/-- ACTIVE of a slot in which CAND was written. -/
theorem fActive_setCand (w : BitVec 512) (b : Bool) : fActive (setCand w b) = fActive w := by
  rw [fActive, setCand, getLsbD_setBit, if_neg (by decide), fActive]

/-- A CFIFO with a bit at its tail: one more is held, at the place after the last, and those before it stay (07 R178). -/
theorem cfifo_push (w : BitVec 256) (b : Bool) (h : uCfcnt w < 16) :
    let w' := setFld (setBit w (160 + uCfcnt w) b) 144 5 (uCfcnt w + 1)
    uCfcnt w' = uCfcnt w + 1 ∧ w'.getLsbD (160 + uCfcnt w) = b ∧
      ∀ j, j < uCfcnt w → w'.getLsbD (160 + j) = w.getLsbD (160 + j) := by
  refine ⟨?_, ?_, fun j hj => ?_⟩
  · rw [uCfcnt, fld_setFld_same _ _ (by decide), Nat.mod_eq_of_lt (by omega)]
  · rw [getLsbD_setFld, if_neg (by omega), getLsbD_setBit, if_pos ⟨rfl, by omega⟩]
  · rw [getLsbD_setFld, if_neg (by omega), getLsbD_setBit, if_neg (by omega)]

theorem fold_control_instructions : Claims.FoldControlInstructions := by
  intro s g u p k c e t
  refine ⟨fun h hdone => ?_, fun h hown hmode hsrc hroom => ?_, fun h => ?_⟩
  · have hk : k.ins = .endFold g := h.1.2.2
    have hb : mayBegin s g .scalar (.endFold g) k := mayGo_mayBegin h (by simpa only [waitsDone, hk] using hdone)
    rw [show exec (.endFold g) s = execEndFold g s from rfl, execEndFold, onCore_of_lt s _ hb.1, hb.2]
    refine ⟨_, rfl, rfl, rfl, fun j => ?_, fun j => ?_, rfl⟩
    · rw [Fin.getElem_fin, Vector.getElem_ofFn]
      split
      · rw [fCand, getLsbD_setBit, if_neg (by decide)]
        exact fCand_setCand _ _
      · exact fCand_setCand _ _
    · rw [Fin.getElem_fin, Vector.getElem_ofFn]
      split
      · next hj => rw [fActive, getLsbD_setBit, if_pos ⟨rfl, by decide⟩, decide_eq_false (not_not.mpr hj), Bool.false_and]
      · next hj => rw [fActive_setCand, decide_eq_true hj, Bool.true_and]; rfl
  · rw [show exec (.suCnd g u p) s = execSuCnd g u p s from rfl, execSuCnd, onCore_of_lt s _ h.1, h.2]
    have hnot : (!unitOwned c u || decide (uMode c.su[u] ≠ 1) || decide (uSrc c.su[u] ≠ 0) || decide (uCfcnt c.su[u] = 16)) = false := by
      rw [hown, hmode, hsrc, decide_eq_false (Nat.ne_of_lt hroom)]; rfl
    exact ⟨_, next_setCore (if_neg (Bool.not_eq_true _ ▸ hnot)), cfifo_push c.su[u] (predGet c.p p) hroom⟩
  · rw [show exec (.brk g) s = execBrk g s from rfl, execBrk]
    exact (onCore_of_lt s _ h.1).trans (next_setCore (by rw [scalarDo, h.2]; rfl))

-- Local flags and channels ---------------------------------------------------------------------------------------

/-- A flag written by the instruction that the core takes. -/
def writeFlag (f : Fin 64) (b : Bool) (e : Env) (d : Disp) (c : Core) : Core :=
  { beginIns e .scalar d 1 1 c with flags := setBit c.flags f b }

theorem local_flags_and_channels : Claims.LocalFlagsAndChannels := by
  intro s g f ch amt tgt k c now t n
  refine ⟨fun h hd => ?_, fun h hd => ?_, fun h => ?_, fun h => ?_, fun h hd hn => ?_, fun h hd hn => ?_, fun h => ?_⟩
  · rw [(IsSignal.flagSet g f).exec_local (writeFlag f true) rfl h hd, writeFlag, setBit_true]
    rfl
  · rw [(IsSignal.flagClr g f).exec_local (writeFlag f false) rfl h hd, writeFlag, setBit_false]
    rfl
  · have hw : waitsDone (envOf s g) k c = c.x.start.flags.getLsbD f := by simp only [waitsDone, h.1.2.2]
    rw [show exec (.flagWait g f) s = execFlagWait g f s from rfl, execFlagWait, onCore_signalDo h, hw]
    rfl
  · have hw : waitsDone (envOf s g) k c = c.x.start.flags.getLsbD f := by simp only [waitsDone, h.1.2.2]
    rw [show exec (.flagWaitc g f) s = onCore g s (fun e => signalDo _ (writeFlag f false e) e) from rfl, onCore_signalDo h, hw, writeFlag,
      setBit_false]
    rfl
  · rw [(IsSignal.chPut g ch amt).exec_local (fun e d c => chLocal e ch (chPutOn c.ch[ch] n) d c) rfl h hd,
      chPutOn, if_pos hn]
    rfl
  · rw [(IsSignal.chGet g ch amt).exec_local (fun e d c => chLocal e ch (chGetOn c.ch[ch] n) d c) rfl h hd,
      chGetOn, if_pos hn]
    rfl
  · have hw : waitsDone (envOf s g) k c = decide (n ≤ fill c.x.start.ch[ch]) := by simp only [waitsDone, h.1.2.2]; rfl
    rw [show exec (.chWait g ch amt) s = execChWait g ch amt s from rfl, execChWait, onCore_signalDo h, hw]
    simp only [decide_eq_true_eq]
    rfl

-- Broken channel bounds ------------------------------------------------------------------------------------------

theorem undoFire_ch (c : Core) : (undoFire c).ch = c.ch := (congrArg Core.ch (undoFire_frame c) :)

/-- A fault leaves the channel counters. -/
theorem coreFault_ch (e : Env) (eng : Engine) (code sub detail op : Nat) (long : Bool) (pc : Nat) (c : Core) :
    (coreFault e eng code sub detail op long pc c).ch = c.ch := by
  have henter : ∀ rank more, (enterFault e rank eng code sub detail op long pc more c).ch = c.ch := by
    intro rank more
    unfold enterFault
    dsimp only
    split
    · exact undoFire_ch c
    · obtain ⟨_, _, _, _, _, ha⟩ := abandon_frame e.now (undoFire c)
      rw [ha]
      exact undoFire_ch c
  unfold coreFault faultAs
  split
  · split
    · exact henter _ _
    · rfl
  · exact henter _ _

theorem channel_bounds_fault : Claims.ChannelBoundsFault := by
  intro s g ch amt tgt k c e n hd
  refine ⟨fun h hn => ⟨_, ?_, rfl, coreFault_ch ..⟩, fun h hn => ⟨_, ?_, rfl, coreFault_ch ..⟩⟩
  · rw [(IsSignal.chPut g ch amt).exec_local (fun e d c => chLocal e ch (chPutOn c.ch[ch] n) d c) rfl h hd,
      chPutOn, if_neg (Nat.not_le.mpr hn)]
    rfl
  · rw [(IsSignal.chGet g ch amt).exec_local (fun e d c => chLocal e ch (chGetOn c.ch[ch] n) d c) rfl h hd,
      chGetOn, if_neg (Nat.not_le.mpr hn)]
    rfl

-- Signals that leave the core ------------------------------------------------------------------------------------

/-- A remote signal is one of the signals, and it is carried out as such. -/
theorem remoteOp_facts {g : Nat} {f : Fin 64} {ch : Fin 16} {amt : Fin 8} {tgt : Reg} {i : Instr} {b : MsgBody}
    (h : (i, b) ∈ remoteOps g f ch amt tgt) : IsSignal true tgt i ∧ ∀ s, exec i s = onCore g s (remoteDo i tgt b) := by
  simp only [remoteOps, List.mem_cons, Prod.mk.injEq, List.not_mem_nil, or_false] at h
  rcases h with ⟨rfl, rfl⟩ | ⟨rfl, rfl⟩ | ⟨rfl, rfl⟩ | ⟨rfl, rfl⟩ <;> exact ⟨by constructor, fun s => rfl⟩

theorem remote_signals_enter_the_slot_queue : Claims.RemoteSignalsEnterTheSlotQueue := by
  intro s g f ch amt tgt k i b c e t hd
  refine ⟨fun hmem h => ?_, fun h => ?_⟩
  · obtain ⟨hsig, hexec⟩ := remoteOp_facts hmem
    have hbegin : sendReady e c true tgt = true → mayBegin s g .scalar i k := fun hs =>
      mayGo_mayBegin h (by rw [IsSignal.waitsDone_eq (h.1.2.2 ▸ hsig), hs, Bool.and_true]; exact hd)
    refine ⟨fun m hm hroom => ?_, fun hm => ?_⟩
    · rw [hexec, onCore_remoteDo (hbegin (by simp [sendReady, ctlRoom, hroom])) hm]
      rfl
    · rw [hexec, onCore_remoteDo_fault (hbegin (by rw [sendReady, show memberOf e.s e.part _ = none from hm]; simp)) hm]
  · have hw : waitsDone e k c = (ctlRoom c || decide (255 < c.s[tgt].toNat)) := by simp only [waitsDone, h.1.2.2, hd, Bool.true_and]
    rw [show exec (.barArrive g f tgt) s = execBarArrive g f tgt s from rfl, execBarArrive, onCore_signalDo h,
      show waitsDone (envOf s g) k (getCore s g) = _ from hw]
    refine ⟨fun hle hroom => ?_, fun hgt => ?_⟩
    · rw [ctlRoom, decide_eq_true hroom, Bool.true_or, if_pos rfl, if_neg (Nat.not_lt.mpr hle)]
      rfl
    · rw [decide_eq_true hgt, Bool.or_true, if_pos rfl, if_pos hgt]

end Sys2Proof.Machine

open Sys2Proof Sys2Proof.Machine

/-- Settles O5: each instruction by the effect it has on the core that has taken it, a wait by whether what it waits for is there, a broken
bound by a fault that leaves the counters. -/
theorem foldControlFlagsAndChannels : Obligations.FoldControlFlagsAndChannels :=
  ⟨fold_control_instructions, local_flags_and_channels, channel_bounds_fault, remote_signals_enter_the_slot_queue⟩
end

section
/-! O13: the choice of a fold and its firing (07 R168, R170 to R172, Table 7-5). -/

namespace Sys2Proof.Machine

open Sys2Proof.Claims

theorem mem_candidates {c : Core} {k : Fin 8} : k ∈ candidates c ↔ fValid c.folds[k] = true ∧ fCand c.folds[k] = true := by
  simp [candidates]

/-- The candidates are listed in rising order. -/
theorem candidates_sorted (c : Core) : (candidates c).Pairwise (· < ·) := (List.pairwise_lt_finRange 8).filter _

/-- The lowest of a rising list that meets a test is the first found. -/
theorem find?_of_lowest {l : List (Fin 8)} (hl : l.Pairwise (· < ·)) {p : Fin 8 → Bool} {k : Fin 8} (hk : k ∈ l) (hp : p k = true)
    (hlow : ∀ j ∈ l, j < k → p j = false) : l.find? p = some k := by
  induction l with
  | nil => cases hk
  | cons a t ih =>
    obtain ⟨hlt, ht⟩ := List.pairwise_cons.mp hl
    rcases List.mem_cons.mp hk with rfl | hk'
    · rw [List.find?_cons, hp]
    · rw [List.find?_cons, hlow a List.mem_cons_self (hlt k hk')]
      exact ih ht hk' fun j hj => hlow j (List.mem_cons_of_mem a hj)

/-- Whether every queue bound to a candidate was settled at the start of the step. -/
def boundSettled (c : Core) : Bool :=
  (List.finRange 8).all (fun q => !(candidates c).any (fun k => fBinds c.folds[k] q) || settled (atStart c) q)

theorem boundSettled_iff {c : Core} : boundSettled c = true ↔
    ∀ q j : Fin 8, fValid c.folds[j] = true → fCand c.folds[j] = true → fBinds c.folds[j] q = true → settled (atStart c) q = true := by
  have hq : ∀ q : Fin 8, (!(candidates c).any (fun k => fBinds c.folds[k] q) || settled (atStart c) q) = true ↔
      ∀ j ∈ candidates c, fBinds c.folds[j] q = true → settled (atStart c) q = true := by
    intro q
    cases settled (atStart c) q <;> simp
  simp only [boundSettled, List.all_eq_true, List.mem_finRange, true_implies, hq, mem_candidates, and_imp]

/-- The choice once every bound queue is settled: that of the first candidate that matches the heads. -/
def choiceMade (e : Env) (c : Core) : Core :=
  match (candidates c).find? (matchesHeads (atStart c)) with
  | some k =>
    if c.x.held.getLsbD k then c
    else if !foldOk c.folds[k] then dataFault e stFormat 0x1C k c
    else { c with x := { c.x with chosen := some k } }
  | none => if c.x.held ≠ 0 then c else dataFault e stState 0x1D (maskOf (candidates c)) c

theorem chooseFold_eq (e : Env) (c : Core) : chooseFold e c =
    if c.r.st ≠ .run || c.x.haltReq || foldActive c || c.x.start.ended || (candidates c).isEmpty || c.x.chosen.isSome then c
    else if !boundSettled c then c else choiceMade e c := rfl

/-- Nothing is chosen in the step of an END, with a fold active or chosen, or with a bound queue unsettled. -/
theorem chooseFold_of_waits (e : Env) {c : Core}
    (h : c.x.start.ended = true ∨ foldActive c = true ∨ c.x.chosen.isSome = true ∨ boundSettled c = false) : chooseFold e c = c := by
  rw [chooseFold_eq]
  rcases h with h | h | h | h <;> simp [h]

/-- With every bound queue settled the choice is made. -/
theorem chooseFold_of_settled (e : Env) {c : Core} (hr : c.r.st = .run) (hh : c.x.haltReq = false) (ha : foldActive c = false)
    (hc : c.x.chosen = none) (hend : c.x.start.ended = false) (hne : candidates c ≠ []) (hs : boundSettled c = true) :
    chooseFold e c = choiceMade e c := by
  rw [chooseFold_eq]
  simp [hr, hh, ha, hc, hend, hne, hs]

theorem fold_choice_takes_the_lowest_match : Claims.FoldChoiceTakesTheLowestMatch := by
  intro s g k c b hg
  rw [show exec (.foldChoice g) s = onCore g s chooseFold from rfl, onCore_of_lt s _ hg]
  refine ⟨fun h => next_setCore (chooseFold_of_waits _ ?_), fun hr hh ha hc hend hv hcand hs => ?_⟩
  · refine h.imp_right (Or.imp_right (Or.imp_right ?_))
    rintro ⟨q, j, h1, h2, h3, h4⟩
    rw [← Bool.not_eq_true, boundSettled_iff]
    exact fun hall => Bool.false_ne_true (h4.symm.trans (hall q j h1 h2 h3))
  · have hk : k ∈ candidates c := mem_candidates.mpr ⟨hv, hcand⟩
    have hchoice := chooseFold_of_settled (envOf s g) hr hh ha hc hend (List.ne_nil_of_mem hk) (boundSettled_iff.mpr hs)
    refine ⟨fun hm hlow hheld hok => next_setCore ?_, fun hno hheld => next_setCore ?_⟩
    · rw [hchoice, choiceMade, find?_of_lowest (candidates_sorted c) hk hm fun j hj hlt => hlow j hlt (mem_candidates.mp hj).1 (mem_candidates.mp hj).2]
      simp only [hheld, hok, Bool.not_true, Bool.false_eq_true, if_false]
    · have hnone : (candidates c).find? (matchesHeads b) = none :=
        List.find?_eq_none.mpr fun j hj => by simp [hno j (mem_candidates.mp hj).1 (mem_candidates.mp hj).2]
      rw [hchoice, choiceMade, hnone]
      simp only [hheld, ne_eq, not_true, if_false]

-- Firing ---------------------------------------------------------------------------------------------------------

/-- A slot as a firing leaves it: CAND clear, and, where it is the chosen one, ACTIVE set and FIRES advanced. -/
def firedSlot (chosen : Bool) (w : BitVec 512) : BitVec 512 :=
  if chosen then setFld (setBit (setCand w false) 385 true) 416 32 (fFires (setCand w false) + 1) else setCand w false

theorem firedSlot_fields (b : Bool) (w : BitVec 512) :
    fCand (firedSlot b w) = false ∧ fActive (firedSlot b w) = (b || fActive w) ∧
      fFires (firedSlot b w) = (if b then (fFires w + 1) % 2 ^ 32 else fFires w) ∧
      ∀ j, j ≠ 384 → j ≠ 385 → ¬(416 ≤ j ∧ j < 448) → (firedSlot b w).getLsbD j = w.getLsbD j := by
  have hfires : fFires (setCand w false) = fFires w := fld_setFld_ne _ _ (by decide)
  have hother : ∀ j, j ≠ 384 → (setCand w false).getLsbD j = w.getLsbD j := fun j hj => by
    rw [setCand, getLsbD_setBit, if_neg (by simp [hj])]
  cases b with
  | false => exact ⟨fCand_setCand w false, fActive_setCand w false, hfires, fun j hj _ _ => hother j hj⟩
  | true =>
    simp only [firedSlot, if_true, Bool.true_or]
    refine ⟨?_, ?_, ?_, fun j h384 h385 h => ?_⟩
    · rw [fCand, getLsbD_setFld, if_neg (by decide), getLsbD_setBit, if_neg (by decide)]
      exact fCand_setCand w false
    · rw [fActive, getLsbD_setFld, if_neg (by decide), getLsbD_setBit, if_pos ⟨rfl, by decide⟩]
    · rw [fFires, fld_setFld_same _ _ (by decide), hfires]
    · rw [getLsbD_setFld, if_neg (by omega), getLsbD_setBit, if_neg (by simp [h385]), hother j h384]

/-- The core that fires: the slots, CORE_STATE, the program counter and fetch (07 R171). -/
theorem fireFold_of_fires (e : Env) {c : Core} {k : Fin 8} (hr : c.r.st = .run) (hh : c.x.haltReq = false) (hc : c.x.chosen = some k)
    (hend : c.x.start.ended = false) (hf : fires c k = true) : ∃ pre, fireFold e c = { c with
      folds := Vector.ofFn (fun j => firedSlot (decide (j = k)) c.folds[j])
      r := { c.r with fold := k, epoch := fEpoch c.folds[k] }
      pc := fEntry c.folds[k]
      x := { c.x with
        chosen := none, fetch := .going, fetchAt := e.now + 1, prefire := pre, start := { c.x.start with fired := true } } } := by
  have hgo : (decide (c.r.st ≠ .run) || c.x.haltReq || c.x.start.ended || !fires c k) = false := by simp [hr, hh, hend, hf]
  unfold fireFold
  simp only [hc, hgo, Bool.false_eq_true, if_false, firedSlot, decide_eq_true_eq]
  exact ⟨_, rfl⟩

theorem fold_fire_activates_the_chosen_fold : Claims.FoldFireActivatesTheChosenFold := by
  intro s g k c hg hr hh hc hend hf
  obtain ⟨pre, hfire⟩ := fireFold_of_fires (envOf s g) hr hh hc hend hf
  rw [show exec (.foldFire g) s = onCore g s fireFold from rfl, onCore_of_lt s _ hg]
  refine ⟨_, next_setCore hfire, fun j => ?_, rfl, rfl, rfl, rfl⟩
  rw [Fin.getElem_fin, Vector.getElem_ofFn]
  simpa only [decide_eq_true_eq] using firedSlot_fields (decide (j = k)) c.folds[j]

end Sys2Proof.Machine

open Sys2Proof Sys2Proof.Machine

/-- Settles O13: the choice by whether a bound queue is still to settle and by the first candidate that matches; the firing slot by slot. -/
theorem firingChoosesAndActivatesAFold : Obligations.FiringChoosesAndActivatesAFold :=
  ⟨fold_choice_takes_the_lowest_match, fold_fire_activates_the_chosen_fold⟩
end

section
/-! O14: steering decisions, dropped tokens and stale tokens (07 R176, R177, R183, Table 7-5). -/

namespace Sys2Proof.Machine

open Sys2Proof.Claims

-- What a vector reads at a number of its range once an element is written.

theorem vget_set_same {α : Type} {n : Nat} (v : Vector α n) (i : Fin n) (a : α) : (v.set i a)[i] = a := Vector.getElem_set_self _

theorem vget_set_ne {α : Type} {n : Nat} (v : Vector α n) {i j : Fin n} (a : α) (h : j ≠ i) : (v.set i a)[j] = v[j] :=
  Vector.getElem_set_ne _ _ fun he => h (Fin.ext he.symm)

-- Decisions ------------------------------------------------------------------------------------------------------

/-- DEC and OPEN of a unit that has decided. -/
theorem unitDecided_fields (u : BitVec 256) (b single : Bool) :
    uDec (unitDecided u b single) = b ∧ uOpen (unitDecided u b single) = !single := by
  simp only [unitDecided, uDec, uOpen]
  refine ⟨?_, ?_⟩
  · rw [getLsbD_setFld, if_neg (by decide), getLsbD_setBit, if_neg (by decide), getLsbD_setBit, if_pos ⟨rfl, by decide⟩]
  · rw [getLsbD_setFld, if_neg (by decide), getLsbD_setBit, if_pos ⟨rfl, by decide⟩]

theorem uTag_lt (u : BitVec 256) (d : Bool) : uTag u d < 8 := by
  unfold uTag fld
  split
  · exact BitVec.isLt _
  · exact BitVec.isLt _

/-- The sideband of a head that takes a new TAG: STEERED is set, and the other marks stay. -/
theorem steered_fields (b : Byte) {tag : Nat} (h : tag < 8) :
    let sb := setBit (setFld b 0 3 tag) 7 true
    sbTag sb = tag ∧ sbSteered sb = true ∧ sbEp sb = sbEp b ∧ sbFirst sb = sbFirst b ∧ sbLast sb = sbLast b ∧ sbLoose sb = sbLoose b := by
  have hmark : ∀ j, 3 ≤ j → j < 7 → (setBit (setFld b 0 3 tag) 7 true).getLsbD j = b.getLsbD j := fun j h3 h7 => by
    rw [getLsbD_setBit, if_neg (by omega), getLsbD_setFld, if_neg (by omega)]
  refine ⟨?_, ?_, hmark 3 (by decide) (by decide), hmark 4 (by decide) (by decide), hmark 5 (by decide) (by decide),
    hmark 6 (by decide) (by decide)⟩
  · rw [sbTag, setBit, fld_setFld_ne _ _ (by decide), fld_setFld_same _ _ (by decide)]
    exact Nat.mod_eq_of_lt h
  · rw [sbSteered, getLsbD_setBit, if_pos ⟨rfl, by decide⟩]

theorem steering_decides_the_head : Claims.SteeringDecidesTheHead := by
  intro s g k d c u q en b hg hr hn hnb hw hwb hfree hok hcond
  have hgo : (decide (c.r.st ≠ .run) || decide (c.iq[q].count = 0) || decide (b.iq[q].count = 0) || !iqFree (envOf s g).now q c ||
      !wouldDecide c k q en || !wouldDecide b k q (b.iq[q].ent 0)) = false := by
    simp only [hr, hfree, hw, hwb, Nat.ne_of_gt hn, Nat.ne_of_gt hnb, ne_eq, not_true, decide_false, Bool.not_true, Bool.or_self]
  have hdecide : steerDecide (envOf s g) k c =
      let c1 := { c with su := c.su.set k (unitDecided u d (endsToken en)) }
      if uDrop u d then
        { c1 with
          iq := c1.iq.set q (c1.iq[q].setHead ⟨en.data, setBit en.sb 7 true⟩)
          x := { c1.x with drop := setBit c1.x.drop q true } }
      else { c1 with iq := c1.iq.set q (c1.iq[q].setHead ⟨en.data, setBit (setFld en.sb 0 3 (uTag u d)) 7 true⟩) } := by
    unfold steerDecide
    refine (if_neg (Bool.not_eq_true _ ▸ hgo)).trans ?_
    rw [if_neg (by rw [show unitOk c.su[k] = true from hok]; decide), show unitCond c.su[k] (uCfcnt (atStart c).su[k]) _ = some d from hcond]
  rw [show exec (.steerDecide g k) s = onCore g s (fun e => steerDecide e k) from rfl, onCore_of_lt s _ hg]
  obtain ⟨hdec, hopen⟩ := unitDecided_fields u d (endsToken en)
  refine ⟨unitDecided u d (endsToken en), hdec, hopen, fun hdrop => next_setCore ?_, fun hdrop => ?_⟩
  · rw [hdecide, if_pos hdrop, setBit_true, setBit_true]
    rfl
  · refine ⟨_, next_setCore ?_, steered_fields en.sb (uTag_lt u d)⟩
    rw [hdecide, if_neg (Bool.not_eq_true _ ▸ hdrop)]

-- Removal of the entry at a head ---------------------------------------------------------------------------------

theorem Queue.head_pop (q : Queue) : q.pop.head = (q.head + 1) % 16 := by
  rw [Queue.head, Queue.pop, fld_setFld_ne _ _ (by decide), fld_setFld_same _ _ (by decide), Nat.mod_eq_of_lt (by omega)]

theorem Queue.count_pop (q : Queue) : q.pop.count = q.count - 1 := by
  have h : q.count < 32 := BitVec.isLt _
  rw [Queue.count, Queue.pop, fld_setFld_same _ _ (by decide), Nat.mod_eq_of_lt (by omega)]

theorem Queue.head_setHdisc (q : Queue) (b : Bool) : (q.setHdisc b).head = q.head := fld_setFld_ne _ _ (by decide)

theorem Queue.count_setHdisc (q : Queue) (b : Bool) : (q.setHdisc b).count = q.count := fld_setFld_ne _ _ (by decide)

theorem Queue.hdisc_setHdisc (q : Queue) (b : Bool) : (q.setHdisc b).hdisc = b := by
  rw [Queue.hdisc, Queue.setHdisc, getLsbD_setBit, if_pos ⟨rfl, by decide⟩]

/-- What a head that meets an open token's decision changes: the entry at the head of its queue, and OPEN of a unit of that queue. -/
theorem steerHead_parts (q : Fin 8) (c : Core) :
    (steerHead q c).iq[q].ptr = c.iq[q].ptr ∧ (∀ j : Fin 8, j ≠ q → (steerHead q c).iq[j] = c.iq[j]) ∧
      ∀ j : Fin 4, (steerHead q c).su[j] = c.su[j] ∨ uQ c.su[j] = q ∧ (steerHead q c).su[j] = setBit c.su[j] 149 false := by
  have hset : ∀ en, (c.iq.set q (c.iq[q].setHead en))[q].ptr = c.iq[q].ptr ∧
      ∀ j : Fin 8, j ≠ q → (c.iq.set q (c.iq[q].setHead en))[j] = c.iq[j] := fun en =>
    ⟨by rw [vget_set_same]; rfl, fun j hj => vget_set_ne _ _ hj⟩
  unfold steerHead
  split
  · exact ⟨rfl, fun _ _ => rfl, fun _ => .inl rfl⟩
  · dsimp only
    split
    · exact ⟨rfl, fun _ _ => rfl, fun _ => .inl rfl⟩
    · next k hk =>
      split
      · exact ⟨rfl, fun _ _ => rfl, fun _ => .inl rfl⟩
      · split
        · exact ⟨(hset _).1, (hset _).2, fun _ => .inl rfl⟩
        · refine ⟨(hset _).1, (hset _).2, fun j => ?_⟩
          split
          · by_cases hj : j = k
            · subst hj
              have hopen := List.find?_some hk
              simp only [Bool.and_eq_true, decide_eq_true_eq] at hopen
              exact .inr ⟨hopen.2, vget_set_same ..⟩
            · exact .inl (vget_set_ne _ _ hj)
          · exact .inl rfl

/-- Core c' is core c with the entry at the head of input queue q removed and counted, but for the marks of the step and the units. -/
def HeadRemoved (q : Fin 8) (c c' : Core) : Prop :=
  c'.iq[q].head = (c.iq[q].head + 1) % 16 ∧ c'.iq[q].count = c.iq[q].count - 1 ∧ (∀ j : Fin 8, j ≠ q → c'.iq[j] = c.iq[j]) ∧
    c'.r = { c.r with actFlit := c.r.actFlit + 1 } ∧ { c' with iq := c.iq, su := c.su, r := c.r, x := c.x } = c

theorem headRemoved_iqPop (now : Nat) (q : Fin 8) (c : Core) : HeadRemoved q c (iqPop now q c) := by
  have hq : (iqPop now q c).iq[q] = c.iq[q].pop := vget_set_same ..
  refine ⟨by rw [hq, Queue.head_pop], by rw [hq, Queue.count_pop], fun j hj => ?_, rfl, rfl⟩
  exact vget_set_ne _ _ hj

/-- The next head may meet an open token's decision. -/
theorem HeadRemoved.steerHead {q : Fin 8} {c c' : Core} (h : HeadRemoved q c c') : HeadRemoved q c (steerHead q c') := by
  obtain ⟨hhead, hcount, hother, hr, hframe⟩ := h
  obtain ⟨hptr, hq, -⟩ := steerHead_parts q c'
  obtain ⟨iq, su, drop, hs⟩ := steerHead_frame q c'
  refine ⟨?_, ?_, fun j hj => (hq j hj).trans (hother j hj), ?_, ?_⟩
  · rw [← hhead, Queue.head, hptr, Queue.head]
  · rw [← hcount, Queue.count, hptr, Queue.count]
  · rw [hs]
    exact hr
  · rw [hs]
    exact hframe

/-- The marks of the step may have been written before. -/
theorem HeadRemoved.of_marks {q : Fin 8} {c c' : Core} {x : CoreExec} (h : HeadRemoved q { c with x := x } c') : HeadRemoved q c c' := by
  obtain ⟨hhead, hcount, hother, hr, hframe⟩ := h
  exact ⟨hhead, hcount, hother, hr, congrArg (fun d : Core => { d with x := c.x }) hframe⟩

/-- HDISC of the queue may be written. -/
theorem HeadRemoved.setHdisc {q : Fin 8} {c c' : Core} (h : HeadRemoved q c c') (b : Bool) :
    HeadRemoved q c { c' with iq := c'.iq.set q (c'.iq[q].setHdisc b) } := by
  obtain ⟨hhead, hcount, hother, hr, hframe⟩ := h
  have hq : (c'.iq.set q (c'.iq[q].setHdisc b))[q] = c'.iq[q].setHdisc b := vget_set_same ..
  refine ⟨?_, ?_, fun j hj => ?_, hr, hframe⟩
  · rw [hq, Queue.head_setHdisc, hhead]
  · rw [hq, Queue.count_setHdisc, hcount]
  · exact (vget_set_ne _ _ hj).trans (hother j hj)

-- Dropped tokens -------------------------------------------------------------------------------------------------

/-- The core before the next head meets an open token's decision: an entry of a dropped token has left, and OPEN clears with the last. -/
def dropTaken (now : Nat) (k : Fin 4) (q : Fin 8) (c : Core) : Core :=
  let c1 := iqPop now q { c with x := { c.x with drop := setBit c.x.drop q false } }
  if endsToken (c.iq[q].ent 0) && uOpen c1.su[k] then { c1 with su := c1.su.set k (setBit c1.su[k] 149 false) } else c1

theorem headRemoved_dropTaken (now : Nat) (k : Fin 4) (q : Fin 8) (c : Core) : HeadRemoved q c (dropTaken now k q c) := by
  have h := (headRemoved_iqPop now q { c with x := { c.x with drop := setBit c.x.drop q false } }).of_marks
  unfold dropTaken
  dsimp only
  split
  · exact h
  · exact h

theorem uOpen_cleared (u : BitVec 256) : uOpen (setBit u 149 false) = false := by
  rw [uOpen, getLsbD_setBit, if_pos ⟨rfl, by decide⟩]

theorem dropTaken_su {now : Nat} {k : Fin 4} {q : Fin 8} {c : Core} :
    (endsToken (c.iq[q].ent 0) = true → uOpen (dropTaken now k q c).su[k] = false) ∧
      ∀ j : Fin 4, j ≠ k → (dropTaken now k q c).su[j] = c.su[j] := by
  unfold dropTaken
  dsimp only
  split
  · refine ⟨fun _ => ?_, fun j hj => vget_set_ne _ _ hj⟩
    rw [vget_set_same, uOpen_cleared]
  · next h => exact ⟨fun hend => by rw [hend, Bool.true_and] at h; exact Bool.not_eq_true _ ▸ h, fun _ _ => rfl⟩

theorem tokenDrop_of_dropped {e : Env} {k : Fin 4} {q : Fin 8} {c : Core} (hr : c.r.st = .run) (hn : 0 < c.iq[q].count)
    (hfree : iqFree e.now q c = true) (hq : uQ c.su[k] = q) (hhead : dropsHead c k q = true) (hd : c.x.drop.getLsbD q = true)
    (hds : c.x.start.drop.getLsbD q = true) : tokenDrop e k c = steerHead q (dropTaken e.now k q c) := by
  have hq' : Fin.ofNat 8 (uQ c.su[k]) = q := by rw [hq]; exact Fin.ofNat_val_eq_self q
  have hgo : (decide (c.r.st ≠ .run) || decide (c.iq[q].count = 0) || !c.x.drop.getLsbD q || !c.x.start.drop.getLsbD q ||
      !iqFree e.now q c || !dropsHead c k q) = false := by
    simp only [hr, hd, hds, hfree, hhead, Nat.ne_of_gt hn, ne_eq, not_true, decide_false, Bool.not_true, Bool.or_self]
  unfold tokenDrop
  simp only [hq']
  exact if_neg (Bool.not_eq_true _ ▸ hgo)

/-- The units of other queues keep their state, and the unit that dropped a token closes it with its last entry. -/
theorem steerHead_dropTaken_su {now : Nat} {k : Fin 4} {q : Fin 8} {c : Core} (hq : uQ c.su[k] = q) :
    (endsToken (c.iq[q].ent 0) = true → uOpen (steerHead q (dropTaken now k q c)).su[k] = false) ∧
      ∀ j : Fin 4, uQ c.su[j] ≠ q → (steerHead q (dropTaken now k q c)).su[j] = c.su[j] := by
  obtain ⟨-, -, hsu⟩ := steerHead_parts q (dropTaken now k q c)
  obtain ⟨hopen, hother⟩ := dropTaken_su (now := now) (k := k) (q := q) (c := c)
  refine ⟨fun hend => ?_, fun j hj => ?_⟩
  · obtain h | ⟨-, h⟩ := hsu k
    · rw [h, hopen hend]
    · rw [h, uOpen_cleared]
  · have hjk := hother j fun h => hj (h ▸ hq)
    obtain h | ⟨h, -⟩ := hsu j
    · rw [h, hjk]
    · exact absurd (hjk ▸ h) hj

-- Stale tokens ---------------------------------------------------------------------------------------------------

theorem headRemoved_discardHead (now : Nat) (q : Fin 8) (c : Core) :
    HeadRemoved q c (discardHead now q c) ∧ (discardHead now q c).iq[q].hdisc = !endsToken (c.iq[q].ent 0) := by
  refine ⟨(headRemoved_iqPop now q c).steerHead.setHdisc _, ?_⟩
  have hq : (discardHead now q c).iq[q] = (takeHead now q c).iq[q].setHdisc (!endsToken (c.iq[q].ent 0)) := vget_set_same ..
  rw [hq, Queue.hdisc_setHdisc]

/-- A slot that has counted one more stale token; the count saturates. -/
def countDiscard (w : BitVec 512) : BitVec 512 := setFld w 448 16 (min 0xFFFF (fDiscards w + 1))

theorem fDiscards_countDiscard (w : BitVec 512) : fDiscards (countDiscard w) = min 65535 (fDiscards w + 1) := by
  rw [fDiscards, countDiscard, fld_setFld_same _ _ (by decide), Nat.mod_eq_of_lt (by omega)]

theorem staleDiscard_eq {e : Env} {q : Fin 8} {c : Core} (hr : c.r.st = .run) (hn : 0 < c.iq[q].count) (hfree : iqFree e.now q c = true)
    (hd : c.x.drop.getLsbD q = false) : staleDiscard e q c =
      if c.iq[q].hdisc then discardHead e.now q c
      else match staleFold c q (c.iq[q].ent 0) with
        | none => c
        | some k =>
          if fDisc c.folds[k] then discardHead e.now q { c with folds := c.folds.set k (countDiscard c.folds[k]) }
          else dataFault e stState 0x18 ((q : Nat) + 8 * sbTag (c.iq[q].ent 0).sb + 64 * (sbEp (c.iq[q].ent 0).sb).toNat) c := by
  have hgo : (decide (c.r.st ≠ .run) || decide (c.iq[q].count = 0) || !iqFree e.now q c || c.x.drop.getLsbD q) = false := by
    simp only [hr, hfree, hd, Nat.ne_of_gt hn, ne_eq, not_true, decide_false, Bool.not_true, Bool.or_self]
  unfold staleDiscard
  exact if_neg (Bool.not_eq_true _ ▸ hgo)

theorem drops_and_discards_remove_one_entry : Claims.DropsAndDiscardsRemoveOneEntry := by
  intro s g k f q c now hg hr hn hfree
  refine ⟨fun hq hhead hd hds => ?_, fun hd hdisc => ?_, fun hd hdisc hstale => ⟨fun hdc => ?_, fun hdc => ?_⟩⟩
  · rw [show exec (.tokenDrop g k) s = onCore g s (fun e => tokenDrop e k) from rfl, onCore_of_lt s _ hg]
    obtain ⟨h1, h2, h3, h4, h5⟩ := (headRemoved_dropTaken now k q c).steerHead
    obtain ⟨hopen, hother⟩ := steerHead_dropTaken_su (now := now) hq
    exact ⟨_, next_setCore (tokenDrop_of_dropped hr hn hfree hq hhead hd hds), h1, h2, h3, hopen, hother, h4, h5⟩
  all_goals
    rw [show exec (.staleTokenDiscard g q) s = onCore g s (fun e => staleDiscard e q) from rfl, onCore_of_lt s _ hg]
    have hstep := staleDiscard_eq (e := envOf s g) hr hn hfree hd
  · rw [hdisc, if_pos rfl] at hstep
    obtain ⟨⟨h1, h2, h3, h4, h5⟩, h6⟩ := headRemoved_discardHead now q c
    exact ⟨_, next_setCore hstep, h1, h2, h6, h3, h4, h5⟩
  · obtain ⟨⟨h1, h2, h3, h4, h5⟩, h6⟩ := headRemoved_discardHead now q { c with folds := c.folds.set f (countDiscard c.folds[f]) }
    have hfolds : (discardHead (envOf s g).now q _).folds = c.folds.set f (countDiscard c.folds[f]) := congrArg Core.folds h5
    simp only [hdisc, Bool.false_eq_true, if_false, hstale, hdc, if_true] at hstep
    refine ⟨_, next_setCore hstep, h1, h2, h6, h3, ?_, fun j hj => ?_, h4, congrArg (fun d : Core => { d with folds := c.folds }) h5⟩
    · rw [hfolds, vget_set_same, fDiscards_countDiscard]
    · rw [hfolds, vget_set_ne _ _ hj]
  · simp only [hdisc, Bool.false_eq_true, if_false, hstale, hdc] at hstep
    exact next_setCore hstep

end Sys2Proof.Machine

open Sys2Proof Sys2Proof.Machine

/-- Settles O14: a decision by what the unit and the head become; a removal by what any removal from the head of a queue does, the entry
of a dropped or of a stale token. That a head still to be decided is not yet
stale is the model's reading, log 121. -/
theorem steeringDropsAndDiscards : Obligations.SteeringDropsAndDiscards :=
  ⟨steering_decides_the_head, drops_and_discards_remove_one_entry⟩
end

section
/-! O15: arrivals at the input queues, and fetch and dispatch (07 R164, R166, R172; 11 R265; 02 R29, R31; 03 R59 to R63). -/

namespace Sys2Proof.Machine

open Sys2Proof.Claims

-- Arrivals -------------------------------------------------------------------------------------------------------

theorem Queue.count_push (q : Queue) (en : QEntry) (h : q.count < 16) : (q.push en).count = q.count + 1 := by
  rw [Queue.count, Queue.push, fld_setFld_same _ _ (by decide), Nat.mod_eq_of_lt (by omega)]

theorem Queue.head_push (q : Queue) (en : QEntry) : (q.push en).head = q.head := fld_setFld_ne _ _ (by decide)

/-- The entry at the tail is the one that was added. -/
theorem Queue.ent_push (q : Queue) (en : QEntry) : (q.push en).ent q.count = en := by
  simp only [Queue.ent, Queue.head_push]
  exact vget_set_same ..

theorem Queue.count_setTopen (q : Queue) (b : Bool) : (q.setTopen b).count = q.count := fld_setFld_ne _ _ (by decide)

theorem Queue.ent_setTopen (q : Queue) (b : Bool) (i : Nat) : (q.setTopen b).ent i = q.ent i := by
  simp only [Queue.ent, show (q.setTopen b).head = q.head from fld_setFld_ne _ _ (by decide)]
  rfl

theorem Queue.topen_setTopen (q : Queue) (b : Bool) : (q.setTopen b).topen = b := by
  rw [Queue.topen, Queue.setTopen, getLsbD_setBit, if_pos ⟨rfl, by decide⟩]

/-- A queue that takes an entry from the mesh: it stands at the tail, loose where no token is open and FIRST is clear, not yet steered. -/
def Queue.arrived (qu : Queue) (en : QEntry) : Queue :=
  (qu.push ⟨en.data, setBit (setBit en.sb 6 (!sbFirst en.sb && !qu.topen)) 7 false⟩).setTopen
    (if sbFirst en.sb || qu.topen then !sbLast en.sb else false)

theorem Queue.arrived_fields (qu : Queue) (en : QEntry) (h : qu.count < 16) :
    (qu.arrived en).count = qu.count + 1 ∧ ((qu.arrived en).ent qu.count).data = en.data ∧
      sbLoose ((qu.arrived en).ent qu.count).sb = (!sbFirst en.sb && !qu.topen) ∧
      (qu.arrived en).topen = ((sbFirst en.sb || qu.topen) && !sbLast en.sb) := by
  simp only [Queue.arrived, Queue.count_setTopen, Queue.ent_setTopen, Queue.topen_setTopen, Queue.ent_push]
  refine ⟨Queue.count_push qu _ h, trivial, ?_, ?_⟩
  · rw [sbLoose, getLsbD_setBit, if_neg (by decide), getLsbD_setBit, if_pos ⟨rfl, by decide⟩]
  · cases sbFirst en.sb || qu.topen <;> rfl

/-- An arrival that opens no token inside an open one; in an empty queue it may meet an open token's decision at once. -/
theorem arrive_of_order {e : Env} {q : Fin 8} {en : QEntry} {c : Core} (h : (sbFirst en.sb && c.iq[q].topen) = false) :
    arrive e q en c =
      let c1 := actFlit 1 { c with iq := c.iq.set q (c.iq[q].arrived en) }
      if c.iq[q].count = 0 then steerHead q c1 else c1 := by
  unfold arrive
  exact if_neg (Bool.not_eq_true _ ▸ h)

theorem exec_entryArrival {s : State} {g : Nat} {q : Fin 8} {f : Flit} {k : Nat} {outs : List (Fin 4)} (hg : g < numCores)
    (hfrozen : s.tide.frozen = false) (hdone : (getRouter s g).localDone ≠ (getNode s (panOf g)).steps + 1)
    (hsel : lselOf (tget 0 (getRouter s g).slots ((getNode s (panOf g)).steps % periodOf s (panOf g))) = k) (hk : k ≠ 0)
    (hmove : moveOf s g (getNode s (panOf g)).steps k = some ⟨k, f, outs, some q⟩) (hr : (getCore s g).r.st = .run) :
    exec (.entryArrival g q) s = .next (setRouter (setCore s g (arrive (envOf s g) q f.ent (getCore s g))) g
      { getRouter s g with localDone := (getNode s (panOf g)).steps + 1 }) := by
  have hdel : deliver s g q f.ent = setCore s g (arrive (envOf s g) q f.ent (getCore s g)) := by
    rw [deliver, hr]
    rfl
  rw [show exec (.entryArrival g q) s = execEntryArrival g q s from rfl, execEntryArrival, if_neg (Nat.not_le.mpr hg)]
  simp only [hfrozen, decide_eq_false hdone, hsel, decide_eq_false hk, Bool.or_self, Bool.false_eq_true, if_false, hmove, if_true, hdel]
  rfl

/-- The data of a head that meets an open token's decision. -/
theorem steerHead_head_data (q : Fin 8) (c : Core) : ((steerHead q c).iq[q].ent 0).data = (c.iq[q].ent 0).data := by
  have hset : ∀ sb, ((c.iq.set q (c.iq[q].setHead ⟨(c.iq[q].ent 0).data, sb⟩))[q].ent 0).data = (c.iq[q].ent 0).data := fun sb => by
    rw [vget_set_same]
    exact (congrArg QEntry.data (vget_set_same c.iq[q].ents (Fin.ofNat 16 c.iq[q].head) ⟨(c.iq[q].ent 0).data, sb⟩) :)
  unfold steerHead
  split
  · rfl
  · dsimp only
    split
    · rfl
    · split
      · rfl
      · split
        · exact hset _
        · exact hset _

theorem arrivals_enter_the_queue : Claims.ArrivalsEnterTheQueue := by
  intro s g q k f outs c r t done hg hfrozen hdone hsel hk hmove hr hn hord
  obtain ⟨hcount, hdata, hloose, htopen⟩ := Queue.arrived_fields c.iq[q] f.ent hn
  obtain ⟨c1, hc1⟩ : ∃ c1 : Core, c1 = actFlit 1 { c with iq := c.iq.set q (c.iq[q].arrived f.ent) } := ⟨_, rfl⟩
  have hq : c1.iq[q] = c.iq[q].arrived f.ent := by rw [hc1]; exact vget_set_same ..
  have hother : ∀ j : Fin 8, j ≠ q → c1.iq[j] = c.iq[j] := fun j hj => by rw [hc1]; exact vget_set_ne _ _ hj
  have harrive : arrive (envOf s g) q f.ent c = if c.iq[q].count = 0 then steerHead q c1 else c1 := by rw [hc1]; exact arrive_of_order hord
  rw [← hq] at hcount hdata hloose htopen
  refine ⟨_, exec_entryArrival hg hfrozen hdone hsel hk hmove hr, ?_⟩
  rw [show arrive (envOf s g) q f.ent (getCore s g) = _ from harrive]
  by_cases h0 : c.iq[q].count = 0
  · obtain ⟨hptr, hrest, -⟩ := steerHead_parts q c1
    obtain ⟨iq, su, drop, hframe⟩ := steerHead_frame q c1
    rw [if_pos h0]
    refine ⟨?_, ?_, fun h => absurd h0 (Nat.ne_of_gt h), ?_, fun j hj => (hrest j hj).trans (hother j hj), ?_, ?_⟩
    · rw [Queue.count, hptr]
      exact hcount
    · rw [h0] at hdata ⊢
      rw [steerHead_head_data, hdata]
    · rw [Queue.topen, hptr]
      exact htopen
    · rw [hframe, hc1]
      rfl
    · rw [hframe, hc1]
      rfl
  · rw [if_neg h0]
    exact ⟨hcount, hdata, fun _ => hloose, htopen, hother, by rw [hc1]; rfl, by rw [hc1]; rfl⟩

-- Fetch ----------------------------------------------------------------------------------------------------------

/-- Fetch may act: the core runs, fetch goes on, and no halt request is pending. -/
theorem fetchOn_of {e : Env} {c : Core} (hlive : live e c = true) (hgo : c.x.fetch = .going) (hat : c.x.fetchAt ≤ e.now)
    (hhalt : c.x.haltReq = false) : fetchOn e c = true := by
  rw [fetchOn, hlive, decide_eq_true hgo, decide_eq_true hat, hhalt]
  rfl

/-- The core that has dispatched a short instruction to its engine. -/
def dispatched (now : Nat) (i : Instr) (op : Nat) (c : Core) : Core :=
  let eng := engineOf i op
  let on := fetched now false (if isEnd i then .ended else if pauses i then .paused else .going) c
  { on with x := { on.x with
      iss := c.x.iss.set (engNum eng) (issueOf eng c ++ [⟨i, c.pc, op, false, c.x.seq, now, (dispatchRegs i).map (fun r => c.s[r])⟩])
      seq := c.x.seq + 1 } }

/-- The dispatch of a short word that decodes, with nothing pending on its predicate. -/
theorem dispatch_of_decoded {e : Env} {w : Word} {i : Instr} {c : Core} (hshort : w.getLsbD 31 = false) (hgo : c.x.fetch = .going)
    (hdec : decodeCore e.g w 0 = .ok i) (hpend : (pendingWrites e.now c.x.seq c).contains (.p (Fin.ofNat 8 (fld w 27 3))) = false) :
    dispatch e w 0 c =
      if !predHolds c.p w then fetched e.now false .going c
      else if decide (4 ≤ (issueOf (engineOf i (fld w 20 7)) c).length) ||
          (dispatchRegs i).any (fun r => (pendingWrites e.now c.x.seq c).contains (.s r)) then c
      else dispatched e.now i (fld w 20 7) c := by
  unfold dispatch
  simp only [hdec, hpend, hshort, hgo, Bool.and_false, Bool.false_eq_true, if_false]
  rfl

theorem fetch_dispatches_in_order : Claims.FetchDispatchesInOrder := by
  intro s g w i c e op eng pw on hg hlive hgo hat hhalt hfw hpc hw hecc hmask hshort hdec hpend
  have hexec := exec_fetch_of_word hg (fetchOn_of hlive hgo hat hhalt) hfw hpc hw hecc hmask
  rw [fetchSecond_of_short _ _ _ hshort, dispatch_of_decoded hshort hgo hdec hpend] at hexec
  refine ⟨fun hp => ?_, fun hp hwait => ?_, fun hp hroom hready => ?_, rfl⟩
  · rw [show predHolds (getCore s g).p w = false from hp] at hexec
    simpa only [on, hgo, Bool.not_false, if_true] using hexec
  · have hstay : (decide (4 ≤ (issueOf eng c).length) || (dispatchRegs i).any (fun r => pw.contains (.s r))) = true := by
      rw [Bool.or_eq_true, decide_eq_true_eq, List.any_eq_true]
      exact hwait
    rw [hexec, show predHolds (getCore s g).p w = true from hp]
    exact next_setCore (if_pos hstay)
  · have hroom' : (decide (4 ≤ (issueOf eng c).length) || (dispatchRegs i).any (fun r => pw.contains (.s r))) = false := by
      rw [Bool.or_eq_false_iff, decide_eq_false_iff_not, Nat.not_le, List.any_eq_false]
      exact ⟨hroom, fun r hr => by rw [hready r hr]; decide⟩
    rw [hexec, show predHolds (getCore s g).p w = true from hp]
    exact next_setCore (if_neg (Bool.not_eq_true _ ▸ hroom'))

/-- A step of fetch that meets no comparator, whatever comparators there are. -/
theorem exec_fetch_of_step {s : State} {g : Nat} {c' : Core} (hg : g < numCores)
    (h : ∀ bp, fetchStep (envOf s g) bp (getCore s g) = (c', false)) : exec (.instructionFetch g) s = .next (setCore s g c') := by
  rw [show exec (.instructionFetch g) s = execInstructionFetch g s from rfl, execInstructionFetch, if_neg (Nat.not_le.mpr hg)]
  simp only [h]
  rfl

/-- The core that has the row of its program counter in the fetch buffer, once the bank has served it. -/
def rowHeld (pc : Nat) (c : Core) : Core :=
  eccCount (32 * (pc / 32)) 32 { c with x := { c.x with fbuf := some (pc / 32, ofBytes 256 (mread c.sram (32 * (pc / 32)) 32)) } }

theorem fetchRow_eq (e : Env) (pc : Nat) (c : Core) : fetchRow e pc c =
    ((askBank e .fetch 0 (pc / 32) c).1,
      if (askBank e .fetch 0 (pc / 32) c).1 then rowHeld pc (askBank e .fetch 0 (pc / 32) c).2 else (askBank e .fetch 0 (pc / 32) c).2) := by
  unfold fetchRow
  rcases askBank e .fetch 0 (pc / 32) c with ⟨_ | _, c1⟩ <;> rfl

section
variable {e : Env} {c : Core}

/-- Past the code window fetch faults with the address of the last instruction dispatched. -/
theorem fetchStep_past (hon : fetchOn e c = true) (hfw : c.x.fw1 = none) (hpc : 0x4000 ≤ c.pc) (bp : Bool) :
    fetchStep e bp c = (coreFault e .scalar stBounds 0x08 0 0 false c.x.lastPc c, false) := by
  simp only [fetchStep, hon, hfw, hpc, Bool.not_true, Bool.false_eq_true, if_false, if_true]

/-- A row that the bank refuses. -/
theorem fetchStep_refused (hon : fetchOn e c = true) (hfw : c.x.fw1 = none) (hpc : c.pc < 0x4000) (hbuf : bufWord c c.pc = none)
    (hA : (askBank e .fetch 0 (c.pc / 32) c).1 = false) (bp : Bool) :
    fetchStep e bp c = ((askBank e .fetch 0 (c.pc / 32) c).2, false) := by
  simp only [fetchStep, hon, hfw, Nat.not_le.mpr hpc, hbuf, fetchRow_eq, hA, Bool.not_true, Bool.false_eq_true, if_false]

/-- The row of a jump's target, served: its instruction is left to the step after. -/
theorem fetchStep_far (hon : fetchOn e c = true) (hfw : c.x.fw1 = none) (hpc : c.pc < 0x4000) (hbuf : bufWord c c.pc = none)
    (hA : (askBank e .fetch 0 (c.pc / 32) c).1 = true) (hfar : c.x.far = true) (bp : Bool) :
    let c1 := rowHeld c.pc (askBank e .fetch 0 (c.pc / 32) c).2
    fetchStep e bp c = ({ c1 with x := { c1.x with far := false, fetchAt := e.now + 1 } }, false) := by
  have hfar' : (rowHeld c.pc (askBank e .fetch 0 (c.pc / 32) c).2).x.far = true := by
    obtain ⟨_, _, _, hframe⟩ := askBank_frame e .fetch 0 (c.pc / 32) c
    rw [rowHeld, eccCount_x, hframe]
    exact hfar
  simp only [fetchStep, hon, hfw, Nat.not_le.mpr hpc, hbuf, fetchRow_eq, hA, hfar', Bool.not_true, Bool.false_eq_true, if_false, if_true]

end

theorem fetch_reads_its_row : Claims.FetchReadsItsRow := by
  intro s g c e A hg hlive hgo hat hhalt hfw
  have hon : fetchOn e c = true := fetchOn_of hlive hgo hat hhalt
  refine ⟨fun hpc hbuf => ⟨fun hA => exec_fetch_of_step hg (fetchStep_refused hon hfw hpc hbuf hA), fun hA hfar => ?_⟩,
    fun hpc => exec_fetch_of_step hg (fetchStep_past hon hfw hpc)⟩
  obtain ⟨served, refused, act, hframe⟩ := askBank_frame e .fetch 0 (c.pc / 32) c
  have hframe' : A.2 = _ := hframe
  obtain ⟨ce, hce⟩ := eccCount_eq (32 * (c.pc / 32)) 32
    { A.2 with x := { A.2.x with fbuf := some (c.pc / 32, ofBytes 256 (mread A.2.sram (32 * (c.pc / 32)) 32)) } }
  refine ⟨_, exec_fetch_of_step hg (fetchStep_far hon hfw hpc hbuf hA hfar), ?_, rfl, rfl, ?_, ?_⟩
  · rw [rowHeld, hce, hframe']
  · rw [rowHeld, hce]
  · rw [rowHeld, hce, hframe']

end Sys2Proof.Machine

open Sys2Proof Sys2Proof.Machine

/-- Settles O15: an arrival by the queue that has taken the entry, a dispatch by the word's predicate and by what it waits for, a fetch by
what the bank answers. OP 0 and the last address of a fetch past 0x3FFF (log 18), and a row that fills the buffer whatever errors its
other words have (log 95), are the model's readings. -/
theorem arrivalsAndFetch : Obligations.ArrivalsAndFetch :=
  ⟨arrivals_enter_the_queue, fetch_dispatches_in_order, fetch_reads_its_row⟩
end

section
/-! O32: hot reloads, from the holding of their slots to the turn of the epoch (07 R183 to R186; 14 R359). -/

namespace Sys2Proof.Machine

open Sys2Proof.Claims

-- What holding and sending leave ---------------------------------------------------------------------------------

@[simp] theorem getPart_sendHalts (gs : List Nat) (s : State) (k : Nat) : getPart (sendHalts gs s) k = getPart s k := rfl

/-- Holding slots leaves the partitions. -/
@[simp] theorem getPart_holdAll (gs : List (Nat × CoreRec)) (s : State) (k : Nat) : getPart (gs.foldl holdSlots s) k = getPart s k :=
  List.foldlRecOn (motive := fun t => getPart t k = getPart s k) gs holdSlots rfl fun _ h _ _ => h

/-- A partition with a long command reads back as written. -/
theorem getPart_setPart_of_long (s : State) (k : Nat) {v : Part} {l : Long} (h : v.long = some l) : getPart (setPart s k v) k = v :=
  tget_tset_of_ne Part.zero s.parts k v (by rintro rfl; cases h)

-- JOB_RELOAD and JOB_RELOAD_FORCED -------------------------------------------------------------------------------

/-- The checks of a reload pass. -/
theorem reloadChecks_pass {force : Nat} {c : Cmd} {s1 : State} {rs : List CoreRec} (hearly : tooEarly s1 = false) (ht : isT s1 c = true)
    (hst : [PSt.running, .held].contains (getPart s1 c.part).st = true) (hset : reloadSet c = some rs)
    (hcores : ∀ r ∈ rs, (imageCore s1 c.part r.icn).isSome = true) (hform : badForm c false false true [force, all32] = false) :
    firstCode (reloadChecks force c s1) = none := by
  have hany : rs.any (fun r => (imageCore s1 c.part r.icn).isNone) = false :=
    List.any_eq_false.mpr fun r hr => by simp [Option.isSome_iff_ne_none.mp (hcores r hr)]
  simp only [reloadChecks, hset, hform, ht, hearly, inSt, hst, hany]
  rfl

theorem longIs_of {s : State} {k : Nat} {kind : LongKind} {l : Long} (h : (getPart s k).long = some l) (hk : l.kind = kind) :
    longIs s k kind = some l := by
  rw [longIs, h]
  exact if_pos hk

/-- The cores of a reload that a forced one has to halt. -/
def toHalt (s : State) (r : Reload) : List Nat := (r.recs.filter (fun x => needsHalt (getCore s x.1) x.2)).map Prod.fst

/-- A forced reload that has sent no halt yet: it sends them, or writes every core and completes. -/
theorem forceReady_of_new {k : Nat} {s : State} {l : Long} {r : Reload} (hl : longIs s k .reload = some l) (hc : l.cores = [])
    (hr : (getPart s k).reload = some r) : forceReady k s =
      if toHalt s r = [] then
        completeLong k stOK [(r.recs.map (fun x => discarded (getCore s x.1) (reloadSlots x.2))).foldl (· + ·) 0 % 2 ^ 32]
          (modPart (r.recs.foldl (fun s x => setCore s x.1 (forceCore x.2 (getCore s x.1))) s) k (fun p => { p with reload := none }))
      else modPart (sendHalts (toHalt s r) s) k (fun p => { p with long := some { l with cores := toHalt s r } }) := by
  have hmore : ∀ wait : List Nat, wait.filter (fun g => !([] : List Nat).contains g) = wait := fun wait =>
    List.filter_eq_self.mpr fun g _ => by simp
  unfold forceReady
  simp only [hl, hr, hc, ← toHalt.eq_def, List.isEmpty_iff, List.filter_nil, List.foldl_nil, hmore, List.nil_append]

theorem reloads_begin : Claims.ReloadsBegin := by
  intro s s1 c rs hgoes k gs ht hst hset hcores hfit hlong
  obtain ⟨htake, hearly⟩ := hgoes
  have hbusy : longBusy s1 c = false := by rw [longBusy, show (getPart s1 c.part).long = none from hlong]; rfl
  have hpass : ∀ force, badForm c false false true [force, all32] = false → firstCode (reloadChecks force c s1) = none := fun force =>
    reloadChecks_pass hearly ht hst hset hcores
  refine ⟨fun hforce hform => ?_, fun hforce hform => ?_⟩
  · refine ⟨_, ?_, rfl⟩
    rw [show exec (.jobReload c) s = execJobReload c s from rfl, execJobReload, if_neg (by rw [hforce]; decide)]
    refine runCmd_of_later htake (hpass 0 hform) ?_
    simp only [hset, show reloadFit s1 c.part rs = none from hfit, hbusy, modPart, getPart_holdAll, Bool.false_eq_true, if_false]
    rfl
  · intro l t wait n
    have hpart : getPart t k = { getPart s1 k with reload := some ⟨gs, arg c 1, north s1, [], [], none⟩, long := some l } :=
      getPart_setPart_of_long s1 k rfl
    have hready := forceReady_of_new (longIs_of (s := t) (k := k) (l := l) (by rw [hpart]) rfl) rfl (by rw [hpart])
    rw [show exec (.jobReloadForced c) s = execJobReloadForced c s from rfl, execJobReloadForced, if_neg (by rw [hforce]; decide)]
    refine runCmd_of_later htake (hpass 1 hform) ?_
    simp only [hset, show reloadFit s1 c.part rs = none from hfit, hbusy, Bool.false_eq_true, if_false]
    exact congrArg (fun u => Reply.later (if s1.tide.frozen then t else u)) hready

-- Confirming and committing --------------------------------------------------------------------------------------

/-- A core of a reload that is not listed has not confirmed. -/
theorem not_all_confirmed {recs : List (Nat × CoreRec)} {ok : List Nat} (h : ∃ x ∈ recs, ok.contains x.1 = false) :
    recs.all (fun x => ok.contains x.1) = false := by
  obtain ⟨x, hx, hno⟩ := h
  exact List.all_eq_false.mpr ⟨x, hx, by rw [hno]; decide⟩

theorem reloads_are_confirmed_and_committed : Claims.ReloadsAreConfirmedAndCommitted := by
  intro s k l r p quiet since ok hlong hkind hreload hfrozen
  have hl : longIs s k .reload = some l := longIs_of hlong hkind
  have hr : (getPart s k).reload = some r := hreload
  have hcheck : exec (.quiescenceCheck k) s = execQuiescenceCheck k s := rfl
  have hcommit : exec (.reloadCommit k) s = execReloadCommit k s := rfl
  refine ⟨fun hnums hgoal hlast hfault hunok hunok' => ?_, fun hgoal hunok htime => ?_, fun hnums hfault => ⟨?_, fun hgoal hlast => ?_⟩,
    fun T hnums hgoal hfault hne hall => ?_⟩
  · rw [hcheck, execQuiescenceCheck]
    simp only [hl, hr, hfrozen, hgoal, hnums, hfault, Nat.not_lt.mpr hlast, not_all_confirmed hunok]
    show Host.Outcome.next (if r.recs.all (fun x => ok.contains x.1) = true then _ else _) = _
    rw [not_all_confirmed hunok']
    rfl
  · rw [show exec (.reloadTimeout k) s = execReloadTimeout k s from rfl, execReloadTimeout]
    simp only [hl, hr, hfrozen, hgoal, htime, not_all_confirmed hunok]
    rfl
  · rw [hcommit, execReloadCommit]
    simp only [hl, hr, hfrozen, hnums, hfault]
    rfl
  · rw [hcheck, execQuiescenceCheck]
    simp only [hl, hr, hfrozen, hgoal, hnums, hfault, Nat.not_lt.mpr hlast]
    rfl
  · have hdue : r.recs.filter (fun x => decide (T ≤ (getNode s (panOf x.1)).steps)) = r.recs :=
      List.filter_eq_self.mpr fun x hx => decide_eq_true (hall x hx)
    have hrest : r.recs.filter (fun x => decide ((getNode s (panOf x.1)).steps < T)) = [] :=
      List.filter_eq_nil_iff.mpr fun x hx => by simpa using hall x hx
    rw [hcommit, execReloadCommit]
    simp only [hl, hr, hfrozen, hnums, hgoal, hfault, hdue, hrest, List.isEmpty_eq_false_iff.mpr hne]
    rfl

-- Writing --------------------------------------------------------------------------------------------------------

/-- A mask to which different bits that it lacks are added reads as before but for those bits. -/
theorem getLsbD_addBits {l : List Nat} (hl : l.Nodup) (m : Nat) (hm : ∀ a ∈ l, (BitVec.ofNat 8 m).getLsbD a = false) {k : Nat} (hk : k < 8) :
    (BitVec.ofNat 8 (l.foldl (fun m a => m + 2 ^ a) m)).getLsbD k = ((BitVec.ofNat 8 m).getLsbD k || decide (k ∈ l)) := by
  induction l generalizing m with
  | nil => simp
  | cons a t ih =>
    obtain ⟨hat, ht⟩ := List.nodup_cons.mp hl
    have hpow : BitVec.ofNat 8 (2 ^ a) = BitVec.twoPow 8 a := BitVec.eq_of_toNat_eq (by rw [BitVec.toNat_ofNat, BitVec.toNat_twoPow])
    have hadd : BitVec.ofNat 8 (m + 2 ^ a) = BitVec.ofNat 8 m ||| BitVec.twoPow 8 a := by
      rw [BitVec.ofNat_add, hpow, BitVec.add_eq_or_of_and_eq_zero]
      rw [BitVec.and_twoPow, hm a List.mem_cons_self, if_neg Bool.false_ne_true]
    have hrest : ∀ j ∈ t, (BitVec.ofNat 8 (m + 2 ^ a)).getLsbD j = false := fun j hj => by
      have hja : a ≠ j := fun h => hat (h ▸ hj)
      rw [hadd, BitVec.getLsbD_or, BitVec.getLsbD_twoPow, hm j (List.mem_cons_of_mem a hj), decide_eq_false hja, Bool.and_false, Bool.or_false]
    rw [List.foldl_cons, ih ht _ hrest, hadd, BitVec.getLsbD_or, BitVec.getLsbD_twoPow, Bool.or_assoc]
    by_cases hka : k = a
    · simp [hka ▸ hk, hka]
    · simp [hka, Ne.symm hka]

/-- The bits of S as a mask. -/
theorem getLsbD_reloadMask (r : CoreRec) (k : Fin 8) : (reloadMask r).getLsbD k = decide (k ∈ reloadSlots r) := by
  have hmask : maskOf (reloadSlots r) = ((reloadSlots r).map Fin.val).foldl (fun m a => m + 2 ^ a) 0 := by
    rw [maskOf, List.map_eq_flatMap]
    rfl
  have hnodup : ((reloadSlots r).map Fin.val).Nodup := ((List.nodup_finRange 8).filter _).map Fin.val_injective
  rw [reloadMask, hmask, getLsbD_addBits hnodup 0 (fun a _ => BitVec.getLsbD_zero) k.isLt]
  simp [Fin.val_inj]

/-- A bit of a field that reads 0. -/
theorem getLsbD_of_fld_zero {n lo len : Nat} {w : BitVec n} (h : fld w lo len = 0) {j : Nat} (hj : lo ≤ j ∧ j < lo + len) :
    w.getLsbD j = false := by
  have hbit : (w.extractLsb' lo len).getLsbD (j - lo) = false := by
    rw [show w.extractLsb' lo len = 0 from BitVec.eq_of_toNat_eq h]
    exact BitVec.getLsbD_zero
  rw [BitVec.getLsbD_extractLsb', Bool.and_eq_false_imp] at hbit
  rw [show j = lo + (j - lo) by omega]
  exact hbit (decide_eq_true (by omega))

/-- A slot that takes a new configuration. -/
theorem writeFold_fields (disc : Bool) (old : BitVec 512) {w : BitVec 512} (hfresh : foldFresh w = true) :
    let v := writeFold disc old w
    fEpoch v = !fEpoch old ∧ fDisc v = disc ∧ fCand v = fCand old ∧ fActive v = false ∧ fFires v = 0 ∧ fDiscards v = 0 ∧
      fEntry v = fEntry w ∧ fTag v = fTag w ∧ fValid v = fValid w := by
  simp only [foldFresh, Bool.and_eq_true, decide_eq_true_eq] at hfresh
  obtain ⟨⟨hmarks, hfires⟩, hdiscards⟩ := hfresh
  have hbit : ∀ j, (writeFold disc old w).getLsbD j =
      if j = 384 then fCand old else if j = 20 then disc else if j = 15 then !fEpoch old else w.getLsbD j := by
    intro j
    have hin : ∀ i < 512, (j = i ∧ j < 512) = (j = i) := fun i hi => propext ⟨And.left, fun h => ⟨h, h ▸ hi⟩⟩
    simp only [writeFold, setCand, getLsbD_setBit, hin 384 (by decide), hin 20 (by decide), hin 15 (by decide)]
  have hfld : ∀ lo len, (lo + len ≤ 15 ∨ 16 ≤ lo ∧ lo + len ≤ 20 ∨ 21 ≤ lo ∧ lo + len ≤ 384 ∨ 385 ≤ lo) →
      fld (writeFold disc old w) lo len = fld w lo len := fun lo len h => by
    rw [writeFold, setCand, setBit, setBit, setBit, fld_setFld_ne _ _ (by omega), fld_setFld_ne _ _ (by omega), fld_setFld_ne _ _ (by omega)]
  refine ⟨?_, ?_, ?_, ?_, ?_, ?_, ?_, ?_, ?_⟩
  · exact (hbit 15).trans rfl
  · exact (hbit 20).trans rfl
  · exact (hbit 384).trans rfl
  · exact (hbit 385).trans (getLsbD_of_fld_zero hmarks (by decide))
  · exact (hfld 416 32 (by decide)).trans hfires
  · exact (hfld 448 16 (by decide)).trans hdiscards
  · exact hfld 0 14 (by decide)
  · exact hfld 16 3 (by decide)
  · exact (hbit 14).trans rfl

theorem reload_writes_turn_the_epoch : Claims.ReloadWritesTurnTheEpoch := by
  intro disc r c k c' w hfresh
  have hslot : c'.folds[k] = if (reloadSlots r).contains k then writeFold disc c.folds[k] w else c.folds[k] := Vector.getElem_ofFn _
  have hheld : c'.x.held.getLsbD k = (c.x.held.getLsbD k && !decide (k ∈ reloadSlots r)) := by
    show (c.x.held &&& ~~~ reloadMask r).getLsbD k = _
    rw [BitVec.getLsbD_and, BitVec.getLsbD_not, getLsbD_reloadMask, decide_eq_true k.isLt, Bool.true_and]
  refine ⟨fun hk => ?_, fun hk => ?_, rfl⟩
  · rw [if_pos (List.contains_iff_mem.mpr hk)] at hslot
    rw [hslot, hheld, decide_eq_true hk, Bool.not_true, Bool.and_false]
    obtain ⟨h1, h2, h3, h4, h5, h6, h7, h8, h9⟩ := writeFold_fields disc c.folds[k] hfresh
    exact ⟨h1, h2, h3, h4, h5, h6, h7, h8, h9, rfl⟩
  · rw [if_neg (mt List.contains_iff_mem.mp hk)] at hslot
    rw [hslot, hheld, decide_eq_false hk, Bool.not_false, Bool.and_true]
    exact ⟨rfl, rfl⟩

end Sys2Proof.Machine

open Sys2Proof Sys2Proof.Machine

/-- Settles O32: a reload begins once its checks pass, a row of the running reload by its guards, the writing slot by slot. That a forced
reload writes all its cores at once when none needs a halt any more, and that a commit counts by pans, are the model's readings, log 67. -/
theorem reloadsReplaceCode : Obligations.ReloadsReplaceCode :=
  ⟨reloads_begin, reloads_are_confirmed_and_committed, reload_writes_turn_the_epoch⟩
end

section
/-! O4: REL, ACQ and SYNC.ALL, the end of a step with one in progress, and STEP.COMMIT (09 R211 to R213; 06 R149, R152, R154). -/

namespace Sys2Proof.Machine

open Sys2Proof.Claims

-- The ordering instructions --------------------------------------------------------------------------------------

/-- A turn that waits for what is not there leaves the core as it is. -/
theorem ready_none_of_waits {s : State} {g : Nat} {eng : Engine} {i : Instr} {k : Disp} (h : mayGo s g eng i k)
    (hw : waitsDone (envOf s g) k (getCore s g) = false) : ready (envOf s g) eng i (getCore s g) = none := by
  rw [mayGo_begins h, hw]
  rfl

/-- Dropping a staged copy touches the two copies alone. -/
theorem dropCopy_frame (eng : Engine) (c : Core) :
    { dropCopy eng c with x := { (dropCopy eng c).x with wRow := c.x.wRow, dRow := c.x.dRow } } = c := by
  cases eng <;> rfl

theorem dropCopies_frame (c : Core) :
    { dropCopy .matrix (dropCopy .dma c) with x := { (dropCopy .matrix (dropCopy .dma c)).x with wRow := c.x.wRow, dRow := c.x.dRow } } = c := rfl

theorem dropCopy_wRow (c : Core) : (dropCopy .matrix c).x.wRow = none := rfl

theorem dropCopy_dRow (c : Core) : (dropCopy .dma c).x.dRow = none := rfl

theorem ordering_instructions_complete : Claims.OrderingInstructionsComplete := by
  intro s g eng k c now
  refine ⟨fun h => ?_, fun h => ?_, fun h => ?_⟩
  · have hb : mayBegin s g eng (.rel g eng) k := mayGo_mayBegin h (by simp only [waitsDone, h.1.2.2])
    rw [show exec (.rel g eng) s = execRel g eng s from rfl, execRel, onCore_of_lt s _ hb.1, hb.2]
    rfl
  · have hw : waitsDone (envOf s g) k c = allDone now k.seq isOrdering c := by simp only [waitsDone, h.1.2.2]; rfl
    rw [show exec (.acq g eng) s = execAcq g eng s from rfl, execAcq, onCore_of_lt s _ h.1.1]
    refine ⟨fun hdone => ?_, fun hopen => ?_⟩
    · rw [(mayGo_mayBegin h (hw.trans hdone)).2]
      exact ⟨_, rfl, fun he => he ▸ dropCopy_wRow _, fun he => he ▸ dropCopy_dRow _, dropCopy_frame eng (taken s g eng k 1 1)⟩
    · rw [ready_none_of_waits h (hw.trans hopen)]
  · have hw : waitsDone (envOf s g) k c = allDone now k.seq (fun _ => true) c := by simp only [waitsDone, h.1.2.2]; rfl
    rw [show exec (.syncAll g) s = execSyncAll g s from rfl, execSyncAll, onCore_of_lt s _ h.1.1]
    refine ⟨fun hdone => ?_, fun hopen => ?_⟩
    · rw [(mayGo_mayBegin h (hw.trans hdone)).2]
      exact ⟨_, rfl, rfl, rfl, dropCopies_frame (taken s g .scalar k 1 1)⟩
    · rw [ready_none_of_waits h (hw.trans hopen)]

-- The end of a step ----------------------------------------------------------------------------------------------

/-- A row that a DMA slot had requested by step t still stands unserved. -/
theorem rowsSince_iff {t : Nat} {c : Core} : rowsSince t c = true ↔ ∃ a ∈ c.x.refused, a.user = .dma ∧ a.since ≤ t := by
  simp only [rowsSince, List.any_eq_true, Bool.and_eq_true, decide_eq_true_eq]

/-- Whether the end of step now finds that an instruction in progress still waits for earlier ones or for rows (09 R211, R213). -/
def stillOpen (now : Nat) (c : Core) (b : Begun) : Prop :=
  (∃ g eng, b.ins = .rel g eng ∧
    ((∃ a ∈ c.x.begun, a.eng = eng ∧ a.seq < b.seq ∧ now + 1 < a.due) ∨ (eng = .dma ∧ rowsSince b.at_ c = true))) ∨
  (∃ g, b.ins = .syncAll g ∧ rowsSince b.at_ c = true)

/-- What the end of a step makes of each instruction in progress. -/
theorem mem_relEnd {now : Nat} {c : Core} {b : Begun} (hb : b ∈ c.x.begun) :
    (now < b.due → stillOpen now c b → { b with due := max b.due (now + 2) } ∈ (relEnd now c).x.begun) ∧
      (¬stillOpen now c b → b ∈ (relEnd now c).x.begun) := by
  refine ⟨fun hdue hopen => List.mem_map.mpr ⟨b, hb, if_pos ?_⟩, fun hno => List.mem_map.mpr ⟨b, hb, if_neg fun h => hno ?_⟩⟩
  · obtain ⟨g, eng, hi, hwait⟩ | ⟨g, hi, hrows⟩ := hopen
    · simpa [hi, hdue, and_assoc] using hwait
    · simp [hi, hdue, hrows]
  · rw [Bool.and_eq_true] at h
    obtain ⟨-, h⟩ := h
    dsimp only at h
    split at h
    · next g eng hi => exact .inl ⟨g, eng, hi, by simpa [and_assoc] using h⟩
    · next g hi => exact .inr ⟨g, hi, h⟩
    · exact absurd h Bool.false_ne_true

theorem stillOpen_rel {now : Nat} {c : Core} {b : Begun} {g : Nat} {eng : Engine} (hi : b.ins = .rel g eng) :
    stillOpen now c b ↔ (∃ a ∈ c.x.begun, a.eng = eng ∧ a.seq < b.seq ∧ now + 1 < a.due) ∨ (eng = .dma ∧ rowsSince b.at_ c = true) := by
  simp only [stillOpen, hi, Instr.rel.injEq, reduceCtorEq, false_and, exists_false, or_false]
  exact ⟨fun ⟨_, _, ⟨_, he⟩, hw⟩ => he ▸ hw, fun hw => ⟨g, eng, ⟨rfl, rfl⟩, hw⟩⟩

theorem stillOpen_syncAll {now : Nat} {c : Core} {b : Begun} {g : Nat} (hi : b.ins = .syncAll g) :
    stillOpen now c b ↔ rowsSince b.at_ c = true := by
  simp [stillOpen, hi]

theorem releases_wait_for_their_rows : Claims.ReleasesWaitForTheirRows := by
  intro now c b hb rows put
  obtain ⟨hput, hstay⟩ := mem_relEnd (now := now) hb
  refine ⟨fun g eng hi hdue => ?_, fun g hi hdue => ?_, fun hrel hsync => hstay ?_, rfl⟩
  · have hiff := stillOpen_rel (now := now) (c := c) hi
    rw [rowsSince_iff] at hiff
    exact ⟨fun h => hput hdue (hiff.mpr h), fun h => hstay (mt hiff.mp h)⟩
  · have hiff := (stillOpen_syncAll (now := now) (c := c) hi).trans rowsSince_iff
    exact ⟨fun h => hput hdue (hiff.mpr h), fun h => hstay (mt hiff.mp h)⟩
  · rintro (⟨g, eng, hi, -⟩ | ⟨g, hi, -⟩)
    · exact hrel g eng hi
    · exact hsync g hi

-- STEP.COMMIT ----------------------------------------------------------------------------------------------------

/-- The bits of STEP_GUARD once one of them is written. -/
theorem gOvf_setBit (w : Word) (i : Nat) (b : Bool) : gOvf (setBit w i b) = if i = 0 then b else gOvf w := by
  rw [gOvf, gOvf, getLsbD_setBit]
  simp only [show 0 < 32 by decide, and_true, eq_comm]

theorem gJob_setBit (w : Word) (i : Nat) (b : Bool) : gJob (setBit w i b) = if i = 1 then b else gJob w := by
  rw [gJob, gJob, getLsbD_setBit]
  simp only [show 1 < 32 by decide, and_true, eq_comm]

theorem gPar_setBit (w : Word) (i : Nat) (b : Bool) : gPar (setBit w i b) = if i = 2 then b else gPar w := by
  rw [gPar, gPar, getLsbD_setBit]
  simp only [show 2 < 32 by decide, and_true, eq_comm]

theorem gRdone_setBit (w : Word) (i : Nat) (b : Bool) : gRdone (setBit w i b) = if i = 3 then b else gRdone w := by
  rw [gRdone, gRdone, getLsbD_setBit]
  simp only [show 3 < 32 by decide, and_true, eq_comm]

/-- LS_EXP keeps its value where a bit below it is written. -/
theorem gLs_setBit (w : Word) {i : Nat} (b : Bool) (h : i < 8) : gLs (setBit w i b) = gLs w := by
  apply BitVec.eq_of_getLsbD_eq
  intro j hj
  rw [gLs, gLs, BitVec.getLsbD_extractLsb', BitVec.getLsbD_extractLsb', getLsbD_setBit, if_neg (by omega)]

/-- STEP_GUARD and P7 once a guard result is written (06 R152). -/
theorem applyGuard_fields (ovf : Bool) (ls : Byte) (c : Core) :
    let c' := applyGuard ovf ls c
    predGet c'.p 7 = !ovf ∧ gJob c'.guard = ovf ∧ gLs c'.guard = ls ∧ gOvf c'.guard = gOvf c.guard ∧ gPar c'.guard = gPar c.guard := by
  obtain ⟨-, hjob, hls, hovf, hpar⟩ := lateGuard_fields c.guard ovf ls
  rw [gJob_setBit] at hjob
  rw [gLs_setBit _ _ (by decide)] at hls
  rw [gOvf_setBit] at hovf
  rw [gPar_setBit] at hpar
  refine ⟨?_, hjob, hls, hovf, hpar⟩
  simp [applyGuard, putP, predGet_predSet]

section
variable {s : State} {g : Nat} {k : Disp}

/-- The core that has given its contribution and waits for the guard result (06 R149). -/
def contributed (e : Env) (c : Core) : Core :=
  { c with
    guard := setBit c.guard 0 false
    x := { c.x with
      phase3 := some (gOvf c.guard)
      urgent := c.x.urgent ++ [coreMsg e none (.guardC (gOvf c.guard) 1 (gPar c.guard))] } }

/-- The core that has ended its guard step with a result that came before (06 R154). -/
def stepOver (c : Core) : Core := { c with guard := setBit (setBit (setBit c.guard 3 false) 0 false) 2 (!gPar c.guard) }

/-- STEP_GUARD of such a core. -/
theorem stepOver_fields (c : Core) :
    let c' := stepOver c
    gRdone c'.guard = false ∧ gOvf c'.guard = false ∧ gPar c'.guard = (!gPar c.guard) ∧ gJob c'.guard = gJob c.guard ∧
      gLs c'.guard = gLs c.guard := by
  refine ⟨?_, ?_, ?_, ?_, ?_⟩
  · simp [stepOver, gRdone_setBit]
  · simp [stepOver, gOvf_setBit]
  · simp [stepOver, gPar_setBit]
  · simp [stepOver, gJob_setBit]
  · simp [stepOver, gLs_setBit]

/-- The core that has ended its guard step on a result (06 R152). -/
def resolved (ovf : Bool) (ls : Byte) (c : Core) : Core :=
  let c' := applyGuard ovf ls c
  { c' with guard := setBit c'.guard 2 (!gPar c'.guard), x := { c'.x with phase3 := none, gres := none } }

/-- STEP_GUARD and P7 of such a core. -/
theorem resolved_fields (ovf : Bool) (ls : Byte) (c : Core) :
    let c' := resolved ovf ls c
    predGet c'.p 7 = (!ovf) ∧ gJob c'.guard = ovf ∧ gLs c'.guard = ls ∧ gPar c'.guard = (!gPar c.guard) := by
  obtain ⟨hp7, hjob, hls, -, hpar⟩ := applyGuard_fields ovf ls c
  refine ⟨hp7, ?_, ?_, ?_⟩
  · simpa [resolved, gJob_setBit] using hjob
  · simpa [resolved, gLs_setBit] using hls
  · simpa [resolved, gPar_setBit] using hpar

section
variable (e : Env) (c : Core)

/-- Fetch going on and the end of a guard step leave everything else, in each of the three ways. -/
theorem applyGuard_resumeFetch_frame (ovf : Bool) (ls : Byte) :
    let c' := applyGuard ovf ls (resumeFetch e c)
    { c' with p := c.p, guard := c.guard, x := { c'.x with fetch := c.x.fetch, fetchAt := c.x.fetchAt } } = c := rfl

theorem stepOver_resumeFetch_frame :
    let c' := stepOver (resumeFetch e c)
    { c' with guard := c.guard, x := { c'.x with fetch := c.x.fetch, fetchAt := c.x.fetchAt } } = c := rfl

theorem resolved_resumeFetch_frame (ovf : Bool) (ls : Byte) :
    let c' := resolved ovf ls (resumeFetch e c)
    { c' with p := c.p, guard := c.guard
              x := { c'.x with fetch := c.x.fetch, fetchAt := c.x.fetchAt, phase3 := c.x.phase3, gres := c.x.gres } } = c := rfl

end

/-- The core in which STEP.COMMIT has begun and fetch goes on. -/
def committing (s : State) (g : Nat) (k : Disp) : Core := resumeFetch (envOf s g) (taken s g .scalar k 1 1)

/-- STEP.COMMIT waits, besides for earlier instructions, for what ends its step. -/
theorem waitsDone_stepCommit {e : Env} {c : Core} (hi : k.ins = .stepCommit g) (hdone : allDone e.now k.seq (fun _ => true) c = true) :
    waitsDone e k c = (!e.guardOn || gRdone c.guard || (c.x.phase3.isSome && c.x.gres.isSome)) := by
  simp only [waitsDone, hi, hdone, Bool.true_and]

/-- The contribution of a STEP.COMMIT at the head of its queue, and its withdrawal with a halt request pending (06 R149, R154). -/
theorem exec_contribute (h : mayGo s g .scalar (.stepCommit g) k)
    (hdone : allDone (envOf s g).now k.seq (fun _ => true) (getCore s g) = true) (hon : (envOf s g).guardOn = true)
    (hp : (getCore s g).x.phase3 = none) (hr : gRdone (getCore s g).guard = false) :
    exec (.stepCommitContribute g) s = .next (setCore s g (
      let c1 := contributed (envOf s g) (getCore s g)
      if (getCore s g).x.haltReq then withdraw (envOf s g) c1 else c1)) := by
  rw [show exec (.stepCommitContribute g) s = execStepCommitContribute g s from rfl, execStepCommitContribute, onCore_of_lt s _ h.1.1, h.1.2.1]
  refine next_setCore (if_pos ?_)
  simp [h.1.2.2, hon, hdone, hp, hr]

/-- A STEP.COMMIT that ends its step begins, in one of three ways (06 R149, R152, R154). -/
theorem exec_stepCommit (h : mayGo s g .scalar (.stepCommit g) k) (hw : waitsDone (envOf s g) k (getCore s g) = true) :
    exec (.stepCommit g) s = .next (setCore s g (
      if !(envOf s g).guardOn then applyGuard false (gLs (getCore s g).guard) (committing s g k)
      else if gRdone (getCore s g).guard then stepOver (committing s g k)
      else ((getCore s g).x.gres.map fun r => resolved r.1 r.2 (committing s g k)).getD (getCore s g))) := by
  rw [show exec (.stepCommit g) s = execStepCommit g s from rfl, execStepCommit, onCore_of_lt s _ h.1.1, (mayGo_mayBegin h hw).2]
  cases (getCore s g).x.gres <;> rfl

end

theorem step_commit_runs_through_its_phases : Claims.StepCommitRunsThroughItsPhases := by
  intro s g k c e sent h hdone
  have hw := waitsDone_stepCommit h.1.2.2 hdone
  have hnot : e.guardOn = true → ¬(!e.guardOn) = true := fun hon => by rw [hon]; decide
  refine ⟨fun hon hp hr hq => ?_, fun hon hp hr hq hg => ?_, fun hoff => ?_, fun hon hr => ?_, fun b ovf ls hon hr hp hg => ?_,
    fun hon hr hno => ?_⟩
  · rw [exec_contribute h hdone hon hp hr]
    exact next_setCore (if_neg (by rw [hq]; exact Bool.false_ne_true))
  · obtain ⟨l, hl⟩ : ∃ l, issueOf .scalar c = k :: l := List.head?_eq_some_iff.mp (headFree_some_iff.mp h.1.2.1).1
    refine ⟨gOrOvf (setBit c.guard 0 false) (gOvf c.guard), ?_, ?_, fun j hj => ?_⟩
    · rw [exec_contribute h hdone hon hp hr]
      refine next_setCore ((if_pos hq).trans ((withdraw_of_phase3 (c := contributed e c) rfl hg hl).trans ?_))
      simp only [contributed, gPar_setBit, ← hp]
      rfl
    · rw [gOvf_gOrOvf, gOvf_setBit, if_pos rfl, Bool.false_or]
    · rw [getLsbD_gOrOvf _ _ hj, getLsbD_setBit, if_neg (fun hj' => hj hj'.1)]
  · obtain ⟨hp7, hjob, hls, hovf, hpar⟩ := applyGuard_fields false (gLs c.guard) (committing s g k)
    refine ⟨_, (exec_stepCommit h (by rw [hw, hoff]; rfl)).trans (next_setCore (if_pos (by rw [hoff]; rfl))), hp7, hjob, hls, hpar, hovf,
      applyGuard_resumeFetch_frame e (taken s g .scalar k 1 1) false (gLs c.guard)⟩
  · obtain ⟨hrd, hovf, hpar, hjob, hls⟩ := stepOver_fields (committing s g k)
    refine ⟨_, (exec_stepCommit h (by rw [hw, hr, Bool.or_true, Bool.true_or])).trans (next_setCore ((if_neg (hnot hon)).trans (if_pos hr))),
      hrd, hovf, hpar, hjob, hls, stepOver_resumeFetch_frame e (taken s g .scalar k 1 1)⟩
  · have hnr : ¬gRdone c.guard = true := by rw [hr]; exact Bool.false_ne_true
    obtain ⟨hp7, hjob, hls, hpar⟩ := resolved_fields ovf ls (committing s g k)
    refine ⟨_, (exec_stepCommit h (by rw [hw, hp, hg]; simp)).trans (next_setCore (c' := resolved ovf ls (committing s g k))
      ((if_neg (hnot hon)).trans ((if_neg hnr).trans (by rw [hg]; rfl)))), hp7, hjob, hls, hpar, rfl, rfl, ?_⟩
    rw [← hp, ← hg]
    exact resolved_resumeFetch_frame e (taken s g .scalar k 1 1) ovf ls
  · have hwait : waitsDone (envOf s g) k c = false := by
      rw [hw, hon, hr]
      obtain hno | hno := hno <;> simp [hno]
    rw [show exec (.stepCommit g) s = execStepCommit g s from rfl, execStepCommit, onCore_of_lt s _ h.1.1, ready_none_of_waits h hwait]

end Sys2Proof.Machine

open Sys2Proof Sys2Proof.Machine

/-- Settles O4: an ordering instruction by whether what it waits for is there, the end of a step by what is still open for each
instruction in progress, STEP.COMMIT by its phases. That completion is put off at the end of the step (log 90), and that a contribution with a
halt pending is given and withdrawn at once (log 133), are the model's readings. -/
theorem orderingAndStepCommit : Obligations.OrderingAndStepCommit :=
  ⟨ordering_instructions_complete, releases_wait_for_their_rows, step_commit_runs_through_its_phases⟩
end

section
/-! O23: barrier arrivals at a collector and at the barrier unit, and a barrier's release (09 R231 to R234, R238; 11 R271). -/

namespace Sys2Proof.Machine

open Sys2Proof.Claims

-- What completing, posting and recording touch -------------------------------------------------------------------

section
variable (s : State) (k : Nat) (e : Event) (res : List Nat)

/-- A completion touches the host attachment alone. -/
theorem complete_frame (q epoch : Nat) (cid : BitVec 16) (status part state : Nat) :
    ∃ h, complete q epoch cid status part state res s = { s with host := h } := by
  rw [complete_eq]
  split
  · obtain ⟨x, hx⟩ := raiseVec_eq (setQp s q _) (vecOf q (getQp s q))
    exact ⟨_, hx⟩
  · exact ⟨_, rfl⟩

theorem postTo_frame (q : Nat) : ∃ h, postTo q e s = { s with host := h } := by
  unfold postTo
  dsimp only
  split
  · exact ⟨_, rfl⟩
  · split
    · obtain ⟨x, hx⟩ := raiseVec_eq (setQp s q _) (vecOf q (getQp s q))
      exact ⟨_, hx⟩
    · split <;> exact ⟨_, rfl⟩

/-- Posting an event touches the host attachment alone. -/
theorem postJob_frame : ∃ h, postJob k e s = { s with host := h } :=
  List.foldlRecOn (motive := fun t : State => ∃ h, t = { s with host := h }) _ _ ⟨_, rfl⟩ fun t ⟨h, ht⟩ q _ => by
    obtain ⟨h', h't⟩ := postTo_frame t e q
    exact ⟨h', by rw [h't, ht]⟩

/-- Completing a long command forgets it, and touches besides the host attachment alone. -/
theorem completeLong_of_long {l : Long} (status : Nat) (hl : (getPart s k).long = some l) :
    ∃ h, completeLong k status res s = { modPart s k (fun p => { p with long := none }) with host := h } := by
  unfold completeLong
  simp only [hl]
  exact complete_frame _ _ _ _ _ _ _ _

theorem completeLong_frame (status : Nat) : ∃ h p, completeLong k status res s = { s with host := h, parts := p } := by
  cases hl : (getPart s k).long with
  | none => exact ⟨_, _, by rw [completeLong, hl]⟩
  | some l =>
    obtain ⟨h, ht⟩ := completeLong_of_long s k res status hl
    exact ⟨h, _, ht⟩

/-- The end of a job touches the halt requests, the partitions, the host attachment and the pace alone. -/
theorem endOrWait_frame (code : Nat) :
    ∃ hs p h td, endOrWait k code s = { s with haltSent := hs, parts := p, host := h, tide := td } := by
  unfold endOrWait
  split
  · exact ⟨_, _, _, _, rfl⟩
  · unfold endFaulted
    obtain ⟨h, p, ht⟩ := completeLong_frame (modPart (sendHalts (activeCores s k) s) k _) k [] code
    obtain ⟨h', ht'⟩ := postJob_frame (completeLong k code [] (modPart (sendHalts (activeCores s k) s) k _)) k _
    exact ⟨_, p, h', _, by rw [newJobRate, ht', ht]; rfl⟩

/-- The record of a failure leaves the pans. -/
theorem recordDet_pans (det : List Nat) (stop : Bool) (peers : List Nat) (code src loc sub : Nat) :
    (recordDet det stop peers k code src loc sub s).pans = s.pans := by
  have hends : ∀ t : State, t.pans = s.pans → (endOrWait k code (sendCtrl 4 k peers [code] t)).pans = s.pans := fun t ht => by
    obtain ⟨_, _, _, _, hx⟩ := endOrWait_frame (sendCtrl 4 k peers [code] t) k code
    rw [hx]
    exact ht
  have hfirst : (if (getPart s k).ends.isSome then modPart s k moreFaults
      else
        let s1 := modPart s k (fun p => { p with fault := some ⟨code, src, loc, sub, BitVec.ofNat 48 (north s), 0, det⟩ })
        let s2 := if stop then stopChans k (mapCtxs k (fun c => { c with st := .fault }) s1) else s1
        endOrWait k code (sendCtrl 4 k peers [code] s2)).pans = s.pans := by
    split
    · rfl
    · exact hends _ (by split <;> rfl)
  unfold recordDet
  dsimp only at hfirst ⊢
  split
  case h_1 => rfl
  case h_2 => split <;> rfl
  case h_6 => rfl
  all_goals exact hfirst

theorem getPan_syncFault (det : List Nat) (code src loc j : Nat) : getPan (syncFault det k code src loc s) j = getPan s j := by
  rw [getPan, syncFault, recordDet_pans, getPan]

end

-- Arrivals at a collector ----------------------------------------------------------------------------------------

section
variable {s : State} {p : Fin 96} {m : Msg} {rest : List Msg} {n : Byte} {f : Fin 64} {cores : List Nat} {odd : Option (Fin 64)}

/-- The module with the arrival taken from the collector's inbox, and with the fault recorded where a core that arrives is no participant. -/
def arrivalTaken (s : State) (p : Nat) (m : Msg) (rest : List Msg) (n : Byte) (cores : List Nat) (b : BarObj) : State :=
  let s1 := modColl s p (fun c => { c with inbox := rest })
  if (cores.filter (fun g => b.members.contains g)).length < cores.length then
    syncFault [m.part, n.toNat] m.part stBounds 5 n.toNat s1 else s1

/-- The participants among the cores that arrive join the pan's count, and with every participant of the pan there its message goes
north (11 R271). -/
def arrivalJoined (t : State) (p : Nat) (m : Msg) (n : Byte) (f : Fin 64) (ok : List Nat) (b : BarObj) (a : BarAcc) : State :=
  let a' := { a with flag := f, cores := a.cores ++ ok, count := a.count + ok.length, members := barMembers b p }
  let put := fun (x : BarAcc) => modColl t p (fun c => { c with bars := x :: c.bars.filter (fun y => decide (y.bnum ≠ n)) })
  if a'.count = a'.members.length ∧ a'.count ≠ 0 then
    sendNorth (put { a' with count := 0, cores := [] }) p { m with src := collectorOf p, body := .barArr n f a'.cores none }
  else put a'

/-- The arrivals that the collector has counted are those it had counted before. -/
theorem accOf_arrivalTaken (hf : freshPan s p m = true) (b : BarObj) :
    accOf (getPan (arrivalTaken s p m rest n cores b) p).coll n = accOf (getPan s p).coll n := by
  unfold arrivalTaken
  dsimp only
  split
  · rw [getPan_syncFault, getPan_modColl hf]; rfl
  · rw [getPan_modColl hf]; rfl

/-- An arrival at a barrier that is not declared. -/
theorem exec_barArr_of_undeclared (hin : (getPan s p).coll.inbox = m :: rest) (hb : m.body = .barArr n f cores odd)
    (hf : freshPan s p m = true) (hbar : barOf s m.part n.toNat = none) :
    exec (.barArr p) s = .next (syncFault [m.part, n.toNat] m.part stBounds 5 n.toNat (modColl s p (fun c => { c with inbox := rest }))) := by
  show execBarArr p s = _
  unfold execBarArr
  rw [takeInbox_head hin (by rw [hb])]
  simp only [freshPan_modColl hf, hb, Bool.not_true, Bool.false_eq_true, if_false,
    show barOf (modColl s p (fun c => { c with inbox := rest })) m.part n.toNat = none from hbar]

/-- An arrival with another flag than the recorded one. -/
theorem exec_barArr_of_other_flag {i : Nat} {b : BarObj} {a : BarAcc} (hin : (getPan s p).coll.inbox = m :: rest)
    (hb : m.body = .barArr n f cores odd) (hf : freshPan s p m = true) (hbar : barOf s m.part n.toNat = some (i, b))
    (ha : (accOf (getPan s p).coll n).getD ⟨n, 0, f, [], []⟩ = a) (hflag : a.count ≠ 0 ∧ a.flag ≠ f) :
    exec (.barArr p) s = .next (syncFault [n.toNat, a.flag, f] m.part stFormat 5 n.toNat (arrivalTaken s p m rest n cores b)) := by
  show execBarArr p s = _
  unfold execBarArr
  rw [takeInbox_head hin (by rw [hb])]
  simp only [freshPan_modColl hf, hb, Bool.not_true, Bool.false_eq_true, if_false,
    show barOf (modColl s p (fun c => { c with inbox := rest })) m.part n.toNat = some (i, b) from hbar, ← arrivalTaken.eq_def,
    accOf_arrivalTaken hf, ha, if_pos hflag]

/-- An arrival whose flag agrees, or is the first, joins. -/
theorem exec_barArr_of_flag {i : Nat} {b : BarObj} {a : BarAcc} (hin : (getPan s p).coll.inbox = m :: rest)
    (hb : m.body = .barArr n f cores none) (hf : freshPan s p m = true) (hbar : barOf s m.part n.toNat = some (i, b))
    (ha : (accOf (getPan s p).coll n).getD ⟨n, 0, f, [], []⟩ = a) (hflag : ¬(a.count ≠ 0 ∧ a.flag ≠ f)) :
    exec (.barArr p) s = .next (arrivalJoined (arrivalTaken s p m rest n cores b) p m n f
      (cores.filter (fun g => b.members.contains g)) b a) := by
  show execBarArr p s = _
  unfold execBarArr
  rw [takeInbox_head hin (by rw [hb])]
  simp only [freshPan_modColl hf, hb, Bool.not_true, Bool.false_eq_true, if_false,
    show barOf (modColl s p (fun c => { c with inbox := rest })) m.part n.toNat = some (i, b) from hbar, ← arrivalTaken.eq_def,
    accOf_arrivalTaken hf, ha, if_neg hflag, Option.map_none]
  rfl

/-- An arrival by participants alone records no fault. -/
theorem arrivalTaken_of_members {b : BarObj} (h : ∀ g ∈ cores, b.members.contains g = true) :
    arrivalTaken s p m rest n cores b = modColl s p (fun c => { c with inbox := rest }) := by
  rw [arrivalTaken, List.filter_eq_self.mpr h]
  exact if_neg (Nat.lt_irrefl _)

/-- The arrival of one core that is no participant. -/
theorem arrivalTaken_of_stranger {b : BarObj} {g : Nat} (h : b.members.contains g = false) :
    arrivalTaken s p m rest n [g] b =
      syncFault [m.part, n.toNat] m.part stBounds 5 n.toNat (modColl s p (fun c => { c with inbox := rest })) := by
  have hno : [g].filter (fun x => b.members.contains x) = [] := by rw [List.filter_cons, h]; rfl
  rw [arrivalTaken, hno]
  exact if_pos Nat.zero_lt_one

end

theorem collectors_gather_barrier_arrivals : Claims.CollectorsGatherBarrierArrivals := by
  intro s p m rest n f cores odd s1 hin hb hf
  refine ⟨fun hbar => exec_barArr_of_undeclared hin hb hf hbar, fun i b a hbar ha => ⟨fun hall hc hfl => ?_, fun g x hg hodd hno hc hfl hne hx => ?_,
    fun hall hodd hfl hpos => ?_⟩⟩
  · rw [exec_barArr_of_other_flag hin hb hf hbar ha ⟨hc, hfl⟩, arrivalTaken_of_members hall]
  · subst hg hodd
    rw [exec_barArr_of_flag hin hb hf hbar ha (fun h => h.2 hfl), arrivalTaken_of_stranger hno, ← hx, arrivalJoined]
    simp only [List.filter_cons, hno, Bool.false_eq_true, if_false, List.filter_nil, List.append_nil, List.length_nil, Nat.add_zero, ← hfl,
      hne, false_and]
    rfl
  · subst hodd
    have hrun := exec_barArr_of_flag hin hb hf hbar ha (fun h => hfl.elim h.1 h.2)
    rw [arrivalTaken_of_members hall, List.filter_eq_self.mpr hall] at hrun
    exact ⟨fun hne => hrun.trans (congrArg _ (if_neg fun h => hne h.1)), fun heq => hrun.trans (congrArg _ (if_pos ⟨heq, hpos⟩))⟩

-- Arrivals at the barrier unit -----------------------------------------------------------------------------------

section
variable {s : State} {t : Nat} {m : Msg} {rest : List (Nat × Msg)} {n : Byte} {f : Fin 64} {cores : List Nat} {odd : Option (Fin 64)}
variable {i : Nat} {b : BarObj}

/-- BAR_PAN_RECEIVE takes an arrival at a declared barrier: a flag against the recorded one ends the job, any other records the arrival,
and with every participant there the generation is released or reported. -/
theorem exec_barPanReceive_of_arrival (hin : s.ctlIn = (t, m) :: rest) (hb : m.body = .barArr n f cores odd) (hf : freshMsg s m = true)
    (hbar : barOf s m.part n.toNat = some (i, b)) :
    exec .barPanReceive s = .next (
      let s1 := { s with ctlIn := rest }
      let b1 := { b with flag := f, fset := true, arrived := b.arrived + cores.length, record := b.record ++ cores }
      if b.fset ∧ b.flag ≠ f then syncFault [n.toNat, b.flag, f] m.part stFormat 5 n.toNat s1
      else if b1.arrived ≠ b1.lcm1 + 1 then setBar s1 i (some b1)
      else if b1.modm1 = 0 then releaseBar i b1 s1
      else if b1.home then homeDone i { b1 with marr := b1.marr + 1 } s1
      else sendCtrl 2 m.part [b1.homemod] [b1.bnum, b1.gen] (setBar s1 i (some b1))) := by
  show execBarPanReceive s = _
  unfold execBarPanReceive
  rw [takeNorth_head hin (by rw [hb])]
  simp only [show freshMsg { s with ctlIn := rest } m = true from hf, hb, Bool.not_true, Bool.false_eq_true, if_false,
    show barOf { s with ctlIn := rest } m.part n.toNat = some (i, b) from hbar]

end

theorem barrier_units_record_arrivals : Claims.BarrierUnitsRecordArrivals := by
  intro s t m rest n f cores odd i b s1 b1 hin hb hf hbar
  have hrun := exec_barPanReceive_of_arrival hin hb hf hbar
  refine ⟨fun hset hfl => hrun.trans (congrArg _ (if_pos ⟨hset, hfl⟩)), fun hfl => ?_⟩
  have hagree : ¬(b.fset = true ∧ b.flag ≠ f) := fun h => hfl.elim (fun h' => by simp [h'] at h) h.2
  replace hrun := hrun.trans (congrArg _ (if_neg hagree))
  refine ⟨fun hne => hrun.trans (congrArg _ (if_pos hne)), fun heq hone => ?_, fun heq hmore hhome => ?_, fun heq hmore hhome => ?_⟩
  all_goals replace hrun := hrun.trans (congrArg _ (if_neg (not_not.mpr heq)))
  · exact hrun.trans (congrArg _ (if_pos hone))
  · exact hrun.trans (congrArg _ ((if_neg hmore).trans (if_neg (by rw [hhome]; exact Bool.false_ne_true))))
  · exact hrun.trans (congrArg _ ((if_neg hmore).trans (if_pos hhome)))

-- The release ----------------------------------------------------------------------------------------------------

theorem barrier_release_opens_the_next_generation : Claims.BarrierReleaseOpensTheNextGeneration := by
  intro s i b hend
  unfold releaseBar
  dsimp only
  split
  · next im him =>
    rw [getPart_broadcast] at him
    exact if_neg (hend im him)
  · rfl

end Sys2Proof.Machine

open Sys2Proof Sys2Proof.Machine

/-- Settles O23: an arrival at a collector by its barrier, its cores and its flag, one at the barrier unit by its flag and by who is still to
come, and a release where the barrier is not the job's end barrier. -/
theorem barriersGatherAndRelease : Obligations.BarriersGatherAndRelease :=
  ⟨collectors_gather_barrier_arrivals, barrier_units_record_arrivals, barrier_release_opens_the_next_generation⟩
end

section
/-! O41: the channels' egress and ingress units, the arrival of their packets, and acknowledgements (09 R229, R230; 13 R312 to R332). -/

namespace Sys2Proof.Machine

open Sys2Proof.Claims

-- Channels and endpoints that are written ------------------------------------------------------------------------

/-- A channel that is written reads back, in whatever order the table lists its keys. -/
theorem getChan_setChan (s : State) (i : Nat) (c : Chan) : getChan (setChan s i (some c)) i = some c :=
  tget_tset_of_ne none s.fab.chans i (some c) (Option.some_ne_none c)

/-- An endpoint with a packet to send reads back as written. -/
theorem getEp_setEp_of_outq (s : State) (e : Nat) {x : Endpoint} (h : x.outq ≠ []) : getEp (setEp s e x) e = x :=
  tget_tset_of_ne Endpoint.zero s.fab.eps e x (by rintro rfl; exact h rfl)

/-- A packet that leaves an endpoint leaves the channels. -/
theorem getChan_sendPkt (ep : Nat) (p : Packet) (s : State) (i : Nat) : getChan (sendPkt ep p s) i = getChan s i := by
  unfold sendPkt
  split <;> rfl

/-- A packet to another module waits behind those of its endpoint. -/
theorem getEp_sendPkt {ep : Nat} {p : Packet} {s : State} (h : p.dst / 256 ≠ s.modnum) :
    (getEp (sendPkt ep p s) ep).outq = (getEp s ep).outq ++ [p] := by
  rw [sendPkt, if_neg h, getEp_setEp_of_outq _ _ (List.append_ne_nil_of_right_ne_nil _ (List.cons_ne_nil _ _))]

-- The egress unit ------------------------------------------------------------------------------------------------

section
variable {s : State} {i : Fin 4096} {c : Chan}

/-- Whether the last entry taken ends a token. -/
def tokenWhole (c : Chan) : Bool := match c.tok.getLast? with | some e => sbLast e.sb | none => false

theorem tokenWhole_eq_false (h : ∀ e, c.tok.getLast? = some e → sbLast e.sb = false) : tokenWhole c = false := by
  cases hl : c.tok.getLast? with
  | none => rw [tokenWhole, hl]
  | some e => rw [tokenWhole, hl]; exact h e hl

theorem tokenWhole_of_last {q : QEntry} (hq : c.tok.getLast? = some q) (hlast : sbLast q.sb = true) : tokenWhole c = true := by
  rw [tokenWhole, hq]
  exact hlast

/-- The token's packet before its payload is sealed (13 R312, R324). -/
def tokenHeader (s : State) (c : Chan) : Packet :=
  let sb := match c.tok with | e :: _ => e.sb | [] => 0
  { ver := 1, typ := 1, vc := 3, epoch := s.fab.inj, alt := decide (c.alt = some s.fab.inj), resent := false, enc := true, resv := false,
    len := c.tok.length, dst := c.peer, src := s.modnum * 256 + c.ep, chn := c.chn, tag := sbTag sb, tep := sbEp sb, seq := c.next % 2 ^ 32,
    arg0 := 0, arg1 := 0, age := 0, body := [] }

/-- The token's packet (13 R331). -/
def tokenPacket (s : State) (c : Chan) : Packet :=
  { tokenHeader s c with
    body := gcmSeal ((getPart s c.part).jk.getD 0) (ivOf (tokenHeader s c) c.next) (aadOf (tokenHeader s c)) (bytesOfRows (c.tok.map QEntry.data)) }

/-- The sender once it has sent its token: a credit is spent, and a copy is kept (13 R326; 09 R229). -/
def sentChan (s : State) (c : Chan) : Chan :=
  { c with cr := c.cr - 1, tok := [], next := c.next + 1, tx := c.tx ++ [⟨c.next, tokenPacket s c, false, s.time, 0⟩] }

/-- What a sending channel does: while its token is not whole it takes the next entry, one in a step of the rim; a whole one it refuses, keeps
waiting or sends. -/
theorem exec_egressTokenSend (hc : getChan s i = some c) (hstop : c.stop = false) (hfree : s.tide.frozen = false) (hsend : c.recv = false)
    (hen : s.fab.en = true) :
    exec (.egressTokenSend i) s = .next (
      if tokenWhole c = false then
        if (getEp s c.ep).outAt = some (edgeSteps s c.edge) then s
        else ((getEdge s c.edge).inp.find? (fun f => decide (f.rt = c.tag))).elim s (fun f =>
          setChan (crossIn (setEdge (setEp s c.ep { getEp s c.ep with outAt := some (edgeSteps s c.edge) }) c.edge
            { getEdge s c.edge with inp := (getEdge s c.edge).inp.erase f }) (c.edge / 4) (Fin.ofNat 4 (c.edge % 4))
            (getNode s (96 + c.edge % 4)).steps .credit) i (some { c with tok := c.tok ++ [f.ent] }))
      else if 258 < c.tok.length then recordFault c.part stBounds 4 (niLoc c.ep i) 0 false (bump 1 (setChan s i (some { c with tok := [] })))
      else if c.cr.toInt < 1 then s
      else modMeter (sendPkt c.ep (tokenPacket s c) (setChan s i (some (sentChan s c)))) c.part
        (fun m => { m with units := m.units + unitsOf (tokenPacket s c) })) := by
  show execEgressTokenSend i s = _
  unfold execEgressTokenSend
  have hgo : (c.recv || c.stop || s.tide.frozen || !s.fab.en) = false := by rw [hsend, hstop, hfree, hen]; rfl
  simp only [hc]
  refine congrArg _ ((if_neg (by rw [hgo]; exact Bool.false_ne_true)).trans ?_)
  cases hw : tokenWhole c
  · refine (if_pos ?_).trans (Eq.trans ?_ (if_pos rfl).symm)
    · show (!tokenWhole c) = true
      rw [hw]
      rfl
    cases (getEdge s c.edge).inp.find? (fun f => decide (f.rt = c.tag)) <;> rfl
  · refine (if_neg ?_).trans (if_neg (Bool.noConfusion)).symm
    show ¬(!tokenWhole c) = true
    rw [hw]
    decide

/-- What a whole token in hand and a credit send: the packet of the next sequence, by the first entry's tag and endpoint. -/
theorem tokenPacket_fields {q0 : QEntry} {rest : List QEntry} (h : c.tok = q0 :: rest) :
    let p := tokenPacket s c
    p.tag = sbTag q0.sb ∧ p.tep = sbEp q0.sb := by
  constructor
  · simp only [tokenPacket, tokenHeader, h]
  · simp only [tokenPacket, tokenHeader, h]

end

-- The ingress unit -----------------------------------------------------------------------------------------------

section
variable {s : State} {i : Nat} {c : Chan}

/-- The receiver of a channel injects at most one entry in a step of the rim. -/
theorem ingress_of_injected (hc : getChan s i = some c) (hin : (getEp s c.ep).inAt = some (edgeSteps s c.edge)) : ingress i s = s := by
  unfold ingress
  simp only [hc]
  exact if_pos (by rw [decide_eq_true hin, Bool.or_true])

/-- The next entry of the buffer in sequence is injected; with the last one the buffer is released and its credit returned. -/
theorem ingress_of_buffer {r : RxBuf} (hc : getChan s i = some c) (hstop : c.stop = false) (hfree : s.tide.frozen = false)
    (hrecv : c.recv = true) (hin : (getEp s c.ep).inAt ≠ some (edgeSteps s c.edge))
    (hr : c.rx.find? (fun r => decide (r.eseq = c.out)) = some r) :
    ingress i s =
      let s1 := setEdge (setEp s c.ep { getEp s c.ep with inAt := some (edgeSteps s c.edge) }) c.edge
        { getEdge s c.edge with send := (getEdge s c.edge).send ++ [⟨c.tag, ⟨r.ents.getD r.sent 0, tokSb r.tag r.tep r.sent r.ents.length⟩⟩] }
      if r.sent + 1 < r.ents.length then
        setChan s1 i (some { c with rx := c.rx.map (fun q => if q.eseq = r.eseq then { q with sent := q.sent + 1 } else q) })
      else if (c.bufm1 : Int) + 1 < c.cr.toInt + 1 then creditFault true i c s1
      else sendXport c.ep c.peer c.chn c.next 1 (setChan s1 i (some { c with
        cr := c.cr + 1, out := c.out + 1, rx := c.rx.filter (fun q => decide (q.eseq ≠ r.eseq)) })) := by
  have hgo : (!c.recv || c.stop || s.tide.frozen || decide ((getEp s c.ep).inAt = some (edgeSteps s c.edge))) = false := by
    rw [hrecv, hstop, hfree, decide_eq_false hin]; rfl
  unfold ingress
  simp only [hc]
  refine (if_neg (by rw [hgo]; exact Bool.false_ne_true)).trans ?_
  simp only [hr]

end

theorem channels_carry_tokens : Claims.ChannelsCarryTokens := by
  intro s i c hc hstop hfree ed ep now
  refine ⟨fun hsend hen => ?_, fun hrecv => ⟨fun hin => ?_, fun r hin hr => ?_⟩⟩
  · have hrun := exec_egressTokenSend hc hstop hfree hsend hen
    refine ⟨fun hopen hout => ?_, fun f hopen hout hf => ?_, fun q0 rest q htok hq hlast => ?_⟩
    · exact hrun.trans (congrArg _ ((if_pos (tokenWhole_eq_false hopen)).trans (if_pos hout)))
    · exact hrun.trans (congrArg _ ((if_pos (tokenWhole_eq_false hopen)).trans ((if_neg hout).trans (by rw [hf]; rfl))))
    · have hwhole : ¬tokenWhole c = false := by rw [tokenWhole_of_last hq hlast]; decide
      replace hrun := hrun.trans (congrArg _ (if_neg hwhole))
      refine ⟨fun hlong => ?_, fun hfits hcr => ?_, fun hfits hcr => ?_⟩
      · exact hrun.trans (congrArg _ (if_pos hlong))
      · exact hrun.trans (congrArg _ ((if_neg (Nat.not_lt.mpr hfits)).trans (if_pos hcr)))
      · obtain ⟨htag, htep⟩ := tokenPacket_fields (s := s) htok
        refine ⟨_, tokenPacket s c, hrun.trans (congrArg _ ((if_neg (Nat.not_lt.mpr hfits)).trans (if_neg (Int.not_lt.mpr hcr)))), ?_,
          rfl, rfl, rfl, rfl, rfl, rfl, rfl, htag, htep, rfl, rfl, fun hout => ?_⟩
        · exact (getChan_sendPkt _ _ _ _).trans (getChan_setChan _ _ _)
        · exact getEp_sendPkt (s := setChan s i (some (sentChan s c))) hout
  · exact congrArg Host.Outcome.next (ingress_of_injected hc hin)
  · have hrun := congrArg (Host.Outcome.next (φ := Fault) (ρ := Refusal)) (ingress_of_buffer hc hstop hfree hrecv hin hr)
    intro s1
    refine ⟨fun hmore => ?_, fun hlast hover => ?_, fun hlast hfits => ?_⟩
    · exact hrun.trans (congrArg _ (if_pos hmore))
    · exact hrun.trans (congrArg _ ((if_neg (Nat.not_lt.mpr hlast)).trans (if_pos hover)))
    · exact hrun.trans (congrArg _ ((if_neg (Nat.not_lt.mpr hlast)).trans (if_neg (Int.not_lt.mpr hfits))))

-- Arriving packets -----------------------------------------------------------------------------------------------

/-- A channel that is found is the endpoint's and has not stopped. -/
theorem facts_of_chanOf {s : State} {recv : Bool} {ep peer chn i : Nat} {c : Chan} (h : chanOf s recv ep peer chn = some (i, c)) :
    c.ep = ep ∧ c.stop = false := by
  obtain ⟨ic, -, hic⟩ := List.exists_of_findSome?_eq_some h
  split at hic
  · split at hic
    · next hcond =>
      cases hic
      simp only [Bool.and_eq_true, Bool.not_eq_true', decide_eq_true_eq] at hcond
      obtain ⟨⟨⟨⟨-, hep⟩, -⟩, -⟩, hstop⟩ := hcond
      exact ⟨hep, hstop⟩
    · cases hic
  · cases hic

section
variable {s : State} {i n : Nat} {p : Packet} {bs : List Byte} {c : Chan}

/-- The receiver of a channel once it has buffered a token: a buffer's credit is spent, and the next sequence expected moves on
(13 R325, R326). -/
def bufferedChan (c : Chan) (n : Nat) (p : Packet) (bs : List Byte) : Chan :=
  let rx := c.rx ++ [⟨n, p.tag, p.tep, rowsOf 258 bs, 0⟩]
  { c with cr := c.cr - 1, rx := rx, next := nextSeq (rx.length + 1) (rx.map RxBuf.eseq) c.next }

/-- An accepted arrival breaks the count, or is buffered and acknowledged. -/
theorem accept_of_chan (hc : getChan s i = some c) (hstop : c.stop = false) :
    accept i n p bs s =
      if c.cr.toInt < 1 then creditFault false i c s
      else modMeter (sendXport c.ep c.peer c.chn (bufferedChan c n p bs).next 0 (setChan s i (some (bufferedChan c n p bs))))
        c.part (fun m => { m with units := m.units + unitsOf p }) := by
  unfold accept
  simp only [hc]
  refine (if_neg (by rw [hstop]; exact Bool.false_ne_true)).trans ?_
  by_cases hcr : c.cr.toInt < 1
  · exact (if_pos (by omega)).trans (if_pos hcr).symm
  · exact (if_neg (by omega)).trans (if_neg hcr).symm

/-- A buffer that is ready to be released is, where an arrival finds no credit (log 106). -/
theorem accept_releaseFirst (hc : getChan s i = some c) (hstop : c.stop = false) :
    accept i n p bs (releaseFirst i s) =
      if c.cr.toInt < 1 then (if releaseDue c then accept i n p bs (ingress i s) else creditFault false i c s)
      else modMeter (sendXport c.ep c.peer c.chn (bufferedChan c n p bs).next 0 (setChan s i (some (bufferedChan c n p bs))))
        c.part (fun m => { m with units := m.units + unitsOf p }) := by
  unfold releaseFirst
  simp only [hc]
  by_cases hcr : c.cr.toInt < 1
  · rw [if_pos hcr]
    by_cases hdue : releaseDue c
    · rw [if_pos ⟨hcr, hdue⟩, if_pos hdue]
    · rw [if_neg (fun h => hdue h.2), if_neg hdue, accept_of_chan hc hstop, if_pos hcr]
  · rw [if_neg (fun h => hcr h.1), if_neg hcr, accept_of_chan hc hstop, if_neg hcr]

end

section
variable {s s1 : State} {ep : Byte} {p : Packet} {i : Nat} {c : Chan}

/-- A DATA packet of sequence n at the channel that takes it: one seen before is acknowledged again, one without a tag ends the job, and any
other is opened (13 R325, R331). -/
def arriveAt (e n : Nat) (p : Packet) (i : Nat) (c : Chan) (t : State) : State :=
  if (decide (n < c.next) || c.rx.any (fun r => decide (r.eseq = n))) = true then sendXport e c.peer c.chn c.next 0 (bump 7 t)
  else if (!p.enc) = true then authFail c.part e i t
  else (gcmOpen ((getPart t c.part).jk.getD 0) (ivOf p n) (aadOf p) p.body).elim (authFail c.part e i t)
    (fun bs => accept i n p bs (releaseFirst i t))

/-- DATA_PACKET_ARRIVAL of a packet past its lifetime. -/
theorem exec_dataPacketArrival_of_age (h : takeInq ep.toNat (fun p => decide (p.typ = 1) || decide (p.typ = 4)) s = some (p, s1))
    (hage : 1000 < p.age) : exec (.dataPacketArrival ep) s = .next (bump 3 s1) := by
  show execDataPacketArrival ep s = _
  unfold execDataPacketArrival
  simp only [h]
  rw [if_pos hage]

/-- DATA_PACKET_ARRIVAL of a packet of no channel. -/
theorem exec_dataPacketArrival_of_no_chan (h : takeInq ep.toNat (fun p => decide (p.typ = 1) || decide (p.typ = 4)) s = some (p, s1))
    (hage : p.age ≤ 1000) (htyp : p.typ = 1) (hch : chanOf s1 true ep.toNat p.src p.chn = none) :
    exec (.dataPacketArrival ep) s = .next (bump 6 s1) := by
  show execDataPacketArrival ep s = _
  unfold execDataPacketArrival
  simp only [h]
  rw [if_neg (Nat.not_lt.mpr hage), if_neg (by rw [htyp]; decide)]
  simp only [hch]

/-- DATA_PACKET_ARRIVAL of a packet of a channel. Its sequence stands for itself: the kernel is not to compute with 2^32. -/
theorem exec_dataPacketArrival_of_chan {n : Nat} (h : takeInq ep.toNat (fun p => decide (p.typ = 1) || decide (p.typ = 4)) s = some (p, s1))
    (hage : p.age ≤ 1000) (htyp : p.typ = 1) (hch : chanOf s1 true ep.toNat p.src p.chn = some (i, c)) (hn : nearest c.next p.seq = n) :
    exec (.dataPacketArrival ep) s = .next (arriveAt ep.toNat n p i c s1) := by
  show execDataPacketArrival ep s = _
  unfold execDataPacketArrival
  simp only [h]
  rw [if_neg (Nat.not_lt.mpr hage), if_neg (by rw [htyp]; decide)]
  simp only [hch, hn, arriveAt]
  cases gcmOpen ((getPart s1 c.part).jk.getD 0) (ivOf p n) (aadOf p) p.body <;> rfl

end

theorem data_packets_take_a_buffer : Claims.DataPacketsTakeABuffer := by
  intro s s1 ep p i c e n seen h
  refine ⟨exec_dataPacketArrival_of_age h, exec_dataPacketArrival_of_no_chan h, fun hage htyp hch hc => ?_⟩
  have hrun : exec (.dataPacketArrival ep) s = .next (arriveAt e n p i c s1) := exec_dataPacketArrival_of_chan h hage htyp hch rfl
  clear_value n
  have hnew : seen = false → ¬seen = true := fun hs => by rw [hs]; exact Bool.false_ne_true
  refine ⟨fun hs => hrun.trans (congrArg _ (if_pos hs)), fun hs henc => ?_, fun hs henc => ?_⟩
  · exact hrun.trans (congrArg _ ((if_neg (hnew hs)).trans (if_pos (by rw [henc]; rfl))))
  · refine hrun.trans (congrArg _ ((if_neg (hnew hs)).trans ((if_neg (by rw [henc]; decide)).trans ?_)))
    cases gcmOpen ((getPart s1 c.part).jk.getD 0) (ivOf p n) (aadOf p) p.body with
    | none => rfl
    | some bs =>
      obtain ⟨hep, hstop⟩ := facts_of_chanOf hch
      have hrest := accept_releaseFirst (n := n) (p := p) (bs := bs) hc hstop
      rw [hep] at hrest
      exact hrest

-- Acknowledgements -----------------------------------------------------------------------------------------------

theorem acknowledgements_return_credits : Claims.AcknowledgementsReturnCredits := by
  intro s s1 ep p h hage
  have hrun : exec (.xport ep) s = execXport ep s := rfl
  refine ⟨fun hep hchn => ?_, fun hno i c hch => ?_⟩
  · rw [hrun, execXport]
    simp only [h]
    rw [if_neg (Nat.not_lt.mpr hage), if_pos ⟨by rw [hep]; rfl, hchn⟩]
  · intro n c1
    have hno' : ¬(ep.toNat = 0 ∧ p.chn = 0xFFFF) := fun hx => hno ⟨BitVec.eq_of_toNat_eq hx.1, hx.2⟩
    have hc1 : (if (p.arg1 / 65536) % 2 = 1 then { c with tx := c.tx.filter (fun t => decide (nearest c.next p.arg0 ≤ t.eseq)) } else c) = c1 := by
      simp only [c1]
      split <;> rfl
    have htaken : exec (.xport ep) s = .next (if (c.bufm1 : Int) + 1 < c.cr.toInt + n then creditFault true i c1 s1
        else setChan s1 i (some { c1 with cr := c1.cr + BitVec.ofNat 32 n })) := by
      rw [hrun, execXport]
      simp only [h]
      rw [if_neg (Nat.not_lt.mpr hage), if_neg hno']
      simp only [hch]
      rw [hc1]
    exact ⟨fun hle => htaken.trans (congrArg _ (if_neg (Int.not_lt.mpr hle))), fun hlt => htaken.trans (congrArg _ (if_pos hlt))⟩

end Sys2Proof.Machine

open Sys2Proof Sys2Proof.Machine

/-- Settles O41: the egress unit by what of its token it holds, the ingress unit by the entry it injects, an arrival by its sequence, its tag
and the credit, an acknowledgement by the count it would leave. That a buffer ready to be released is, before an arrival that finds no credit,
is the model's reading, log 106. -/
theorem channelsDeliverOnce : Obligations.ChannelsDeliverOnce :=
  ⟨channels_carry_tokens, data_packets_take_a_buffer, acknowledgements_return_credits⟩
end

section
/-! O31: saving a job, its time-outs, restoring it, and moving a record out and in (09 R235, R236; 14 R353; 15 R392 to R394; 16 R417, R418). -/

namespace Sys2Proof.Machine

open Sys2Proof.Claims

-- Partitions that are written ------------------------------------------------------------------------------------

/-- A partition that exists reads back as written, in whatever order the table lists its keys. -/
theorem getPart_setPart_of_st (s : State) (k : Nat) {v : Part} (h : v.st ≠ .none) : getPart (setPart s k v) k = v :=
  tget_tset_of_ne Part.zero s.parts k v (by rintro rfl; exact h rfl)

theorem getPart_modPart_of_st (s : State) (k : Nat) (f : Part → Part) (h : (f (getPart s k)).st ≠ .none) :
    getPart (modPart s k f) k = f (getPart s k) := getPart_setPart_of_st s k h

theorem getPart_modPart_long (s : State) (k : Nat) (l : Long) : (getPart (modPart s k (fun p => { p with long := some l })) k).long = some l :=
  congrArg Part.long (getPart_setPart_of_long s k (v := { getPart s k with long := some l }) rfl)

/-- A partition whose long command completes has forgotten it, and is else as it was. -/
theorem getPart_completeLong {s : State} {k : Nat} {l : Long} (status : Nat) (res : List Nat) (hl : (getPart s k).long = some l)
    (hst : (getPart s k).st ≠ .none) : getPart (completeLong k status res s) k = { getPart s k with long := none } := by
  obtain ⟨h, ht⟩ := completeLong_of_long s k res status hl
  rw [ht]
  exact getPart_setPart_of_st s k hst

theorem completeLong_haltSent (s : State) (k status : Nat) (res : List Nat) : (completeLong k status res s).haltSent = s.haltSent := by
  obtain ⟨_, _, ht⟩ := completeLong_frame s k res status
  rw [ht]

-- What the stages of a save touch --------------------------------------------------------------------------------

/-- Releasing frozen cores touches the cores alone. -/
theorem thaw_frame (p : Nat → Bool) (s : State) : ∃ cs, thaw p s = { s with cores := cs } := by
  unfold thaw
  split <;> exact ⟨_, rfl⟩

/-- Resuming cores touches the cores alone. -/
theorem resumeCores_frame (gs : List Nat) (s : State) : ∃ cs, gs.foldl resumeCore s = { s with cores := cs } :=
  List.foldlRecOn (motive := fun t : State => ∃ cs, t = { s with cores := cs }) gs resumeCore ⟨_, rfl⟩ fun t ⟨cs, ht⟩ g _ => by
    unfold resumeCore
    dsimp only
    split
    · exact ⟨cs, ht⟩
    · exact ⟨_, by rw [ht]; rfl⟩

/-- A save that stops the debugger's commands touches no core and no router. -/
theorem stopDbg_frame (k : Nat) (s : State) :
    ∃ h p lg n, stopDbg k s = { s with host := h, parts := p, log := lg, logSeq := n } := by
  unfold stopDbg
  split
  · exact ⟨_, _, _, _, rfl⟩
  · refine List.foldlRecOn (motive := fun t : State => ∃ h p lg n, t = { s with host := h, parts := p, log := lg, logSeq := n }) _ _
      ⟨_, _, _, _, rfl⟩ fun t ⟨h, p, lg, n, ht⟩ x _ => ?_
    unfold finishDbg
    dsimp only
    obtain ⟨h', hx⟩ := complete_frame (logDebug x.opc stState k _ _ _ _ 0 t) [] x.qp x.epoch x.cid stState k (getPart t k).st.code
    exact ⟨h', p, _, _, by rw [hx, ht]; rfl⟩

/-- Every core that is sent a halt request has one on its way. -/
theorem contains_sendHalts {gs : List Nat} {g : Nat} (s : State) (h : g ∈ gs) : (sendHalts gs s).haltSent.contains g = true := by
  rw [List.contains_iff_mem, sendHalts, List.mem_append, List.mem_filter, Bool.not_eq_true']
  by_cases hs : g ∈ s.haltSent
  · exact .inl hs
  · exact .inr ⟨h, by simpa using hs⟩

-- Saving ---------------------------------------------------------------------------------------------------------

section
variable {s s1 : State} {c : Cmd} {k : Fin 32} {l : Long} {im : Image}

/-- JOB_SAVE of a job that may be saved begins the save. -/
theorem exec_jobSave_of_pass (hgo : goes c s s1) (hform : badForm c false false false [] = false) (hown : (isO s1 c || isT s1 c) = true)
    (hst : [PSt.running, .held].contains (getPart s1 c.part).st = true) (hent : noSaveEntry s1 c.part = none)
    (hlong : (getPart s1 c.part).long = none) :
    exec (.jobSave c) s = .next (modPart (stopDbg c.part s1) c.part (fun p => { p with
      st := .draining, long := some (longOf .save c [0, s1.time] [] s1) })) := by
  obtain ⟨htake, hearly⟩ := hgo
  rw [show exec (.jobSave c) s = execJobSave c s from rfl, execJobSave]
  refine runCmd_of_later htake ?_ ?_
  · simp only [hform, hown, hearly, inSt, hst]
    rfl
  · simp only [hent, longBusy, hlong]
    rfl

/-- The next stage of a save that waits for what is on its way: halt requests to its cores. -/
theorem exec_jobSaveComplete_halts (hl : (getPart s k).long = some l) (hkind : l.kind = .save) (hfree : s.tide.frozen = false)
    (him : (getPart s k).image = some im) (hstage : l.nums.getD 0 0 = 0) (hmsgs : messagesDone s k = true) (hset : settledChans s k = true) :
    exec (.jobSaveComplete k) s = .next (modPart (thaw (inPart s k) (sendHalts (activeCores s k)
      (mapCores s (fun g c => inPart s k g && decide (c.r.st = .hold)) (fun g c => requestHalt (envOf s g) c)))) k
      (fun p => { p with long := some { l with nums := [1], cores := activeCores s k, at_ := north s } })) := by
  rw [show exec (.jobSaveComplete k) s = execJobSaveComplete k s from rfl, execJobSaveComplete]
  simp only [longIs_of hl hkind, him]
  refine congrArg _ ((if_neg (by rw [hfree]; exact Bool.false_ne_true)).trans ((if_pos hstage).trans (if_pos ?_)))
  rw [hmsgs, hset]
  rfl

/-- The stage in which every core has halted: the contexts and the records, or the wait for what the cores sent meanwhile. -/
theorem exec_jobSaveComplete_records (hl : (getPart s k).long = some l) (hkind : l.kind = .save) (hfree : s.tide.frozen = false)
    (him : (getPart s k).image = some im) (hstage : l.nums.getD 0 0 = 1)
    (hhalted : ∀ gc ∈ s.cores, inPart s k gc.1 = true → [CoreSt.run, .hold, .loaded].contains gc.2.r.st = false) :
    exec (.jobSaveComplete k) s = .next (if messagesDone s k && settledChans s k then saveAll k l im s
      else modPart s k (fun p => { p with long := some { l with nums := [3, s.time] } })) := by
  have hnone : s.cores.any (fun gc => inPart s k gc.1 && [CoreSt.run, .hold, .loaded].contains gc.2.r.st) = false :=
    List.any_eq_false.mpr fun gc hgc h => by
      rw [Bool.and_eq_true] at h
      exact Bool.false_ne_true ((hhalted gc hgc h.1).symm.trans h.2)
  rw [show exec (.jobSaveComplete k) s = execJobSaveComplete k s from rfl, execJobSaveComplete]
  simp only [longIs_of hl hkind, him]
  refine congrArg _ ((if_neg (by rw [hfree]; exact Bool.false_ne_true)).trans ((if_neg (by rw [hstage]; decide)).trans
    ((if_neg (by rw [hnone]; exact Bool.false_ne_true)).trans ?_)))
  rw [if_pos hstage]

/-- The last stage: the mesh is released, and the partition is SAVED. -/
theorem exec_jobSaveComplete_saved (hl : (getPart s k).long = some l) (hkind : l.kind = .save) (him : (getPart s k).image = none)
    (hstage : l.nums.getD 0 0 = 2) (hphase : (getPart s k).phase = 2) :
    exec (.jobSaveComplete k) s =
      .next (newJobRate (completeLong k stOK [] (modPart s k (fun p => { p with st := .saved, phase := 0 })))) := by
  rw [show exec (.jobSaveComplete k) s = execJobSaveComplete k s from rfl, execJobSaveComplete]
  simp only [longIs_of hl hkind, him]
  exact congrArg _ (if_pos ⟨hstage, hphase⟩)

end

theorem saves_drain_halt_and_finish : Claims.SavesDrainHaltAndFinish := by
  intro s s1 c k
  refine ⟨fun hgo hform hown hst hent hlong => ?_, fun l im hl hkind hfree => ⟨fun him hstage hmsgs hset => ?_,
    fun him hstage hhalted => ?_, fun him hstage hphase => ?_⟩⟩
  · obtain ⟨h, p, lg, n, hstop⟩ := stopDbg_frame k s1
    have hback := getPart_setPart_of_long (stopDbg k s1) k
      (v := { getPart (stopDbg k s1) k with st := .draining, long := some (longOf .save c [0, s1.time] [] s1) }) rfl
    exact ⟨_, exec_jobSave_of_pass hgo hform hown hst hent hlong, congrArg Part.st hback, congrArg Part.long hback,
      (congrArg State.cores hstop :), (congrArg State.routers hstop :)⟩
  · obtain ⟨cs, hthaw⟩ := thaw_frame (inPart s k) (sendHalts (activeCores s k)
      (mapCores s (fun g c => inPart s k g && decide (c.r.st = .hold)) (fun g c => requestHalt (envOf s g) c)))
    refine ⟨_, exec_jobSaveComplete_halts hl hkind hfree him hstage hmsgs hset, ?_, fun g hg => ?_⟩
    · exact getPart_modPart_long _ _ _
    · rw [show ∀ t f, (modPart t k f).haltSent = t.haltSent from fun _ _ => rfl, hthaw]
      exact contains_sendHalts s hg
  · exact exec_jobSaveComplete_records hl hkind hfree him hstage hhalted
  · exact exec_jobSaveComplete_saved hl hkind him hstage hphase

-- The time-outs of a save ----------------------------------------------------------------------------------------

section
variable {s : State} {k : Fin 32} {l : Long}

/-- A save that has not settled in its 100 µs is given up, by the stage it is in. -/
theorem exec_saveSettleTimeout (hl : (getPart s k).long = some l) (hkind : l.kind = .save) (hlate : l.nums.getD 1 0 + 100000000 ≤ s.time)
    (hset : settledChans s k = false) :
    exec (.saveSettleTimeout k) s = .next (if l.nums.getD 0 0 = 0 then giveUpSave k l s
      else if l.nums.getD 0 0 = 3 then resumeSave k l s else s) := by
  rw [show exec (.saveSettleTimeout k) s = execSaveSettleTimeout k s from rfl, execSaveSettleTimeout]
  simp only [longIs_of hl hkind]
  refine congrArg _ (if_neg ?_)
  rw [decide_eq_false (Nat.not_lt.mpr hlate), hset]
  exact Bool.false_ne_true

/-- A save whose cores do not halt in time is given up. -/
theorem exec_saveHaltTimeout (hl : (getPart s k).long = some l) (hkind : l.kind = .save) (hstage : l.nums.getD 0 0 = 1)
    (hlate : l.at_ + 16777216 ≤ north s) : exec (.saveHaltTimeout k) s = .next (resumeSave k l s) := by
  rw [show exec (.saveHaltTimeout k) s = execSaveHaltTimeout k s from rfl, execSaveHaltTimeout]
  simp only [longIs_of hl hkind]
  exact congrArg _ (if_pos ⟨hstage, hlate⟩)

/-- A save given up returns the partition to its state before. -/
theorem getPart_giveUpSave (hl : (getPart s k).long = some l) (hprev : l.prev ≠ .none) :
    getPart (giveUpSave k l s) k = { getPart s k with st := l.prev, long := none } := by
  have hback : getPart (setPart s k { getPart s k with st := l.prev }) k = { getPart s k with st := l.prev } :=
    getPart_setPart_of_st s k hprev
  have hdone := getPart_completeLong (s := setPart s k { getPart s k with st := l.prev }) stTimeout []
    (by rw [hback]; exact hl) (by rw [hback]; exact hprev)
  rwa [hback] at hdone

/-- The cores of a running job that a save had halted resume, and nothing else follows. -/
theorem resumeSave_of_running (hprev : l.prev = .running) :
    ∃ cs, resumeSave k l s = { giveUpSave k l (dropHalts (inPart s k) s) with cores := cs } := by
  obtain ⟨cs, hcs⟩ := resumeCores_frame (l.cores.filter (fun g =>
    decide ((getCore (giveUpSave k l (dropHalts (inPart s k) s)) g).r.st = .halt))) (giveUpSave k l (dropHalts (inPart s k) s))
  exact ⟨cs, (if_neg (by rw [hprev]; decide)).trans hcs⟩

end

theorem saves_time_out : Claims.SavesTimeOut := by
  intro s k l hl hkind u
  refine ⟨fun hstage hlate hset => ?_, fun hstage hlate hset => ?_, fun hstage hlate => exec_saveHaltTimeout hl hkind hstage hlate,
    fun hprev => ?_⟩
  · exact (exec_saveSettleTimeout hl hkind hlate hset).trans (congrArg _ (if_pos hstage))
  · exact (exec_saveSettleTimeout hl hkind hlate hset).trans (congrArg _ ((if_neg (by rw [hstage]; decide)).trans (if_pos hstage)))
  · obtain ⟨cs, hu⟩ := resumeSave_of_running (s := s) (k := k) hprev
    have hback := getPart_giveUpSave (s := dropHalts (inPart s k) s) (k := k) hl (by rw [hprev]; decide)
    have hpart : getPart u k = { getPart s k with st := l.prev, long := none } := (congrArg (fun t => getPart t k) hu).trans hback
    refine ⟨(congrArg Part.st hpart).trans hprev, congrArg Part.long hpart, fun g hg => ?_⟩
    have hsent : u.haltSent = s.haltSent.filter (fun g => !inPart s k g) := (congrArg State.haltSent hu).trans (completeLong_haltSent _ _ _ _)
    rw [hsent, Bool.eq_false_iff, ne_eq, List.contains_iff_mem, List.mem_filter]
    intro h
    rw [hg] at h
    exact Bool.false_ne_true h.2

-- What binding and readmitting leave of the partitions -----------------------------------------------------------

theorem bindSlot_parts (r : Req) (tag L : Nat) : ∀ (ns : List TreeNode) (ts : List (Nat × Nat)) {s t : State},
    bindSlot r tag L ns ts s = .ok t → t.parts = s.parts
  | [], _, s, t, h => by cases h; rfl
  | n :: rest, ts, s, t, h => by
    rw [bindSlot] at h
    split at h
    · cases h
    · exact (bindSlot_parts r tag L rest _ h).trans rfl

theorem bindSlots_parts (r : Req) (tag L m : Nat) (ns : List TreeNode) : ∀ (is : List Nat) {s t : State},
    bindSlots r tag L m ns is s = .ok t → t.parts = s.parts
  | [], s, t, h => by cases h; rfl
  | i :: rest, s, t, h => by
    rw [bindSlots] at h
    split at h
    · cases h
    · next s1 h1 => exact (bindSlots_parts r tag L m ns rest h).trans (bindSlot_parts r tag L ns _ h1)

/-- A route that is bound leaves the partitions. -/
theorem bindRoute_parts {k policy limg tag : Nat} {r : Req} {s t : State} {gs : List Nat}
    (h : bindRoute k policy limg r s = .ok (tag, gs, t)) : t.parts = s.parts := by
  rw [bindRoute] at h
  dsimp only at h
  split at h
  · cases h
  · split at h
    · cases h
    · split at h
      · cases h
      · next s1 h1 =>
        cases h
        refine List.foldlRecOn (motive := fun u : State => u.parts = s.parts) _ _ (bindSlots_parts r _ _ _ _ _ h1) fun u hu n _ => ?_
        exact List.foldlRecOn (motive := fun u : State => u.parts = s.parts) _ _ hu fun u hu o _ => hu

theorem bindList_parts (k policy limg : Nat) : ∀ (rs : List (Option (Req × Option (Nat × Fin 4)))) (i : Nat) (acc : List Bound)
    {bs : List Bound} {s t : State}, bindList k policy limg rs i acc s = .ok (bs, t) → t.parts = s.parts
  | [], _, _, _, s, t, h => by cases h; rfl
  | none :: _, _, _, _, s, t, h => by cases h
  | some (r, e) :: rest, i, acc, bs, s, t, h => by
    rw [bindList] at h
    split at h
    · cases h
    · next h1 => exact (bindList_parts k policy limg rest _ _ h).trans (bindRoute_parts h1)

/-- Binding an image leaves the state of its partition. -/
theorem bindImage_st {k : Nat} {im : Image} {s t : State} (h : bindImage k im s = .ok t) (hst : (getPart s k).st ≠ .none) :
    (getPart t k).st = (getPart s k).st := by
  rw [bindImage] at h
  split at h
  · cases h
  · next h1 =>
    split at h
    · cases h
    · next h2 =>
      split at h
      · cases h
      · next s3 h3 =>
        cases h
        have hp : getPart s3 k = getPart s k := congrArg (fun ps => tget Part.zero ps k)
          ((bindList_parts k _ _ _ _ _ h3).trans ((bindList_parts k _ _ _ _ _ h2).trans (bindList_parts k _ _ _ _ _ h1)))
        rw [getPart_modPart_of_st]
        · exact (congrArg Part.st hp :)
        · exact ((congrArg Part.st hp).trans_ne hst :)

theorem putDescs_parts (k : Nat) (im : Image) (s : State) : (putDescs k im s).parts = s.parts :=
  List.foldlRecOn (motive := fun t : State => t.parts = s.parts) _ _ rfl fun _ ht _ _ =>
    List.foldlRecOn (motive := fun t : State => t.parts = s.parts) _ _ ht fun _ hu _ _ => hu

theorem putCtxs_parts (k : Nat) (im : Image) (s : State) : (putCtxs k im s).parts = s.parts :=
  List.foldlRecOn (motive := fun t : State => t.parts = s.parts) _ _ rfl fun _ ht _ _ => ht

theorem takeEps_parts (k : Nat) (im : Image) (s : State) : (takeEps k im s).parts = s.parts :=
  List.foldlRecOn (motive := fun t : State => t.parts = s.parts) _ _ rfl fun _ ht _ _ => ht

theorem allotChans_parts (cs : List Chan) (s : State) : (allotChans cs s).parts = s.parts :=
  List.foldlRecOn (motive := fun t : State => t.parts = s.parts) _ _ rfl fun _ ht _ _ => by
    unfold allotChan
    split <;> exact ht

theorem allotBars_parts (bs : List BarObj) (s : State) : (allotBars bs s).parts = s.parts :=
  List.foldlRecOn (motive := fun t : State => t.parts = s.parts) _ _ rfl fun _ ht _ _ => by
    unfold allotBar
    split <;> exact ht

theorem backColls_parts (k : Nat) (r : SaveRec) (s : State) : (backColls k r s).parts = s.parts :=
  List.foldlRecOn (motive := fun t : State => t.parts = s.parts) _ _ rfl fun _ ht _ _ => ht

/-- Setting the member counts leaves the state of the partition. -/
theorem setMembers_st (k : Nat) (im : Image) {s : State} (hst : (getPart s k).st ≠ .none) :
    (getPart (setMembers k im s) k).st = (getPart s k).st := by
  have hfold : ∀ (ps : List Nat) (f : Nat → Collector → Collector), getPart (ps.foldl (fun s p => modColl s p (f p)) s) k = getPart s k :=
    fun ps f => List.foldlRecOn (motive := fun t : State => getPart t k = getPart s k) _ _ rfl fun _ ht _ _ => ht
  unfold setMembers
  dsimp only
  have hpart := hfold (getPart s k).pans fun p _ =>
    { Collector.zero with members := ((memberCores s k im).filter (fun g => decide (panOf g = p))).length }
  rw [getPart_modPart_of_st]
  · exact (congrArg Part.st hpart :)
  · exact ((congrArg Part.st hpart).trans_ne hst :)

/-- A partition that is readmitted takes the seed and the chain value of its record. -/
theorem readmit_part (k : Nat) (im : Image) (r : SaveRec) {s : State} (hst : (getPart s k).st ≠ .none) :
    (getPart (readmit k im r s) k).seed = r.seed ∧ (getPart (readmit k im r s) k).chain = r.chain := by
  unfold readmit
  dsimp only
  have h1 : ∀ cs bs, getPart (allotBars bs (allotChans cs (takeEps k im (putCtxs k im (putDescs k im s))))) k = getPart s k := fun cs bs =>
    congrArg (fun ps => tget Part.zero ps k) ((allotBars_parts bs _).trans ((allotChans_parts cs _).trans
      ((takeEps_parts k im _).trans ((putCtxs_parts k im _).trans (putDescs_parts k im s)))))
  have h2 : ∀ t, getPart t k = getPart s k → (getPart (backColls k r (setMembers k im t)) k).st ≠ .none := fun t ht => by
    rw [getPart, backColls_parts, ← getPart, setMembers_st k im (by rwa [ht]), ht]
    exact hst
  rw [getPart_modPart_of_st]
  · exact ⟨rfl, rfl⟩
  · exact h2 _ (h1 _ _)

-- Restoring ------------------------------------------------------------------------------------------------------

theorem not_any_of_all_false {xs : List Nat} {f : Nat → Bool} (h : ∀ x ∈ xs, f x = false) : ¬ xs.any f = true := by
  simpa using h

/-- The partition whose record is admitted again, its tiles still to come (15 R393). -/
def restoring (c : Cmd) (r : SaveRec) (s1 t : State) : State := modPart t c.part (fun p => { p with
  st := .loading, image := some r.image, loadQp := some (c.qp, (getQp s1 c.qp).epoch)
  long := some (longOf .restore c [] [] s1), loads := restoreLoads t c.part r.image, restored := true, starts := none, fault := none })

theorem getPart_restoring (c : Cmd) (r : SaveRec) (s1 t : State) : getPart (restoring c r s1 t) c.part = { getPart t c.part with
    st := .loading, image := some r.image, loadQp := some (c.qp, (getQp s1 c.qp).epoch)
    long := some (longOf .restore c [] [] s1), loads := restoreLoads t c.part r.image, restored := true, starts := none, fault := none } :=
  getPart_modPart_of_st _ _ _ (by rintro ⟨⟩)

theorem getPart_restoring_seed (c : Cmd) (r : SaveRec) (s1 t : State) : (getPart (restoring c r s1 t) c.part).seed = (getPart t c.part).seed :=
  (congrArg Part.seed (getPart_restoring c r s1 t) :)

theorem getPart_restoring_chain (c : Cmd) (r : SaveRec) (s1 t : State) : (getPart (restoring c r s1 t) c.part).chain = (getPart t c.part).chain :=
  (congrArg Part.chain (getPart_restoring c r s1 t) :)

/-- JOB_RESTORE of a record that passes its checks and binds. -/
theorem exec_jobRestore_of_pass {s s1 s2 : State} {c : Cmd} {r : SaveRec} (hgo : goes c s s1)
    (htest : ∀ x ∈ (getPart s c.part).pans, underTest s x = false) (hform : badForm c false false false [] = false)
    (hown : (isO s1 c || isT s1 c) = true) (hst : (getPart s1 c.part).st = .saved) (hsaved : (getPart s1 c.part).saved = some r)
    (hlic : image4Bad s1 r.image = false) (hbounds : boundsBad s1 c.part r.image = false)
    (hfit : ∀ x ∈ (getPart s1 c.part).pans, panUnfit s1 x = false) (hfitBad : fitBad s1 c.part true ⟨r.image, none⟩ = none)
    (hbind : bindImage c.part r.image s1 = .ok s2) (hlong : (getPart s1 c.part).long = none) :
    exec (.jobRestore c) s = .next (restoring c r s1 (readmit c.part r.image r s2)) := by
  obtain ⟨htake, hearly⟩ := hgo
  have hlive := (Bool.not_eq_true _).mp (not_any_of_all_false hfit)
  have him : savedImage s1 c.part = some r.image := by rw [savedImage, hsaved]; rfl
  rw [show exec (.jobRestore c) s = execJobRestore c s from rfl, execJobRestore]
  refine (if_neg (not_any_of_all_false htest)).trans (runCmd_of_later htake ?_ ?_)
  · simp only [hform, hown, hearly, inSt, hst, him, hlic, hbounds, hlive]
    rfl
  · simp only [hsaved, hfitBad, hbind, longBusy, hlong]
    rfl

section
variable (k : Nat) (s : State) (g : Nat)

/-- A core in LOADED, its fault record clear (15 R393). -/
def rearmed (c : Core) : Core := { c with r := { c.r with st := .loaded, fstat := 0, fpc := 0, finfo := 0, ftc := 0 } }

/-- A core of the image written back. -/
def writeBack (s : State) (icn : Nat) : State := setCore s (coreOf s k icn) (rearmed (getCore s (coreOf s k icn)))

/-- Whether a core stands in LOADED with no fault recorded. -/
def loadedClear (c : Core) : Prop := c.r.st = .loaded ∧ c.r.fstat = 0

/-- A core is written back by its own number, and stays so whichever core follows. -/
theorem loadedClear_writeBack (icn : Nat) (h : loadedClear (getCore s g) ∨ coreOf s k icn = g) : loadedClear (getCore (writeBack k s icn) g) := by
  by_cases hg : coreOf s k icn = g
  · subst hg
    have hne : rearmed (getCore s (coreOf s k icn)) ≠ Core.zero := fun hz => by
      have hst : CoreSt.loaded = CoreSt.clear := congrArg (fun c => c.r.st) hz
      cases hst
    rw [writeBack, getCore, setCore_cores, tget_tset_of_ne _ _ _ _ hne]
    exact ⟨rfl, rfl⟩
  · rw [writeBack, getCore, setCore_cores, tget_tset_ne _ _ _ _ _ (Ne.symm hg), ← getCore]
    exact h.resolve_right hg

theorem loadedClear_writeBacks : ∀ (icns : List Nat) (s : State),
    (loadedClear (getCore s g) ∨ ∃ icn ∈ icns, coreOf s k icn = g) → loadedClear (getCore (icns.foldl (writeBack k) s) g)
  | [], _, h => h.resolve_right (by simp)
  | icn :: rest, s, h => by
    refine loadedClear_writeBacks rest (writeBack k s icn) ?_
    obtain h | ⟨j, hj, hg⟩ := h
    · exact .inl (loadedClear_writeBack k s g icn (.inl h))
    · obtain rfl | hj := List.mem_cons.mp hj
      · exact .inl (loadedClear_writeBack k s g j (.inr hg))
      · exact .inr ⟨j, hj, hg⟩

theorem writeBacks_frame (icns : List Nat) : ∃ cs, icns.foldl (writeBack k) s = { s with cores := cs } :=
  List.foldlRecOn (motive := fun t : State => ∃ cs, t = { s with cores := cs }) icns (writeBack k) ⟨_, rfl⟩ fun t ⟨cs, ht⟩ icn _ => by
    subst ht
    exact ⟨_, rfl⟩

/-- Contexts back on their engines touch the engines alone. -/
theorem backCtxs_frame (xs : List (Nat × Nat × Ctx)) : ∃ es, xs.foldl (backCtx k) s = { s with engs := es } :=
  List.foldlRecOn (motive := fun t : State => ∃ es, t = { s with engs := es }) xs (backCtx k) ⟨_, rfl⟩ fun t ⟨es, ht⟩ x _ => by
    subst ht
    exact ⟨_, rfl⟩

end

/-- The cores and contexts of a record written back (15 R393). -/
def writtenBack (k : Nat) (r : SaveRec) (s : State) : State := r.ctxs.foldl (backCtx k) ((r.image.cores.map CoreRec.icn).foldl (writeBack k) s)

/-- Writing back leaves the partitions. -/
theorem getPart_writtenBack (k : Nat) (r : SaveRec) (s : State) (j : Nat) : getPart (writtenBack k r s) j = getPart s j := by
  obtain ⟨es, hes⟩ := backCtxs_frame k ((r.image.cores.map CoreRec.icn).foldl (writeBack k) s) r.ctxs
  obtain ⟨cs, hcs⟩ := writeBacks_frame k s (r.image.cores.map CoreRec.icn)
  rw [writtenBack, hes, hcs]
  rfl

/-- Every core of the record is written back. -/
theorem loadedClear_writtenBack (k : Nat) (r : SaveRec) (s : State) {icn : Nat} (h : icn ∈ r.image.cores.map CoreRec.icn) :
    loadedClear (getCore (writtenBack k r s) (coreOf s k icn)) := by
  obtain ⟨es, hes⟩ := backCtxs_frame k ((r.image.cores.map CoreRec.icn).foldl (writeBack k) s) r.ctxs
  rw [writtenBack, hes]
  exact loadedClear_writeBacks k _ _ s (.inr ⟨icn, h, rfl⟩)

/-- The partition READY, its record used up and its long command completed (15 R393). -/
def madeReady (k : Nat) (w : State) : State := newJobRate (completeLong k stOK [] (modPart w k (fun p => { p with st := .ready, saved := none })))

theorem getPart_madeReady {k : Nat} {w : State} {l : Long} (hl : (getPart w k).long = some l) :
    getPart (madeReady k w) k = { getPart w k with st := .ready, saved := none, long := none } := by
  have hback := getPart_modPart_of_st w k (fun p => { p with st := .ready, saved := none }) (by rintro ⟨⟩)
  refine (getPart_completeLong stOK [] (l := l) ?_ ?_).trans ?_
  · rw [hback]
    exact hl
  · rw [hback]
    rintro ⟨⟩
  · rw [hback]

theorem getCore_madeReady (k : Nat) (w : State) (g : Nat) : getCore (madeReady k w) g = getCore w g :=
  congrArg (fun cs => tget Core.zero cs g) (completeLong_cores k stOK [] (modPart w k (fun p => { p with st := .ready, saved := none })))

/-- JOB_RESTORE_COMPLETE once every tile is written. -/
theorem exec_jobRestoreComplete_of_written {s : State} {k : Fin 32} {l : Long} {r : SaveRec} (hl : (getPart s k).long = some l)
    (hkind : l.kind = .restore) (hsaved : (getPart s k).saved = some r) (hloads : (getPart s k).loads = []) (hfree : s.tide.frozen = false) :
    exec (.jobRestoreComplete k) s = .next (madeReady k (writtenBack k r s)) := by
  rw [show exec (.jobRestoreComplete k) s = execJobRestoreComplete k s from rfl, execJobRestoreComplete]
  simp only [longIs_of hl hkind, hsaved]
  refine congrArg _ ((if_pos ?_).trans rfl)
  rw [hloads, hfree]
  rfl

theorem restores_bring_the_record_back : Claims.RestoresBringTheRecordBack := by
  intro s s1 s2 c r k
  refine ⟨fun hgo htest hform hown hst hsaved hlic hbounds hfit hfitBad hbind hlong => ?_, fun l hl hkind hsaved hloads hfree => ?_⟩
  · have hst2 : (getPart s2 k).st = .saved := (bindImage_st hbind (by rw [hst]; decide)).trans hst
    obtain ⟨hseed, hchain⟩ := readmit_part c.part r.image r (s := s2) (by rw [hst2]; decide)
    have hback := getPart_restoring c r s1 (readmit c.part r.image r s2)
    exact ⟨_, exec_jobRestore_of_pass hgo htest hform hown hst hsaved hlic hbounds hfit hfitBad hbind hlong, congrArg Part.st hback,
      congrArg Part.image hback, congrArg Part.long hback, congrArg Part.restored hback, congrArg Part.fault hback,
      (getPart_restoring_seed c r s1 _).trans hseed, (getPart_restoring_chain c r s1 _).trans hchain⟩
  · have hback := getPart_madeReady (l := l) ((congrArg Part.long (getPart_writtenBack k r s k)).trans hl)
    refine ⟨_, exec_jobRestoreComplete_of_written hl hkind hsaved hloads hfree, congrArg Part.st hback, congrArg Part.long hback,
      congrArg Part.saved hback, fun icn hicn => ?_⟩
    rw [getCore_madeReady]
    exact loadedClear_writtenBack k r s hicn

-- Moving a record out and in -------------------------------------------------------------------------------------

section
variable {s s1 : State} {c : Cmd}

/-- JOB_EXPORT of a saved job begins the sealing. -/
theorem exec_jobExport_of_pass (hgo : goes c s s1) (hform : badForm c false false true [] = false) (hown : (isO s1 c || isT s1 c) = true)
    (hst : (getPart s1 c.part).st = .saved) (hlong : (getPart s1 c.part).long = none) :
    exec (.jobExport c) s = .next (setPart (drawn s1).2 c.part { getPart s1 c.part with
      long := some (longOf .exp c [c.bufAddr.toNat, c.bufLen.toNat, (drawn s1).1 % 2 ^ 64] [] s1) }) := by
  obtain ⟨htake, hearly⟩ := hgo
  rw [show exec (.jobExport c) s = execJobExport c s from rfl, execJobExport]
  refine runCmd_of_later htake ?_ rfl
  simp only [hform, hown, hearly, inSt, hst, longBusy, hlong]
  rfl

/-- JOB_EXPORT_COMPLETE writes no more of the sealed record than the buffer takes. -/
theorem exec_jobExportComplete_of_long {k : Fin 32} {l : Long} {r : SaveRec} (hl : (getPart s k).long = some l) (hkind : l.kind = .exp)
    (hsaved : (getPart s k).saved = some r) : ∃ bs : List Byte, bs.length ≤ l.nums.getD 1 0 ∧
      exec (.jobExportComplete k) s = .next (completeLong k stOK [bs.length]
        { s with host := { s.host with out := s.host.out ++ [⟨l.nums.getD 0 0, bs⟩] } }) := by
  refine ⟨(Config.sealRec ((getPart s k).jk.getD 0) [r.image.bl, r.image.npans, r.keyid.toNat, l.nums.getD 2 0] (tenantHash s k) r
    (pairOf (getPart s k).xts).toNat).take (l.nums.getD 1 0), List.length_take_le _ _, ?_⟩
  rw [show exec (.jobExportComplete k) s = execJobExportComplete k s from rfl, execJobExportComplete]
  simp only [longIs_of hl hkind, hsaved]

/-- JOB_IMPORT_COMPLETE leaves the partition SAVED. -/
theorem exec_jobImportComplete_of_long {k : Fin 32} {l : Long} (hl : (getPart s k).long = some l) (hkind : l.kind = .imp) :
    exec (.jobImportComplete k) s = .next (completeLong k stOK [l.nums.getD 0 0] (setPart s k { getPart s k with st := .saved })) := by
  rw [show exec (.jobImportComplete k) s = execJobImportComplete k s from rfl, execJobImportComplete]
  simp only [longIs_of hl hkind]
  rfl

end

section
variable {s s1 : State} {c : Cmd} (hgo : goes c s s1) (htest : ∀ x ∈ (getPart s c.part).pans, underTest s x = false)
  (hform : badForm c false false true [] = false)
include hgo htest hform

/-- JOB_IMPORT of a buffer that holds no record. -/
theorem exec_jobImport_of_no_record (hhead : Config.recHead (bufOf c) = none) :
    exec (.jobImport c) s = .next (refusedWith 0x28 c false s1 stFormat []) := by
  rw [show exec (.jobImport c) s = execJobImport c s from rfl, execJobImport]
  refine (if_neg (not_any_of_all_false htest)).trans (runCmd_of_refused hgo.1 ?_)
  simp only [hform, hhead]
  rfl

variable (hown : (isO s1 c || isT s1 c) = true) {h : Nat × Nat × Nat × BitVec 512} (hhead : Config.recHead (bufOf c) = some h)
include hown hhead

/-- JOB_IMPORT of a record that the staged key does not open. -/
theorem exec_jobImport_of_not_opened (hopen : openRecord s1 c = none) :
    exec (.jobImport c) s = .next (refusedWith 0x28 c false s1 stAuth []) := by
  rw [show exec (.jobImport c) s = execJobImport c s from rfl, execJobImport]
  refine (if_neg (not_any_of_all_false htest)).trans (runCmd_of_refused hgo.1 ?_)
  simp only [hform, hhead, hown, hopen]
  rfl

variable {r : SaveRec} {x : Nat} {key : JobKey} (hopen : openRecord s1 c = some (r, x, key))
include hopen

/-- JOB_IMPORT of a record that the licence does not allow. -/
theorem exec_jobImport_of_not_licensed (hlic : image4Bad s1 r.image = true) :
    exec (.jobImport c) s = .next (refusedWith 0x28 c false s1 stLicence []) := by
  rw [show exec (.jobImport c) s = execJobImport c s from rfl, execJobImport]
  refine (if_neg (not_any_of_all_false htest)).trans (runCmd_of_refused hgo.1 ?_)
  simp only [hform, hhead, hown, hopen, hlic]
  rfl

variable (hst : (getPart s1 c.part).st = .empty) (hlic : image4Bad s1 r.image = false)
include hst hlic

/-- JOB_IMPORT of a record that does not fit. -/
theorem exec_jobImport_of_no_fit {e : List Nat} (hfit : importFit s1 c.part h.1 h.2.1 r = some e) :
    exec (.jobImport c) s = .next (refusedWith 0x28 c false s1 stFit e) := by
  obtain ⟨htake, hearly⟩ := hgo
  rw [show exec (.jobImport c) s = execJobImport c s from rfl, execJobImport]
  refine (if_neg (not_any_of_all_false htest)).trans (runCmd_of_status (s2 := s1) htake ?_ ?_ (by decide))
  · simp only [hform, hhead, hown, hopen, hlic, hearly, inSt, hst]
    rfl
  · simp only [hhead, hopen, hfit]

/-- JOB_IMPORT of a record that passes its checks. -/
theorem exec_jobImport_of_pass (hfit : importFit s1 c.part h.1 h.2.1 r = none) :
    exec (.jobImport c) s = .next (modPart (allotGranules c.part r.image (leaveEmpty c.part s1)) c.part (fun p => { p with
      st := .loading, saved := some { r with keyid := key.keyid }, xts := suppliedKey x, xtsOwn := true, jk := some key.jk, staged := none
      long := some (longOf .imp c [(bufOf c).length] [] s1) })) := by
  obtain ⟨htake, hearly⟩ := hgo
  rw [show exec (.jobImport c) s = execJobImport c s from rfl, execJobImport]
  refine (if_neg (not_any_of_all_false htest)).trans (runCmd_of_later htake ?_ ?_)
  · simp only [hform, hhead, hown, hopen, hlic, hearly, inSt, hst]
    rfl
  · simp only [hhead, hopen, hfit]

end

theorem exports_and_imports_move_the_record : Claims.ExportsAndImportsMoveTheRecord := by
  intro s s1 c k
  refine ⟨exec_jobExport_of_pass, fun l r => exec_jobExportComplete_of_long, fun hgo htest hform hown hst => ?_,
    fun l => exec_jobImportComplete_of_long⟩
  rcases hhead : Config.recHead (bufOf c) with _ | h
  · exact exec_jobImport_of_no_record hgo htest hform hhead
  rcases hopen : openRecord s1 c with _ | ⟨r, x, key⟩
  · exact exec_jobImport_of_not_opened hgo htest hform hown hhead hopen
  dsimp only
  split
  · next hlic => exact exec_jobImport_of_not_licensed hgo htest hform hown hhead hopen hlic
  · next hlic =>
    rw [Bool.not_eq_true] at hlic
    rcases hfit : importFit s1 k h.1 h.2.1 r with _ | e
    · exact exec_jobImport_of_pass hgo htest hform hown hhead hopen hst hlic hfit
    · exact exec_jobImport_of_no_fit hgo htest hform hown hhead hopen hst hlic hfit

end Sys2Proof.Machine

open Sys2Proof Sys2Proof.Machine

/-- Settles O31, stage by stage: saving, its time-outs, restoring, and moving a record. That the wait for settling is made a second time after
the halts is the model's reading (log 66); what a sealed record spells is free (log 6). -/
theorem jobsSaveRestoreAndMove : Obligations.JobsSaveRestoreAndMove :=
  ⟨saves_drain_halt_and_finish, saves_time_out, restores_bring_the_record_back, exports_and_imports_move_the_record⟩

end

section
/-! O19, refuted: RATE_CHANGE_APPLY is not asked of nodes that are listed in canonical form. In a table whose keys do not rise, a node that
reads as an unlisted one once it has taken its change is not removed, and holds the change as before. -/

namespace Sys2Proof.Machine

/-- A node 97 that has begun its second step, listed ahead of a node 96 that holds a change to the code it has. -/
def unsortedNodes : State :=
  { State.reset with
    nodes := [(97, { Node.zero with steps := 1 }), (96, { Node.zero with sched := some (0, 16) })]
    tide := { Tide.zero with pend := some (0, 16) } }

/-- The change is still pending once node 96, the only one that held it, has taken it. -/
theorem unsortedNodes_keep_pend {t : State} (h : exec (.rateChangeApply 96) unsortedNodes = .next t) : t.tide.pend = some (0, 16) := by
  have hrun : execRateChangeApply 96 unsortedNodes = .next t := h
  injection hrun with ht
  rw [← ht]
  decide +kernel

theorem pace_and_rate_fails_unsorted : ¬ Claims.PaceAndRate := by
  intro h
  obtain ⟨-, -, -, happly⟩ := h unsortedNodes 96 (by decide)
  obtain ⟨p, hexec, -, hnone⟩ := happly 0 16 rfl (by decide)
  have hp : p = none := hnone fun m hm _ => by
    revert m
    decide +kernel
  have hpend : p = some (0, 16) := unsortedNodes_keep_pend hexec
  exact absurd (hp.symm.trans hpend) (by decide)

end Sys2Proof.Machine

open Sys2Proof Sys2Proof.Machine

/-- Refutes O19: where the table of nodes lists node 97 ahead of node 96, node 96 takes its change and reads as holding it, so that the change stays
pending with no other node to take it. The statement of PaceAndRate lacks the canonical form of that table. -/
theorem not_nodesStepWithTheTide : ¬ Obligations.NodesStepWithTheTide := fun ⟨_, _, hpace⟩ => pace_and_rate_fails_unsorted hpace
end

section
/-! O43: rate changes, and the loss and the return of the reference (10 R246 to R249; 13 R333; 18 R446). -/

namespace Sys2Proof.Machine

-- What alarms and reports leave ----------------------------------------------------------------------------------

/-- Posting to the operator touches the host attachment alone. -/
theorem postOps_frame (e : Event) (s : State) : ∃ h, postOps e s = { s with host := h } :=
  List.foldlRecOn (motive := fun t : State => ∃ h, t = { s with host := h }) _ _ ⟨_, rfl⟩ fun t ⟨h, ht⟩ q _ => by
    obtain ⟨h', h't⟩ := postTo_frame t e q
    exact ⟨h', by rw [h't, ht]⟩

theorem postAlarm_frame (cause : Nat) (s : State) : ∃ h, postAlarm cause s = { s with host := h } := by
  unfold postAlarm
  split
  · exact postOps_frame _ s
  · obtain ⟨x, hx⟩ := raiseVec_eq s 33
    exact ⟨_, hx⟩

/-- An alarm with a report by PLDM touches the host attachment and what was said. -/
theorem pldm_postAlarm_frame (code v cause : Nat) (s : State) :
    ∃ h sd, pldm code v (postAlarm cause s) = { s with host := h, said := sd } := by
  obtain ⟨h, hs⟩ := postAlarm_frame cause s
  exact ⟨h, _, by rw [hs]; rfl⟩

-- Changes of the rate --------------------------------------------------------------------------------------------

/-- A live node holds a change; another is as it was. -/
def holdChange (x : Nat × Nat) (s : State) (n : Nat) : State :=
  if nodeLive s n then setNode s n { getNode s n with sched := some x } else s

/-- What the delivery to a list of nodes leaves: it touches the nodes alone, and of them the live ones of the list. -/
theorem foldl_holdChange (x : Nat × Nat) (l : List Nat) (s : State) :
    ∃ ns, l.foldl (holdChange x) s = { s with nodes := ns } ∧
      ∀ n, tget Node.zero ns n = if n ∈ l ∧ nodeLive s n = true then { getNode s n with sched := some x } else getNode s n := by
  induction l generalizing s with
  | nil => exact ⟨s.nodes, rfl, fun n => by simp [getNode]⟩
  | cons m l ih =>
    obtain ⟨ns, hfold, hget⟩ := ih (holdChange x s m)
    by_cases hm : nodeLive s m = true
    · have hstep : holdChange x s m = setNode s m { getNode s m with sched := some x } := if_pos hm
      rw [hstep] at hfold hget
      refine ⟨ns, by rw [List.foldl_cons, hstep, hfold]; rfl, fun n => ?_⟩
      rw [hget, show nodeLive (setNode s m _) n = nodeLive s n from rfl]
      by_cases hn : n = m
      · subst hn
        rw [show getNode (setNode s n _) n = _ from tget_tset_of_ne Node.zero s.nodes n _ fun hz => by cases congrArg Node.sched hz]
        simp [hm]
      · rw [getNode_setNode_of_ne s m n _ hn]
        simp [hn]
    · have hstep : holdChange x s m = s := if_neg hm
      rw [hstep] at hfold hget
      refine ⟨ns, by rw [List.foldl_cons, hstep, hfold], fun n => ?_⟩
      rw [hget]
      by_cases hn : n = m
      · subst hn; simp [hm]
      · simp [hn]

/-- A change that the tide network delivers: it is pending, and every live node holds it at the lowest of the code and the limits. -/
theorem deliverRate_eq (T k : Nat) (s : State) :
    ∃ ns, deliverRate T k s = { s with tide := { s.tide with pend := some (T, k) }, nodes := ns } ∧
      ∀ n, n < 100 → tget Node.zero ns n = if nodeLive s n then { getNode s n with
        sched := some (T, min (min k s.tide.cal) (min s.tide.lic (min s.tide.pwr s.tide.therm))) } else getNode s n := by
  obtain ⟨ns, hfold, hget⟩ := foldl_holdChange (T, min (min k s.tide.cal) (min s.tide.lic (min s.tide.pwr s.tide.therm)))
    (List.range 100) { s with tide := { s.tide with pend := some (T, k) } }
  refine ⟨ns, hfold, fun n hn => ?_⟩
  rw [hget]
  simp only [List.mem_range, hn, true_and]
  rfl

/-- TIDE_ARM_GO of a request that TIDE_ERR tells of. -/
theorem exec_tideArmGo_of_refused {s : State} (h : armCode s ≠ stOK) :
    exec .tideArmGo s = .next { s with tide := { s.tide with
      err := s.tide.err ||| BitVec.ofNat 6 ((armErrors s).1.toNat + 2 * (armErrors s).2.1.toNat + 4 * (armErrors s).2.2.toNat) } } :=
  congrArg Host.Outcome.next (if_neg h)

/-- TIDE_ARM_GO of a request that is accepted. -/
theorem exec_tideArmGo_of_ok {s : State} (h : armCode s = stOK) :
    exec .tideArmGo s = .next (deliverRate (stepOf s s.tide.armT) s.tide.armRate s) :=
  congrArg Host.Outcome.next (if_pos h)

theorem rate_changes_are_scheduled : Claims.RateChangesAreScheduled := by
  intro s k T t late range
  have hcode : armCode s = if late || range then stBounds else if t.pend.isSome then stBusy else stOK := rfl
  refine ⟨fun hbad => ?_, fun hok hpend => ?_, fun hok hpend _ => ?_, rfl, fun hraise hset hpend => ?_, fun hlower hT => ?_⟩
  · exact exec_tideArmGo_of_refused (by rw [hcode, if_pos hbad]; decide)
  · rw [Bool.or_eq_false_iff] at hok
    obtain ⟨hlate, hrange⟩ := hok
    rw [exec_tideArmGo_of_refused (by rw [hcode, hlate, hrange, hpend]; decide)]
    rw [show armErrors s = (late, range, t.pend.isSome) from rfl, hlate, hrange, hpend]
    rfl
  · obtain ⟨ns, hdeliver, hget⟩ := deliverRate_eq (stepOf s t.armT) t.armRate s
    refine ⟨_, exec_tideArmGo_of_ok (by rw [hcode, hok, hpend]; rfl), by rw [hdeliver], fun n hn => ?_⟩
    rw [hdeliver]
    exact hget n hn
  · rw [show exec .railSettled s = execRailSettled s from rfl, execRailSettled, hraise, hset, hpend]
    rfl
  · rw [show exec .railLower s = execRailLower s from rfl, execRailLower, hlower]
    exact congrArg Host.Outcome.next (if_pos hT)

-- The reference --------------------------------------------------------------------------------------------------

/-- Whether some entry passes a test that changing the entries does not move, and that no unlisted entry passes. -/
theorem any_tmapv {α : Type} [DecidableEq α] {d : α} {f : Nat → α → α} {q : α → Bool} (hf : ∀ k a, q (f k a) = q a) (hd : q d = false)
    (t : Tbl α) : (tmapv d f t).any (fun p => q p.2) = t.any (fun p => q p.2) := by
  induction t with
  | nil => rfl
  | cons p t ih =>
    obtain ⟨j, a⟩ := p
    rw [tmapv, List.any_cons]
    split
    · next hz => rw [ih, ← hf j a, hz, hd, Bool.false_or]
    · rw [List.any_cons, ih, hf]

/-- REF_DOWN tells whether a port is down for the reference; nothing but the fabric is touched. -/
theorem fixRefDown_frame (s : State) : ∃ f, fixRefDown s = { s with fab := f } ∧ f.refDown = s.fab.ports.any (fun p => p.2.refDown) := by
  unfold fixRefDown
  dsimp only
  split
  · exact ⟨_, rfl, rfl⟩
  · next h =>
    rw [not_or, Bool.not_eq_true] at h
    exact ⟨_, rfl, h.1.symm⟩

/-- The ports that train again leave as many down for the reference as were. -/
theorem portsBack_frame (s : State) : ∃ f, portsBack s = { s with fab := f } ∧ f.refDown = s.fab.ports.any (fun p => p.2.refDown) := by
  obtain ⟨f, hfix, hdown⟩ := fixRefDown_frame
    { s with fab := { s.fab with ports := tmapv Port.zero (fun _ p => if p.refDown then { p with st := 1 } else p) s.fab.ports } }
  refine ⟨f, hfix, hdown.trans (any_tmapv (q := Port.refDown) (fun _ p => ?_) rfl _)⟩
  split <;> rfl

/-- The module at the loss of its reference, before the ports go down and the loss is told. -/
def lostReference (s : State) : State :=
  { s with
    tide := { s.tide with
      rate := min s.tide.rate 16, refOk := false, fallback := true, present := false, locked := false, pend := none
      err := s.tide.err ||| BitVec.ofNat 6 (16 + (if s.tide.pend.isSome then 8 else 0)), losses := min 255 (s.tide.losses + 1) }
    nodes := tmapv Node.zero (fun _ x => { x with rate := min x.rate 16, sched := none }) s.nodes
    power := { s.power with raising := none, lowering := none } }

theorem exec_refLost (s : State) : ∃ h sd, exec .refLost s = .next { portsDown (lostReference s) with host := h, said := sd } := by
  obtain ⟨h, sd, hlost⟩ := pldm_postAlarm_frame 1 1 1 (portsDown (lostReference s))
  exact ⟨h, sd, congrArg Host.Outcome.next hlost⟩

/-- At the loss of the reference every node falls to code 16, or stays lower, and holds no change. -/
theorem getNode_lostReference {s : State} (hwf : s.tablesWf = true) (n : Nat) :
    getNode (lostReference s) n = { getNode s n with rate := min (getNode s n).rate 16, sched := none } :=
  tget_tmapv Node.zero (fun _ x => { x with rate := min x.rate 16, sched := none }) s.nodes n ((tablesWf_iff s).mp hwf).nodes rfl

theorem exec_refBack {s : State} (hfall : s.tide.fallback = true) :
    ∃ f h sd, f.refDown = s.fab.ports.any (fun p => p.2.refDown) ∧ exec .refBack s = .next { s with
      tide := { s.tide with refOk := true, fallback := false, present := true, locked := true, err := s.tide.err ||| 32#6 }
      fab := f, host := h, said := sd } := by
  rw [show exec .refBack s = execRefBack s from rfl, execRefBack, hfall]
  obtain ⟨f, hports, hdown⟩ := portsBack_frame { s with tide := { s.tide with
    refOk := true, fallback := false, present := true, locked := true, err := s.tide.err ||| 32#6 } }
  obtain ⟨h, sd, hback⟩ := pldm_postAlarm_frame 1 2 2 (portsBack { s with tide := { s.tide with
    refOk := true, fallback := false, present := true, locked := true, err := s.tide.err ||| 32#6 } })
  refine ⟨f, h, sd, hdown, congrArg Host.Outcome.next (hback.trans ?_)⟩
  rw [hports]

theorem the_reference_is_lost_and_back : Claims.TheReferenceIsLostAndBack := by
  intro s t
  refine ⟨fun hwf => ?_, fun hfall => ?_⟩
  · obtain ⟨h, sd, hlost⟩ := exec_refLost s
    refine ⟨_, hlost, rfl, fun n => ?_, rfl, rfl⟩
    have hnode := getNode_lostReference hwf n
    exact ⟨(congrArg Node.rate hnode :), (congrArg Node.sched hnode :), (congrArg Node.steps hnode :)⟩
  · obtain ⟨f, h, sd, hdown, hback⟩ := exec_refBack hfall
    exact ⟨_, hback, rfl, hdown, rfl, rfl⟩

end Sys2Proof.Machine

open Sys2Proof Sys2Proof.Machine

/-- Settles O43: a request of a change by its checks, a delivered change node by node, the reference by what alarms and ports leave. That the
change reaches every node at GO, with the limits of that moment, is the model's reading (log 35); that several bits of TIDE_ERR may set at
once is too (log 130). -/
theorem rateAndReference : Obligations.RateAndReference := ⟨rate_changes_are_scheduled, the_reference_is_lost_and_back⟩
end

section
/-! What the ends of jobs touch: halt requests, partitions, the host attachment, the job rate, streams, channels and what is sent to other
modules; of the partitions only the one that ends (17 R430; 19 R464 to R467). -/

namespace Sys2Proof.Machine

-- Folds and tables -----------------------------------------------------------------------------------------------

/-- What one element of a list brings about, from what every element keeps, holds at the end if every element keeps it too. -/
theorem foldl_of_mem {α β : Type} {I P : β → Prop} {f : β → α → β} {l : List α} {a : α} {b : β} (ha : a ∈ l) (hb : I b)
    (hI : ∀ b, ∀ x ∈ l, I b → I (f b x)) (hP : ∀ b, I b → P (f b a)) (hkeep : ∀ b, ∀ x ∈ l, P b → P (f b x)) : P (l.foldl f b) := by
  obtain ⟨l₁, l₂, rfl⟩ := List.append_of_mem ha
  rw [List.foldl_append, List.foldl_cons]
  have hfirst : I (l₁.foldl f b) := List.foldlRecOn l₁ f hb fun b hb x hx => hI b x (List.mem_append_left _ hx) hb
  exact List.foldlRecOn l₂ f (hP _ hfirst) fun b hb x hx => hkeep b x (List.mem_append_right _ (List.mem_cons_of_mem _ hx)) hb

/-- A key that does not read as an unlisted one is listed. -/
theorem mem_of_tget_ne {α : Type} {d : α} {t : Tbl α} {k : Nat} (h : tget d t k ≠ d) : (k, tget d t k) ∈ t := by
  induction t with
  | nil => exact absurd rfl h
  | cons p t ih =>
    rw [tget_cons] at h ⊢
    split
    · next hk => rw [← hk]; exact List.mem_cons_self
    · next hk =>
      rw [if_neg hk] at h
      exact List.mem_cons_of_mem _ (ih h)

/-- What a core reads as once the cores that meet a test are changed, where the change leaves a zeroised one. -/
theorem getCore_mapCores {s : State} {p : Nat → Core → Bool} {f : Nat → Core → Core} {g : Nat} (hwf : twf Core.zero s.cores = true)
    (hz : p g Core.zero = true → f g Core.zero = Core.zero) :
    getCore (mapCores s p f) g = if p g (getCore s g) then f g (getCore s g) else getCore s g :=
  tget_tmapv Core.zero (fun g c => if p g c then f g c else c) s.cores g hwf (ite_eq_right_iff.mpr hz)

-- What is touched ------------------------------------------------------------------------------------------------

/-- t is s but for what the ends of jobs touch. -/
def OnlyEnds (s t : State) : Prop :=
  ∃ hs p h r f en co, t = { s with
    haltSent := hs, parts := p, host := h, tide := { s.tide with jobRate := r }, fab := f, engs := en, ctrlOut := co }

theorem OnlyEnds.refl (s : State) : OnlyEnds s s := ⟨_, _, _, _, _, _, _, rfl⟩

theorem OnlyEnds.trans {s t u : State} (h : OnlyEnds s t) (h' : OnlyEnds t u) : OnlyEnds s u := by
  obtain ⟨_, _, _, _, _, _, _, rfl⟩ := h
  obtain ⟨_, _, _, _, _, _, _, rfl⟩ := h'
  exact ⟨_, _, _, _, _, _, _, rfl⟩

theorem OnlyEnds.cores {s t : State} (h : OnlyEnds s t) : t.cores = s.cores := by
  obtain ⟨_, _, _, _, _, _, _, rfl⟩ := h
  rfl

theorem OnlyEnds.power {s t : State} (h : OnlyEnds s t) : t.power = s.power := by
  obtain ⟨_, _, _, _, _, _, _, rfl⟩ := h
  rfl

theorem OnlyEnds.tide {s t : State} (h : OnlyEnds s t) : t.tide = { s.tide with jobRate := t.tide.jobRate } := by
  obtain ⟨_, _, _, _, _, _, _, rfl⟩ := h
  rfl

/-- The running and the held cores of a partition are those of before. -/
theorem OnlyEnds.activeCores {s t : State} (h : OnlyEnds s t) (k : Nat) : activeCores t k = activeCores s k := by
  obtain ⟨_, _, _, _, _, _, _, rfl⟩ := h
  rfl

theorem OnlyEnds.foldl {α : Type} {f : State → α → State} (hf : ∀ t x, OnlyEnds t (f t x)) (l : List α) (s : State) :
    OnlyEnds s (l.foldl f s) :=
  List.foldlRecOn l f (OnlyEnds.refl s) fun t ht x _ => ht.trans (hf t x)

/-- Besides, of the partitions only k is touched. -/
structure TouchesPart (k : Nat) (s t : State) : Prop where
  only : OnlyEnds s t
  others : ∀ j, j ≠ k → getPart t j = getPart s j

section
variable {k : Nat} {s t u : State}

theorem TouchesPart.refl (k : Nat) (s : State) : TouchesPart k s s := ⟨OnlyEnds.refl s, fun _ _ => rfl⟩

theorem TouchesPart.trans (h : TouchesPart k s t) (h' : TouchesPart k t u) : TouchesPart k s u :=
  ⟨h.only.trans h'.only, fun j hj => (h'.others j hj).trans (h.others j hj)⟩

theorem TouchesPart.of_host {h : HostIf} : TouchesPart k s { s with host := h } := ⟨⟨_, _, _, _, _, _, _, rfl⟩, fun _ _ => rfl⟩

theorem touchesPart_modPart (k : Nat) (f : Part → Part) (s : State) : TouchesPart k s (modPart s k f) :=
  ⟨⟨_, _, _, _, _, _, _, rfl⟩, fun j hj => tget_tset_ne Part.zero s.parts k j _ hj⟩

theorem touchesPart_mapCtxs (k j : Nat) (f : Ctx → Ctx) (s : State) : TouchesPart k s (mapCtxs j f s) :=
  ⟨⟨_, _, _, _, _, _, _, rfl⟩, fun _ _ => rfl⟩

theorem touchesPart_stopChans (k j : Nat) (s : State) : TouchesPart k s (stopChans j s) := ⟨⟨_, _, _, _, _, _, _, rfl⟩, fun _ _ => rfl⟩

theorem touchesPart_sendCtrl (k sub j : Nat) (peers body : List Nat) (s : State) : TouchesPart k s (sendCtrl sub j peers body s) :=
  ⟨⟨_, _, _, _, _, _, _, rfl⟩, fun _ _ => rfl⟩

theorem touchesPart_sendHalts (k : Nat) (gs : List Nat) (s : State) : TouchesPart k s (sendHalts gs s) :=
  ⟨⟨_, _, _, _, _, _, _, rfl⟩, fun _ _ => rfl⟩

/-- With no long command in progress nothing completes. -/
theorem completeLong_of_none (status : Nat) (res : List Nat) (hl : (getPart s k).long = none) : completeLong k status res s = s := by
  rw [completeLong, hl]

theorem touchesPart_completeLong (k status : Nat) (res : List Nat) (s : State) : TouchesPart k s (completeLong k status res s) := by
  cases hl : (getPart s k).long with
  | none => rw [completeLong_of_none status res hl]; exact TouchesPart.refl k s
  | some l =>
    obtain ⟨h, ht⟩ := completeLong_of_long s k res status hl
    rw [ht]
    exact (touchesPart_modPart k _ s).trans TouchesPart.of_host

end

-- The end of a job -----------------------------------------------------------------------------------------------

/-- A partition whose job has ended with a code. -/
def HasEnded (k code : Nat) (t : State) : Prop := (getPart t k).st = .faulted ∧ (getPart t k).endCode = code ∧ (getPart t k).ends = none

/-- A long command that completes leaves the rest of its partition. -/
theorem getPart_completeLong_long {s : State} {k : Nat} (status : Nat) (res : List Nat) (hst : (getPart s k).st ≠ .none) :
    ∃ l, getPart (completeLong k status res s) k = { getPart s k with long := l } := by
  cases hl : (getPart s k).long with
  | none => exact ⟨(getPart s k).long, by rw [completeLong_of_none status res hl]⟩
  | some l => exact ⟨none, getPart_completeLong status res hl hst⟩

section
variable (k code : Nat) (s : State)

/-- The partition as the end of its job leaves it, but for its long command. -/
def endedPart (p : Part) : Part := { p with st := .faulted, endCode := code, guard := dropGuardStep p.guard, reload := none, ends := none }

/-- The end of a job in its parts: the long command completes over the partition that has ended, and then only an event is posted and the
job rate computed. -/
theorem endFaulted_eq : ∃ h r, endFaulted k code s =
    let t := completeLong k code [] (modPart (sendHalts (activeCores s k) s) k (endedPart code))
    { t with host := h, tide := { t.tide with jobRate := r } } := by
  obtain ⟨h, ht⟩ := postJob_frame (completeLong k code [] (modPart (sendHalts (activeCores s k) s) k (endedPart code))) k (jobEndEvent k
    (getPart (completeLong k code [] (modPart (sendHalts (activeCores s k) s) k (endedPart code))) k))
  exact ⟨h, _, (congrArg newJobRate ht :)⟩

theorem touchesPart_endFaulted : TouchesPart k s (endFaulted k code s) := by
  obtain ⟨h, r, ht⟩ := endFaulted_eq k code s
  have hlong := ((touchesPart_sendHalts k (activeCores s k) s).trans (touchesPart_modPart k (endedPart code) _)).trans
    (touchesPart_completeLong k code [] _)
  rw [ht]
  exact hlong.trans ⟨⟨_, _, _, _, _, _, _, rfl⟩, fun _ _ => rfl⟩

theorem hasEnded_endFaulted : HasEnded k code (endFaulted k code s) := by
  obtain ⟨h, r, ht⟩ := endFaulted_eq k code s
  have hmod : getPart (modPart (sendHalts (activeCores s k) s) k (endedPart code)) k = endedPart code (getPart s k) :=
    getPart_modPart_of_st _ k _ (by simp [endedPart])
  obtain ⟨l, hl⟩ := getPart_completeLong_long (s := modPart (sendHalts (activeCores s k) s) k (endedPart code)) code [] (by rw [hmod]; simp [endedPart])
  rw [hmod] at hl
  have hpart : getPart (endFaulted k code s) k = { endedPart code (getPart s k) with long := l } := by rw [ht]; exact hl
  rw [HasEnded, hpart]
  exact ⟨rfl, rfl, rfl⟩

theorem endFaulted_haltSent : (endFaulted k code s).haltSent = (sendHalts (activeCores s k) s).haltSent := by
  obtain ⟨h, r, ht⟩ := endFaulted_eq k code s
  rw [ht]
  exact completeLong_haltSent _ _ _ _

/-- A halt request that is on its way stays so at the end of a job. -/
theorem mem_haltSent_endFaulted {g : Nat} (h : g ∈ s.haltSent) : g ∈ (endFaulted k code s).haltSent := by
  rw [endFaulted_haltSent]
  exact List.mem_append_left _ h

theorem touchesPart_endOrWait : TouchesPart k s (endOrWait k code s) := by
  unfold endOrWait
  split
  · exact touchesPart_modPart k _ s
  · exact touchesPart_endFaulted k code s

end

-- Failures -------------------------------------------------------------------------------------------------------

/-- The module at the first failure of a job, before the job ends. -/
def firstFailure (det : List Nat) (stop : Bool) (peers : List Nat) (k code src loc sub : Nat) (s : State) : State :=
  let s1 := modPart s k (fun p => { p with fault := some ⟨code, src, loc, sub, BitVec.ofNat 48 (north s), 0, det⟩ })
  sendCtrl 4 k peers [code] (if stop then stopChans k (mapCtxs k (fun c => { c with st := .fault }) s1) else s1)

section
variable (det : List Nat) (stop : Bool) (peers : List Nat) (k code src loc sub : Nat) (s : State)

theorem touchesPart_firstFailure : TouchesPart k s (firstFailure det stop peers k code src loc sub s) := by
  unfold firstFailure
  refine TouchesPart.trans ?_ (touchesPart_sendCtrl k _ _ _ _ _)
  split
  · exact ((touchesPart_modPart k _ s).trans (touchesPart_mapCtxs k k _ _)).trans (touchesPart_stopChans k k _)
  · exact touchesPart_modPart k _ s

theorem touchesPart_recordDet : TouchesPart k s (recordDet det stop peers k code src loc sub s) := by
  have hfirst : TouchesPart k s (if (getPart s k).ends.isSome then modPart s k moreFaults
      else endOrWait k code (firstFailure det stop peers k code src loc sub s)) := by
    split
    · exact touchesPart_modPart k _ s
    · exact (touchesPart_firstFailure det stop peers k code src loc sub s).trans (touchesPart_endOrWait k code _)
  unfold recordDet
  dsimp only
  split
  case h_1 => exact touchesPart_modPart k _ s
  case h_2 =>
    split
    · exact touchesPart_modPart k _ s
    · exact TouchesPart.refl k s
  case h_6 => exact TouchesPart.refl k s
  all_goals exact hfirst

theorem touchesPart_endForPan (p : Nat) : TouchesPart k s (endForPan p k s) := by
  unfold endForPan
  dsimp only
  split
  case h_4 | h_5 =>
    split
    · split
      · exact ((touchesPart_modPart k _ s).trans (touchesPart_mapCtxs k k _ _)).trans (touchesPart_endFaulted k _ _)
      · exact TouchesPart.refl k s
    · exact TouchesPart.refl k s
  case h_6 => exact TouchesPart.refl k s
  all_goals exact touchesPart_recordDet _ _ _ _ _ _ _ _ _

/-- A failure of a running job whose end waits. -/
theorem recordDet_of_waiting (hst : (getPart s k).st = .running) (hends : (getPart s k).ends.isSome = true) :
    recordDet det stop peers k code src loc sub s = modPart s k moreFaults := by
  simp only [recordDet, hst, hends, if_true]

/-- The first failure of a running job. -/
theorem recordDet_of_running (hst : (getPart s k).st = .running) (hends : (getPart s k).ends = none) :
    recordDet det stop peers k code src loc sub s = endOrWait k code (firstFailure det stop peers k code src loc sub s) := by
  simp only [recordDet, hst, hends, Option.isSome_none, Bool.false_eq_true, if_false]
  rfl

end

-- Ends that have waited ------------------------------------------------------------------------------------------

theorem onlyEnds_endWaiting (s : State) : OnlyEnds s (endWaiting s) :=
  OnlyEnds.foldl (fun t kp => by
    split
    · exact (touchesPart_endFaulted _ _ t).only
    · exact OnlyEnds.refl t) _ s

section
variable {s : State} (hwf : s.tablesWf = true)
include hwf

/-- In canonical form what the table lists of a partition is how it reads. -/
theorem getPart_of_mem {kp : Nat × Part} (h : kp ∈ s.parts) : getPart s kp.1 = kp.2 :=
  tget_mem ((tablesWf_iff s).mp hwf).parts h

/-- With no end waiting nothing happens. -/
theorem endWaiting_of_no_end (h : ∀ k, (getPart s k).ends = none) : endWaiting s = s :=
  List.foldlRecOn (motive := fun t => t = s) s.parts _ rfl fun t ht kp hkp => by
    rw [← getPart_of_mem hwf hkp, h, ht]

/-- A partition whose end does not wait is left as it is. -/
theorem getPart_endWaiting_of_none {k : Nat} (h : (getPart s k).ends = none) : getPart (endWaiting s) k = getPart s k :=
  List.foldlRecOn (motive := fun t => getPart t k = getPart s k) s.parts _ rfl fun t ht kp hkp => by
    split
    · next code hcode =>
      have hk : k ≠ kp.1 := by
        rintro rfl
        rw [getPart_of_mem hwf hkp, hcode] at h
        cases h
      rw [(touchesPart_endFaulted kp.1 code t).others k hk, ht]
    · exact ht

/-- A partition whose end has waited ends with its code, and its cores are sent halt requests. -/
theorem endWaiting_of_some {k code : Nat} (h : (getPart s k).ends = some code) :
    HasEnded k code (endWaiting s) ∧ ∀ g ∈ activeCores s k, g ∈ (endWaiting s).haltSent := by
  have hmem : (k, getPart s k) ∈ s.parts := mem_of_tget_ne fun hz : getPart s k = Part.zero => by rw [hz] at h; cases h
  have hsame : ∀ kp ∈ s.parts, kp.1 = k → kp.2.ends = some code := fun kp hkp hk => by rw [← getPart_of_mem hwf hkp, hk, h]
  have hends : ∀ t, OnlyEnds s t →
      HasEnded k code (endFaulted k code t) ∧ ∀ g ∈ activeCores s k, g ∈ (endFaulted k code t).haltSent := fun t ht => by
    refine ⟨hasEnded_endFaulted k code t, fun g hg => ?_⟩
    rw [endFaulted_haltSent, ← List.contains_iff_mem]
    exact contains_sendHalts t (by rwa [ht.activeCores])
  unfold endWaiting
  refine (foldl_of_mem (I := OnlyEnds s)
    (P := fun t => OnlyEnds s t ∧ HasEnded k code t ∧ ∀ g ∈ activeCores s k, g ∈ t.haltSent) hmem (OnlyEnds.refl s) ?_ ?_ ?_).2
  · intro t kp _ ht
    split
    · exact ht.trans (touchesPart_endFaulted _ _ t).only
    · exact ht
  · intro t ht
    rw [h]
    exact ⟨ht.trans (touchesPart_endFaulted k code t).only, hends t ht⟩
  · intro t kp hkp ⟨ht, hended, hsent⟩
    split
    · next c hc =>
      refine ⟨ht.trans (touchesPart_endFaulted _ _ t).only, ?_⟩
      by_cases hk : kp.1 = k
      · rw [hsame kp hkp hk, Option.some.injEq] at hc
        rw [hk, ← hc]
        exact hends t ht
      · refine ⟨?_, fun g hg => mem_haltSent_endFaulted _ _ t (hsent g hg)⟩
        rw [HasEnded, (touchesPart_endFaulted kp.1 c t).others k (Ne.symm hk)]
        exact hended
    · exact ⟨ht, hended, hsent⟩

end

end Sys2Proof.Machine
end

section
/-! O44, HOLD: raised and released, the cores that it freezes, the job ends that wait for its release, and a node that declares a sender dead (02 R40;
10 R250 to R254; 17 R430; 19 R467). -/

namespace Sys2Proof.Machine

open Sys2Proof.Claims

-- Freezing and releasing cores -----------------------------------------------------------------------------------

/-- A frozen core that ran is held; its registers are as they were. -/
theorem getCore_freeze {s : State} (hwf : twf Core.zero s.cores = true) (g : Nat) :
    (getCore (freeze (fun _ => true) s) g).r.st = (if (getCore s g).r.st = .run then .hold else (getCore s g).r.st) ∧
      (getCore (freeze (fun _ => true) s) g).s = (getCore s g).s := by
  rw [freeze, getCore_mapCores hwf (fun _ => rfl), if_pos rfl]
  split
  · next h => simp [h]
  · next h => simp [h]
  · next h _ => rw [if_neg h]; exact ⟨rfl, rfl⟩

/-- A held core whose partition is not held runs on at the release, if no halt request waits at it; another core stays as it was. -/
theorem getCore_thaw {s : State} (hwf : twf Core.zero s.cores = true) (hfree : s.tide.frozen = false) {g : Nat} (hreq : (getCore s g).x.haltReq = false) :
    (getCore (thaw (fun _ => true) s) g).r.st =
      (if (getCore s g).r.st = .hold ∧ partHeld s g = false then .run else (getCore s g).r.st) := by
  have hz : (true && decide (Core.zero.r.st = .hold) && !partHeld s g) = false := rfl
  rw [thaw, hfree, if_neg Bool.false_ne_true, getCore_mapCores hwf (fun h => by rw [hz] at h; cases h), hreq]
  by_cases hst : (getCore s g).r.st = .hold <;> cases hp : partHeld s g <;> simp [hst]

-- HOLD at the nodes ----------------------------------------------------------------------------------------------

theorem exec_holdRaise {s : State} (hhold : s.tide.hold = true) (hfree : s.tide.frozen = false) :
    exec .holdRaise s = .next (freeze (fun _ => true) { s with tide := { s.tide with frozen := true } }) := by
  rw [show exec .holdRaise s = execHoldRaise s from rfl, execHoldRaise, hhold, hfree]
  rfl

/-- The module that the release of HOLD has reached, before its cores run on. -/
def released (s : State) : State :=
  { s with
    tide := { s.tide with frozen := false, relAt := some s.time }
    nodes := tmapv Node.zero (fun _ x => { x with release := false }) s.nodes }

theorem exec_holdRelease {s : State} (hhold : s.tide.hold = false) (hfrozen : s.tide.frozen = true) :
    exec .holdRelease s = .next (endWaiting (thaw (fun _ => true) (released s))) := by
  rw [show exec .holdRelease s = execHoldRelease s from rfl, execHoldRelease, hhold, hfrozen]
  rfl

-- A sender that is declared dead ---------------------------------------------------------------------------------

/-- Whether HOLD was released at the nodes in the last 2 µs (10 R253). -/
def releasedLately (s : State) : Bool :=
  match s.tide.relAt with
  | some r => decide (s.time < r + 2000000)
  | none => false

theorem releasedLately_iff (s : State) : releasedLately s = true ↔ ∃ r, s.tide.relAt = some r ∧ s.time < r + 2000000 := by
  unfold releasedLately
  cases s.tide.relAt with
  | none => simp
  | some r => simp

section
variable (s : State) (x : Fin 384)

/-- The receiver and the sender of a sluice entry. -/
def receiverOf : Nat := (x : Nat) / 4
def senderOf : Nat := sluiceSender (receiverOf x) ((x : Nat) % 4)

/-- Whether the rim sender of an entry has waited for the crossing out to it. -/
def waitsOutward : Bool := decide (96 ≤ senderOf x) && waitsFor s x (senderOf x) (receiverOf x)

/-- HOLD raised for an entry whose sender is declared dead. -/
def deadEntry : State :=
  raiseHold 1 (receiverOf x + (x : Nat) % 4 * 128) (setSluice s x { getSluice s x with dead := true })

/-- What follows for the node that is dead: a pan's breaker is commanded open, a rim segment ends every job. -/
def deadSender (q : Nat) : State :=
  if q < 96 then modPwr (deadEntry s x) q (fun p => if p.why = 0 then { p with why := 2 } else p)
  else (deadEntry s x).parts.foldl (fun s kp => recordFault kp.1 stPanDark 7 (receiverOf x) 0 false s) (deadEntry s x)

/-- SLUICE_DEAD by what stops it, and by who is dead. -/
theorem exec_sluiceDead : exec (.sluiceDead x) s = .next
    (if s.tide.hold || s.tide.frozen || releasedLately s || (getSluice s x).dead ||
        !(waitsFor s x (receiverOf x) (senderOf x) || waitsOutward s x) then s
      else deadSender s x (if waitsFor s x (receiverOf x) (senderOf x) then senderOf x else receiverOf x)) := rfl

variable {s x}

/-- While HOLD stands or was released lately, or with nothing awaited, no sender is dead. -/
theorem exec_sluiceDead_of_stopped (h : s.tide.hold = true ∨ s.tide.frozen = true ∨ (getSluice s x).dead = true ∨ releasedLately s = true ∨
    (waitsFor s x (receiverOf x) (senderOf x) = false ∧ waitsOutward s x = false)) : exec (.sluiceDead x) s = .next s := by
  rw [exec_sluiceDead, if_pos]
  rcases h with h | h | h | h | ⟨h, h'⟩
  · simp [h]
  · simp [h]
  · simp [h]
  · simp [h]
  · simp [h, h']

section
variable (hhold : s.tide.hold = false) (hfree : s.tide.frozen = false) (hdead : (getSluice s x).dead = false) (hlate : releasedLately s = false)
include hhold hfree hdead hlate

/-- A receiver that has waited declares its sender dead. -/
theorem exec_sluiceDead_of_receiver (hin : waitsFor s x (receiverOf x) (senderOf x) = true) :
    exec (.sluiceDead x) s = .next (deadSender s x (senderOf x)) := by
  rw [exec_sluiceDead, hhold, hfree, hdead, hlate, hin]
  rfl

/-- A rim sender that has waited declares the pan dead. -/
theorem exec_sluiceDead_of_rim (hin : waitsFor s x (receiverOf x) (senderOf x) = false) (hout : waitsOutward s x = true) :
    exec (.sluiceDead x) s = .next (deadSender s x (receiverOf x)) := by
  rw [exec_sluiceDead, hhold, hfree, hdead, hlate, hin, hout]
  rfl

end

/-- A dead pan's breaker is commanded open. -/
theorem deadSender_of_pan {q : Nat} (h : q < 96) :
    deadSender s x q = modPwr (deadEntry s x) q (fun p => if p.why = 0 then { p with why := 2 } else p) := if_pos h

/-- A dead rim segment ends every job. -/
theorem deadSender_of_rim {q : Nat} (h : 96 ≤ q) : deadSender s x q =
    (deadEntry s x).parts.foldl (fun s kp => recordFault kp.1 stPanDark 7 (receiverOf x) 0 false s) (deadEntry s x) :=
  if_neg (Nat.not_lt.mpr h)

end

theorem hold_stops_the_wafer : Claims.HoldStopsTheWafer := by
  intro s x t held n m s1 dead out
  refine ⟨rfl, rfl, fun hhold hfree hwf => ?_, fun hhold hfrozen hwf => ?_, fun hwf => ?_, fun hstop => ?_,
    fun hhold hfree hdead hrel => ?_⟩
  · exact ⟨_, exec_holdRaise hhold hfree, rfl, getCore_freeze (s := { s with tide := { t with frozen := true } }) ((tablesWf_iff s).mp hwf).cores⟩
  · obtain ⟨cs, hthaw⟩ := thaw_frame (fun _ => true) (released s)
    refine ⟨_, exec_holdRelease hhold hfrozen, by rw [hthaw]; rfl, by rw [hthaw]; rfl, fun n => ?_, fun g hreq => ?_⟩
    · rw [hthaw]
      exact tget_tmapv Node.zero (fun _ x => { x with release := false }) s.nodes n ((tablesWf_iff s).mp hwf).nodes rfl
    · exact getCore_thaw (s := released s) ((tablesWf_iff s).mp hwf).cores rfl hreq
  · refine ⟨(onlyEnds_endWaiting s).cores, endWaiting_of_no_end hwf, fun k => ⟨getPart_endWaiting_of_none hwf, fun code hcode => ?_⟩⟩
    obtain ⟨⟨hst, hend, hnone⟩, hsent⟩ := endWaiting_of_some hwf hcode
    exact ⟨hst, hend, hnone, hsent⟩
  · rw [← releasedLately_iff] at hstop
    exact exec_sluiceDead_of_stopped hstop
  · have hlate : releasedLately s = false := by
      rw [← Bool.not_eq_true, releasedLately_iff]
      rintro ⟨r, hr, hlt⟩
      exact Nat.not_le.mpr hlt (hrel r hr)
    have hpan : receiverOf x < 96 := by have := x.isLt; unfold receiverOf; omega
    refine ⟨fun hin hm => ?_, fun hin hm => ?_, fun hin hout => ?_⟩
    · exact (exec_sluiceDead_of_receiver hhold hfree hdead hlate hin).trans (congrArg Host.Outcome.next (deadSender_of_pan hm))
    · exact (exec_sluiceDead_of_receiver hhold hfree hdead hlate hin).trans (congrArg Host.Outcome.next (deadSender_of_rim hm))
    · exact (exec_sluiceDead_of_rim hhold hfree hdead hlate hin hout).trans (congrArg Host.Outcome.next (deadSender_of_pan hpan))

end Sys2Proof.Machine
end

section
/-! O44, pans: what commands a breaker open, a pan that leaves the tide, and the module trip (10 R250, R255, R256; 16 Table 16-8; 17 R429, R430,
R433, R437 to R439; 19 R464). -/

namespace Sys2Proof.Machine

open Sys2Proof.Claims

-- A pan's stage --------------------------------------------------------------------------------------------------

/-- A stage that is not as at reset reads back as written, in whatever order the table lists its keys. -/
theorem getPwr_setPwr_of_ne (s : State) (p : Nat) {x : PanPwr} (h : x ≠ PanPwr.zero) : getPwr (setPwr s p x) p = x :=
  tget_tset_of_ne PanPwr.zero s.power.pans p x h

theorem getPwr_setPwr_ne (s : State) (p q : Nat) (x : PanPwr) (h : q ≠ p) : getPwr (setPwr s p x) q = getPwr s q :=
  tget_tset_ne PanPwr.zero s.power.pans p q x h

theorem ne_zero_of_why {x : PanPwr} (h : x.why ≠ 0) : x ≠ PanPwr.zero := by rintro rfl; exact h rfl

-- Leaving the tide -----------------------------------------------------------------------------------------------

/-- Both directions of a sluice entry dropped. -/
def emptiedSluice (i : Nat) (s : State) : State :=
  if (getSluice s i).held.isEmpty && (getSluice s i).out.isEmpty then s else setSluice s i { getSluice s i with held := [], out := [] }

/-- What a sluice entry holds dropped. -/
def droppedSluice (i : Nat) (s : State) : State :=
  if (getSluice s i).held.isEmpty then s else setSluice s i { getSluice s i with held := [] }

/-- Side k of a pan that leaves the tide: its entry, and its neighbour's from it. -/
def leaveSide (p : Nat) (s : State) (k : Nat) : State :=
  if sluiceSender p k < 96 then droppedSluice (4 * sluiceSender p k + (k + 2) % 4) (emptiedSluice (4 * p + k) s)
  else emptiedSluice (4 * p + k) s

/-- The module without a pan in its tide, before the sluices empty. -/
def outOfTide (p : Nat) (s : State) : State :=
  let s0 := { s with tide := { s.tide with live := s.tide.live &&& ~~~ BitVec.ofNat 96 (2 ^ p) } }
  settlePend (setNode s0 p { getNode s0 p with sched := none })

theorem leaveTide_of_live {p : Nat} {s : State} (h : panLive s p = true) : leaveTide p s = (List.range 4).foldl (leaveSide p) (outOfTide p s) := by
  unfold leaveTide
  rw [h]
  rfl

theorem leaveTide_of_dark {p : Nat} {s : State} (h : panLive s p = false) : leaveTide p s = s := by
  unfold leaveTide
  rw [h]
  rfl

theorem leaveSide_frame (p k : Nat) (s : State) : ∃ sl, leaveSide p s k = { s with sluices := sl } := by
  have hempty : ∃ sl, emptiedSluice (4 * p + k) s = { s with sluices := sl } := by
    unfold emptiedSluice
    split <;> exact ⟨_, rfl⟩
  obtain ⟨sl, hsl⟩ := hempty
  unfold leaveSide droppedSluice
  rw [hsl]
  split
  · split <;> exact ⟨_, rfl⟩
  · exact ⟨_, rfl⟩

theorem outOfTide_frame (p : Nat) (s : State) : ∃ pe ns, outOfTide p s =
    { s with nodes := ns, tide := { s.tide with live := s.tide.live &&& ~~~ BitVec.ofNat 96 (2 ^ p), pend := pe } } := by
  unfold outOfTide settlePend
  dsimp only
  split <;> exact ⟨_, _, rfl⟩

/-- The live pans once one of them has left. -/
theorem getLsbD_without (live : BitVec 96) (p q : Nat) :
    (live &&& ~~~ BitVec.ofNat 96 (2 ^ p)).getLsbD q = (live.getLsbD q && !decide (q = p)) := by
  rw [BitVec.getLsbD_and, BitVec.getLsbD_not, BitVec.getLsbD_ofNat, Nat.testBit_two_pow]
  by_cases hq : q < 96
  · simp [hq, eq_comm]
  · simp [BitVec.getLsbD_of_ge live q (by omega)]

/-- Leaving the tide touches the nodes, the sluices, the live pans and the pending change alone. -/
theorem leaveTide_frame (p : Nat) (s : State) : ∃ pe ns sl, leaveTide p s =
    { s with nodes := ns, sluices := sl, tide := { s.tide with live := s.tide.live &&& ~~~ BitVec.ofNat 96 (2 ^ p), pend := pe } } := by
  cases hlive : panLive s p with
  | false =>
    have hsame : s.tide.live &&& ~~~ BitVec.ofNat 96 (2 ^ p) = s.tide.live := BitVec.eq_of_getLsbD_eq fun q _ => by
      rw [getLsbD_without]
      by_cases hq : q = p
      · rw [hq, show s.tide.live.getLsbD p = false from hlive, Bool.false_and]
      · simp [hq]
    exact ⟨_, _, _, by rw [leaveTide_of_dark hlive, hsame]⟩
  | true =>
    obtain ⟨pe, ns, hout⟩ := outOfTide_frame p s
    rw [leaveTide_of_live hlive]
    obtain ⟨sl, hsl⟩ := List.foldlRecOn (motive := fun t : State => ∃ sl, t = { outOfTide p s with sluices := sl }) (List.range 4)
      (leaveSide p) ⟨_, rfl⟩ fun t ⟨sl, ht⟩ k _ => by
        obtain ⟨sl', hk⟩ := leaveSide_frame p k t
        exact ⟨sl', by rw [hk, ht]⟩
    exact ⟨pe, ns, sl, by rw [hsl, hout]⟩

theorem panLive_leaveTide (p q : Nat) (s : State) : panLive (leaveTide p s) q = (panLive s q && !decide (q = p)) := by
  obtain ⟨_, _, _, h⟩ := leaveTide_frame p s
  rw [h]
  exact getLsbD_without s.tide.live p q

/-- A table of sluices in canonical form, with an entry that holds nothing. -/
def HoldsNothing (i : Nat) (s : State) : Prop := twf Sluice.zero s.sluices = true ∧ (getSluice s i).held = []

/-- A write of an entry that holds nothing. -/
theorem held_setSluice {i j : Nat} {s : State} {x : Sluice} (hwf : twf Sluice.zero s.sluices = true) (hx : x.held = [])
    (h : i = j ∨ (getSluice s i).held = []) : HoldsNothing i (setSluice s j x) := by
  refine ⟨twf_tset _ _ _ _ hwf, ?_⟩
  by_cases hij : i = j
  · rw [hij, show getSluice (setSluice s j x) j = x from tget_tset_same Sluice.zero s.sluices j x hwf, hx]
  · rw [show getSluice (setSluice s j x) i = getSluice s i from tget_tset_ne Sluice.zero s.sluices j i x hij]
    exact h.resolve_left hij

theorem HoldsNothing.dropped {i : Nat} {s : State} (h : HoldsNothing i s) (j : Nat) : HoldsNothing i (droppedSluice j s) := by
  unfold droppedSluice
  split
  · exact h
  · exact held_setSluice h.1 rfl (.inr h.2)

theorem HoldsNothing.emptied {i : Nat} {s : State} (h : HoldsNothing i s) (j : Nat) : HoldsNothing i (emptiedSluice j s) := by
  unfold emptiedSluice
  split
  · exact h
  · exact held_setSluice h.1 rfl (.inr h.2)

theorem holdsNothing_emptied {i : Nat} {s : State} (hwf : twf Sluice.zero s.sluices = true) : HoldsNothing i (emptiedSluice i s) := by
  unfold emptiedSluice
  split
  · next h =>
    rw [Bool.and_eq_true, List.isEmpty_iff, List.isEmpty_iff] at h
    exact ⟨hwf, h.1⟩
  · exact held_setSluice hwf rfl (.inl rfl)

theorem HoldsNothing.leaveSide {i : Nat} {s : State} (h : HoldsNothing i s) (p k : Nat) : HoldsNothing i (leaveSide p s k) := by
  unfold Machine.leaveSide
  split
  · exact (h.emptied _).dropped _
  · exact h.emptied _

theorem holdsNothing_leaveSide {s : State} (hwf : twf Sluice.zero s.sluices = true) (p k : Nat) : HoldsNothing (4 * p + k) (leaveSide p s k) := by
  unfold leaveSide
  split
  · exact (holdsNothing_emptied hwf).dropped _
  · exact holdsNothing_emptied hwf

theorem twf_sluices_leaveSide {s : State} (hwf : twf Sluice.zero s.sluices = true) (p k : Nat) :
    twf Sluice.zero (leaveSide p s k).sluices = true := (holdsNothing_leaveSide hwf p k).1

/-- The sluices into a pan that has left hold nothing. -/
theorem held_leaveTide {p k : Nat} {s : State} (hlive : panLive s p = true) (hwf : s.tablesWf = true) (hk : k < 4) :
    (getSluice (leaveTide p s) (4 * p + k)).held = [] := by
  have hsluices : twf Sluice.zero (outOfTide p s).sluices = true := by
    obtain ⟨_, _, h⟩ := outOfTide_frame p s
    rw [h]
    exact ((tablesWf_iff s).mp hwf).sluices
  rw [leaveTide_of_live hlive]
  exact (foldl_of_mem (I := fun t : State => twf Sluice.zero t.sluices = true) (P := HoldsNothing (4 * p + k)) (List.mem_range.mpr hk)
    hsluices (fun t j _ ht => twf_sluices_leaveSide ht p j) (fun t ht => holdsNothing_leaveSide ht p k) fun t j _ ht => ht.leaveSide p j).2

-- The module trip ------------------------------------------------------------------------------------------------

/-- A pan whose breaker is open. -/
def cutOff (x : PanPwr) : PanPwr := { x with brk := true, mv := 0, amp := 0 }

/-- The module at its trip, with HOLD raised. -/
def tripBegun (s : State) : State := raiseHold 4 0x7F { s with power := { s.power with modTrip := true } }

/-- The module at its trip, with every breaker open. -/
def trippedPans (s : State) : State := (List.range 96).foldl (fun s p => modPwr s p cutOff) (tripBegun s)

/-- The jobs of the module at its trip have ended, or wait to end. -/
def trippedJobs (s : State) : State := (trippedPans s).parts.foldl (fun s kp => endForPan 0x7F kp.1 s) (trippedPans s)

theorem modTrip_of_tripped {s : State} (h : s.power.modTrip = true) : modTrip s = s := if_pos h

/-- t is s but for what was told. -/
def OnlySaid (s t : State) : Prop := ∃ h sd, t = { s with host := h, said := sd }

section
variable {s t : State} (h : OnlySaid s t)
include h

theorem OnlySaid.cores : t.cores = s.cores := by
  obtain ⟨_, _, rfl⟩ := h
  rfl

theorem OnlySaid.tide : t.tide = s.tide := by
  obtain ⟨_, _, rfl⟩ := h
  rfl

theorem OnlySaid.parts : t.parts = s.parts := by
  obtain ⟨_, _, rfl⟩ := h
  rfl

theorem OnlySaid.power : t.power = s.power := by
  obtain ⟨_, _, rfl⟩ := h
  rfl

end

theorem modTrip_of_first {s : State} (h : s.power.modTrip = false) : OnlySaid (allLost (endWaiting (trippedJobs s))) (modTrip s) := by
  have hrun : modTrip s = pldm 4 0 (postAlarm 4 (allLost (endWaiting (trippedJobs s)))) := if_neg (by rw [h]; decide)
  rw [hrun]
  exact pldm_postAlarm_frame 4 0 4 _

theorem trippedPans_frame (s : State) : ∃ ps, trippedPans s = { tripBegun s with power := { s.power with modTrip := true, pans := ps } } :=
  List.foldlRecOn (motive := fun t : State => ∃ ps, t = { tripBegun s with power := { s.power with modTrip := true, pans := ps } })
    (List.range 96) _ ⟨_, rfl⟩ fun t ⟨ps, ht⟩ p _ => by
      subst ht
      exact ⟨_, rfl⟩

/-- At the module trip every breaker is open and every rail reads 0. -/
theorem getPwr_trippedPans (s : State) {q : Nat} (hq : q < 96) :
    (getPwr (trippedPans s) q).brk = true ∧ (getPwr (trippedPans s) q).mv = 0 ∧ (getPwr (trippedPans s) q).amp = 0 := by
  have hcut : ∀ t : State, getPwr (modPwr t q cutOff) q = cutOff (getPwr t q) := fun t =>
    getPwr_setPwr_of_ne t q fun hz => by cases congrArg PanPwr.brk hz
  refine foldl_of_mem (I := fun _ => True)
    (P := fun t : State => (getPwr t q).brk = true ∧ (getPwr t q).mv = 0 ∧ (getPwr t q).amp = 0) (List.mem_range.mpr hq) trivial
    (fun _ _ _ _ => trivial) (fun t _ => ?_) fun t p _ ht => ?_
  · rw [hcut]
    exact ⟨rfl, rfl, rfl⟩
  · by_cases hp : q = p
    · rw [← hp, hcut]
      exact ⟨rfl, rfl, rfl⟩
    · rw [modPwr, getPwr_setPwr_ne _ _ _ _ hp]
      exact ht

theorem onlyEnds_trippedJobs (s : State) : OnlyEnds (trippedPans s) (trippedJobs s) :=
  OnlyEnds.foldl (fun t (kp : Nat × Part) => (touchesPart_endForPan kp.1 t 0x7F).only) _ _

theorem trippedJobs_wf {s : State} (hwf : s.tablesWf = true) : (trippedJobs s).tablesWf = true := by
  have hpans : Keeps s (trippedPans s) := keeps_foldl (fun t p => modPwr_keeps p cutOff) (raiseHold_keeps 4 0x7F (keeps_mk (Keeps.refl s)))
  have hjobs : Keeps s (trippedJobs s) := keeps_foldl (fun t (kp : Nat × Part) => endForPan_keeps 0x7F kp.1) hpans
  exact (tablesWf_iff _).mpr (hjobs.canon ((tablesWf_iff s).mp hwf))

section
variable {s : State} {k p : Nat}

theorem endForPan_of_running (hst : (getPart s k).st = .running) : endForPan p k s = recordFault k stPanDark 7 p 0 false s := by
  simp only [endForPan, hst]

/-- A dark pan leaves a job whose end waits to end with its own code. -/
theorem endForPan_of_waiting {c : Nat} (hst : (getPart s k).st = .running) (hends : (getPart s k).ends = some c) :
    (getPart (endForPan p k s) k).st = .running ∧ (getPart (endForPan p k s) k).ends = some c := by
  have hpart : getPart (endForPan p k s) k = moreFaults (getPart s k) := by
    rw [endForPan_of_running hst, recordFault, recordWith, recordDet_of_waiting _ _ _ _ _ _ _ _ _ hst (by rw [hends]; rfl)]
    exact getPart_modPart_of_st s k moreFaults (by rw [show (moreFaults (getPart s k)).st = (getPart s k).st from rfl, hst]; decide)
  rw [hpart]
  exact ⟨hst, hends⟩

/-- After a module trip a dark pan ends a running job at once. -/
theorem hasEnded_endForPan (htrip : s.power.modTrip = true) (hst : (getPart s k).st = .running) (hends : (getPart s k).ends = none) :
    HasEnded k stPanDark (endForPan p k s) := by
  rw [endForPan_of_running hst, recordFault, recordWith, recordDet_of_running _ _ _ _ _ _ _ _ _ hst hends, endOrWait,
    (touchesPart_firstFailure ..).only.power, htrip, Bool.not_true, Bool.and_false, if_neg Bool.false_ne_true]
  exact hasEnded_endFaulted k stPanDark _

/-- A job that has ended is left by a dark pan as it is. -/
theorem hasEnded_of_endForPan {code : Nat} (h : HasEnded k code s) : HasEnded k code (endForPan p k s) := by
  have hsame : endForPan p k s = s := by simp only [endForPan, h.1]
  rwa [hsame]

end

section
variable {s : State} {k : Nat}

theorem getPart_trippedPans (s : State) (k : Nat) : getPart (trippedPans s) k = getPart s k := by
  obtain ⟨ps, h⟩ := trippedPans_frame s
  rw [h]
  rfl

/-- A running job whose end waits still waits with its own code. -/
theorem ends_trippedJobs {c : Nat} (hst : (getPart s k).st = .running) (hends : (getPart s k).ends = some c) :
    (getPart (trippedJobs s) k).ends = some c := by
  rw [← getPart_trippedPans] at hst hends
  refine (List.foldlRecOn (motive := fun t => (getPart t k).st = .running ∧ (getPart t k).ends = some c) (trippedPans s).parts _
    ⟨hst, hends⟩ fun t ht kp _ => ?_).2
  by_cases hk : k = kp.1
  · subst hk
    exact endForPan_of_waiting ht.1 ht.2
  · rw [(touchesPart_endForPan kp.1 t 0x7F).others k hk]
    exact ht

/-- A running job whose end does not wait has ended. -/
theorem hasEnded_trippedJobs (hst : (getPart s k).st = .running) (hends : (getPart s k).ends = none) :
    HasEnded k stPanDark (trippedJobs s) := by
  have htrip : (trippedPans s).power.modTrip = true := by
    obtain ⟨ps, h⟩ := trippedPans_frame s
    rw [h]
  rw [← getPart_trippedPans] at hst hends
  have hmem : (k, getPart (trippedPans s) k) ∈ (trippedPans s).parts :=
    mem_of_tget_ne fun hz : getPart (trippedPans s) k = Part.zero => by rw [hz] at hst; cases hst
  have hothers : ∀ t j, k ≠ j → HasEnded k stPanDark t → HasEnded k stPanDark (endForPan 0x7F j t) := fun t j hk ht => by
    rw [HasEnded, (touchesPart_endForPan j t 0x7F).others k hk]
    exact ht
  have hself : ∀ t : State, t.power.modTrip = true →
      ((getPart t k).st = .running ∧ (getPart t k).ends = none) ∨ HasEnded k stPanDark t → HasEnded k stPanDark (endForPan 0x7F k t) :=
    fun t htrip ht => ht.elim (fun hrun => hasEnded_endForPan htrip hrun.1 hrun.2) hasEnded_of_endForPan
  refine foldl_of_mem (I := fun t : State => t.power.modTrip = true ∧
      (((getPart t k).st = .running ∧ (getPart t k).ends = none) ∨ HasEnded k stPanDark t))
    hmem ⟨htrip, .inl ⟨hst, hends⟩⟩ (fun t kp _ ⟨htrip, ht⟩ => ?_) (fun t ⟨htrip, ht⟩ => hself t htrip ht) fun t kp _ ht => ?_
  · refine ⟨by rw [(touchesPart_endForPan kp.1 t 0x7F).only.power, htrip], ?_⟩
    by_cases hk : k = kp.1
    · subst hk
      exact .inr (hself t htrip ht)
    · exact ht.imp (fun hrun => by rwa [(touchesPart_endForPan kp.1 t 0x7F).others k hk]) (hothers t kp.1 hk)
  · by_cases hk : k = kp.1
    · subst hk
      exact hasEnded_of_endForPan ht
    · exact hothers t kp.1 hk ht

/-- A running job ends at the module trip, with the code it waited to end with if its end waited. -/
theorem hasEnded_at_trip (hwf : s.tablesWf = true) (hst : (getPart s k).st = .running) :
    HasEnded k ((getPart s k).ends.getD stPanDark) (endWaiting (trippedJobs s)) := by
  cases hends : (getPart s k).ends with
  | some c => exact (endWaiting_of_some (trippedJobs_wf hwf) (ends_trippedJobs hst hends)).1
  | none =>
    have hended := hasEnded_trippedJobs hst hends
    rw [HasEnded, getPart_endWaiting_of_none (trippedJobs_wf hwf) hended.2.2]
    exact hended

end

/-- What the ends of the jobs leave at the module trip. -/
theorem onlyEnds_at_trip (s : State) : OnlyEnds (trippedPans s) (endWaiting (trippedJobs s)) :=
  (onlyEnds_trippedJobs s).trans (onlyEnds_endWaiting _)

/-- A core that has lost power: cleared, but for a DEFECT one. -/
def lostCore (c : Core) : Core := if c.r.st = .defect then c else Core.zero

theorem getCore_allLost {s : State} (hwf : twf Core.zero s.cores = true) (g : Nat) : getCore (allLost s) g = lostCore (getCore s g) :=
  getCore_mapCores hwf (p := fun _ _ => true) (f := fun _ => lostCore) fun _ => rfl

theorem getCore_panLost {s : State} (hwf : twf Core.zero s.cores = true) (p g : Nat) :
    getCore (panLost p s) g = if panOf g = p then lostCore (getCore s g) else getCore s g := by
  have h := getCore_mapCores hwf (p := fun g _ => decide (panOf g = p)) (f := fun _ => lostCore) (g := g) fun _ => rfl
  simp only [decide_eq_true_eq] at h
  exact h

theorem allLost_power (s : State) : (allLost s).power = s.power := rfl

theorem allLost_tide (s : State) : (allLost s).tide = s.tide := rfl

theorem allLost_parts (s : State) : (allLost s).parts = s.parts := rfl

section
variable {s : State} (hfirst : s.power.modTrip = false)
include hfirst

theorem modTrip_power_of_first : (modTrip s).power = (trippedPans s).power :=
  ((modTrip_of_first hfirst).power.trans (allLost_power _)).trans (onlyEnds_at_trip s).power

/-- HOLD stands with cause 4 after the module trip. -/
theorem modTrip_tide : (modTrip s).tide = { (tripBegun s).tide with jobRate := (modTrip s).tide.jobRate } := by
  obtain ⟨ps, hps⟩ := trippedPans_frame s
  have htide : (trippedPans s).tide = (tripBegun s).tide := by rw [hps]
  rw [(modTrip_of_first hfirst).tide, allLost_tide, ← htide]
  exact (onlyEnds_at_trip s).tide

theorem getCore_modTrip (hwf : s.tablesWf = true) (g : Nat) : getCore (modTrip s) g = lostCore (getCore s g) := by
  obtain ⟨ps, hps⟩ := trippedPans_frame s
  have hpans : (trippedPans s).cores = s.cores := by
    rw [hps]
    rfl
  have hcores : (endWaiting (trippedJobs s)).cores = s.cores := (onlyEnds_at_trip s).cores.trans hpans
  have hlost := getCore_allLost (s := endWaiting (trippedJobs s)) (by rw [hcores]; exact ((tablesWf_iff s).mp hwf).cores) g
  rw [getCore, (modTrip_of_first hfirst).cores, ← getCore, hlost, getCore, hcores, getCore]

theorem getPart_modTrip (k : Nat) : getPart (modTrip s) k = getPart (endWaiting (trippedJobs s)) k := by
  rw [getPart, (modTrip_of_first hfirst).parts, allLost_parts, getPart]

end

/-- A module trip sets its mark, and of the power tree touches besides the stages alone. -/
theorem modTrip_power (s : State) : ∃ ps, (modTrip s).power = { s.power with modTrip := true, pans := ps } := by
  cases htrip : s.power.modTrip with
  | true =>
    rw [modTrip_of_tripped htrip, ← htrip]
    exact ⟨_, rfl⟩
  | false =>
    obtain ⟨ps, hps⟩ := trippedPans_frame s
    exact ⟨ps, by rw [modTrip_power_of_first htrip, hps]⟩

-- Commands to open a breaker -------------------------------------------------------------------------------------

/-- A stage after a trip of its pan. -/
def trippedStage (x : PanPwr) : PanPwr := { x with why := if x.why = 0 then 3 else x.why, trip := true }

theorem trippedStage_again {x : PanPwr} (h : x.trip = true) : trippedStage x = if x.why = 0 then { x with why := 3 } else x := by
  unfold trippedStage
  rw [← h]
  split <;> rfl

/-- A pan that trips: HOLD is raised and its breaker commanded open. -/
def panTripped (s : State) (p : Nat) : State := raiseHold 3 p (setPwr s p (trippedStage (getPwr s p)))

/-- The pan's first trip counts. -/
def countedTrip (s : State) (p : Nat) : State :=
  { panTripped s p with power := { (panTripped s p).power with trips := min 4 (s.power.trips + 1) } }

/-- PAN_TRIP by whether the pan is dark, has tripped before, and is the fourth to trip. -/
theorem exec_panTrip (s : State) (p : Fin 96) : exec (.panTrip p) s = .next
    (if 2 ≤ (getPwr s p).st then s else if (getPwr s p).trip then panTripped s p
      else if min 4 (s.power.trips + 1) = 4 then modTrip (countedTrip s p) else countedTrip s p) := rfl

theorem getPwr_countedTrip (s : State) (p : Nat) : getPwr (countedTrip s p) p = trippedStage (getPwr s p) :=
  getPwr_setPwr_of_ne s p fun hz => by cases congrArg PanPwr.trip hz

theorem exec_panCtrlOff_of_hot {s : State} {p : Fin 96} (hhot : (getPwr s p).hot = true) (hwhy : (getPwr s p).why = 0) (hst : (getPwr s p).st < 2)
    (honly : ∀ k ∈ involved s p, (getPan s p).part = some k) :
    exec (.panCtrlOff p) s = .next (raiseHold 0 0x7F (setPwr s p { getPwr s p with why := 4 })) := by
  have hall : (involved s p).all (fun k => decide ((getPan s p).part = some k)) = true :=
    List.all_eq_true.mpr fun k hk => decide_eq_true (honly k hk)
  have hcond : ((getPwr s p).hot && (involved s p).all (fun k => decide ((getPan s p).part = some k)) && decide ((getPwr s p).why = 0) &&
      decide ((getPwr s p).st < 2)) = true := by
    rw [hhot, hall, decide_eq_true hwhy, decide_eq_true hst]
    rfl
  exact congrArg Host.Outcome.next (if_pos hcond)

theorem pans_are_switched_off : Claims.PansAreSwitchedOff := by
  intro s p x
  refine ⟨fun hst => ?_, fun hst => ⟨?_, ?_⟩, fun hwhy hbrk => ?_, fun hst htrip => ?_, fun hst htrip hn => ?_, fun hst htrip hn => ?_,
    exec_panCtrlOff_of_hot, ?_⟩
  · exact congrArg Host.Outcome.next (if_neg (Nat.not_le.mpr hst))
  · exact congrArg Host.Outcome.next (if_pos hst)
  · exact congrArg Host.Outcome.next (if_pos hst)
  · refine congrArg Host.Outcome.next (if_neg ?_)
    rintro (h | h)
    · exact hwhy h
    · rw [show (getPwr s p).brk = false from hbrk] at h
      cases h
  · rw [exec_panTrip, if_neg (Nat.not_le.mpr hst), if_pos htrip, panTripped, trippedStage_again htrip]
  · rw [exec_panTrip, if_neg (Nat.not_le.mpr hst), if_neg (by rw [Bool.not_eq_true]; exact htrip), if_neg (by omega)]
    refine ⟨_, rfl, by simp only [countedTrip]; omega, getPwr_countedTrip s p, rfl, ?_⟩
    rw [show (countedTrip s p).tide.holdCause = setBit s.tide.holdCause 3 true from rfl, getLsbD_setBit, if_pos ⟨rfl, by decide⟩]
  · have hfour : min 4 (s.power.trips + 1) = 4 := by omega
    rw [exec_panTrip, if_neg (Nat.not_le.mpr hst), if_neg (by rw [Bool.not_eq_true]; exact htrip), if_pos hfour]
    obtain ⟨ps, hps⟩ := modTrip_power (countedTrip s p)
    exact ⟨_, rfl, by rw [hps]; exact hfour, by rw [hps]⟩
  · have hcores : (leaveTide p s).cores = s.cores := by
      obtain ⟨_, _, _, h⟩ := leaveTide_frame p s
      rw [h]
    refine ⟨leaveTide p s, rfl, ?_, fun q hq => ?_, hcores, fun hlive hwf k hk => held_leaveTide hlive hwf hk⟩
    · rw [panLive_leaveTide, decide_eq_true rfl, Bool.not_true, Bool.and_false]
    · rw [panLive_leaveTide, decide_eq_false hq, Bool.not_false, Bool.and_true]

-- A breaker that has opened --------------------------------------------------------------------------------------

/-- The stage of a pan whose breaker, or whose fuse, has opened. -/
def openedStage (fuse : Bool) (x : PanPwr) : PanPwr := if fuse then { x with fuse := true } else { x with brk := true }

/-- The stage of a pan marked dark, for the reason recorded. -/
def darkStage (x : PanPwr) : PanPwr := { x with st := x.why, mv := 0, amp := 0, set := 0 }

theorem darkStage_openedStage (fuse : Bool) (x : PanPwr) : darkStage (openedStage fuse x) =
    { x with st := x.why, mv := 0, amp := 0, set := 0, brk := x.brk || !fuse, fuse := x.fuse || fuse } := by
  cases fuse <;> simp [darkStage, openedStage]

section
variable (s : State) (p : Nat) (fuse : Bool)

/-- The pan leaves the tide. -/
def openedPan : State := leaveTide p (setPwr s p (openedStage fuse (getPwr s p)))

/-- The jobs that it involves end. -/
def openedJobs : State :=
  (involved s p).foldl (fun s k => endForPan p k s) (postAll (involved s p) ⟨3, stOK, 0, 15, [p]⟩ (openedPan s p fuse))

/-- It is dark, and its cores are lost. -/
def darkenedPan : State := panLost p (modPwr (openedJobs s p fuse) p darkStage)

/-- It is told of, and the cause FW that its heat raised is cleared once no other hot pan waits for the same. -/
def reportedDark (why : Nat) : State :=
  let s5 := if why = 4 then s else pldm 3 p s
  let s6 := if why = 2 then suspect 5 s5 else s5
  if why = 4 && !s6.power.parked && !heatPending s6 then clearCauses 1 s6 else s6

/-- The causes that faults of pans raised are cleared, with HOLD released, once no breaker is to open. -/
def settledCauses : State := if pansPending s then s else releaseHold (clearCauses (2 + 4 + 8) s)

theorem exec_breakerOpen_of_commanded {p : Fin 96} (hwhy : (getPwr s p).why ≠ 0) (hst : (getPwr s p).st < 2) :
    exec (.breakerOpen p fuse) s = .next (settledCauses (reportedDark (darkenedPan s p fuse) p (getPwr s p).why)) :=
  congrArg Host.Outcome.next (if_neg (by omega))

theorem onlyEnds_openedJobs : OnlyEnds (openedPan s p fuse) (openedJobs s p fuse) := by
  have hpost : OnlyEnds (openedPan s p fuse) (postAll (involved s p) ⟨3, stOK, 0, 15, [p]⟩ (openedPan s p fuse)) :=
    OnlyEnds.foldl (fun t q => by
      obtain ⟨h, ht⟩ := postTo_frame t ⟨3, stOK, 0, 15, [p]⟩ q
      rw [ht]
      exact ⟨_, _, _, _, _, _, _, rfl⟩) _ _
  exact hpost.trans (OnlyEnds.foldl (fun t k => (touchesPart_endForPan k t p).only) _ _)

theorem openedPan_cores : (openedPan s p fuse).cores = s.cores := by
  obtain ⟨_, _, _, h⟩ := leaveTide_frame p (setPwr s p (openedStage fuse (getPwr s p)))
  rw [openedPan, h]
  rfl

variable {s p}

/-- The stage of the dark pan, its readings 0. -/
theorem getPwr_darkenedPan (hwhy : (getPwr s p).why ≠ 0) : getPwr (darkenedPan s p fuse) p = darkStage (openedStage fuse (getPwr s p)) := by
  have hopened : (openedStage fuse (getPwr s p)).why = (getPwr s p).why := by cases fuse <;> rfl
  have hleft : getPwr (openedPan s p fuse) p = openedStage fuse (getPwr s p) := by
    obtain ⟨_, _, _, h⟩ := leaveTide_frame p (setPwr s p (openedStage fuse (getPwr s p)))
    rw [openedPan, h]
    exact getPwr_setPwr_of_ne s p (ne_zero_of_why (by rwa [hopened]))
  have hjobs : getPwr (openedJobs s p fuse) p = openedStage fuse (getPwr s p) := by
    rw [← hleft, getPwr, (onlyEnds_openedJobs s p fuse).power, getPwr]
  have hdark : getPwr (modPwr (openedJobs s p fuse) p darkStage) p = darkStage (getPwr (openedJobs s p fuse) p) :=
    getPwr_setPwr_of_ne _ p (ne_zero_of_why (by rw [hjobs]; exact hopened ▸ hwhy))
  rw [← hjobs, ← hdark]
  rfl

theorem getCore_darkenedPan (hwf : s.tablesWf = true) (g : Nat) :
    getCore (darkenedPan s p fuse) g = if panOf g = p then lostCore (getCore s g) else getCore s g := by
  have hcores : (modPwr (openedJobs s p fuse) p darkStage).cores = s.cores :=
    (onlyEnds_openedJobs s p fuse).cores.trans (openedPan_cores s p fuse)
  rw [darkenedPan, getCore_panLost (by rw [hcores]; exact ((tablesWf_iff s).mp hwf).cores), getCore, hcores, getCore]

/-- The dark pan is out of the tide. -/
theorem panLive_darkenedPan : panLive (darkenedPan s p fuse) p = false := by
  have hlive : (darkenedPan s p fuse).tide.live = (openedPan s p fuse).tide.live :=
    (congrArg Tide.live (onlyEnds_openedJobs s p fuse).tide :)
  have hleft : panLive (openedPan s p fuse) p = false := by
    rw [openedPan, panLive_leaveTide, decide_eq_true rfl, Bool.not_true, Bool.and_false]
  rw [panLive, hlive]
  exact hleft

end

theorem suspect_frame (bit : Nat) (s : State) : ∃ rl h sd, suspect bit s = { s with rel := rl, host := h, said := sd } := by
  unfold suspect
  dsimp only
  split
  · obtain ⟨h, ht⟩ := postOps_frame ⟨6, stOK, 0, 15, [(setBit s.rel.suspect bit true).toNat]⟩
      { s with rel := { s.rel with suspect := setBit s.rel.suspect bit true } }
    exact ⟨_, h, _, by rw [ht]; rfl⟩
  · exact ⟨_, _, _, rfl⟩

/-- t is s but for what was told, and the causes of HOLD and its line. -/
def OnlyTold (s t : State) : Prop :=
  ∃ rl h sd hc hd, t = { s with rel := rl, host := h, said := sd, tide := { s.tide with holdCause := hc, hold := hd } }

theorem OnlyTold.refl (s : State) : OnlyTold s s := ⟨_, _, _, _, _, rfl⟩

theorem OnlyTold.trans {s t u : State} (h : OnlyTold s t) (h' : OnlyTold t u) : OnlyTold s u := by
  obtain ⟨_, _, _, _, _, rfl⟩ := h
  obtain ⟨_, _, _, _, _, rfl⟩ := h'
  exact ⟨_, _, _, _, _, rfl⟩

theorem OnlyTold.cores {s t : State} (h : OnlyTold s t) : t.cores = s.cores := by
  obtain ⟨_, _, _, _, _, rfl⟩ := h
  rfl

theorem OnlyTold.power {s t : State} (h : OnlyTold s t) : t.power = s.power := by
  obtain ⟨_, _, _, _, _, rfl⟩ := h
  rfl

theorem OnlyTold.panLive {s t : State} (h : OnlyTold s t) (p : Nat) : panLive t p = panLive s p := by
  obtain ⟨_, _, _, _, _, rfl⟩ := h
  rfl

/-- A change that is made on a condition tells no more than the change. -/
theorem OnlyTold.ite {c : Prop} [Decidable c] {s t u : State} (h : OnlyTold s t) (h' : OnlyTold s u) : OnlyTold s (if c then t else u) := by
  split
  · exact h
  · exact h'

theorem onlyTold_suspect (bit : Nat) (s : State) : OnlyTold s (suspect bit s) := by
  obtain ⟨_, _, _, h⟩ := suspect_frame bit s
  rw [h]
  exact ⟨_, _, _, _, _, rfl⟩

theorem onlyTold_releaseHold (s : State) : OnlyTold s (releaseHold s) := OnlyTold.ite ⟨_, _, _, _, _, rfl⟩ (OnlyTold.refl s)

theorem onlyTold_clearCauses (m : Nat) (s : State) : OnlyTold s (clearCauses m s) := ⟨_, _, _, _, _, rfl⟩

theorem onlyTold_reportedDark (s : State) (p why : Nat) : OnlyTold s (reportedDark s p why) := by
  have h5 : OnlyTold s (if why = 4 then s else pldm 3 p s) := OnlyTold.ite (OnlyTold.refl s) ⟨_, _, _, _, _, rfl⟩
  have h6 := h5.trans (OnlyTold.ite (c := why = 2) (onlyTold_suspect 5 _) (OnlyTold.refl _))
  exact h6.trans (OnlyTold.ite (onlyTold_clearCauses 1 _) (OnlyTold.refl _))

theorem onlyTold_settledCauses (s : State) : OnlyTold s (settledCauses s) :=
  OnlyTold.ite (OnlyTold.refl s) ((onlyTold_clearCauses _ s).trans (onlyTold_releaseHold _))

/-- Once no opening is to come, the causes that faults of pans raised are clear. -/
theorem causes_releaseHold_clearCauses (s : State) :
    let t := releaseHold (clearCauses (2 + 4 + 8) s)
    t.tide.holdCause.getLsbD 1 = false ∧ t.tide.holdCause.getLsbD 2 = false ∧ t.tide.holdCause.getLsbD 3 = false := by
  have hcause : (releaseHold (clearCauses (2 + 4 + 8) s)).tide.holdCause = s.tide.holdCause &&& ~~~ BitVec.ofNat 5 14 := by
    unfold releaseHold
    split <;> rfl
  simp only [hcause, BitVec.getLsbD_and]
  exact ⟨Bool.and_false _, Bool.and_false _, Bool.and_false _⟩

theorem causes_settledCauses {s : State} (h : pansPending (settledCauses s) = false) :
    (settledCauses s).tide.holdCause.getLsbD 1 = false ∧ (settledCauses s).tide.holdCause.getLsbD 2 = false ∧
      (settledCauses s).tide.holdCause.getLsbD 3 = false := by
  unfold settledCauses at h ⊢
  split
  · next hpend =>
    rw [if_pos hpend, hpend] at h
    cases h
  · exact causes_releaseHold_clearCauses s

theorem dark_pans_leave_the_wafer : Claims.DarkPansLeaveTheWafer := by
  intro s p fuse x lost
  refine ⟨fun hwhy hst hwf => ?_, fun hidle => congrArg Host.Outcome.next (if_pos hidle), fun htrip hwf => ?_⟩
  · have htold := (onlyTold_reportedDark (darkenedPan s p fuse) p (getPwr s p).why).trans (onlyTold_settledCauses _)
    have hcore := fun g => (congrArg (tget Core.zero · g) htold.cores).trans (getCore_darkenedPan (p := (p : Nat)) fuse hwf g)
    have hpwr := (congrArg (fun w : Power => tget PanPwr.zero w.pans p) htold.power).trans (getPwr_darkenedPan fuse hwhy)
    exact ⟨_, exec_breakerOpen_of_commanded s fuse hwhy hst, (htold.panLive p).trans (panLive_darkenedPan fuse),
      hpwr.trans (darkStage_openedStage fuse _), fun g hg => (hcore g).trans (if_pos hg), fun g hg => (hcore g).trans (if_neg hg),
      causes_settledCauses⟩
  · have htide := modTrip_tide htrip
    obtain ⟨ps, hpower⟩ := modTrip_power s
    refine ⟨modTrip s, rfl, by rw [hpower], by rw [htide]; rfl, ?_, fun q hq => ?_, getCore_modTrip htrip hwf, fun k hst => ?_⟩
    · rw [htide]
      exact (getLsbD_setBit ..).trans (if_pos ⟨rfl, by decide⟩)
    · rw [getPwr, modTrip_power_of_first htrip, ← getPwr]
      exact getPwr_trippedPans s hq
    · obtain ⟨hended, hcode, -⟩ := hasEnded_at_trip hwf hst
      rw [getPart_modTrip htrip]
      refine ⟨hended, hcode.trans ?_⟩
      cases (getPart s k).ends <;> rfl

end Sys2Proof.Machine

open Sys2Proof Sys2Proof.Machine

/-- Settles O44: HOLD at its line and at the nodes, the commands that open a breaker, and the pans that leave. The model's readings are that HOLD is a
line and a frozen flag (log 34), that the wait of 1 µs is measured on the model's time (log 36), that BREAKER_OPEN and a module trip take
the steps of R430 in their own rows (log 37), and when the causes that faults raised are cleared (log 124). -/
theorem holdAndDarkPans : Obligations.HoldAndDarkPans := ⟨hold_stops_the_wafer, pans_are_switched_off, dark_pans_leave_the_wafer⟩
end

section
/-! O37, the memories of the stacks: what a stack holds after bytes, and after the chosen pieces of a line, are written to it (12 R289 to R292). -/

namespace Sys2Proof.Machine

-- A list with one element replaced -------------------------------------------------------------------------------

theorem getElem?_setIdx_same {α : Type} {k : Nat} {l : List α} (v : α) (h : k < l.length) : (setIdx k v l)[k]? = some v := by
  induction l generalizing k with
  | nil => exact absurd h (Nat.not_lt_zero k)
  | cons a t ih =>
    cases k with
    | zero => rfl
    | succ k => exact ih (Nat.lt_of_succ_lt_succ h)

theorem getElem?_setIdx_ne {α : Type} {k j : Nat} (v : α) (l : List α) (h : j ≠ k) : (setIdx k v l)[j]? = l[j]? := by
  induction l generalizing k j with
  | nil => cases k <;> rfl
  | cons a t ih =>
    cases k with
    | zero =>
      obtain ⟨j, rfl⟩ := Nat.exists_eq_succ_of_ne_zero h
      rfl
    | succ k =>
      cases j with
      | zero => rfl
      | succ j => exact ih (fun hjk => h (congrArg Nat.succ hjk))

-- Bytes written to a stack ---------------------------------------------------------------------------------------

/-- Bytes written one after another to a memory of cells: each is read back with its key, and every other cell is as it was. -/
theorem tget_cellsWritten (key : Nat) (bs : List Byte) {m : Tbl Cell} (hwf : twf ⟨0, 0⟩ m = true) (a x : Nat) :
    tget ⟨0, 0⟩ (bs.foldl (fun (t : Tbl Cell × Nat) b => (tset ⟨0, 0⟩ t.1 t.2 ⟨b, key⟩, t.2 + 1)) (m, a)).1 x =
      if a ≤ x ∧ x < a + bs.length then ⟨bs.getD (x - a) 0, key⟩ else tget ⟨0, 0⟩ m x := by
  induction bs generalizing m a with
  | nil => rw [if_neg (by rw [List.length_nil]; omega)]; rfl
  | cons b bs ih =>
    rw [List.foldl_cons, ih (twf_tset _ _ _ _ hwf), List.length_cons]
    rcases Nat.lt_trichotomy x a with hlt | rfl | hgt
    · rw [if_neg (by omega), if_neg (by omega), tget_tset_ne _ _ _ _ _ (by omega)]
    · rw [if_neg (by omega), if_pos (by omega), tget_tset_same _ _ _ _ hwf, Nat.sub_self, List.getD_cons_zero]
    · rw [tget_tset_ne _ _ _ _ _ (by omega), show x - a = (x - (a + 1)) + 1 by omega, List.getD_cons_succ]
      exact if_congr (by omega) rfl rfl

theorem tget_stackMem_memWrite {s : State} (hwf : Canon s) {e : Nat} (he : e < 48) (key a : Nat) (bs : List Byte) (x : Nat) :
    tget ⟨0, 0⟩ (stackMem (memWrite s e key a bs) e) x =
      if a ≤ x ∧ x < a + bs.length then ⟨bs.getD (x - a) 0, key⟩ else tget ⟨0, 0⟩ (stackMem s e) x := by
  rw [← tget_cellsWritten key bs (twf_stackMem hwf e) a x, memWrite]
  unfold stackMem
  rw [List.getD_eq_getElem?_getD, getElem?_setIdx_same _ (hwf.count ▸ he)]
  rfl

theorem stackMem_memWrite_ne (s : State) {e j : Nat} (key a : Nat) (bs : List Byte) (h : j ≠ e) :
    stackMem (memWrite s e key a bs) j = stackMem s j := by
  simp only [stackMem, memWrite, List.getD_eq_getElem?_getD, getElem?_setIdx_ne _ _ h]

-- Pieces of a line -----------------------------------------------------------------------------------------------

/-- The pieces of w bytes that a test names among n that follow one another, written to a stack from byte off on. -/
def writePieces (e key off w : Nat) (p : Nat → Bool) (bs : Nat → List Byte) (n : Nat) (s : State) : State :=
  (List.range n).foldl (fun s j => if p j then memWrite s e key (off + w * j) (bs j) else s) s

section
variable (e key off w : Nat) (p : Nat → Bool) (bs : Nat → List Byte) (n : Nat) (s : State)

theorem writePieces_succ : writePieces e key off w p bs (n + 1) s =
    if p n then memWrite (writePieces e key off w p bs n s) e key (off + w * n) (bs n) else writePieces e key off w p bs n s := by
  rw [writePieces, List.range_succ, List.foldl_append]
  rfl

/-- Writing pieces changes the memories of the stacks alone. -/
theorem writePieces_frame : ∃ ms, writePieces e key off w p bs n s = { s with pmem := ms } := by
  induction n with
  | zero => exact ⟨s.pmem, rfl⟩
  | succ n ih =>
    obtain ⟨ms, hms⟩ := ih
    rw [writePieces_succ, hms]
    split
    · exact ⟨_, rfl⟩
    · exact ⟨ms, rfl⟩

/-- Writing pieces to one stack leaves every other stack as it was. -/
theorem stackMem_writePieces_ne {j : Nat} (h : j ≠ e) : stackMem (writePieces e key off w p bs n s) j = stackMem s j := by
  induction n with
  | zero => rfl
  | succ n ih =>
    rw [writePieces_succ]
    split
    · rw [stackMem_memWrite_ne _ _ _ _ h, ih]
    · exact ih

theorem canon_writePieces (hwf : Canon s) : Canon (writePieces e key off w p bs n s) := by
  induction n with
  | zero => exact hwf
  | succ n ih =>
    rw [writePieces_succ]
    split
    · exact (memWrite_keeps _ _ _ _ (Keeps.refl _)).canon ih
    · exact ih

/-- A byte in piece i of those that follow one another from off on. -/
theorem div_mod_of_piece {off w i x : Nat} (hlo : off + w * i ≤ x) (hhi : x < off + w * i + w) :
    (x - off) / w = i ∧ (x - off) % w = x - (off + w * i) := by
  have hw : 0 < w := by omega
  obtain ⟨r, rfl⟩ := Nat.exists_eq_add_of_le hlo
  have hr : r < w := by omega
  rw [show off + w * i + r - off = w * i + r by omega, Nat.add_sub_cancel_left]
  exact ⟨by rw [Nat.mul_add_div hw, Nat.div_eq_of_lt hr, Nat.add_zero], by rw [Nat.mul_add_mod, Nat.mod_eq_of_lt hr]⟩

/-- Once pieces are written, a stack holds them with their key where the test names them, and its other cells are as they were. -/
theorem tget_stackMem_writePieces (hwf : Canon s) (he : e < 48) (hlen : ∀ j, (bs j).length = w) (x : Nat) :
    tget ⟨0, 0⟩ (stackMem (writePieces e key off w p bs n s) e) x =
      if off ≤ x ∧ x < off + w * n ∧ p ((x - off) / w) = true then ⟨(bs ((x - off) / w)).getD ((x - off) % w) 0, key⟩
      else tget ⟨0, 0⟩ (stackMem s e) x := by
  induction n with
  | zero => exact (if_neg (by omega)).symm
  | succ n ih =>
    have hend : off + w * (n + 1) = off + w * n + w := by rw [Nat.mul_succ, Nat.add_assoc]
    rw [writePieces_succ, hend]
    by_cases hin : off + w * n ≤ x ∧ x < off + w * n + w
    · obtain ⟨hdiv, hmod⟩ := div_mod_of_piece hin.1 hin.2
      rw [hdiv, hmod]
      split
      · next hp =>
        rw [tget_stackMem_memWrite (canon_writePieces e key off w p bs n s hwf) he, hlen, if_pos hin, if_pos ⟨by omega, hin.2, hp⟩]
      · next hp => rw [ih, if_neg (by omega), if_neg (fun h => hp h.2.2)]
    · have hrange : (off ≤ x ∧ x < off + w * n + w ∧ p ((x - off) / w) = true) ↔
          (off ≤ x ∧ x < off + w * n ∧ p ((x - off) / w) = true) :=
        and_congr_right fun hlo => and_congr_left fun _ => by omega
      rw [if_congr hrange rfl rfl, ← ih]
      split
      · rw [tget_stackMem_memWrite (canon_writePieces e key off w p bs n s hwf) he, hlen, if_neg hin]
      · rfl

end

end Sys2Proof.Machine
end

section
/-! O37: the host's reads and writes of a line, and what a stack does in park, at a poll and at a read of SE_CTX_DATA (12 R289 to R292, R304,
Table 12-1; 14 R335, R337; 16 R414; 18 R450). -/

namespace Sys2Proof.Machine

open Sys2Proof.Claims

-- Reads ----------------------------------------------------------------------------------------------------------

/-- What a read of an open window returns of the line at a stack byte: plaintext, or the ciphertext of the slot in a RAW window (12 R291). -/
def lineShown (s : State) (e off k n byte : Nat) : List Byte :=
  let p := getPart s k
  let line := memRead s e p.xts off 64
  if p.window.raw then
    (List.range 4).flatMap (fun j => xtsEnc (pairOf p.xts) (tweakOf e n) (byte / 16 + j) ((line.drop (16 * j)).take 16)) else line

section
variable {s : State} {a : Nat} {src : BitVec 12}

theorem exec_cxlMemRead_of_closed (line : LineRead) (h : hostWindow s (a / 64 * 64) src.toNat = none) :
    exec (.cxlMemRead a src line) s = .next (say 1 (List.replicate 65 0) (deny (a / 64 * 64) s)) := by
  rw [show exec (.cxlMemRead a src line) s = execCxlMemRead a src line s from rfl]
  simp only [execCxlMemRead, h]
  rfl

theorem exec_cxlMemRead_of_open {e off k n byte : Nat} (line : LineRead)
    (h : hostWindow s (a / 64 * 64) src.toNat = some (e, off, k, n, byte)) :
    exec (.cxlMemRead a src line) s = .next (say 1 ((if line.ue then 1 else 0) :: lineShown s e off k n byte)
      (countEcc e (!line.ue && line.ce).toNat line.ue.toNat (touch e s))) := by
  rw [show exec (.cxlMemRead a src line) s = execCxlMemRead a src line s from rfl]
  simp only [execCxlMemRead, h, lineShown]

end

theorem host_reads_answer_a_line : Claims.HostReadsAnswerALine := by
  intro s a src ue ce
  refine ⟨exec_cxlMemRead_of_closed ⟨ue, ce⟩, fun e off k n byte hopen => ?_⟩
  have hread := exec_cxlMemRead_of_open ⟨ue, ce⟩ hopen
  refine ⟨?_, ?_, ?_⟩
  · rintro rfl rfl; exact hread
  · rintro rfl rfl; exact hread
  · rintro rfl; exact hread

-- Writes ---------------------------------------------------------------------------------------------------------

/-- An address with an open window lies in one of the 48 stacks (12 R288). -/
theorem hostWindow_stack_lt {s : State} {a src e off k n byte : Nat} (h : hostWindow s a src = some (e, off, k, n, byte)) : e < 48 := by
  unfold hostWindow at h
  dsimp only at h
  split at h
  · cases h
  · next hrange =>
    split at h
    · cases h
    · split at h
      · obtain ⟨i, -, hi⟩ := Option.map_eq_some_iff.mp h
        have he : a / 2 ^ 36 = e := congrArg Prod.fst hi
        omega
      · cases h

/-- A bit of a field of which every bit is 1. -/
theorem getLsbD_of_fld_ones {n lo len : Nat} {w : BitVec n} (h : fld w lo len = 2 ^ len - 1) {j : Nat} (hj : lo ≤ j ∧ j < lo + len) :
    w.getLsbD j = true := by
  have hbit : (w.extractLsb' lo len).getLsbD (j - lo) = true := by
    rw [show w.extractLsb' lo len = BitVec.allOnes len from BitVec.eq_of_toNat_eq (h.trans (BitVec.toNat_allOnes).symm),
      BitVec.getLsbD_allOnes]
    exact decide_eq_true (by omega)
  rw [BitVec.getLsbD_extractLsb', Bool.and_eq_true] at hbit
  rw [show j = lo + (j - lo) by omega]
  exact hbit.2

theorem length_padTo (n : Nat) (bs : List Byte) : (padTo n bs).length = n := by
  rw [padTo, List.length_take, List.length_append, List.length_replicate]
  omega

/-- A mask that names part of a 16 B block (16 R414). -/
def PartOfBlock (mask : BitVec 64) : Prop := ∃ j, j < 4 ∧ fld mask (16 * j) 16 ≠ 0 ∧ fld mask (16 * j) 16 ≠ 0xFFFF

/-- A mask of whole blocks names a byte exactly if it names something of the byte's block. -/
theorem getLsbD_of_wholeBlocks {mask : BitVec 64} (h : ¬ PartOfBlock mask) {i : Nat} (hi : i < 64) :
    mask.getLsbD i = decide (fld mask (16 * (i / 16)) 16 ≠ 0) := by
  by_cases h0 : fld mask (16 * (i / 16)) 16 = 0
  · rw [getLsbD_of_fld_zero h0 (by omega), h0]
    rfl
  · have hones : fld mask (16 * (i / 16)) 16 = 0xFFFF := by
      by_contra hne
      exact h ⟨i / 16, by omega, h0, hne⟩
    rw [getLsbD_of_fld_ones (len := 16) hones (by omega), decide_eq_true h0]

/-- The block of a line that a RAW write brings, decrypted with the slot's tweak (12 R291). -/
def blockBrought (pair : BitVec 512) (e n byte : Nat) (line : List Byte) (j : Nat) : List Byte :=
  padTo 16 (xtsDec pair (tweakOf e n) (byte / 16 + j) ((line.drop (16 * j)).take 16))

theorem length_blockBrought (pair : BitVec 512) (e n byte : Nat) (line : List Byte) (j : Nat) : (blockBrought pair e n byte line j).length = 16 :=
  length_padTo _ _

section
variable {s : State} {a : Nat} {src : BitVec 12} {mask : BitVec 64} {line : List Byte}

theorem exec_cxlMemWrite_of_closed (h : hostWindow s (a / 64 * 64) src.toNat = none) :
    exec (.cxlMemWrite a src mask line) s = .next (deny (a / 64 * 64) s) := by
  rw [show exec (.cxlMemWrite a src mask line) s = execCxlMemWrite a src mask line s from rfl]
  simp only [execCxlMemWrite, h]

variable {e off k n byte : Nat} (hopen : hostWindow s (a / 64 * 64) src.toNat = some (e, off, k, n, byte))
include hopen

theorem exec_cxlMemWrite_of_readOnly (hwr : (getPart s k).window.wr = false) :
    exec (.cxlMemWrite a src mask line) s = .next (deny (a / 64 * 64) s) := by
  rw [show exec (.cxlMemWrite a src mask line) s = execCxlMemWrite a src mask line s from rfl]
  simp only [execCxlMemWrite, hopen, hwr]
  rfl

/-- A PLAIN write brings each byte that the mask names. -/
theorem exec_cxlMemWrite_of_plain (hwr : (getPart s k).window.wr = true) (hraw : (getPart s k).window.raw = false) :
    exec (.cxlMemWrite a src mask line) s =
      .next (writePieces e (getPart s k).xts off 1 mask.getLsbD (fun i => [line.getD i 0]) 64 (touch e s)) := by
  rw [show exec (.cxlMemWrite a src mask line) s = execCxlMemWrite a src mask line s from rfl]
  simp only [execCxlMemWrite, hopen, hwr, hraw, writePieces, Nat.one_mul]
  rfl

/-- A RAW write of part of a block is refused. -/
theorem exec_cxlMemWrite_of_part (hwr : (getPart s k).window.wr = true) (hraw : (getPart s k).window.raw = true) (hpart : PartOfBlock mask) :
    exec (.cxlMemWrite a src mask line) s = .next (deny (a / 64 * 64) s) := by
  have hany : (List.range 4).any (fun j => decide (fld mask (16 * j) 16 ≠ 0) && decide (fld mask (16 * j) 16 ≠ 0xFFFF)) = true := by
    obtain ⟨j, hj, hne⟩ := hpart
    exact List.any_eq_true.mpr ⟨j, List.mem_range.mpr hj, by simpa using hne⟩
  rw [show exec (.cxlMemWrite a src mask line) s = execCxlMemWrite a src mask line s from rfl]
  simp only [execCxlMemWrite, hopen, hwr, hraw, hany]
  rfl

/-- A RAW write of whole blocks brings each block that the mask names. -/
theorem exec_cxlMemWrite_of_blocks (hwr : (getPart s k).window.wr = true) (hraw : (getPart s k).window.raw = true)
    (hwhole : ¬ PartOfBlock mask) :
    exec (.cxlMemWrite a src mask line) s = .next (writePieces e (getPart s k).xts off 16 (fun j => decide (fld mask (16 * j) 16 ≠ 0))
      (blockBrought (pairOf (getPart s k).xts) e n byte line) 4 (touch e s)) := by
  have hany : (List.range 4).any (fun j => decide (fld mask (16 * j) 16 ≠ 0) && decide (fld mask (16 * j) 16 ≠ 0xFFFF)) = false := by
    refine List.any_eq_false.mpr fun j hj hne => hwhole ⟨j, List.mem_range.mp hj, ?_⟩
    simpa using hne
  rw [show exec (.cxlMemWrite a src mask line) s = execCxlMemWrite a src mask line s from rfl]
  simp only [execCxlMemWrite, hopen, hwr, hraw, hany, writePieces, blockBrought, decide_eq_true_eq, ite_not]
  rfl

end

/-- A line access leaves the tables in their canonical form. -/
theorem canon_touch {s : State} (hwf : s.tablesWf = true) (e : Nat) : Canon (touch e s) :=
  (touch_keeps e (Keeps.refl s)).canon ((tablesWf_iff s).mp hwf)

/-- Pieces written after a line access change memories and engines alone. -/
theorem writePieces_touch_frame (e key off w : Nat) (p : Nat → Bool) (bs : Nat → List Byte) (n : Nat) (s : State) :
    { writePieces e key off w p bs n (touch e s) with pmem := s.pmem, engs := s.engs } = s := by
  obtain ⟨ms, hms⟩ := writePieces_frame e key off w p bs n (touch e s)
  rw [hms]
  rfl

theorem host_writes_store_the_masked_bytes : Claims.HostWritesStoreTheMaskedBytes := by
  intro s a src mask line hwf
  refine ⟨exec_cxlMemWrite_of_closed, fun e off k n byte hopen => ?_⟩
  have he := hostWindow_stack_lt hopen
  refine ⟨exec_cxlMemWrite_of_readOnly hopen, fun hwr hraw => ?_, exec_cxlMemWrite_of_part hopen, fun hwr hraw hwhole => ?_⟩
  · refine ⟨_, exec_cxlMemWrite_of_plain hopen hwr hraw, fun x => ?_, fun j hj => stackMem_writePieces_ne (h := hj) ..,
      writePieces_touch_frame ..⟩
    rw [tget_stackMem_writePieces e _ off 1 _ (fun i => [line.getD i 0]) 64 _ (canon_touch hwf e) he (fun _ => rfl), Nat.div_one, Nat.mod_one]
    rfl
  · refine ⟨_, exec_cxlMemWrite_of_blocks hopen hwr hraw hwhole, fun x => ?_, fun j hj => stackMem_writePieces_ne (h := hj) ..,
      writePieces_touch_frame ..⟩
    rw [tget_stackMem_writePieces _ _ _ _ _ _ _ _ (canon_touch hwf e) he (length_blockBrought _ _ _ _ _)]
    refine if_congr (and_congr_right fun hlo => and_congr_right fun hhi => ?_) rfl rfl
    rw [getLsbD_of_wholeBlocks hwhole (by omega)]

-- Stacks ---------------------------------------------------------------------------------------------------------

theorem stacks_refresh_and_report : Claims.StacksRefreshAndReport := by
  intro s e temp x
  refine ⟨fun htrained hparked hwaking => ?_, fun htrained => ?_, fun huntrained => ⟨?_, ?_⟩, rfl⟩
  · exact congrArg Host.Outcome.next (if_pos (by rw [hparked, hwaking]; exact htrained))
  · exact congrArg Host.Outcome.next (if_pos htrained)
  · refine congrArg Host.Outcome.next (if_neg ?_)
    rw [show (getEng s e).trained = false from huntrained, Bool.and_false]
    exact Bool.false_ne_true
  · exact congrArg Host.Outcome.next (if_neg (by rw [show (getEng s e).trained = false from huntrained]; exact Bool.false_ne_true))

end Sys2Proof.Machine

open Sys2Proof Sys2Proof.Machine

/-- Settles O37: the host's reads and writes through its windows, and what a stack does in park, at a poll and at a read of its context
registers. -/
theorem hostMemoryAccesses : Obligations.HostMemoryAccesses :=
  ⟨host_reads_answer_a_line, host_writes_store_the_masked_bytes, stacks_refresh_and_report⟩
end

section
/-! O36, READ contexts: what a reading of a tile answers, and each outcome of STREAM_READ_TILE (12 R294 to R298, R301; 08 R205, R206). -/

namespace Sys2Proof.Machine

open Sys2Proof.Claims

-- The tile that a context reads ----------------------------------------------------------------------------------

section
variable (s : State) (e : Fin 48) (c : Fin 64) (a : Nat)

/-- The descriptor that a context stands at. -/
def ctxDesc : BitVec 256 := getDesc s e (getCtx s e c).idx
/-- The partition of a context. -/
def ctxPart : Nat := (getCtx s e c).part.getD 0
/-- The header that a context finds at a stack byte. -/
def tileHead : Row := ofBytes 256 (memRead s e (getPart s (ctxPart s e c)).xts a 32)
/-- The payload that follows it. -/
def tilePay : List Byte := memRead s e (getPart s (ctxPart s e c)).xts (a + 32) (32 * hUnits (tileHead s e c a))
/-- The lines that the tile takes. -/
def tileLines : Nat := ceilDiv (32 * (hUnits (tileHead s e c a) + 1)) 64
/-- Whether the slot was written and the CRC agrees. -/
def tileGood : Bool :=
  slotWritten s e (getPart s (ctxPart s e c)).xts a && decide (tileCrc (tileHead s e c a) (tilePay s e c a) = hCrc (tileHead s e c a))
/-- Whether the tile is N:M packed (08 R205). -/
def tilePacked : Bool := hC (tileHead s e c a) && decide (leAt (tilePay s e c a) 0 1 % 16 = 2)

/-- A module in which the lines of the tile are read, once or twice, and counted. -/
def linesRead (again : Bool) (one two : TileRead) : State :=
  countEcc e (one.ce + if again then (two.ce : Nat) else 0) (one.bad.toNat + (again && two.bad).toNat)
    (countLines e (ctxPart s e c) (tileLines s e c a + if again then tileLines s e c a else 0) false s)

/-- A substitute goes out, and the context faults with a code (12 R298). -/
def substituted (code : Nat) (t : State) : State :=
  ctxFault e c code (inject (ctxPart s e c) (ctxDesc s e c) [substHeader e ((ctxDesc s e c).getLsbD 11), 0] t)

/-- A tile goes out, is folded where the descriptor says so and P is 0, and the context moves past it (12 R297, R301). -/
def emitted (h : Row) (pay : List Byte) (t : State) : State :=
  let t1 := inject (ctxPart s e c) (ctxDesc s e c) (h :: rowsOf 129 pay) t
  advance e c true (if sdDig (ctxDesc s e c) && !hP (tileHead s e c a) then foldTile t1 e c (tileHead s e c a) false else t1)

/-- A tile that fits goes out; one that does not ends the job with BOUNDS. -/
def emittedIfFits (h : Row) (pay : List Byte) (t : State) : State :=
  if sdEntm1 (ctxDesc s e c) < hUnits h then substituted s e c stBounds t else emitted s e c a h pay t

/-- An N:M tile that does not decode goes out as zeros with P set, its TILE_ID is reported, and the job ends (08 R206). -/
def poisoned (err : NmError) (t : State) : State :=
  let code := match err with | .format => stFormat | .bounds => stBounds
  reportSe [e, (hTileId (tileHead s e c a)).toNat] e c code (advance e c true (recordSe e c code
    (inject (ctxPart s e c) (ctxDesc s e c)
      ((poisonDense (tileHead s e c a)).1 :: rowsOf 129 (poisonDense (tileHead s e c a)).2) t)))

/-- What an N:M tile comes to: it goes out dense, or as a tile of zeros where it does not decode. -/
def packedAnswer (t : State) : State :=
  match nmDecode (tileHead s e c a) (tilePay s e c a), hTile (tileHead s e c a) with
  | .ok (codes, scs), some f =>
    emittedIfFits s e c a (nmEmit (tileHead s e c a) f codes scs).1 (nmEmit (tileHead s e c a) f codes scs).2 t
  | .error err, _ => poisoned s e c a err t
  | _, _ => substituted s e c stFormat t

/-- What a tile that was read without an error comes to. -/
def tileAnswer (t : State) : State :=
  if !headerValid (tileHead s e c a) then substituted s e c stFormat t
  else if tilePacked s e c a then packedAnswer s e c a t
  else emittedIfFits s e c a (tileHead s e c a) (tilePay s e c a) t

/-- What the readings of a tile come to: a substitute where the last one fails, else the tile (12 R297). -/
def readAnswer (again : Bool) (one two : TileRead) : State :=
  let t := linesRead s e c a again one two
  let t1 := if again && tileGood s e c a && !two.bad then countRefetch e t else t
  if !tileGood s e c a || (again && two.bad) then substituted s e c stPoison t1 else tileAnswer s e c a t1

end

section
variable {s : State} {e : Fin 48} {c : Fin 64} {a : Nat}

theorem tileGood_eq_true : tileGood s e c a = true ↔
    slotWritten s e (getPart s (ctxPart s e c)).xts a = true ∧
      tileCrc (tileHead s e c a) (tilePay s e c a) = hCrc (tileHead s e c a) := by
  rw [tileGood, Bool.and_eq_true, decide_eq_true_eq]

theorem packedAnswer_of_decoded {codes : List Nat} {scs : List Byte} {f : TileFmt}
    (hdec : nmDecode (tileHead s e c a) (tilePay s e c a) = .ok (codes, scs)) (hf : hTile (tileHead s e c a) = some f) (t : State) :
    packedAnswer s e c a t =
      emittedIfFits s e c a (nmEmit (tileHead s e c a) f codes scs).1 (nmEmit (tileHead s e c a) f codes scs).2 t := by
  rw [packedAnswer, hdec, hf]

theorem packedAnswer_of_undecoded {err : NmError} (hdec : nmDecode (tileHead s e c a) (tilePay s e c a) = .error err) (t : State) :
    packedAnswer s e c a t = poisoned s e c a err t := by
  rw [packedAnswer, hdec]

/-- A tile that decodes has a format. -/
theorem hTile_of_decoded {h : Row} {pay : List Byte} {r : List Nat × List Byte} (hdec : nmDecode h pay = .ok r) : ∃ f, hTile h = some f := by
  unfold nmDecode at hdec
  split at hdec
  · cases hdec
  · next f hf => exact ⟨f, hf⟩

/-- STREAM_READ_TILE of a context that may read reads its tile, and once more after an error. -/
theorem exec_streamReadTile_of_reads (hat : readsAt s e c a) (one two : TileRead) :
    exec (.streamReadTile e c one two) s = .next (readAnswer s e c a (one.bad || !tileGood s e c a) one two) := by
  obtain ⟨hst, hkind, hfrozen, hleft, hgate, hslot⟩ := hat
  rw [show exec (.streamReadTile e c one two) s = execStreamReadTile e c one two s from rfl, execStreamReadTile]
  refine congrArg Host.Outcome.next ((if_neg ?_).trans ((if_neg (Nat.not_le.mpr hleft)).trans ((if_neg ?_).trans ?_)))
  · rw [hfrozen]
    rintro (h | h | h)
    · exact h hst
    · exact h hkind
    · cases h
  · rw [hgate]
    exact Bool.false_ne_true
  · rw [hslot]
    refine if_congr Iff.rfl rfl (if_congr Iff.rfl rfl (if_congr Iff.rfl ?_ rfl))
    split
    · next hdec hf => exact (packedAnswer_of_decoded hdec hf _).symm
    · next hdec => exact (packedAnswer_of_undecoded hdec _).symm
    · next herr hok =>
      exfalso
      cases hdec : nmDecode (tileHead s e c a) (tilePay s e c a) with
      | error err => exact herr err hdec
      | ok r =>
        obtain ⟨f, hf⟩ := hTile_of_decoded hdec
        exact hok r.1 r.2 f hdec hf

-- The outcomes of readings ---------------------------------------------------------------------------------------

theorem readAnswer_of_first (hgood : tileGood s e c a = true) (one two : TileRead) :
    readAnswer s e c a false one two = tileAnswer s e c a (linesRead s e c a false one two) := by
  simp only [readAnswer, hgood, Bool.not_true, Bool.false_and, Bool.or_false, Bool.false_eq_true, if_false]

theorem readAnswer_of_second (hgood : tileGood s e c a = true) (one : TileRead) {two : TileRead} (hbad : two.bad = false) :
    readAnswer s e c a true one two = tileAnswer s e c a (countRefetch e (linesRead s e c a true one two)) := by
  simp only [readAnswer, hgood, hbad, Bool.not_true, Bool.not_false, Bool.false_or, Bool.and_false, Bool.and_true, Bool.false_eq_true, if_false,
    if_true]

theorem readAnswer_of_bad_second (one : TileRead) {two : TileRead} (hbad : two.bad = true) :
    readAnswer s e c a true one two = substituted s e c stPoison (linesRead s e c a true one two) := by
  simp only [readAnswer, hbad, Bool.not_true, Bool.and_false, Bool.and_true, Bool.or_true, Bool.false_eq_true, if_false, if_true]

theorem readAnswer_of_not_good (hgood : tileGood s e c a = false) (again : Bool) (one two : TileRead) :
    readAnswer s e c a again one two = substituted s e c stPoison (linesRead s e c a again one two) := by
  simp only [readAnswer, hgood, Bool.not_false, Bool.and_false, Bool.false_and, Bool.true_or, Bool.false_eq_true, if_false, if_true]

theorem tileAnswer_of_invalid (h : headerValid (tileHead s e c a) = false) (t : State) :
    tileAnswer s e c a t = substituted s e c stFormat t := by
  rw [tileAnswer, h]
  rfl

section
variable (hvalid : headerValid (tileHead s e c a) = true)
include hvalid

theorem tileAnswer_of_plain (hpacked : tilePacked s e c a = false) (t : State) :
    tileAnswer s e c a t = emittedIfFits s e c a (tileHead s e c a) (tilePay s e c a) t := by
  simp only [tileAnswer, hvalid, hpacked, Bool.not_true, Bool.false_eq_true, if_false]

theorem tileAnswer_of_packed (hpacked : tilePacked s e c a = true) (t : State) : tileAnswer s e c a t = packedAnswer s e c a t := by
  simp only [tileAnswer, hvalid, hpacked, Bool.not_true, Bool.false_eq_true, if_false, if_true]

end

theorem emittedIfFits_of_fits {h : Row} (hfit : hUnits h ≤ sdEntm1 (ctxDesc s e c)) (pay : List Byte) (t : State) :
    emittedIfFits s e c a h pay t = emitted s e c a h pay t := if_neg (Nat.not_lt.mpr hfit)

theorem emittedIfFits_of_long {h : Row} (hlong : sdEntm1 (ctxDesc s e c) < hUnits h) (pay : List Byte) (t : State) :
    emittedIfFits s e c a h pay t = substituted s e c stBounds t := if_pos hlong

end

/-- A good first reading is the only one. -/
theorem exec_streamReadTile_of_first {s : State} {e : Fin 48} {c : Fin 64} {a : Nat} (hat : readsAt s e c a) (hgood : tileGood s e c a = true)
    {one : TileRead} (hone : one.bad = false) (two : TileRead) :
    exec (.streamReadTile e c one two) s = .next (tileAnswer s e c a (linesRead s e c a false one two)) := by
  rw [exec_streamReadTile_of_reads hat, hone, hgood, Bool.not_true, Bool.or_false, readAnswer_of_first hgood]

theorem stream_reads_emit_the_tile : Claims.StreamReadsEmitTheTile := by
  intro s e c bad2 ce1 ce2 a x d k key h pay s1 out packed hat hslot hcrc hvalid
  have hread := exec_streamReadTile_of_first hat (tileGood_eq_true.mpr ⟨hslot, hcrc⟩) (one := ⟨false, ce1⟩) rfl ⟨bad2, ce2⟩
  refine ⟨fun hpacked hfit => ?_, fun codes scs f hpacked hdec hf hfit => ?_⟩
  · rw [hread, tileAnswer_of_plain hvalid hpacked, emittedIfFits_of_fits (h := tileHead s e c a) hfit]
    rfl
  · rw [hread, tileAnswer_of_packed hvalid hpacked, packedAnswer_of_decoded hdec hf,
      emittedIfFits_of_fits (h := (nmEmit (tileHead s e c a) f codes scs).1) hfit]
    rfl

theorem stream_reads_that_fail : Claims.StreamReadsThatFail := by
  intro s e c bad1 bad2 ce1 ce2 a x d k key h pay lines good s1 twice sub packed i hat
  have hread := exec_streamReadTile_of_reads hat ⟨bad1, ce1⟩ ⟨bad2, ce2⟩
  have hbad : ¬ good → tileGood s e c a = false := fun hng => Bool.eq_false_iff.mpr fun hg => hng (tileGood_eq_true.mp hg)
  have hfirst : bad1 = false → good → exec i s = .next (tileAnswer s e c a s1) := by
    rintro rfl hg
    exact exec_streamReadTile_of_first hat (tileGood_eq_true.mpr hg) rfl _
  refine ⟨?_, ?_, ?_, fun h1 hg hvalid => ?_, fun h1 hg hvalid hpacked hlong => ?_, fun h1 hg hvalid hpacked err hdec => ?_⟩
  · rintro rfl hfail
    have hagain : (bad1 || !tileGood s e c a) = true := by
      rcases hfail with rfl | hng
      · rfl
      · rw [hbad hng]; exact Bool.or_true _
    rw [hagain, readAnswer_of_bad_second _ rfl] at hread
    exact hread
  · rintro rfl hng
    rw [hbad hng, readAnswer_of_not_good (hbad hng), Bool.not_false, Bool.or_true] at hread
    exact hread
  · rintro rfl rfl hg hvalid hpacked hfit
    rw [Bool.true_or, readAnswer_of_second (tileGood_eq_true.mpr hg) _ rfl, tileAnswer_of_plain hvalid hpacked,
      emittedIfFits_of_fits (h := tileHead s e c a) hfit] at hread
    exact hread
  · rw [hfirst h1 hg, tileAnswer_of_invalid hvalid]
    rfl
  · rw [hfirst h1 hg, tileAnswer_of_plain hvalid hpacked, emittedIfFits_of_long (h := tileHead s e c a) hlong]
    rfl
  · rw [hfirst h1 hg, tileAnswer_of_packed hvalid hpacked, packedAnswer_of_undecoded hdec]
    rfl

end Sys2Proof.Machine
end

section
/-! O36, WRITE contexts: the entries of a spill route, and the tile that is stored (12 R296, R299 to R301). -/

namespace Sys2Proof.Machine

open Sys2Proof.Claims

-- Entries of a spill route ---------------------------------------------------------------------------------------

section
variable (s : State) (e : Fin 48) (c : Fin 64) (g : Nat) (side : Fin 4) (f : Flit)

/-- The entries of the tile that a context's spill route has begun. -/
def ctxBuf : List QEntry := (getPart s (ctxPart s e c)).spillBuf.getD (sdRoute (ctxDesc s e c)) []
/-- A module in which those entries are replaced. -/
def setCtxBuf (l : List QEntry) (t : State) : State := setSpill (ctxPart s e c) (sdRoute (ctxDesc s e c)) l t

/-- What an entry that joins the tile of its route comes to: a substitute where a check fails, the tile stored at LAST. -/
def entryAnswer : State :=
  match spillFault (ctxDesc s e c) (ctxBuf s e c) f.ent with
  | some code => spillFail e c code (setCtxBuf s e c [] (takeSpill g side f s))
  | none =>
    if sbLast f.ent.sb then storeTile e c (ctxBuf s e c ++ [f.ent]) (setCtxBuf s e c [] (takeSpill g side f s))
    else setCtxBuf s e c (ctxBuf s e c ++ [f.ent]) (takeSpill g side f s)

end

section
variable {s : State} {e : Fin 48} {c : Fin 64} {g : Nat} {side : Fin 4} {f : Flit} (hat : spillsAt s e c g side f)
include hat

/-- STREAM_WRITE_TILE by the state of the context and the entry that waits. -/
theorem exec_streamWriteTile_of_spills : exec (.streamWriteTile e c) s = .next
    (if (getCtx s e c).st = .fault ∧ (getCtx s e c).skip then
      if sbFirst f.ent.sb then setCtx s e c { getCtx s e c with skip := false } else takeSpill g side f s
    else if (getCtx s e c).st ≠ .run then s
    else if sbFirst f.ent.sb && !(ctxBuf s e c).isEmpty then spillFail e c stFormat (setCtxBuf s e c [] s)
    else entryAnswer s e c g side f) := by
  obtain ⟨hkind, hfrozen, hhead⟩ := hat
  rw [show exec (.streamWriteTile e c) s = execStreamWriteTile e c s from rfl, execStreamWriteTile]
  refine congrArg Host.Outcome.next ((if_neg ?_).trans ?_)
  · rw [hfrozen]
    rintro (h | h)
    · exact h hkind
    · cases h
  · rw [hhead]
    rfl

/-- A faulted context discards entries up to the next FIRST. -/
theorem exec_streamWriteTile_of_skip (hst : (getCtx s e c).st = .fault) (hskip : (getCtx s e c).skip = true) (hfirst : sbFirst f.ent.sb = false) :
    exec (.streamWriteTile e c) s = .next (takeSpill g side f s) := by
  rw [exec_streamWriteTile_of_spills hat, if_pos ⟨hst, hskip⟩, hfirst]
  rfl

section
variable (hst : (getCtx s e c).st = .run)
include hst

theorem exec_streamWriteTile_of_run : exec (.streamWriteTile e c) s = .next
    (if sbFirst f.ent.sb && !(ctxBuf s e c).isEmpty then spillFail e c stFormat (setCtxBuf s e c [] s) else entryAnswer s e c g side f) := by
  rw [exec_streamWriteTile_of_spills hat, hst, if_neg (fun h => nomatch h.1), if_neg (fun h => h rfl)]

/-- FIRST inside a tile leaves the entry where it is and ends the tile with a substitute. -/
theorem exec_streamWriteTile_of_first_within (hfirst : sbFirst f.ent.sb = true) (hbuf : ctxBuf s e c ≠ []) :
    exec (.streamWriteTile e c) s = .next (spillFail e c stFormat (setCtxBuf s e c [] s)) := by
  rw [exec_streamWriteTile_of_run hat hst, hfirst, if_pos (by simpa using hbuf)]

/-- Another entry is taken and checked. -/
theorem exec_streamWriteTile_of_entry (hnext : sbFirst f.ent.sb = false ∨ ctxBuf s e c = []) :
    exec (.streamWriteTile e c) s = .next (entryAnswer s e c g side f) := by
  rw [exec_streamWriteTile_of_run hat hst, if_neg]
  rcases hnext with h | h <;> simp [h]

end

end

section
variable {s : State} {e : Fin 48} {c : Fin 64} {g : Nat} {side : Fin 4} {f : Flit}

theorem entryAnswer_of_pass (h : spillFault (ctxDesc s e c) (ctxBuf s e c) f.ent = none) : entryAnswer s e c g side f =
    if sbLast f.ent.sb then storeTile e c (ctxBuf s e c ++ [f.ent]) (setCtxBuf s e c [] (takeSpill g side f s))
    else setCtxBuf s e c (ctxBuf s e c ++ [f.ent]) (takeSpill g side f s) := by
  rw [entryAnswer, h]

theorem entryAnswer_of_fault {code : Nat} (h : spillFault (ctxDesc s e c) (ctxBuf s e c) f.ent = some code) :
    entryAnswer s e c g side f = spillFail e c code (setCtxBuf s e c [] (takeSpill g side f s)) := by
  rw [entryAnswer, h]

end

theorem stream_writes_store_the_tile : Claims.StreamWritesStoreTheTile := by
  intro s e c g side f hat x d k r buf s1
  refine ⟨fun hst hnext => ?_, exec_streamWriteTile_of_first_within hat, exec_streamWriteTile_of_skip hat⟩
  have htake := exec_streamWriteTile_of_entry hat hst hnext
  refine ⟨fun hpass hlast => ?_, fun hpass hlast => ?_, fun code hfault => ?_⟩
  · rw [htake, entryAnswer_of_pass hpass, hlast]
    rfl
  · rw [htake, entryAnswer_of_pass hpass, hlast]
    rfl
  · rw [htake, entryAnswer_of_fault hfault]
    rfl

-- The checks of an entry -----------------------------------------------------------------------------------------

/-- What the first entry of a tile must have (12 R299). -/
theorem spillFault_first_none_iff {d : BitVec 256} {en : QEntry} : spillFault d [] en = none ↔
    sbFirst en.sb = true ∧ headerValid en.data = true ∧ hUnits en.data ≤ sdEntm1 d ∧ sbLast en.sb = false := by
  cases hf : sbFirst en.sb with
  | false => simp [spillFault, hf]
  | true =>
    cases hv : headerValid en.data with
    | false => simp [spillFault, hv]
    | true =>
      by_cases hlong : sdEntm1 d < hUnits en.data
      · simp [spillFault, hf, hv, hlong]
      · cases hl : sbLast en.sb <;> simp [spillFault, hf, hv, hl, hlong, Nat.not_lt.mp hlong]

theorem spillFault_first_long {d : BitVec 256} {en : QEntry} (hfirst : sbFirst en.sb = true) (hvalid : headerValid en.data = true)
    (hlong : sdEntm1 d < hUnits en.data) : spillFault d [] en = some stBounds := by
  rw [spillFault, hfirst, hvalid]
  exact if_pos hlong

theorem spilled_tiles_are_checked_and_stored : Claims.SpilledTilesAreCheckedAndStored := by
  intro s e c buf d q en x h pay s1 s2
  exact ⟨rfl, spillFault_first_none_iff, spillFault_first_long, rfl⟩

end Sys2Proof.Machine

open Sys2Proof Sys2Proof.Machine

/-- Settles O36: the outcomes of a reading, the entries of a spill route, and what is stored of their tile. The EPOCH bit of a READ's substitute is
the model's choice (log 122), and so is that FIRST inside a tile ends it with FORMAT and begins the next (log 123). -/
theorem streamTilesAreReadAndWritten : Obligations.StreamTilesAreReadAndWritten :=
  ⟨stream_reads_emit_the_tile, stream_reads_that_fail, stream_writes_store_the_tile, spilled_tiles_are_checked_and_stored⟩
end

section
/-! O38: stream contexts start, are released and stop, and a drain waits for the tiles that the spill routes have begun (12 R296, R303, Table
12-3; 14 R352). -/

namespace Sys2Proof.Machine

open Sys2Proof.Claims

-- Commands on a context ------------------------------------------------------------------------------------------

/-- The context that a stream command names. -/
def namedCtx (c : Cmd) (s : State) : Ctx := getCtx s (argEng c) (argCtx c)
/-- The module with that context replaced. -/
def setNamedCtx (c : Cmd) (s : State) (x : Ctx) : State := setCtx s (argEng c) (argCtx c) x

section
variable {s s1 : State} {c : Cmd} (hgo : goes c s s1) (hform : badForm c false false false [0x3F3F] = false) (hT : isT s1 c = true)
  (hst : inSt s1 c [.ready, .running, .held] = true) (he : argEng c < 48) (hpart : (namedCtx c s1).part = some (c.part : Nat))
include hgo hform hT hst he hpart

/-- A stream command on a context of its partition, in a state in which it is legal, passes its checks. -/
theorem firstCode_ctxChecks {legal : List CtxSt} (hlegal : legal.contains (namedCtx c s1).st = true) :
    firstCode (ctxChecks c legal s1) = none := by
  rw [namedCtx] at hpart hlegal
  simp only [ctxChecks, hform, hT, hst, hgo.2, hlegal, decide_eq_true he, decide_eq_true hpart]
  rfl

theorem exec_streamStart_of_pass (hctx : (namedCtx c s1).st = .armed ∨ (namedCtx c s1).st = .done) :
    exec (.streamStart c) s = .next (answered c false s1 stOK [] (startCtx (argEng c) (argCtx c) s1)) := by
  rw [show exec (.streamStart c) s = execStreamStart c s from rfl, execStreamStart]
  exact runCmd_of_ok hgo.1 (firstCode_ctxChecks hgo hform hT hst he hpart (by rcases hctx with h | h <;> rw [h] <;> rfl)) rfl

theorem exec_streamRelease_of_pass (hctx : (namedCtx c s1).st = .wait) :
    exec (.streamRelease c) s = .next (answered c false s1 stOK [] (setNamedCtx c s1 { namedCtx c s1 with st := .run })) := by
  rw [show exec (.streamRelease c) s = execStreamRelease c s from rfl, execStreamRelease]
  exact runCmd_of_ok hgo.1 (firstCode_ctxChecks hgo hform hT hst he hpart (by rw [hctx]; rfl)) rfl

theorem exec_streamStop_of_pass (hctx : (namedCtx c s1).st = .run ∨ (namedCtx c s1).st = .wait) :
    exec (.streamStop c) s = .next (answered c false s1 stOK [] (setNamedCtx c s1
      (if midTile s1 (argEng c) (namedCtx c s1) then { namedCtx c s1 with stopping := true } else (namedCtx c s1).stopped))) := by
  rw [show exec (.streamStop c) s = execStreamStop c s from rfl, execStreamStop]
  exact runCmd_of_ok hgo.1 (firstCode_ctxChecks hgo hform hT hst he hpart (by rcases hctx with h | h <;> rw [h] <;> rfl)) rfl

end

theorem stream_commands_move_the_context : Claims.StreamCommandsMoveTheContext := by
  intro s s1 c hgo e n x hform hT hst he hpart
  refine ⟨exec_streamStart_of_pass hgo hform hT hst he hpart, exec_streamRelease_of_pass hgo hform hT hst he hpart, fun hctx hmid => ?_,
    fun hctx hmid => ?_⟩
  · rw [exec_streamStop_of_pass hgo hform hT hst he hpart hctx, show midTile s1 (argEng c) (namedCtx c s1) = false from hmid]
    rfl
  · rw [exec_streamStop_of_pass hgo hform hT hst he hpart (.inl hctx), show midTile s1 (argEng c) (namedCtx c s1) = true from hmid]
    rfl

-- Drains ---------------------------------------------------------------------------------------------------------

/-- The partition once a drain begins notes the routes whose tile has begun, and is else as it was. -/
theorem getPart_startDrain {s : State} {k : Nat} (hst : (getPart s k).st ≠ .none) :
    getPart (startDrain k s) k = { getPart s k with
      drainOf := (List.range (getPart s k).spillBuf.length).filter (fun i => !((getPart s k).spillBuf.getD i []).isEmpty) } :=
  getPart_modPart_of_st s k _ hst

/-- The positions of a list of lists that hold something. -/
theorem mem_filter_range_nonempty {α : Type} {l : List (List α)} {i : Nat} :
    i ∈ (List.range l.length).filter (fun i => !(l.getD i []).isEmpty) ↔ ∃ b, l[i]? = some b ∧ b ≠ [] := by
  rw [List.mem_filter, List.mem_range, List.getD_eq_getElem?_getD]
  cases h : l[i]? with
  | none => simp
  | some b =>
    have hlt : i < l.length := (List.getElem?_eq_some_iff.mp h).1
    simp [hlt]

/-- The module once a drain that may begin has begun (12 R303). -/
def draining (c : Cmd) (s : State) : State :=
  modPart (startDrain c.part (stopReads c.part s)) c.part
    (fun p => { p with long := some (longOf .drain c [if arg c 1 = 0 then 16777216 else arg c 1] [] s) })

theorem exec_streamDrain_of_pass {s s1 : State} {c : Cmd} (hgo : goes c s s1) (hform : badForm c false false false [0, all32] = false)
    (hT : isT s1 c = true) (hst : inSt s1 c [.running, .held] = true) (hlong : longBusy s1 c = false) :
    exec (.streamDrain c) s = .next (draining c s1) := by
  rw [show exec (.streamDrain c) s = execStreamDrain c s from rfl, execStreamDrain]
  refine runCmd_of_later hgo.1 ?_ rfl
  simp only [hform, hT, hst, hgo.2, hlong]
  rfl

theorem drainOf_draining {c : Cmd} {s : State} (hst : (getPart s c.part).st ≠ .none) (i : Nat) :
    i ∈ (getPart (draining c s) c.part).drainOf ↔ ∃ b, (getPart s c.part).spillBuf[i]? = some b ∧ b ≠ [] := by
  have hstart := getPart_startDrain (s := stopReads c.part s) (k := c.part) hst
  rw [draining, getPart_modPart_of_st _ _ _ (by rw [hstart]; exact hst), hstart]
  exact mem_filter_range_nonempty

section
variable {s : State} {k : Fin 32} {l : Long} (hl : (getPart s k).long = some l) (hkind : l.kind = .drain)
include hl hkind

theorem exec_streamDrainComplete_of_drain :
    exec (.streamDrainComplete k) s = .next (if (getPart s k).drainOf = [] then completeLong k stOK [] s else s) := by
  rw [show exec (.streamDrainComplete k) s = execStreamDrainComplete k s from rfl, execStreamDrainComplete, longIs_of hl hkind, drainedSpills]
  exact congrArg Host.Outcome.next (if_congr (by simp) rfl rfl)

theorem exec_streamDrainTimeout_of_drain :
    exec (.streamDrainTimeout k) s = .next (if l.at_ + l.nums.getD 0 0 ≤ north s then completeLong k stTimeout [] s else s) := by
  rw [show exec (.streamDrainTimeout k) s = execStreamDrainTimeout k s from rfl, execStreamDrainTimeout, longIs_of hl hkind]

end

theorem drains_wait_for_the_spills : Claims.DrainsWaitForTheSpills := by
  intro s s1 c k l
  refine ⟨fun hgo hform hT hst hlong => ?_, fun hl hkind =>
    ⟨exec_streamDrainComplete_of_drain hl hkind, exec_streamDrainTimeout_of_drain hl hkind⟩⟩
  have hex : (getPart s1 c.part).st ≠ .none := fun h => by
    rw [inSt, h] at hst
    exact absurd hst (by decide)
  exact ⟨_, exec_streamDrain_of_pass hgo hform hT hst hlong, getPart_modPart_long _ _ _, drainOf_draining hex, rfl, rfl, rfl⟩

end Sys2Proof.Machine

open Sys2Proof Sys2Proof.Machine

/-- Settles O38: what the stream commands do to a context, and how a drain begins and ends. That a stop falls after the tile already begun, and that
a drain waits for the tiles begun at its start alone, are the model's choices (log 123). -/
theorem streamCommands : Obligations.StreamCommands := ⟨stream_commands_move_the_context, drains_wait_for_the_spills⟩
end

section
/-! O39: link blocks and how a port answers them, replay, training, failure and retraining (13 R305 to R311, R329; 15 R371). -/

namespace Sys2Proof.Machine

open Sys2Proof.Claims

-- Ports that are written, and what leaves them -------------------------------------------------------------------

/-- A port that is not OFF reads back as written, in whatever order the table lists its keys. -/
theorem getPort_setPort_of_st (s : State) (p : Nat) {x : Port} (h : x.st ≠ 0) : getPort (setPort s p x) p = x :=
  tget_tset_of_ne Port.zero s.fab.ports p x (by rintro rfl; exact h rfl)

@[simp] theorem sendPkt_ports (ep : Nat) (p : Packet) (s : State) : (sendPkt ep p s).fab.ports = s.fab.ports := by
  unfold sendPkt
  split <;> rfl

@[simp] theorem notice_ports (kind port : Nat) (p : Packet) (s : State) : (notice kind port p s).fab.ports = s.fab.ports :=
  sendPkt_ports _ _ _

@[simp] theorem noticeAll_ports (kind p : Nat) (ps : List Packet) (s : State) : (noticeAll kind p ps s).fab.ports = s.fab.ports := by
  unfold noticeAll
  refine List.foldlRecOn (motive := fun a : State × List Nat => a.1.fab.ports = s.fab.ports) ps _ rfl fun a ih q _ => ?_
  split
  · exact ih
  · exact (notice_ports _ _ _ _).trans ih

/-- Telling the sources of a port's packets leaves the ports as they are. -/
@[simp] theorem getPort_noticeAll (kind p : Nat) (ps : List Packet) (s : State) (q : Nat) :
    getPort (noticeAll kind p ps s) q = getPort s q :=
  congrArg (fun t => tget Port.zero t q) (noticeAll_ports kind p ps s)

-- Blocks that are accepted ---------------------------------------------------------------------------------------

/-- Only a block that acknowledges takes blocks from the replay buffer (13 R310). -/
theorem acked_if (b : Bool) (n : Nat) (x : Port) :
    (if b then acked n x else x) = { x with
      replay := x.replay.filter (fun r => !(b && decide ((n + 4096 - r.1) % 4096 < 2048)))
      heads := x.heads.filter (fun h => !(b && decide ((n + 4096 - h.1) % 4096 < 2048))) } := by
  cases b
  · simp
  · rfl

/-- Only a block that returns credits adds to them (13 R310, R316). -/
theorem credited_if (b : Bool) (cred : Vector Nat 8) (x : Port) :
    (if b then { x with cred := cred } else x) = { x with cred := if b then cred else x.cred } := by
  cases b <;> rfl

theorem link_blocks_are_taken_in_order : Claims.LinkBlocksAreTakenInOrder := by
  intro s p block ce ue x0 x c intact want v i
  have hrun : exec i s = execLinkBlockReceive p ⟨block, ce, ue⟩ s := rfl
  refine ⟨fun h2 h3 => hrun.trans (congrArg _ (if_pos ⟨h2, h3⟩)), fun hup => ?_⟩
  have hopen : ¬(x0.st ≠ 2 ∧ x0.st ≠ 3) := fun ⟨h2, h3⟩ => hup.elim h2 h3
  refine ⟨fun hbad => ?_, fun hgood hnext => ?_, fun hgood hseq hnak => ?_⟩
  · exact hrun.trans (congrArg _ ((if_neg hopen).trans (if_pos (show (!intact) = true by rw [hbad]; rfl))))
  · have hnext' : fld c 0 12 ≠ want ∨ (x.nak = true ∧ (!c.getLsbD 25) = true) := hnext.imp_right (fun h => ⟨h.1, by rw [h.2]; rfl⟩)
    exact hrun.trans (congrArg _ ((if_neg hopen).trans ((if_neg (show ¬(!intact) = true by rw [hgood]; decide)).trans (if_pos hnext'))))
  · intro old s1
    have hnext : ¬(fld c 0 12 ≠ want ∨ (x.nak = true ∧ (!c.getLsbD 25) = true)) := by
      rintro (h | ⟨hn, hr⟩)
      · exact h hseq
      · rcases hnak with hnak | hnak
        · rw [hnak] at hn; cases hn
        · rw [hnak] at hr; cases hr
    refine hrun.trans (congrArg _ ((if_neg hopen).trans ((if_neg (show ¬(!intact) = true by rw [hgood]; decide)).trans ((if_neg hnext).trans ?_))))
    dsimp only
    rewrite [acked_if, credited_if]
    rfl

-- Answers and replays --------------------------------------------------------------------------------------------

/-- Blocks sent again change what is sent and the credits owed alone: the port's state, episode and counts stay. -/
theorem foldl_emitBlock_frame (replay : Bool) (bs : List (Nat × Nat × List Byte)) (x : Port) :
    ∃ sent ret, bs.foldl (emitBlock replay) x = { x with sent := sent, ret := ret } ∧ sent.length = x.sent.length + bs.length := by
  induction bs generalizing x with
  | nil => exact ⟨x.sent, x.ret, rfl, rfl⟩
  | cons b bs ih =>
    obtain ⟨sent, ret, hfold, hlen⟩ := ih (emitBlock replay x b)
    refine ⟨sent, ret, hfold, hlen.trans ?_⟩
    simp only [emitBlock, List.length_append, List.length_cons, List.length_nil]
    omega

theorem controlBlock_of_room {x : Port} (h : x.replay.length < 512) : controlBlock x = addBlock 511 x [] := if_pos h

theorem controlBlock_of_full {x : Port} (h : 512 ≤ x.replay.length) :
    controlBlock x = emitBlock false x ((x.bseq + 4095) % 4096, 511, []) := if_neg (Nat.not_lt.mpr h)

/-- A port answers with one block, kept or not. -/
theorem controlBlock_sent_length (x : Port) : (controlBlock x).sent.length = x.sent.length + 1 := by
  unfold controlBlock
  split <;> exact List.length_append

/-- The episode that a NAK begins or goes on with (13 R311). -/
def nakEpisode (now : Nat) (x : Port) : Nat × Nat × Nat :=
  match x.episode with
  | none => (now, 1, match x.replay with | b :: _ => b.1 | [] => x.bseq)
  | some (t, n, b) => (t, n + 1, b)

/-- A port with the NAK counted: an attempt of the episode, and a retry where it begins one (13 R310, R311). -/
def nakCounted (s : State) (x : Port) : Port :=
  let tries := recent s hour x.tries
  { x with
    episode := some (nakEpisode s.time x)
    retries := if x.episode = none then x.retries + 1 else x.retries
    tries := if x.episode = none then s.time :: tries else tries }

/-- What a NAK does: the port sends its replay buffer again, and at the second attempt enters RETRY and tells the sources. -/
theorem naked_eq (p : Nat) (s : State) :
    naked p s =
      let x := getPort s p
      let x2 := x.replay.foldl (emitBlock true) (nakCounted s x)
      let s1 := if 100 ≤ (nakCounted s x).tries.length ∧ recent s hour x.lost = [] then watch 2 s else s
      if (nakEpisode s.time x).2.1 = 2 then
        noticeAll 1 p (concerned s p) (setPort s1 p { x2 with st := 3, noticed := (concerned s p).map Packet.src })
      else setPort s1 p x2 := by
  unfold naked nakCounted nakEpisode
  dsimp only
  cases (getPort s p).episode <;> rfl

section
variable {s : State} {p : Nat} {x : Port} (hx : getPort s p = x)
include hx

/-- At an attempt that is not the second a port that is not OFF keeps its state. -/
theorem getPort_naked_of_ne (hst : x.st ≠ 0) (hn : (nakEpisode s.time x).2.1 ≠ 2) :
    getPort (naked p s) p = x.replay.foldl (emitBlock true) (nakCounted s x) := by
  obtain ⟨sent, ret, hfold, -⟩ := foldl_emitBlock_frame true x.replay (nakCounted s x)
  simp only [naked_eq, hx, if_neg hn]
  exact getPort_setPort_of_st _ _ (by rw [hfold]; exact hst)

/-- The second attempt puts a port into RETRY. -/
theorem getPort_naked_of_second (hn : (nakEpisode s.time x).2.1 = 2) :
    getPort (naked p s) p = { x.replay.foldl (emitBlock true) (nakCounted s x) with
      st := 3, noticed := (concerned s p).map Packet.src } := by
  simp only [naked_eq, hx, if_pos hn, getPort_noticeAll]
  exact getPort_setPort_of_st _ _ (Nat.succ_ne_zero 2)

end

theorem ports_answer_and_replay : Claims.PortsAnswerAndReplay := by
  intro s x p
  obtain ⟨sent, ret, hfold, hlen⟩ := foldl_emitBlock_frame true x.replay (nakCounted s x)
  refine ⟨fun h => ?_, fun h => ?_, controlBlock_sent_length x, fun hst hx => ⟨fun hnone => ?_, fun t b hone => ?_, ?_⟩⟩
  · rw [controlBlock_of_room h]
    exact ⟨rfl, rfl⟩
  · rw [controlBlock_of_full h]
    exact ⟨rfl, rfl⟩
  · have hfirst : (nakEpisode s.time x).2.1 ≠ 2 := by simp [nakEpisode, hnone]
    rw [getPort_naked_of_ne hx hst hfirst, hfold]
    exact ⟨if_pos hnone, rfl⟩
  · have hep : nakEpisode s.time x = (t, 2, b) := by simp [nakEpisode, hone]
    rw [getPort_naked_of_second hx (by rw [hep]), hfold]
    exact ⟨rfl, congrArg some hep⟩
  · by_cases hn : (nakEpisode s.time x).2.1 = 2
    · rw [getPort_naked_of_second hx hn, hfold]
      exact hlen
    · rw [getPort_naked_of_ne hx hst hn, hfold]
      exact hlen

-- Training and failure -------------------------------------------------------------------------------------------

/-- A port that loses its packets: those on their way out of it are gone from the buffers, and the port keeps nothing for replay (13 R311). -/
def lostOf (p q : Nat) (x : Port) : Port :=
  let gone := x.buf.filter (fun b => decide (b.out = some p) && decide (b.need = 0))
  let ret := gone.foldl (fun (v : Vector Nat 8) b => let i : Fin 8 := Fin.ofNat 8 b.p.vc; v.set i (v[i] + unitsOf b.p)) x.ret
  let x1 := { x with buf := x.buf.filter (fun b => !(decide (b.out = some p) && decide (b.need = 0))), ret := ret }
  if q = p then { x1 with replay := [], heads := [], episode := none, noticed := [] } else x1

/-- The port itself keeps its count of exhausted episodes, and has nothing left to send again. -/
theorem lostOf_self (p : Nat) (x : Port) :
    (lostOf p p x).exhaust = x.exhaust ∧ (lostOf p p x).replay = [] ∧ (lostOf p p x).heads = [] ∧ (lostOf p p x).episode = none := by
  rw [lostOf, if_pos rfl]
  exact ⟨rfl, rfl, rfl, rfl⟩

theorem foldl_notice_ports (kind port : Nat) (ps : List Packet) (s : State) :
    (ps.foldl (fun s q => notice kind port q s) s).fab.ports = s.fab.ports :=
  List.foldlRecOn (motive := fun t : State => t.fab.ports = s.fab.ports) ps _ rfl
    fun _ ih q _ => (notice_ports _ _ q _).trans ih

theorem losePort_ports (p : Nat) (s : State) : (losePort p s).fab.ports = tmapv Port.zero (lostOf p) s.fab.ports :=
  congrArg (tmapv Port.zero (lostOf p)) (foldl_notice_ports _ _ _ s)

/-- In a table in canonical form the port that loses its packets reads as just that. -/
theorem getPort_losePort {s : State} (hwf : s.tablesWf = true) (p : Nat) : getPort (losePort p s) p = lostOf p p (getPort s p) := by
  rw [getPort, losePort_ports]
  refine tget_tmapv Port.zero (lostOf p) s.fab.ports p ((tablesWf_iff s).mp hwf).ports ?_
  rw [lostOf, if_pos rfl]
  rfl

/-- A watch bit leaves the ports. -/
theorem getPort_watch_if (P : Prop) [Decidable P] (bit : Fin 6) (s : State) (q : Nat) :
    getPort (if P then watch bit s else s) q = getPort s q := by
  split <;> rfl

theorem exec_retryExhausted_of_due {s : State} {p : Fin 48} {t n b : Nat} (hep : (getPort s p).episode = some (t, n, b))
    (hdue : 8 ≤ n ∨ t + 10000000 ≤ s.time) :
    exec (.retryExhausted p) s = .next (
      let y := getPort (losePort p s) p
      let times := s.time :: recent s hour (getPort s p).lost
      let st := if 3 ≤ (times.filter (fun u => decide (s.time < u + 1000000000000))).length then 5 else 4
      let s2 := setPort (losePort p s) p { y with st := st, lanes := 0, exhaust := min 0xFFFF (y.exhaust + 1), lost := times }
      if st = 5 then watch 2 s2 else s2) := by
  show execRetryExhausted p s = _
  unfold execRetryExhausted
  simp only [hep]
  exact congrArg _ (if_pos hdue)

theorem ports_train_fail_and_retrain : Claims.PortsTrainFailAndRetrain := by
  intro s p lanes rtt t n b x up
  have htrained : ∀ link, exec (.portTrained p link) s = execPortTrained p link s := fun _ => rfl
  have hdone : ∀ r, exec (.portRetrainDone p r) s = execPortRetrainDone p r s := fun _ => rfl
  have hready : x.refDown = false → (!x.refDown) = true := fun h => by rw [h]; rfl
  have htrains : x.st = 1 → s.tide.locked = true → ¬(x.st ≠ 1 ∨ (!s.tide.locked) = true) := fun hst hlock => by simp [hst, hlock]
  refine ⟨fun hst hlock hall => ?_, fun hst hlock hfailed => ?_, fun hno => ?_, fun hst href => ⟨?_, ?_⟩, fun hst href => ?_, rfl,
    fun hst => ?_, fun hep hdue hwf => ?_⟩
  · exact (htrained _).trans (congrArg _ ((if_neg (htrains hst hlock)).trans (congrArg (fun y => fixRefDown (setPort s p y)) (if_pos hall))))
  · exact (htrained _).trans (congrArg _ ((if_neg (htrains hst hlock)).trans (congrArg (fun y => fixRefDown (setPort s p y)) (if_neg hfailed))))
  · exact (htrained _).trans (congrArg _ (if_pos (hno.imp_right (fun h => by rw [h]; rfl))))
  · exact (hdone _).trans (congrArg _ (if_pos ⟨hst, hready href⟩))
  · exact (hdone _).trans (congrArg _ (if_pos ⟨hst, hready href⟩))
  · exact congrArg Host.Outcome.next (if_pos ⟨hst, hready href⟩)
  · refine congrArg (fun st => Host.Outcome.next (setPort s p { x with disable := false, st := st })) ?_
    show (if x.st = 0 ∧ portOn (licPorts s) p ∧ s.boot.p1 then 1 else x.st) = _
    rw [hst]
    simp
  · intro times
    obtain ⟨hexhaust, hreplay, hheads, hepisode⟩ := lostOf_self p (getPort s p)
    refine ⟨_, exec_retryExhausted_of_due hep hdue, ?_⟩
    rw [getPort_watch_if, getPort_setPort_of_st _ _ (by dsimp only; split <;> decide), getPort_losePort hwf]
    exact ⟨rfl, rfl, by rw [hexhaust], rfl, hreplay, hheads, hepisode⟩

end Sys2Proof.Machine

open Sys2Proof Sys2Proof.Machine

/-- Settles O39: a block by whether it is intact and in sequence, the replay a NAK starts by the attempt it is, and a port by its state, its
lanes and its exhausted episodes. How a port answers each block is the model's choice, log 116. -/
theorem linksAndPorts : Obligations.LinksAndPorts := ⟨link_blocks_are_taken_in_order, ports_answer_and_replay, ports_train_fail_and_retrain⟩
end

section
/-! O40: the header of a packet that has come in, and the departure of the packet a port serves next (13 R309 to R329). -/

namespace Sys2Proof.Machine

open Sys2Proof.Claims

-- Headers --------------------------------------------------------------------------------------------------------

/-- Whether the last packet that a port has begun to take still waits for bytes. -/
def packetOpen (x : Port) : Bool := match x.buf.getLast? with | some b => decide (b.need ≠ 0) | none => false

theorem packetOpen_eq_false {x : Port} (h : ∀ b, x.buf.getLast? = some b → b.need = 0) : packetOpen x = false := by
  unfold packetOpen
  split
  · next b hb => exact decide_eq_false (not_not.mpr (h b hb))
  · rfl

/-- The header that has come in at a port, its age grown by the time since the NAK of its block (13 R312, R323). -/
def headerIn (s : State) (x : Port) (rx : List Byte) : Packet :=
  let h := parseHeader (rx.take 32)
  { h with age := h.age + (if x.nakAt = 0 then 0 else ceilDiv (s.time - x.nakAt) 100000) }

/-- The module with a packet begun in a port's buffer for an output; the bytes behind the header fill it. -/
def putPacket (p : Fin 48) (rx : List Byte) (h : Packet) (now : Nat) (out : Option Nat) (s : State) : State :=
  setPort s p (feed (rx.drop 32) { getPort s p with
    rx := [], rxPkt := (getPort s p).rxPkt + 1, buf := (getPort s p).buf ++ [⟨h, out, now, bodyLen h⟩] })

/-- Where a header leads that passed the checks of version, type and length, in an enabled router (13 R318, R319, R324). -/
def routed (put : Option Nat → State → State) (h : Packet) (s : State) : State :=
  match wayOf s h with
  | .lost i => put (some 48) (bump i s)
  | .down q => notice 3 q h (put (some 48) s)
  | .here => put none s
  | .out q _ => put (some q) s

/-- The checks of a header in the order of R324: version, type and reserved bits, then length, then the router and the route. -/
theorem exec_packetHeaderArrival_of_header {s : State} {p : Fin 48} {rx : List Byte}
    (hidle : ∀ b, (getPort s p).buf.getLast? = some b → b.need = 0)
    (hrx : skipIdle ((getPort s p).rx.length + 1) (getPort s p).rx = rx) (hwhole : 32 ≤ rx.length) :
    exec (.packetHeaderArrival p) s = .next (
      let h := headerIn s (getPort s p) rx
      let put := putPacket p rx h s.time
      if h.ver ≠ 1 ∨ h.typ = 0 ∨ 4 < h.typ ∨ h.resv = true then put (some 48) (bump 0 s)
      else if 258 < h.len ∨ (h.len = 0 ∧ (h.typ = 1 ∨ h.typ = 4)) then notice 4 p h (put (some 48) (bump 1 s))
      else if s.fab.en = false then put (some 48) s
      else routed put h s) := by
  subst hrx
  have hgo : ¬(packetOpen (getPort s p) || decide ((skipIdle ((getPort s p).rx.length + 1) (getPort s p).rx).length < 32)) = true := by
    rw [packetOpen_eq_false hidle, decide_eq_false (Nat.not_lt.mpr hwhole)]
    decide
  show execPacketHeaderArrival p s = _
  refine congrArg Host.Outcome.next ((if_neg hgo).trans ?_)
  cases hen : s.fab.en <;> rfl

theorem headers_are_routed_or_dropped : Claims.HeadersAreRoutedOrDropped := by
  intro s p x rx h0 h put hidle hwhole
  have hrun := exec_packetHeaderArrival_of_header (p := p) hidle rfl hwhole
  refine ⟨fun hbad => hrun.trans (congrArg _ (if_pos hbad)), fun hver hlo hhi hresv => ?_⟩
  have hform : ¬(h.ver ≠ 1 ∨ h.typ = 0 ∨ 4 < h.typ ∨ h.resv = true) := by
    rintro (h1 | h0 | h4 | hset)
    · exact h1 hver
    · omega
    · omega
    · exact Bool.noConfusion (hresv.symm.trans hset)
  replace hrun := hrun.trans (congrArg _ (if_neg hform))
  refine ⟨fun hlen => hrun.trans (congrArg _ (if_pos hlen)), fun hshort hfull hen => ?_, fun hshort hfull hen => ?_⟩
  all_goals
    have hlen : ¬(258 < h.len ∨ (h.len = 0 ∧ (h.typ = 1 ∨ h.typ = 4))) := by omega
  · exact hrun.trans (congrArg _ ((if_neg hlen).trans (if_pos hen)))
  · exact hrun.trans (congrArg _ ((if_neg hlen).trans (if_neg (by rw [hen]; decide))))

-- Departures -----------------------------------------------------------------------------------------------------

/-- The module without the packet that a port serves next, which leaves its buffer or its endpoint's queue (13 R316). -/
def takenFrom (c : Cand) (s : State) : State :=
  match c.b with
  | some b => drain c.src b s
  | none => setEp s (c.src - 48) { getEp s (c.src - 48) with outq := (getEp s (c.src - 48)).outq.drop 1 }

/-- A packet's age when it departs: it grows by its stay in the buffer and by the link's delay (13 R323). -/
def departAge (s : State) (x : Port) (c : Cand) : Nat :=
  c.p.age + ceilDiv (s.time - (match c.b with | some b => b.at_ | none => s.time)) 100000 + ceilDiv (ceilDiv x.rtt 2) 100

/-- A port that sends a packet: its units are taken from the credits of its virtual channel, whose turn goes on (13 R316, R317). -/
def departPort (y : Port) (c : Cand) (age : Nat) : Port :=
  let v : Fin 8 := Fin.ofNat 8 c.vc
  sendBlocks { y with
    cred := y.cred.set v (y.cred[v] - unitsOf c.p)
    turns := y.turns.set v ((c.src + 1) % 304)
    vcTurn := if c.vc < 3 then y.vcTurn else (c.vc - 2) % 5 } { c.p with vc := c.vc, age := age }

/-- The packet that an open port serves next departs, or is dropped where it is past its lifetime. -/
theorem exec_packetDeparture_of_cand {s s1 : State} {p : Fin 48} {c : Cand} (hs1 : settleEps (sink (flushCtrl s)) = s1)
    (hen : s1.fab.en = true) (hup : (getPort s1 p).st = 2 ∨ (getPort s1 p).st = 3)
    (hc : pickCand (getPort s1 p).turns (getPort s1 p).vcTurn (cands s1 p) = some c)
    (hroom : (getPort s1 p).replay.length + ceilDiv (32 + bodyLen c.p) 500 ≤ 512) :
    exec (.packetDeparture p) s = .next (
      if 1000 < departAge s1 (getPort s1 p) c then bump 3 (takenFrom c s1)
      else setPort (takenFrom c s1) p (departPort (getPort (takenFrom c s1) p) c (departAge s1 (getPort s1 p) c))) := by
  have hgo : ¬((!s1.fab.en) = true ∨ ((getPort s1 p).st ≠ 2 ∧ (getPort s1 p).st ≠ 3)) := by
    rintro (h | ⟨h2, h3⟩)
    · rw [hen] at h
      cases h
    · exact hup.elim h2 h3
  show execPacketDeparture p s = _
  rw [execPacketDeparture, hs1]
  refine congrArg Host.Outcome.next ((if_neg hgo).trans ?_)
  simp only [hc]
  exact if_neg (Nat.not_lt.mpr hroom)

theorem packets_depart_in_turn : Claims.PacketsDepartInTurn := by
  intro s p c s1 x age s2 y v hen hup hc hroom
  have hrun := exec_packetDeparture_of_cand rfl hen hup hc hroom
  exact ⟨fun hold => hrun.trans (congrArg _ (if_pos hold)), fun hyoung => hrun.trans (congrArg _ (if_neg (Nat.not_lt.mpr hyoung)))⟩

end Sys2Proof.Machine

open Sys2Proof Sys2Proof.Machine

/-- Settles O40: a header by the checks it passes and its route, a departure by whether the packet is past its lifetime. -/
theorem packetsAreRouted : Obligations.PacketsAreRouted := ⟨headers_are_routed_or_dropped, packets_depart_in_turn⟩
end

section
/-! O42: notices and timers, the copy that is resent, and the registers of the fabric (13 R313, R318, R321, R324, R328, R329, R333). -/

namespace Sys2Proof.Machine

open Sys2Proof.Claims

-- Notices --------------------------------------------------------------------------------------------------------

/-- Whether a RETRY_START was reported by the module and port that a notice comes from (13 R329). -/
def reportedBy (p : Packet) (r : Nat × Nat × Nat) : Bool := decide (r.1 = p.arg1 / 65536) && decide (r.2.1 = p.arg1 / 32 % 64)

/-- The copy of an endpoint's sending channel that a PATH_LOST names: by channel, sequence, and whether it was resent (13 R329). -/
def lostTx (e : Nat) (p : Packet) (s : State) : Option (Nat × Chan × TxCopy) :=
  s.fab.chans.findSome? (fun ic => match ic.2 with
    | some c => if c.ep = e ∧ c.chn = p.chn ∧ c.recv = false then
        (c.tx.find? (fun t => decide (t.eseq % 2 ^ 32 = p.arg0) && (t.resent == decide (p.arg1 / 16 % 2 = 1)))).map (fun t => (ic.1, c, t))
        else none
    | none => none)

section
variable {s s1 : State} {ep : Byte} {p : Packet}

/-- RETRY_START pauses the endpoint's timers, those that already stand still from the loss of the reference on (13 R328, R329). -/
theorem exec_retryStart_of_notice (h : takeInq ep.toNat (fun p => decide (p.typ = 3) && decide (kindOf p = 1)) s = some (p, s1)) :
    exec (.retryStart ep) s = .next (setEp s1 ep.toNat { getEp s1 ep.toNat with
      retry := (getEp s1 ep.toNat).retry ++ [(p.arg1 / 65536, p.arg1 / 32 % 64, s1.time)]
      pausedAt := some ((getEp s1 ep.toNat).pausedAt.getD (if s1.fab.refDown then s1.fab.refAt else s1.time)) }) := by
  show execRetryStart ep s = _
  simp only [execRetryStart, h]
  rfl

/-- RETRY_END closes what the same module and port opened (13 R329). -/
theorem exec_retryEnd_of_notice (h : takeInq ep.toNat (fun p => decide (p.typ = 3) && decide (kindOf p = 2)) s = some (p, s1)) :
    exec (.retryEnd ep) s = .next (closeRetry ep.toNat (reportedBy p) s1) := by
  show execRetryEnd ep s = _
  simp only [execRetryEnd, h]
  rfl

/-- LENGTH ends the job of the endpoint (13 R324). -/
theorem exec_length_of_notice {k : Nat} (h : takeInq ep.toNat (fun p => decide (p.typ = 3) && decide (kindOf p = 4)) s = some (p, s1))
    (hk : (getEp s1 ep.toNat).part = some k) :
    exec (.length ep) s = .next (recordFault k stBounds 4 ep.toNat 0 false (bump 1 s1)) := by
  show execLength ep s = _
  simp only [execLength, h, hk]
  rfl

/-- PATH_LOST closes the RETRY_START of its reporter, and the copy it names is lost (13 R328, R329). -/
theorem exec_pathLost_of_notice (href : s.fab.refDown = false)
    (h : takeInq ep.toNat (fun p => decide (p.typ = 3) && decide (kindOf p = 3)) s = some (p, s1))
    {i : Nat} {c : Chan} {t : TxCopy} (hlost : lostTx ep.toNat p (closeRetry ep.toNat (reportedBy p) s1) = some (i, c, t)) :
    exec (.pathLost ep) s = .next (lostCopy stPathLost i c t (closeRetry ep.toNat (reportedBy p) s1)) := by
  show execPathLost ep s = _
  rw [execPathLost, href]
  simp only [h, Bool.not_eq_true']
  refine congrArg _ ((if_neg Bool.false_ne_true).trans ?_)
  generalize hr : List.findSome? _ _ = r
  obtain rfl : r = some (i, c, t) := hr.symm.trans hlost
  rfl

end

-- Timers ---------------------------------------------------------------------------------------------------------

section
variable {s : State} {ep : Byte} (href : s.fab.refDown = false) (hretry : (getEp s ep.toNat).retry = [])
include href hretry

/-- The timer of a channel's copy, with no pause, has run out: the copy is lost (13 R328). -/
theorem exec_transportTimeout_of_chan {i : Nat} {c : Chan} {t : TxCopy} (hep : ep.toNat ≠ 0) (hc : getChan s i = some c) (hmine : c.ep = ep.toNat)
    (hsend : c.recv = false) (hstop : c.stop = false)
    (ht : c.tx.find? (fun t => decide (t.at_ + t.paused + s.fab.tmo * 1000000 ≤ s.time)) = some t) :
    exec (.transportTimeout ep i) s = .next (lostCopy stTimeout i c t s) := by
  show execTransportTimeout ep i s = _
  simp only [execTransportTimeout, href, hretry, if_neg hep, hc, ht, hsend, hstop, hmine]
  rfl

/-- The timer of a CTRL packet's copy at endpoint 0 has run out: the copy is lost (13 R332). -/
theorem exec_transportTimeout_of_ctrl {i : Nat} {q : CtlSeq} {t : TxCopy} (hep : ep.toNat = 0) (hq : s.fab.sends[i]? = some q)
    (ht : q.tx.find? (fun t => decide (t.at_ + t.paused + s.fab.tmo * 1000000 ≤ s.time)) = some t) :
    exec (.transportTimeout ep i) s = .next (lostCtrl stTimeout q t s) := by
  show execTransportTimeout ep i s = _
  simp only [execTransportTimeout, href, hretry, if_pos hep, hq, ht]
  rfl

end

/-- While the reference is lost nothing is resent (13 R333). -/
theorem nothing_resent_of_refDown {s : State} (href : s.fab.refDown = true) (ep : Byte) :
    exec (.pathLost ep) s = .next s ∧ ∀ i, exec (.transportTimeout ep i) s = .next s :=
  ⟨congrArg Host.Outcome.next (if_pos href), fun _ => congrArg Host.Outcome.next (if_pos (by rw [href]; rfl))⟩

-- The copy that is resent ----------------------------------------------------------------------------------------

section
variable {t : TxCopy} (code i : Nat) (c : Chan) (s : State)

theorem lostCopy_of_resent (h : t.resent = true) : lostCopy code i c t s = recordFault c.part code 4 (c.ep + i * 256) 0 false s :=
  if_pos h

/-- The first loss resends the copy: the channel holds it as resent in the copy's place. -/
theorem tx_lostCopy_of_first (h : t.resent = false) :
    (getChan (lostCopy code i c t s) i).map Chan.tx = some (c.tx.map (fun u => if u.eseq = t.eseq then resendOf s t else u)) := by
  rw [lostCopy, if_neg (by rw [h]; exact Bool.false_ne_true)]
  refine (congrArg (Option.map Chan.tx) (getChan_sendPkt _ _ _ _)).trans ?_
  by_cases hcode : code = stPathLost
  · simp only [if_pos hcode]
    exact congrArg (Option.map Chan.tx) (getChan_setChan s i _)
  · simp only [if_neg hcode]
    exact congrArg (Option.map Chan.tx) (getChan_setChan s i _)

end

theorem notices_and_timers_resend_once : Claims.NoticesAndTimersResendOnce := by
  intro s s1 ep p e from_ arrives
  exact ⟨exec_retryStart_of_notice, exec_retryEnd_of_notice, rfl, fun _ => exec_length_of_notice,
    fun href => nothing_resent_of_refDown href ep, fun _ _ _ href h => exec_pathLost_of_notice href h,
    fun _ _ _ hep href hretry => exec_transportTimeout_of_chan href hretry hep,
    fun _ _ _ hep href hretry => exec_transportTimeout_of_ctrl href hretry hep,
    fun code i c t => ⟨lostCopy_of_resent code i c s, tx_lostCopy_of_first code i c s⟩⟩

-- The registers --------------------------------------------------------------------------------------------------

/-- An entry without a reserved bit whose ports are licensed is written, and the module index moves on (13 R318). -/
theorem exec_cxTblData_of_legal {s : State} {v : Word} (hres : fld v 17 15 = 0)
    (hmain : v.getLsbD 7 = true → portOn (licPorts s) (fld v 0 6) = true)
    (halt : v.getLsbD 15 = true → portOn (licPorts s) (fld v 8 6) = true) :
    exec (.cxTblData (some v)) s = .next { s with fab := { s.fab with
      table := tset 0 s.fab.table (s.fab.tblBank * 65536 + s.fab.tblMod) v, tblMod := (s.fab.tblMod + 1) % 65536 } } := by
  have hlic : ¬((v.getLsbD 7 && !portOn (licPorts s) (fld v 0 6)) || (v.getLsbD 15 && !portOn (licPorts s) (fld v 8 6))) = true := by
    simp only [Bool.or_eq_true, Bool.and_eq_true, Bool.not_eq_true']
    rintro (⟨hused, hoff⟩ | ⟨hused, hoff⟩)
    · exact Bool.noConfusion (hoff.symm.trans (hmain hused))
    · exact Bool.noConfusion (hoff.symm.trans (halt hused))
  refine congrArg (fun r : Nat × State => Host.Outcome.next r.2) (?_ : writeTable v s = (stOK, _))
  exact (if_neg (not_not.mpr hres)).trans (if_neg hlic)

/-- A reserved bit, or a port that is not licensed, leaves the entry (13 R318; 01 R21). -/
theorem exec_cxTblData_of_illegal {s : State} {v : Word}
    (hbad : fld v 17 15 ≠ 0 ∨ (v.getLsbD 7 = true ∧ ¬portOn (licPorts s) (fld v 0 6) = true) ∨
      (v.getLsbD 15 = true ∧ ¬portOn (licPorts s) (fld v 8 6) = true)) :
    exec (.cxTblData (some v)) s = .next s := by
  refine congrArg Host.Outcome.next (?_ : (writeTable v s).2 = s)
  by_cases hres : fld v 17 15 = 0
  · have hlic : ((v.getLsbD 7 && !portOn (licPorts s) (fld v 0 6)) || (v.getLsbD 15 && !portOn (licPorts s) (fld v 8 6))) = true := by
      simpa [hres] using hbad
    exact congrArg Prod.snd ((if_neg (not_not.mpr hres)).trans (if_pos hlic))
  · exact congrArg Prod.snd (if_pos hres)

/-- Whether a bank cannot be set writing: it is in use, or was left less than 100 µs ago (13 R321). -/
def bankInUse (s : State) (v : Word) (n : Nat) : Bool :=
  decide (n = (v.getLsbD 0).toNat) || decide (n = s.fab.inj) ||
    (match s.fab.left with | some t => decide (s.time < t + 100000000) | none => false)

theorem bankInUse_iff {s : State} {v : Word} {n : Nat} : bankInUse s v n = true ↔
    n = (v.getLsbD 0).toNat ∨ n = s.fab.inj ∨ ∃ t, s.fab.left = some t ∧ s.time < t + 100000000 := by
  unfold bankInUse
  cases s.fab.left <;> simp [or_assoc]

/-- Whether CX_EPOCH would newly set writing a bank that cannot be (13 R321). -/
def bankRefused (s : State) (v : Word) (n : Fin 2) : Bool := v.getLsbD ((n : Nat) + 1) && !s.fab.wr[n] && bankInUse s v n

/-- CX_EPOCH changes the banks unless it would newly set writing one that cannot be. -/
theorem exec_cxEpoch (v : Word) (s : State) :
    exec (.cxEpoch v) s = .next (
      if (bankRefused s v 0 || bankRefused s v 1) = true then s
      else { s with fab := { s.fab with
        inj := (v.getLsbD 0).toNat, left := if (v.getLsbD 0).toNat ≠ s.fab.inj then some s.time else s.fab.left
        wr := #v[v.getLsbD 1, v.getLsbD 2]
        chans := if (v.getLsbD 0).toNat = s.fab.inj then s.fab.chans
          else tmapv none (fun _ c => c.map (fun c => { c with alt := none })) s.fab.chans } }) :=
  congrArg Host.Outcome.next (apply_ite Prod.snd _ _ _)

theorem exec_cxEpoch_of_free {v : Word} (s : State) (h1 : v.getLsbD 1 = false) (h2 : v.getLsbD 2 = false) :
    exec (.cxEpoch v) s = .next { s with fab := { s.fab with
      inj := (v.getLsbD 0).toNat, left := if (v.getLsbD 0).toNat ≠ s.fab.inj then some s.time else s.fab.left, wr := #v[false, false]
      chans := if (v.getLsbD 0).toNat = s.fab.inj then s.fab.chans
        else tmapv none (fun _ c => c.map (fun c => { c with alt := none })) s.fab.chans } } := by
  have hfree : ¬(bankRefused s v 0 || bankRefused s v 1) = true := by
    rw [bankRefused, bankRefused, show v.getLsbD (((0 : Fin 2) : Nat) + 1) = false from h1, show v.getLsbD (((1 : Fin 2) : Nat) + 1) = false from h2]
    exact Bool.false_ne_true
  rw [exec_cxEpoch, h1, h2]
  exact congrArg Host.Outcome.next (if_neg hfree)

theorem exec_cxEpoch_of_busy {s : State} {v : Word} (n : Fin 2) (hset : v.getLsbD ((n : Nat) + 1) = true) (hwr : s.fab.wr[n] = false)
    (huse : bankInUse s v n = true) : exec (.cxEpoch v) s = .next s := by
  have hbad : bankRefused s v n = true := by
    rw [bankRefused, hset, hwr, huse]
    rfl
  refine (exec_cxEpoch v s).trans (congrArg Host.Outcome.next (if_pos ?_))
  match n, hbad with
  | 0, hbad => rw [hbad, Bool.true_or]
  | 1, hbad => rw [hbad, Bool.or_true]

theorem exec_cxCfg (v : Word) (s : State) :
    exec (.cxCfg v) s = .next (if s.fab.en = true ∧ fld v 0 16 ≠ s.modnum then s
      else { s with modnum := fld v 0 16, fab := { s.fab with en := v.getLsbD 16 } }) :=
  congrArg Host.Outcome.next (apply_ite Prod.snd _ _ _)

theorem fabric_registers_are_written : Claims.FabricRegistersAreWritten := by
  intro s v f inj on
  refine ⟨rfl, exec_cxTblData_of_legal, exec_cxTblData_of_illegal, exec_cxEpoch_of_free s,
    fun n hset hwr huse => exec_cxEpoch_of_busy n hset hwr (bankInUse_iff.mpr huse), fun hok => ?_, fun hen hne => ?_, fun p _ => ?_⟩
  · exact (exec_cxCfg v s).trans (congrArg _ (if_neg (by rintro ⟨hen, hne⟩; exact hok.elim (fun h => Bool.noConfusion (h.symm.trans hen)) hne)))
  · exact (exec_cxCfg v s).trans (congrArg _ (if_pos ⟨hen, hne⟩))
  · exact ⟨decide_eq_true_iff, decide_eq_true_iff, decide_eq_true (Nat.mod_lt p (by decide))⟩

end Sys2Proof.Machine

open Sys2Proof Sys2Proof.Machine

/-- Settles O42: a notice by its kind, a copy by whether it was resent before, and a register by what it is written. -/
theorem transportResendsAndRegisters : Obligations.TransportResendsAndRegisters :=
  ⟨notices_and_timers_resend_once, fabric_registers_are_written⟩
end

section
/-! O52, O53: a step takes the front command, and the module after reset. -/

namespace Sys2Proof.Machine

/-- The class code of the function stands above the revision, which is left open (14 R336). -/
theorem configWord_class {s : State} {w : Word} (h : configWord s 0x08 = some w) : fld w 8 24 = s.host.pci.classCode.toNat := by
  obtain rfl := Option.some.inj h
  have hlt := s.host.pci.classCode.isLt
  rw [fields, fld_ofNat _ (by decide)]
  simp only [List.map_cons, List.map_nil, List.foldl_cons, List.foldl_nil]
  omega

end Sys2Proof.Machine

open Sys2Proof Sys2Proof.Machine

/-- Settles O52: the step by whether a command waits; the queue and the idling are the model's (log 1). -/
theorem stepRunsTheFrontCommand : Obligations.StepRunsTheFrontCommand := fun _ _ _ => ⟨rfl, rfl⟩

/-- Settles O53, field by field of the reset state. That a register without a stated value is 0 (log 3), that the fuses are not yet written
(log 4), and the numbers of the locator's kinds (log 118) are the model's readings. -/
theorem resetIsAsTheSpecSays : Obligations.ResetIsAsTheSpecSays := by
  have hbars : ∀ off, off ∈ [0x18, 0x1C, 0x20, 0x24] → configWord State.reset off = some 0 := by decide
  have hpred : predGet Core.zero.p 0 = true := by decide
  exact ⟨fun _ hw => configWord_class hw, rfl, rfl, hbars, rfl, rfl, rfl, fun _ => ⟨rfl, hpred, rfl⟩, rfl, rfl, rfl, rfl, rfl,
    fun _ => ⟨rfl, rfl, rfl⟩, fun _ => ⟨rfl, rfl⟩, fun _ => rfl, fun _ => rfl, rfl, rfl, rfl, rfl, rfl⟩
end

section
/-! O25: doorbells, the enabling and stopping of a pair, the holdoff of a vector, and the capture of the tide count (14 R339, R342, R347,
Table 14-4). -/

namespace Sys2Proof.Machine

-- Pairs and vectors that are written -----------------------------------------------------------------------------

/-- A pair that is not as at reset reads back as written, in whatever order the table lists its keys. -/
theorem getQp_setQp_of_nonzero (s : State) (q : Nat) {p : Qp} (h : p ≠ Qp.zero) : getQp (setQp s q p) q = p :=
  tget_tset_of_ne Qp.zero s.host.qps q p h

theorem qp_ne_zero_of_en {p : Qp} (h : p.en = true) : p ≠ Qp.zero := by rintro rfl; cases h

/-- A ring error stops its pair with BOUNDS and leaves every other (14 R342). -/
theorem ringError_stops (q : Nat) (s : State) :
    (getQp (ringError q s) q).en = false ∧ (getQp (ringError q s) q).err = true ∧ (getQp (ringError q s) q).code = stBounds ∧
      ∀ j, j ≠ q → getQp (ringError q s) j = getQp s j := by
  have hback : getQp (ringError q s) q =
      { getQp s q with err := true, code := stBounds, en := false, cq := [], events := [], lost := false, taken := 0 } :=
    getQp_setQp_of_nonzero s q fun h => by cases congrArg Qp.err h
  rw [hback]
  exact ⟨rfl, rfl, rfl, fun j hj => getQp_setQp_of_ne s q j _ hj⟩

/-- Where no event waits and none was lost there is nothing to write. -/
theorem drainEvents_of_none {q : Nat} {s : State} (he : (getQp s q).events = []) (hl : (getQp s q).lost = false) (fuel : Nat) :
    drainEvents q fuel s = s := by
  cases fuel with
  | zero => rfl
  | succ fuel => simp [drainEvents, he, hl]

-- Doorbells ------------------------------------------------------------------------------------------------------

/-- How many entries of its completion ring a write of CQ_HEAD consumes. -/
def consumed (p : Qp) (head : Nat) : Nat := (head + (ringSize p.cqsz - p.cqHead)) % ringSize p.cqsz

section
variable {s : State} {q : Fin 33} (i : BitVec 12)

theorem exec_doorbells_of_disabled (h : (getQp s q).en = false) : exec (.sqTail q i) s = .next s ∧ exec (.cqHead q i) s = .next s :=
  ⟨congrArg Host.Outcome.next (if_pos (by rw [h]; rfl)), congrArg Host.Outcome.next (if_pos (by rw [h]; rfl))⟩

variable (h : (getQp s q).en = true)
include h

theorem exec_sqTail : exec (.sqTail q i) s = .next
    (if ringSize (getQp s q).sqsz ≤ i.toNat then ringError q s else setQp s q { getQp s q with sqTail := i.toNat }) :=
  congrArg Host.Outcome.next (if_neg (by rw [h]; decide))

theorem exec_cqHead : exec (.cqHead q i) s = .next
    (if ringSize (getQp s q).cqsz ≤ i.toNat ∨ (getQp s q).cq.length < consumed (getQp s q) i.toNat then ringError q s
      else drainEvents q 66 (setQp s q
        { getQp s q with cqHead := i.toNat, cq := (getQp s q).cq.drop (consumed (getQp s q) i.toNat) })) :=
  congrArg Host.Outcome.next (if_neg (by rw [h]; decide))

end

theorem doorbells_move_their_index : Claims.DoorbellsMoveTheirIndex := by
  intro s q i p
  refine ⟨exec_doorbells_of_disabled i, fun hen hlt => ?_, fun hen hge => ?_, fun hen hlt hev hlost n hn hle => ?_, fun hen hbad => ?_⟩
  · exact (exec_sqTail i hen).trans (congrArg _ (if_neg (Nat.not_le.mpr hlt)))
  · exact ⟨_, (exec_sqTail i hen).trans (congrArg _ (if_pos hge)), ringError_stops q s⟩
  · subst hn
    refine (exec_cqHead i hen).trans (congrArg _ ((if_neg (by rw [not_or]; exact ⟨Nat.not_le.mpr hlt, Nat.not_lt.mpr hle⟩)).trans ?_))
    have hback := getQp_setQp_of_nonzero s q
      (p := { p with cqHead := i.toNat, cq := p.cq.drop (consumed p i.toNat) }) (qp_ne_zero_of_en hen)
    exact drainEvents_of_none (by rw [hback]; exact hev) (by rw [hback]; exact hlost) 66
  · exact ⟨_, (exec_cqHead i hen).trans (congrArg _ (if_pos hbad)), ringError_stops q s⟩

-- Pairs enabled and stopped --------------------------------------------------------------------------------------

/-- A pair as a write of QP_CTRL leaves its sizes and its vector: written while EN is 0, kept while it is 1 (14 Table 14-4). -/
def sized (v : Word) (p : Qp) : Qp :=
  if p.en then p else { p with sqsz := min 8 (fld v 0 4), cqsz := min 8 (fld v 4 4), vec := some (fld v 16 6) }

/-- A pair that is enabled anew (14 R342). -/
def enabledPair (epoch : Nat) (p : Qp) : Qp :=
  { p with en := true, err := false, code := 0, sqHead := 0, sqTail := 0, cqHead := 0, cqTail := 0, phase := true, epoch := epoch + 1, taken := 0
           cq := [], events := [], lost := false }

/-- A pair whose EN is cleared (14 R342). -/
def disabledPair (p : Qp) : Qp := { p with en := false, cq := [], events := [], lost := false, taken := 0 }

section
variable {v : Word} {p : Qp}

theorem sized_of_disabled (h : p.en = false) :
    sized v p = { p with sqsz := min 8 (fld v 0 4), cqsz := min 8 (fld v 4 4), vec := some (fld v 16 6) } := if_neg (by rw [h]; decide)

theorem sized_of_enabled (h : p.en = true) : sized v p = p := if_pos h

end

theorem exec_qpEnable (q : Fin 33) (v : Word) (s : State) : exec (.qpEnable q v) s = .next (
    if v.getLsbD 8 && !(getQp s q).en then setQp s q (enabledPair (getQp s q).epoch (sized v (getQp s q)))
    else if !v.getLsbD 8 && (getQp s q).en then setQp s q (disabledPair (sized v (getQp s q)))
    else setQp s q (sized v (getQp s q))) := rfl

theorem queue_pairs_enable_and_stop : Claims.QueuePairsEnableAndStop := by
  intro s q v p
  refine ⟨fun hen hon => ?_, fun hen hoff => ?_, fun hen hoff => ?_, fun hen hon => ?_⟩ <;> rw [exec_qpEnable]
  · rw [sized_of_disabled hen, hon, show (getQp s q).en = false from hen]
    rfl
  · rw [sized_of_enabled hen, hoff, show (getQp s q).en = true from hen]
    rfl
  · rw [sized_of_disabled hen, hoff, Bool.false_and, if_neg Bool.false_ne_true, show (getQp s q).en = false from hen]
    rfl
  · rw [sized_of_enabled hen, hon, show (getQp s q).en = true from hen]
    rfl

-- Vectors and the tide count -------------------------------------------------------------------------------------

theorem vectors_and_the_count_register : Claims.VectorsAndTheCountRegister := by
  intro s v x
  have hon : x.off = true → ¬ (!x.off) = true := fun h => by rw [h]; decide
  refine ⟨fun hoff => ?_, fun hoff hwait => ?_, fun hoff hwait => ?_, rfl⟩
  · exact congrArg Host.Outcome.next (if_pos (by rw [show (getVec s v).off = false from hoff]; rfl))
  · exact congrArg Host.Outcome.next ((if_neg (hon hoff)).trans (if_pos hwait))
  · exact congrArg Host.Outcome.next ((if_neg (hon hoff)).trans (if_neg (ne_true_of_eq_false hwait)))

end Sys2Proof.Machine

open Sys2Proof Sys2Proof.Machine

/-- Settles O25: a doorbell by whether its pair is enabled and its index fits, a write of QP_CTRL by the EN it finds and the EN it writes, a
vector by what its holdoff holds back. That a size code above 8 acts as 8 is the model's reading (log 31). -/
theorem queuePairsAndVectors : Obligations.QueuePairsAndVectors :=
  ⟨doorbells_move_their_index, queue_pairs_enable_and_stop, vectors_and_the_count_register⟩
end

section
/-! O26: the taking of entries in turn, the writing of completions and events, and commands out of turn or form (14 R342 to R348). -/

namespace Sys2Proof.Machine

open Sys2Proof.Claims

-- Taking an entry ------------------------------------------------------------------------------------------------

theorem entries_are_taken_in_turn : Claims.EntriesAreTakenInTurn := by
  intro s t q h
  obtain ⟨hturn, rfl⟩ := takeEntry_some_iff.mp h
  have hback := getQp_setQp_of_nonzero s q
    (p := { getQp s q with sqHead := ((getQp s q).sqHead + 1) % ringSize (getQp s q).sqsz, taken := (getQp s q).taken + 1 })
    fun hz => Nat.succ_ne_zero _ (congrArg Qp.taken hz)
  exact ⟨hturn, List.find?_some hturn, congrArg Qp.sqHead hback, congrArg Qp.taken hback, rfl, fun j hj => getQp_setQp_of_ne s q j _ hj, rfl⟩

-- Writing an entry -----------------------------------------------------------------------------------------------

/-- An entry that is written stands at the tail, with the pair's phase and head; the phase inverts where the tail wraps (14 R344). -/
theorem pushCq_fields (p : Qp) (e : CqEntry) :
    (pushCq p e).cq = p.cq ++ [{ e with phase := p.phase, sqHead := p.sqHead }] ∧
      (pushCq p e).cqTail = (if ringSize p.cqsz ≤ p.cqTail + 1 then 0 else p.cqTail + 1) ∧
      (pushCq p e).phase = if ringSize p.cqsz ≤ p.cqTail + 1 then !p.phase else p.phase := by
  simp only [pushCq, decide_eq_true_eq, and_self]

theorem pushCq_ne_zero (p : Qp) (e : CqEntry) : pushCq p e ≠ Qp.zero := fun h => by
  have hcq := congrArg Qp.cq h
  rw [(pushCq_fields p e).1] at hcq
  exact List.append_ne_nil_of_right_ne_nil _ (List.cons_ne_nil _ _) hcq

/-- A pair that is written, with a vector raised, reads back as written; no other pair changes, and beside the host attachment nothing. -/
theorem raiseVec_setQp (s : State) (q v : Nat) {p : Qp} (h : p ≠ Qp.zero) :
    getQp (raiseVec (setQp s q p) v) q = p ∧ (∀ j, j ≠ q → getQp (raiseVec (setQp s q p) v) j = getQp s j) ∧
      { raiseVec (setQp s q p) v with host := s.host } = s := by
  obtain ⟨x, hx⟩ := raiseVec_eq (setQp s q p) v
  rw [hx]
  exact ⟨getQp_setQp_of_nonzero s q h, fun j hj => getQp_setQp_of_ne s q j p hj, rfl⟩

/-- A vector outside its holdoff is raised once more (14 R347). -/
theorem raised_raiseVec {s : State} {v : Nat} (h : (getVec s v).off = false) : (getVec (raiseVec s v) v).raised = (getVec s v).raised + 1 := by
  have hrun : raiseVec s v = setVec s v { getVec s v with raised := (getVec s v).raised + 1, off := true } := if_neg (ne_true_of_eq_false h)
  rw [hrun, getVec, show (setVec s v _).host.vecs = tset Vec.zero s.host.vecs v _ from rfl,
    tget_tset_of_ne _ _ _ _ fun hz => by cases congrArg Vec.off hz]

theorem completions_are_written : Claims.CompletionsAreWritten := by
  intro s q epoch cid st part state res p t
  refine ⟨fun hen hep => ?_, fun hoff => (complete_eq ..).trans (if_neg ?_)⟩
  · obtain ⟨hcq, htail, hphase⟩ := pushCq_fields { p with taken := p.taken - 1 } ⟨cid, st, false, 0, 0, part, state, res⟩
    obtain ⟨hback, hothers, hframe⟩ := raiseVec_setQp s q (vecOf q p)
      (pushCq_ne_zero { p with taken := p.taken - 1 } ⟨cid, st, false, 0, 0, part, state, res⟩)
    rw [show t = raiseVec _ (vecOf q p) from (complete_eq ..).trans (if_pos ⟨hen, hep⟩), hback]
    exact ⟨hcq, htail, hphase, hothers, hframe⟩
  · rintro ⟨hen, hep⟩
    exact hoff.elim (fun h => Bool.false_ne_true (h.symm.trans hen)) fun h => h hep

-- Posting an event -----------------------------------------------------------------------------------------------

/-- Whether an event is written at once: none waits, none was lost, and the ring has room. -/
def eventFits (p : Qp) : Bool := p.events.isEmpty && !p.lost && decide (0 < cqRoom p)

theorem eventFits_iff (p : Qp) : eventFits p = true ↔ p.events = [] ∧ p.lost = false ∧ p.taken + p.cq.length + 1 < ringSize p.cqsz := by
  have hroom : 0 < cqRoom p ↔ p.taken + p.cq.length + 1 < ringSize p.cqsz := by
    rw [cqRoom]
    omega
  rw [eventFits, Bool.and_eq_true, Bool.and_eq_true, List.isEmpty_iff, Bool.not_eq_true', decide_eq_true_eq, hroom, and_assoc]

/-- Posting to an enabled pair: written, kept, or lost. -/
theorem postTo_of_enabled {s : State} {q : Nat} (e : Event) (h : (getQp s q).en = true) : postTo q e s =
    if eventFits (getQp s q) then raiseVec (setQp s q (pushCq (getQp s q) (eventEntry e))) (vecOf q (getQp s q))
    else if (getQp s q).events.length < 64 then setQp s q { getQp s q with events := (getQp s q).events ++ [e] }
    else setQp s q { getQp s q with evlost := true, lost := true } :=
  if_neg (by rw [h]; decide)

theorem events_wait_for_room : Claims.EventsWaitForRoom := by
  intro s q e p t room
  have hfits : eventFits p = true ↔ room := eventFits_iff p
  refine ⟨fun hoff => if_pos (by rw [show (getQp s q).en = false from hoff]; rfl), fun hen hroom => ?_, fun hen hroom hlen => ?_,
    fun hen hroom hlen => ?_⟩
  · obtain ⟨hback, hothers, -⟩ := raiseVec_setQp s q (vecOf q p) (pushCq_ne_zero p (eventEntry e))
    obtain ⟨x, hx⟩ := raiseVec_eq (setQp s q (pushCq p (eventEntry e))) (vecOf q p)
    rw [show t = raiseVec (setQp s q (pushCq p (eventEntry e))) (vecOf q p) from
      (postTo_of_enabled e hen).trans (if_pos (hfits.mpr hroom)), hback]
    exact ⟨(pushCq_fields p (eventEntry e)).1, hothers, ⟨x, hx⟩, fun hoff => raised_raiseVec hoff⟩
  · exact (postTo_of_enabled e hen).trans ((if_neg (mt hfits.mp hroom)).trans (if_pos hlen))
  · exact (postTo_of_enabled e hen).trans ((if_neg (mt hfits.mp hroom)).trans (if_neg (Nat.not_lt.mpr hlen)))

-- Commands out of turn or form -----------------------------------------------------------------------------------

/-- An entry with the identifier of events breaks the format (14 R343). -/
theorem badForm_of_event_cid {c : Cmd} {modCmd useTc useBuf : Bool} {masks : List Nat} (h : c.cid = 0xFFFF#16) :
    badForm c modCmd useTc useBuf masks = true := by
  simp [badForm, h]

/-- A row is a command that is taken, checked and carried out, and whose checks refuse the identifier of events with FORMAT. -/
def ChecksForm (c : Cmd) (x : Instr × Nat × Bool) : Prop :=
  ∃ (checks : State → List (Bool × Nat)) (f : State → Reply),
    (∀ s, exec x.1 s = runCmd x.2.1 x.2.2 c checks f s) ∧ (c.cid = 0xFFFF#16 → ∀ t, firstCode (checks t) = some stFormat)

theorem checksForm_of {c : Cmd} {i : Instr} {opc : Nat} {m : Bool} (meaning : Cmd → State → Out) {checks : State → List (Bool × Nat)}
    {f : State → Reply} (hrun : ∀ s, meaning c s = runCmd opc m c checks f s)
    (hbad : c.cid = 0xFFFF#16 → ∀ t, firstCode (checks t) = some stFormat) (hexec : ∀ s, exec i s = meaning c s := by exact fun _ => rfl) :
    ChecksForm c (i, opc, m) :=
  ⟨checks, f, fun s => (hexec s).trans (hrun s), hbad⟩

theorem hostOps_check_form (c : Cmd) : ∀ x ∈ hostOps c, ChecksForm c x := by
  have hform := fun {m tc buf masks} => @badForm_of_event_cid c m tc buf masks
  simp only [hostOps, List.forall_mem_cons, List.not_mem_nil, false_imp_iff, implies_true, and_true]
  refine ⟨?_, ?_, ?_, ?_, ?_, ?_, ?_, ?_, ?_, ?_, ?_, ?_, ?_, ?_, ?_, ?_, ?_, ?_, ?_, ?_, ?_⟩
  · exact checksForm_of execModQuery (fun _ => rfl) fun h _ => if_pos (hform h)
  · exact checksForm_of execRegRead (fun _ => by dsimp only [execRegRead, regArgs]) fun h _ => by exact if_pos (by simp only [hform h, Bool.true_or])
  · exact checksForm_of execRegWrite (fun _ => rfl) fun h _ => if_pos (by simp only [hform h, Bool.true_or])
  · exact checksForm_of execLicenceInstall (fun _ => by dsimp only [execLicenceInstall]) fun h _ => by
      exact if_pos (by simp only [hform h, Bool.true_or])
  · exact checksForm_of execTestpackLoad (fun _ => by dsimp only [execTestpackLoad]) fun h _ => by
      exact if_pos (by simp only [hform h, Bool.true_or])
  · exact checksForm_of execPartQuery (fun _ => rfl) fun h _ => if_pos (hform h)
  · exact checksForm_of execPartReset (fun _ => rfl) fun h _ => if_pos (hform h)
  · exact checksForm_of execWindowOpen (fun _ => rfl) fun h _ => if_pos (hform h)
  · exact checksForm_of execWindowClose (fun _ => rfl) fun h _ => if_pos (hform h)
  · exact checksForm_of execJobStart (fun _ => rfl) fun h _ => if_pos (hform h)
  · exact checksForm_of execJobHold (fun _ => rfl) fun h _ => if_pos (hform h)
  · exact checksForm_of execJobResume (fun _ => by dsimp only [execJobResume]) fun h _ => by exact if_pos (hform h)
  · exact checksForm_of execJobAbort (fun _ => rfl) fun h _ => if_pos (hform h)
  · exact checksForm_of execJobSave (fun _ => rfl) fun h _ => if_pos (hform h)
  · exact checksForm_of execJobExport (fun _ => by dsimp only [execJobExport]) fun h _ => by exact if_pos (hform h)
  · exact checksForm_of execJobStatus (fun _ => rfl) fun h _ => if_pos (hform h)
  · exact checksForm_of execFlagSetCommand (fun _ => by dsimp only [execFlagSetCommand]) fun h _ => by exact if_pos (hform h)
  · exact checksForm_of execStreamStart (fun _ => rfl) fun h _ => if_pos (hform h)
  · exact checksForm_of execStreamRelease (fun _ => rfl) fun h _ => if_pos (hform h)
  · exact checksForm_of execStreamStop (fun _ => rfl) fun h _ => if_pos (hform h)
  · exact checksForm_of execStreamDrain (fun _ => rfl) fun h _ => if_pos (hform h)

theorem commands_out_of_turn_or_form_change_nothing : Claims.CommandsOutOfTurnOrFormChangeNothing := by
  intro s s1 c i opc m hmem
  obtain ⟨checks, f, hrun, hbad⟩ := hostOps_check_form c _ hmem
  rw [hrun s]
  exact ⟨fun hnone => runCmd_of_none hnone, fun htake hcid => runCmd_of_refused htake (hbad hcid s1)⟩

end Sys2Proof.Machine

open Sys2Proof Sys2Proof.Machine

/-- Settles O26: an entry by the turn, a completion and an event by the pair they are written to, a command by whether it is taken and, with
the identifier of events, by the first of its checks. That CID 0xFFFF is FORMAT (log 31) and that a refusal is logged (log 30) are the model's
readings. -/
theorem commandsAreTakenAndCompleted : Obligations.CommandsAreTakenAndCompleted :=
  ⟨entries_are_taken_in_turn, completions_are_written, events_wait_for_room, commands_out_of_turn_or_form_change_nothing⟩
end

section
/-! O29: JOB_START, at once and with a count, JOB_HOLD and JOB_RESUME (14 R351, R355; 02 R40 to R42; 18 R450). -/

namespace Sys2Proof.Machine

open Sys2Proof.Claims

-- Starting -------------------------------------------------------------------------------------------------------

/-- A core that has been given a start count. -/
def orderedCore (T : Nat) (c : Core) : Core := { c with x := { c.x with commit := some T } }

theorem badPointer_orderedCore (T : Nat) (c : Core) : badPointer (orderedCore T c) = badPointer c := rfl

/-- A core of LOADED in the partition waits for the count it is given; every other core stays as it was. -/
theorem getCore_orderStart {s : State} (k T : Nat) (hwf : twf Core.zero s.cores = true) (g : Nat) : getCore (orderStart k T s) g =
    if inPart s k g && decide ((getCore s g).r.st = .loaded) then orderedCore T (getCore s g) else getCore s g := by
  have hz : (inPart s k g && decide (Core.zero.r.st = .loaded)) = false := Bool.and_false _
  exact getCore_mapCores (f := fun _ => orderedCore T) hwf fun h => by rw [hz] at h; cases h

theorem startsNow_of_out {s : State} {k g : Nat} (c : Core) (h : inPart s k g = false) : startsNow s k g c = false := by
  rw [startsNow, h]
  rfl

/-- A core of LOADED that is given count 0 starts at once. -/
theorem startsNow_of_ordered {s : State} {k g : Nat} {c : Core} (h : inPart s k g = true) (hst : c.r.st = .loaded) :
    startsNow s k g (orderedCore 0 c) = true := by
  rw [startsNow, h, show (orderedCore 0 c).r.st = .loaded from hst]
  exact decide_eq_true (p := 0 ≤ (getNode s (panOf g)).steps) (Nat.zero_le _)

/-- A core whose count has come starts; every other stays as it was. -/
theorem getCore_startCores {s : State} (k : Nat) (hwf : twf Core.zero s.cores = true) (g : Nat) : getCore (startCores k s) g =
    if startsNow s k g (getCore s g) then startedCore s k g (getCore s g) else getCore s g := by
  have hz : startsNow s k g Core.zero = false := by rw [startsNow, show Core.zero.r.st = .clear from rfl]; simp
  exact getCore_mapCores (p := startsNow s k) (f := startedCore s k) hwf fun h => by rw [hz] at h; cases h

/-- A core with valid pointer words that starts enters RUN, or HOLD where its partition is HELD (02 R40; 14 R355). -/
theorem startedCore_st {s : State} (k g : Nat) {c : Core} (h : badPointer c = none) :
    (startedCore s k g c).r.st = if (getPart s k).st = .held then .hold else .run := by
  have hrun := (enterRun_of_valid (envOf s g) (!(getPart s k).restored) (c := { c with x := { c.x with commit := none } }) h).1
  by_cases hh : (getPart s k).st = .held <;> simp [startedCore, hh, hrun]

/-- The module once a job that starts at once has started. -/
def startedNow (k : Nat) (s : State) : State := startCores k (orderStart k 0 (modPart s k (startedPart s)))

/-- The module once a job that starts at a count has been ordered to, before the COMMIT leaves. -/
def startOrdered (c : Cmd) (s : State) : State := modPart (modPart s c.part (startedPart s)) c.part
  (fun p => { p with starts := some (stepOf s c.tc), long := some (longOf .start c [stepOf s c.tc] [] s) })

theorem startedPart_st (s : State) (p : Part) : (startedPart s p).st = if s.power.parked then .held else .running := by
  rw [startedPart]
  split <;> rfl

theorem startedPart_st_ne (s : State) (p : Part) : (startedPart s p).st ≠ .none := by
  rw [startedPart_st]
  split <;> decide

section
variable {s s1 : State} {c : Cmd} (hgo : goes c s s1) (hform : badForm c false true false [] = false) (hT : isT s1 c = true)
  (hst : (getPart s1 c.part).st = .ready) (hlong : (getPart s1 c.part).long = none)
include hgo hform hT hst hlong

theorem exec_jobStart_of_no_count (htc : c.tc = 0) (hfree : s1.tide.frozen = false) :
    exec (.jobStart c) s = .next (answered c false s1 stOK [] (startedNow c.part s1)) := by
  rw [show exec (.jobStart c) s = execJobStart c s from rfl, execJobStart]
  refine runCmd_of_ok hgo.1 ?_ ?_
  · simp only [hform, hT, hgo.2, inSt, hst, htc, longBusy, hlong]
    rfl
  · simp only [htc, hfree]
    rfl

theorem exec_jobStart_of_count (htc : c.tc ≠ 0) (hahead : isAhead s1 c.tc = true) (hlo : 8192 ≤ aheadBy s1 c.tc)
    (hhi : aheadBy s1 c.tc ≤ 2 ^ 32) :
    exec (.jobStart c) s = .next (broadcast (startOrdered c s1) c.part (.commit (stepOf s1 c.tc))) := by
  rw [show exec (.jobStart c) s = execJobStart c s from rfl, execJobStart]
  refine runCmd_of_later hgo.1 ?_ (if_neg htc)
  simp only [hform, hT, hgo.2, inSt, hst, longBusy, hlong, hahead, decide_eq_false (Nat.not_lt.mpr hlo), decide_eq_false (Nat.not_lt.mpr hhi)]
  simp [firstCode]

end

/-- Starting touches the cores and its partition. -/
theorem getPart_startedNow (k : Nat) (s : State) : getPart (startedNow k s) k = startedPart s (getPart s k) :=
  getPart_modPart_of_st s k (startedPart s) (startedPart_st_ne s _)

section
variable {k g : Nat} {s : State} (hwf : twf Core.zero s.cores = true)
include hwf

/-- What a core reads as once its job has started, from what it read as once it was given its count. -/
theorem getCore_startedNow (g : Nat) : getCore (startedNow k s) g =
    let t := orderStart k 0 (modPart s k (startedPart s))
    if startsNow t k g (getCore t g) then startedCore t k g (getCore t g) else getCore t g :=
  getCore_startCores k (twf_tmapv _ _ _ hwf) g

theorem getCore_startedNow_of_out (hg : inPart s k g = false) : getCore (startedNow k s) g = getCore s g := by
  have horder := (getCore_orderStart (s := modPart s k (startedPart s)) k 0 hwf g).trans
    (if_neg (by rw [show inPart (modPart s k (startedPart s)) k g = false from hg]; exact Bool.false_ne_true))
  exact (getCore_startedNow hwf g).trans ((if_neg (ne_true_of_eq_false (startsNow_of_out _ hg))).trans horder)

theorem getCore_startedNow_st (hg : inPart s k g = true) (hst : (getCore s g).r.st = .loaded) (hbp : badPointer (getCore s g) = none) :
    (getCore (startedNow k s) g).r.st = if s.power.parked then .hold else .run := by
  have horder : getCore (orderStart k 0 (modPart s k (startedPart s))) g = orderedCore 0 (getCore s g) :=
    (getCore_orderStart (s := modPart s k (startedPart s)) k 0 hwf g).trans (if_pos (Bool.and_eq_true_iff.mpr ⟨hg, decide_eq_true hst⟩))
  have hpart : (getPart (orderStart k 0 (modPart s k (startedPart s))) k).st = if s.power.parked then .held else .running :=
    (congrArg Part.st (getPart_startedNow k s)).trans (startedPart_st s _)
  have hstarted := (getCore_startedNow hwf g).trans (if_pos (by rw [horder]; exact startsNow_of_ordered hg hst))
  rw [hstarted, horder]
  rw [startedCore_st k g ((badPointer_orderedCore 0 _).trans hbp), hpart]
  cases s.power.parked <;> rfl

end

theorem job_start_runs_the_cores : Claims.JobStartRunsTheCores := by
  intro s s1 c hgo k p hform hT hst hlong
  refine ⟨fun htc hfree hwf => ?_, fun htc hahead hlo hhi => ?_⟩
  · exact ⟨_, exec_jobStart_of_no_count hgo hform hT hst hlong htc hfree, getPart_startedNow c.part s1,
      fun g hg => getCore_startedNow_of_out hwf hg, fun g hg hload hbp => getCore_startedNow_st hwf hg hload hbp⟩
  · refine ⟨_, exec_jobStart_of_count hgo hform hT hst hlong htc hahead hlo hhi, ?_, rfl⟩
    have hback := getPart_modPart_of_st s1 c.part (startedPart s1) (startedPart_st_ne s1 _)
    refine (getPart_modPart_of_st _ _ _ ?_).trans ?_
    · rw [hback]
      exact startedPart_st_ne s1 p
    · rw [hback]

-- Holding --------------------------------------------------------------------------------------------------------

/-- A core that is frozen: one in RUN enters HOLD, one in HALT records it (02 R40, R42). -/
def frozenCore (c : Core) : Core :=
  match c.r.st with
  | .run => { c with r := { c.r with st := .hold } }
  | .halt => { c with r := { c.r with holdSeen := true } }
  | _ => c

theorem getCore_freeze_if {s : State} (p : Nat → Bool) (hwf : twf Core.zero s.cores = true) (g : Nat) :
    getCore (freeze p s) g = if p g then frozenCore (getCore s g) else getCore s g :=
  getCore_mapCores (p := fun g _ => p g) (f := fun _ => frozenCore) hwf fun _ => rfl

theorem frozenCore_of_run {c : Core} (h : c.r.st = .run) : frozenCore c = { c with r := { c.r with st := .hold } } := by rw [frozenCore, h]

theorem frozenCore_of_halt {c : Core} (h : c.r.st = .halt) : frozenCore c = { c with r := { c.r with holdSeen := true } } := by rw [frozenCore, h]

/-- The module with a running partition held by the host. -/
def heldByHost (k : Nat) (s : State) : State := freeze (inPart s k) (modPart s k (fun p => { p with st := .held, holdHost := true }))

theorem hostHold_of_running {k : Nat} {s : State} (h : (getPart s k).st = .running) : hostHold k s = heldByHost k s := by rw [hostHold, h]; rfl

-- Resuming -------------------------------------------------------------------------------------------------------

section
variable {s : State} {p : Nat → Bool} {g : Nat}

theorem thaw_of_frozen (h : s.tide.frozen = true) : thaw p s = s := if_pos h

/-- A core outside the test is not released. -/
theorem getCore_thaw_of_out (hwf : twf Core.zero s.cores = true) (hg : p g = false) : getCore (thaw p s) g = getCore s g := by
  unfold thaw
  split
  · rfl
  · rw [getCore_mapCores hwf (fun h => by rw [hg] at h; cases h), hg]
    rfl

/-- A core in HOLD that nothing holds any more and that no halt request waits for runs on as it stood (02 R40). -/
theorem getCore_thaw_of_hold (hwf : twf Core.zero s.cores = true) (hfree : s.tide.frozen = false) (hg : p g = true)
    (hst : (getCore s g).r.st = .hold) (hheld : partHeld s g = false) (hreq : (getCore s g).x.haltReq = false) :
    getCore (thaw p s) g = { getCore s g with r := { (getCore s g).r with st := .run } } := by
  have hz : (p g && decide (Core.zero.r.st = .hold) && !partHeld s g) = false := by rw [show Core.zero.r.st = .clear from rfl]; simp
  rw [thaw, hfree, if_neg Bool.false_ne_true, getCore_mapCores hwf (fun h => by rw [hz] at h; cases h), hg, hst, hheld, hreq]
  rfl

end

/-- A core of a partition that is not HELD is not held by it. -/
theorem partHeld_of_part {s : State} {k g : Nat} (hg : inPart s k g = true) (hst : (getPart s k).st ≠ .held) : partHeld s g = false := by
  rw [partHeld, of_decide_eq_true hg]
  exact decide_eq_false hst

/-- The module with a held partition running again, before its cores are released. -/
def runningAgain (k : Nat) (s : State) : State := modPart s k (fun p => { p with st := .running, holdHost := false })

section
variable {s s1 : State} {c : Cmd} (hgo : goes c s s1) (hform : badForm c false false false [] = false) (hown : (isO s1 c || isT s1 c) = true)
include hgo hform hown

theorem exec_jobHold_of_running (hst : (getPart s1 c.part).st = .running) :
    exec (.jobHold c) s = .next (answered c false s1 stOK [] (heldByHost c.part s1)) := by
  rw [show exec (.jobHold c) s = execJobHold c s from rfl, execJobHold, ← hostHold_of_running hst]
  refine runCmd_of_ok hgo.1 ?_ rfl
  simp only [hform, hown, hgo.2, inSt, hst]
  rfl

theorem exec_jobResume_of_held (hst : (getPart s1 c.part).st = .held) (hpark : (getPart s1 c.part).holdPark = false) :
    exec (.jobResume c) s = .next (answered c false s1 stOK [] (thaw (inPart s1 c.part) (runningAgain c.part s1))) := by
  rw [show exec (.jobResume c) s = execJobResume c s from rfl, execJobResume]
  refine runCmd_of_ok hgo.1 ?_ rfl
  simp only [hform, hown, hgo.2, inSt, hst, hpark]
  rfl

theorem exec_jobResume_of_parked (hst : (getPart s1 c.part).st = .held) (hpark : (getPart s1 c.part).holdPark = true) :
    exec (.jobResume c) s = .next (refusedWith 0x23 c false s1 stBusy []) := by
  rw [show exec (.jobResume c) s = execJobResume c s from rfl, execJobResume]
  refine runCmd_of_refused hgo.1 ?_
  simp only [hform, hown, hgo.2, inSt, hst, hpark]
  rfl

end

theorem jobs_hold_and_resume : Claims.JobsHoldAndResume := by
  intro s s1 c hgo k p hform hown hwf
  refine ⟨fun hst => ?_, fun hst hpark => ?_, fun hst hpark => exec_jobResume_of_parked hgo hform hown hst hpark⟩
  · have hback := getPart_modPart_of_st s1 k (fun p => { p with st := .held, holdHost := true }) (by rintro ⟨⟩)
    have hcore := getCore_freeze_if (s := modPart s1 k (fun p => { p with st := .held, holdHost := true })) (inPart s1 k) hwf
    refine ⟨_, exec_jobHold_of_running hgo hform hown hst, hback, fun g hg => ?_, fun g hg hrun => ?_,
      fun g hg hhalt => ?_⟩
    · exact (hcore g).trans (if_neg (ne_true_of_eq_false hg))
    · exact (hcore g).trans ((if_pos hg).trans (frozenCore_of_run hrun))
    · exact (hcore g).trans ((if_pos hg).trans (frozenCore_of_halt hhalt))
  · have hback : getPart (runningAgain k s1) k = { p with st := .running, holdHost := false } :=
      getPart_modPart_of_st s1 k _ (by rintro ⟨⟩)
    obtain ⟨cs, hcs⟩ := thaw_frame (inPart s1 k) (runningAgain k s1)
    refine ⟨_, exec_jobResume_of_held hgo hform hown hst hpark, ?_, fun g hg => getCore_thaw_of_out (s := runningAgain k s1) hwf hg,
      fun g hg hhold hfree hreq => ?_, fun hfrozen => (congrArg State.cores (thaw_of_frozen (s := runningAgain k s1) hfrozen) :)⟩
    · rw [show getPart (thaw (inPart s1 k) (runningAgain k s1)) k = getPart (runningAgain k s1) k by rw [hcs]; rfl, hback]
    · exact getCore_thaw_of_hold (s := runningAgain k s1) hwf hfree hg hhold (partHeld_of_part hg (by rw [hback]; rintro ⟨⟩)) hreq

end Sys2Proof.Machine

open Sys2Proof Sys2Proof.Machine

/-- Settles O29: a start by whether it waits for a count, a hold and a resumption core by core. That the host's hold freezes the cores as HOLD does
is the model's reading (log 87). -/
theorem jobsStartHoldAndResume : Obligations.JobsStartHoldAndResume := ⟨job_start_runs_the_cores, jobs_hold_and_resume⟩
end

section
/-! O27: a core that fails to clear while HOLD has stopped the wafer. The end of the job that its pan involves then waits for the release, as
R430 and R467 have it, where the statement has the job ended at once. -/

namespace Sys2Proof.Machine

/-- The record of a first failure leaves the state of its partition. -/
theorem getPart_firstFailure_st (det : List Nat) (stop : Bool) (peers : List Nat) (code src loc sub : Nat) {k : Nat} {s : State}
    (hst : (getPart s k).st ≠ .none) : (getPart (firstFailure det stop peers k code src loc sub s) k).st = (getPart s k).st := by
  have hfault := getPart_modPart_of_st s k
    (fun p => { p with fault := some ⟨code, src, loc, sub, BitVec.ofNat 48 (north s), 0, det⟩ }) hst
  cases stop <;> exact (congrArg Part.st hfault :)

/-- While HOLD has stopped the wafer the end of a job waits (17 R430; 19 R467). -/
theorem endOrWait_of_frozen (k code : Nat) {s : State} (hfrozen : s.tide.frozen = true) (htrip : s.power.modTrip = false) :
    endOrWait k code s = modPart s k (fun p => { p with ends := some code }) :=
  if_pos (by rw [hfrozen, htrip]; rfl)

/-- So a dark pan leaves a running job running. -/
theorem endForPan_of_frozen {k p : Nat} {s : State} (hst : (getPart s k).st = .running) (hends : (getPart s k).ends = none)
    (hfrozen : s.tide.frozen = true) (htrip : s.power.modTrip = false) : (getPart (endForPan p k s) k).st = .running := by
  have hfail := (getPart_firstFailure_st [] true (otherModules s k) stPanDark 7 p 0 (by rw [hst]; decide)).trans hst
  have hframe := (touchesPart_firstFailure [] true (otherModules s k) k stPanDark 7 p 0 s).only
  have hwait : endForPan p k s = modPart (firstFailure [] true (otherModules s k) k stPanDark 7 p 0 s) k
      (fun p => { p with ends := some stPanDark }) :=
    (endForPan_of_running hst).trans ((recordDet_of_running _ _ _ _ _ _ _ _ _ hst hends).trans
      (endOrWait_of_frozen k stPanDark ((congrArg Tide.frozen hframe.tide).trans hfrozen) ((congrArg Power.modTrip hframe.power).trans htrip)))
  rw [hwait, getPart_modPart_of_st _ _ _ (hfail.trans_ne (by decide))]
  exact hfail

/-- A module that HOLD has stopped, with a job running on pan 0, whose core 0 will not clear. -/
def stoppedModule : State := { State.reset with
  tide := { Tide.zero with hold := true, frozen := true }, stuck := [0]
  pans := [(0, { Pan.zero with part := some 0 })], parts := [(0, { Part.zero with st := .running })] }

/-- The stage of a pan that is dark for a core that did not clear (log 115). -/
def unclearStage (x : PanPwr) : PanPwr := { x with st := 5, mv := 0, amp := 0, set := 0 }

theorem stoppedModule_job_runs_on : (getPart (readback (fun _ => true) stoppedModule) 0).st = .running := by
  have hread : readback (fun _ => true) stoppedModule =
      suspect 6 (panLost 0 (modPwr (endForPan 0 0 (leaveTide 0 stoppedModule)) 0 unclearStage)) := rfl
  obtain ⟨_, _, _, hsuspect⟩ := suspect_frame 6 (panLost 0 (modPwr (endForPan 0 0 (leaveTide 0 stoppedModule)) 0 unclearStage))
  obtain ⟨_, _, _, hleft⟩ := leaveTide_frame 0 stoppedModule
  rw [hread, hsuspect, hleft]
  exact endForPan_of_frozen rfl rfl rfl rfl

theorem readback_fails_under_hold : ¬ Claims.ReadbackTakesAPanDark := fun h => by
  obtain ⟨-, -, hdark⟩ := h stoppedModule (fun _ => true) 0
  obtain ⟨-, -, -, hends⟩ := hdark rfl rfl
  have hended := (hends 0 (by decide) rfl).1
  rw [stoppedModule_job_runs_on] at hended
  cases hended

end Sys2Proof.Machine

open Sys2Proof Sys2Proof.Machine

/-- Refutes O27: while HOLD has stopped the wafer, a pan that goes dark for a core that does not read back as 0 leaves a running job that it
involves RUNNING, its end to come at the release. The statement lacks the condition that the wafer is not stopped. -/
theorem not_partitionsAreMadeResetAndDestroyed : ¬ Obligations.PartitionsAreMadeResetAndDestroyed :=
  fun ⟨_, _, _, h⟩ => readback_fails_under_hold h
end

section
/-! O30: JOB_LOAD, the loader's tiles and the end of a load, and the end of a job with OK (14 R354, R366 to R368; 15 R377). -/

namespace Sys2Proof.Machine

open Sys2Proof.Claims

-- JOB_LOAD -------------------------------------------------------------------------------------------------------

/-- What the partition of a load that begins holds (14 R367). -/
theorem getPart_beginLoad (c : Cmd) (im : Image) (key : Option JobKey) (s : State) :
    let p := getPart (beginLoad c im key s) c.part
    p.st = .loading ∧ p.image = some im ∧ p.seed = BitVec.ofNat 64 (arg c 0 + arg c 1 * 2 ^ 32) ∧ p.long = some (longOf .load c [] [] s) ∧
      p.loadQp = some ((c.qp : Nat), (getQp s c.qp).epoch) ∧ p.fault = none := by
  unfold beginLoad
  dsimp only
  rw [getPart_modPart_of_st _ _ _ (by rintro ⟨⟩)]
  exact ⟨rfl, rfl, rfl, rfl, rfl, rfl⟩

/-- JOB_LOAD of a bundle that passes its checks, fits and binds. -/
theorem exec_jobLoad_of_pass {s s1 s2 : State} {c : Cmd} {b : Bundle} (hgo : goes c s s1)
    (htest : ∀ x ∈ (getPart s c.part).pans, underTest s x = false) (hchecks : firstCode (loadChecks c s1) = none)
    (hbundle : bundleOf s1 c = some b) (hfit : fitBad s1 c.part (keepMem c) b = none) (hbind : bindImage c.part b.image s1 = .ok s2)
    (hlong : (getPart s1 c.part).long = none) : exec (.jobLoad c) s = .next (beginLoad c b.image (loadKey s1 c b.image) s2) := by
  rw [show exec (.jobLoad c) s = execJobLoad c s from rfl, execJobLoad]
  refine (if_neg (not_any_of_all_false htest)).trans (runCmd_of_later hgo.1 hchecks ?_)
  simp only [hbundle, hfit, hbind, longBusy, hlong]
  rfl

theorem job_load_begins_the_loader : Claims.JobLoadBeginsTheLoader := by
  intro s s1 s2 c b k hgo htest hchecks hbundle hfit hbind hlong
  exact ⟨_, exec_jobLoad_of_pass hgo htest hchecks hbundle hfit hbind hlong, rfl, getPart_beginLoad c b.image _ s2⟩

-- Loader tiles ---------------------------------------------------------------------------------------------------

/-- A tile that is sent once more. -/
def sentAgain (l : Nat × Nat × List Byte × Nat) : Nat × Nat × List Byte × Nat := (l.1, l.2.1, l.2.2.1, l.2.2.2 + 1)

section
variable {s : State} {g : Nat} {k : Fin 32} {l : Nat × Nat × List Byte × Nat} {rest : List (Nat × Nat × List Byte × Nat)}
  (hloads : (getPart s k).loads = l :: rest)
include hloads

/-- The partition whose first tile is sent again. -/
theorem loads_sentAgain :
    (getPart (modPart s k (fun p => { p with loads := p.loads.map (fun x => if x = l then sentAgain l else x) })) k).loads.head? =
      some (sentAgain l) := by
  have hmap : (getPart s k).loads.map (fun x => if x = l then sentAgain l else x) =
      sentAgain l :: rest.map (fun x => if x = l then sentAgain l else x) := by
    rw [hloads, List.map_cons, if_pos rfl]
  have hback : getPart (modPart s k (fun p => { p with loads := p.loads.map (fun x => if x = l then sentAgain l else x) })) k =
      { getPart s k with loads := (getPart s k).loads.map (fun x => if x = l then sentAgain l else x) } :=
    tget_tset_of_ne Part.zero s.parts k _ fun hz => by cases hmap.symm.trans (congrArg Part.loads hz)
  rw [hback, hmap, List.head?_cons]

/-- The tile that a core's rake station takes: written, sent again, or the end of the load (15 R377). -/
theorem exec_loaderTile_of_turn (ok : Bool) (hg : g < numCores) (hpart : (getPan s (panOf g)).part = some (k : Nat)) (hl : l.1 = g)
    (htakes : takesTiles (getCore s g) = true) (hfree : s.tide.frozen = false) : exec (.loaderTile g ok) s = .next (
      if ok && !l.2.2.1.isEmpty then setPart
        (setCore s g (rakeMark (envOf s g).now l.2.1 l.2.2.1.length (imageWrite l.2.1 l.2.2.1 (getCore s g)))) k { getPart s k with loads := rest }
      else if 3 ≤ l.2.2.2 then loadFailed k s
      else modPart s k (fun p => { p with loads := p.loads.map (fun x => if x = l then sentAgain l else x) })) := by
  have hfind : (getPart s k).loads.find? (fun l => decide (l.1 = g)) = some l := by
    rw [hloads, List.find?_cons_of_pos (by rw [hl]; exact decide_eq_true rfl)]
  have hrest : (getPart s k).loads.erase l = rest := by rw [hloads, List.erase_cons_head]
  rw [show exec (.loaderTile g ok) s = execLoaderTile g ok s from rfl, execLoaderTile, if_neg (Nat.not_le.mpr hg), hpart, Option.getD_some]
  simp only [hfind, htakes, hfree]
  rw [← hrest]
  rfl

end

-- The end of a load ----------------------------------------------------------------------------------------------

section
variable (s : State) (k : Nat) (im : Image)

/-- A core that a load has written: LOADED, with JOB_SEED. -/
def LoadedWith (seed : BitVec 64) (c : Core) : Prop := c.r.st = .loaded ∧ c.seed = seed

theorem loadedWith_loadedCore (r : CoreRec) (t : State) (g : Nat)
    (h : coreOf s k r.icn = g ∨ LoadedWith (getPart s k).seed (getCore t g)) :
    LoadedWith (getPart s k).seed (getCore (loadedCore s k im t r) g) := by
  by_cases hg : coreOf s k r.icn = g
  · subst hg
    unfold loadedCore
    dsimp only
    rw [getCore, setCore_cores, tget_tset_of_ne _ _ _ _ fun hz => by cases congrArg (fun c : Core => c.r.st) hz]
    exact ⟨rfl, rfl⟩
  · rw [loadedCore, getCore_setCore_of_ne _ _ _ _ (Ne.symm hg)]
    exact h.resolve_left hg

/-- Every core of the image is LOADED with JOB_SEED once each has been written. -/
theorem loadedWith_loadedCores {r : CoreRec} (hr : r ∈ im.cores) :
    LoadedWith (getPart s k).seed (getCore (im.cores.foldl (loadedCore s k im) s) (coreOf s k r.icn)) :=
  foldl_of_mem (I := fun _ => True) (P := fun t => LoadedWith (getPart s k).seed (getCore t (coreOf s k r.icn))) hr trivial
    (fun _ _ _ _ => trivial) (fun t _ => loadedWith_loadedCore s k im r t _ (.inl rfl)) fun t x _ h => loadedWith_loadedCore s k im x t _ (.inr h)

/-- Ending a load core by core touches the cores alone. -/
theorem loadedCores_frame : ∃ cs, im.cores.foldl (loadedCore s k im) s = { s with cores := cs } :=
  List.foldlRecOn (motive := fun t : State => ∃ cs, t = { s with cores := cs }) im.cores _ ⟨_, rfl⟩ fun t ⟨cs, ht⟩ r _ => by
    subst ht
    exact ⟨_, rfl⟩

/-- The module with a load's cores and contexts ready and the partition READY, before the command completes. -/
def loadWritten : State := modPart (armCtxs k (im.cores.foldl (loadedCore s k im) s)) k (fun p => { p with st := .ready })

theorem getPart_loadWritten : getPart (loadWritten s k im) k = { getPart s k with st := .ready } := by
  obtain ⟨cs, hcs⟩ := loadedCores_frame s k im
  rw [loadWritten, hcs]
  exact getPart_modPart_of_st _ k (fun p => { p with st := .ready }) (by rintro ⟨⟩)

end

theorem exec_jobLoadComplete_of_written {s : State} {k : Fin 32} {l : Long} {im : Image} (hl : (getPart s k).long = some l) (hkind : l.kind = .load)
    (him : (getPart s k).image = some im) (hloads : (getPart s k).loads = []) (hfree : s.tide.frozen = false) :
    exec (.jobLoadComplete k) s = .next (newJobRate (completeLong k stOK [] (loadWritten s k im))) := by
  rw [show exec (.jobLoadComplete k) s = execJobLoadComplete k s from rfl, execJobLoadComplete]
  simp only [longIs_of hl hkind, him, hloads, hfree]
  rfl

theorem loader_tiles_fill_the_cores : Claims.LoaderTilesFillTheCores := by
  intro s g ok k l rest p c
  refine ⟨fun hg hpart hloads hl htakes hfree => ?_, fun lg im hlong hkind him hloads hfree => ?_⟩
  · have hrun := exec_loaderTile_of_turn hloads ok hg hpart hl htakes hfree
    have hbad : ok = false ∨ l.2.2.1 = [] → ¬ (ok && !l.2.2.1.isEmpty) = true := by
      rintro (h | h) <;> rw [h] <;> simp
    refine ⟨fun hok hne => hrun.trans (congrArg _ (if_pos ?_)), fun h hlast => hrun.trans (congrArg _ ((if_neg (hbad h)).trans (if_pos hlast))),
      fun h hmore => ⟨_, hrun.trans (congrArg _ ((if_neg (hbad h)).trans (if_neg (Nat.not_le.mpr hmore)))), loads_sentAgain hloads, rfl⟩⟩
    rw [hok, Bool.true_and, Bool.not_eq_true', List.isEmpty_eq_false_iff]
    exact hne
  · have hwritten := getPart_loadWritten s k im
    have hback : getPart (newJobRate (completeLong k stOK [] (loadWritten s k im))) k = { getPart s k with st := .ready, long := none } := by
      refine (getPart_completeLong stOK [] (l := lg) ?_ ?_).trans ?_
      · rw [hwritten]; exact hlong
      · rw [hwritten]; rintro ⟨⟩
      · rw [hwritten]
    refine ⟨_, exec_jobLoadComplete_of_written hlong hkind him hloads hfree, congrArg Part.st hback, congrArg Part.long hback, fun r hr => ?_⟩
    have hcores : getCore (newJobRate (completeLong k stOK [] (loadWritten s k im))) (coreOf s k r.icn) =
        getCore (im.cores.foldl (loadedCore s k im) s) (coreOf s k r.icn) :=
      congrArg (fun cs => tget Core.zero cs (coreOf s k r.icn)) (completeLong_cores k stOK [] (loadWritten s k im))
    rw [hcores]
    exact loadedWith_loadedCores s k im hr

-- The end of a job with OK ---------------------------------------------------------------------------------------

/-- The module with an ended job's partition EMPTY and its end posted (14 R354, R368). -/
def endedOk (k : Nat) (s : State) : State :=
  let s1 := modPart s k (fun p => { p with st := .empty, phase := 0, ending := false })
  modPart (newJobRate (postJob k (jobEndEvent k (getPart s1 k)) s1)) k (fun p => { p with fault := none })

theorem exec_jobEndOkComplete (k : Fin 32) (s : State) : exec (.jobEndOkComplete k) s = .next (
    if !(getPart s k).ending || decide ((getPart s k).st ≠ .draining) then s
    else if (getPart s k).phase = 0 then
      if endReady s k && !s.tide.frozen then tearDown k (completeLong k stState [] s) else s
    else if (getPart s k).phase = 2 then endedOk k s
    else s) := rfl

theorem getPart_endedOk (k : Nat) (s : State) :
    getPart (endedOk k s) k = { getPart s k with st := .empty, phase := 0, ending := false, fault := none } := by
  have hempty := getPart_modPart_of_st s k (fun p => { p with st := .empty, phase := 0, ending := false }) (by rintro ⟨⟩)
  obtain ⟨h, hpost⟩ := postJob_frame (modPart s k (fun p => { p with st := .empty, phase := 0, ending := false })) k
    (jobEndEvent k (getPart (modPart s k (fun p => { p with st := .empty, phase := 0, ending := false })) k))
  unfold endedOk
  dsimp only
  rw [hpost]
  refine (getPart_modPart_of_st _ k (fun p => { p with fault := none }) ?_).trans ?_
  · exact (congrArg Part.st hempty).trans_ne (by rintro ⟨⟩)
  · exact congrArg (fun p : Part => { p with fault := none }) hempty

theorem endedOk_cores (k : Nat) (s : State) : (endedOk k s).cores = s.cores := by
  obtain ⟨h, hpost⟩ := postJob_frame (modPart s k (fun p => { p with st := .empty, phase := 0, ending := false })) k
    (jobEndEvent k (getPart (modPart s k (fun p => { p with st := .empty, phase := 0, ending := false })) k))
  exact (congrArg State.cores hpost :)

/-- A partition that is torn down waits for its absorbed inputs (15 R389). -/
theorem getPart_tearDown_phase (k : Nat) (s : State) : (getPart (tearDown k s) k).phase = 1 := by
  unfold tearDown
  dsimp only
  rw [getPart, modPart, setPart_parts, tget_tset_of_ne _ _ _ _ fun hz => by cases congrArg Part.phase hz]

theorem jobs_end_with_ok : Claims.JobsEndWithOk := by
  intro s k p
  have hends : p.ending = true → p.st = .draining → ¬ (!p.ending || decide (p.st ≠ .draining)) = true := by
    intro hend hst
    rw [hend, hst]
    decide
  refine ⟨fun hno => ?_, fun hphase hready => ?_, fun hend hst hphase hready hfree hlong => ?_, fun hend hst hphase => ?_⟩
  · refine (exec_jobEndOkComplete k s).trans (congrArg _ (if_pos ?_))
    rw [Bool.or_eq_true, Bool.not_eq_true', decide_eq_true_eq]
    exact hno
  · refine (exec_jobEndOkComplete k s).trans (congrArg _ (ite_eq_left_iff.mpr fun _ => (if_pos hphase).trans (if_neg ?_)))
    rw [hready]
    exact Bool.false_ne_true
  · refine ⟨_, (exec_jobEndOkComplete k s).trans (congrArg _ ((if_neg (hends hend hst)).trans ((if_pos hphase).trans ?_))), rfl,
      getPart_tearDown_phase k s⟩
    rw [hready, hfree, completeLong_of_none stState [] hlong]
    rfl
  · refine ⟨_, (exec_jobEndOkComplete k s).trans (congrArg _ ((if_neg (hends hend hst)).trans ((if_neg ?_).trans (if_pos hphase)))),
      getPart_endedOk k s, endedOk_cores k s⟩
    rw [show (getPart s k).phase = 2 from hphase]
    decide

end Sys2Proof.Machine

open Sys2Proof Sys2Proof.Machine

/-- Settles O30: a load by its checks, a tile by whether it passes and how often it was sent, the end of a load core by core, and the end of a job
by how far its teardown has come. -/
theorem jobsLoadAndEnd : Obligations.JobsLoadAndEnd := ⟨job_load_begins_the_loader, loader_tiles_fill_the_cores, jobs_end_with_ok⟩
end

section
/-! O47: REG_READ and REG_WRITE, the words of a router, the schedule period, and the writes of firmware (00 R8, R9; 11 R262, R263, R266, R284;
14 R340). -/

namespace Sys2Proof.Machine

open Sys2Proof.Claims

-- REG_READ and REG_WRITE -----------------------------------------------------------------------------------------

/-- Words that are all legal are refused with no other status. -/
theorem no_word_refused {s : State} {b st : Nat} {ws : List (Nat × Word)} (h : ∀ w ∈ ws, wordStatus s b w.1 w.2 = stOK) (hst : st ≠ stOK) :
    ws.any (fun w => decide (wordStatus s b w.1 w.2 = st)) = false :=
  List.any_eq_false.mpr fun w hw => by
    rw [h w hw, decide_eq_true_eq]
    exact hst.symm

/-- The words of a REG_WRITE written one after another. -/
def wordsWritten (c : Cmd) (s : State) : State := (regWords c).foldl (fun s w => fwWrite (argFld c 0 0 2) w.1 w.2 s) s

/-- A taken command of which one check is open: refused by it, completing later, or completing with OK. -/
theorem runCmd_of_last_check {opc : Nat} {m : Bool} {c : Cmd} {checks : State → List (Bool × Nat)} {f : State → Reply} {s s1 s2 s3 : State}
    {code : Nat} {bad later : Prop} [Decidable bad] [Decidable later] (htake : takeEntry c.qp s = some s1)
    (hc : firstCode (checks s1) = if bad then some code else none) (hf : f s1 = if later then .later s2 else .done stOK [] s3) :
    runCmd opc m c checks f s =
      if bad then .next (refusedWith opc c m s1 code []) else if later then .next s2 else .next (answered c m s1 stOK [] s3) := by
  split
  · next hbad => exact runCmd_of_refused htake (hc.trans (if_pos hbad))
  · next hok =>
    split
    · next hlater => exact runCmd_of_later htake (hc.trans (if_neg hok)) (hf.trans (if_pos hlater))
    · next hnow => exact runCmd_of_ok htake (hc.trans (if_neg hok)) (hf.trans (if_neg hnow))

/-- REG_READ's checks, where none fails. -/
theorem firstCode_regRead {f m o d e : Bool} (hf : f = false) (hm : m = false) (ho : o = true) (hde : (d || e) = false) :
    firstCode [(f || m, stFormat), (!o, stAuth), (d || e, stBounds)] = none := by
  rw [hf, hm, ho, hde]
  rfl

/-- REG_WRITE's checks, where only that of the registers' kinds may fail. -/
theorem firstCode_regWrite {f m a o l early t d e w b y : Bool} (hf : f = false) (hm : m = false) (ha : a = false) (ho : o = true) (hl : l = false)
    (he : early = false) (ht : t = false) (hde : (d || e) = false) (hb : b = false) (hy : y = false) :
    firstCode [(f || m || a, stFormat), (!o, stAuth), (l, stLicence), (early || t, stState), (d || e || w || b, stBounds), (y, stBusy)] =
      if w = true then some stBounds else none := by
  rw [hf, hm, ha, ho, hl, he, ht, hde, hb, hy]
  cases w <;> rfl

section
variable {s s1 : State} {c : Cmd} (hgo : goes c s s1) (hO : isO s1 c = true) (halign : argFld c 0 16 16 % 4 = 0) (hn : argFld c 1 0 3 + 1 ≤ 6)
  (hend : argFld c 0 16 16 + 4 * (argFld c 1 0 3 + 1) ≤ 65536)
include hn hend in
/-- The words of such a command lie in their block. -/
theorem regWords_in_range : (decide (6 < argFld c 1 0 3 + 1) || decide (65536 < argFld c 0 16 16 + 4 * (argFld c 1 0 3 + 1))) = false := by
  rw [Bool.or_eq_false_iff, decide_eq_false_iff_not, decide_eq_false_iff_not]
  omega

include hgo hO halign hn hend

theorem exec_regRead_of_pass (hform : badForm c true false false [0xFFFF0003, 7] = false) :
    exec (.regRead c) s = .next (answered c true s1 stOK (regRead (argFld c 0 0 2) (argFld c 1 0 3 + 1) (argFld c 0 16 16) s1).1
      (regRead (argFld c 0 0 2) (argFld c 1 0 3 + 1) (argFld c 0 16 16) s1).2) := by
  rw [show exec (.regRead c) s = execRegRead c s from rfl]
  dsimp only [execRegRead, regArgs]
  refine runCmd_of_ok hgo.1 ?_ rfl
  exact firstCode_regRead hform (decide_eq_false (not_not.mpr halign)) hO (regWords_in_range hn hend)

variable (hform : badForm c true false false ([0xFFFF0003, 7] ++ List.replicate (argFld c 1 0 3 + 1) all32) = false)
  (hlegal : ∀ w ∈ regWords c, wordStatus s1 (argFld c 0 0 2) w.1 w.2 = stOK)
include hform hlegal

/-- The checks of a REG_WRITE whose words are legal leave whether each may be written. -/
theorem exec_regWrite_of_legal : exec (.regWrite c) s =
    if (regWords c).any (fun w => !regWritable (argFld c 0 0 2) w.1) then .next (refusedWith 0x03 c true s1 stBounds [])
    else if argFld c 0 0 2 = 1 ∧ argFld c 0 16 16 = 0 then
      .next { wordsWritten c s1 with host := { (wordsWritten c s1).host with meshCmd := some (longOf .load c [] [] s1) } }
    else .next (answered c true s1 stOK [] (wordsWritten c s1)) := by
  have hany := fun st (hst : st ≠ stOK) => no_word_refused (st := st) hlegal hst
  rw [show exec (.regWrite c) s = execRegWrite c s from rfl]
  dsimp only [execRegWrite, regArgs]
  refine runCmd_of_last_check hgo.1 ?_ rfl
  exact firstCode_regWrite hform (decide_eq_false (not_not.mpr halign)) (hany stFormat (by decide)) hO (hany stLicence (by decide)) hgo.2
    (hany stState (by decide)) (regWords_in_range hn hend) (hany stBounds (by decide)) (hany stBusy (by decide))

end

theorem register_commands_read_and_write : Claims.RegisterCommandsReadAndWrite := by
  intro s s1 c hgo hO b off n used halign hn hend
  refine ⟨exec_regRead_of_pass hgo hO halign hn hend, fun hform hlegal => ?_⟩
  have hrun := exec_regWrite_of_legal hgo hO halign hn hend hform hlegal
  have hall : (∀ w ∈ regWords c, regWritable b w.1 = true) → ¬ (regWords c).any (fun w => !regWritable b w.1) = true := fun h => by
    rw [List.any_eq_true]
    rintro ⟨w, hw, hno⟩
    rw [h w hw] at hno
    cases hno
  refine ⟨fun hok => ⟨fun hcfg => hrun.trans ((if_neg (hall hok)).trans (if_neg hcfg)), fun hb hoff => ?_⟩, fun ⟨w, hw, hno⟩ => ?_⟩
  · exact ⟨_, hrun.trans ((if_neg (hall hok)).trans (if_pos ⟨hb, hoff⟩)), rfl, rfl⟩
  · exact hrun.trans (if_pos (List.any_eq_true.mpr ⟨w, hw, by rw [hno]; rfl⟩))

-- The words of a router ------------------------------------------------------------------------------------------

theorem exec_rtData_of_selected {s : State} {g : Nat} (v : Word) (h : rtSelected s = some g) :
    exec (.rtData (some v)) s = .next (nextRt (rtWrite g s.mesh.addr v s)) := by
  rw [show exec (.rtData (some v)) s = execRtData (some v) s from rfl]
  simp only [execRtData, h]

/-- A word from 0x1000 on is a half of a slot entry (11 Table 11-10). -/
theorem rtWrite_of_slot {g a : Nat} {v : Word} {s : State} (h : 0x1000 ≤ a) :
    rtWrite g a v s = writeSlotHalf g ((a - 0x1000) / 8) (decide (a % 8 = 4)) v s := by
  unfold rtWrite
  split
  case h_6 => exact if_pos h
  all_goals omega

/-- A half of an entry that stays valid and moves no data on a lane-owned output is written (11 R263, R266). -/
theorem writeSlotHalf_of_legal {g i : Nat} {high : Bool} {v : Word} {s : State} (hi : i < periodOf s (panOf g))
    (hok : entryOk (modeOf s g) (setFld (tget 0 (getRouter s g).slots i) (if high then 32 else 0) 32 v.toNat) = true)
    (hlane : ∀ o : Fin 4, selOf (setFld (tget 0 (getRouter s g).slots i) (if high then 32 else 0) 32 v.toNat) o ≠ 0 →
      laneOwned s g o i = false) :
    writeSlotHalf g i high v s = setRouter s g { getRouter s g with
      slots := tset 0 (getRouter s g).slots i (setFld (tget 0 (getRouter s g).slots i) (if high then 32 else 0) 32 v.toNat) } := by
  unfold writeSlotHalf
  dsimp only
  rw [if_neg (Nat.not_le.mpr hi), hok, if_neg (by decide), if_neg]
  rw [List.any_eq_true]
  rintro ⟨o, -, ho⟩
  rw [Bool.and_eq_true, decide_eq_true_eq] at ho
  exact Bool.false_ne_true ((hlane o ho.1).symm.trans ho.2)

-- The schedule period --------------------------------------------------------------------------------------------

theorem exec_meshCfg_of_legal {s : State} {v : Word} (hempty : allEmpty s = true) (htest : testing s = false) (hpend : s.mesh.pend = none)
    (hlo : 6 ≤ fld v 0 4) (hhi : fld v 0 4 ≤ 10) : exec (.meshCfg v) s = .next (beginPeriod (fld v 0 4) s) :=
  congrArg Host.Outcome.next (if_pos (by rw [hempty, htest, hpend, decide_eq_true hlo, decide_eq_true hhi]; rfl))

/-- What a router reads as once every router has changed, where the change leaves one as at reset. -/
theorem getRouter_tmapv {s t : State} {f : Router → Router} (ht : t.routers = tmapv Router.zero (fun _ => f) s.routers)
    (hz : f Router.zero = Router.zero) (hwf : s.tablesWf = true) (j : Nat) : getRouter t j = f (getRouter s j) := by
  rw [getRouter, ht]
  exact tget_tmapv Router.zero (fun _ => f) s.routers j ((tablesWf_iff s).mp hwf).routers hz

/-- The module with CW_MAX for the period that begins, where the lanes are in use. -/
def recounted (s : State) : State := if s.mesh.lanes then { s with mesh := { s.mesh with cwMax := (computeLanes s).mesh.cwMax } } else s

theorem recounted_frame (s : State) : ∃ m, recounted s = { s with mesh := m } := by
  unfold recounted
  split <;> exact ⟨_, rfl⟩

/-- The end of the REG_WRITE that changed the period touches the host attachment alone. -/
theorem endMeshCmd_frame (s : State) : ∃ h, endMeshCmd s = { s with host := h } := by
  unfold endMeshCmd
  split
  · next l _ =>
    obtain ⟨h, ht⟩ := complete_frame { s with host := { s.host with meshCmd := none } } [] l.qp l.epoch l.cid stOK 0 15
    exact ⟨h, ht⟩
  · exact ⟨_, rfl⟩

/-- The period changed over, once every live pan has come to its count. -/
def changedOver (k : Nat) (s : State) : State :=
  { s with mesh := { s.mesh with lcode := k, pend := none }, routers := tmapv Router.zero (fun _ r => { r with laneSet := none }) s.routers }

theorem exec_lcodeChangeApply_of_pend {s : State} {T k : Nat} (hpend : s.mesh.pend = some (T, k)) (hle : T ≤ north s) :
    exec .lcodeChangeApply s = .next (
      if (livePans s).all (fun n => decide (T ≤ (getNode s n).steps)) then changedOver k (endMeshCmd (recounted s))
      else endMeshCmd (recounted s)) := by
  rw [show exec .lcodeChangeApply s = execLcodeChangeApply s from rfl, execLcodeChangeApply, hpend]
  exact congrArg Host.Outcome.next (if_neg (Nat.not_lt.mpr hle))

theorem the_mesh_is_configured : Claims.TheMeshIsConfigured := by
  intro s v g T k l m r moved
  refine ⟨rfl, fun hsel => ?_, fun hempty htest hpend hlo hhi => ?_, ?_⟩
  · have hrun := exec_rtData_of_selected v hsel
    refine ⟨fun ha hv => ?_, fun ha => ?_, fun ha => ?_, ?_⟩
    · rw [hrun, show s.mesh.addr = 0 from ha, rtWrite, if_neg hv]; rfl
    · rw [hrun, show s.mesh.addr = 0x0C from ha]; rfl
    · rw [hrun, show s.mesh.addr = 0x10 from ha]; rfl
    · intro ha _ i e hi hok hlane
      have hw := writeSlotHalf_of_legal (high := decide (m.addr % 8 = 4)) (v := v) hi
      simp only [decide_eq_true_eq] at hw
      rw [hrun, rtWrite_of_slot ha, hw hok hlane]
      rfl
  · exact ⟨_, exec_meshCfg_of_legal hempty htest hpend hlo hhi, rfl, rfl,
      fun hwf j => getRouter_tmapv (s := s) (f := fun r => { r with slots := [] }) rfl rfl hwf j⟩
  · intro hpend hle s0 s1
    have hrun := exec_lcodeChangeApply_of_pend hpend hle
    have hs1 : endMeshCmd (recounted s) = s1 := by
      have hcmd : (recounted s).host.meshCmd = s.host.meshCmd := by
        obtain ⟨_, h⟩ := recounted_frame s
        rw [h]
      unfold endMeshCmd
      rw [hcmd]
      rfl
    obtain ⟨_, hrec⟩ := recounted_frame s
    obtain ⟨_, hend⟩ := endMeshCmd_frame (recounted s)
    refine ⟨fun ⟨n, hn, hlt⟩ => ?_, fun hall => ?_⟩
    · refine hrun.trans (congrArg _ ((if_neg fun h => ?_).trans hs1))
      exact Nat.not_le.mpr hlt (of_decide_eq_true (List.all_eq_true.mp h n hn))
    · refine ⟨_, hrun.trans (congrArg _ (if_pos (List.all_eq_true.mpr fun n hn => decide_eq_true (hall n hn)))), ?_, ?_, ?_,
        fun hwf j => getRouter_tmapv (s := s) (f := fun r => { r with laneSet := none }) ?_ rfl hwf j⟩
      · exact (congrArg State.host hs1 :)
      · rw [changedOver, hend, hrec]
      · rw [changedOver, hend]
        rfl
      · rw [changedOver, hend, hrec]

-- Firmware -------------------------------------------------------------------------------------------------------

theorem firmware_writes_registers : Claims.FirmwareWritesRegisters := by
  intro s v b off
  have hrow := fun (blk : Fin 8) (at_ : BitVec 16) (h : at_.toNat % 4 = 0) =>
    show exec (.firmwareRegisterWrite blk at_ v) s = .next (fwWrite blk at_.toNat v s) from
      congrArg Host.Outcome.next (if_neg (not_not.mpr h))
  refine ⟨fun h => congrArg Host.Outcome.next (if_pos h), rfl, rfl, rfl, rfl, fun h => ?_, fun h => ?_, fun h => ?_, fun h => ?_, ?_⟩
  · exact (hrow 3 0x00C rfl).trans (congrArg (fun x : Nat × State => Host.Outcome.next x.2) (if_neg (Nat.not_lt.mpr h)))
  · exact (hrow 3 0x00C rfl).trans (congrArg (fun x : Nat × State => Host.Outcome.next x.2) (if_pos h))
  · exact (hrow 5 0x004 rfl).trans (congrArg Host.Outcome.next (if_pos h))
  · exact (hrow 7 0x044 rfl).trans (congrArg Host.Outcome.next (if_neg (ne_true_of_eq_false h)))
  · exact congrArg Host.Outcome.next (ite_self _)

end Sys2Proof.Machine

open Sys2Proof Sys2Proof.Machine

/-- Settles O47: a register command by its checks, a router's word by its address, the change of the period by whether every pan has come to its
count, and a write of firmware by its row. That a period out of its range is refused the host (log 80), that the words of a command are checked
against the state at its taking (log 81) and the numbers of the blocks (log 82) are the model's readings. -/
theorem registersAreReadAndWritten : Obligations.RegistersAreReadAndWritten :=
  ⟨register_commands_read_and_write, the_mesh_is_configured, firmware_writes_registers⟩
end

section
/-! O54, O55: what every step keeps: the queue behind the front command, the fuses, and the canonical form of the tables. -/

namespace Sys2Proof.Machine

/-- Every command keeps the queue, the fuses and the tables: by the shared operation that its meaning calls, or by its own law. -/
theorem exec_keeps (i : Instr) (s : State) : OutKeeps s (exec i s) := by
  have h := Keeps.refl s
  unfold exec
  cases i with
  | add | sub | and | or | xor | shl | shr | sra | mul | mulhu | mulhs | min | max | minu | maxu | divu | remu | divs | rems | addi | andi
  | ori | xori | shli | shri | srai | li | cmp | cmpi | plog | ldw | ldh | ldhu | ldb | ldbu | stw | sth | stb | br | brl | jr | jrl | qrd
  | crr | crw | rel | acq | syncAll | stepCommitContribute | stepCommit | endFold | suCnd | brk | flagSet | flagClr | flagWait | flagWaitc
  | barArrive | chPut | chGet | chWait | vadd | vsub | vmul | vfma | vmin | vmax | vcmp | vsel | vand | vor | vxor | vsh | vabs | vneg
  | vexp2 | vexp | vlog2 | vrcp | vsqrt | vrsqrt | vtanh | vsigm | vrsum | vrmax | vrmin | vcvt | vunpk | vld | vst | vldb | vstb | vqrd
  | vqwr | vbcs | vext | vins | vmov | viota | mma | mmas | mstg | mstgq | mzero | mbst | mbld | mmask | msmx | mscl | dmov | dwait
  | copyRow | qinEntry | qoutEntry | tinEntry | tstgEntry | stgRow | fwdEntry | toutSourceRead | tileForm | toutEntry | dmaSlotComplete
  | foldChoice | foldFire | steerDecide | tokenDrop | staleTokenDiscard | haltEntry => exact onCore_keeps _ _ h
  | flagSetMessage | flagClrMessage | chPutMessage | chGetMessage | guardRes | barRel => exact portEvent_keeps _ _ h
  | instructionFetch => exact execInstructionFetch_keeps _ h
  | entryArrival => exact execEntryArrival_keeps _ _ h
  | stallWatchdog => exact execStallWatchdog_keeps _ h
  | quiescenceCheck => exact execQuiescenceCheck_keeps _ h
  | reloadCommit => exact execReloadCommit_keeps _ h
  | reloadTimeout => exact execReloadTimeout_keeps _ h
  | haltRequest => exact execHaltRequest_keeps _ h
  | coreStartRun => exact execCoreStartRun_keeps _ h
  | faultMessage => exact execFaultMessage_keeps h
  | guard => exact execGuard_keeps _ h
  | guardWd => exact execGuardWd_keeps _ h
  | guardPanReceive => exact execGuardPanReceive_keeps h
  | guardTimeout => exact execGuardTimeout_keeps _ h
  | barArr => exact execBarArr_keeps _ h
  | barPanReceive => exact execBarPanReceive_keeps h
  | jobEndOkComplete => exact execJobEndOkComplete_keeps _ h
  | nodeStep => exact execNodeStep_keeps _ _ h
  | paceRelease => exact execPaceRelease_keeps _ h
  | rateChangeApply => exact execRateChangeApply_keeps _ h
  | refLost => exact execRefLost_keeps h
  | refBack => exact execRefBack_keeps h
  | holdRaise => exact execHoldRaise_keeps h
  | holdRelease => exact execHoldRelease_keeps h
  | sluiceDead => exact execSluiceDead_keeps _ h
  | panPower => exact execPanPower_keeps _ h
  | breakerOpen => exact execBreakerOpen_keeps _ _ h
  | brkfail => exact execBrkfail_keeps _ h
  | panTrip => exact execPanTrip_keeps _ h
  | modTrip => exact execModTrip_keeps h
  | thermalSample => exact execThermalSample_keeps _ _ _ _ _ h
  | thermStep => exact execThermStep_keeps h
  | lcodeChangeApply => exact execLcodeChangeApply_keeps h
  | absorbQuiet => exact execAbsorbQuiet_keeps _ h
  | streamReadTile => exact execStreamReadTile_keeps _ _ _ _ h
  | streamWriteTile => exact execStreamWriteTile_keeps _ _ h
  | streamDigestForm => exact execStreamDigestForm_keeps _ h
  | cxlMemRead => exact execCxlMemRead_keeps _ _ _ h
  | cxlMemWrite => exact execCxlMemWrite_keeps _ _ _ _ h
  | linkBlockReceive => exact execLinkBlockReceive_keeps _ _ h
  | retryExhausted => exact execRetryExhausted_keeps _ h
  | portTrained => exact execPortTrained_keeps _ _ h
  | packetHeaderArrival => exact execPacketHeaderArrival_keeps _ h
  | packetDeparture => exact execPacketDeparture_keeps _ h
  | egressTokenSend => exact execEgressTokenSend_keeps _ h
  | dataPacketArrival => exact execDataPacketArrival_keeps _ h
  | ingressDelivery => exact execIngressDelivery_keeps _ h
  | xport => exact execXport_keeps _ h
  | retryStart => exact execRetryStart_keeps _ h
  | retryEnd => exact execRetryEnd_keeps _ h
  | pathLost => exact execPathLost_keeps _ h
  | length => exact execLength_keeps _ h
  | retryStartExpiry => exact execRetryStartExpiry_keeps _ h
  | transportTimeout => exact execTransportTimeout_keeps _ _ h
  | portRetrainDone => exact execPortRetrainDone_keeps _ _ h
  | guardBit => exact execGuardBit_keeps h
  | barDone => exact execBarDone_keeps h
  | barRelCtrl => exact execBarRelCtrl_keeps h
  | jobEndCtrl => exact execJobEndCtrl_keeps h
  | digestCtrl => exact execDigestCtrl_keeps h
  | modQuery => exact execModQuery_keeps _ h
  | regRead => exact execRegRead_keeps _ h
  | regWrite => exact execRegWrite_keeps _ h
  | licenceInstall => exact execLicenceInstall_keeps _ h
  | testpackLoad => exact execTestpackLoad_keeps _ h
  | powerCap => exact execPowerCap_keeps _ h
  | powerCapStart => exact execPowerCapStart_keeps h
  | modPark => exact execModPark_keeps _ h
  | modUnpark => exact execModUnpark_keeps _ h
  | parkWakeDone => exact execParkWakeDone_keeps h
  | energyReadWindow => exact execEnergyReadWindow_keeps _ h
  | energySetWindow => exact execEnergySetWindow_keeps _ h
  | energyReadModule => exact execEnergyReadModule_keeps _ h
  | partCreate => exact execPartCreate_keeps _ h
  | partDestroy => exact execPartDestroy_keeps _ h
  | partReset => exact execPartReset_keeps _ h
  | partResetComplete => exact execPartResetComplete_keeps _ h
  | partQuery => exact execPartQuery_keeps _ h
  | windowOpen => exact execWindowOpen_keeps _ h
  | windowClose => exact execWindowClose_keeps _ h
  | jobLoad => exact execJobLoad_keeps _ h
  | jobLoadComplete => exact execJobLoadComplete_keeps _ h
  | loaderTile => exact execLoaderTile_keeps _ _ h
  | jobStart => exact execJobStart_keeps _ h
  | jobHold => exact execJobHold_keeps _ h
  | jobResume => exact execJobResume_keeps _ h
  | jobAbort => exact execJobAbort_keeps _ h
  | jobSave => exact execJobSave_keeps _ h
  | saveSettleTimeout => exact execSaveSettleTimeout_keeps _ h
  | saveHaltTimeout => exact execSaveHaltTimeout_keeps _ h
  | jobSaveComplete => exact execJobSaveComplete_keeps _ h
  | jobRestore => exact execJobRestore_keeps _ h
  | jobExport => exact execJobExport_keeps _ h
  | jobImport => exact execJobImport_keeps _ h
  | jobReload => exact execJobReload_keeps _ h
  | jobReloadForced => exact execJobReloadForced_keeps _ h
  | jobStatus => exact execJobStatus_keeps _ h
  | flagSetCommand => exact execFlagSetCommand_keeps _ h
  | streamStart => exact execStreamStart_keeps _ h
  | streamRelease => exact execStreamRelease_keeps _ h
  | streamStop => exact execStreamStop_keeps _ h
  | streamDrain => exact execStreamDrain_keeps _ h
  | streamDrainComplete => exact execStreamDrainComplete_keeps _ h
  | streamDrainTimeout => exact execStreamDrainTimeout_keeps _ h
  | debugAttach => exact execDebugAttach_keeps _ h
  | debugDetach => exact execDebugDetach_keeps _ h
  | dbgHalt => exact execDbgHalt_keeps _ h
  | dbgHaltTimeout => exact execDbgHaltTimeout_keeps _ h
  | dbgRun => exact execDbgRun_keeps _ h
  | dbgResumeCount => exact execDbgResumeCount_keeps _ h
  | dbgBreakSet => exact execDbgBreakSet_keeps _ h
  | dbgBreakClear => exact execDbgBreakClear_keeps _ h
  | dbgHaltCountSet => exact execDbgHaltCountSet_keeps _ h
  | dbgHaltCountClear => exact execDbgHaltCountClear_keeps _ h
  | haltCountReached => exact execHaltCountReached_keeps _ h
  | dbgRakeRead => exact execDbgRakeRead_keeps _ h
  | dbgRakeWrite => exact execDbgRakeWrite_keeps _ h
  | dbgSyncSetFlag => exact execDbgSyncSetFlag_keeps _ h
  | dbgSyncClearFlag => exact execDbgSyncClearFlag_keeps _ h
  | dbgSyncWriteProducer => exact execDbgSyncWriteProducer_keeps _ h
  | dbgSyncWriteConsumer => exact execDbgSyncWriteConsumer_keeps _ h
  | dbgSyncAdvanceProducer => exact execDbgSyncAdvanceProducer_keeps _ h
  | dbgSyncAdvanceConsumer => exact execDbgSyncAdvanceConsumer_keeps _ h
  | dbgSyncWriteCr => exact execDbgSyncWriteCr_keeps _ h
  | dbgSyncCompleteBarrier => exact execDbgSyncCompleteBarrier_keeps _ h
  | dbgReset => exact execDbgReset_keeps _ h
  | dbgLogRead => exact execDbgLogRead_keeps _ h
  | debugGrantExpiry => exact execDebugGrantExpiry_keeps _ h
  | coreReset => exact execCoreReset_keeps _ h
  | clusterReset => exact execClusterReset_keeps _ _ h
  | bindQp => exact execBindQp_keeps _ _ _ _ _ _ h
  | unbindQp => exact execUnbindQp_keeps _ _ h
  | tenantEnrol => exact execTenantEnrol_keeps _ _ _ h
  | tenantRevoke => exact execTenantRevoke_keeps _ _ h
  | keyStage => exact execKeyStage_keeps _ _ _ h
  | keyExchange => exact execKeyExchange_keeps _ _ _ h
  | getMeasurements => exact execGetMeasurements_keeps _ _ h
  | endSession => exact execEndSession_keeps _ h
  | heartbeatMissed => exact execHeartbeatMissed_keeps _ h
  | cxlIdeKm => exact execCxlIdeKm_keeps _ _ _ h
  | identifyMemoryDevice => exact execIdentifyMemoryDevice_keeps h
  | getHealthInfo => exact execGetHealthInfo_keeps h
  | getSupportedLogs => exact execGetSupportedLogs_keeps h
  | getLog => exact execGetLog_keeps _ h
  | sqTail => exact execSqTail_keeps _ _ h
  | cqHead => exact execCqHead_keeps _ _ h
  | qpEnable => exact execQpEnable_keeps _ _ h
  | modTcLo => exact execModTcLo_keeps h
  | tideTcLo => exact execTideTcLo_keeps h
  | tideArmGo => exact execTideArmGo_keeps h
  | holdCtrlRaise => exact execHoldCtrlRaise_keeps h
  | holdCtrlRelease => exact execHoldCtrlRelease_keeps h
  | panTide => exact execPanTide_keeps _ h
  | panCtrlOff => exact execPanCtrlOff_keeps _ h
  | meshCfg => exact execMeshCfg_keeps _ h
  | rtData => exact execRtData_keeps _ h
  | seCtxData => exact execSeCtxData_keeps _ h
  | cxTblData => exact execCxTblData_keeps _ h
  | cxEpoch => exact execCxEpoch_keeps _ h
  | cxCfg => exact execCxCfg_keeps _ h
  | portCtrlRetrain => exact execPortCtrlRetrain_keeps _ h
  | portCtrlDisable => exact execPortCtrlDisable_keeps _ _ h
  | firmwareRegisterWrite => exact execFirmwareRegisterWrite_keeps _ _ _ h
  | powerTick => exact execPowerTick_keeps _ _ _ _ h
  | railSettled => exact execRailSettled_keeps h
  | railLower => exact execRailLower_keeps h
  | energyInterval => exact execEnergyInterval_keeps _ _ h
  | energyWindowEnd => exact execEnergyWindowEnd_keeps _ h
  | pldmCapTarget => exact execPldmCapTarget_keeps _ _ h
  | pldmRamp => exact execPldmRamp_keeps _ _ h
  | pldmPark => exact execPldmPark_keeps _ h
  | pldmUnpark => exact execPldmUnpark_keeps _ h
  | entryOutOfRange => exact execEntryOutOfRange_keeps h
  | entryCurrentLimit => exact execEntryCurrentLimit_keeps h
  | powerGood => exact execPowerGood_keeps h
  | fundamentalReset => exact execFundamentalReset_keeps h
  | panGroupSwitchOn => exact execPanGroupSwitchOn_keeps _ _ h
  | cxlLinkUp => exact execCxlLinkUp_keeps _ h
  | bootOffer => exact execBootOffer_keeps _ _ _ _ h
  | p2Mesh => exact execP2Mesh_keeps _ _ h
  | stackTraining => exact execStackTraining_keeps _ _ h
  | p3Kernels => exact execP3Kernels_keeps _ _ h
  | p4Kernels => exact execP4Kernels_keeps _ _ h
  | p5FullService => exact execP5FullService_keeps _ h
  | testpackRun => exact execTestpackRun_keeps _ h
  | testpackRunEnd => exact execTestpackRunEnd_keeps _ _ h
  | watchClear => exact execWatchClear_keeps _ h
  | jobRestoreComplete => exact execJobRestoreComplete_keeps _ h
  | jobImportComplete => exact execJobImportComplete_keeps _ h
  | jobExportComplete => exact execJobExportComplete_keeps _ h
  | rideThrough => exact execRideThrough_keeps _ h
  | selfRefreshEntry => exact execSelfRefreshEntry_keeps _ h
  | stackTemperaturePoll => exact execStackTemperaturePoll_keeps _ _ h
  | panOverdue => exact execPanOverdue_keeps _ h
  | msixHoldoffExpiry => exact execMsixHoldoffExpiry_keeps _ h
  | heartbeat => exact execHeartbeat_keeps _ h
  | keyUpdate => exact execKeyUpdate_keeps _ h
  | getCertificate => exact execGetCertificate_keeps _ h
  | challenge => exact execChallenge_keeps _ h

/-- A step that answers a next state idles, or keeps what the module held once the front command had left the queue. -/
theorem step_keeps {s t : State} (h : step s = .next t) : t = s ∧ s.pending = [] ∨ ∃ i rest, s.pending = i :: rest ∧ Keeps (s.withPending rest) t := by
  unfold step at h
  split at h
  · next hidle => exact .inl ⟨(Host.Outcome.next.inj h).symm, hidle⟩
  · next i rest hfront =>
    have hkeeps := exec_keeps i (s.withPending rest)
    rw [h] at hkeeps
    exact .inr ⟨i, rest, hfront, hkeeps⟩

/-- The queue is none of the tables. -/
theorem canon_withPending {s : State} (l : List Instr) (h : Canon s) : Canon (s.withPending l) := { h with }

end Sys2Proof.Machine

open Sys2Proof Sys2Proof.Machine

/-- Settles O54: an idle step changes nothing, and every command keeps each table in its canonical form. -/
theorem stepsKeepTheTablesCanonical : Obligations.StepsKeepTheTablesCanonical := by
  intro s t hwf hstep
  rcases step_keeps hstep with ⟨rfl, -⟩ | ⟨i, rest, -, hkeeps⟩
  · exact hwf
  · exact (tablesWf_iff t).mpr (hkeeps.canon (canon_withPending rest ((tablesWf_iff s).mp hwf)))

/-- Settles O55: an idle step changes nothing, and every command keeps the queue behind it and lowers no fuse counter. -/
theorem stepsKeepTheQueueAndTheFuses : Obligations.StepsKeepTheQueueAndTheFuses := by
  intro s t hstep
  rcases step_keeps hstep with ⟨rfl, hidle⟩ | ⟨i, rest, hfront, hkeeps⟩
  · exact ⟨by rw [hidle]; rfl, Fuses.le_refl _⟩
  · exact ⟨by rw [hkeeps.pending, hfront]; rfl, hkeeps.fuse⟩
end

section
/-! O46: the voltage and the current of the power entry, POWER_CAP's start, and the writes by PLDM (15 R369, R395; 17 R425, R426; 18 R449,
R458, R459). -/

namespace Sys2Proof.Machine

-- The power entry ------------------------------------------------------------------------------------------------

theorem exec_rideThrough (volt : BitVec 16) (s : State) : exec (.rideThrough volt) s = .next (
    if 5000 ≤ volt.toNat ∧ volt.toNat ≤ 6000 then { s with power := { s.power with entryV := volt.toNat, ride := false, entryOk := true } }
    else if s.host.full = true ∧ 4500 ≤ volt.toNat ∧ volt.toNat ≤ 6300 then
      { s with power := { s.power with entryV := volt.toNat, ride := true, entryOk := false } }
    else moduleReset s) := rfl

theorem the_entry_keeps_or_darkens_the_module : Claims.TheEntryKeepsOrDarkensTheModule := by
  intro s volt v dark
  have hrun := exec_rideThrough volt s
  refine ⟨rfl, rfl, fun hlo hhi => ?_, fun hout hfull hlo hhi => ?_, fun hout hno => ?_⟩
  · exact hrun.trans (congrArg _ (if_pos ⟨hlo, hhi⟩))
  · exact hrun.trans (congrArg _ ((if_neg hout).trans (if_pos ⟨hfull, hlo, hhi⟩)))
  · refine hrun.trans (congrArg _ ((if_neg hout).trans (if_neg ?_)))
    rintro ⟨hfull, hlo, hhi⟩
    rcases hno with h | h | h
    · exact Bool.false_ne_true (h.symm.trans hfull)
    · exact Nat.not_lt.mpr hlo h
    · exact Nat.not_lt.mpr hhi h

-- The start of a cap, and writes by PLDM -------------------------------------------------------------------------

theorem exec_powerCapStart_of_due {s : State} {T target ramp guard : Nat} (hstart : s.power.start = some (T, target, ramp, guard))
    (hdue : T ≤ north s) : exec .powerCapStart s = .next (setCap target ramp guard s) := by
  rw [show exec .powerCapStart s = execPowerCapStart s from rfl, execPowerCapStart, hstart]
  exact congrArg Host.Outcome.next (if_pos hdue)

section
variable {s : State} {n : Fin 49}

/-- A PLDM write outside the operator's secured session answers NOT_READY (18 R459; log 40). -/
theorem pldmWrite_of_no_session (ok : Bool) (f : State → State) (h : operatorSession s n = false) : pldmWrite n ok f s = .next (say 2 [0x04] s) :=
  congrArg Host.Outcome.next (if_pos (by rw [h]; rfl))

/-- A PLDM write in the operator's session takes a value in range and answers INVALID_DATA to another (18 R459; log 40). -/
theorem pldmWrite_of_session (ok : Bool) (f : State → State) (h : operatorSession s n = true) :
    pldmWrite n ok f s = .next (if ok then say 2 [0] (f s) else say 2 [0x02] s) :=
  congrArg Host.Outcome.next (if_neg (by rw [h]; decide))

end

theorem exec_pldmUnpark (n : Fin 49) (s : State) : exec (.pldmUnpark n) s =
    pldmWrite n true (fun s => wakeIfClear { s with power := { s.power with oper := false } }) s := rfl

theorem caps_and_park_by_pldm : Claims.CapsAndParkByPldm := by
  intro s n v T target ramp guard w cap
  have hin : ∀ {lo hi : Nat}, lo ≤ v.toNat → v.toNat ≤ hi → (decide (lo ≤ v.toNat) && decide (v.toNat ≤ hi)) = true := fun hlo hhi => by
    rw [decide_eq_true hlo, decide_eq_true hhi]
    rfl
  refine ⟨exec_powerCapStart_of_due, fun hop => ⟨fun hlo hhi => ?_, fun hlo hhi => ?_, fun hout => ?_, ?_, ?_⟩, fun hno i hi => ?_⟩
  · exact (pldmWrite_of_session _ _ hop).trans (congrArg _ (if_pos (hin hlo hhi)))
  · exact (pldmWrite_of_session _ _ hop).trans (congrArg _ (if_pos (hin hlo hhi)))
  · refine (pldmWrite_of_session _ _ hop).trans (congrArg _ (if_neg ?_))
    rw [Bool.and_eq_true, decide_eq_true_eq, decide_eq_true_eq]
    omega
  · exact pldmWrite_of_session true _ hop
  · exact (exec_pldmUnpark n s).trans (pldmWrite_of_session true _ hop)
  · simp only [List.mem_cons, List.not_mem_nil, or_false] at hi
    rcases hi with rfl | rfl | rfl | rfl
    · exact pldmWrite_of_no_session _ _ hno
    · exact pldmWrite_of_no_session _ _ hno
    · exact pldmWrite_of_no_session _ _ hno
    · exact (exec_pldmUnpark n s).trans (pldmWrite_of_no_session _ _ hno)

end Sys2Proof.Machine

open Sys2Proof Sys2Proof.Machine

/-- Settles O46: the entry by its voltage, a cap by its start, a PLDM write by its session and its range. That INVALID_DATA is 2 and NOT_READY 4
(log 40), what the module keeps when it goes dark (log 51) and that its mating is two bits that no row changes (log 117) are the model's
readings. -/
theorem entryCapsAndPark : Obligations.EntryCapsAndPark := ⟨the_entry_keeps_or_darkens_the_module, caps_and_park_by_pldm⟩
end

section
/-! O28: PART_QUERY and the windows of a partition, JOB_ABORT, JOB_STATUS and FLAG_SET (09 R220; 14 Table 14-8, Table 14-9; 15 R391; 16 R414). -/

namespace Sys2Proof.Machine

open Sys2Proof.Claims

-- What the reset of a partition leaves of it ---------------------------------------------------------------------

theorem complete_parts (q epoch : Nat) (cid : BitVec 16) (status part state : Nat) (res : List Nat) (s : State) :
    (complete q epoch cid status part state res s).parts = s.parts := by
  obtain ⟨h, ht⟩ := complete_frame s res q epoch cid status part state
  rw [ht]

theorem logDebug_frame (opc status k : Nat) (g : Option Grant) (a0 a1 a2 wcrc : Nat) (s : State) :
    ∃ lg n, logDebug opc status k g a0 a1 a2 wcrc s = { s with log := lg, logSeq := n } := ⟨_, _, rfl⟩

/-- A debug command that completes leaves the partitions. -/
theorem finishDbg_parts (k : Nat) (g : Grant) (x : DbgCmd) (status : Nat) (res : List Nat) (s : State) :
    (finishDbg k g x status res s).parts = s.parts := by
  obtain ⟨lg, n, hlog⟩ := logDebug_frame x.opc status k (some g) (x.args.getD 0 0) (x.args.getD 1 0) (x.args.getD 2 0) 0 s
  refine (complete_parts x.qp x.epoch x.cid status k (getPart s k).st.code res _).trans ?_
  rw [hlog]

theorem purgeEdge_parts (b : Bound) (s : State) : (purgeEdge b s).parts = s.parts := by
  unfold purgeEdge
  cases b.edge <;> rfl

/-- A fold of changes that leave the partitions leaves them. -/
theorem foldl_parts {α : Type} {f : State → α → State} (hf : ∀ s x, (f s x).parts = s.parts) (l : List α) (s : State) :
    (l.foldl f s).parts = s.parts :=
  List.foldlRecOn (motive := fun t : State => t.parts = s.parts) l f rfl fun t ht x _ => (hf t x).trans ht

/-- Of its partition, the end of a debugger's commands touches what the debugger has alone. -/
theorem getPart_stopDbg (k : Nat) {s : State} (hst : (getPart s k).st ≠ .none) :
    ∃ d r, getPart (stopDbg k s) k = { getPart s k with dbg := d, runs := r } := by
  unfold stopDbg
  split
  · exact ⟨_, _, rfl⟩
  · next d _ =>
    have hparts := foldl_parts (f := fun s x => finishDbg k d.grant x stState [] s) (fun s x => finishDbg_parts k d.grant x stState [] s) d.cmds
      (modPart s k (fun p => { p with dbg := some { d with cmds := [] }, runs := [] }))
    exact ⟨_, _, (congrArg (fun ps => tget Part.zero ps k) hparts).trans (getPart_modPart_of_st s k _ hst)⟩

/-- A partition that is torn down keeps its state and its long command (15 R389). -/
theorem getPart_tearDown (k : Nat) {s : State} (hst : (getPart s k).st ≠ .none) :
    (getPart (tearDown k s) k).st = (getPart s k).st ∧ (getPart (tearDown k s) k).long = (getPart s k).long := by
  obtain ⟨d, r, hstop⟩ := getPart_stopDbg k hst
  unfold tearDown
  extract_lets p s0 s1 s2 s3 ins s4
  have hmarked : s4.parts = s3.parts := foldl_parts (by exact fun _ _ => rfl) ins s3
  have hpurged : s3.parts = s0.parts := foldl_parts (fun s b => purgeEdge_parts b s) (p.bound ++ p.spills ++ p.links) s1
  clear_value s4
  have hsame : getPart s4 k = { getPart s k with dbg := d, runs := r } := 
    (congrArg (fun ps => tget Part.zero ps k) (hmarked.trans hpurged)).trans hstop
  have hst4 : (getPart s4 k).st = (getPart s k).st := (congrArg Part.st hsame :)
  rw [getPart_modPart_of_st s4 k _ (by rw [hst4]; exact hst)]
  exact ⟨hst4, (congrArg Part.long hsame :)⟩

/-- A partition whose reset begins drains, with its long command in progress (15 R389). -/
theorem getPart_beginReset (k : Nat) (l : Long) (s : State) :
    (getPart (beginReset k l s) k).st = .draining ∧ (getPart (beginReset k l s) k).long = some l := by
  have hmod : getPart (modPart s k (fun p => { p with st := .draining, long := some l, ending := false, window := .zero })) k =
      { getPart s k with st := .draining, long := some l, ending := false, window := .zero } := getPart_modPart_of_st s k _ (by rintro ⟨⟩)
  obtain ⟨hst, hlong⟩ := getPart_tearDown k
    (s := modPart s k (fun p => { p with st := .draining, long := some l, ending := false, window := .zero })) (by rw [hmod]; rintro ⟨⟩)
  unfold beginReset
  rw [show ∀ t, getPart (newJobRate t) k = getPart t k from fun _ => rfl, hst, hlong, hmod]
  exact ⟨rfl, rfl⟩

-- The commands ---------------------------------------------------------------------------------------------------

theorem partition_queries_and_windows : Claims.PartitionQueriesAndWindows := by
  intro s s1 c hgo k p
  refine ⟨fun hform hown => ?_, fun hT hst => ⟨fun hform hplain => ?_, fun hform => ?_⟩⟩
  · rw [show exec (.partQuery c) s = execPartQuery c s from rfl, execPartQuery]
    refine runCmd_of_ok hgo.1 ?_ rfl
    rw [hform, hown]
    rfl
  · have hide : (decide (argFld c 0 0 1 = 0) && !s1.sec.ideMem) = false := by
      rcases hplain with h | h <;> simp [h]
    rw [show exec (.windowOpen c) s = execWindowOpen c s from rfl, execWindowOpen]
    refine runCmd_of_ok hgo.1 ?_ rfl
    rw [hform, hT, hgo.2, hst, hide]
    rfl
  · rw [show exec (.windowClose c) s = execWindowClose c s from rfl, execWindowClose]
    refine runCmd_of_ok hgo.1 ?_ rfl
    rw [hform, hT, hgo.2, hst]
    rfl

theorem coreOf_of_image {s : State} {k icn g : Nat} (h : imageCore s k icn = some g) : coreOf s k icn = g := by
  rw [coreOf, h]
  rfl

theorem jobs_abort_report_and_signal : Claims.JobsAbortReportAndSignal := by
  intro s s1 c g hgo k p
  refine ⟨fun hform hT hst => ?_, fun hform hown hst => ?_, fun hform hT hst himage => ?_⟩
  · refine ⟨_, ?_, rfl, getPart_beginReset k _ _⟩
    rw [show exec (.jobAbort c) s = execJobAbort c s from rfl, execJobAbort]
    refine runCmd_of_later hgo.1 ?_ rfl
    rw [hform, hT, hgo.2, show inSt s1 c [.ready, .running, .held] = true from hst]
    rfl
  · rw [show exec (.jobStatus c) s = execJobStatus c s from rfl, execJobStatus]
    refine runCmd_of_ok hgo.1 ?_ rfl
    rw [hform, hown, hgo.2, decide_eq_false hst]
    rfl
  · rw [show exec (.flagSetCommand c) s = execFlagSetCommand c s from rfl, ← coreOf_of_image himage]
    dsimp only [execFlagSetCommand]
    refine runCmd_of_ok hgo.1 ?_ rfl
    rw [hform, hT, hgo.2, show inSt s1 c [.ready, .running, .held] = true from hst, show imageCore s1 c.part (argFld c 0 0 20) = some g from himage]
    rfl

end Sys2Proof.Machine

open Sys2Proof Sys2Proof.Machine

/-- Settles O28: each command by its checks. That PART_QUERY has no results (log 59) and that JOB_ABORT completes a long command in progress with
STATE and may meet one that waits (logs 64, 87) are the model's readings. -/
theorem queriesWindowsAndAborts : Obligations.QueriesWindowsAndAborts := ⟨partition_queries_and_windows, jobs_abort_report_and_signal⟩
end

section
/-! O49: licences and test packs, the module's own commands, and the energy reads (14 Table 14-9; 16 R408 to R410; 18 R449 to R451, R457, R458;
19 R472; 21 R505). -/

namespace Sys2Proof.Machine

open Sys2Proof.Claims

-- Ports under a licence ------------------------------------------------------------------------------------------

/-- The change of one port under a new licence: one that it adds trains where it is off and not disabled, one that it no longer lists is off
(16 R410). -/
def licenceAt (old new : Nat) (s : State) (p : Nat) : State :=
  if portOn new p && !portOn old p && decide ((getPort s p).st = 0) && !(getPort s p).disable then setPort s p { getPort s p with st := 1 }
  else if portOn old p && !portOn new p then setPort s p { getPort s p with st := 0, lanes := 0 }
  else s

theorem licencePorts_eq (old new : Nat) (s : State) : licencePorts old new s = (List.range 48).foldl (licenceAt old new) s := rfl

theorem getPort_setPort_ne (s : State) {p q : Nat} (x : Port) (h : q ≠ p) : getPort (setPort s p x) q = getPort s q :=
  tget_tset_ne Port.zero s.fab.ports p q x h

theorem ports_wf_setPort {s : State} (p : Nat) (x : Port) (h : twf Port.zero s.fab.ports = true) :
    twf Port.zero (setPort s p x).fab.ports = true := twf_tset Port.zero s.fab.ports p x h

theorem licenceAt_frame (old new p : Nat) (s : State) : ∃ f, licenceAt old new s p = { s with fab := f } := by
  unfold licenceAt
  split
  · exact ⟨_, rfl⟩
  · split <;> exact ⟨_, rfl⟩

theorem getPort_licenceAt_ne (old new : Nat) (s : State) {p q : Nat} (h : q ≠ p) : getPort (licenceAt old new s p) q = getPort s q := by
  unfold licenceAt
  split
  · exact getPort_setPort_ne s _ h
  · split
    · exact getPort_setPort_ne s _ h
    · rfl

theorem ports_wf_licenceAt (old new p : Nat) {s : State} (h : twf Port.zero s.fab.ports = true) :
    twf Port.zero (licenceAt old new s p).fab.ports = true := by
  unfold licenceAt
  split
  · exact ports_wf_setPort p _ h
  · split
    · exact ports_wf_setPort p _ h
    · exact h

theorem licencePorts_frame (old new : Nat) (s : State) : ∃ f, licencePorts old new s = { s with fab := f } :=
  List.foldlRecOn (motive := fun t : State => ∃ f, t = { s with fab := f }) (List.range 48) (licenceAt old new) ⟨_, rfl⟩ fun t ⟨_, ht⟩ p _ => by
    obtain ⟨f, hf⟩ := licenceAt_frame old new p t
    exact ⟨f, by rw [hf, ht]⟩

section
variable {old new p : Nat} (s : State)

/-- A port that a new licence no longer lists is off. -/
theorem getPort_licencePorts_off (hwf : twf Port.zero s.fab.ports = true) (hp : p < 48) (hold : portOn old p = true) (hnew : portOn new p = false) :
    (getPort (licencePorts old new s) p).st = 0 := by
  have hat : ∀ t : State, licenceAt old new t p = setPort t p { getPort t p with st := 0, lanes := 0 } := fun t => by
    unfold licenceAt
    rw [hold, hnew]
    rfl
  have hoff : ∀ t : State, twf Port.zero t.fab.ports = true → (getPort (licenceAt old new t p) p).st = 0 := fun t ht => by
    rw [hat]
    exact (congrArg Port.st (tget_tset_same Port.zero t.fab.ports p _ ht) :)
  refine (foldl_of_mem (f := licenceAt old new) (I := fun t => twf Port.zero t.fab.ports = true)
    (P := fun t => twf Port.zero t.fab.ports = true ∧ (getPort t p).st = 0) (List.mem_range.mpr hp) hwf
    (fun t x _ ht => ports_wf_licenceAt old new x ht) (fun t ht => ⟨ports_wf_licenceAt old new p ht, hoff t ht⟩) fun t x _ ht => ?_).2
  refine ⟨ports_wf_licenceAt old new x ht.1, ?_⟩
  by_cases hx : p = x
  · subst hx
    exact hoff t ht.1
  · rw [getPort_licenceAt_ne old new t hx]
    exact ht.2

/-- A port that a new licence adds trains, where it was off and is not disabled. -/
theorem getPort_licencePorts_on (hp : p < 48) (hold : portOn old p = false) (hnew : portOn new p = true) (hst : (getPort s p).st = 0)
    (hdis : (getPort s p).disable = false) : (getPort (licencePorts old new s) p).st = 1 := by
  have htrain : ∀ t : State, getPort t p = getPort s p → (getPort (licenceAt old new t p) p).st = 1 := fun t ht => by
    unfold licenceAt
    rw [hold, hnew, ht, hst, hdis]
    exact congrArg Port.st (getPort_setPort_of_st t p (x := { getPort s p with st := 1 }) (Nat.succ_ne_zero 0))
  have hkeep : ∀ t : State, (getPort t p).st = 1 → licenceAt old new t p = t := fun t ht => by
    unfold licenceAt
    rw [hold, hnew, ht]
    rfl
  refine foldl_of_mem (f := licenceAt old new) (I := fun t => getPort t p = getPort s p ∨ (getPort t p).st = 1) (P := fun t => (getPort t p).st = 1)
    (List.mem_range.mpr hp) (.inl rfl) (fun t x _ ht => ?_) (fun t ht => ?_) fun t x _ ht => ?_
  · by_cases hx : p = x
    · subst hx
      exact .inr (ht.elim (htrain t) fun h => by rw [hkeep t h]; exact h)
    · rw [getPort_licenceAt_ne old new t hx]
      exact ht
  · exact ht.elim (htrain t) fun h => by rw [hkeep t h]; exact h
  · by_cases hx : p = x
    · subst hx
      rw [hkeep t ht]
      exact ht
    · rw [getPort_licenceAt_ne old new t hx]
      exact ht

end

-- Licences and test packs ----------------------------------------------------------------------------------------

/-- The module with a licence in force, before its ports are changed. -/
def underLicence (floor : Nat) (l : Licence) (s : State) : State :=
  { (if l.ports = licPorts s then s else calibrateRim s) with
    sec := { s.sec with licence := some l }
    fuse := { s.fuse with lic := max s.fuse.lic floor }
    tide := { s.tide with lic := l.tide } }

theorem installLicence_eq (floor : Nat) (l : Licence) (s : State) :
    installLicence floor l s = licencePorts (licPorts s) l.ports (underLicence floor l s) := rfl

/-- Calibrating the rim anew touches no core and no port. -/
theorem underLicence_frame (floor : Nat) (l : Licence) (s : State) :
    (underLicence floor l s).fab = s.fab ∧ (underLicence floor l s).cores = s.cores := by
  unfold underLicence calibrateRim
  split
  · exact ⟨rfl, rfl⟩
  · split <;> exact ⟨rfl, rfl⟩

theorem installLicence_installs (floor : Nat) (l : Licence) (s : State) :
    let t := installLicence floor l s
    t.sec.licence = some l ∧ t.fuse = { s.fuse with lic := max s.fuse.lic floor } ∧ t.tide = { s.tide with lic := l.tide } ∧ t.cores = s.cores ∧
      (∀ p, p < 48 → s.tablesWf = true → portOn (licPorts s) p = true → portOn l.ports p = false → (getPort t p).st = 0) ∧
      (∀ p, p < 48 → portOn (licPorts s) p = false → portOn l.ports p = true → (getPort s p).st = 0 → (getPort s p).disable = false →
        (getPort t p).st = 1) := by
  obtain ⟨hfab, hcores⟩ := underLicence_frame floor l s
  obtain ⟨fab, hports⟩ := licencePorts_frame (licPorts s) l.ports (underLicence floor l s)
  have hport : ∀ p, getPort (underLicence floor l s) p = getPort s p := fun p => congrArg (fun f : Fabric => tget Port.zero f.ports p) hfab
  intro t
  have ht : t = { underLicence floor l s with fab := fab } := hports
  refine ⟨by rw [ht]; rfl, by rw [ht]; rfl, by rw [ht]; rfl, by rw [ht]; exact hcores, fun p hp hwf => ?_, fun p hp hold hnew hst hdis => ?_⟩
  · refine getPort_licencePorts_off (underLicence floor l s) ?_ hp
    rw [hfab]
    exact ((tablesWf_iff s).mp hwf).ports
  · refine getPort_licencePorts_on (underLicence floor l s) hp hold hnew ?_ ?_
    · rw [hport]; exact hst
    · rw [hport]; exact hdis

theorem powered_of_goes {c : Cmd} {s s1 : State} (h : goes c s s1) : s1.power.modTrip = false := (Bool.or_eq_false_iff.mp h.2).2

/-- The checks of LICENCE_INSTALL, but for those that have passed. -/
theorem firstCode_licence {f o e b g d v u w y : Bool} (hf : f = false) (ho : o = true) (he : e = false) (hb : b = true) :
    firstCode [(f || false, stFormat), (!o || !g || (d || v), stAuth), (e || !b || u, stState), (w && y, stBusy)] =
      if (!g || d || v) = true then some stAuth else if u = true then some stState else if (w && y) = true then some stBusy else none := by
  simp [firstCode, hf, ho, he, hb, Bool.or_assoc]

theorem exec_licenceInstall_of_owner {s s1 : State} {c : Cmd} (hgo : goes c s s1) (hO : isO s1 c = true)
    (hform : badForm c true false true [] = false) (hboot : s1.boot.p1 = true) :
    exec (.licenceInstall c) s = .next (match readLicence (bufOf c) with
      | none => refusedWith 0x04 c true s1 stFormat []
      | some (serial, floor, l) =>
        if !Config.sigOk 1 (bufOf c) || decide (serial ≠ s1.fuse.serial.toNat) || decide (l.version < s1.fuse.lic) then
          refusedWith 0x04 c true s1 stAuth []
        else if belowUse s1 l then refusedWith 0x04 c true s1 stState []
        else if lowers s1 l && (List.range 32).any (fun k => decide ((getPart s1 k).st = .loading)) then refusedWith 0x04 c true s1 stBusy []
        else answered c true s1 stOK [] (installLicence floor l s1)) := by
  rw [show exec (.licenceInstall c) s = execLicenceInstall c s from rfl]
  dsimp only [execLicenceInstall]
  cases hread : readLicence (bufOf c) with
  | none => exact runCmd_of_refused hgo.1 (by rw [hform]; rfl)
  | some x =>
    obtain ⟨serial, floor, l⟩ := x
    have hcode := firstCode_licence (g := Config.sigOk 1 (bufOf c)) (d := decide (serial ≠ s1.fuse.serial.toNat))
      (v := decide (l.version < s1.fuse.lic)) (u := belowUse s1 l) (w := lowers s1 l)
      (y := (List.range 32).any (fun k => decide ((getPart s1 k).st = .loading))) hform hO (powered_of_goes hgo) hboot
    dsimp only
    split
    · next hauth => exact runCmd_of_refused hgo.1 (hcode.trans (if_pos hauth))
    · next hauth =>
      split
      · next huse => exact runCmd_of_refused hgo.1 (hcode.trans ((if_neg hauth).trans (if_pos huse)))
      · next huse =>
        split
        · next hbusy => exact runCmd_of_refused hgo.1 (hcode.trans ((if_neg hauth).trans ((if_neg huse).trans (if_pos hbusy))))
        · next hbusy => exact runCmd_of_ok hgo.1 (hcode.trans ((if_neg hauth).trans ((if_neg huse).trans (if_neg hbusy)))) rfl

theorem licences_and_packs_are_installed : Claims.LicencesAndPacksAreInstalled := by
  intro s s1 c p hgo hO hform b
  refine ⟨exec_licenceInstall_of_owner hgo hO hform, fun floor l => installLicence_installs floor l s1, fun hread => ?_⟩
  rw [show exec (.testpackLoad c) s = execTestpackLoad c s from rfl]
  dsimp only [execTestpackLoad]
  rw [show readPack c.bufLen.toNat (bufOf c) = .ok p from hread]
  by_cases hauth : packAuth s1 b = true
  · rw [if_pos hauth]
    refine runCmd_of_refused hgo.1 ?_
    rw [hform, hO, show packAuth s1 (bufOf c) = true from hauth]
    rfl
  · rw [if_neg hauth]
    refine runCmd_of_ok hgo.1 ?_ rfl
    rw [hform, hO, hgo.2, show packAuth s1 (bufOf c) = false from eq_false_of_ne_true hauth]
    rfl

-- The module's own commands --------------------------------------------------------------------------------------

/-- Setting the rails touches the stages of the pans alone. -/
theorem setRails_frame (k : Nat) (s : State) : ∃ ps, setRails k s = { s with power := { s.power with pans := ps } } :=
  List.foldlRecOn (motive := fun t : State => ∃ ps, t = { s with power := { s.power with pans := ps } }) (livePans s)
    (fun s p => modPwr s p (fun x => { x with set := railOf s p k })) ⟨_, rfl⟩ fun t ⟨_, ht⟩ p _ => by
    rw [ht]
    exact ⟨_, rfl⟩

/-- The causes of the park are those of before a module wakes. -/
theorem parkCauses_wakeIfClear (s : State) : parkCauses (wakeIfClear s) = parkCauses s := by
  unfold wakeIfClear
  dsimp only
  split
  · obtain ⟨ps, hrails⟩ := setRails_frame s.tide.rate { s with power := { s.power with waking := true } }
    rw [hrails]
    rfl
  · rfl

/-- The checks of POWER_CAP on values in range. -/
theorem powerCap_in_range {s : State} {t r g : Nat} {keep : Bool} {c : Cmd} (htlo : 4000 ≤ t) (hthi : t ≤ 40000) (hrlo : 1 ≤ r) (hrhi : r ≤ 400)
    (hg : (if keep then s.power.guard else g) ≤ 4000 ∨ keep = true)
    (htc : c.tc = 0 ∨ (8192 ≤ aheadBy s c.tc ∧ aheadBy s c.tc ≤ 2 ^ 32)) :
    (decide (t < 4000) || decide (40000 < t) || decide (r = 0) || decide (400 < r) || (!keep && decide (4000 < g)) ||
      (decide (c.tc ≠ 0) && (decide (aheadBy s c.tc < 8192) || decide (2 ^ 32 < aheadBy s c.tc)))) = false := by
  have hguard : (!keep && decide (4000 < g)) = false := by
    cases keep with
    | true => rfl
    | false => exact decide_eq_false (Nat.not_lt.mpr (hg.resolve_right Bool.false_ne_true))
  have hstart : (decide (c.tc ≠ 0) && (decide (aheadBy s c.tc < 8192) || decide (2 ^ 32 < aheadBy s c.tc))) = false := by
    rcases htc with h | ⟨hlo, hhi⟩
    · rw [decide_eq_false (not_not.mpr h)]
      rfl
    · rw [decide_eq_false (Nat.not_lt.mpr hlo), decide_eq_false (Nat.not_lt.mpr hhi)]
      exact Bool.and_false _
  rw [hguard, hstart, decide_eq_false (Nat.not_lt.mpr htlo), decide_eq_false (Nat.not_lt.mpr hthi), decide_eq_false (Nat.not_lt.mpr hrhi),
    decide_eq_false (by omega)]
  rfl

theorem module_commands_act : Claims.ModuleCommandsAct := by
  intro s s1 c hgo gs t r keep g w
  refine ⟨fun hform => ?_, fun hO hform htlo hthi hrlo hrhi hg => ?_, fun hO hform => ?_⟩
  · rw [show exec (.modQuery c) s = execModQuery c s from rfl, execModQuery]
    exact runCmd_of_ok hgo.1 (by rw [hform]; rfl) rfl
  · have hrange := fun htc => powerCap_in_range (s := s1) (c := c) htlo hthi hrlo hrhi hg htc
    rw [show exec (.powerCap c) s = execPowerCap c s from rfl]
    dsimp only [execPowerCap]
    refine ⟨fun htc => runCmd_of_ok hgo.1 ?_ ?_, fun htc hlo hhi => runCmd_of_ok hgo.1 ?_ ?_⟩
    · rw [hform, hO, hgo.2, hrange (.inl htc)]
      rfl
    · rw [if_pos htc]
      rfl
    · rw [hform, hO, hgo.2, hrange (.inr ⟨hlo, hhi⟩)]
      rfl
    · rw [if_neg htc]
      rfl
  · have hcode : firstCode [(badForm c true false false [], stFormat), (!isO s1 c, stAuth), (tooEarly s1, stState)] = none := by
      rw [hform, hO, hgo.2]
      rfl
    rw [show exec (.modPark c) s = execModPark c s from rfl, show exec (.modUnpark c) s = execModUnpark c s from rfl, execModPark, execModUnpark]
    refine ⟨runCmd_of_ok hgo.1 hcode rfl, fun hw => runCmd_of_ok hgo.1 hcode ?_, fun hw => runCmd_of_ok hgo.1 hcode ?_⟩
    · dsimp only
      rw [show s1.power.parked = false from hw]
      rfl
    · dsimp only
      rw [show s1.power.parked = true from hw, if_pos rfl, parkCauses_wakeIfClear, parkCauses, Bool.toNat_false, Nat.zero_add]

-- Energy reads ---------------------------------------------------------------------------------------------------

/-- The checks of an ENERGY_READ of a partition that its own pair may read. -/
theorem energyChecks_pass {s : State} {c : Cmd} (hform : badForm c false false false [0x30FFF] = false)
    (hrole : (getQp s c.qp).role = 1 ∨ (getQp s c.qp).role = 2) (hT : isT s c = true) (hst : (getPart s c.part).st ≠ .none)
    (hearly : tooEarly s = false) (hmode : energyMode c ≠ 3) : firstCode (energyChecks c false s) = none := by
  have hqp : (decide ((getQp s c.qp).role ≠ 1) && decide ((getQp s c.qp).role ≠ 2)) = false := by
    rcases hrole with h | h <;> simp [h]
  simp only [energyChecks, hform, hqp, hT, hearly, decide_eq_false hmode, decide_eq_true hst]
  rfl

theorem energy_is_read : Claims.EnergyIsRead := by
  intro s s1 c i j l hgo m w e may
  refine ⟨fun hform hmay => ?_, fun hform hO hmode => ?_⟩
  · obtain ⟨hrole, hT, hst⟩ := hmay
    have hcode := fun hmode => energyChecks_pass hform hrole hT hst hgo.2 hmode
    rw [show exec (.energyReadWindow c) s = execEnergyReadWindow c s from rfl, show exec (.energySetWindow c) s = execEnergySetWindow c s from rfl,
      execEnergyReadWindow, execEnergySetWindow]
    refine ⟨fun hmode hlast => ?_, fun hmode hlast => ?_, fun hmode hlo hhi => ?_⟩
    · refine (if_neg fun h => h.1 hmode).trans (runCmd_of_ok hgo.1 (hcode (by rw [hmode]; decide)) ?_)
      dsimp only
      rw [show (getMeter s1 c.part).last = some (i, j, l) from hlast]
      rfl
    · refine ⟨Config.freeNat (s1.free + 0) % 2 ^ 32, Config.freeNat (s1.free + 1) % 2 ^ 32, Config.freeNat (s1.free + 2) % 2 ^ 32,
        (if_neg fun h => h.1 hmode).trans (runCmd_of_ok hgo.1 (hcode (by rw [hmode]; decide)) ?_)⟩
      dsimp only
      rw [show (getMeter s1 c.part).last = none from hlast]
      rfl
    · rw [decide_eq_false (show argFld c 0 0 12 ≠ 0 by omega), decide_eq_false (Nat.not_lt.mpr hhi)]
      exact (if_neg fun h => h.1 hmode).trans (runCmd_of_ok hgo.1 (hcode (by rw [hmode]; decide)) rfl)
  · rw [show exec (.energyReadModule c) s = execEnergyReadModule c s from rfl, execEnergyReadModule]
    refine (if_neg fun h => h.1 hmode).trans (runCmd_of_ok hgo.1 ?_ rfl)
    rw [hform, hO, hgo.2, decide_eq_false (show energyMode c ≠ 3 by rw [hmode]; decide)]
    rfl

end Sys2Proof.Machine

open Sys2Proof Sys2Proof.Machine

/-- Settles O49: a licence and a pack by their checks, the ports of a licence port by port, and each command and read by its checks. That ports
above a lowered licence go off (log 76), the order of a pack's checks (log 77), that an ENERGY_READ before the first window answers free values
(log 78) and that KEEP takes the guard in force at acceptance (log 79) are the model's readings. -/
theorem licencesPacksAndModuleCommands : Obligations.LicencesPacksAndModuleCommands :=
  ⟨licences_and_packs_are_installed, module_commands_act, energy_is_read⟩
end

section
/-! O48: the binding of pairs by sessions, the answers of the security block, and the mailbox (01 R17; 14 Table 14-1; 16 R397, R399, R400, R402
to R407, R412, R418, R419). -/

namespace Sys2Proof.Machine

-- Vendor requests ------------------------------------------------------------------------------------------------

section
variable {s : State} {n : Fin 49} {code : Nat} {checks : Session → List (Bool × Nat)} {f : State → State} (hup : secUp s = true)
include hup

/-- What the security block does once it is up. -/
theorem of_secUp {α : Type} {a b : α} : (if (!secUp s) = true then a else b) = b := if_neg (by rw [hup]; decide)

theorem vendor_of_no_session (h : sessionOf s n = none) : vendor n code checks f s = .next (spdmError 0x0B s) := by
  rw [vendor, of_secUp hup, h]

theorem vendor_of_session {x : Session} (h : sessionOf s n = some x) : vendor n code checks f s = .next (match firstCode (checks x) with
    | some st => vendorAnswer code st s
    | none => vendorAnswer code stOK (f s)) := by
  rw [vendor, of_secUp hup, h] <;> rfl

theorem vendor_of_refused {x : Session} {st : Nat} (h : sessionOf s n = some x) (hc : firstCode (checks x) = some st) :
    vendor n code checks f s = .next (vendorAnswer code st s) := by
  rw [vendor_of_session hup h, hc]

theorem vendor_of_ok {x : Session} (h : sessionOf s n = some x) (hc : firstCode (checks x) = none) :
    vendor n code checks f s = .next (vendorAnswer code stOK (f s)) := by
  rw [vendor_of_session hup h, hc]

end

-- Pairs ----------------------------------------------------------------------------------------------------------

/-- A pair bound to a session, with a role, a principal and a grant. -/
def boundPair (n : Fin 49) (q role prin : Nat) (g : Option Grant) (s : State) : State :=
  setQp (endPair q s) q { getQp (endPair q s) q with role := role, prin := prin, grant := g, sess := some (n : Nat) }

/-- The checks of BIND_QP (14 Table 14-2). -/
def bindChecks (n : Fin 49) (q r prin : Nat) (resv : Bool) (grant : List Byte) (s : State) (x : Session) : List (Bool × Nat) :=
  [(resv || decide (r = 0) || decide (3 < r) || (if r = 3 then !grantForm grant else !grant.isEmpty), stFormat),
   (if r = 1 then !provesOperator s x else if r = 2 then !provesTenant s x prin else !grantOk s x grant, stAuth),
   ((getQp s q).en || (decide (r = 3) && !grantScope s grant), stState), (decide (32 < q), stBounds),
   ((getQp s q).sess.isSome && decide ((getQp s q).sess ≠ some (n : Nat)), stBusy)]

theorem exec_bindQp (n : Fin 49) (pair role prin : Byte) (resv : Bool) (grant : List Byte) (s : State) :
    exec (.bindQp n pair role prin resv grant) s =
      vendor n 1 (bindChecks n pair.toNat role.toNat prin.toNat resv grant s) (fun s => boundPair n pair.toNat role.toNat
        (if role.toNat = 2 then prin.toNat else 0) (if role.toNat = 3 then some (grantOf (endPair pair.toNat s) grant) else none) s) s := rfl

/-- A pair that no other session bound may be bound. -/
theorem sess_free_or_own {o : Option Nat} {n : Nat} (h : o = none ∨ o = some n) : (o.isSome && decide (o ≠ some n)) = false := by
  rcases h with rfl | rfl <;> simp

/-- A pair that is let go has no role, no grant and no session. -/
theorem getQp_unbind (q : Nat) {s : State} (hwf : s.tablesWf = true) :
    (getQp (unbind q s) q).role = 0 ∧ (getQp (unbind q s) q).grant = none ∧ (getQp (unbind q s) q).sess = none := by
  unfold unbind
  extract_lets s1 s2
  have hkeeps : Keeps s s2 := endPair_keeps q
    (keeps_foldl (fun u k hu => keeps_ite (closeWindow_keeps k hu) hu) (Keeps.refl s))
  rw [getQp_setQp _ _ _ (hkeeps.canon ((tablesWf_iff s).mp hwf)).qps]
  exact ⟨rfl, rfl, rfl⟩

section
variable {s : State} {n : Fin 49} {x : Session} {pair prin : Byte} (hup : secUp s = true) (hsess : sessionOf s n = some x)
  (hoff : (getQp s pair.toNat).en = false) (hq : pair.toNat ≤ 32)
  (hfree : (getQp s pair.toNat).sess = none ∨ (getQp s pair.toNat).sess = some (n : Nat))
include hup hsess hoff hq hfree

omit hup hsess in
/-- The checks of BIND_QP of such a pair leave the form and the proof, and a grant's scope. -/
theorem firstCode_bindChecks (r : Nat) (grant : List Byte) :
    firstCode (bindChecks n pair.toNat r prin.toNat false grant s x) =
      firstCode [(decide (r = 0) || decide (3 < r) || (if r = 3 then !grantForm grant else !grant.isEmpty), stFormat),
        (if r = 1 then !provesOperator s x else if r = 2 then !provesTenant s x prin.toNat else !grantOk s x grant, stAuth),
        (decide (r = 3) && !grantScope s grant, stState)] := by
  rw [bindChecks, sess_free_or_own hfree, hoff, decide_eq_false (Nat.not_lt.mpr hq), Bool.false_or, Bool.false_or]
  rfl

/-- BIND_QP for the operator (16 R400). -/
theorem exec_bindQp_of_operator : exec (.bindQp n pair 1 prin false []) s = .next
    (if provesOperator s x then vendorAnswer 1 stOK (boundPair n pair.toNat 1 0 none s) else vendorAnswer 1 stAuth s) := by
  have hcode := firstCode_bindChecks (x := x) (prin := prin) hoff hq hfree 1 []
  rw [exec_bindQp]
  by_cases hproof : provesOperator s x = true
  · rw [if_pos hproof]
    exact vendor_of_ok hup hsess (hcode.trans (by rw [if_pos rfl, hproof]; rfl))
  · rw [if_neg hproof]
    exact vendor_of_refused hup hsess (hcode.trans (by rw [if_pos rfl, eq_false_of_ne_true hproof]; rfl))

/-- BIND_QP for a tenant (16 R400). -/
theorem exec_bindQp_of_tenant (hproof : provesTenant s x prin.toNat = true) : exec (.bindQp n pair 2 prin false []) s = .next
    (vendorAnswer 1 stOK (boundPair n pair.toNat 2 prin.toNat none s)) := by
  have hcode := firstCode_bindChecks (x := x) (prin := prin) hoff hq hfree 2 []
  rw [exec_bindQp]
  exact vendor_of_ok hup hsess (hcode.trans (by rw [hproof]; rfl))

/-- BIND_QP for a debugger (16 R419). -/
theorem exec_bindQp_of_debugger {grant : List Byte} (hform : grantForm grant = true) (hscope : grantScope s grant = true) :
    exec (.bindQp n pair 3 prin false grant) s = .next (if grantOk s x grant then
      vendorAnswer 1 stOK (boundPair n pair.toNat 3 0 (some (grantOf (endPair pair.toNat s) grant)) s) else vendorAnswer 1 stAuth s) := by
  have hcode := firstCode_bindChecks (x := x) (prin := prin) hoff hq hfree 3 grant
  rw [exec_bindQp]
  by_cases hproof : grantOk s x grant = true
  · rw [if_pos hproof]
    exact vendor_of_ok hup hsess (hcode.trans (by rw [hform, hscope, hproof]; rfl))
  · rw [if_neg hproof]
    exact vendor_of_refused hup hsess (hcode.trans (by rw [hform, eq_false_of_ne_true hproof]; rfl))

end

theorem pairs_are_bound_by_sessions : Claims.PairsAreBoundBySessions := by
  intro s n e x pair prin grant q s1 bound hup
  refine ⟨fun hno => ?_, fun hsess hoff hq hfree => ?_, fun hsess hown => ?_, fun hsome => ⟨?_, ?_⟩,
    getQp_unbind q⟩
  · rw [exec_bindQp]
    exact vendor_of_no_session hup hno
  · have hop := exec_bindQp_of_operator (prin := prin) hup hsess hoff hq hfree
    exact ⟨fun hproof => hop.trans (congrArg _ (if_pos hproof)), fun hproof => hop.trans (congrArg _ (if_neg (ne_true_of_eq_false hproof))),
      exec_bindQp_of_tenant hup hsess hoff hq hfree, exec_bindQp_of_debugger hup hsess hoff hq hfree⟩
  · exact vendor_of_ok hup hsess (if_neg (by rw [decide_eq_true_eq]; exact not_not.mpr hown))
  · obtain ⟨y, hy⟩ := Option.isSome_iff_exists.mp hsome
    rw [show exec (.endSession e) s = execEndSession e s from rfl, execEndSession, of_secUp hup, hy]
    rfl
  · exact congrArg Host.Outcome.next (if_pos hsome)

-- The security block ---------------------------------------------------------------------------------------------

/-- The first place that holds no session, where every place before it does. -/
theorem find_first_free {p : Nat → Bool} {i m : Nat} (hi : i < m) (hp : p i = true) (hbefore : ∀ j, j < i → p j = false) :
    (List.range m).find? p = some i :=
  List.find?_range_eq_some.mpr ⟨hp, List.mem_range.mpr hi, fun j hj => by rw [hbefore j hj]; rfl⟩

theorem inSession_of_some {s : State} {n : Nat} {code : Byte} {f : Session → Session} {x : Session} (hup : secUp s = true)
    (hx : tget none s.sec.sess n = some x) :
    inSession n code f s = .next (say 3 [code] { s with sec := { s.sec with sess := tset none s.sec.sess n (some (f x)) } }) := by
  rw [inSession, of_secUp hup, hx]

theorem exec_keyStage_of_tenant {s : State} {n : Fin 49} {x : Session} {part : Byte} {jk : List Byte} (hup : secUp s = true)
    (hsess : sessionOf s n = some x) (hform : keyForm jk = true) (hT : tenantOf s x part.toNat = true) (hst : (getPart s part.toNat).st = .empty) :
    exec (.keyStage n part jk) s = .next (if (openKey s part.toNat false jk).isNone then vendorAnswer 5 stAuth s
      else if !licKeys s && decide (leAt jk 1 1 = 1) then vendorAnswer 5 stLicence s
      else vendorAnswer 5 stOK (setPart s part.toNat { getPart s part.toNat with staged := openKey s part.toNat false jk })) := by
  rw [show exec (.keyStage n part jk) s = execKeyStage n part jk s from rfl]
  dsimp only [execKeyStage]
  have hcode : firstCode [(!keyForm jk, stFormat), (!tenantOf s x part.toNat || (openKey s part.toNat false jk).isNone, stAuth),
      (!licKeys s && decide (leAt jk 1 1 = 1), stLicence), (decide ((getPart s part.toNat).st ≠ .empty), stState)] =
      if (openKey s part.toNat false jk).isNone = true then some stAuth
      else if (!licKeys s && decide (leAt jk 1 1 = 1)) = true then some stLicence else none := by
    rw [hform, hT, hst]
    rfl
  split
  · next hkey => exact vendor_of_refused hup hsess (hcode.trans (if_pos hkey))
  · next hkey =>
    split
    · next hlic => exact vendor_of_refused hup hsess (hcode.trans ((if_neg hkey).trans (if_pos hlic)))
    · next hlic => exact vendor_of_ok hup hsess (hcode.trans ((if_neg hkey).trans (if_neg hlic)))

theorem exec_keyExchange_of_free {s : State} (mauth : Bool) (key root : BitVec 512) (hup : secUp s = true) {i : Nat}
    (hfind : (List.range 48).find? (fun n => decide (tget none s.sec.sess n = none)) = some i) :
    exec (.keyExchange mauth key root) s = .next (say 3 (0x64#8 :: BitVec.ofNat 8 i :: Config.sign [BitVec.ofNat 8 i])
      { s with sec := { s.sec with sess := tset none s.sec.sess i (some ⟨key, root, mauth, 0, 0⟩) } }) := by
  rw [show exec (.keyExchange mauth key root) s = execKeyExchange mauth key root s from rfl, execKeyExchange, of_secUp hup, hfind]

theorem exec_keyExchange_of_full {s : State} (mauth : Bool) (key root : BitVec 512) (hup : secUp s = true)
    (hfind : (List.range 48).find? (fun n => decide (tget none s.sec.sess n = none)) = none) :
    exec (.keyExchange mauth key root) s = .next (say 3 [0x7F, 3] s) := by
  rw [show exec (.keyExchange mauth key root) s = execKeyExchange mauth key root s from rfl, execKeyExchange, of_secUp hup, hfind]
  rfl

theorem the_security_block_answers : Claims.TheSecurityBlockAnswers := by
  intro s n e x prin part h key root jk mauth io mem k sess hup
  have hplace : ∀ j, (tget none s.sec.sess j).isSome = true → decide (tget none s.sec.sess j = none) = false := fun j hj =>
    decide_eq_false (Option.isSome_iff_ne_none.mp hj)
  refine ⟨fun hsess hop hname => ⟨fun hprin => ?_, ?_⟩, exec_keyStage_of_tenant hup, fun i hi hnone hbefore => ?_, fun hfull => ?_,
    fun hx => ⟨inSession_of_some hup hx, inSession_of_some hup hx⟩, fun hslot => ?_, ?_, fun hlo hhi => ?_, fun hsess hop => ?_⟩
  · refine vendor_of_ok hup hsess ?_
    rw [hop, hname, decide_eq_false hprin]
    rfl
  · refine vendor_of_ok hup hsess ?_
    rw [hop, hname]
    rfl
  · exact exec_keyExchange_of_free mauth key root hup (find_first_free hi (decide_eq_true hnone) fun j hj => hplace j (hbefore j hj))
  · exact exec_keyExchange_of_full mauth key root hup (List.find?_eq_none.mpr fun j hj =>
      ne_true_of_eq_false (hplace j (hfull j (List.mem_range.mp hj))))
  · exact congrArg Host.Outcome.next ((of_secUp hup).trans (if_pos hslot))
  · exact congrArg Host.Outcome.next ((of_secUp hup).trans (if_pos rfl))
  · rw [show exec (.getMeasurements n part) s = execGetMeasurements n part s from rfl]
    dsimp only [execGetMeasurements]
    rw [of_secUp hup, if_neg (by omega), if_neg (by omega), if_neg (by omega)]
  · rw [show exec (.cxlIdeKm n io mem) s = execCxlIdeKm n io mem s from rfl, execCxlIdeKm, of_secUp hup, hsess]
    exact congrArg Host.Outcome.next (if_pos hop)

-- The mailbox ----------------------------------------------------------------------------------------------------

theorem mailbox_commands_answer : Claims.MailboxCommandsAnswer := by
  intro s log i op a
  refine ⟨rfl, fun hlog hi => ?_⟩
  simp only [List.mem_cons, List.not_mem_nil, or_false, Prod.mk.injEq] at hi
  rcases hi with ⟨rfl, rfl, rfl⟩ | ⟨rfl, rfl, rfl⟩ | ⟨rfl, rfl, rfl⟩ | ⟨rfl, rfl, rfl⟩
  · rfl
  · rfl
  · rfl
  · exact if_neg hlog

end Sys2Proof.Machine

open Sys2Proof Sys2Proof.Machine

/-- Settles O48: a request by its session and its checks, a session by its place, a mailbox command by its row. That operand 48 is outside a
session, with the codes of SPDM's errors (log 71), who proves which principal (log 72), that a wrapped pair needs the licence of the tenant key
service (log 73), the numbers of the measurement blocks (log 74) and the free values of the mailbox with its log (logs 75, 114) are the model's
readings. -/
theorem sessionsBindAndAnswer : Obligations.SessionsBindAndAnswer :=
  ⟨pairs_are_bound_by_sessions, the_security_block_answers, mailbox_commands_answer⟩
end

section
/-! O20: fault messages at the rim, and the first fault of a job (09 R238; 11 R273; 17 R430; 19 R464, R465, R467). -/

namespace Sys2Proof.Machine

-- Failures of a job ----------------------------------------------------------------------------------------------

/-- A partition whose job may fail: READY, RUNNING or HELD. -/
def HasJob (p : Part) : Prop := p.st = .ready ∨ p.st = .running ∨ p.st = .held

theorem HasJob.st_ne {p : Part} (h : HasJob p) : p.st ≠ .none := by
  rcases h with h | h | h <;> rw [h] <;> decide

section
variable {det : List Nat} {stop : Bool} {peers : List Nat} {k code src loc sub : Nat} {s : State}

/-- The first failure of a job is recorded, and its end follows (19 R465). -/
theorem recordDet_of_first (hjob : HasJob (getPart s k)) (hends : (getPart s k).ends = none) :
    recordDet det stop peers k code src loc sub s = endOrWait k code (firstFailure det stop peers k code src loc sub s) := by
  rcases hjob with h | h | h
  · simp only [recordDet, h, hends, Option.isSome_none, Bool.false_eq_true, if_false]; rfl
  · exact recordDet_of_running det stop peers k code src loc sub s h hends
  · simp only [recordDet, h, hends, Option.isSome_none, Bool.false_eq_true, if_false]; rfl

/-- A later failure only advances MORE (19 R465). -/
theorem recordDet_of_later (h : (getPart s k).st = .faulted ∨ HasJob (getPart s k) ∧ (getPart s k).ends.isSome = true) :
    recordDet det stop peers k code src loc sub s = modPart s k moreFaults := by
  rcases h with h | ⟨h | h | h, hends⟩
  · simp only [recordDet, h]
  · simp only [recordDet, h, hends, if_true]
  · exact recordDet_of_waiting det stop peers k code src loc sub s h hends
  · simp only [recordDet, h, hends, if_true]

/-- Of the partitions the first failure writes the record of its own. -/
theorem firstFailure_parts : (firstFailure det stop peers k code src loc sub s).parts =
    (modPart s k (fun p => { p with fault := some ⟨code, src, loc, sub, BitVec.ofNat 48 (north s), 0, det⟩ })).parts := by
  cases stop <;> simp only [firstFailure, sendCtrl, stopChans, mapCtxs, if_true, Bool.false_eq_true, if_false]

theorem getPart_firstFailure (hst : (getPart s k).st ≠ .none) : getPart (firstFailure det stop peers k code src loc sub s) k =
    { getPart s k with fault := some ⟨code, src, loc, sub, BitVec.ofNat 48 (north s), 0, det⟩ } := by
  rw [getPart, firstFailure_parts]
  exact getPart_modPart_of_st s k _ hst

theorem firstFailure_haltSent : (firstFailure det stop peers k code src loc sub s).haltSent = s.haltSent := by
  cases stop <;> simp only [firstFailure, sendCtrl, stopChans, mapCtxs, if_true, Bool.false_eq_true, if_false, modPart, setPart_haltSent]

end

-- The end of a job that has failed -------------------------------------------------------------------------------

/-- With its long command completed a partition has none. -/
theorem getPart_completeLong_none {s : State} {k : Nat} (status : Nat) (res : List Nat) (hst : (getPart s k).st ≠ .none) :
    getPart (completeLong k status res s) k = { getPart s k with long := none } := by
  cases hl : (getPart s k).long with
  | some l => exact getPart_completeLong status res hl hst
  | none =>
    rw [completeLong_of_none status res hl]
    exact congrArg (fun l => { getPart s k with long := l }) hl

theorem getPart_endFaulted (k code : Nat) (s : State) :
    getPart (endFaulted k code s) k = { endedPart code (getPart s k) with long := none } := by
  obtain ⟨h, r, ht⟩ := endFaulted_eq k code s
  have hmod : getPart (modPart (sendHalts (activeCores s k) s) k (endedPart code)) k = endedPart code (getPart s k) :=
    getPart_modPart_of_st _ k _ (by rintro ⟨⟩)
  have hlong := getPart_completeLong_none (s := modPart (sendHalts (activeCores s k) s) k (endedPart code)) code [] (by rw [hmod]; rintro ⟨⟩)
  rw [hmod] at hlong
  rw [ht]
  exact hlong

/-- The end of a job sends halt requests to its cores. -/
theorem mem_haltSent_of_active {k code g : Nat} {s : State} (h : g ∈ activeCores s k) : g ∈ (endFaulted k code s).haltSent := by
  rw [endFaulted_haltSent]
  exact List.contains_iff_mem.mp (contains_sendHalts s h)

theorem endOrWait_of_free (k code : Nat) {s : State} (h : s.tide.frozen = false ∨ s.power.modTrip = true) :
    endOrWait k code s = endFaulted k code s :=
  if_neg (by rcases h with h | h <;> simp [h])

section
variable {k code src loc sub : Nat} {quiet : Bool} {s : State} (hjob : HasJob (getPart s k)) (hends : (getPart s k).ends = none)
include hjob hends

theorem recordFault_of_first : recordFault k code src loc sub quiet s =
    endOrWait k code (firstFailure [] true (if quiet then [] else otherModules s k) k code src loc sub s) := recordDet_of_first hjob hends

theorem first_fault_ends_the_job (hfree : s.tide.frozen = false ∨ s.power.modTrip = true) :
    let t := recordFault k code src loc sub quiet s
    (getPart t k).st = .faulted ∧ (getPart t k).endCode = code ∧
      (getPart t k).fault = some ⟨code, src, loc, sub, BitVec.ofNat 48 (north s), 0, []⟩ ∧
      (getPart t k).guard = dropGuardStep (getPart s k).guard ∧ (getPart t k).long = none ∧ (getPart t k).reload = none ∧
      (∀ g ∈ activeCores s k, g ∈ t.haltSent) ∧ ∀ j, j ≠ k → getPart t j = getPart s j := by
  have hframe := touchesPart_firstFailure [] true (if quiet then [] else otherModules s k) k code src loc sub s
  have hrecord : recordFault k code src loc sub quiet s = endFaulted k code _ := (recordFault_of_first hjob hends).trans
    (endOrWait_of_free k code (hfree.imp ((congrArg Tide.frozen hframe.only.tide).trans ·) ((congrArg Power.modTrip hframe.only.power).trans ·)))
  have hpart := getPart_endFaulted k code (firstFailure [] true (if quiet then [] else otherModules s k) k code src loc sub s)
  rw [getPart_firstFailure hjob.st_ne] at hpart
  intro t
  rw [show t = _ from hrecord, hpart]
  refine ⟨rfl, rfl, rfl, rfl, rfl, rfl, fun g hg => mem_haltSent_of_active ?_, (hframe.trans (touchesPart_endFaulted k code _)).others⟩
  rw [hframe.only.activeCores]
  exact hg

theorem first_fault_waits_for_the_release (hfrozen : s.tide.frozen = true) (htrip : s.power.modTrip = false) :
    let t := recordFault k code src loc sub quiet s
    getPart t k = { getPart s k with fault := some ⟨code, src, loc, sub, BitVec.ofNat 48 (north s), 0, []⟩, ends := some code } ∧
      t.haltSent = s.haltSent ∧ t.cores = s.cores ∧ ∀ j, j ≠ k → getPart t j = getPart s j := by
  have hframe := touchesPart_firstFailure [] true (if quiet then [] else otherModules s k) k code src loc sub s
  have hrecord : recordFault k code src loc sub quiet s = modPart _ k (fun p => { p with ends := some code }) :=
    (recordFault_of_first hjob hends).trans
      (endOrWait_of_frozen k code ((congrArg Tide.frozen hframe.only.tide).trans hfrozen) ((congrArg Power.modTrip hframe.only.power).trans htrip))
  have hpart := getPart_firstFailure (det := []) (stop := true) (peers := if quiet then [] else otherModules s k) (code := code) (src := src)
    (loc := loc) (sub := sub) hjob.st_ne
  have hwait := getPart_modPart_of_st (firstFailure [] true (if quiet then [] else otherModules s k) k code src loc sub s) k
    (fun p => { p with ends := some code }) (by rw [hpart]; exact hjob.st_ne)
  rw [hpart] at hwait
  intro t
  rw [show t = _ from hrecord]
  exact ⟨hwait, (setPart_haltSent _ k _).trans firstFailure_haltSent, (setPart_cores _ k _).trans hframe.only.cores,
    (hframe.trans (touchesPart_modPart k _ _)).others⟩

/-- A first failure is kept as the fault of its job, whether its end waits or not. -/
theorem getPart_recordDet_fault (det : List Nat) (stop : Bool) (peers : List Nat) :
    (getPart (recordDet det stop peers k code src loc sub s) k).fault = some ⟨code, src, loc, sub, BitVec.ofNat 48 (north s), 0, det⟩ := by
  have hpart := getPart_firstFailure (det := det) (stop := stop) (peers := peers) (code := code) (src := src) (loc := loc) (sub := sub) hjob.st_ne
  rw [recordDet_of_first hjob hends, endOrWait]
  split
  · rw [getPart_modPart_of_st _ _ _ (by rw [hpart]; exact hjob.st_ne), hpart]
  · rw [getPart_endFaulted, hpart]
    rfl

end

theorem the_first_fault_is_kept : Claims.TheFirstFaultIsKept := by
  intro s k code src loc sub quiet p t
  exact ⟨first_fault_ends_the_job, first_fault_waits_for_the_release, fun det hjob hends => getPart_recordDet_fault hjob hends det true _,
    fun hlater => recordDet_of_later hlater⟩

-- Fault messages -------------------------------------------------------------------------------------------------

/-- An uncorrectable word that is counted leaves the pans as they are. -/
theorem countUe_pans (s : State) : (countUe s).pans = s.pans := by
  unfold countUe
  dsimp only
  split
  · obtain ⟨_, _, _, h⟩ := suspect_frame 9 { s with rel := { s.rel with ue := s.time :: recent s (24 * hour) s.rel.ue } }
    rw [h]
  · rfl

theorem lidOf_eq_of_pans {s t : State} (h : t.pans = s.pans) (g : Nat) : lidOf t g = lidOf s g := by
  rw [lidOf, lidOf, getPan, getPan, h]

theorem fault_messages_are_recorded : Claims.FaultMessagesAreRecorded := by
  intro s t m g code sub rest hin hbody s1 ue
  rw [show exec .faultMessage s = execFaultMessage s from rfl, execFaultMessage, takeNorth_head hin (by rw [hbody])]
  dsimp only
  refine ⟨fun hfresh => ?_, fun hstale => congrArg Host.Outcome.next (if_neg (ne_true_of_eq_false hstale))⟩
  have hlid : lidOf (if ue then countUe s1 else s1) g = lidOf s g := lidOf_eq_of_pans (by
    split
    · exact countUe_pans s1
    · rfl) g
  refine congrArg Host.Outcome.next ((if_pos hfresh).trans ?_)
  rw [hbody, ← hlid]

end Sys2Proof.Machine

open Sys2Proof Sys2Proof.Machine

/-- Settles O20: a message by its generation, a failure by whether it is the first of its job and whether HOLD has stopped the wafer. That all but
the record of a first failure waits for the release (log 119) is the model's reading. -/
theorem faultsOfAJobAreRecorded : Obligations.FaultsOfAJobAreRecorded := ⟨fault_messages_are_recorded, the_first_fault_is_kept⟩
end

section
/-! What a debug command does, by its checks (20 R482, R496). -/

namespace Sys2Proof.Machine

open Sys2Proof.Claims

/-- An entry of the debug log leaves the partitions. -/
theorem logDebug_parts (opc status k : Nat) (g : Option Grant) (a0 a1 a2 wcrc : Nat) (s : State) :
    (logDebug opc status k g a0 a1 a2 wcrc s).parts = s.parts := by
  obtain ⟨lg, n, h⟩ := logDebug_frame opc status k g a0 a1 a2 wcrc s
  rw [h]

theorem stateField_logDebug (m : Bool) (j opc status k : Nat) (g : Option Grant) (a0 a1 a2 wcrc : Nat) (s : State) :
    stateField m j (logDebug opc status k g a0 a1 a2 wcrc s) = stateField m j s := by
  unfold stateField getPart
  rw [logDebug_parts]

section
variable {opc : Nat} {m : Bool} {c : Cmd} {wcrc : Nat} {checks : State → List (Bool × Nat)} {f : State → Reply} {s s1 s2 : State}

theorem runDbg_of_ok {res : List Nat} (htake : takeEntry c.qp s = some s1) (hc : firstCode (checks s1) = none) (hf : f s1 = .done stOK res s2) :
    runDbg opc m c wcrc checks f s = .next (debugged opc c m wcrc s1 res s2) := by
  simp [runDbg, htake, hc, hf, debugged, answered, stateField_logDebug]

theorem runDbg_of_later (htake : takeEntry c.qp s = some s1) (hc : firstCode (checks s1) = none) (hf : f s1 = .later s2) :
    runDbg opc m c wcrc checks f s = .next s2 := by
  simp [runDbg, htake, hc, hf]

theorem runDbg_of_refused {code : Nat} (htake : takeEntry c.qp s = some s1) (hc : firstCode (checks s1) = some code) (hcode : code ≠ stOK) :
    runDbg opc m c wcrc checks f s = .next (answered c m s1 code [] (logDebug opc code c.part (getQp s1 c.qp).grant (arg c 0) (arg c 1) (arg c 2) 0
      { s1 with host := { s1.host with refused := (opc, (c.part : Nat), code) :: s1.host.refused } })) := by
  simp [runDbg, htake, hc, hcode, answered, stateField_logDebug]

/-- A command that the debugger may give passes the checks that every debug command begins with. -/
theorem firstCode_dbgChecks {bad : Bool} {r : Right} {legal : List PSt} (hmay : mayDebug c s s1 r legal) (hbad : bad = false)
    (l : List (Bool × Nat)) : firstCode (dbgChecks c bad r legal s1 ++ l) = firstCode l := by
  obtain ⟨⟨-, hearly⟩, hD, hright, hatt, hst⟩ := hmay
  rw [dbgChecks, hbad, hD, hright, hearly, hatt, hst]
  rfl

end

end Sys2Proof.Machine
end

section
/-! O33: attaching and detaching, the end of a grant, DBG_RAKE and the debug log (16 R420; 17 R430; 20 R480, R489, R490, R494, R496, R497). -/

namespace Sys2Proof.Machine

open Sys2Proof.Claims

-- Attaching and detaching ----------------------------------------------------------------------------------------

/-- A partition that is detached has no debugger (20 R494). -/
theorem getPart_detach_dbg {k : Nat} {s : State} {d : Dbg} (resume : Bool) (hdbg : (getPart s k).dbg = some d) (hst : (getPart s k).st ≠ .none) :
    (getPart (detach k resume s) k).dbg = none := by
  obtain ⟨d', r, hstop⟩ := getPart_stopDbg k hst
  unfold detach
  rw [hdbg]
  dsimp -zeta only
  extract_lets s1 s2 s3 go s4
  have hparts : s4.parts = s1.parts := by
    show (if go then ((haltedCores s3 k).filter (fun g => !d.halts.contains g)).foldl resumeCore s3 else s3).parts = s3.parts
    split
    · obtain ⟨cs, h⟩ := resumeCores_frame ((haltedCores s3 k).filter (fun g => !d.halts.contains g)) s3
      rw [h]
    · rfl
  clear_value s4
  have hst4 : (getPart s4 k).st ≠ .none := by
    rw [getPart, hparts]
    exact (congrArg Part.st hstop :).trans_ne hst
  rw [getPart_modPart_of_st s4 k _ hst4]

theorem attachedAs_some {s : State} {c : Cmd} (h : attachedAs s c = true) : ∃ d, (getPart s c.part).dbg = some d := by
  unfold attachedAs at h
  split at h
  · next d hd => exact ⟨d, hd⟩
  · cases h

theorem debuggers_attach_and_detach : Claims.DebuggersAttachAndDetach := by
  intro s s1 c g k p t
  refine ⟨fun hgo hform hD hst hfree hgrant => ?_, fun hgo hform hD hatt hst => ⟨?_, ?_⟩, fun q hgrant => ?_⟩
  · rw [show exec (.debugAttach c) s = execDebugAttach c s from rfl, execDebugAttach]
    refine runDbg_of_ok hgo.1 ?_ ?_
    · rw [hform, hD, hgo.2, hst, show (getPart s1 c.part).dbg = none from hfree]
      rfl
    · rw [hgrant]
      rfl
  · rw [show exec (.debugDetach c) s = execDebugDetach c s from rfl, execDebugDetach]
    refine runDbg_of_ok hgo.1 ?_ rfl
    rw [hform, hD, hgo.2, hatt]
    rfl
  · obtain ⟨d, hd⟩ := attachedAs_some hatt
    exact getPart_detach_dbg _ hd hst
  · rw [show exec (.debugGrantExpiry q) s = execDebugGrantExpiry q s from rfl, execDebugGrantExpiry, hgrant]
    exact ⟨fun hpast => congrArg Host.Outcome.next (if_neg (ne_true_of_eq_false hpast)), fun hahead => congrArg Host.Outcome.next (if_pos hahead)⟩

-- The rake -------------------------------------------------------------------------------------------------------

section
variable {s s1 : State} {c : Cmd} {g dir : Nat} (halign : argFld c 1 0 17 % 32 = 0) (hn : argFld c 2 0 17 % 32 = 0) (hnz : argFld c 2 0 17 ≠ 0)
  (himage : imageCore s1 c.part (argFld c 0 0 20) = some g) (hbuf : argFld c 2 0 17 ≤ c.bufLen.toNat)
  (hform : badForm c false false true [0xFFFFF, 0x1FFFF, 0x1FFFF, dir] = false)
  (hend : dir = 1 ∧ argFld c 1 0 17 + argFld c 2 0 17 ≤ imageLen ∨ dir ≠ 1 ∧ argFld c 1 0 17 + argFld c 2 0 17 ≤ imageLen + 256)
include halign hn hnz himage hbuf hform hend

/-- The checks of a DBG_RAKE on a core of the partition leave the core's state and whether its pan is dark. -/
theorem firstCode_rakeChecks (hmay : mayDebug c s s1 (if dir = 1 then .write else .read) attachedSt) :
    firstCode (rakeChecks dir c s1) = firstCode [(!(!panLive s1 (panOf g)) && (!([CoreSt.halt, .fault, .clear].contains (getCore s1 g).r.st) ||
      (decide (dir = 1) && decide ((getCore s1 g).r.st = .clear))), stState), (!panLive s1 (panOf g), stPanDark)] := by
  have hrange : decide ((if dir = 1 then imageLen else imageLen + 256) < argFld c 1 0 17 + argFld c 2 0 17) = false :=
    decide_eq_false (by
      rcases hend with ⟨hdir, hend⟩ | ⟨hdir, hend⟩
      · rw [if_pos hdir]; exact Nat.not_lt.mpr hend
      · rw [if_neg hdir]; exact Nat.not_lt.mpr hend)
  rw [rakeChecks, firstCode_dbgChecks hmay (by rw [hform, halign, hn, decide_eq_false hnz]; rfl), himage, hrange,
    decide_eq_false (Nat.not_lt.mpr hbuf)]
  rfl

/-- A core of a dark pan is in no state to be raked (17 R430). -/
theorem rakeChecks_of_dark (hmay : mayDebug c s s1 (if dir = 1 then .write else .read) attachedSt) (hdark : panLive s1 (panOf g) = false) :
    firstCode (rakeChecks dir c s1) = some stPanDark := by
  rw [firstCode_rakeChecks halign hn hnz himage hbuf hform hend hmay, hdark]
  rfl

/-- A core in a state that may be raked passes. -/
theorem rakeChecks_of_stopped (hmay : mayDebug c s s1 (if dir = 1 then .write else .read) attachedSt) (hlive : panLive s1 (panOf g) = true)
    (hst : [CoreSt.halt, .fault, .clear].contains (getCore s1 g).r.st = true) (hwrite : dir = 1 → (getCore s1 g).r.st ≠ .clear) :
    firstCode (rakeChecks dir c s1) = none := by
  have hclear : (decide (dir = 1) && decide ((getCore s1 g).r.st = .clear)) = false := by
    rw [Bool.and_eq_false_imp, decide_eq_true_eq, decide_eq_false_iff_not]
    exact hwrite
  rw [firstCode_rakeChecks halign hn hnz himage hbuf hform hend hmay, hlive, hst, hclear]
  rfl

end

/-- A core in HALT or FAULT may also be read, and is not in CLEAR. -/
theorem stopped_not_clear {x : CoreSt} (h : [CoreSt.halt, .fault].contains x = true) :
    [CoreSt.halt, .fault, .clear].contains x = true ∧ x ≠ .clear := by
  revert h
  cases x <;> decide

theorem exec_dbgRakeRead {c : Cmd} (s : State) (h : argFld c 3 0 1 = 0) : exec (.dbgRakeRead c) s =
    runDbg 0x3D false c 0 (rakeChecks 0 c) (fun s =>
      let g := coreOf s c.part (argFld c 0 0 20)
      let bs := debugView s g (argFld c 1 0 17) (argFld c 2 0 17)
      let s1 := setCore s g (rakeCount true (argFld c 1 0 17) bs.length (getCore s g))
      .done stOK [bs.length] { s1 with host := { s1.host with out := s1.host.out ++ [⟨c.bufAddr.toNat, bs⟩] } }) s :=
  if_neg (by rw [h]; decide)

theorem exec_dbgRakeWrite {c : Cmd} (s : State) (h : argFld c 3 0 1 = 1) : exec (.dbgRakeWrite c) s =
    runDbg 0x3D false c (crc32c (rakeBytes c)).toNat (rakeChecks 1 c) (fun s =>
      let g := coreOf s c.part (argFld c 0 0 20)
      let bs := rakeBytes c
      .done stOK [bs.length] (setCore s g (rakeMark (envOf s g).now (argFld c 1 0 17) bs.length
        (if argFld c 1 0 17 = 0 ∧ bs.length = imageLen then restoreImage bs (getCore s g) else imageWrite (argFld c 1 0 17) bs (getCore s g))))) s :=
  if_neg (by rw [h]; decide)

theorem the_rake_and_the_log : Claims.TheRakeAndTheLog := by
  intro s s1 c g off n x bs lost
  refine ⟨fun halign hn hnz himage hbuf => ⟨fun hdark j hj hdir hform hmay hend => ?_, fun hdir hform hmay hlive hst hend => ?_,
    fun hdir hform hmay hlive hst hend => ?_⟩, ?_⟩
  · have hread : (0 : Nat) ≠ 1 ∧ off + n ≤ imageLen + 256 := ⟨by decide, Nat.le_trans hend (Nat.le_add_right _ _)⟩
    simp only [List.mem_cons, List.not_mem_nil, or_false] at hj
    rcases hj with rfl | rfl
    · rw [exec_dbgRakeRead s hdir]
      exact runDbg_of_refused hmay.1.1 (rakeChecks_of_dark halign hn hnz himage hbuf hform (.inr hread) hmay hdark) (by decide)
    · rw [exec_dbgRakeWrite s hdir]
      exact runDbg_of_refused hmay.1.1 (rakeChecks_of_dark halign hn hnz himage hbuf hform (.inl ⟨rfl, hend⟩) hmay hdark) (by decide)
  · rw [exec_dbgRakeRead s hdir]
    refine runDbg_of_ok hmay.1.1 (rakeChecks_of_stopped halign hn hnz himage hbuf hform (.inr ⟨by decide, hend⟩) hmay hlive hst (fun h => by cases h)) ?_
    dsimp only
    rw [coreOf_of_image himage]
    rfl
  · obtain ⟨hst', hclear⟩ := stopped_not_clear hst
    have hlen : bs.length = n := length_padTo n (bufOf c)
    rw [exec_dbgRakeWrite s hdir]
    refine runDbg_of_ok hmay.1.1 (rakeChecks_of_stopped halign hn hnz himage hbuf hform (.inl ⟨rfl, hend⟩) hmay hlive hst' (fun _ => hclear)) ?_
    dsimp only
    rw [coreOf_of_image himage, show (rakeBytes c).length = n from hlen]
  · intro q w mine hgo hform hrole hw hbuf hfit
    have hown : [1, 2].contains (getQp s1 c.qp).role = true := by
      rcases hrole with h | h <;> rw [show (getQp s1 c.qp).role = _ from h] <;> rfl
    have htake : mine.take w = mine := List.take_of_length_le hfit
    rw [show exec (.dbgLogRead c) s = execDbgLogRead c s from rfl]
    dsimp only [execDbgLogRead]
    refine runDbg_of_ok hgo.1 ?_ ?_
    · rw [hform, hown, hgo.2, decide_eq_false hw, decide_eq_false (Nat.not_lt.mpr hbuf)]
      rfl
    · rw [if_pos hfit]
      exact congrArg (fun l : List LogEntry => Reply.done stOK [l.length, s1.logSeq % 2 ^ 32, s1.logSeq / 2 ^ 32]
        { s1 with host := { s1.host with out := s1.host.out ++ [⟨c.bufAddr.toNat, l.flatMap logBytes⟩] } }) htake

end Sys2Proof.Machine

open Sys2Proof Sys2Proof.Machine

/-- Settles O33: an attachment by its checks, a detach by what it leaves, a rake access by the core's state and its pan, a read of the log by what
fits. That an attach with HALT completes at once (log 68), that DBG_RAKE keeps to its own list of states (log 69) and that the accesses of the
rake are counted (log 100) are the model's readings. -/
theorem debuggersAttachAndRead : Obligations.DebuggersAttachAndRead := ⟨debuggers_attach_and_detach, the_rake_and_the_log⟩
end

section
/-! O34: DBG_HALT and its timeout, DBG_RUN and its counts, and the breakpoints of the rake stations (20 R483, R484, R486 to R488). -/

namespace Sys2Proof.Machine

open Sys2Proof.Claims

-- Halting --------------------------------------------------------------------------------------------------------

theorem selected {s : State} {c : Cmd} {l : List Nat} (h : selCores s c = some l) : (selCores s c).getD [] = l := by rw [h]; rfl

theorem debug_halts : Claims.DebugHalts := by
  intro s s1 c l k gs
  refine ⟨fun hmay hform hscope hsel => ?_, fun d x hdbg hcmds hopc hat hdone => ?_⟩
  · have hcode : firstCode (dbgChecks c (badForm c false false false [3, 0xFFFFF, all32] || badScope c) .read [.running, .held] s1 ++
        [((selCores s1 c).isNone, stBounds)]) = none := by
      rw [firstCode_dbgChecks hmay (by rw [hform, hscope]; rfl), hsel]
      rfl
    have hgs : ((selCores s1 c).getD []).filter (fun g => [CoreSt.run, .hold].contains (getCore s1 g).r.st) = gs := by rw [selected hsel]
    rw [show exec (.dbgHalt c) s = execDbgHalt c s from rfl, execDbgHalt]
    refine ⟨fun hnone => runDbg_of_ok hmay.1.1 hcode ?_, fun hsome => runDbg_of_later hmay.1.1 hcode ?_⟩
    · dsimp only
      rw [hgs, hnone]
      rfl
    · dsimp only
      rw [hgs, if_neg (by rw [List.isEmpty_iff]; exact hsome)]
  · have hfilter : d.cmds.filter (fun x => decide (x.opc = 0x3A) && decide (x.at_ ≤ north s)) = [x] := by
      rw [hcmds, List.filter_cons_of_pos (by rw [decide_eq_true hopc, decide_eq_true hat]; rfl), List.filter_nil]
    rw [show exec (.dbgHaltTimeout c.part) s = execDbgHaltTimeout c.part s from rfl, execDbgHaltTimeout,
      show (getPart s c.part).dbg = some d from hdbg]
    dsimp only
    rw [hfilter, List.foldl_cons, List.foldl_nil, hdone]
    rfl

-- Running --------------------------------------------------------------------------------------------------------

/-- Giving stations their resume count touches the stations alone, and each that is named has it. -/
def armStations (gs : List Nat) (t : Count) (s : State) : State :=
  gs.foldl (fun s g => setStation s (stationOf g) { getStation s (stationOf g) with runTc := some t }) s

theorem armStations_frame (gs : List Nat) (t : Count) (s : State) : ∃ st, armStations gs t s = { s with stations := st } :=
  List.foldlRecOn (motive := fun u : State => ∃ st, u = { s with stations := st }) gs _ ⟨_, rfl⟩ fun u ⟨_, hu⟩ g _ => by
    rw [hu]
    exact ⟨_, rfl⟩

theorem getStation_setStation_of_runTc (s : State) (i : Nat) {x : Station} {t : Count} (h : x.runTc = some t) :
    getStation (setStation s i x) i = x :=
  tget_tset_of_ne Station.zero s.stations i x fun hz => by cases h.symm.trans (congrArg Station.runTc hz)

theorem getStation_armStations {gs : List Nat} {t : Count} {s : State} {x : Nat} (hx : x ∈ gs) :
    (getStation (armStations gs t s) (stationOf x)).runTc = some t := by
  have hset : ∀ u g, stationOf g = stationOf x →
      (getStation (setStation u (stationOf g) { getStation u (stationOf g) with runTc := some t }) (stationOf x)).runTc = some t := fun u g hg => by
    rw [hg]
    exact congrArg Station.runTc (getStation_setStation_of_runTc u (stationOf x) (x := { getStation u (stationOf x) with runTc := some t }) rfl)
  refine foldl_of_mem (I := fun _ => True) (P := fun u : State => (getStation u (stationOf x)).runTc = some t) hx trivial (fun _ _ _ _ => trivial)
    (fun u _ => hset u x rfl) fun u g _ hu => ?_
  by_cases hg : stationOf g = stationOf x
  · exact hset u g hg
  · rw [getStation_setStation_of_ne _ _ _ _ (Ne.symm hg)]
    exact hu

/-- The cores that resume are those in HALT. -/
theorem resumeAll_fst {gs : List Nat} {s : State} (h : ∀ g ∈ gs, (getCore s g).r.st = .halt) : (resumeAll gs s).1 = gs :=
  List.filter_eq_self.mpr fun g hg => decide_eq_true (h g hg)

/-- The checks of DBG_RUN on a selection that names cores. -/
theorem firstCode_dbgRun {s s1 : State} {c : Cmd} {l : List Nat} (hmay : mayDebug c s s1 .read [.running, .held])
    (hform : badForm c false true false [3, 0xFFFFF, all32] = false) (hscope : badScope c = false) (hsel : selCores s1 c = some l)
    (htc : c.tc = 0 ∨ isAhead s1 c.tc = true ∧ 8192 ≤ aheadBy s1 c.tc ∧ aheadBy s1 c.tc ≤ 2 ^ 32) :
    firstCode (dbgChecks c (badForm c false true false [3, 0xFFFFF, all32] || badScope c) .read [.running, .held] s1 ++
      [((selCores s1 c).isNone ||
        (decide (c.tc ≠ 0) && (!isAhead s1 c.tc || decide (aheadBy s1 c.tc < 8192) || decide (2 ^ 32 < aheadBy s1 c.tc))), stBounds)]) = none := by
  rw [firstCode_dbgChecks hmay (by rw [hform, hscope]; rfl), hsel]
  rcases htc with h | ⟨hahead, hlo, hhi⟩
  · rw [decide_eq_false (not_not.mpr h)]
    rfl
  · rw [hahead, decide_eq_false (Nat.not_lt.mpr hlo), decide_eq_false (Nat.not_lt.mpr hhi), Bool.not_true, Bool.or_false, Bool.or_false,
      Bool.and_false]
    rfl

section
variable {s s1 : State} {c : Cmd} {l : List Nat} (hmay : mayDebug c s s1 .read [.running, .held])
  (hform : badForm c false true false [3, 0xFFFFF, all32] = false) (hscope : badScope c = false) (hsel : selCores s1 c = some l)
include hmay hform hscope hsel

/-- DBG_RUN without a count (20 R488; log 128). -/
theorem exec_dbgRun_of_no_count (htc : c.tc = 0) :
    let gs := l.filter (fun g => decide ((getCore s1 g).r.st = .halt))
    exec (.dbgRun c) s = .next (debugged 0x3B c false 0 s1 [gs.length] (if arg c 2 = 0 then (resumeAll gs s1).2
      else modPart (resumeAll gs s1).2 c.part (fun p => { p with runs := p.runs ++ [⟨north s1, [], arg c 2, gs⟩] }))) := by
  intro gs
  have hgs : ∀ g ∈ gs, (getCore s1 g).r.st = .halt := fun g hg => of_decide_eq_true (List.mem_filter.mp hg).2
  rw [show exec (.dbgRun c) s = execDbgRun c s from rfl, execDbgRun]
  refine runDbg_of_ok hmay.1.1 (firstCode_dbgRun hmay hform hscope hsel (.inl htc)) ?_
  dsimp only
  rw [if_pos htc, selected hsel, resumeAll_fst hgs]

/-- DBG_RUN with a count (20 R488). -/
theorem exec_dbgRun_of_count (htc : c.tc ≠ 0) (hahead : isAhead s1 c.tc = true) (hlo : 8192 ≤ aheadBy s1 c.tc) (hhi : aheadBy s1 c.tc ≤ 2 ^ 32) :
    let gs := l.filter (fun g => decide ((getCore s1 g).r.st = .halt))
    exec (.dbgRun c) s = .next (modDbg c.part (fun d => { d with cmds := d.cmds ++ [dbgCmd 0x3B c (stepOf s1 c.tc) gs s1] })
      (modPart (armStations gs c.tc s1) c.part (fun p => { p with runs := p.runs ++ [⟨stepOf s1 c.tc, gs, arg c 2, []⟩] }))) := by
  intro gs
  rw [show exec (.dbgRun c) s = execDbgRun c s from rfl, execDbgRun]
  refine runDbg_of_later hmay.1.1 (firstCode_dbgRun hmay hform hscope hsel (.inr ⟨hahead, hlo, hhi⟩)) ?_
  dsimp only
  rw [if_neg htc, selected hsel]
  rfl

end

theorem st_ne_of_inSt {s : State} {c : Cmd} {l : List PSt} (h : inSt s c l = true) (hl : PSt.none ∉ l) : (getPart s c.part).st ≠ .none := fun hst => by
  rw [inSt, hst, List.contains_iff_mem] at h
  exact hl h

/-- A core in HALT that nothing holds resumes into RUN. -/
theorem getCore_resumeCore {s : State} {g : Nat} (hfree : s.tide.frozen = false) (hheld : partHeld s g = false) (hst : (getCore s g).r.st = .halt)
    (hbp : badPointer (getCore s g) = none) : (getCore (resumeCore s g) g).r.st = .run := by
  obtain ⟨hrun, -, -⟩ := enterRun_of_valid (envOf s g) false
    (c := { getCore s g with wcount := if (getCore s g).x.stalled then 0 else (getCore s g).wcount }) hbp
  unfold resumeCore
  dsimp only
  rw [if_neg (not_not.mpr hst), hfree, hheld, Bool.or_self, Bool.false_and, if_neg Bool.false_ne_true, getCore, setCore_cores,
    tget_tset_of_ne _ _ _ _ fun hz => by cases hrun.symm.trans (congrArg (fun c : Core => c.r.st) hz)]
  exact hrun

/-- Resuming a core touches that core alone. -/
theorem resumeCore_eq (s : State) (g : Nat) : ∃ x, resumeCore s g = setCore s g x ∨ resumeCore s g = s := by
  unfold resumeCore
  dsimp only
  split
  · exact ⟨Core.zero, .inr rfl⟩
  · exact ⟨_, .inl rfl⟩

/-- An armed run of one core, in HALT, whose pan has come to its count: the core resumes and is no longer waited for (20 R488). -/
theorem runDue_of_due {s : State} {k g : Nat} {a : RunArm} (hcores : a.cores = [g]) (hat : a.at_ ≤ (getNode s (panOf g)).steps)
    (hst : (getCore s g).r.st = .halt) : runDue k a s = modPart
      (setStation (resumeCore s g) (stationOf g) (pastRun (getNode s (panOf g)).steps (getStation s (stationOf g)))) k
      (fun p => { p with runs := p.runs.map (fun b => if b = a then { a with cores := [], gone := a.gone ++ [g] } else b) }) := by
  have hdue : a.cores.filter (fun g => decide (a.at_ ≤ (getNode s (panOf g)).steps)) = [g] := by
    rw [hcores]
    exact List.filter_cons_of_pos (decide_eq_true hat)
  have hleft : a.cores.filter (fun h => !([g].contains h)) = [] := by simp [hcores]
  have hon : [g].filter (fun g => decide ((getCore s g).r.st = .halt)) = [g] := List.filter_cons_of_pos (decide_eq_true hst)
  unfold runDue resumeAll
  dsimp only
  rw [hdue, hleft, hon]
  rfl

/-- DBG_RESUME_COUNT of a partition with one armed run and no command in progress (20 R488). -/
theorem exec_dbgResumeCount_of_one {s : State} {k : Fin 32} {a : RunArm} {d : Dbg} (hruns : (getPart s k).runs = [a]) (hcores : a.cores ≠ [])
    (hdbg : (getPart (runDue k a s) k).dbg = some d) (hcmds : d.cmds = []) (hfree : s.tide.frozen = false) :
    exec (.dbgResumeCount k) s = .next (runDue k a s) := by
  have hfold : (getPart s k).runs.foldl (fun s a => if a.cores.isEmpty then s else runDue k a s) s = runDue k a s := by
    rw [hruns, List.foldl_cons, List.foldl_nil, if_neg (by rw [List.isEmpty_iff]; exact hcores)]
  rw [show exec (.dbgResumeCount k) s = execDbgResumeCount k s from rfl, execDbgResumeCount, hfree, if_neg Bool.false_ne_true]
  dsimp only
  rw [hfold, hdbg]
  dsimp only
  rw [hcmds]
  rfl

/-- A partition with a debugger reads back as written, in whatever order the table lists its keys. -/
theorem getPart_setPart_of_dbg (s : State) (k : Nat) {v : Part} {d : Dbg} (h : v.dbg = some d) : getPart (setPart s k v) k = v :=
  tget_tset_of_ne Part.zero s.parts k v fun hz => by cases h.symm.trans (congrArg Part.dbg hz)

theorem getStation_pastRun (s : State) (i n : Nat) (hwf : twf Station.zero s.stations = true) :
    (getStation (setStation s i (pastRun n (getStation s i))) i).runTc = none := by
  rw [getStation_setStation s i _ hwf]
  rfl

theorem a_resume_count_is_reached {s : State} {c : Cmd} {g : Nat} {a : RunArm} {d : Dbg} (hruns : (getPart s c.part).runs = [a]) (hcores : a.cores = [g])
    (hdbg : (getPart s c.part).dbg = some d) (hcmds : d.cmds = []) (hfree : s.tide.frozen = false) (hwf : twf Station.zero s.stations = true)
    (hheld : partHeld s g = false) (hat : a.at_ ≤ (getNode s (panOf g)).steps) (hst : (getCore s g).r.st = .halt)
    (hbp : badPointer (getCore s g) = none) :
    ∃ t, exec (.dbgResumeCount c.part) s = .next t ∧ (getCore t g).r.st = .run ∧ (getStation t (stationOf g)).runTc = none ∧
      (getPart t c.part).runs = [{ a with cores := [], gone := a.gone ++ [g] }] ∧ ∀ h, h ≠ g → getCore t h = getCore s h := by
  obtain ⟨x, hx⟩ := resumeCore_eq s g
  have hsame : (resumeCore s g).stations = s.stations ∧ (resumeCore s g).parts = s.parts ∧ ∀ h, h ≠ g → getCore (resumeCore s g) h = getCore s h := by
    rcases hx with hx | hx
    · rw [hx]
      exact ⟨rfl, rfl, fun h hh => getCore_setCore_of_ne s g h x hh⟩
    · rw [hx]
      exact ⟨rfl, rfl, fun _ _ => rfl⟩
  obtain ⟨hstations, hparts, hothers⟩ := hsame
  have hdue := runDue_of_due (k := c.part) hcores hat hst
  have hpart : getPart (runDue c.part a s) c.part = { getPart s c.part with runs := [{ a with cores := [], gone := a.gone ++ [g] }] } := by
    have hread : getPart (setStation (resumeCore s g) (stationOf g) (pastRun (getNode s (panOf g)).steps (getStation s (stationOf g)))) c.part =
        getPart s c.part := congrArg (fun ps => tget Part.zero ps c.part) hparts
    have hmap : (getPart s c.part).runs.map (fun b => if b = a then { a with cores := [], gone := a.gone ++ [g] } else b) =
        [{ a with cores := [], gone := a.gone ++ [g] }] := by rw [hruns, List.map_cons, List.map_nil, if_pos rfl]
    rw [hdue, modPart, hread, ← hmap]
    exact getPart_setPart_of_dbg _ _ (by exact hdbg)
  refine ⟨_, exec_dbgResumeCount_of_one hruns (by rw [hcores]; exact List.cons_ne_nil _ _) ((congrArg Part.dbg hpart :).trans hdbg) hcmds hfree,
    ?_, ?_, congrArg Part.runs hpart, ?_⟩
  · rw [hdue]
    exact getCore_resumeCore hfree hheld hst hbp
  · have hrun := getStation_pastRun (resumeCore s g) (stationOf g) (getNode s (panOf g)).steps (by rw [hstations]; exact hwf)
    rw [show getStation (resumeCore s g) (stationOf g) = getStation s (stationOf g) from
      congrArg (fun st => tget Station.zero st (stationOf g)) hstations] at hrun
    rw [hdue]
    exact hrun
  · rw [hdue]
    exact hothers

/-- The halt count of a station, reached by a core in RUN (20 R487). -/
theorem a_halt_count_is_reached {s : State} {k g : Nat} {T : Count} (hg : g < numCores) (hfree : s.tide.frozen = false)
    (hpan : (getPan s (panOf g)).part = some k) (hdbg : (getPart s k).dbg.isSome = true) (hruns : (getPart s k).runs = [])
    (hmask : (getStation s (stationOf g)).mask.getLsbD (posOf g) = true) (hT : (getStation s (stationOf g)).haltTc = some T)
    (hreach : atOrBefore T (getNode s (panOf g)).steps = true) (hst : (getCore s g).r.st = .run) (hphase : (getCore s g).x.phase3 = none) :
    ∃ t, exec (.haltCountReached g) s = .next t ∧ getPart t k = getPart s k ∧
      getCore t g = { getCore s g with x := { (getCore s g).x with haltReq := true, fetch := .stopped } } ∧
      ∀ h, h ≠ g → getCore t h = getCore s h := by
  obtain ⟨d, hd⟩ := Option.isSome_iff_exists.mp hdbg
  have hrun : exec (.haltCountReached g) s = .next (setPart
      (setCore s g { getCore s g with x := { (getCore s g).x with haltReq := true, fetch := .stopped } }) k { getPart s k with runs := [] }) := by
    rw [show exec (.haltCountReached g) s = execHaltCountReached g s from rfl, execHaltCountReached, if_neg (Nat.not_le.mpr hg)]
    dsimp only
    rw [hpan, Option.getD_some, hmask, hT, hfree, hd, hst, requestHalt_of_idle hst hphase]
    dsimp only
    simp only [hreach, modPart, show getPart (setCore s g _) k = getPart s k from rfl, hruns, Option.isNone_some, Bool.true_or,
      Bool.and_true, Bool.not_true, decide_true, Bool.or_false, Bool.false_eq_true, if_false, List.map_nil, List.filter_nil]
    rw [← hd]
  have hpart : { getPart s k with runs := [] } = getPart s k := by rw [← hruns]
  rw [hpart] at hrun
  refine ⟨_, hrun, getPart_setPart_of_dbg _ k hd, ?_,
    fun h hh => getCore_setCore_of_ne s g h _ hh⟩
  exact tget_tset_of_ne Core.zero s.cores g _ fun hz => by cases congrArg (fun c : Core => c.x.haltReq) hz

theorem debug_runs : Claims.DebugRuns := by
  intro s s1 c l g k gs
  refine ⟨fun hmay hform hscope hsel => ⟨fun htc hsteps => ?_, fun htc hsteps => ?_, fun htc hahead hlo hhi => ?_⟩,
    fun a d hruns hcores hdbg hcmds hfree hwf hheld hat hst hbp => ?_, fun T => a_halt_count_is_reached⟩
  · rw [exec_dbgRun_of_no_count hmay hform hscope hsel htc, if_pos hsteps]
  · rw [exec_dbgRun_of_no_count hmay hform hscope hsel htc, if_neg hsteps]
  · obtain ⟨st, harm⟩ := armStations_frame gs c.tc s1
    have hpart : getPart (armStations gs c.tc s1) k = getPart s1 k := by rw [harm]; rfl
    have hne := st_ne_of_inSt hmay.2.2.2.2 (by decide)
    have hrun := getPart_modPart_of_st (armStations gs c.tc s1) k (fun p => { p with runs := p.runs ++ [⟨stepOf s1 c.tc, gs, arg c 2, []⟩] })
      (by rw [hpart]; exact hne)
    have hcmd := getPart_modPart_of_st
      (modPart (armStations gs c.tc s1) k (fun p => { p with runs := p.runs ++ [⟨stepOf s1 c.tc, gs, arg c 2, []⟩] })) k
      (fun p => { p with dbg := p.dbg.map (fun d => { d with cmds := d.cmds ++ [dbgCmd 0x3B c (stepOf s1 c.tc) gs s1] }) })
      (by rw [hrun, hpart]; exact hne)
    rw [hrun, hpart] at hcmd
    refine ⟨_, exec_dbgRun_of_count hmay hform hscope hsel htc hahead hlo hhi, ?_, (congrArg Part.runs hcmd :), fun x hx => getStation_armStations hx⟩
    show (armStations gs c.tc s1).cores = s1.cores
    rw [harm]
  · exact a_resume_count_is_reached hruns hcores hdbg hcmds hfree hwf hheld hat hst hbp

-- Breakpoints ----------------------------------------------------------------------------------------------------

/-- With one core selected its station alone is named, with the core's own position. -/
theorem stationMasks_singleton (g : Nat) : stationMasks [g] = [(stationOf g, BitVec.ofNat 64 (2 ^ posOf g))] := by
  simp [stationMasks]

/-- DBG_BREAK of its own operation, on legal operands (20 R486). -/
theorem dbgBreak_of_pass {op m2 m3 : Nat} {c : Cmd} {tc bad : Bool} {beyond : State → Bool} {f : Station → BitVec 64 → Station} {s s1 : State}
    {l : List Nat} (hop : argFld c 2 0 2 = op) (hmay : mayDebug c s s1 .read [.ready, .running, .held])
    (hform : badForm c false tc false [3, 0xFFFFF, m2, m3] = false) (hscope : badScope c = false) (hsel : selCores s1 c = some l)
    (hbad : bad = false) (hbeyond : beyond s1 = false) :
    dbgBreak op c tc m2 m3 bad beyond f s = .next (debugged 0x3C c false 0 s1 [] (atStations c f s1)) := by
  refine (if_neg (not_not.mpr hop)).trans (runDbg_of_ok hmay.1.1 ?_ rfl)
  rw [firstCode_dbgChecks hmay (by rw [hform, hscope, hbad]; rfl), hsel, hbeyond]
  rfl

theorem breakpoints_are_set_at_the_stations : Claims.BreakpointsAreSetAtTheStations := by
  intro s s1 c i op m2 m3 tc f l hrow hop hmay hform hscope hsel haddr hcount
  refine ⟨?_, fun g hl => ?_⟩
  · simp only [breakOp, List.mem_cons, List.not_mem_nil, or_false, Prod.mk.injEq] at hrow
    rcases hrow with ⟨rfl, rfl, rfl, rfl, rfl, rfl⟩ | ⟨rfl, rfl, rfl, rfl, rfl, rfl⟩ | ⟨rfl, rfl, rfl, rfl, rfl, rfl⟩ | ⟨rfl, rfl, rfl, rfl, rfl, rfl⟩
    · exact dbgBreak_of_pass hop hmay hform hscope hsel (decide_eq_false (not_not.mpr (haddr rfl))) rfl
    · exact dbgBreak_of_pass hop hmay hform hscope hsel rfl rfl
    · exact dbgBreak_of_pass hop hmay hform hscope hsel rfl (by rw [hcount rfl]; rfl)
    · exact dbgBreak_of_pass hop hmay hform hscope hsel rfl rfl
  · rw [atStations, hsel, hl, Option.getD_some, stationMasks_singleton]
    rfl

end Sys2Proof.Machine

open Sys2Proof Sys2Proof.Machine

/-- Settles O34: a command by its checks, a timeout and a resume count by what they are waited for, a breakpoint by its operation. That the
comparators stand at the rake stations, with a mask that gathers their positions (log 29), when halts are seen done (log 68) and that a run without
a count takes the north rim's (log 128) are the model's readings. -/
theorem debuggersHaltAndRun : Obligations.DebuggersHaltAndRun := ⟨debug_halts, debug_runs, breakpoints_are_set_at_the_stations⟩
end

section
/-! O35: DBG_SYNC on cores and on the module's objects, and the resets of cores (15 R388; 20 R491 to R493). -/

namespace Sys2Proof.Machine

open Sys2Proof.Claims

-- Manual release -------------------------------------------------------------------------------------------------

section
variable {kind mask1 mask2 : Nat} {c : Cmd} {legal : List PSt} {need undeclared : State → Bool} {f : State → Reply} {s s1 : State}
  (hkind : argFld c 0 0 4 = kind) (hmay : mayDebug c s s1 .sync legal) (hform : badForm c false false false [15, mask1, mask2] = false)
  (hneed : need s1 = true) (hdecl : undeclared s1 = false)
include hkind hmay hform hneed hdecl

/-- The checks of a DBG_SYNC of its own kind, on an object that is there. -/
theorem firstCode_dbgSync : firstCode (dbgChecks c (badForm c false false false [15, mask1, mask2] || decide (argFld c 0 0 4 ≠ kind)) .sync legal s1 ++
    [(!need s1 && !undeclared s1, stState), (undeclared s1, stBounds)]) = none := by
  rw [firstCode_dbgChecks hmay (by rw [hform, decide_eq_false (not_not.mpr hkind)]; rfl), hneed, hdecl]
  rfl

theorem dbgSync_of_done {s2 : State} (hf : f s1 = .done stOK [] s2) :
    dbgSync kind c mask1 mask2 legal need undeclared f s = .next (debugged 0x3E c false 0 s1 [] s2) :=
  (if_neg fun h => h.1 hkind).trans (runDbg_of_ok hmay.1.1 (firstCode_dbgSync hkind hmay hform hneed hdecl) hf)

theorem dbgSync_of_later {s2 : State} (hf : f s1 = .later s2) : dbgSync kind c mask1 mask2 legal need undeclared f s = .next s2 :=
  (if_neg fun h => h.1 hkind).trans (runDbg_of_later hmay.1.1 (firstCode_dbgSync hkind hmay hform hneed hdecl) hf)

end

section
variable {s : State} {c : Cmd} {g : Nat} (himage : imageCore s c.part (argFld c 1 0 20) = some g)
include himage

theorem coreIn_of_image (l : List CoreSt) : coreIn c l s = l.contains (getCore s g).r.st := by rw [coreIn, syncCore, himage]

theorem syncCore_declared : (syncCore s c).isNone = false := by rw [syncCore, himage]; rfl

theorem syncSend_of_image (b : MsgBody) :
    syncSend c b s = .later (modDbg c.part (fun d => { d with cmds := d.cmds ++ [dbgCmd 0x3E c 0 [g] s] }) (sendCore s c.part g b)) := by
  rw [syncSend, syncCore, himage]

theorem syncWrite_of_image (producer : Bool) :
    let ch : Fin 16 := Fin.ofNat 16 (argFld c 2 0 4)
    let v : BitVec 16 := BitVec.ofNat 16 (argFld c 2 16 16)
    let x := getCore s g
    syncWrite c producer s = .done stOK [] (setCore s g { x with ch := x.ch.set ch (if producer then (v, x.ch[ch].2) else (x.ch[ch].1, v)) }) := by
  rw [syncWrite, syncCore, himage]
  rfl

/-- At a stopped core the rake writes the flag (20 R492). -/
theorem syncFlag_of_stopped (v : Bool) (hst : [CoreSt.halt, .fault].contains (getCore s g).r.st = true) :
    syncFlag c v s = .done stOK [] (setCore s g { getCore s g with flags := setBit (getCore s g).flags (Fin.ofNat 64 (argFld c 2 0 6)) v }) := by
  rw [syncFlag, coreIn_of_image himage, hst, syncCore, himage]
  rfl

/-- At any other core a message writes it (20 R492). -/
theorem syncFlag_of_running (v : Bool) (hst : ¬[CoreSt.halt, .fault].contains (getCore s g).r.st = true) :
    syncFlag c v s = syncSend c (if v then .flagSet (Fin.ofNat 64 (argFld c 2 0 6)) else .flagClr (Fin.ofNat 64 (argFld c 2 0 6))) s := by
  rw [syncFlag, coreIn_of_image himage, Bool.eq_false_of_not_eq_true hst]
  rfl

end

/-- DBG_SYNC with KIND 1 or 2 on an image core. -/
theorem dbgSync_flag {kind : Nat} {c : Cmd} {s s1 : State} {g : Nat} (v : Bool) (himage : imageCore s1 c.part (argFld c 1 0 20) = some g)
    (hkind : argFld c 0 0 4 = kind) (hmay : mayDebug c s s1 .sync [.running, .held]) (hform : badForm c false false false [15, 0xFFFFF, 0x3F] = false) :
    let f : Fin 64 := Fin.ofNat 64 (argFld c 2 0 6)
    dbgSync kind c 0xFFFFF 0x3F [.running, .held] (fun _ => true) (fun s => (syncCore s c).isNone) (syncFlag c v) s = .next (
      if [CoreSt.halt, .fault].contains (getCore s1 g).r.st then
        debugged 0x3E c false 0 s1 [] (setCore s1 g { getCore s1 g with flags := setBit (getCore s1 g).flags f v })
      else modDbg c.part (fun d => { d with cmds := d.cmds ++ [dbgCmd 0x3E c 0 [g] s1] })
        (sendCore s1 c.part g (if v then .flagSet f else .flagClr f))) := by
  intro f
  split
  · next hst => exact dbgSync_of_done hkind hmay hform rfl (syncCore_declared himage) (syncFlag_of_stopped himage v hst)
  · next hst =>
    exact dbgSync_of_later hkind hmay hform rfl (syncCore_declared himage) ((syncFlag_of_running himage v hst).trans (syncSend_of_image himage _))

theorem manual_release_of_cores : Claims.ManualReleaseOfCores := by
  intro s s1 c g k kd x f ch v sent done stopped himage
  refine ⟨fun hmay hform => ⟨fun hkind => dbgSync_flag true himage hkind hmay hform, fun hkind => dbgSync_flag false himage hkind hmay hform⟩,
    fun hmay hform hst => ?_, fun hmay hform hst => ?_⟩
  · have hneed : coreIn c [.halt, .fault] s1 = true := (coreIn_of_image himage _).trans hst
    exact ⟨fun hkind => dbgSync_of_done hkind hmay hform hneed (syncCore_declared himage) (syncWrite_of_image himage true),
      fun hkind => dbgSync_of_done hkind hmay hform hneed (syncCore_declared himage) (syncWrite_of_image himage false)⟩
  · have hneed : coreIn c [.run, .hold] s1 = true := (coreIn_of_image himage _).trans hst
    exact ⟨fun hkind => dbgSync_of_later hkind hmay hform hneed (syncCore_declared himage) (syncSend_of_image himage _),
      fun hkind => dbgSync_of_later hkind hmay hform hneed (syncCore_declared himage) (syncSend_of_image himage _)⟩

theorem manual_release_of_objects : Claims.ManualReleaseOfObjects := by
  intro s s1 c i x b k hmay
  refine ⟨fun hkind hform hchan => ?_, fun hkind hform hbar hhome => ?_⟩
  · refine dbgSync_of_done hkind hmay hform rfl ?_ ?_ <;> rw [hchan]
    rfl
  · have hbar' : barOf s1 c.part (argFld c 1 0 8) = some (i, b) := hbar
    refine dbgSync_of_done hkind hmay hform ?_ ?_ ?_ <;> dsimp only <;> rw [hbar']
    · exact hhome
    · rfl

-- Resets ---------------------------------------------------------------------------------------------------------

/-- Where no core that a step reads back is stuck, all read back as cleared. -/
theorem readback_of_none_stuck {t : Nat → Bool} {s : State} (h : ∀ x ∈ s.stuck, t x = false) : readback t s = s := by
  rw [readback, List.filter_eq_nil_iff.mpr fun x hx => ne_true_of_eq_false (h x hx)]
  rfl

theorem zeroise_zero : zeroise Core.zero = Core.zero := rfl

/-- What a core holds after a reset of a list of cores (15 R388). -/
theorem getCore_resetCores {s : State} {l : List Nat} (hwf : twf Core.zero s.cores = true) (hstuck : ∀ x ∈ s.stuck, l.contains x = false) (h : Nat) :
    getCore (resetCores l s) h = if h ∈ l then zeroise (getCore s h) else getCore s h := by
  rw [resetCores, readback_of_none_stuck (by exact hstuck)]
  refine (getCore_mapCores (s := { s with haltSent := s.haltSent.filter (fun g => !l.contains g) }) hwf fun _ => zeroise_zero).trans ?_
  exact if_congr List.contains_iff_mem rfl rfl

/-- A zeroised core is in CLEAR, with its activity counters and its count of corrected words kept (15 R388; log 41). -/
theorem zeroise_of_live {x : Core} (h : x.r.st ≠ .defect) : zeroise x = { Core.zero with r := { CoreRegs.zero with
    actMtx := x.r.actMtx, actVec := x.r.actVec, actSram := x.r.actSram, actFlit := x.r.actFlit, sramCe := x.r.sramCe } } := if_neg h

/-- The cores of a cluster that the table lists. -/
def clusterCores (p : Fin 96) (cl : Fin 150) (s : State) : List Nat :=
  (s.cores.map Prod.fst).filter (fun g => decide (panOf g = p) && decide (clusterOf g = cl))

theorem mem_clusterCores {p : Fin 96} {cl : Fin 150} {s : State} {x : Nat} :
    x ∈ clusterCores p cl s ↔ x ∈ s.cores.map Prod.fst ∧ panOf x = p ∧ clusterOf x = cl := by
  rw [clusterCores, List.mem_filter, Bool.and_eq_true, decide_eq_true_eq, decide_eq_true_eq]

theorem exec_clusterReset (p : Fin 96) (cl : Fin 150) (s : State) :
    exec (.clusterReset p cl) s = .next (if mayReset s p then resetCores (clusterCores p cl s) s else s) := rfl

theorem resets_clear_their_cores : Claims.ResetsClearTheirCores := by
  intro s s1 c l g p cl
  refine ⟨fun hmay hform hscope htwo hsel => ?_, fun hg => if_neg (Nat.not_le.mpr hg), fun hmay => ?_, fun hmay => ?_,
    fun hwf hstuck h => getCore_resetCores hwf hstuck h, fun x hx => ?_⟩
  · rw [show exec (.dbgReset c) s = execDbgReset c s from rfl, execDbgReset]
    refine runDbg_of_ok hmay.1.1 ?_ (by rw [selected hsel])
    rw [firstCode_dbgChecks hmay (by rw [hform, hscope]; rfl), decide_eq_false htwo, hsel]
    rfl
  · rw [exec_clusterReset, hmay, if_neg Bool.false_ne_true]
  · refine ⟨clusterCores p cl s, ?_, fun x hx => (mem_clusterCores.mp hx).2, fun x hp hcl hne => mem_clusterCores.mpr ⟨?_, hp, hcl⟩⟩
    · rw [exec_clusterReset, hmay, if_pos rfl]
    · exact List.mem_map_of_mem (mem_of_tget_ne hne)
  · rw [zeroise_of_live hx]
    exact ⟨rfl, rfl, rfl, rfl, rfl, rfl, rfl⟩

end Sys2Proof.Machine

open Sys2Proof Sys2Proof.Machine

/-- Settles O35: a DBG_SYNC by its kind, a reset by the cores it names. That a zeroised core keeps its activity counters and SRAM_CE (log 41), when
the controller may reset cores of a pan in no partition (log 70), that the cores are in CLEAR in the row itself (log 127) and what a core that does
not read back as 0 does (log 115) are the model's readings. -/
theorem manualReleaseAndResets : Obligations.ManualReleaseAndResets :=
  ⟨manual_release_of_cores, manual_release_of_objects, resets_clear_their_cores⟩
end

section
/-! Folds over the units of a table: what each unit reads as when every step changes one. -/

namespace Sys2Proof.Machine

/-- What no step of a fold changes, the fold leaves. -/
theorem foldl_same {α β : Type} (q : State → β) {f : State → α → State} (hf : ∀ s x, q (f s x) = q s) (l : List α) (s : State) :
    q (l.foldl f s) = q s :=
  List.foldlRecOn (motive := fun t : State => q t = q s) l f rfl fun t ht x _ => (hf t x).trans ht

/-- What holds of every step's outcome holds of the fold's. -/
theorem foldl_inv {α : Type} {I : State → Prop} {f : State → α → State} (hf : ∀ s x, I s → I (f s x)) (l : List α) {s : State} (h : I s) :
    I (l.foldl f s) :=
  List.foldlRecOn l f h fun t ht x _ => hf t x ht

/-- A fold whose step for a unit changes that unit alone, by the unit and by what the steps of others leave: each unit of the list has its change. -/
theorem get_foldl_of_nodup {α : Type} {get g : State → Nat → α} {I : State → Prop} {f : State → Nat → State} (hI : ∀ s p, I s → I (f s p))
    (hsame : ∀ s p, I s → get (f s p) p = g s p) (hother : ∀ s p q, I s → q ≠ p → get (f s p) q = get s q) (hg : ∀ s p q, I s → q ≠ p → g (f s p) q = g s q)
    {l : List Nat} (hl : l.Nodup) {s : State} (h : I s) (q : Nat) : get (l.foldl f s) q = if q ∈ l then g s q else get s q := by
  induction l generalizing s with
  | nil => rfl
  | cons p l ih =>
    obtain ⟨hp, hl⟩ := List.nodup_cons.mp hl
    rw [List.foldl_cons, ih hl (hI s p h)]
    by_cases hq : q = p
    · subst hq
      rw [if_neg hp, hsame s q h, if_pos List.mem_cons_self]
    · rw [hg s p q h hq, hother s p q h hq]
      exact if_congr ⟨List.mem_cons_of_mem p, fun hm => (List.mem_cons.mp hm).resolve_left hq⟩ rfl rfl

theorem nodup_livePans (s : State) : (livePans s).Nodup := List.Nodup.filter _ List.nodup_range

theorem mem_livePans {s : State} {p : Nat} : p ∈ livePans s ↔ p < 96 ∧ panLive s p = true := by
  rw [livePans, List.mem_filter, List.mem_range]

theorem getPwr_setPwr (s : State) (p : Nat) (x : PanPwr) (h : twf PanPwr.zero s.power.pans = true) : getPwr (setPwr s p x) p = x :=
  tget_tset_same PanPwr.zero s.power.pans p x h

end Sys2Proof.Machine
end

section
/-! O45: the temperatures and THERM, the tick and the cap, the end of the park, and the energy meters (17 R435, R439; 18 R442, R443, R447, R448,
R451, R456, R457). -/

namespace Sys2Proof.Machine

open Sys2Proof.Claims

-- Temperatures ---------------------------------------------------------------------------------------------------

/-- The hottest sensor of a pan. -/
def hottest (temps : List Byte) (p : Nat) : Nat := ((temps.drop (10 * p)).take 10).foldl (fun m b => max m b.toNat) 0

/-- A pan's stage with its temperature and its levels recorded. -/
def measured (temps : List Byte) (s : State) (p : Nat) : PanPwr :=
  let v := hottest temps p
  let x := getPwr s p
  { x with tmax := v, warn := level x.warn v 95 92, throt := level x.throt v 100 97, hot := level x.hot v 105 100 }

/-- Whether the jobs of a pan are its holder's alone. -/
def holderAlone (s : State) (p : Nat) : Bool := (involved s p).all (fun k => decide ((getPan s p).part = some k))

/-- Besides, commanded off where it is hot and involves its holder alone. -/
def sampledPwr (temps : List Byte) (s : State) (p : Nat) : PanPwr :=
  let y := measured temps s p
  if y.hot && holderAlone s p && decide (y.why = 0) && decide (y.st < 2) then { y with why := 4 } else y

/-- The events of a pan's levels. -/
def thermalSaid (x y : PanPwr) (p : Nat) (s : State) : State :=
  let s3 := if y.warn && !x.warn then thermalEvent p 1 (postAlarm 4 s) else s
  let s4 := if y.throt && !x.throt then thermalEvent p 2 s3 else s3
  if y.hot && !x.hot then thermalEvent p 3 s4 else s4

theorem thermalSaid_frame (x y : PanPwr) (p : Nat) (s : State) : ∃ h sd, thermalSaid x y p s = { s with host := h, said := sd } := by
  have hwarn : ∃ h sd, (if y.warn && !x.warn then thermalEvent p 1 (postAlarm 4 s) else s) = { s with host := h, said := sd } := by
    split
    · obtain ⟨h, hs⟩ := postAlarm_frame 4 s
      exact ⟨h, _, by rw [hs]; rfl⟩
    · exact ⟨_, _, rfl⟩
  have htell : ∀ (b : Bool) (lvl : Nat) (t : State), ∃ sd, (if b then thermalEvent p lvl t else t) = { t with said := sd } := fun b lvl t => by
    split <;> exact ⟨_, rfl⟩
  obtain ⟨h, sd, hs⟩ := hwarn
  unfold thermalSaid
  dsimp only
  rw [hs]
  obtain ⟨sd', hs'⟩ := htell (y.throt && !x.throt) 2 { s with host := h, said := sd }
  rw [hs']
  obtain ⟨sd'', hs''⟩ := htell (y.hot && !x.hot) 3 { s with host := h, said := sd' }
  exact ⟨h, sd'', hs''⟩

/-- One pan's sample. -/
def samplePan (temps : List Byte) (s : State) (p : Nat) : State :=
  heatOff p (thermalSaid (getPwr s p) (measured temps s p) p (setPwr s p (measured temps s p)))

theorem exec_thermalSample (temps : List Byte) (a b c d : Byte) (s : State) : exec (.thermalSample temps a b c d) s =
    let s1 := { s with power := { s.power with cin := max a.toNat b.toNat, cout := max c.toNat d.toNat } }
    .next ((livePans s).foldl (samplePan temps) s1) := rfl

/-- A sample of a pan touches its stage, the causes of HOLD and what is told. -/
theorem samplePan_frame (temps : List Byte) (s : State) (p : Nat) : ∃ h sd td, td.live = s.tide.live ∧ samplePan temps s p =
    { s with power := { s.power with pans := (samplePan temps s p).power.pans }, host := h, said := sd, tide := td } := by
  obtain ⟨h, sd, hs⟩ := thermalSaid_frame (getPwr s p) (measured temps s p) p (setPwr s p (measured temps s p))
  unfold samplePan
  rw [hs]
  unfold heatOff
  dsimp only
  split
  · exact ⟨h, sd, (raiseHold 0 0x7F s).tide, rfl, rfl⟩
  · exact ⟨h, sd, _, rfl, rfl⟩

theorem pans_samplePan (temps : List Byte) {s : State} (p : Nat) (hwf : twf PanPwr.zero s.power.pans = true) :
    (samplePan temps s p).power.pans = if (measured temps s p).hot && holderAlone s p && decide ((measured temps s p).why = 0) && decide ((measured temps s p).st < 2)
      then tset PanPwr.zero (tset PanPwr.zero s.power.pans p (measured temps s p)) p { measured temps s p with why := 4 }
      else tset PanPwr.zero s.power.pans p (measured temps s p) := by
  obtain ⟨h, sd, hs⟩ := thermalSaid_frame (getPwr s p) (measured temps s p) p (setPwr s p (measured temps s p))
  have hget : getPwr (setPwr s p (measured temps s p)) p = measured temps s p := getPwr_setPwr s p _ hwf
  unfold samplePan
  rw [hs]
  unfold heatOff modPwr
  dsimp only
  rw [show getPwr { setPwr s p (measured temps s p) with host := h, said := sd } p = _ from hget]
  unfold holderAlone
  split
  · next hoff => exact (if_pos hoff).symm
  · next hon => exact (if_neg hon).symm

theorem twf_samplePan (temps : List Byte) {s : State} (p : Nat) (hwf : twf PanPwr.zero s.power.pans = true) :
    twf PanPwr.zero (samplePan temps s p).power.pans = true := by
  rw [pans_samplePan temps p hwf]
  split
  · exact twf_tset _ _ _ _ (twf_tset _ _ _ _ hwf)
  · exact twf_tset _ _ _ _ hwf

theorem getPwr_samplePan (temps : List Byte) {s : State} (p : Nat) (hwf : twf PanPwr.zero s.power.pans = true) :
    getPwr (samplePan temps s p) p = sampledPwr temps s p := by
  rw [getPwr, pans_samplePan temps p hwf, sampledPwr]
  dsimp only
  split
  · exact tget_tset_same _ _ _ _ (twf_tset _ _ _ _ hwf)
  · exact tget_tset_same _ _ _ _ hwf

theorem getPwr_samplePan_ne (temps : List Byte) (s : State) (p q : Nat) (h : q ≠ p) : getPwr (samplePan temps s p) q = getPwr s q := by
  obtain ⟨ho, sd, hs⟩ := thermalSaid_frame (getPwr s p) (measured temps s p) p (setPwr s p (measured temps s p))
  have hset : getPwr { setPwr s p (measured temps s p) with host := ho, said := sd } q = getPwr s q := getPwr_setPwr_ne s p q _ h
  unfold samplePan
  rw [hs]
  unfold heatOff
  dsimp only
  split
  · exact (getPwr_setPwr_ne _ p q _ h).trans hset
  · exact hset

theorem sampledPwr_samplePan (temps : List Byte) (s : State) (p q : Nat) (h : q ≠ p) : sampledPwr temps (samplePan temps s p) q = sampledPwr temps s q := by
  have hget := getPwr_samplePan_ne temps s p q h
  have halone : holderAlone (samplePan temps s p) q = holderAlone s q := by
    obtain ⟨ho, sd, td, -, hs⟩ := samplePan_frame temps s p
    rw [hs]
    rfl
  unfold sampledPwr measured
  rw [hget, halone]

/-- The stage of a pan after a sample of a list of pans. -/
theorem getPwr_samples (temps : List Byte) {l : List Nat} (hl : l.Nodup) {s : State} (hwf : twf PanPwr.zero s.power.pans = true) (q : Nat) :
    getPwr (l.foldl (samplePan temps) s) q = if q ∈ l then sampledPwr temps s q else getPwr s q :=
  get_foldl_of_nodup (I := fun s => twf PanPwr.zero s.power.pans = true) (fun _ p => twf_samplePan temps p) (fun _ p => getPwr_samplePan temps p)
    (fun s p q _ => getPwr_samplePan_ne temps s p q) (fun s p q _ => sampledPwr_samplePan temps s p q) hl hwf q

/-- What a pan is commanded off for, with its other fields as measured (17 R439). -/
theorem sampledPwr_eq (temps : List Byte) (s : State) (p : Nat) :
    let y := measured temps s p
    sampledPwr temps s p = { y with why := if y.hot && holderAlone s p && decide (y.why = 0) && decide (y.st < 2) then 4 else y.why } := by
  intro y
  unfold sampledPwr
  dsimp only
  split <;> rfl

theorem temperatures_move_the_limit : Claims.TemperaturesMoveTheLimit := by
  intro s temps a b c d t w up
  refine ⟨fun hwf => ?_, fun hhot hfirst => ?_, fun hhot hlast hcool => ?_, fun hcold => ?_⟩
  · have hsame := fun {β : Type} (q : State → β) (hq : ∀ s p, q (samplePan temps s p) = q s) => foldl_same q hq (livePans s)
      { s with power := { s.power with cin := max a.toNat b.toNat, cout := max c.toNat d.toNat } }
    have hget := getPwr_samples temps (nodup_livePans s)
      (s := { s with power := { s.power with cin := max a.toNat b.toNat, cout := max c.toNat d.toNat } }) ((tablesWf_iff s).mp hwf).pwr
    refine ⟨_, exec_thermalSample temps a b c d s, ?_, ?_, ?_, fun p hdark => ?_, fun p hp hlive => ?_⟩
    · exact hsame (fun s => s.power.cin) fun s p => by
        obtain ⟨_, _, _, -, h⟩ := samplePan_frame temps s p
        rw [h]
    · exact hsame (fun s => s.power.cout) fun s p => by
        obtain ⟨_, _, _, -, h⟩ := samplePan_frame temps s p
        rw [h]
    · exact hsame (fun s => s.cores) fun s p => by
        obtain ⟨_, _, _, -, h⟩ := samplePan_frame temps s p
        rw [h]
    · exact (hget p).trans (if_neg fun hm => Bool.false_ne_true (hdark.symm.trans (mem_livePans.mp hm).2))
    · exact ((hget p).trans (if_pos (mem_livePans.mpr ⟨hp, hlive⟩))).trans (sampledPwr_eq temps _ p)
  · have hstep : (!w.lastHot || decide (0 < w.coolFor)) = true := by
      rw [Bool.or_eq_true, Bool.not_eq_true', decide_eq_true_eq]
      exact hfirst
    rw [show exec .thermStep s = execThermStep s from rfl, execThermStep, if_pos hhot, if_pos hstep]
  · rw [show exec .thermStep s = execThermStep s from rfl, execThermStep, if_pos hhot, show s.power.lastHot = true from hlast, show s.power.coolFor = 0 from hcool]
    rfl
  · rw [show exec .thermStep s = execThermStep s from rfl, execThermStep, if_neg (ne_true_of_eq_false hcold)]

-- The tick -------------------------------------------------------------------------------------------------------

/-- What a tick records of the entry, the cap in force, and the power limit. -/
def tickReadings (s : State) : Nat × Nat × Nat × Nat × Nat × Nat × Bool × Nat :=
  (s.power.eff, s.power.entryV, s.power.entryI, s.power.rim, s.power.joules, s.power.ticks, s.power.curr, s.tide.pwr)

theorem tickReadings_setRails (k : Nat) (s : State) : tickReadings (setRails k s) = tickReadings s := by
  obtain ⟨ps, h⟩ := setRails_frame k s
  rw [h]
  rfl

theorem tickReadings_parkNow (s : State) : tickReadings (parkNow s) = tickReadings s := by
  unfold parkNow
  split
  · rfl
  · dsimp only
    refine (foldl_same tickReadings (by exact fun _ _ => rfl) (livePans _) _).trans ?_
    exact foldl_same tickReadings (by exact fun _ _ => rfl) _ s

theorem tickReadings_park (oper : Bool) (s : State) : tickReadings (park oper s) = tickReadings s := by
  unfold park
  rw [tickReadings_parkNow]
  cases oper <;> rfl

theorem tickReadings_wakeIfClear (s : State) : tickReadings (wakeIfClear s) = tickReadings s := by
  unfold wakeIfClear
  dsimp only
  split
  · exact tickReadings_setRails s.tide.rate { s with power := { s.power with waking := true } }
  · rfl

theorem tickReadings_seekRate (s : State) : tickReadings (seekRate s) = tickReadings s := by
  unfold seekRate
  dsimp only
  split
  · rfl
  · split
    · split
      · rfl
      · exact tickReadings_setRails _ s
    · split
      · obtain ⟨ns, h, -⟩ := deliverRate_eq (north s + 4096) (targetRate s.tide) s
        rw [h]
        rfl
      · rfl

/-- A tick leaves the cap, its target and its ramp, the energy read and the count of ticks to the entry's own part. -/
theorem tickPans_frame (rails : List (Nat × Nat)) (s : State) :
    ∃ ps tp, tickPans rails s = { s with power := { s.power with pans := ps, tap := tp } } := by
  obtain ⟨ps, h⟩ := List.foldlRecOn (motive := fun t : State => ∃ ps, t = { s with power := { s.power with pans := ps } }) (livePans s)
    (fun s p =>
      let r := rails.getD p (0, 0)
      let dyn := dynOf s p r.1
      let x := getPwr s p
      let e := Config.staticPower x.cal r.1 x.tmax + dyn
      setPwr s p { x with mv := r.1, amp := r.2, dyn := dyn, steps := (getNode s p).steps, model := x.model ++ [((getPan s p).part, e)] })
    ⟨_, rfl⟩ fun t ⟨_, ht⟩ p _ => by
      rw [ht]
      exact ⟨_, rfl⟩
  unfold tickPans
  dsimp only
  rw [h]
  exact ⟨_, _, rfl⟩

theorem find_range_le {p : Nat → Bool} {k : Nat} (h : ((List.range 43).map (50 - ·)).find? p = some k) : k ≤ 50 := by
  obtain ⟨i, -, rfl⟩ := List.mem_map.mp (List.mem_of_find?_eq_some h)
  exact Nat.sub_le _ _

/-- The power limit that a tick chooses lies from 8 to 50 (18 R447). -/
theorem choosePwr_bounds (s : State) (p eff rim amp : Nat) : 8 ≤ choosePwr s p eff rim amp ∧ choosePwr s p eff rim amp ≤ 50 := by
  have hfirst : (((List.range 43).map (50 - ·)).find? (fun k => decide (k = 8) ||
      decide (predict s rim k + s.power.guard * 1000000 ≤ eff * 1000000))).getD 8 ≤ 50 := by
    cases h : ((List.range 43).map (50 - ·)).find? (fun k => decide (k = 8) || decide (predict s rim k + s.power.guard * 1000000 ≤ eff * 1000000)) with
    | none => decide
    | some k => exact find_range_le h
  have hmin : ∀ (b : Prop) [Decidable b] (x y : Nat), x ≤ 50 → (if b then min x y else x) ≤ 50 := fun b _ x y hx => by
    split
    · exact (Nat.min_le_left x y).trans hx
    · exact hx
  exact ⟨Nat.le_max_right _ _, Nat.max_le.mpr ⟨hmin _ _ _ (hmin _ _ _ (hmin _ _ _ hfirst)), by decide⟩⟩

/-- What a tick leaves of the entry's readings. -/
theorem tickReadings_powerTick (volt amp : BitVec 16) (rim : Nat) (rails : List (Nat × Nat)) (s : State) :
    ∃ t, exec (.powerTick volt amp rim rails) s = .next t ∧
      tickReadings t = (nextCap s.power, volt.toNat, amp.toNat, rim, s.power.joules + volt.toNat * amp.toNat, s.power.ticks + 1,
        decide (8550 < amp.toNat), choosePwr (tickPans rails s) (volt.toNat * amp.toNat / 1000) (nextCap s.power) rim amp.toNat) := by
  obtain ⟨ps, tp, h⟩ := tickPans_frame rails s
  refine ⟨_, rfl, ?_⟩
  dsimp only
  rw [tickReadings_seekRate]
  have hclear : ∀ (b : Bool) (t : State), tickReadings (if b then wakeIfClear { t with power := { t.power with capPark := false } } else t) =
      tickReadings t := fun b t => by
    split
    · exact tickReadings_wakeIfClear { t with power := { t.power with capPark := false } }
    · rfl
  have hpark : ∀ (b : Bool) (t : State), tickReadings (if b then park false t else t) = tickReadings t := fun b t => by
    split
    · exact tickReadings_park false t
    · rfl
  rw [hclear, hpark, h]
  rfl

/-- A partition that the park held, as the park ends (18 R451). -/
def unparked (p : Part) : Part :=
  if p.holdPark then { p with holdPark := false, st := if p.holdHost = false ∧ p.st = .held then .running else p.st } else p

/-- The end of the park for one partition. -/
def unparkPart (s : State) (k : Nat) : State :=
  let p := getPart s k
  if p.holdPark then
    if p.holdHost then modPart s k (fun p => { p with holdPark := false })
    else thaw (inPart s k) (modPart s k (fun p => { p with holdPark := false, st := if p.st = .held then .running else p.st }))
  else s

theorem unparked_of_host {p : Part} (hpark : p.holdPark = true) (hhost : p.holdHost = true) : unparked p = { p with holdPark := false } := by
  have hheld : ¬(p.holdHost = false ∧ p.st = .held) := fun h => by cases hhost.symm.trans h.1
  unfold unparked
  rw [if_pos hpark, if_neg hheld]

theorem unparked_of_free {p : Part} (hpark : p.holdPark = true) (hhost : ¬p.holdHost = true) :
    unparked p = { p with holdPark := false, st := if p.st = .held then .running else p.st } := by
  have hst : (if p.holdHost = false ∧ p.st = .held then PSt.running else p.st) = if p.st = .held then .running else p.st :=
    if_congr (and_iff_right (Bool.eq_false_of_not_eq_true hhost)) rfl rfl
  unfold unparked
  rw [if_pos hpark, hst]

/-- The end of the park touches one partition and cores. -/
theorem unparkPart_eq (s : State) (k : Nat) : ((getPart s k).holdPark = false ∧ unparkPart s k = s) ∨
    ∃ cs, unparkPart s k = { setPart s k (unparked (getPart s k)) with cores := cs } := by
  unfold unparkPart
  dsimp only
  split
  · next hpark =>
    split
    · next hhost =>
      rw [unparked_of_host hpark hhost]
      exact .inr ⟨s.cores, rfl⟩
    · next hhost =>
      obtain ⟨cs, h⟩ := thaw_frame (inPart s k) (modPart s k (fun p => { p with holdPark := false, st := if p.st = .held then .running else p.st }))
      rw [h, unparked_of_free hpark hhost]
      exact .inr ⟨cs, rfl⟩
  · next hpark => exact .inl ⟨Bool.eq_false_of_not_eq_true hpark, rfl⟩

theorem twf_unparkPart {s : State} (k : Nat) (hwf : twf Part.zero s.parts = true) : twf Part.zero (unparkPart s k).parts = true := by
  rcases unparkPart_eq s k with ⟨-, h⟩ | ⟨cs, h⟩ <;> rw [h]
  · exact hwf
  · exact twf_tset _ _ _ _ hwf

theorem getPart_unparkPart {s : State} (k : Nat) (hwf : twf Part.zero s.parts = true) : getPart (unparkPart s k) k = unparked (getPart s k) := by
  rcases unparkPart_eq s k with ⟨hpark, h⟩ | ⟨cs, h⟩ <;> rw [h]
  · rw [unparked, hpark, if_neg Bool.false_ne_true]
  · exact getPart_setPart s k _ hwf

theorem getPart_unparkPart_ne (s : State) (k j : Nat) (hj : j ≠ k) : getPart (unparkPart s k) j = getPart s j := by
  rcases unparkPart_eq s k with ⟨-, h⟩ | ⟨cs, h⟩
  · rw [h]
  · rw [h]
    exact getPart_setPart_of_ne s k j _ hj

theorem powerTide_unparkPart (s : State) (k : Nat) : ((unparkPart s k).power, (unparkPart s k).tide) = (s.power, s.tide) := by
  rcases unparkPart_eq s k with ⟨-, h⟩ | ⟨cs, h⟩
  · rw [h]
  · rw [h]
    rfl

/-- The module as the park ends, before its partitions run again. -/
def unparking (s : State) : State := releaseHold (clearCauses 1 { s with power := { s.power with parked := false, waking := false } })

theorem unparking_eq (s : State) :
    unparking s = { s with power := { s.power with parked := false, waking := false }, tide := (releaseHold (clearCauses 1 s)).tide } := by
  unfold unparking releaseHold clearCauses
  split <;> rfl

theorem exec_parkWakeDone {s : State} (hparked : s.power.parked = true) (hwaking : s.power.waking = true) (hrails : railsSettled s = true)
    (hoper : s.power.oper = false) (hcap : s.power.capPark = false) :
    exec .parkWakeDone s = .next (pldm 0x33 1 ((List.range 32).foldl unparkPart (unparking s))) := by
  refine congrArg Host.Outcome.next (if_pos ?_)
  rw [hparked, hwaking, hrails, hoper, hcap]
  rfl

theorem the_tick_moves_the_cap : Claims.TheTickMovesTheCap := by
  intro s volt amp rim rails w
  refine ⟨?_, fun hparked hwaking hrails hoper hcap hwf => ?_⟩
  · obtain ⟨t, hrun, h⟩ := tickReadings_powerTick volt amp rim rails s
    simp only [tickReadings, Prod.mk.injEq] at h
    obtain ⟨heff, hv, hi, hrim, hj, hn, hcurr, hpwr⟩ := h
    obtain ⟨hlo, hhi⟩ := choosePwr_bounds (tickPans rails s) (volt.toNat * amp.toNat / 1000) (nextCap s.power) rim amp.toNat
    exact ⟨t, hrun, heff, hv, hi, hrim, hj, hn, hcurr, by rw [hpwr]; exact hlo, by rw [hpwr]; exact hhi⟩
  · have heq := unparking_eq s
    have hparts : getPart (unparking s) = getPart s := by rw [heq]; rfl
    have hsame := foldl_same (fun s : State => (s.power, s.tide)) powerTide_unparkPart (List.range 32) (unparking s)
    have hget := fun k => get_foldl_of_nodup (get := getPart) (g := fun s p => unparked (getPart s p)) (I := fun s => twf Part.zero s.parts = true)
      (fun _ k => twf_unparkPart k) (fun _ k => getPart_unparkPart k) (fun s p q _ => getPart_unparkPart_ne s p q)
      (fun s p q _ hq => congrArg unparked (getPart_unparkPart_ne s p q hq)) (List.nodup_range (n := 32)) (s := unparking s)
      (by rw [heq]; exact ((tablesWf_iff s).mp hwf).parts) k
    have hrun := exec_parkWakeDone hparked hwaking hrails hoper hcap
    generalize (List.range 32).foldl unparkPart (unparking s) = t at hsame hget hrun
    obtain ⟨hpower, htide⟩ := Prod.mk.inj hsame
    refine ⟨_, hrun, hpower.trans (by rw [heq]), htide.trans (by rw [heq]), fun k hk => ?_⟩
    refine (hget k).trans ?_
    rw [if_pos (List.mem_range.mpr hk), hparts]
    rfl

-- The energy meters ----------------------------------------------------------------------------------------------

theorem getMeter_modMeter {s : State} (k : Nat) (f : Meter → Meter) (hwf : twf Meter.zero s.power.meters = true) :
    getMeter (modMeter s k f) k = f (getMeter s k) := tget_tset_same _ _ _ _ hwf

theorem getMeter_modMeter_ne (s : State) (k j : Nat) (f : Meter → Meter) (hj : j ≠ k) : getMeter (modMeter s k f) j = getMeter s j :=
  tget_tset_ne _ _ _ _ _ hj

/-- Energy charged to a meter. -/
def Meter.charged (m : Meter) (e : Nat) : Meter := { m with acc := m.acc + e }

theorem Meter.charged_zero (m : Meter) : m.charged 0 = m := rfl

theorem Meter.charged_charged (m : Meter) (d e : Nat) : (m.charged d).charged e = m.charged (d + e) :=
  congrArg (fun a => { m with acc := a }) (Nat.add_assoc _ _ _)

/-- Amounts charged to the meters of a list of partitions, where an amount of 0 is left out. -/
def chargeMeters (w e : Nat → Nat) (l : List Nat) (s : State) : State :=
  l.foldl (fun s k => if w k = 0 then s else modMeter s k (fun m => { m with acc := m.acc + e k })) s

theorem chargeMeters_frame (w e : Nat → Nat) (l : List Nat) {s : State} (hwf : twf Meter.zero s.power.meters = true) :
    ∃ ms, twf Meter.zero ms = true ∧ chargeMeters w e l s = { s with power := { s.power with meters := ms } } :=
  List.foldlRecOn (motive := fun t : State => ∃ ms, twf Meter.zero ms = true ∧ t = { s with power := { s.power with meters := ms } }) l _
    ⟨_, hwf, rfl⟩ fun t ⟨ms, hms, ht⟩ k _ => by
      split
      · exact ⟨ms, hms, ht⟩
      · rw [ht]
        exact ⟨_, twf_tset _ _ _ _ hms, rfl⟩

theorem getMeter_chargeMeters {w e : Nat → Nat} (hzero : ∀ k, w k = 0 → e k = 0) {l : List Nat} (hl : l.Nodup) {s : State}
    (hwf : twf Meter.zero s.power.meters = true) (k : Nat) :
    getMeter (chargeMeters w e l s) k = if k ∈ l then (getMeter s k).charged (e k) else getMeter s k := by
  refine get_foldl_of_nodup (g := fun s k => (getMeter s k).charged (e k)) (I := fun s => twf Meter.zero s.power.meters = true)
    (fun s p h => ?_) (fun s p h => ?_) (fun s p q _ hq => ?_) (fun s p q _ hq => ?_) hl hwf k
  · split
    · exact h
    · exact twf_tset _ _ _ _ h
  · split
    · next hw => rw [hzero p hw, Meter.charged_zero]
    · exact getMeter_modMeter p _ h
  · split
    · rfl
    · exact getMeter_modMeter_ne s p q _ hq
  · split
    · rfl
    · rw [getMeter_modMeter_ne s p q _ hq]

/-- What a pan's holders have by the model, and what one of them has. -/
def modelled (s : State) (p : Nat) : Nat := ((getPwr s p).model.map Prod.snd).foldl (· + ·) 0

def modelledOf (s : State) (p k : Nat) : Nat := (((getPwr s p).model.filter (fun m => decide (m.1 = some k))).map Prod.snd).foldl (· + ·) 0

/-- A partition's share of a pan's energy (18 R456). -/
def panShare (meas : List Nat) (s : State) (k p : Nat) : Nat := meas.getD p 0 * modelledOf s p k / modelled s p

/-- The energy of a pan charged to its holders. -/
def chargedHolders (meas : List Nat) (s : State) (p : Nat) : State :=
  if modelled s p = 0 then s else chargeMeters (modelledOf s p) (fun k => panShare meas s k p) (List.range 32) s

theorem chargedHolders_frame (meas : List Nat) {s : State} (p : Nat) (hwf : twf Meter.zero s.power.meters = true) :
    ∃ ms, twf Meter.zero ms = true ∧ chargedHolders meas s p = { s with power := { s.power with meters := ms } } := by
  unfold chargedHolders
  split
  · exact ⟨_, hwf, rfl⟩
  · exact chargeMeters_frame _ _ _ hwf

theorem getMeter_chargedHolders (meas : List Nat) {s : State} (p : Nat) (hwf : twf Meter.zero s.power.meters = true) {k : Nat} (hk : k < 32) :
    getMeter (chargedHolders meas s p) k = (getMeter s k).charged (panShare meas s k p) := by
  unfold chargedHolders
  split
  · next hnone => rw [panShare, hnone, Nat.div_zero, Meter.charged_zero]
  · rw [getMeter_chargeMeters (fun j hj => by rw [panShare, hj, Nat.mul_zero, Nat.zero_div]) List.nodup_range hwf, if_pos (List.mem_range.mpr hk)]

/-- A pan's stage after an interval: how far the measure is off the model, and its own sums anew. -/
def metered (meas : List Nat) (s : State) (p : Nat) : PanPwr :=
  let x := getPwr s p
  let e := meas.getD p 0
  let ratio := if modelled s p = 0 then 4096 else min 0xFFFF (e * 1000 * 4096 / modelled s p)
  let off := if ratio * 100 < 85 * 4096 ∨ 115 * 4096 < ratio * 100 then x.off + 1 else 0
  { x with ratio := ratio, off := off, drift := x.drift || decide (100 ≤ off), model := [], meas := e }

theorem chargePan_eq (meas : List Nat) (s : State) (p : Nat) : chargePan meas s p =
    let s2 := setPwr (chargedHolders meas s p) p (metered meas s p)
    if 100 ≤ (metered meas s p).off then watch 3 s2 else s2 := rfl

/-- A pan's interval touches the meters, its stage and the watch indicators. -/
theorem chargePan_frame (meas : List Nat) {s : State} (p : Nat) (hwf : twf Meter.zero s.power.meters = true) :
    ∃ ms rl, twf Meter.zero ms = true ∧ ms = (chargedHolders meas s p).power.meters ∧ chargePan meas s p =
      { s with power := { s.power with meters := ms, pans := tset PanPwr.zero s.power.pans p (metered meas s p) }, rel := rl } := by
  obtain ⟨ms, hms, h⟩ := chargedHolders_frame meas p hwf
  rw [chargePan_eq, h]
  dsimp only
  split
  · exact ⟨ms, _, hms, rfl, rfl⟩
  · exact ⟨ms, _, hms, rfl, rfl⟩

section
variable (meas : List Nat) {s : State} (hwf : twf Meter.zero s.power.meters = true)
include hwf

theorem twf_chargePan (p : Nat) : twf Meter.zero (chargePan meas s p).power.meters = true := by
  obtain ⟨ms, rl, hms, -, h⟩ := chargePan_frame meas p hwf
  rw [h]
  exact hms

theorem getMeter_chargePan (p : Nat) {k : Nat} (hk : k < 32) : getMeter (chargePan meas s p) k = (getMeter s k).charged (panShare meas s k p) := by
  obtain ⟨ms, rl, -, hms, h⟩ := chargePan_frame meas p hwf
  rw [h, ← getMeter_chargedHolders meas p hwf hk, getMeter, hms]
  rfl

theorem getPwr_chargePan (p : Nat) (hpwr : twf PanPwr.zero s.power.pans = true) : getPwr (chargePan meas s p) p = metered meas s p := by
  obtain ⟨ms, rl, -, -, h⟩ := chargePan_frame meas p hwf
  rw [h]
  exact tget_tset_same _ _ _ _ hpwr

theorem getPwr_chargePan_ne (p q : Nat) (hq : q ≠ p) : getPwr (chargePan meas s p) q = getPwr s q := by
  obtain ⟨ms, rl, -, -, h⟩ := chargePan_frame meas p hwf
  rw [h]
  exact tget_tset_ne _ _ _ _ _ hq

theorem panShare_chargePan (k p q : Nat) (hq : q ≠ p) : panShare meas (chargePan meas s p) k q = panShare meas s k q := by
  have hget := getPwr_chargePan_ne meas hwf p q hq
  unfold panShare modelledOf modelled
  rw [hget]

/-- A meter has its shares of the pans that an interval charges (18 R456). -/
theorem getMeter_foldl_chargePan {l : List Nat} (hl : l.Nodup) {k : Nat} (hk : k < 32) :
    getMeter (l.foldl (chargePan meas) s) k = (getMeter s k).charged (l.map (panShare meas s k)).sum := by
  induction l generalizing s with
  | nil => rfl
  | cons p l ih =>
    obtain ⟨hp, hl⟩ := List.nodup_cons.mp hl
    have hmap : l.map (panShare meas (chargePan meas s p) k) = l.map (panShare meas s k) :=
      List.map_congr_left fun q hq => panShare_chargePan meas hwf k p q fun h => hp (h ▸ hq)
    rw [List.foldl_cons, ih (twf_chargePan meas hwf p) hl, hmap, getMeter_chargePan meas hwf p hk, Meter.charged_charged, List.map_cons, List.sum_cons]

end

/-- What an interval leaves of the pans that it charges. -/
theorem charged_pans (meas : List Nat) {s : State} (hwf : Canon s) :
    let t := (livePans s).foldl (chargePan meas) s
    (twf Meter.zero t.power.meters = true ∧ t.cores = s.cores ∧ t.tide = s.tide) ∧ ∀ p ∈ livePans s, getPwr t p = metered meas s p := by
  have hframe := List.foldlRecOn (motive := fun t : State => twf Meter.zero t.power.meters = true ∧ t.cores = s.cores ∧ t.tide = s.tide)
    (livePans s) (chargePan meas) ⟨hwf.meters, rfl, rfl⟩ fun t ⟨hm, hc, ht⟩ p _ => by
      obtain ⟨ms, rl, hms, -, h⟩ := chargePan_frame meas p hm
      rw [h]
      exact ⟨hms, hc, ht⟩
  refine ⟨hframe, fun p hp => ?_⟩
  refine (get_foldl_of_nodup (get := getPwr) (g := metered meas)
    (I := fun t : State => twf Meter.zero t.power.meters = true ∧ twf PanPwr.zero t.power.pans = true) (fun t q ⟨hm, hpw⟩ => ?_)
    (fun t q ⟨hm, hpw⟩ => getPwr_chargePan meas hm q hpw) (fun t q r ⟨hm, _⟩ => getPwr_chargePan_ne meas hm q r) (fun t q r ⟨hm, _⟩ hr => ?_)
    (nodup_livePans s) ⟨hwf.meters, hwf.pwr⟩ p).trans (if_pos hp)
  · obtain ⟨ms, rl, hms, -, h⟩ := chargePan_frame meas q hm
    rw [h]
    exact ⟨hms, twf_tset _ _ _ _ hpw⟩
  · have hget := getPwr_chargePan_ne meas hm q r hr
    unfold metered modelled
    rw [hget]

/-- The rim's cost of a partition, by its lines and its units. -/
def rimShare (s : State) (k : Nat) : Nat := Config.rimCost 0 * (getMeter s k).lines + Config.rimCost 1 * (getMeter s k).units

def rimShares (s : State) : Nat := ((List.range 32).map (rimShare s)).foldl (· + ·) 0

/-- The rim's energy above its base charged to the partitions. -/
def chargedRim (var : Nat) (s : State) : State :=
  if rimShares s = 0 then s else chargeMeters (rimShare s) (fun k => var * rimShare s k / rimShares s) (List.range 32) s

/-- The lines and the units of every meter begin anew. -/
def Meter.anew (m : Meter) : Meter := { m with lines := 0, units := 0 }

def metersAnew (s : State) : State := (s.power.meters.map Prod.fst).foldl (fun s k => modMeter s k Meter.anew) s

theorem exec_energyInterval (rim : Nat) (pans : List Nat) (s : State) : exec (.energyInterval rim pans) s =
    .next (metersAnew (chargedRim (rim - s.power.rimBase * 100000) ((livePans s).foldl (chargePan pans) s))) := rfl

section
variable (var : Nat) {s : State} (hwf : twf Meter.zero s.power.meters = true)
include hwf

theorem chargedRim_frame : ∃ ms, twf Meter.zero ms = true ∧ chargedRim var s = { s with power := { s.power with meters := ms } } := by
  unfold chargedRim
  split
  · exact ⟨_, hwf, rfl⟩
  · exact chargeMeters_frame _ _ _ hwf

theorem getMeter_chargedRim {k : Nat} (hk : k < 32) : getMeter (chargedRim var s) k = (getMeter s k).charged (var * rimShare s k / rimShares s) := by
  unfold chargedRim
  split
  · next hnone => rw [hnone, Nat.div_zero, Meter.charged_zero]
  · rw [getMeter_chargeMeters (fun j hj => by rw [hj, Nat.mul_zero, Nat.zero_div]) List.nodup_range hwf, if_pos (List.mem_range.mpr hk)]

theorem getMeter_foldl_anew (l : List Nat) (k : Nat) :
    getMeter (l.foldl (fun s k => modMeter s k Meter.anew) s) k = if k ∈ l then (getMeter s k).anew else getMeter s k := by
  induction l generalizing s with
  | nil => rfl
  | cons j l ih =>
    rw [List.foldl_cons, ih (twf_tset _ _ _ _ hwf)]
    by_cases hk : k = j
    · subst hk
      rw [getMeter_modMeter k _ hwf, if_pos List.mem_cons_self]
      split <;> rfl
    · rw [getMeter_modMeter_ne s j k _ hk]
      exact if_congr ⟨List.mem_cons_of_mem j, fun hm => (List.mem_cons.mp hm).resolve_left hk⟩ rfl rfl

theorem getMeter_metersAnew (k : Nat) : getMeter (metersAnew s) k = (getMeter s k).anew := by
  rw [metersAnew, getMeter_foldl_anew hwf]
  split
  · rfl
  · next hk =>
    have hzero : getMeter s k = Meter.zero := by
      by_contra hne
      exact hk (List.mem_map_of_mem (mem_of_tget_ne hne))
    rw [hzero]
    rfl

end

theorem metersAnew_frame (s : State) : ∃ ms, metersAnew s = { s with power := { s.power with meters := ms } } :=
  List.foldlRecOn (motive := fun t : State => ∃ ms, t = { s with power := { s.power with meters := ms } }) (s.power.meters.map Prod.fst)
    (fun s k => modMeter s k Meter.anew) ⟨_, rfl⟩ fun t ⟨_, ht⟩ k _ => by
    rw [ht]
    exact ⟨_, rfl⟩

theorem energy_is_metered : Claims.EnergyIsMetered := by
  intro s rim pans k m cost tot all mine
  refine ⟨fun hwf => ?_, fun hst hdue => ?_⟩
  · have hcanon := (tablesWf_iff s).mp hwf
    obtain ⟨⟨hwf1, hcores1, htide1⟩, hpans1⟩ := charged_pans pans hcanon
    have hmeter1 := fun {j : Nat} (hj : j < 32) => getMeter_foldl_chargePan pans hcanon.meters (nodup_livePans s) hj
    have hrun := exec_energyInterval rim pans s
    generalize (livePans s).foldl (chargePan pans) s = s1 at *
    have hshare : ∀ j, j < 32 → rimShare s1 j = cost j := fun j hj => by
      unfold rimShare
      rw [hmeter1 hj]
      rfl
    have htot : rimShares s1 = tot := congrArg (List.foldl (· + ·) 0) (List.map_congr_left fun j hj => hshare j (List.mem_range.mp hj))
    obtain ⟨ms, hwf2, hrim⟩ := chargedRim_frame (rim - s.power.rimBase * 100000) hwf1
    have hmeter2 := getMeter_chargedRim (rim - s.power.rimBase * 100000) hwf1 k.isLt
    rw [hshare k k.isLt, htot, hmeter1 k.isLt, Meter.charged_charged] at hmeter2
    obtain ⟨ms', hanew⟩ := metersAnew_frame (chargedRim (rim - s.power.rimBase * 100000) s1)
    have hmeter3 := getMeter_metersAnew (s := chargedRim (rim - s.power.rimBase * 100000) s1) (by rw [hrim]; exact hwf2) k
    rw [hmeter2] at hmeter3
    refine ⟨_, hrun, ?_, ?_, ?_, ?_, ?_, fun p hp => ?_⟩
    · rw [hanew, hrim]
      exact hcores1
    · rw [hanew, hrim]
      exact htide1
    · rw [hmeter3]
      rfl
    · rw [hmeter3]
      rfl
    · rw [hmeter3, ← List.sum_eq_foldl, Nat.add_assoc]
      rfl
    · have hpan : getPwr (metersAnew (chargedRim (rim - s.power.rimBase * 100000) s1)) p = metered pans s p := by
        rw [hanew, hrim]
        exact hpans1 p hp
      rw [hpan]
      exact ⟨rfl, rfl⟩
  · refine ⟨_, congrArg Host.Outcome.next (if_pos ⟨hst, hdue⟩), rfl, ?_⟩
    exact tget_tset_of_ne _ _ _ _ fun hz => by cases congrArg Meter.last hz

end Sys2Proof.Machine

open Sys2Proof Sys2Proof.Machine

/-- Settles O45: a sample by the pans it measures, a tick by what no later part of it changes, an interval by its three charges. That power and
energy are integers that round down (log 9), with coefficients of the calibration's own (log 8), are the model's readings. -/
theorem thermalTickAndEnergy : Obligations.ThermalTickAndEnergy := ⟨temperatures_move_the_limit, the_tick_moves_the_cap, energy_is_metered⟩
end

section
/-! Pans that bring-up takes out of service: what the tide, the sluices and the module's report show of it (10 R255; 15 R375). -/

namespace Sys2Proof.Machine

/-- A reason to suspect the module is kept, and all else is told. -/
theorem suspect_eq (bit : Nat) (s : State) : ∃ h rep, suspect bit s =
    { s with rel := { s.rel with suspect := setBit s.rel.suspect bit true }, host := h, said := s.said ++ rep } := by
  unfold suspect
  dsimp only
  split
  · obtain ⟨h, ht⟩ := postOps_frame ⟨6, stOK, 0, 15, [(setBit s.rel.suspect bit true).toNat]⟩
      { s with rel := { s.rel with suspect := setBit s.rel.suspect bit true } }
    exact ⟨h, _, by rw [ht]; rfl⟩
  · exact ⟨_, [], by rw [List.append_nil]⟩

theorem suspect_bit (s : State) {bit : Nat} (h : bit < 10) : (suspect bit s).rel.suspect.getLsbD bit = true := by
  obtain ⟨_, _, hs⟩ := suspect_eq bit s
  rw [hs]
  exact (getLsbD_setBit ..).trans (if_pos ⟨rfl, h⟩)

/-- A pan that leaves the tide as the module becomes suspect. -/
theorem suspect_leaveTide_eq (bit p : Nat) (s : State) : ∃ rl h rep ns pe, suspect bit (leaveTide p s) =
    { s with rel := rl, host := h, said := s.said ++ rep, nodes := ns, sluices := (leaveTide p s).sluices,
             tide := { s.tide with live := s.tide.live &&& ~~~ BitVec.ofNat 96 (2 ^ p), pend := pe } } := by
  obtain ⟨pe, ns, sl, ht⟩ := leaveTide_frame p s
  obtain ⟨h, rep, hs⟩ := suspect_eq bit (leaveTide p s)
  rw [hs, ht]
  exact ⟨_, h, rep, ns, pe, rfl⟩

-- The times of the sluices ---------------------------------------------------------------------------------------

/-- The measured time of a sluice, its delay and its ceiling. -/
def Sluice.times (x : Sluice) : Nat × Nat × Nat := (x.lat, x.d, x.cap)

/-- The times of every sluice are those of before, in a table that stays canonical. -/
def SameTimes (s t : State) : Prop :=
  twf Sluice.zero t.sluices = true ∧ ∀ n, (getSluice t n).times = (getSluice s n).times

theorem SameTimes.refl {s : State} (hwf : twf Sluice.zero s.sluices = true) : SameTimes s s := ⟨hwf, fun _ => rfl⟩

theorem SameTimes.trans {s t u : State} (h : SameTimes s t) (h' : SameTimes t u) : SameTimes s u :=
  ⟨h'.1, fun n => (h'.2 n).trans (h.2 n)⟩

theorem SameTimes.setSluice {s t : State} (h : SameTimes s t) {i : Nat} {x : Sluice} (hx : x.times = (getSluice t i).times) :
    SameTimes s (setSluice t i x) := by
  refine ⟨twf_tset _ _ _ _ h.1, fun n => ?_⟩
  by_cases hn : n = i
  · rw [hn, show getSluice (Machine.setSluice t i x) i = x from tget_tset_same _ _ _ _ h.1, hx]
    exact h.2 i
  · rw [show getSluice (Machine.setSluice t i x) n = getSluice t n from tget_tset_ne _ _ _ _ _ hn]
    exact h.2 n

theorem SameTimes.leaveSide {s t : State} (h : SameTimes s t) (p k : Nat) : SameTimes s (leaveSide p t k) := by
  have hempty : SameTimes s (emptiedSluice (4 * p + k) t) := by
    unfold emptiedSluice
    split
    · exact h
    · exact h.setSluice rfl
  have hdrop : ∀ i u, SameTimes s u → SameTimes s (droppedSluice i u) := fun i u hu => by
    unfold droppedSluice
    split
    · exact hu
    · exact hu.setSluice rfl
  unfold Machine.leaveSide
  split
  · exact hdrop _ _ hempty
  · exact hempty

theorem sameTimes_leaveTide {s : State} (hwf : twf Sluice.zero s.sluices = true) (p : Nat) : SameTimes s (leaveTide p s) := by
  cases hlive : panLive s p with
  | false =>
    rw [leaveTide_of_dark hlive]
    exact .refl hwf
  | true =>
    obtain ⟨_, _, hout⟩ := outOfTide_frame p s
    rw [leaveTide_of_live hlive]
    exact List.foldlRecOn (motive := SameTimes s) _ _ (by rw [hout]; exact ⟨hwf, fun _ => rfl⟩) fun t ht k _ => ht.leaveSide p k

-- A dark pan -----------------------------------------------------------------------------------------------------

theorem panLive_bringDark (p q : Nat) (s : State) : panLive (bringDark p s) q = (panLive s q && !decide (q = p)) := by
  obtain ⟨_, _, _, _, _, h⟩ := suspect_leaveTide_eq 1 p (modPwr s p (fun x => { x with st := 5 }))
  unfold bringDark
  rw [h]
  exact getLsbD_without s.tide.live p q

/-- A pan that bring-up makes dark: its stage, the tide and what is told. -/
theorem bringDark_frame (p : Nat) (s : State) : ∃ rl h rep ns sl pe, bringDark p s =
    { s with power := { s.power with pans := tset PanPwr.zero s.power.pans p { getPwr s p with st := 5 } }, rel := rl, host := h,
             said := s.said ++ rep, nodes := ns, sluices := sl,
             tide := { s.tide with live := s.tide.live &&& ~~~ BitVec.ofNat 96 (2 ^ p), pend := pe } } := by
  obtain ⟨rl, h, rep, ns, pe, hs⟩ := suspect_leaveTide_eq 1 p (modPwr s p (fun x => { x with st := 5 }))
  exact ⟨rl, h, rep, ns, _, pe, hs⟩

theorem bringShort_frame (p : Nat) (s : State) : ∃ rl h rep ns sl pe, bringShort p s =
    { s with power := { s.power with pans := tset PanPwr.zero s.power.pans p { getPwr s p with st := 2, brk := true } }, rel := rl, host := h,
             said := s.said ++ (rep ++ [(2, [3#8, BitVec.ofNat 8 p])]), nodes := ns, sluices := sl,
             tide := { s.tide with live := s.tide.live &&& ~~~ BitVec.ofNat 96 (2 ^ p), pend := pe } } := by
  obtain ⟨rl, h, rep, ns, pe, hs⟩ := suspect_leaveTide_eq 1 p (modPwr s p (fun x => { x with st := 2, brk := true }))
  refine ⟨rl, h, rep, ns, (leaveTide p (modPwr s p (fun x => { x with st := 2, brk := true }))).sluices, pe, ?_⟩
  rw [← List.append_assoc]
  exact congrArg (pldm 3 p) hs

theorem sameTimes_bringDark {s : State} (hwf : twf Sluice.zero s.sluices = true) (p : Nat) : SameTimes s (bringDark p s) := by
  obtain ⟨_, _, _, _, _, hs⟩ := suspect_leaveTide_eq 1 p (modPwr s p (fun x => { x with st := 5 }))
  obtain ⟨hwf', htimes⟩ := sameTimes_leaveTide (s := modPwr s p (fun x => { x with st := 5 })) hwf p
  unfold bringDark
  rw [hs]
  exact ⟨hwf', htimes⟩

end Sys2Proof.Machine
end

section
/-! O50: from power good to the firmware, P2 and the training of the stacks (10 R244; 12 R286; 14 R335, R338; 15 R369, R370, R372 to R375, R395;
16 R422; 17 R432). -/

namespace Sys2Proof.Machine

open Sys2Proof.Claims

-- P0 -------------------------------------------------------------------------------------------------------------

/-- One pan of a group that P0 switches on. -/
def switchedOn (stages : Stages) (g : Nat) (s : State) (i : Nat) : State :=
  if stages.shorted.getLsbD i then bringShort (8 * g + i) s
  else if stages.bad.getLsbD i then bringDark (8 * g + i) s
  else modPwr s (8 * g + i) (fun x => { x with st := 1, set := railOf s (8 * g + i) s.tide.rate })

/-- The stage of a pan as P0 leaves it. -/
def stageOn (stages : Stages) (g : Nat) (s : State) (i : Nat) : PanPwr :=
  let x := getPwr s (8 * g + i)
  if stages.shorted.getLsbD i then { x with st := 2, brk := true }
  else if stages.bad.getLsbD i then { x with st := 5 }
  else { x with st := 1, set := railOf s (8 * g + i) s.tide.rate }

theorem stageOn_ne_zero (stages : Stages) (g : Nat) (s : State) (i : Nat) : stageOn stages g s i ≠ PanPwr.zero := by
  unfold stageOn
  dsimp only
  split
  · exact fun hz => by cases congrArg PanPwr.st hz
  · split
    · exact fun hz => by cases congrArg PanPwr.st hz
    · exact fun hz => by cases congrArg PanPwr.st hz

/-- Switching a pan on sets its stage and may take it out of the tide; what is told stands at the end. -/
theorem switchedOn_frame (stages : Stages) (g : Nat) (s : State) (i : Nat) : ∃ rl h rep ns sl lv pe, switchedOn stages g s i =
    { s with power := { s.power with pans := tset PanPwr.zero s.power.pans (8 * g + i) (stageOn stages g s i) }, rel := rl, host := h,
             said := s.said ++ rep, nodes := ns, sluices := sl, tide := { s.tide with live := lv, pend := pe } } ∧
    (∀ q, s.tide.live.getLsbD q = false → lv.getLsbD q = false) ∧
    (stages.shorted.getLsbD i = true → (2, [3#8, BitVec.ofNat 8 (8 * g + i)]) ∈ rep) ∧
    (stages.shorted.getLsbD i = false → stages.bad.getLsbD i = true → lv.getLsbD (8 * g + i) = false) := by
  unfold switchedOn stageOn
  dsimp only
  have hless : ∀ p q, s.tide.live.getLsbD q = false → (s.tide.live &&& ~~~ BitVec.ofNat 96 (2 ^ p)).getLsbD q = false := fun p q hq => by
    rw [getLsbD_without, hq, Bool.false_and]
  split
  · next hshort =>
    obtain ⟨rl, h, rep, ns, sl, pe, hs⟩ := bringShort_frame (8 * g + i) s
    exact ⟨rl, h, _, ns, sl, _, pe, hs, hless _, fun _ => List.mem_append_right _ List.mem_cons_self,
      fun hno => by cases hshort.symm.trans hno⟩
  · next hshort =>
    split
    · obtain ⟨rl, h, rep, ns, sl, pe, hs⟩ := bringDark_frame (8 * g + i) s
      exact ⟨rl, h, rep, ns, sl, _, pe, hs, hless _, fun hyes => absurd hyes hshort,
        fun _ _ => by rw [getLsbD_without, decide_eq_true rfl, Bool.not_true, Bool.and_false]⟩
    · next hbad =>
      exact ⟨_, _, [], _, _, _, _, by rw [List.append_nil]; rfl, fun _ hq => hq, fun hyes => absurd hyes hshort, fun _ hyes => absurd hyes hbad⟩

theorem getPwr_switchedOn (stages : Stages) (g : Nat) (s : State) (i : Nat) : getPwr (switchedOn stages g s i) (8 * g + i) = stageOn stages g s i := by
  obtain ⟨_, _, _, _, _, _, _, h, -⟩ := switchedOn_frame stages g s i
  rw [h]
  exact tget_tset_of_ne _ _ _ _ (stageOn_ne_zero stages g s i)

theorem getPwr_switchedOn_ne (stages : Stages) (g : Nat) (s : State) (i j : Nat) (hj : j ≠ i) :
    getPwr (switchedOn stages g s i) (8 * g + j) = getPwr s (8 * g + j) := by
  obtain ⟨_, _, _, _, _, _, _, h, -⟩ := switchedOn_frame stages g s i
  rw [h]
  exact tget_tset_ne _ _ _ _ _ (by omega)

/-- How P0 leaves a pan does not turn on the other pans of its group. -/
theorem stageOn_switchedOn (stages : Stages) (g : Nat) (s : State) (i j : Nat) (hj : j ≠ i) :
    stageOn stages g (switchedOn stages g s i) j = stageOn stages g s j := by
  have hget := getPwr_switchedOn_ne stages g s i j hj
  obtain ⟨_, _, _, _, _, _, _, h, -⟩ := switchedOn_frame stages g s i
  have hrail : railOf (switchedOn stages g s i) (8 * g + j) (switchedOn stages g s i).tide.rate = railOf s (8 * g + j) s.tide.rate := by
    unfold railOf vfOf
    rw [hget, h]
  unfold stageOn
  rw [hget, hrail]

/-- The module as P0 leaves a group. -/
def groupOn (stages : Stages) (g : Nat) (s : State) : State :=
  (List.range 8).foldl (switchedOn stages g) { s with boot := { s.boot with groups := setBit s.boot.groups g true } }

theorem exec_panGroupSwitchOn {g : Fin 12} {stages : Stages} {s : State} (hgood : s.boot.good = true) (hg : s.boot.groups.getLsbD g = false)
    (hbefore : ∀ i, i < (g : Nat) → s.boot.groups.getLsbD i = true) : exec (.panGroupSwitchOn g stages) s = .next (groupOn stages g s) := by
  have hall : (List.range g).all (fun i => s.boot.groups.getLsbD i) = true :=
    List.all_eq_true.mpr fun i hi => hbefore i (List.mem_range.mp hi)
  refine congrArg Host.Outcome.next (if_neg ?_)
  rw [hgood, hg, hall]
  exact Bool.false_ne_true

section
variable (stages : Stages) (g : Nat) (s : State)

theorem groupOn_fields : (groupOn stages g s).boot = { s.boot with groups := setBit s.boot.groups g true } ∧ (groupOn stages g s).cores = s.cores :=
  List.foldlRecOn (motive := fun t : State => t.boot = { s.boot with groups := setBit s.boot.groups g true } ∧ t.cores = s.cores) (List.range 8)
    (switchedOn stages g) ⟨rfl, rfl⟩ fun t ⟨hb, hc⟩ i _ => by
      obtain ⟨_, _, _, _, _, _, _, h, -⟩ := switchedOn_frame stages g t i
      rw [h]
      exact ⟨hb, hc⟩

theorem getPwr_groupOn {i : Nat} (hi : i < 8) : getPwr (groupOn stages g s) (8 * g + i) = stageOn stages g s i :=
  (get_foldl_of_nodup (get := fun s i => getPwr s (8 * g + i)) (g := stageOn stages g) (I := fun _ => True) (fun _ _ _ => trivial)
    (fun s i _ => getPwr_switchedOn stages g s i) (fun s i j _ => getPwr_switchedOn_ne stages g s i j)
    (fun s i j _ => stageOn_switchedOn stages g s i j) List.nodup_range trivial i).trans (if_pos (List.mem_range.mpr hi))

theorem shorted_is_told {i : Nat} (hi : i < 8) (hshort : stages.shorted.getLsbD i = true) :
    (2, [3#8, BitVec.ofNat 8 (8 * g + i)]) ∈ (groupOn stages g s).said :=
  foldl_of_mem (I := fun _ => True) (P := fun t : State => (2, [3#8, BitVec.ofNat 8 (8 * g + i)]) ∈ t.said) (List.mem_range.mpr hi) trivial
    (fun _ _ _ _ => trivial)
    (fun t _ => by
      obtain ⟨_, _, _, _, _, _, _, h, -, htold, -⟩ := switchedOn_frame stages g t i
      rw [h]
      exact List.mem_append_right _ (htold hshort))
    (fun t j _ ht => by
      obtain ⟨_, _, _, _, _, _, _, h, -⟩ := switchedOn_frame stages g t j
      rw [h]
      exact List.mem_append_left _ ht)

theorem bad_is_dark {i : Nat} (hi : i < 8) (hshort : stages.shorted.getLsbD i = false) (hbad : stages.bad.getLsbD i = true) :
    panLive (groupOn stages g s) (8 * g + i) = false :=
  foldl_of_mem (I := fun _ => True) (P := fun t : State => panLive t (8 * g + i) = false) (List.mem_range.mpr hi) trivial
    (fun _ _ _ _ => trivial)
    (fun t _ => by
      obtain ⟨_, _, _, _, _, _, _, h, -, -, hdark⟩ := switchedOn_frame stages g t i
      rw [h]
      exact hdark hshort hbad)
    (fun t j _ ht => by
      obtain ⟨_, _, _, _, _, _, _, h, hless, -⟩ := switchedOn_frame stages g t j
      rw [h]
      exact hless _ ht)

end

-- The link and the offer -----------------------------------------------------------------------------------------

/-- The module with an offer answered; a good one starts the firmware (15 R372). -/
def offered (st : Nat) (image : List Byte) (s : State) : State :=
  say 2 [0x81#8, BitVec.ofNat 8 st, 0, 0] (if st = stOK then startFirmware image s else s)

theorem exec_bootOffer {resv : Bool} {addr : BitVec 64} {len : Word} {image : List Byte} {s : State} {st : Nat} (hgood : s.boot.good = true)
    (hst : offerStatus resv addr len image s = st) : exec (.bootOffer resv addr len image) s = .next (offered st (image.take len.toNat) s) := by
  subst hst
  rw [show exec (.bootOffer resv addr len image) s = execBootOffer resv addr len image s from rfl, execBootOffer, hgood]
  rfl

section
variable {resv : Bool} {addr : BitVec 64} {len : Word} {image : List Byte} {s : State} (hlink : s.boot.linkUp = true) (hp1 : s.boot.p1 = false)
include hlink hp1

theorem offerStatus_of_reserved (hbad : resv = true ∨ addr.toNat % 4096 ≠ 0) : offerStatus resv addr len image s = stFormat := by
  unfold offerStatus
  dsimp only
  rw [hlink, hp1, if_neg (by decide), if_pos hbad]

/-- The status of an offer of a legal size, by what the image says of itself (15 R373, R374). -/
theorem offerStatus_of_legal (hresv : resv = false) (halign : addr.toNat % 4096 = 0) (hlo : 4096 ≤ len.toNat) (hhi : len.toNat ≤ 67108864) :
    offerStatus resv addr len image s = match Config.imageVersion (image.take len.toNat) with
      | none => stFormat
      | some (svn, _) => if !Config.sigOk 0 (image.take len.toNat) ∨ svn < s.fuse.fw then stAuth else stOK := by
  have hbad : ¬(resv = true ∨ addr.toNat % 4096 ≠ 0) := by
    rw [hresv]
    exact fun h => h.elim Bool.false_ne_true fun h => h halign
  unfold offerStatus
  dsimp only
  rw [hlink, hp1, if_neg (by decide), if_neg hbad, if_neg (by omega)] <;> rfl

end

theorem bring_up_starts_the_firmware : Claims.BringUpStartsTheFirmware := by
  intro s g bad shorted width resv addr len image up
  refine ⟨fun hgood => ?_, rfl, fun hgood => ⟨fun hg hbefore => ?_, ?_, fun hlink hp1 hlo hhi => ?_⟩⟩
  · rw [show exec .powerGood s = execPowerGood s from rfl, execPowerGood, hgood]
    refine congrArg Host.Outcome.next (if_congr ?_ rfl rfl)
    rw [Bool.not_false, Bool.and_true, Bool.and_eq_true]
  · obtain ⟨hboot, hcores⟩ := groupOn_fields ⟨bad, shorted⟩ g s
    refine ⟨_, exec_panGroupSwitchOn hgood hg hbefore, hboot, hcores, fun i hi => ?_⟩
    have hget := getPwr_groupOn ⟨bad, shorted⟩ g s hi
    unfold stageOn at hget
    dsimp only at hget
    split
    · next hshort =>
      rw [if_pos hshort] at hget
      exact ⟨hget, shorted_is_told ⟨bad, shorted⟩ g s hi hshort⟩
    · next hshort =>
      rw [if_neg hshort] at hget
      split
      · next hbad =>
        rw [if_pos hbad] at hget
        exact ⟨by rw [hget], bad_is_dark ⟨bad, shorted⟩ g s hi (Bool.eq_false_of_not_eq_true hshort) hbad⟩
      · next hbad =>
        rw [if_neg hbad] at hget
        exact hget
  · have hwidth : 8 / 2 ^ (width : Nat) < 8 ↔ ¬width = 0 := by revert width; decide
    rw [show exec (.cxlLinkUp width) s = execCxlLinkUp width s from rfl, execCxlLinkUp, hgood]
    refine congrArg Host.Outcome.next ((if_congr hwidth rfl rfl).trans ?_)
    exact ite_not ..
  · refine ⟨fun hbad => exec_bootOffer hgood (offerStatus_of_reserved hlink hp1 hbad), fun hresv halign => ?_⟩
    rw [exec_bootOffer hgood (offerStatus_of_legal hlink hp1 hresv halign hlo hhi)]
    dsimp only
    cases Config.imageVersion (image.take len.toNat) with
    | none => rfl
    | some v =>
      dsimp only
      by_cases hauth : (!Config.sigOk 0 (image.take len.toNat)) = true ∨ v.1 < s.fuse.fw
      · rw [if_pos hauth, if_pos hauth]
        rfl
      · rw [if_neg hauth, if_neg hauth]
        rfl

-- P2 and the stacks ----------------------------------------------------------------------------------------------

/-- A sluice as calibrated from its measured times (10 R244). -/
def calibrated (lats : List (Nat × Nat)) (s : State) (n : Nat) : Sluice :=
  let x := getSluice s n
  let a := min 255 (lats.getD n (0, 0)).1
  let b := min 255 (lats.getD n (0, 0)).2
  let x1 := { x with d := (sluiceD a).1, cap := (sluiceD a).2, lat := a }
  if rimSide (n / 4) (n % 4) then { x1 with dOut := (sluiceD b).1, capOut := (sluiceD b).2, latOut := b } else x1

theorem calibrate_eq (lats : List (Nat × Nat)) (s : State) (n : Nat) : calibrate n (lats.getD n (0, 0)) s = setSluice s n (calibrated lats s n) := rfl

/-- The times of a calibrated sluice turn on the measured inward time alone. -/
theorem times_calibrated (lats : List (Nat × Nat)) (s : State) (n : Nat) :
    let a := min 255 (lats.getD n (0, 0)).1
    (calibrated lats s n).times = (a, (sluiceD a).1, (sluiceD a).2) := by
  unfold calibrated
  dsimp only
  split <;> rfl

theorem sluiceD_eq (a : Nat) : sluiceD a = (min 12 (4 + ceilDiv (a + 4) 8), if 12 < 4 + ceilDiv (a + 4) 8 then 3200 / (a + 4) else 50) := by
  unfold sluiceD
  dsimp only
  split
  · next h => rw [Nat.min_eq_left (Nat.le_of_lt h)]
  · next h => rw [Nat.min_eq_right (Nat.not_lt.mp h)]

/-- Sluices calibrated in turn. -/
def calibrateAll (lats : List (Nat × Nat)) (s : State) : State := (List.range 384).foldl (fun s n => calibrate n (lats.getD n (0, 0)) s) s

theorem calibrateAll_frame (lats : List (Nat × Nat)) {s : State} (hwf : twf Sluice.zero s.sluices = true) :
    ∃ sl, twf Sluice.zero sl = true ∧ calibrateAll lats s = { s with sluices := sl } :=
  List.foldlRecOn (motive := fun t : State => ∃ sl, twf Sluice.zero sl = true ∧ t = { s with sluices := sl }) (List.range 384)
    (fun s n => calibrate n (lats.getD n (0, 0)) s) ⟨_, hwf, rfl⟩ fun t ⟨sl, hsl, ht⟩ n _ => by
      rw [ht]
      exact ⟨_, twf_tset _ _ _ _ hsl, rfl⟩

theorem getSluice_calibrateAll (lats : List (Nat × Nat)) {s : State} (hwf : twf Sluice.zero s.sluices = true) {n : Nat} (hn : n < 384) :
    getSluice (calibrateAll lats s) n = calibrated lats s n := by
  have hother : ∀ s p q, q ≠ p → getSluice (calibrate p (lats.getD p (0, 0)) s) q = getSluice s q := fun s p q hq => tget_tset_ne _ _ _ _ _ hq
  refine (get_foldl_of_nodup (get := getSluice) (g := calibrated lats)
    (f := fun s n => calibrate n (lats.getD n (0, 0)) s) (I := fun s => twf Sluice.zero s.sluices = true)
    (fun s p h => twf_tset _ _ _ _ h) (fun s p h => tget_tset_same _ _ _ _ h) (fun s p q _ => hother s p q) (fun s p q _ hq => ?_)
    List.nodup_range hwf n).trans (if_pos (List.mem_range.mpr hn))
  unfold calibrated
  rw [hother s p q hq]

/-- Pans made dark, where they are not yet. -/
def darkenAll (ps : List Nat) (s : State) : State := ps.foldl (fun s p => if panLive s p then bringDark p s else s) s

theorem panLive_darkenAll (ps : List Nat) (s : State) (q : Nat) : panLive (darkenAll ps s) q = (panLive s q && !ps.contains q) := by
  unfold darkenAll
  induction ps generalizing s with
  | nil => exact (Bool.and_true _).symm
  | cons p ps ih =>
    have hstep : panLive (if panLive s p then bringDark p s else s) q = (panLive s q && !decide (q = p)) := by
      split
      · exact panLive_bringDark p q s
      · next hdark =>
        by_cases hq : q = p
        · rw [hq, Bool.eq_false_of_not_eq_true hdark, Bool.false_and]
        · rw [decide_eq_false hq, Bool.not_false, Bool.and_true]
    rw [List.foldl_cons, ih, hstep, List.contains_cons, Bool.and_assoc, Bool.not_or]
    rfl

/-- What darkening pans leaves: the cores, bring-up's own state, and the times of the sluices. -/
theorem darkenAll_same (ps : List Nat) {s : State} (hwf : twf Sluice.zero s.sluices = true) :
    (darkenAll ps s).cores = s.cores ∧ (darkenAll ps s).boot = s.boot ∧ (darkenAll ps s).stuck = s.stuck ∧ SameTimes s (darkenAll ps s) :=
  List.foldlRecOn (motive := fun t : State => t.cores = s.cores ∧ t.boot = s.boot ∧ t.stuck = s.stuck ∧ SameTimes s t) ps
    (fun s p => if panLive s p then bringDark p s else s) ⟨rfl, rfl, rfl, .refl hwf⟩ fun t ⟨hc, hb, hs, ht⟩ p _ => by
      split
      · have htimes := ht.trans (sameTimes_bringDark ht.1 p)
        obtain ⟨_, _, _, _, _, _, h⟩ := bringDark_frame p t
        refine ⟨?_, ?_, ?_, htimes⟩ <;> rw [h]
        · exact hc
        · exact hb
        · exact hs
      · exact ⟨hc, hb, hs, ht⟩

/-- Every core zeroised. -/
def zeroiseAll (s : State) : State := mapCores s (fun _ _ => true) (fun _ c => zeroise c)

theorem exec_p2Mesh {lats : List (Nat × Nat)} {bad : List (Fin 96)} {s : State} (hp1 : s.boot.p1 = true) (hp2 : s.boot.p2 = false)
    (hgroups : s.boot.groups = BitVec.allOnes 12) : exec (.p2Mesh lats bad) s = .next (computeLanes (readback (fun _ => true)
      (darkenAll (bad.map Fin.val) (calibrateAll lats (zeroiseAll { s with boot := { s.boot with p2 := true } }))))) := by
  have hgo : ¬((!s.boot.p1 || s.boot.p2 || decide (s.boot.groups ≠ BitVec.allOnes 12)) = true) := by
    rw [hp1, hp2, hgroups]
    decide
  have hmap : (bad.map Fin.val : List Nat) = (do let p ← bad; pure (p : Nat)) := List.map_eq_flatMap
  rw [hmap]
  exact congrArg Host.Outcome.next (if_neg hgo)

theorem contains_map_val (bad : List (Fin 96)) (q : Fin 96) : (bad.map Fin.val).contains (q : Nat) = bad.contains q := by
  rw [Bool.eq_iff_iff, List.contains_iff_mem, List.contains_iff_mem]
  exact List.mem_map_of_injective Fin.val_injective

theorem getEng_setEng_of_failed (s : State) (e : Nat) {x : Engine48} (h : x.failed = true) : getEng (setEng s e x) e = x :=
  tget_tset_of_ne _ _ _ _ fun hz => by cases h.symm.trans (congrArg Engine48.failed hz)

theorem earlyNow_frame (s : State) : ∃ h, earlyNow s = { s with host := h } := by
  unfold earlyNow
  split <;> exact ⟨_, rfl⟩

theorem exec_stackTraining {e : Fin 48} {s : State} (hp1 : s.boot.p1 = true) (htrained : (getEng s e).trained = false)
    (hfailed : (getEng s e).failed = false) (ok : Bool) : exec (.stackTraining e ok) s =
      let s1 := setEng s e { getEng s e with trained := ok, failed := !ok }
      .next (earlyNow (if ok then s1 else suspect 0 (pldm 6 e s1))) := by
  refine congrArg Host.Outcome.next (if_neg ?_)
  rw [hp1, htrained, hfailed]
  exact Bool.false_ne_true

theorem bring_up_prepares_the_mesh : Claims.BringUpPreparesTheMesh := by
  intro s lats bad e
  refine ⟨fun hp1 hp2 hgroups hwf hstuck => ?_, fun hp1 htrained hfailed => ⟨?_, ?_⟩⟩
  · have hcanon := (tablesWf_iff s).mp hwf
    let s1 := zeroiseAll { s with boot := { s.boot with p2 := true } }
    obtain ⟨sl, hsl, hcal⟩ := calibrateAll_frame lats (s := s1) hcanon.sluices
    have hget := fun {n : Nat} (hn : n < 384) => getSluice_calibrateAll lats (s := s1) hcanon.sluices hn
    obtain ⟨hcores, hboot, hs, htimes⟩ := darkenAll_same (bad.map Fin.val) (s := calibrateAll lats s1) (by rw [hcal]; exact hsl)
    have hlive := panLive_darkenAll (bad.map Fin.val) (calibrateAll lats s1)
    have hread : readback (fun _ => true) (darkenAll (bad.map Fin.val) (calibrateAll lats s1)) = darkenAll (bad.map Fin.val) (calibrateAll lats s1) :=
      readback_of_none_stuck fun x hx => by
        rw [hs, hcal, show s1.stuck = [] from hstuck] at hx
        cases hx
    have hrun := exec_p2Mesh (lats := lats) (bad := bad) hp1 hp2 hgroups
    rw [show zeroiseAll _ = s1 from rfl, hread] at hrun
    refine ⟨_, hrun, ?_, fun g => ?_, fun n hn => ?_, fun p => ?_⟩
    · exact hboot.trans (by rw [hcal]; rfl)
    · refine (congrArg (tget Core.zero · g) (hcores.trans (by rw [hcal]))).trans ?_
      exact getCore_mapCores (s := { s with boot := { s.boot with p2 := true } }) hcanon.cores fun _ => zeroise_zero
    · have hn' := (htimes.2 n).trans ((congrArg Sluice.times (hget hn)).trans (times_calibrated lats s1 n))
      rw [sluiceD_eq] at hn'
      obtain ⟨hlat, hrest⟩ := Prod.mk.inj hn'
      obtain ⟨hd, hcap⟩ := Prod.mk.inj hrest
      exact ⟨hlat, hd, hcap⟩
    · exact (hlive p).trans (by rw [hcal, contains_map_val]; rfl)
  · rw [exec_stackTraining hp1 htrained hfailed, show (!true) = (getEng s e).failed from hfailed.symm]
    rfl
  · obtain ⟨h, hearly⟩ := earlyNow_frame (suspect 0 (pldm 6 e (setEng s e { getEng s e with trained := false, failed := true })))
    refine ⟨_, exec_stackTraining hp1 htrained hfailed false, ?_⟩
    dsimp only
    rw [if_neg Bool.false_ne_true, show (!false) = true from rfl, hearly]
    refine ⟨?_, suspect_bit _ (by decide)⟩
    obtain ⟨_, _, hs⟩ := suspect_eq 0 (pldm 6 e (setEng s e { getEng s e with trained := false, failed := true }))
    rw [hs]
    refine (getEng_setEng_of_failed s e rfl).trans ?_
    rw [← htrained]

end Sys2Proof.Machine

open Sys2Proof Sys2Proof.Machine

/-- Settles O50: P0 by the pans of the group, an offer by the ROM's checks, P2 by its three passes over cores, sluices and pans. What a module reset
keeps (log 51), in what order groups switch on and when an offer is STATE (log 83), that a core that does not read back as 0 takes its pan dark
(log 115) and that the two bits of mating are never changed (log 117) are the model's readings. -/
theorem bringUpToTheMesh : Obligations.BringUpToTheMesh := ⟨bring_up_starts_the_firmware, bring_up_prepares_the_mesh⟩
end

section
/-! O51, P3: a pan numbered, with its DEFECT positions (15 R380 to R383; 01 R17; 16 R422). -/

namespace Sys2Proof.Machine

open Sys2Proof.Claims

theorem panOf_coreAt {p l : Nat} (hl : l < 9600) : panOf (coreAt p l) = p := by
  unfold panOf gY gX coreAt
  omega

/-- A DEFECT core. -/
def defectCore : Core := { Core.zero with r := { CoreRegs.zero with st := .defect } }

theorem defectCore_ne_zero : defectCore ≠ Core.zero := fun hz => by cases congrArg (fun c : Core => c.r.st) hz

theorem zeroise_defectCore : zeroise defectCore = defectCore := if_pos rfl

/-- A position that is DEFECT, with its router in PASS. -/
def markDefect (p : Nat) (s : State) (l : Nat) : State :=
  modRouter (setCore s (coreAt p l) defectCore) (coreAt p l) (fun r => { r with mode := 1 })

theorem markDefect_cores (p : Nat) (s : State) (l : Nat) : (markDefect p s l).cores = tset Core.zero s.cores (coreAt p l) defectCore := rfl

theorem markDefect_routers (p : Nat) (s : State) (l : Nat) :
    (markDefect p s l).routers = tset Router.zero s.routers (coreAt p l) { getRouter s (coreAt p l) with mode := 1 } := rfl

def markDefects (p : Nat) (ds : List Nat) (s : State) : State := ds.foldl (markDefect p) s

/-- A pan's numbers and its test interval, with its cores zeroised. -/
theorem numberPan_eq (p : Nat) (ds : List Nat) (s : State) : numberPan p ds s =
    let s2 := mapCores (markDefects p ds s) (fun g _ => decide (panOf g = p)) (fun _ c => zeroise c)
    setTest (setPan s2 p { getPan s2 p with defects := ds, num := some p }) p { getTest s2 p with passAt := s.time } := rfl

theorem markDefects_frame (p : Nat) (ds : List Nat) (s : State) : ∃ cs rs, markDefects p ds s = { s with cores := cs, routers := rs } :=
  List.foldlRecOn (motive := fun t : State => ∃ cs rs, t = { s with cores := cs, routers := rs }) ds (markDefect p) ⟨_, _, rfl⟩
    fun t ⟨_, _, ht⟩ l _ => by
      rw [ht]
      exact ⟨_, _, rfl⟩

theorem twf_markDefects (p : Nat) (ds : List Nat) {s : State} (hwf : twf Core.zero s.cores = true) :
    twf Core.zero (markDefects p ds s).cores = true :=
  foldl_inv (I := fun s : State => twf Core.zero s.cores = true) (f := markDefect p) (fun s l h => by
    rw [markDefect_cores]
    exact twf_tset _ _ _ _ h) ds hwf

/-- A core of a position that is named is DEFECT, and every other is as before. -/
theorem getCore_markDefects (p : Nat) (ds : List Nat) (s : State) (g : Nat) :
    getCore (markDefects p ds s) g = if g ∈ ds.map (coreAt p) then defectCore else getCore s g := by
  unfold markDefects
  induction ds generalizing s with
  | nil => rfl
  | cons l ds ih =>
    rw [List.foldl_cons, ih, List.map_cons]
    by_cases hg : g = coreAt p l
    · have hset : getCore (markDefect p s l) g = defectCore := by
        rw [hg, getCore, markDefect_cores]
        exact tget_tset_of_ne Core.zero s.cores _ _ defectCore_ne_zero
      rw [hset, ite_self, if_pos (List.mem_cons.mpr (.inl hg))]
    · have hkeep : getCore (markDefect p s l) g = getCore s g := by
        rw [getCore, markDefect_cores]
        exact tget_tset_ne _ _ _ _ _ hg
      rw [hkeep]
      exact if_congr ⟨List.mem_cons_of_mem _, fun hm => (List.mem_cons.mp hm).resolve_left hg⟩ rfl rfl

theorem mode_markDefects (p : Nat) {ds : List Nat} (s : State) {l : Nat} (hl : l ∈ ds) : (getRouter (markDefects p ds s) (coreAt p l)).mode = 1 := by
  have hset : ∀ t j, coreAt p j = coreAt p l → (getRouter (markDefect p t j) (coreAt p l)).mode = 1 := fun t j hj => by
    rw [getRouter, markDefect_routers, hj, tget_tset_of_ne _ _ _ _ fun hz => absurd (congrArg Router.mode hz) (by exact Nat.one_ne_zero)]
  refine foldl_of_mem (I := fun _ => True) (P := fun t : State => (getRouter t (coreAt p l)).mode = 1) (f := markDefect p) hl trivial
    (fun _ _ _ _ => trivial) (fun t _ => hset t l rfl) fun t j _ ht => ?_
  by_cases hj : coreAt p j = coreAt p l
  · exact hset t j hj
  · rw [getRouter, markDefect_routers, tget_tset_ne _ _ _ _ _ (Ne.symm hj)]
    exact ht

section
variable (p : Nat) (ds : List Nat) {s : State}

theorem numberPan_frame (s : State) : ∃ cs rs ps rl, numberPan p ds s = { s with cores := cs, routers := rs, pans := ps, rel := rl } := by
  obtain ⟨cs, rs, h⟩ := markDefects_frame p ds s
  rw [numberPan_eq, h]
  exact ⟨_, rs, _, _, rfl⟩

theorem getPan_numberPan (s : State) : getPan (numberPan p ds s) p = { getPan s p with defects := ds, num := some p } := by
  obtain ⟨cs, rs, h⟩ := markDefects_frame p ds s
  rw [numberPan_eq, h]
  exact tget_tset_of_ne Pan.zero s.pans p _ fun hz => by cases congrArg Pan.num hz

theorem mode_numberPan (s : State) {l : Nat} (hl : l ∈ ds) : (getRouter (numberPan p ds s) (coreAt p l)).mode = 1 := by
  rw [numberPan_eq]
  exact mode_markDefects p s hl

theorem getCore_numberPan (hwf : twf Core.zero s.cores = true) (g : Nat) : getCore (numberPan p ds s) g =
    if panOf g = p then zeroise (if g ∈ ds.map (coreAt p) then defectCore else getCore s g)
    else if g ∈ ds.map (coreAt p) then defectCore else getCore s g := by
  rw [numberPan_eq, ← getCore_markDefects]
  refine (getCore_mapCores (s := markDefects p ds s) (twf_markDefects p ds hwf) fun _ => zeroise_zero).trans ?_
  exact if_congr decide_eq_true_iff rfl rfl

end

theorem mem_defectsOf {s : State} {p : Nat} {bad : List Nat} {l : Nat} (h : l ∈ defectsOf s p bad) : l < 9600 :=
  List.mem_range.mp (List.mem_filter.mp h).1

/-- A pan numbered in the tide counts among the numbered ones, with its good cores. -/
theorem reportedCount_numberPan {s : State} {p : Fin 96} (ds : List Nat) (hlive : panLive s p = true) :
    reportedCount (numberPan p ds s) p = 9600 - ds.length := by
  have hget := getPan_numberPan p ds s
  have hnumbered : (numberedPans (numberPan p ds s)).contains (p : Nat) = true := by
    rw [List.contains_iff_mem, numberedPans, List.mem_filter, hget, mem_livePans]
    obtain ⟨_, _, _, _, h⟩ := numberPan_frame p ds s
    rw [h]
    exact ⟨⟨p.isLt, hlive⟩, rfl⟩
  rw [reportedCount, if_pos hnumbered, goodCount, hget]

theorem exec_p3Kernels {s : State} {p : Fin 96} {bad : List Nat} (hp2 : s.boot.p2 = true) (hlive : panLive s p = true)
    (hnum : (getPan s p).num = none) : exec (.p3Kernels p bad) s = .next (if bad.contains 9600 then bringDark p s
    else
      let ds := defectsOf s p bad
      let s1 := numberPan p ds s
      earlyNow (readback (fun g => decide (panOf g = (p : Nat)))
        (say 2 (coreReport s1 p) (if 9600 - ds.length < 9216 then suspect 2 s1 else s1)))) := by
  refine congrArg Host.Outcome.next (if_neg ?_)
  rw [hp2, hlive, hnum]
  exact Bool.false_ne_true

/-- What P3 reports of a numbered pan leaves all but what is told. -/
theorem reported_frame (r : List Byte) (few : Prop) [Decidable few] (s : State) : ∃ rl h sd,
    say 2 r (if few then suspect 2 s else s) = { s with rel := rl, host := h, said := sd ++ [(2, r)] } := by
  split
  · obtain ⟨h, rep, hs⟩ := suspect_eq 2 s
    rw [hs]
    exact ⟨_, h, _, rfl⟩
  · exact ⟨_, _, _, rfl⟩

section
variable {s : State} {p : Fin 96} {bad ds : List Nat} (hp2 : s.boot.p2 = true) (hlive : panLive s p = true) (hnum : (getPan s p).num = none)
  (hbad : 9600 ∉ bad) (hstuck : ∀ g ∈ s.stuck, panOf g ≠ (p : Nat)) (hds : defectsOf s p bad = ds)
include hp2 hlive hnum hbad hstuck hds

/-- P3 of a pan whose routers pass and whose cores all read back as cleared. -/
theorem exec_p3Kernels_of_good :
    ∃ t sd, exec (.p3Kernels p bad) s = .next t ∧ t.cores = (numberPan p ds s).cores ∧ t.routers = (numberPan p ds s).routers ∧
      t.pans = (numberPan p ds s).pans ∧ t.tide = (numberPan p ds s).tide ∧ t.said = sd ++ [(2, coreReport (numberPan p ds s) p)] := by
  have hrun := exec_p3Kernels (bad := bad) hp2 hlive hnum
  rw [if_neg (by rw [List.contains_iff_mem]; exact hbad), hds] at hrun
  dsimp only at hrun
  obtain ⟨_, _, _, _, hframe⟩ := numberPan_frame p ds s
  have hstuck1 : (numberPan p ds s).stuck = s.stuck := by rw [hframe]
  generalize numberPan p ds s = s1 at *
  obtain ⟨rl, h, sd, hrep⟩ := reported_frame (coreReport s1 p) (9600 - ds.length < 9216) s1
  have hread : readback (fun g => decide (panOf g = (p : Nat))) { s1 with rel := rl, host := h, said := sd ++ [(2, coreReport s1 p)] } =
      { s1 with rel := rl, host := h, said := sd ++ [(2, coreReport s1 p)] } :=
    readback_of_none_stuck fun g hg => decide_eq_false (hstuck g (by rw [← hstuck1]; exact hg))
  obtain ⟨h', hearly⟩ := earlyNow_frame { s1 with rel := rl, host := h, said := sd ++ [(2, coreReport s1 p)] }
  rw [hrep, hread, hearly] at hrun
  exact ⟨_, sd, hrun, rfl, rfl, rfl, rfl, rfl⟩

/-- P3 numbers a pan: what it reports, its entry, its DEFECT positions and its other cores (15 R380, R381; 01 R17). -/
theorem a_pan_is_numbered (hwf : s.tablesWf = true) :
    ∃ t, exec (.p3Kernels p bad) s = .next t ∧
      t.said.getLast? = some (2, 0x11#8 :: BitVec.ofNat 8 p :: nbytes 2 (9600 - ds.length) ++ nbytes 4 (goodTotal t)) ∧
      getPan t p = { getPan s p with defects := ds, num := some (p : Nat) } ∧
      (∀ l ∈ ds, (getCore t (coreAt p l)).r.st = .defect ∧ (getRouter t (coreAt p l)).mode = 1) ∧
      (∀ g, panOf g = (p : Nat) → (∀ l ∈ ds, g ≠ coreAt p l) → getCore t g = zeroise (getCore s g)) ∧
      ∀ g, panOf g ≠ (p : Nat) → getCore t g = getCore s g := by
  have hlt : ∀ l ∈ ds, l < 9600 := fun l hl => mem_defectsOf (by rw [hds]; exact hl)
  obtain ⟨t, sd, hrun, hcores, hrouters, hpans, htide, hsaid⟩ := exec_p3Kernels_of_good hp2 hlive hnum hbad hstuck hds
  have hcore := fun g => (congrArg (tget Core.zero · g) hcores).trans (getCore_numberPan p ds ((tablesWf_iff s).mp hwf).cores g)
  have hpan : getPan t p = { getPan s p with defects := ds, num := some (p : Nat) } := by rw [getPan, hpans, ← getPan, getPan_numberPan]
  have hmode := fun {l : Nat} (hl : l ∈ ds) =>
    (congrArg (fun rs => (tget Router.zero rs (coreAt p l)).mode) hrouters).trans (mode_numberPan p ds s hl)
  refine ⟨t, hrun, ?_, hpan, fun l hl => ⟨?_, hmode hl⟩, fun g hg hnone => ?_,
    fun g hg => ?_⟩
  · have htotal : goodTotal t = goodTotal (numberPan p ds s) := by
      unfold goodTotal numberedPans goodCount livePans getPan panLive
      rw [hpans, htide]
    rw [hsaid, List.getLast?_concat, coreReport, reportedCount_numberPan _ hlive, htotal]
  · have hdefect := hcore (coreAt p l)
    rw [if_pos (panOf_coreAt (hlt l hl)), if_pos (List.mem_map_of_mem hl), zeroise_defectCore] at hdefect
    exact congrArg (fun c : Core => c.r.st) hdefect
  · have hgood : g ∉ ds.map (coreAt p) := fun hm => by
      obtain ⟨l, hl, rfl⟩ := List.mem_map.mp hm
      exact hnone l hl rfl
    exact (hcore g).trans (by rw [if_pos hg, if_neg hgood])
  · have hout : g ∉ ds.map (coreAt p) := fun hm => by
      obtain ⟨l, hl, rfl⟩ := List.mem_map.mp hm
      exact hg (panOf_coreAt (hlt l hl))
    exact (hcore g).trans (by rw [if_neg hg, if_neg hout])

end

end Sys2Proof.Machine
end

section
/-! O51: P4, P5, the test packs and the watch indicators (10 R245; 15 R385 to R387; 16 R422; 18 R455; 19 R473, R474, R476). -/

namespace Sys2Proof.Machine

open Sys2Proof.Claims

-- P4 -------------------------------------------------------------------------------------------------------------

theorem exec_p4Kernels {s : State} {p : Fin 96} (hlive : panLive s p = true) (hnum : (getPan s p).num.isSome = true)
    (hp4 : s.boot.p4.contains (p : Nat) = false) (hidle : idlePan s p = true) (ok : Bool) :
    let s1 := { s with boot := { s.boot with p4 := (p : Nat) :: s.boot.p4 } }
    exec (.p4Kernels p ok) s = .next (if ok then setPan s1 p { getPan s p with shortOn := true } else suspect 3 s1) := by
  have hnone : (getPan s p).num.isNone = false := by rw [← Option.not_isSome, hnum]; rfl
  refine congrArg Host.Outcome.next (if_neg ?_)
  rw [hnone, hlive, hp4, hidle]
  exact Bool.false_ne_true

-- P5: CAL --------------------------------------------------------------------------------------------------------

/-- A lower rate delivered. -/
theorem lowering_frame (k : Nat) (s : State) : ∃ ns, { deliverRate (north s + 4096) k s with
      power := { (deliverRate (north s + 4096) k s).power with lowering := some (north s + 4096, k) } } =
    { s with nodes := ns, tide := { s.tide with pend := some (north s + 4096, k) }, power := { s.power with lowering := some (north s + 4096, k) } } := by
  obtain ⟨ns, h, -⟩ := deliverRate_eq (north s + 4096) k s
  rw [h]
  exact ⟨ns, rfl⟩

/-- CAL is confirmed; a lower rate that it needs is delivered, and the live pans are those of before (10 R245). -/
theorem setCal_frame (k : Option Nat) (s : State) : ∃ td ns rl h sd lw, setCal k s =
    { s with tide := td, nodes := ns, rel := rl, host := h, said := sd, power := { s.power with lowering := lw } } ∧
    td.cal = k.getD 8 ∧ td.live = s.tide.live := by
  unfold setCal
  dsimp only
  obtain ⟨h, rep, hs⟩ := suspect_eq 4 { s with tide := { s.tide with cal := k.getD 8 } }
  rw [hs]
  split
  · exact ⟨_, _, _, _, _, _, rfl, rfl, rfl⟩
  · split
    · obtain ⟨ns, hd⟩ := lowering_frame (k.getD 8)
        { s with tide := { s.tide with cal := k.getD 8 }, rel := { s.rel with suspect := setBit s.rel.suspect 4 true }, host := h, said := s.said ++ rep }
      exact ⟨_, ns, _, _, _, _, hd, rfl, rfl⟩
    · exact ⟨_, _, _, _, _, _, rfl, rfl, rfl⟩

theorem calibrateRim_frame (s : State) : ∃ rb fr, calibrateRim s = { s with power := { s.power with rimBase := rb }, free := fr } := by
  unfold calibrateRim
  split <;> exact ⟨_, _, rfl⟩

-- P5: the sluices ------------------------------------------------------------------------------------------------

/-- A sluice as P5 measures it anew (10 R245). -/
def measuredAnew (lats : List (Nat × Nat)) (s : State) (n : Nat) : Sluice :=
  let x := getSluice s n
  let t := lats.getD n (0, 0)
  if panLive s (n / 4) then { x with lat := min 255 t.1, latOut := if rimSide (n / 4) (n % 4) then min 255 t.2 else x.latOut } else x

theorem remeasure_frame (lats : List (Nat × Nat)) (s : State) (n : Nat) : ∃ sl, remeasure lats s n = { s with sluices := sl } := by
  unfold remeasure
  dsimp only
  split <;> exact ⟨_, rfl⟩

theorem twf_remeasure (lats : List (Nat × Nat)) {s : State} (n : Nat) (hwf : twf Sluice.zero s.sluices = true) :
    twf Sluice.zero (remeasure lats s n).sluices = true := by
  unfold remeasure
  dsimp only
  split
  · exact hwf
  · exact twf_tset _ _ _ _ hwf

theorem getSluice_remeasure (lats : List (Nat × Nat)) {s : State} (n : Nat) (hwf : twf Sluice.zero s.sluices = true) :
    getSluice (remeasure lats s n) n = measuredAnew lats s n := by
  unfold remeasure measuredAnew
  cases panLive s (n / 4) with
  | false => rfl
  | true => exact tget_tset_same _ _ _ _ hwf

theorem getSluice_remeasure_ne (lats : List (Nat × Nat)) (s : State) (n m : Nat) (hm : m ≠ n) :
    getSluice (remeasure lats s n) m = getSluice s m := by
  unfold remeasure
  dsimp only
  split
  · rfl
  · exact tget_tset_ne _ _ _ _ _ hm

theorem measuredAnew_remeasure (lats : List (Nat × Nat)) (s : State) (n m : Nat) (hm : m ≠ n) :
    measuredAnew lats (remeasure lats s n) m = measuredAnew lats s m := by
  have hget := getSluice_remeasure_ne lats s n m hm
  have hlive : panLive (remeasure lats s n) (m / 4) = panLive s (m / 4) := by
    obtain ⟨_, h⟩ := remeasure_frame lats s n
    rw [h]
    rfl
  unfold measuredAnew
  rw [hget, hlive]

/-- All sluices measured anew. -/
def remeasureAll (lats : List (Nat × Nat)) (s : State) : State := (List.range 384).foldl (remeasure lats) s

theorem remeasureAll_frame (lats : List (Nat × Nat)) (s : State) : ∃ sl, remeasureAll lats s = { s with sluices := sl } :=
  List.foldlRecOn (motive := fun t : State => ∃ sl, t = { s with sluices := sl }) (List.range 384) (remeasure lats) ⟨_, rfl⟩ fun t ⟨_, ht⟩ n _ => by
    obtain ⟨sl, h⟩ := remeasure_frame lats t n
    rw [h, ht]
    exact ⟨sl, rfl⟩

theorem getSluice_remeasureAll (lats : List (Nat × Nat)) {s : State} (hwf : twf Sluice.zero s.sluices = true) {n : Nat} (hn : n < 384) :
    getSluice (remeasureAll lats s) n = measuredAnew lats s n :=
  (get_foldl_of_nodup (get := getSluice) (g := measuredAnew lats) (I := fun s => twf Sluice.zero s.sluices = true)
    (fun _ n => twf_remeasure lats n) (fun _ n => getSluice_remeasure lats n) (fun s n m _ => getSluice_remeasure_ne lats s n m)
    (fun s n m _ => measuredAnew_remeasure lats s n m) List.nodup_range hwf n).trans (if_pos (List.mem_range.mpr hn))

-- P5: the pans ---------------------------------------------------------------------------------------------------

theorem calibratePan_frame (s : State) (p : Nat) : ∃ ps fr, calibratePan s p = { s with power := { s.power with pans := ps }, free := fr } := by
  unfold calibratePan
  split <;> exact ⟨_, _, rfl⟩

theorem getPwr_setPwr_of_cald (s : State) (p : Nat) {x : PanPwr} (h : x.cald = true) : getPwr (setPwr s p x) p = x :=
  getPwr_setPwr_of_ne s p fun hz => by cases h.symm.trans (congrArg PanPwr.cald hz)

/-- An idle pan is calibrated, if it was not (15 R387). -/
theorem cald_calibratePan {s : State} {p : Nat} (hidle : idlePan s p = true) : (getPwr (calibratePan s p) p).cald = true := by
  unfold calibratePan
  split
  · next h =>
    rw [hidle, Bool.not_true, Bool.or_false] at h
    exact h
  · exact congrArg PanPwr.cald (getPwr_setPwr_of_cald s p rfl)

/-- A pan that is calibrated stays so. -/
theorem cald_calibratePan_of_cald {s : State} (p : Nat) {q : Nat} (h : (getPwr s q).cald = true) : (getPwr (calibratePan s p) q).cald = true := by
  unfold calibratePan
  split
  · exact h
  · by_cases hq : q = p
    · subst hq
      exact congrArg PanPwr.cald (getPwr_setPwr_of_cald s q rfl)
    · exact (congrArg PanPwr.cald (getPwr_setPwr_ne s p q _ hq)).trans h

theorem idlePan_congr {s t : State} (hpans : t.pans = s.pans) (hparts : t.parts = s.parts) (p : Nat) : idlePan t p = idlePan s p := by
  unfold idlePan getPan getPart
  rw [hpans, hparts]

theorem calibratePans_frame (l : List Nat) (s : State) : ∃ ps fr, l.foldl calibratePan s = { s with power := { s.power with pans := ps }, free := fr } :=
  List.foldlRecOn (motive := fun t : State => ∃ ps fr, t = { s with power := { s.power with pans := ps }, free := fr }) l calibratePan ⟨_, _, rfl⟩
    fun t ⟨_, _, ht⟩ p _ => by
      obtain ⟨ps, fr, h⟩ := calibratePan_frame t p
      rw [h, ht]
      exact ⟨ps, fr, rfl⟩

theorem cald_calibratePans {l : List Nat} {s : State} {q : Nat} (hq : q ∈ l) (hidle : idlePan s q = true) :
    (getPwr (l.foldl calibratePan s) q).cald = true :=
  foldl_of_mem (I := fun t : State => t.pans = s.pans ∧ t.parts = s.parts) (P := fun t : State => (getPwr t q).cald = true) hq ⟨rfl, rfl⟩
    (fun t p _ ht => by
      obtain ⟨_, _, h⟩ := calibratePan_frame t p
      rw [h]
      exact ht)
    (fun _ ⟨hpans, hparts⟩ => cald_calibratePan ((idlePan_congr hpans hparts q).trans hidle))
    (fun _ p _ ht => cald_calibratePan_of_cald p ht)

-- P5 -------------------------------------------------------------------------------------------------------------

/-- P5 before it calibrates the pans. -/
def serviceBegun (lats : List (Nat × Nat)) (s : State) : State :=
  calibrateRim (setRails s.tide.rate (setCal (confirmed (crossings s lats))
    (remeasureAll lats (loadTherm { s with boot := { s.boot with p5 := true } }))))

/-- FULL once every live pan is calibrated. -/
def fullNow (s : State) : State :=
  if (livePans s).all (fun p => (getPwr s p).cald) then { s with host := { s.host with full := true } } else s

theorem fullNow_frame (s : State) : ∃ h, fullNow s = { s with host := h } := by
  unfold fullNow
  split <;> exact ⟨_, rfl⟩

theorem exec_p5FullService {s : State} (lats : List (Nat × Nat)) (hp2 : s.boot.p2 = true) (hfull : s.host.full = false) (hlocked : s.tide.locked = true)
    (hp4 : ∀ q ∈ livePans s, s.boot.p4.contains q = true) (hp5 : s.boot.p5 = false) : exec (.p5FullService lats) s =
      .next (fullNow ((livePans (serviceBegun lats s)).foldl calibratePan (serviceBegun lats s))) := by
  have hgo : ¬((!s.boot.p2 || s.host.full || !s.tide.locked || !(livePans s).all (fun p => s.boot.p4.contains p)) = true) := by
    rw [hp2, hfull, hlocked, List.all_eq_true.mpr hp4]
    exact Bool.false_ne_true
  rw [show exec (.p5FullService lats) s = execP5FullService lats s from rfl, execP5FullService, if_neg hgo, hp5]
  rfl

/-- What P5 has measured and confirmed, and what it leaves. -/
theorem serviceBegun_fields (lats : List (Nat × Nat)) (s : State) :
    let t := serviceBegun lats s
    t.boot = { s.boot with p5 := true } ∧ t.tide.cal = (confirmed (crossings s lats)).getD 8 ∧ t.tide.live = s.tide.live ∧
      t.power.vf.isSome = true ∧ t.pans = s.pans ∧ t.parts = s.parts ∧
      t.sluices = (remeasureAll lats (loadTherm { s with boot := { s.boot with p5 := true } })).sluices := by
  obtain ⟨sl, hmeasure⟩ := remeasureAll_frame lats (loadTherm { s with boot := { s.boot with p5 := true } })
  obtain ⟨td, ns, rl, h, sd, lw, hset, hcal, hlive⟩ :=
    setCal_frame (confirmed (crossings s lats)) (remeasureAll lats (loadTherm { s with boot := { s.boot with p5 := true } }))
  obtain ⟨ps, hrails⟩ := setRails_frame s.tide.rate (setCal (confirmed (crossings s lats))
    (remeasureAll lats (loadTherm { s with boot := { s.boot with p5 := true } })))
  obtain ⟨rb, fr, hrim⟩ := calibrateRim_frame (setRails s.tide.rate (setCal (confirmed (crossings s lats))
    (remeasureAll lats (loadTherm { s with boot := { s.boot with p5 := true } }))))
  rw [hmeasure] at hlive
  unfold serviceBegun
  rw [hrim, hrails, hset, hmeasure]
  exact ⟨rfl, hcal, hlive, rfl, rfl, rfl, rfl⟩

/-- P5 as it ends (10 R245; 15 R386, R387; 18 R455). -/
theorem full_service {s : State} (lats : List (Nat × Nat)) (hp2 : s.boot.p2 = true) (hfull : s.host.full = false) (hlocked : s.tide.locked = true)
    (hp4 : ∀ q ∈ livePans s, s.boot.p4.contains q = true) (hp5 : s.boot.p5 = false) :
    ∃ t, exec (.p5FullService lats) s = .next t ∧ t.boot = { s.boot with p5 := true } ∧
      t.tide.cal = (confirmed (crossings s lats)).getD 8 ∧ t.power.vf.isSome = true ∧
      (∀ n, n < 384 → s.tablesWf = true → panLive s (n / 4) = true → (getSluice t n).lat = min 255 (lats.getD n (0, 0)).1) ∧
      (∀ q ∈ livePans s, idlePan s q = true → (getPwr t q).cald = true) ∧
      ((∀ q ∈ livePans s, idlePan s q = true) → t.host.full = true) := by
  obtain ⟨hboot, hcal, hlive, hvf, hpans, hparts, hsluices⟩ := serviceBegun_fields lats s
  have hrun := exec_p5FullService lats hp2 hfull hlocked hp4 hp5
  generalize serviceBegun lats s = s1 at *
  have hlives : livePans s1 = livePans s := by
    unfold livePans panLive
    rw [hlive]
  rw [hlives] at hrun
  obtain ⟨ps, fr, hframe⟩ := calibratePans_frame (livePans s) s1
  have hcald : ∀ q ∈ livePans s, idlePan s q = true → (getPwr ((livePans s).foldl calibratePan s1) q).cald = true :=
    fun q hq hidle => cald_calibratePans hq ((idlePan_congr hpans hparts q).trans hidle)
  have hlives2 : livePans ((livePans s).foldl calibratePan s1) = livePans s := by
    rw [hframe]
    exact hlives
  generalize (livePans s).foldl calibratePan s1 = s2 at *
  obtain ⟨h, hh⟩ := fullNow_frame s2
  refine ⟨_, hrun, ?_, ?_, ?_, fun n hn hwf hpan => ?_, fun q hq hidle => ?_, fun hidle => ?_⟩
  · rw [hh, hframe]
    exact hboot
  · rw [hh, hframe]
    exact hcal
  · rw [hh, hframe]
    exact hvf
  · have hget := getSluice_remeasureAll lats (s := loadTherm { s with boot := { s.boot with p5 := true } }) ((tablesWf_iff s).mp hwf).sluices hn
    rw [measuredAnew, if_pos (by exact hpan)] at hget
    rw [hh, hframe]
    exact (congrArg (fun sl => (tget Sluice.zero sl n).lat) hsluices).trans (congrArg Sluice.lat hget)
  · rw [hh]
    exact hcald q hq hidle
  · have hall : (livePans s2).all (fun p => (getPwr s2 p).cald) = true := by
      rw [hlives2]
      exact List.all_eq_true.mpr fun q hq => hcald q hq (hidle q hq)
    rw [fullNow, if_pos hall]

theorem bring_up_numbers_the_pans : Claims.BringUpNumbersThePans := by
  intro s p bad lats ds
  refine ⟨fun hp2 hlive hnum => ⟨fun hbad => ?_, fun hbad hwf hstuck => a_pan_is_numbered hp2 hlive hnum hbad hstuck rfl hwf⟩,
    fun hlive hnum hp4 hidle => ⟨exec_p4Kernels hlive hnum hp4 hidle true, exec_p4Kernels hlive hnum hp4 hidle false⟩, full_service lats⟩
  rw [exec_p3Kernels hp2 hlive hnum, if_pos (by rw [List.contains_iff_mem]; exact hbad)]

-- Test packs and watch indicators --------------------------------------------------------------------------------

theorem getTest_setTest_of_ne_zero (s : State) (p : Nat) {x : TestPan} (h : x ≠ TestPan.zero) : getTest (setTest s p x) p = x :=
  tget_tset_of_ne TestPan.zero s.rel.pans p x h

/-- The cores of a pan zeroised, with a run of the test pack counted. -/
def testedCores (p : Nat) (s : State) : State :=
  mapCores { s with rel := { s.rel with runs := (s.rel.runs + 1) % 2 ^ 32 } } (fun g _ => decide (panOf g = p)) (fun _ c => zeroise c)

theorem getCore_testedCores (p : Nat) {s : State} (hwf : twf Core.zero s.cores = true) (g : Nat) :
    getCore (testedCores p s) g = if panOf g = p then zeroise (getCore s g) else getCore s g :=
  (getCore_mapCores (s := { s with rel := { s.rel with runs := (s.rel.runs + 1) % 2 ^ 32 } }) hwf fun _ => zeroise_zero).trans
    (if_congr decide_eq_true_iff rfl rfl)

/-- The end of a run on a pan whose cores all read back as cleared (19 R473; 16 R422). -/
theorem exec_testpackRunEnd {s : State} {p : Fin 96} (hrun : (getTest s p).run = true) (hstuck : ∀ g ∈ s.stuck, panOf g ≠ (p : Nat)) :
    exec (.testpackRunEnd p none) s = .next (setTest (testedCores p s) p
      { getTest s p with run := false, pass := true, passAt := s.time, overdue := false }) ∧
    ∀ f, ∃ h sd, exec (.testpackRunEnd p (some f)) s = .next (
      let s2 := setTest (testedCores p s) p { getTest s p with run := false, pass := false, quar := true, fail := some f }
      { s2 with rel := { s2.rel with fails := min 0xFFFF (s2.rel.fails + 1), suspect := setBit s2.rel.suspect 7 true }, host := h, said := sd }) := by
  have hread : ∀ t : State, t.stuck = s.stuck → readback (fun g => decide (panOf g = (p : Nat))) t = t := fun t ht =>
    readback_of_none_stuck fun g hg => decide_eq_false (hstuck g (by rw [← ht]; exact hg))
  have hgo : ¬((!(getTest s p).run) = true) := by rw [hrun]; exact Bool.false_ne_true
  refine ⟨congrArg Host.Outcome.next ((if_neg hgo).trans (hread _ rfl)), fun f => ?_⟩
  let s2 := setTest (testedCores p s) p { getTest s p with run := false, pass := false, quar := true, fail := some f }
  obtain ⟨h, rep, hs⟩ := suspect_eq 7 { s2 with rel := { s2.rel with fails := min 0xFFFF (s2.rel.fails + 1) } }
  have hstuck' : (suspect 7 { s2 with rel := { s2.rel with fails := min 0xFFFF (s2.rel.fails + 1) } }).stuck = s.stuck := by
    rw [hs]
    rfl
  exact ⟨h, _, congrArg Host.Outcome.next ((if_neg hgo).trans ((hread _ hstuck').trans hs))⟩

theorem pans_are_tested_and_watched : Claims.PansAreTestedAndWatched := by
  intro s p f b x
  refine ⟨fun hlive hnum => ⟨fun hrun hfree hdue => ?_, fun hover hdue => ?_⟩, fun hrun hwf hstuck => ?_, fun hseen hgone => ?_⟩
  · refine congrArg Host.Outcome.next (if_pos ?_)
    rw [hlive, hnum, hfree, show (getTest s p).run = false from hrun, decide_eq_true hdue]
    rfl
  · refine congrArg Host.Outcome.next (if_pos ?_)
    rw [hlive, hnum, show (getTest s p).overdue = false from hover, decide_eq_true hdue]
    rfl
  · obtain ⟨hpass, hfail⟩ := exec_testpackRunEnd hrun hstuck
    obtain ⟨h, sd, hfail⟩ := hfail f
    have hcore := getCore_testedCores p ((tablesWf_iff s).mp hwf).cores
    refine ⟨⟨_, hpass, ?_, rfl, hcore⟩, ⟨_, hfail, ?_, ?_, rfl, hcore⟩⟩
    · exact getTest_setTest_of_ne_zero (testedCores p s) p fun hz => Bool.false_ne_true (congrArg TestPan.pass hz).symm
    · exact getTest_setTest_of_ne_zero (testedCores p s) p (x := { x with run := false, pass := false, quar := true, fail := some f })
        fun hz => Bool.false_ne_true (congrArg TestPan.quar hz).symm
    · exact (getLsbD_setBit ..).trans (if_pos ⟨rfl, by decide⟩)
  · exact congrArg Host.Outcome.next (if_pos ⟨hseen, by rw [hgone]; rfl⟩)

end Sys2Proof.Machine

open Sys2Proof Sys2Proof.Machine

/-- Settles O51: P3 by the pan's DEFECT positions, P5 by its passes over sluices and pans, a test run by its outcome. The bytes of the report (log 114),
what P5 measures (log 83), when a test interval starts (log 84) and that a core that does not read back as 0 takes its pan dark (log 115) are the
model's readings. -/
theorem pansAreNumberedAndTested : Obligations.PansAreNumberedAndTested := ⟨bring_up_numbers_the_pans, pans_are_tested_and_watched⟩
end
